-- ==== Sys2Proof/Word.lean ====
section
/-!
DEFINITION. The word types of the PX96 register model: registers are 32 bits wide and little-endian (R8).
-/
namespace Sys2Proof

/-- A register word (R8). -/
abbrev Word := BitVec 32

/-- A half of a guarded word (R43). -/
abbrev Half := BitVec 16

/-- A byte of a memory. -/
abbrev Byte := BitVec 8

end Sys2Proof
end

