-- ==== Sys2Proof/Syntax.lean ====
section
/-!
DEFINITION. The commands of the block: one constructor of `Instr` for each row of spec/opcode_table.json, with the
operands the row's rule gives it. A command is a register access by a requester, an event at a pin or a link, or an event
of the part's own clocks and engines; what the event found (a measured offset, a verdict, the fields of a frame) is its
operand.
-/
namespace Sys2Proof

/-- Who makes a register access (R55, R451): the host over PCI Express, the host over SPI, an engine, or the master
part's cascade window (R458). -/
inductive Requester where
  | pcie
  | spi
  | engine (n : Fin 16)
  | casc
  deriving DecidableEq, Repr

/-- The dies (R1). -/
inductive Die where
  | c
  | e
  | d (n : Fin 6)
  deriving DecidableEq, Repr

/-- The action slots of the blocks that have them (R96): sub-GHz radio, mesh, lamps, access scheduler, cross-band links,
and the packet sequencer or backhaul page of a radio die. -/
inductive ActSlot where
  | rf (i : Fin 8)
  | mesh (i : Fin 2)
  | lamp (i : Fin 8)
  | sched (i : Fin 8)
  | link (i : Fin 8)
  | part (d : Fin 6) (i : Fin 8)
  deriving DecidableEq, Repr

/-- The four Flue message classes, highest priority first (R14). -/
inductive FlueClass where
  | time
  | critical
  | register
  | frame
  deriving DecidableEq, Repr

/-- One Flue message (R14, R17): its class and, for a critical value or a register access, the register and the word it
carries (value in bits 15:0 and its complement in bits 31:16 for a critical value). -/
structure FlueMsg where
  cls : FlueClass
  addr : Nat
  word : Word
  deriving DecidableEq, Repr

/-- What a die's self-test reports (R119, R127): the tests that failed at their first run and those that failed again
(bit 0 memory, 1 logic, 2 Flue, 3 loopback), the slices that failed loopback, whether a standing failure of die C lies in
the essential set, the instance and location of the first failing test, and the duration in units of 10 µs. -/
structure TestReport where
  first : BitVec 4
  standing : BitVec 4
  slices : Half
  essential : Bool
  inst : Nat
  location : Nat
  dur : Nat
  deriving DecidableEq, Repr

/-- What followed a DALI forward frame: nothing, a backward frame, or one that was no valid frame (R475). -/
inductive DaliAnswer where
  | none
  | byte (b : Byte)
  | framing
  deriving DecidableEq, Repr

/-- Steps of a radio start that failed on slices of a tile, 0 to 3, by step number (R217, R284). -/
structure StartFail where
  tile : Nat
  steps : BitVec 7
  deriving DecidableEq, Repr

/-- What a radio start reports (R217, R227, R261, R284): failed steps, and in backhaul role the identity each head answered. -/
structure StartReport where
  fails : List StartFail
  head0 : Option Half
  head1 : Option Half
  deriving DecidableEq, Repr

/-- What the PHR of a sub-GHz reception says (R135): MS bit, reserved bits zero, PSDU length, 4-octet FCS, whitening, and
whether the decoder's path metric lies within its limit. -/
structure SgPhr where
  ms : Bool
  rsvZero : Bool
  len : Nat
  fcs4 : Bool
  dw : Bool
  metricOk : Bool
  deriving DecidableEq, Repr

/-- The MAC header and auxiliary security header of a received sub-GHz frame (R165, R168): frame version and type (0 beacon, 1 data, 2
Imm-Ack, 3 MAC command) with its command code, acknowledgement request, information elements, security enabled, a suppressed or 5-octet
frame counter, security level, key identifier mode, PAN, destination and source as short addresses (0xFFFE with an extended one), DSN, key
index and frame counter. -/
structure MacHdr where
  version : Nat
  ftype : Nat
  cmd : Nat
  ackReq : Bool
  ies : Bool
  secured : Bool
  oddCounter : Bool
  level : Nat
  keyMode : Nat
  panId : Nat
  dest : Nat
  destEui : Option Nat
  src : Nat
  srcEui : Option Nat
  dsn : Nat
  keyIndex : Nat
  counter : Nat
  deriving DecidableEq, Repr

/-- What the radio finds at the end of a received frame (R141 to R143): FCS result, PSDU, link quality, carrier offset in
50 Hz units, data-rate error, and the frame's MAC header. -/
structure SgRxEnd where
  fcsOk : Bool
  psdu : List Byte
  lqi : Byte
  fofs : Int
  rateErr : Int
  mac : MacHdr
  deriving DecidableEq, Repr

/-- A two-way measurement of a time source (R81, R83): its four stamps in ns, and what the source announces: rank of its
grandmaster by the data-set comparison (lower is better), steps removed, whether the server is LOCKED, whether the
timescale is arbitrary, and currentUtcOffset. -/
structure TimeMeas where
  t1 : Int
  t2 : Int
  t3 : Int
  t4 : Int
  gmRank : Nat
  steps : Nat
  locked : Bool
  arb : Bool
  utc : Int
  deriving DecidableEq, Repr

/-- A mesh frame above its security: the mesh header of R168 and its payload. -/
structure MeshHdr where
  mtype : Nat
  ttl : Nat
  ext : Bool
  origin : Nat
  dest : Nat
  mseq : Nat
  payload : List Byte
  deriving DecidableEq, Repr

/-- What the security check of a received mesh frame finds beside its MAC header (R168, R188): the EUI-64 that the Ember engine has learnt
of a short source which its tables do not hold (none: an unknown source), whether the MIC is good, and of the mesh header, which a beacon
and a Data Request do not have, the type, TTL and whether the reserved bits are 0. -/
structure MeshSec where
  learnt : Option Nat
  micOk : Bool
  mtype : Nat
  ttl : Nat
  rsvZero : Bool
  deriving DecidableEq, Repr

/-- A received beacon's payload (R170): PROTO, FLAGS, depth, path cost, interval, NTIME at the end of its SFD in ns, and the RSSI in dBm. -/
structure BeaconRx where
  proto : Nat
  flags : BitVec 8
  depth : Nat
  cost : Nat
  bcnInt : Nat
  ntime : Nat
  rssi : Int
  deriving DecidableEq, Repr

/-- JOIN_REQ, JOIN_RESP and LEAVE payloads (R171): EUI-64, short address, CAPS or STATUS or REASON, poll interval, and the
relaying parent. -/
structure JoinInfo where
  eui : Nat
  short : Nat
  code : Nat
  poll : Nat
  parent : Nat
  deriving DecidableEq, Repr

/-- What a chain of a partition measured: die index, chain of the die, level (forward power in 0.25 dBm after a
transmission, RSSI in 0.5 dB after a reception), return loss in 0.25 dB, and the detector readings in mV (R207, R226). -/
structure ChainLevel where
  die : Nat
  chain : Nat
  level : Int
  rl : Nat
  detFwd : Nat
  detRev : Nat
  deriving DecidableEq, Repr

/-- A tile whose slices failed calibration steps: die index, tile, steps (R219). -/
structure CalFail where
  die : Nat
  tile : Nat
  steps : BitVec 4
  deriving DecidableEq, Repr

/-- What the parse finds in an IP packet (R319, R324): version, addresses, TTL or hop limit, DSCP, protocol, ports, IHL, that
the IPv4 version, IHL and header checksum are good, that a hop-by-hop header follows, and the header checksum. -/
structure IpHdr where
  v6 : Bool
  src : Nat
  dst : Nat
  ttl : Nat
  dscp : Nat
  proto : Nat
  sport : Nat
  dport : Nat
  ihl : Nat
  sound : Bool
  hbh : Bool
  csum : Nat
  deriving DecidableEq, Repr

/-- An Ethernet frame as step 1 of R319 parses it: destination and source MAC, the tag's PCP and VID, the IP header behind it,
its length in octets, and its payload. -/
structure Frame where
  dst : Nat
  src : Nat
  tag : Option (Nat × Nat)
  ip : Option IpHdr
  len : Nat
  payload : List Byte
  deriving DecidableEq, Repr

/-- What a frame brings to forwarding from its ingress port beside itself: the transmitting station and its BSSID on an access
port, the TID there or the CLASS of an XBL header (R322), and the ORIGIN on the mesh port (R326). -/
structure Ingress where
  sta : Nat
  bssid : Nat
  cls : Nat
  origin : Nat
  deriving DecidableEq, Repr

/-- A received MPDU (R236, R246, R248, R252 to R254): its station, TID, Retry bit, sequence number, packet number, whether its
Key ID selects KEY_NEXT, whether its tag is good, its power-management bit, whether it is a PS-Poll or U-APSD trigger, the
queue size it reports, the window of the block acknowledgement agreement for its station and TID, and its frame. -/
structure MpduRx where
  sta : Nat
  tid : Nat
  retry : Bool
  sn : Nat
  pn : Nat
  useNext : Bool
  authOk : Bool
  pm : Bool
  poll : Bool
  queueSize : Option Nat
  ba : Option Nat
  frame : Option Frame
  deriving DecidableEq, Repr

/-- A station's block acknowledgement of a PPDU (R253): the sequence numbers it reports received, and none where the exchange
brought no acknowledgement. -/
structure BlockAck where
  sta : Nat
  tid : Nat
  acked : Option (List Nat)
  deriving DecidableEq, Repr

/-- A received backhaul frame (R268 to R270): whether its CRC and its consistency hold, the header's fields, the mean SNR of the
CE symbols of each stream in 0.5 dB units, the measured carrier offset in kHz, the probe results the receiver found, lower and
upper, in signed 0.5 dB, its arrival against the receiver's grid in the unit of TA, and its failed codewords. TMAP codes are 0 BASE, 1 A, 2 B, 3 OFF; a TM_UPDATE it carries is a command
of its own. -/
structure BhFrame where
  crcOk : Bool
  ver : Nat
  endB : Bool
  sender : Nat
  consistent : Bool
  cycle : Nat
  tmap : List Nat
  probe : Bool
  probeRx : Bool
  baseReq : Bool
  k : List Nat
  mapId : List Nat
  ackId : List Nat
  backoffReq : List Nat
  txBeam : Nat
  beamReq : Option Nat
  probeLo : Int
  probeHi : Int
  snrFb : Nat
  skip : Nat
  locked : Bool
  ta : Int
  snr : List Int
  offset : Int
  foundLo : Int
  foundHi : Int
  arrival : Int
  cwFail : Nat
  deriving DecidableEq, Repr

/-- A received XBL frame (R297, R303, R304): version, type (0 DATA, 1 ACK, 2 TT, 3 KEEPALIVE), class, KEY_PHASE, MUP, packet
number, PREV, that its zero fields are zero and its payload fits its type, that its tag is good under the key that KEY_PHASE
selects, the frame of a DATA frame, and the blocks of an ACK: start and 256-bit bitmap. -/
structure XblFrame where
  ver : Nat
  type : Nat
  cls : Fin 8
  phase : Bool
  mup : BitVec 3
  pn : Nat
  prev : Nat
  sound : Bool
  authOk : Bool
  data : Option Frame
  acks : List (Nat × BitVec 256)
  deriving DecidableEq, Repr

/-- What the ECC finds in a DRAM access or a patrol pass (R421, R422): lines with a corrected error, and an uncorrectable one
with its line's address and the syndrome words; further channels with an uncorrectable error in the same cycle are counted. -/
structure EccFound where
  corrected : List Nat
  failed : Option (Nat × Word × Word)
  extra : Nat
  deriving DecidableEq, Repr
/-- The share of a group that a subordinate part receives with PREP (R67, R460): the group's tag, T, ALLOW_CLAMP and the staged
writes, by the part's own BAR0 offsets. -/
structure GroupShare where
  tag : Nat
  tS : Nat
  tNs : Nat
  allowClamp : Bool
  writes : List (Nat × Word)
  deriving DecidableEq, Repr

/-- What a participant on another part of the cascade reports at a vote (R29, R31): its part and die, a reason code of R63, and
the page and offset it names. -/
structure RemoteVote where
  part : Fin 4
  die : Die
  reason : Nat
  page : Nat
  off : Nat
  deriving DecidableEq, Repr

/-- What an access through the cascade window finds on the subordinate part (R458): an answer, with the value read; or, for a
write under a tag, the value it stages and whether that was clamped, or the reason (R63) of a failed check. -/
inductive CascFound where
  | plain (value : Word)
  | staged (value : Word) (clamped : Bool)
  | failed (reason : Nat)
  deriving DecidableEq, Repr

/-- The commands of the block, in the order of the table. -/
inductive Instr where
  /-- A write to a register that has no row of its own is applied per its access code, legal range and staging state. (R8) -/
  | registerWrite (r : Requester) (a : Nat) (w : Word) (be : BitVec 4)
  /-- An access to the window of a fitted but unpowered die reads 0 or is discarded, and ACCESS_OFF is recorded in the global page. (R39) -/
  | accessOff (r : Requester) (a : Nat) (write : Bool)
  /-- A read of ERR_CODE returns the code and count and clears ERR_CODE and ERR_INFO together. (R42) -/
  | errCodeRead (r : Requester) (page : Nat)
  /-- A read of CLAMP_FIELD freezes CLAMP_WROTE and CLAMP_APPLIED for the requester until CLAMP_COUNT is read. (R48) -/
  | clampFieldRead (r : Requester) (page : Nat)
  /-- A read of CLAMP_COUNT returns and clears the count, clears CLAMP_FIELD.VALID and releases the frozen record. (R48) -/
  | clampCountRead (r : Requester) (page : Nat)
  /-- A read of GUARD_FAIL returns the most recent guard failure record and clears it. (R40) -/
  | guardFailRead (r : Requester) (page : Nat)
  /-- A read of a read-clear counter returns its value and clears it, counting any coinciding event after the read. (R482) -/
  | rcCounterRead (r : Requester) (a : Nat) (coincide : Word)
  /-- A W1C write to INT_STAT clears the matching INT_RAW bits unless a block event coincides. (R40) -/
  | intStatClear (r : Requester) (page : Nat) (w : Word) (coincide : Word)
  /-- A write to INT_SET sets the matching INT_RAW bits for test. (R40) -/
  | intSet (r : Requester) (page : Nat) (w : Word)
  /-- Writing PAGE_CTRL.SOFT_RESET returns the page's block registers to their reset values. (R40) -/
  | softReset (r : Requester) (page : Nat) (w : Word)
  /-- Unmasking a vector with its Pending Bit set sends the pending MSI-X message. (R436) -/
  | msixVectorUnmask (v : Fin 64)
  /-- When the host enables MSI-X, one message is sent for each vector whose mapped page is already interrupting. (R50) -/
  | msixEnable
  /-- Writing CLAMP_LOG_CLR empties the global clamp log and zeroes CLAMP_LOG_LOST. (R49) -/
  | clampLogClr (r : Requester) (w : Word)
  /-- A requester opens a commit group, which takes the lowest free slot with a new generation, or NO_GROUP is recorded. (R55) -/
  | txnOpen (r : Requester) (w : Word)
  /-- Reading TXN_OPENED returns the tag of the group opened by the requester's last TXN_OPEN and clears it. (R55) -/
  | txnOpened (r : Requester)
  /-- Writing TXN_TAG sets the group under which the requester's writes to the page are staged, or records TXN_NOT_OPEN. (R56) -/
  | txnTagWrite (r : Requester) (page : Nat) (w : Word)
  /-- A write under a non-zero tag is checked and placed in the group's staging store, or aborts the group for guard, clamp, conflict or limit. (R57) -/
  | stagedWrite (r : Requester) (a : Nat) (w : Word)
  /-- A guarded commit judges T against local time and moves the group to COMMITTED, its late policy, or rejects it as FAR or PAST. (R61) -/
  | txnCommit (r : Requester) (w : Word)
  /-- A participant receiving PREP places the staged values in shadows, checks guards and clamps, arms its comparator and returns ARMED. (R29) -/
  | prep (slot : Fin 16) (die : Die) (bad : Option Nat) (share : Option GroupShare)
  /-- The TXU receives ARMED from a participant and moves the group to ARMED once every participant has armed. (R62) -/
  | armed (slot : Fin 16) (part : Fin 4) (die : Die)
  /-- At T minus 50 µs the TXU collects the votes and broadcasts GO or CANCEL, or applies the supply late policy. (R29) -/
  | vote (slot : Fin 16) (go : Bool) (remote : List RemoteVote)
  /-- A CANCEL message from a participant reaches every die and stops the group before the close. (R29) -/
  | cancel (slot : Fin 16) (part : Fin 4) (die : Die) (reason : Nat)
  /-- At T minus 2 µs cancels close and every die holding GO without CANCEL is committed. (R29) -/
  | commitClose (slot : Fin 16)
  /-- At T each participant's comparator copies its shadows and table operations to live state within one tick. (R65) -/
  | groupApply (slot : Fin 16)
  /-- A WAIT_SUPPLY group is voted again once every participant has been above warning plus 50 mV for 1 ms. (R62) -/
  | waitSupplyRecovery (slot : Fin 16)
  /-- A guarded abort cancels a group as HOST if received by T minus 4 µs, or else leaves it to complete with ABORT_LATE. (R64) -/
  | txnAbort (r : Requester) (w : Word)
  /-- Releasing a COMPLETE or ABORTED group frees its slot and zeroes its status registers. (R62) -/
  | txnRelease (r : Requester) (w : Word)
  /-- A Flue message of one of four priority classes arrives at its destination die. (R14) -/
  | flueMessage (src dst : Die) (msgs : List FlueMsg)
  /-- A Flue flit whose CRC fails is retried, and after 16 consecutive failed retries the link is declared down. (R16) -/
  | flueFlitRetry (far : Die) (ok : Bool)
  /-- A Flue link with no valid flit for 100 µs is declared down and the far die treated as lost. (R16) -/
  | flueSilenceTimeout (far : Die)
  /-- Die C corrects each die's copy of local time over the Flue at least every 10 µs. (R18) -/
  | dieTimeCorrection (die : Die)
  /-- A valid offset measurement from the selected source drives the servo and the time-quality state. (R73) -/
  | timeMeasurement (src : Fin 14) (m : TimeMeas)
  /-- A source without a valid measurement for SRC_TIMEOUT becomes unavailable, and the NTU reselects or enters HOLDOVER. (R76) -/
  | srcLost (src : Fin 14)
  /-- At the named instant 20 µs ahead, every die changes its copy of local time to the new scale. (R87) -/
  | stepInstant
  /-- Writing TIME_SNAP captures local time into the four SNAP registers. (R101) -/
  | timeSnap (r : Requester) (w : Word)
  /-- TIME_STEP accepts a pending step, advances the epoch and re-judges frozen actions and groups on the new scale. (R98) -/
  | timeStep (r : Requester) (hi : Half)
  /-- TIME_KEEP refuses a pending step, marks the source REFUSED and re-judges frozen items on the unchanged scale. (R99) -/
  | timeKeep (r : Requester) (hi : Half)
  /-- TIME_SET loads the SET registers into local time, advances the epoch, or is refused while ACQUIRING or LOCKED. (R100) -/
  | timeSet (r : Requester) (hi : Half)
  /-- The RESELECT time command makes the NTU choose its source again. (R102) -/
  | reselect (r : Requester) (hi : Half)
  /-- REFUSED_CLEAR returns a refused source to use. (R99) -/
  | refusedClear (r : Requester) (hi : Half)
  /-- Writing TIME_SNAP on the real-time counter page captures die E's local time. (R509) -/
  | eTimeSnap (r : Requester) (w : Word)
  /-- TIME_STEP on die E's page accepts a step of die E's time while it keeps time alone, or records TIME_OWNED. (R509) -/
  | eTimeStep (r : Requester) (hi : Half)
  /-- TIME_KEEP on die E's page refuses a step of die E's time, or records TIME_OWNED. (R509) -/
  | eTimeKeep (r : Requester) (hi : Half)
  /-- TIME_SET on die E's page loads die E's local time from its SET registers, or records TIME_OWNED. (R509) -/
  | eTimeSet (r : Requester) (hi : Half)
  /-- REFUSED_CLEAR on die E's page returns a refused mesh source to use, or records TIME_OWNED. (R509) -/
  | eRefusedClear (r : Requester) (hi : Half)
  /-- A received PTP frame is stamped at the PCS boundary and its stamp placed in the receive descriptor. (R80) -/
  | ptpFrameRx (port : Fin 3) (ptp wellFormed : Bool)
  /-- A departing Sync or Delay_Resp has its stamp inserted on the fly with FCS and checksum fixed. (R80) -/
  | ptpEventTx (port : Fin 3) (sync : Bool)
  /-- A client sends TT_REQ at its exchange rate with t1 inserted on the fly. (R83) -/
  | ttReqSend (link : Fin 8)
  /-- A server stamps an arriving TT_REQ as t2 and answers with TT_RESP. (R83) -/
  | ttReq (link : Fin 9) (member : Fin 3) (seq t1 : Nat)
  /-- A client stamps an arriving TT_RESP as t4 and computes path delay and offset, or discards a mismatched exchange. (R83) -/
  | ttResp (link : Fin 9) (seq : Nat) (m : TimeMeas)
  /-- A TT_REQ unanswered within 100 ms is counted as lost. (R83) -/
  | ttLost (link : Fin 9)
  /-- Die E runs a two-way time exchange with its mesh parent every TT_SUB_INT. (R86) -/
  | ttSubExchange
  /-- Writing ACT_ARM.ENABLE 1 arms a slot afresh, judging its ATIME under R71 and taking a queue entry. (R96) -/
  | actArm (r : Requester) (slot : ActSlot) (w : Word)
  /-- Writing ACT_ARM.ENABLE 0 cancels a PENDING, HELD or FROZEN action. (R96) -/
  | actDisarm (r : Requester) (slot : ActSlot) (hi : Half)
  /-- A supply-deferred action follows its late policy once its die's supply has been above warning plus 50 mV for 1 ms. (R94) -/
  | actionSupplyRecovery (slot : ActSlot)
  /-- The 32.768 kHz crystal becomes valid and sets OSC_STAT.X32K_OK. (R106) -/
  | x32kStarted
  /-- The 32.768 kHz crystal stops after being valid, and die E counts time from the 40 MHz crystal. (R106) -/
  | x32kFail
  /-- Die E starts the 40 MHz crystal for a user in EMBER, including 15 ms before a die E action. (R106) -/
  | xtal40Start (user : Fin 4)
  /-- The 40 MHz crystal settles within ±0.5 ppm and sets OSC_STAT.X40M_OK. (R106) -/
  | x40mSettled
  /-- Die E stops the 40 MHz crystal in EMBER when no user remains. (R106) -/
  | xtal40Stop (user : Fin 4)
  /-- The EMBER command powers down die C and the radio dies in order, keeping die E actions and optionally DRAM retention. (R110) -/
  | pwrEmber (r : Requester) (hi : Half) (sr : Bool)
  /-- The STANDBY command runs Kindle from EMBER, stops the radios from RUN, or changes DRAM self-refresh. (R109) -/
  | pwrStandby (r : Requester) (hi : Half) (sr : Bool)
  /-- The RUN command starts or stops radio dies per RADIO_EN, running Kindle first from EMBER. (R109) -/
  | pwrRun (r : Requester) (hi : Half) (radioEn : BitVec 6) (sr : Bool)
  /-- The OFF command powers down every die, die E last, leaving lamps undriven. (R110) -/
  | pwrOff (r : Requester) (hi : Half)
  /-- The RESET command resets the whole device through die E. (R116) -/
  | pwrReset (r : Requester) (hi : Half)
  /-- Once its PLL locks to the TCXO during Kindle, die C is released from reset and begins self-test. (R111) -/
  | dieCRelease
  /-- At the end of Kindle die C takes die E's time, the state becomes STANDBY and radio start follows if RUN was commanded. (R111) -/
  | kindleDone
  /-- A radio die whose PLL has locked is released from reset and copies its role from DIE_ROLE. (R112) -/
  | radioDieRelease (d : Fin 6)
  /-- A radio die ends its start-up calibration, and TRANS_DONE is raised once every added die has ended. (R112) -/
  | radioStartDone (d : Fin 6) (rep : StartReport)
  /-- A DIE_ROLE write sets roles for the next power-up, clamping a third backhaul role and recording ROLE_LOCKED for powered dies. (R113) -/
  | dieRoleWrite (r : Requester) (w : Word)
  /-- A transition paused longer than PAUSE_MAX is abandoned and recorded as PWR_SUPPLY_ABORT. (R114) -/
  | transitionPauseTimeout
  /-- VDD_EMB rising after being absent or below 1.0 V resets the whole device as a power-on reset. (R116) -/
  | por
  /-- RESET_N held low for at least 10 µs resets the whole device. (R116) -/
  | resetN (lowNs : Nat) (cmd : Option Word)
  /-- VDD_EMB falling below its reset level while staying above 1.0 V resets the whole device. (R116) -/
  | supplyE (us mv : Nat) (cmd : Option Word)
  /-- Die E leaves reset once VDD_EMB has been above the reset level for 2 ms, starts its crystal and runs self-test. (R116) -/
  | dieERelease
  /-- VDD_C below its reset level powers down die C and the radio dies and forces EMBER with the lamps at failsafe. (R117) -/
  | supplyC (us mv : Nat) (cmd : Option Word)
  /-- VDD_Dn below its reset level powers down that radio die and sets DIE_LOST. (R117) -/
  | supplyD (d : Fin 6) (us mv : Nat) (cmd : Option Word)
  /-- A die's self-test reports its verdict, with a failure repeated once and a standing FAIL entering BANKED. (R120) -/
  | selftestDone (die : Die) (rep : TestReport) (cmd : Option Word)
  /-- A die whose self-test has not reported within 180 ms of release fails with TIMEOUT set. (R119) -/
  | selftestTimeout (die : Die) (cmd : Option Word)
  /-- A supply below its warning level for 1 µs declares a warning, stopping PAs and new activations and pausing power-up transitions. (R125) -/
  | supplyWarning (m : Fin 8)
  /-- A supply above its recovery level for 1 ms clears its warning and records its duration and minimum. (R125) -/
  | supplyOk (m : Fin 8) (us mv : Nat)
  /-- VDD_CIO below 0.90 V for 1 µs during DRAM retention marks the DRAM not retained and sets WAKE_CAUSE. (R496) -/
  | retentionLost (mv : Nat)
  /-- Each die's junction temperature registers are updated, raising TEMP_HIGH and calibration staleness as thresholds are crossed. (R505) -/
  | tempUpdate (die : Die) (temp : Int)
  /-- A new level sampled on a GPIO pin captures die E's local time and starts debounce. (R128) -/
  | gpioLevelChange (pin : Fin 12) (level : Bool)
  /-- A GPIO level held for the debounce time counts as a change and sets the pin's event per its mode. (R128) -/
  | gpioEvent (pin : Fin 12)
  /-- The SLEEP radio command moves the sub-GHz radio to SLEEP. (R149) -/
  | rfCmdSleep (r : Requester)
  /-- The IDLE radio command moves the sub-GHz radio to IDLE. (R149) -/
  | rfCmdIdle (r : Requester)
  /-- The LISTEN radio command settles the synthesiser and starts detection. (R149) -/
  | rfCmdListen (r : Requester)
  /-- An immediate transmission starts once the synthesiser is locked, or is refused in RX and TX. (R147) -/
  | txNow (r : Requester)
  /-- The CAL radio command runs the calibration steps selected by CAL_SET, deferring around armed actions. (R154) -/
  | rfCal (r : Requester) (set : BitVec 7)
  /-- The RETUNE radio command runs the antenna tuner step with a probe on the current channel. (R156) -/
  | rfRetune (r : Requester)
  /-- The ED radio command averages received energy over ED_SYM symbol periods. (R155) -/
  | rfEd (r : Requester)
  /-- The ABORT radio command ends a transmission, reception or calibration and moves to IDLE unless completion has begun. (R148) -/
  | rfAbort (r : Requester) (completing : Bool)
  /-- The TRIM_CLEAR radio command returns AFC_TRIM to 0. (R143) -/
  | trimClear (r : Requester)
  /-- A correlator detects a preamble in LISTEN and the radio enters RX with a tentative reception. (R149) -/
  | preambleDetect (k : Fin 4)
  /-- A valid sync on another correlator abandons a tentative reception and starts receiving the new frame. (R139) -/
  | syncDetect (k : Fin 4) (rssi : Int) (ch1 : Bool)
  /-- The PHR of a reception is checked, passing to a confirmed reception or failing as HDR_FAIL. (R135) -/
  | rxHeader (h : SgPhr)
  /-- A sync at least CAPTURE_MARGIN stronger before mid-payload abandons the current frame as CAPTURED and receives the new one. (R140) -/
  | capture (k : Fin 4) (rssi : Int) (ch1 : Bool) (octets : Nat)
  /-- A received frame ends and its record and PSDU are written to the receive ring, or dropped when the ring is full. (R141) -/
  | rxFrameEnd (e : SgRxEnd)
  /-- A sub-GHz transmission ends its ramp down, measures return loss and returns to the return state. (R145) -/
  | sgTxEnd (rl : Nat)
  /-- A return loss below PROTECT_THR during transmission drops PA output or ramps down an external PA. (R157) -/
  | paProtect (rl : Nat)
  /-- The sub-GHz synthesiser locks and the radio leaves SETTLE for LISTEN, TX or the next calibration step. (R149) -/
  | sgSynthLock
  /-- The sub-GHz synthesiser loses lock in RX or TX and the frame is ended. (R161) -/
  | synthUnlock
  /-- An immediate transmission still unlocked after TX_WAIT_MAX fails with no emission. (R147) -/
  | txNoLock
  /-- An immediate external-PA transmission still held by a supply warning after TX_WAIT_MAX fails. (R146) -/
  | txSupply
  /-- A sub-GHz calibration run ends, keeping previous results of failed steps, and the radio moves to IDLE. (R153) -/
  | sgCalDone (fail : BitVec 7) (limit : Bool) (rl : Nat)
  /-- A deferred sub-GHz calibration starts once no armed action has its preparation instant within its duration. (R154) -/
  | sgCalDeferredStart
  /-- After MISMATCH with AUTO set, the radio retunes at its next suitable entry to IDLE or LISTEN. (R156) -/
  | autoRetune
  /-- An energy-detect measurement ends and writes ED_RESULT. (R155) -/
  | edDone (level : Int)
  /-- A write of CHAN0_KHZ or CHAN_SEL retunes the radio at once, preempting a reception or waiting for a transmission to end. (R151) -/
  | sgChanWrite (r : Requester) (sel : Bool) (w : Word)
  /-- After a parent frame in an AFC mode, the reference trim moves toward its offset at the next IDLE, LISTEN or SLEEP entry. (R143) -/
  | afcTrimUpdate
  /-- At an RF action's preparation instant the radio begins the action, reading the frame and preempting a reception. (R152) -/
  | actPrepare (slot : Fin 8)
  /-- A TX action sends its frame with the first preamble bit at the antenna at T. (R152) -/
  | rfActTx (slot : Fin 8)
  /-- A LISTEN action has detection running on the channel by T. (R152) -/
  | rfActListen (slot : Fin 8)
  /-- An IDLE action moves the radio to IDLE at T. (R152) -/
  | rfActIdle (slot : Fin 8)
  /-- A SLEEP action moves the radio to SLEEP at T. (R152) -/
  | rfActSleep (slot : Fin 8)
  /-- A CHANNEL action changes the sub-GHz channel at T. (R152) -/
  | rfActChannel (slot : Fin 8)
  /-- The MAC assist sends an Imm-Ack with the frame-pending bit for a frame that requests one and passes its checks. (R166) -/
  | macAckTx
  /-- A CSMA-CA backoff ends with CCA, sending the frame or backing off again, failing as CHANNEL_BUSY after MAX_BACKOFFS. (R166) -/
  | csmaBackoffEnd (energy : Int)
  /-- An Imm-Ack for a sent frame is received and the frame completes. (R166) -/
  | macAckRx (dsn : Nat)
  /-- A frame unacknowledged within 1 ms plus the ack airtime is retried, or fails as NO_ACK after MAX_RETRIES. (R166) -/
  | ackTimeout
  /-- A received mesh frame is authenticated and judged against the replay table before delivery, relaying or routing. (R188) -/
  | meshFrameRx (f : MeshSec)
  /-- A DATA frame is delivered, queued indirect, sent to its route entry, or sent to the parent. (R181) -/
  | meshDataRx (h : MeshHdr) (rssi : Int)
  /-- A router or coordinator sends a beacon at each instant matching its interval and phase. (R173) -/
  | beaconTx
  /-- One extra beacon carrying the new schedule is sent within 100 ms of a change of BCN_INT or BCN_PHASE. (R173) -/
  | extraBeacon
  /-- A parent beacon received resets the miss count, applies a one-way time correction and may raise PARENT_BACK. (R174) -/
  | beaconRx (b : BeaconRx)
  /-- A predicted parent beacon not received by its window end counts as missed, leading to PARENT_LOST and scan. (R175) -/
  | beaconWindowEnd
  /-- At the end of the rejoin grace without a parent, the short address is discarded and the node joins afresh. (R175) -/
  | addrLost
  /-- A scan dwell ends on a channel, moving to the next channel or choosing a parent and sending JOIN_REQ. (R177) -/
  | scanDwellEnd
  /-- A parent answers PARENT_FULL or relays a JOIN_REQ holding a pending child entry; the coordinator assigns an address. (R179) -/
  | joinReq (j : JoinInfo)
  /-- A JOIN_RESP enters the child at the parent and is relayed, or gives the joiner its address and raises JOINED. (R179) -/
  | joinResp (j : JoinInfo)
  /-- A joiner without a JOIN_RESP within 2 s records JOIN_FAIL and excludes the parent for 60 s. (R179) -/
  | joinTimeout
  /-- A parent's pending child entry not confirmed within 2 s is dropped. (R179) -/
  | pendingChildExpiry (eui : Nat)
  /-- A parent excluded after a failed join becomes eligible again after 60 s. (R179) -/
  | parentExcludeExpiry (short : Nat)
  /-- A LEAVE removes the child at its parent and is routed to the coordinator, which frees the address. (R180) -/
  | leave (j : JoinInfo)
  /-- A Data Request from a sleepy child is acknowledged with the pending bit, or from a non-child answered with LEAVE NOT_CHILD. (R183) -/
  | poll
  /-- After acking a child with pending set, the parent secures and sends the child's oldest queued frame, or an empty frame. (R183) -/
  | indirectSend
  /-- A sleepy child unheard for CHILD_TO_MULT poll intervals is removed and its indirect frames discarded. (R180) -/
  | childTimeout (short : Nat)
  /-- An indirect frame not delivered within twice the poll interval plus 1 s is discarded as EXPIRED. (R182) -/
  | indirectExpiry (id : Nat)
  /-- A sleepy-child flood entry is freed at twice the longest poll interval plus 1 s. (R184) -/
  | floodEntryExpiry (id : Nat)
  /-- A received FLOOD is discarded as a copy or cached, delivered and queued for rebroadcast after jitter. (R185) -/
  | floodRx (h : MeshHdr) (rssi : Int)
  /-- After its jitter, a pending flood rebroadcast runs CSMA-CA and sends the flood with TTL less one. (R185) -/
  | floodRebroadcast (origin mseq : Nat)
  /-- A host transmit descriptor is taken from the ring and sent, queued indirect or completed with an error result. (R195) -/
  | txDescriptor
  /-- The outgoing frame counter is saved to the persistent store, releasing transmissions that waited for it. (R189) -/
  | fcSaveDone (slot : Fin 16)
  /-- KEY_OVERLAP after a switch, frames under the previous mesh key stop being accepted. (R192) -/
  | meshKeyOverlapEnd
  /-- A mesh KEY_SWITCH action copies KEY_SEL.NEXT to CUR at T and raises KEY_SWITCHED. (R192) -/
  | meshKeySwitch (slot : Fin 2)
  /-- A PERMIT_ON action sets join permission at T. (R198) -/
  | permitOn (slot : Fin 2)
  /-- A PERMIT_OFF action clears join permission at T. (R198) -/
  | permitOff (slot : Fin 2)
  /-- A BEACON_NOW action sends a beacon at T. (R198) -/
  | beaconNow (slot : Fin 2)
  /-- ADDR_CMD FREE frees a short address on the coordinator, or is refused as ADDR_CMD_BAD on other roles. (R180) -/
  | addrFree (r : Requester) (w : Word)
  /-- In BANKED die E sends a status beacon carrying SELFTEST_SUM and RST_CAUSE every BANK_BCN_INT. (R194) -/
  | bankedBeacon
  /-- Enabling a partition checks its dies and placement, loads sequencer firmware, or refuses it as PART_PLACEMENT or NO_FW. (R202) -/
  | partitionEnable (r : Requester) (d : Fin 6)
  /-- Writing ENABLE 0 stops the partition at the end of any PPDU and releases its member dies. (R202) -/
  | partitionDisable (r : Requester) (d : Fin 6)
  /-- A PART_CHAN change retunes every die of the partition, invalidates weights and abandons sounding. (R209) -/
  | partChanWrite (r : Requester) (d : Fin 6) (w : Word)
  /-- A partition's synthesisers lock after a channel change, with inter-chain phase calibration added for an unstored channel. (R209) -/
  | accessSynthLock (d : Fin 6) (lost : Bool)
  /-- The SLEEP sequencer command moves the partition to SLEEP. (R230) -/
  | seqSleep (r : Requester) (d : Fin 6)
  /-- The IDLE sequencer command moves the partition to IDLE. (R230) -/
  | seqIdle (r : Requester) (d : Fin 6)
  /-- The LISTEN sequencer command starts detection. (R230) -/
  | seqListen (r : Requester) (d : Fin 6)
  /-- The ABORT sequencer command ends a PPDU or calibration and moves to IDLE unless completion has begun. (R214) -/
  | seqAbort (r : Requester) (d : Fin 6) (completing : Bool)
  /-- An immediate PPDU handed to the sequencer is sent once locked, or waits up to TX_WAIT_MAX. (R213) -/
  | ppduImmediate (d : Fin 6) (us : Nat)
  /-- An immediate PPDU still unlocked or supply-held after TX_WAIT_MAX fails as TX_NO_LOCK or TX_SUPPLY. (R213) -/
  | accessTxWaitExpiry (d : Fin 6)
  /-- A PPDU ends its ramp down, records detector return loss per chain and returns to the return state. (R206) -/
  | ppduTxEnd (d : Fin 6) (next : Nat) (expectsResponse : Bool) (levels : List ChainLevel)
  /-- A chain whose reflected reading falls below PROTECT_THR is muted and excluded until cleared. (R208) -/
  | chainProtect (d : Fin 6) (c : Fin 16) (rl : Nat)
  /-- A valid L-STF, L-LTF and L-SIG or DSSS SFD starts a tentative reception, abandoning any earlier tentative one. (R215) -/
  | ppduSync (d : Fin 6) (power : Int)
  /-- The PPDU's signal fields pass or fail the header check. (R215) -/
  | ppduHeader (d : Fin 6) (ok : Bool)
  /-- A stronger sync before half the data field reports the current PPDU CAPTURED and receives the new one. (R216) -/
  | ppduCapture (d : Fin 6) (power : Int) (half : Bool)
  /-- A received PPDU ends and a response due SIFS later is prepared. (R210) -/
  | ppduRxEnd (d : Fin 6) (respond : Option Nat) (us : Nat) (tb : List Nat) (levels : List ChainLevel)
  /-- CAL_CMD runs the selected partial calibrations on every die of the partition, deferring around armed actions. (R218) -/
  | partCal (r : Requester) (d : Fin 6) (w : Word)
  /-- A partition calibration ends, taking tiles out of service for failed steps. (R219) -/
  | partCalDone (d : Fin 6) (fails : List CalFail)
  /-- A deferred partition calibration starts once no armed action's preparation falls within it. (R218) -/
  | partCalDeferredStart (d : Fin 6)
  /-- A partition CHANNEL action starts its retune at T. (R228) -/
  | partActChannel (d : Fin 6) (slot : Fin 8)
  /-- A partition LISTEN action starts detection at T. (R228) -/
  | partActListen (d : Fin 6) (slot : Fin 8)
  /-- A partition IDLE action moves the partition to IDLE at T. (R228) -/
  | partActIdle (d : Fin 6) (slot : Fin 8)
  /-- A partition SLEEP action moves the partition to SLEEP at T. (R228) -/
  | partActSleep (d : Fin 6) (slot : Fin 8)
  /-- The scheduler starts a sounding sequence of NDP Announcement, NDP and BFRP triggers. (R220) -/
  | soundingStart (d : Fin 6) (stations : List Nat) (us : Nat)
  /-- A station's compressed feedback is written to its channel-state record. (R220) -/
  | soundingFeedback (d : Fin 6) (sta : Nat) (report : List Byte)
  /-- A sounding sequence completes when its last TB PPDU ends or times out. (R220) -/
  | soundDone (d : Fin 6)
  /-- The beamformer finishes regularised zero-forcing weights for a group or station. (R221) -/
  | weightsReady (d : Fin 6) (stations : List Nat)
  /-- Weights older than WEIGHT_AGE stop being used. (R221) -/
  | weightAgeExpiry (d : Fin 6)
  /-- STA_CMD WRITE copies staging words 0 to 7 into a station entry as one unit. (R234) -/
  | staWrite (r : Requester) (idx : Fin 2048)
  /-- STA_CMD READ fills the 16 staging words from a station entry. (R234) -/
  | staRead (r : Requester) (idx : Fin 2048)
  /-- STA_CMD REMOVE takes the station out of candidate lists and clears it after its exchange ends. (R251) -/
  | staRemove (r : Requester) (idx : Fin 2048)
  /-- A removed station's entry is cleared and its queues flushed once its acknowledgement exchange ends. (R251) -/
  | staRemoveDone (idx : Fin 2048)
  /-- STA_CMD FLUSH empties one or all of a station's TID queues. (R257) -/
  | staFlush (r : Requester) (idx : Fin 2048) (tid : Fin 8) (all : Bool)
  /-- STA_CMD ALLOC returns the lowest free station index, or fails as STA_FULL. (R233) -/
  | staAlloc (r : Requester)
  /-- STA_CMD SET_KEY binds the STA_KEY slot to the station as current or next key. (R252) -/
  | setKey (r : Requester) (idx : Fin 2048)
  /-- STA_CMD SET_GKEY binds the STA_KEY slot as a partition BSSID's group key. (R252) -/
  | setGkey (r : Requester) (idx : Fin 2048)
  /-- TWT_CMD ADD writes an agreement or schedule into a free entry, or fails as TWT_FULL. (R250) -/
  | twtAdd (r : Requester)
  /-- TWT_CMD REMOVE frees a TWT entry. (R257) -/
  | twtRemove (r : Requester) (idx : Fin 2048)
  /-- TWT_CMD READ fills TWT_DATA from an entry. (R257) -/
  | twtRead (r : Requester) (idx : Fin 2048)
  /-- SCHED_CMD PAUSE pauses the partition's scheduler at the end of any TXOP. (R240) -/
  | schedCmdPause (r : Requester) (p : Fin 6)
  /-- SCHED_CMD RESUME returns a paused scheduler to CONTENDING or IDLE. (R240) -/
  | schedCmdResume (r : Requester) (p : Fin 6)
  /-- SCHED_CMD REPLAN rebuilds the partition's standing plan. (R241) -/
  | replan (r : Requester) (p : Fin 6)
  /-- The scheduler rebuilds its standing plan every PLAN_US and at each TXOP end. (R241) -/
  | planRebuild (p : Fin 6)
  /-- An EDCA backoff ends on an idle medium and the scheduler runs its standing plan as a TXOP. (R240) -/
  | txopWon (p : Fin 6)
  /-- At each PPDU's preparation instant frames are taken from the queues, dropping late frames under DROP_LATE. (R241) -/
  | ppduPrepare (p : Fin 6) (us : Nat) (slot : Option (Fin 8))
  /-- The last step of a TXOP ends or fails and the scheduler returns to CONTENDING or IDLE. (R240) -/
  | txopEnd (p : Fin 6)
  /-- A BSRP trigger is sent to TRIG stations whose reports are older than BSRP_MS. (R246) -/
  | bsrpDue (p : Fin 6)
  /-- A TWT service period opens and its stations are served first in the next TXOP. (R250) -/
  | twtSpStart (entry : Nat)
  /-- A TWT service period closes at its start plus its duration. (R250) -/
  | twtSpEnd (entry : Nat)
  /-- A received MPDU is acknowledged, checked for duplicates and replay, decrypted and accepted. (R254) -/
  | mpduRx (p : Fin 6) (m : MpduRx)
  /-- A returned block acknowledgement marks MPDUs and queues retries or drops after RETRY_MAX. (R253) -/
  | blockAckRx (p : Fin 6) (b : BlockAck)
  /-- A receive reorder gap open for REORDER_TO is given up and later MPDUs are released. (R253) -/
  | reorderTimeout (sta : Nat) (tid : Fin 8)
  /-- A station key-switch action copies KEY_NEXT to KEY_CUR at T. (R252) -/
  | staKeySwitch (slot : Fin 8)
  /-- A group-key switch action makes the next group key current at T. (R255) -/
  | gkeySwitch (slot : Fin 8)
  /-- A TWT_ENABLE action begins arming the entry's service periods at T. (R255) -/
  | twtEnable (slot : Fin 8)
  /-- A TWT_DISABLE action stops further service periods and closes an open one at T. (R255) -/
  | twtDisable (slot : Fin 8)
  /-- A SCHED_PAUSE action pauses the scheduler at T. (R255) -/
  | schedPause (slot : Fin 8)
  /-- A SCHED_RESUME action resumes the scheduler at T. (R255) -/
  | schedResume (slot : Fin 8)
  /-- A 1 ms backhaul cycle begins with the quiet symbol and the end's frame slot. (R264) -/
  | bhCycleStart (dir : Fin 12)
  /-- A backhaul frame's header is checked and its data decoded with the map and back-off the header names. (R269) -/
  | bhFrameRx (dir : Fin 12) (f : BhFrame)
  /-- At each receive slot's end a direction sends a health report to the XBL. (R282) -/
  | bhHealthReport (dir : Fin 12)
  /-- A 64-quiet-symbol window completes, writes SNR_AVG and decrements its Grate source. (R271) -/
  | noiseWindowDone (dir : Fin 12) (snr0 snr1 : List Int) (late0 late1 : Bool)
  /-- TM_CMD SEND loads TM_STAGE into the idle receive table and sends TM_UPDATE, or is refused as TM_REFUSED. (R291) -/
  | tmSend (r : Requester) (d : Fin 6) (w : Word)
  /-- A received TM_UPDATE is loaded into the idle transmit table and used from the next frame. (R274) -/
  | tmUpdateRx (dir : Fin 12) (stream : Fin 2) (id k : Nat) (design : Nat) (entries : List Nat)
  /-- Eight cycles without a good header move a direction from UP to LOST. (R278) -/
  | bhLinkLost (dir : Fin 12)
  /-- Sixty-four cycles in LOST return the direction to SEARCH. (R278) -/
  | bhSearchRestart (dir : Fin 12)
  /-- A beam search finds its pair and the direction enters UP with BASE maps. (R279) -/
  | searchComplete (dir : Fin 12)
  /-- HEAD_CMD sends a serial write to a head in a guard, refusing reserved addresses. (R291) -/
  | headWrite (r : Requester) (d : Fin 6) (h : Fin 2) (w : Word)
  /-- HEAD_CMD with READ reads a head register into HEAD_RDATA in a guard. (R291) -/
  | headRead (r : Requester) (d : Fin 6) (h : Fin 2) (w : Word) (data : Half)
  /-- A head asserts ALERT_N, holding its transmit enables low and skipping frames. (R283) -/
  | headAlert (dir : Fin 12)
  /-- CAL_CMD runs backhaul partial calibrations on the named heads over whole cycles, announced by SKIP. (R285) -/
  | bhCal (r : Requester) (d : Fin 6) (w : Word)
  /-- A backhaul CHANNEL action is DONE at T and retunes at the next cycle start. (R283) -/
  | bhActChannel (d : Fin 6) (slot : Fin 8)
  /-- A DIR_ON action enables a backhaul direction at T. (R288) -/
  | dirOn (d : Fin 6) (slot : Fin 8)
  /-- A DIR_OFF action turns a direction OFF at the next cycle start. (R278) -/
  | dirOff (d : Fin 6) (slot : Fin 8)
  /-- Setting LINK_CFG.ENABLE enables a cross-band link if every condition holds, or records LINK_INVALID. (R294) -/
  | linkCfgEnable (r : Requester) (l : Fin 8) (w : Word)
  /-- A member's transmitter takes a frame, which receives its SEQ and is steered and encrypted. (R300) -/
  | xblDispatch (l : Fin 8) (m : Fin 3)
  /-- A received XBL frame is checked for wrap, authentication, staleness and duplicates and acted on or held. (R301) -/
  | xblFrameRx (l : Fin 8) (m : Fin 3) (f : XblFrame)
  /-- A held frame waiting REORDER_TO is released, giving up the gap before it. (R302) -/
  | xblReorderTimeout (l : Fin 8) (seq : Nat)
  /-- An end sends an ACK of changed blocks at its member's cadence. (R304) -/
  | xblAckDue (l : Fin 8)
  /-- A DATA frame unacknowledged after its member's RETX_TO is retransmitted, or dropped after RETX_MAX. (R305) -/
  | xblRetxTimeout (l : Fin 8) (seq : Nat)
  /-- A member sends a KEEPALIVE so its health can be measured. (R308) -/
  | keepaliveDue (l : Fin 8) (m : Fin 3)
  /-- A member's health report is judged for the down conditions of R309. (R309) -/
  | memberHealthReport (l : Fin 8) (m : Fin 3) (miss cap : Nat)
  /-- A member with nothing from its peer for three keepalive periods is declared down as SILENT. (R309) -/
  | memberSilent (l : Fin 8) (m : Fin 3)
  /-- A member with no health report for 1 ms is declared down as NO_REPORT. (R309) -/
  | memberNoReport (l : Fin 8) (m : Fin 3)
  /-- A HOLDING member whose conditions stayed clear for UP_HOLD becomes UP. (R308) -/
  | memberUp (l : Fin 8) (m : Fin 3)
  /-- A class waiting to return to an earlier member moves after its acknowledgements or RETURN_WAIT. (R307) -/
  | returnWaitEnd (l : Fin 8) (c : Fin 8)
  /-- A link KEY_SWITCH action copies NEXT to CUR at T and toggles KEY_PHASE. (R312) -/
  | xblKeySwitch (slot : Fin 8)
  /-- A write of a new link KEY_SEL.CUR switches keys as a KEY_SWITCH does. (R312) -/
  | xblKeySelWrite (r : Requester) (l : Fin 8) (w : Word)
  /-- A LINK_ON action enables a link at T under the checks of R294. (R315) -/
  | linkOn (slot : Fin 8)
  /-- A LINK_OFF action disables a link at T. (R315) -/
  | linkOff (slot : Fin 8)
  /-- A frame received by an Ethernet MAC is checked for length and FCS, and PAUSE frames are honoured. (R447) -/
  | ethFrameRx (q : Fin 3) (frame : Frame) (fcsOk : Bool) (pause : Option Nat)
  /-- A frame passes the forwarding pipeline's parse, VLAN, class, bridging, routing, learning, edit and queue steps. (R319) -/
  | frameIngress (port : Fin 32) (frame : Frame) (g : Ingress)
  /-- A queued learn request inserts, moves or refreshes a source address entry, subject to LEARN_LIMIT. (R326) -/
  | learn
  /-- An egress port takes a frame from its class queues by priority and deficit round robin. (R345) -/
  | portDequeue (port : Fin 32)
  /-- A queue's head frames in DRAM are fetched back on-die before dequeue. (R345) -/
  | spillFetch (q : Nat)
  /-- QM_CMD DISCARD_SPILL drops every frame in DRAM and lets those queues resume. (R346) -/
  | discardSpill (r : Requester)
  /-- An exact-match INSERT replaces, places, relocates into, or stashes an entry, or fails as TABLE_FULL. (R331) -/
  | tblInsert (r : Requester)
  /-- An exact-match DELETE removes a key and tries to move stash entries into the banks. (R332) -/
  | tblDelete (r : Requester)
  /-- An exact-match SEARCH returns the entry and its position, or NOT_FOUND. (R332) -/
  | tblSearch (r : Requester)
  /-- NEXT reports the next valid entry of the requester's walk, flagging relocated copies as MOVED. (R333) -/
  | tblNext (r : Requester) (type : Fin 16) (restart : Bool)
  /-- FLUSH_PORT starts a sweep removing entries of a port, or is refused as SWEEP_BUSY. (R334) -/
  | flushPort (r : Requester) (port : Fin 32) (inclStatic : Bool) (type : Fin 16)
  /-- AGE_SWEEP starts a sweep that ages learned entries and removes those reaching AGE 3. (R334) -/
  | ageSweep (r : Requester) (type : Fin 16)
  /-- WALK_CLOSE closes the requester's exact-match walk. (R332) -/
  | walkClose (r : Requester)
  /-- A sweep ends, writing SWEEP_RESULT and raising SWEEP_DONE. (R334) -/
  | sweepDone
  /-- An AGE_SWEEP starts automatically every AGE_CFG.PERIOD seconds. (R334) -/
  | autoAge
  /-- A walk with no NEXT for 100 ms is closed. (R333) -/
  | walkTimeout (r : Requester)
  /-- The scrubber removes an exact-match entry with bad parity after a lookup finds it. (R337) -/
  | parityRemove (pos : Nat)
  /-- The scrubber reads every exact-match slot once per SCRUB_CFG.PERIOD and removes bad entries. (R337) -/
  | scrubPass (bad : List Nat)
  /-- A hash seed write takes effect only while the table and stash are empty, otherwise it records SEED_LOCKED. (R348) -/
  | hashSeedWrite (r : Requester) (n : Fin 2) (w : Word)
  /-- An LPM INSERT builds the affected nodes and links them with one write, or fails as NODE_FULL or BAD_PREFIX. (R340) -/
  | lpmInsert (r : Requester) (w : Word)
  /-- An LPM DELETE rebuilds the affected nodes and links them with one write. (R340) -/
  | lpmDelete (r : Requester) (w : Word)
  /-- An LPM SEARCH returns the longest matching prefix and its next hop. (R349) -/
  | lpmSearch (r : Requester) (w : Word)
  /-- LPM NEXT lists prefixes in family, VRF, address and length order. (R349) -/
  | lpmNext (r : Requester) (w : Word)
  /-- LPM WALK_CLOSE closes the requester's prefix walk. (R349) -/
  | lpmWalkClose (r : Requester)
  /-- The scrubber rebuilds an LPM node with bad parity from the prefix store within 1 ms. (R340) -/
  | lpmRepair (stage : Nat) (node : Nat) (lost : Option Nat)
  /-- NH_CMD WRITE rewrites a next hop for every prefix naming it in one write. (R341) -/
  | nhWrite (r : Requester) (idx : Fin 4096)
  /-- NH_CMD READ fills NH_DATA from a next hop. (R349) -/
  | nhRead (r : Requester) (idx : Fin 4096)
  /-- VLAN_CMD WRITE loads a VLAN entry from VLAN_DATA. (R347) -/
  | vlanWrite (r : Requester) (vid : Fin 4096)
  /-- VLAN_CMD READ fills VLAN_DATA from a VLAN entry. (R347) -/
  | vlanRead (r : Requester) (vid : Fin 4096)
  /-- FW_CMD LOAD starts verification of the die C image while every engine is halted. (R357) -/
  | fwLoad (r : Requester)
  /-- Image verification ends VERIFIED with write protection, or BAD with its reason, and raises FW_DONE. (R357) -/
  | fwVerifyDone
  /-- FW_CMD HALT stops every engine, returns running tasks to READY and writes back dirty lines. (R355) -/
  | fwHalt (r : Requester)
  /-- FW_CMD START moves enabled engines to IDLE on a verified image, engine 0 running entry 0. (R358) -/
  | fwStart (r : Requester)
  /-- FW_CMD RESTART returns a faulted engine to IDLE. (R353) -/
  | fwRestart (r : Requester) (e : Fin 16)
  /-- An engine watchdog not reset within its period faults the engine with code WDT. (R354) -/
  | engineWdtExpiry (e : Fin 16)
  /-- An engine fault marks its running and held tasks FAULTED and captures the fault. (R354) -/
  | engineFault (e : Fin 16) (code : Nat) (addr : Nat)
  /-- An engine CLEAN line operation writes dirty D-cache lines of a range back to memory. (R360) -/
  | clean (e : Fin 16) (dram : Bool) (addr len : Nat)
  /-- An engine INVALIDATE line operation drops D-cache lines of a range. (R360) -/
  | invalidate (e : Fin 16) (dram : Bool) (addr len : Nat)
  /-- An engine CLEAN_INVALIDATE line operation writes back then drops lines of a range. (R360) -/
  | cleanInvalidate (e : Fin 16) (dram : Bool) (addr len : Nat)
  /-- A doorbell moves an EMPTY mailbox to FULL and signals the Grate or the host, or is recorded as MB_BUSY. (R363) -/
  | mbDoorbell (r : Requester) (m : Fin 32)
  /-- A release moves a FULL mailbox to EMPTY and signals the sender. (R363) -/
  | mbRelease (r : Requester) (m : Fin 32)
  /-- TD_CMD WRITE loads a free task descriptor and moves it to WAITING or READY. (R367) -/
  | tdWrite (r : Requester) (t : Fin 4096)
  /-- TD_CMD READ fills TD_DATA from a task descriptor. (R367) -/
  | tdRead (r : Requester) (t : Fin 4096)
  /-- TD_CMD FREE frees a task not RUNNING or PREEMPTED. (R367) -/
  | tdFree (r : Requester) (t : Fin 4096)
  /-- TD_CMD SET_COUNT sets a task's dependence count, moving it between WAITING and READY. (R367) -/
  | setCount (r : Requester) (t : Fin 4096)
  /-- A write of GR_DEC decrements a task's dependence count, or adds to EARLY while it is busy. (R368) -/
  | grDec (r : Requester) (t : Fin 4096)
  /-- GR_DONE completes a running task, decrementing its successors and reloading or freeing it. (R369) -/
  | grDone (r : Requester) (t : Fin 4096) (gen : Byte)
  /-- A bound hardware source event decrements each task bound to it. (R368) -/
  | grateSourceEvent
  /-- A Grate timer expires each PERIOD and acts as a source event. (R368) -/
  | grateTimer (t : Fin 8)
  /-- Every 8 ns the Grate chooses a READY task and sends it to an idle engine or preempts a lower class. (R370) -/
  | grateDispatch
  /-- A preempted engine finishes saving its task's context and starts the new task. (R371) -/
  | preemptSaveDone (e : Fin 16)
  /-- An engine ending a task resumes its highest-class PREEMPTED task or takes a READY one. (R371) -/
  | taskEndResume (e : Fin 16)
  /-- A task running beyond RUN_MAX raises TASK_OVERRUN without being stopped. (R372) -/
  | taskOverrun (t : Fin 4096)
  /-- EMB_CMD LOAD verifies a die E image in Ember SRAM within 40 ms. (R374) -/
  | embLoad (r : Requester) (image : List Byte)
  /-- EMB_CMD SWITCH arranges the switch to a verified Ember image, or records EMB_BUSY. (R374) -/
  | embSwitch (r : Requester)
  /-- The Ember engine switches image at the end of its current mesh event, keeping mesh state. (R374) -/
  | embSwitchApply
  /-- START runs a DMA channel from CH_DESC, checking each descriptor whole before moving bytes. (R388) -/
  | chStart (r : Requester) (n : Fin 32) (host : List Word)
  /-- PAUSE stops new reads on a radio-class channel, which enters PAUSED once reads in flight complete. (R389) -/
  | chPause (r : Requester) (n : Fin 32)
  /-- A pausing channel's reads in flight complete and it enters PAUSED with exact position. (R389) -/
  | dmaPaused (n : Fin 32)
  /-- RESUME continues a paused channel from its next byte. (R389) -/
  | chResume (r : Requester) (n : Fin 32)
  /-- STOP ends a paused radio-class channel as ABORTED with reason STOPPED. (R388) -/
  | chStop (r : Requester) (n : Fin 32)
  /-- ABORT lets the current burst finish and ends a host-class channel ABORTED, or COMPLETE with ABORT_LATE. (R390) -/
  | chAbort (r : Requester) (n : Fin 32)
  /-- A channel issues a burst in its class's round robin at the controller's issue rate. (R380) -/
  | dmaBurst (host : List Byte)
  /-- A request line pulse lets its channel move one burst, or is counted as an overrun beyond 16. (R386) -/
  | dmaRequest (line : Nat)
  /-- A CH_LEVEL_ADJ write adds a signed amount to the channel's level, possibly starting or stopping it. (R387) -/
  | chLevelAdj (r : Requester) (n : Fin 32) (w : Word)
  /-- A descriptor ends once its writes are visible, writing back and raising IRQ and NOTIFY as set. (R392) -/
  | descriptorEnd (n : Fin 32) (host : List Word)
  /-- An unsuccessful or timed-out PCI Express completion ends the channel in ERROR as HOST_ERR. (R391) -/
  | dmaHostError (n : Fin 32)
  /-- KEY_CMD INSTALL loads a die E key slot and increments its generation, keeping a retired copy, or refuses SLOT_BUSY. (R399) -/
  | aesKeyInstall (r : Option Requester) (slot : Fin 16) (long : Bool) (index : Byte) (hi : Half)
  /-- KEY_CMD ERASE invalidates a die E key slot, ending unstarted contexts as KEY_GONE. (R399) -/
  | aesKeyErase (r : Option Requester) (slot : Fin 16) (long : Bool) (index : Byte) (hi : Half)
  /-- CTX_CMD OPEN binds an AES context to a key slot, generation and priority. (R397) -/
  | ctxOpen (r : Option Requester) (k : Fin 8) (slot : Fin 16) (prio : Fin 4) (hi : Half)
  /-- CTX_CMD CLOSE releases an AES context and its generation. (R397) -/
  | ctxClose (r : Option Requester) (k : Fin 8) (hi : Half)
  /-- CTX_GO submits one AES block on an open context. (R397) -/
  | ctxGo (r : Option Requester) (k : Fin 8) (decrypt : Bool)
  /-- An AES block finishes, its result goes to CTX_OUT and the engine starts the highest-priority pending block. (R398) -/
  | aesBlockDone
  /-- Cipher pipe KEY_CMD INSTALL loads a slot with its suite and packet number. (R405) -/
  | pipeKeyInstall (r : Requester) (slot : Fin 8192) (hi : Half)
  /-- Cipher pipe KEY_CMD ERASE invalidates a slot and records ERASE_GEN. (R405) -/
  | pipeKeyErase (r : Requester) (slot : Fin 8192) (hi : Half)
  /-- Cipher pipe KEY_CMD STAT fills KEY_STAT and KEY_PN for a slot. (R405) -/
  | pipeKeyStat (r : Requester) (slot : Fin 8192) (hi : Half)
  /-- DRAM_CMD INIT initialises the DRAM and trains each channel at each set point of FSP_MASK. (R414) -/
  | dramInit (r : Requester)
  /-- Initialisation ends READY or FAILED with TRAIN_FAIL recorded. (R414) -/
  | dramInitDone (fail : Option (Nat × Nat))
  /-- DRAM_CMD FSP_CHANGE requests a trained set point, waiting for any training or freeze to end. (R416) -/
  | fspChange (r : Requester) (rate : Fin 4)
  /-- A pending set-point change starts, holds traffic and switches the set point. (R416) -/
  | fspChangeStart
  /-- A set-point change completes and the controller returns to READY. (R416) -/
  | fspDone
  /-- DRAM_CMD RETRAIN_NOW retrains every channel, or every set point with ALL_FSP. (R415) -/
  | retrainNow (r : Requester) (allFsp : Bool)
  /-- UNFREEZE RESUME poisons the failing line and returns to READY, or is refused as POISON_FULL. (R424) -/
  | unfreezeResume (r : Requester)
  /-- UNFREEZE REINIT discards queued accesses, empties the poison list and moves to OFF. (R424) -/
  | unfreezeReinit (r : Requester)
  /-- Periodic or temperature-driven retraining retrains WCK-to-DQ of each channel in turn. (R415) -/
  | dramRetrain
  /-- A bank's refresh falls due and is issued, postponed as owed, or forces a split of a real-time burst. (R417) -/
  | refreshDue (ch : Fin 4) (bank : Fin 64) (rt : Fin 3)
  /-- Owed refreshes are issued back to back once the bank holds no real-time burst. (R417) -/
  | refreshPayback (ch : Fin 4) (bank : Fin 64)
  /-- The controller reads MR4 every 16 ms and changes tREFI when the rate changes. (R417) -/
  | mr4Poll (ch : Fin 4) (hot : Bool)
  /-- A DRAM read or write is queued and ordered so reads never see data older than accepted writes. (R420) -/
  | dramAccess (kind : Fin 6) (inst : Fin 32) (addr len : Nat) (write : Option (List Byte)) (untracked : Bool) (ecc : EccFound)
  /-- The patrol scrubber reads every usable line once per PASS. (R421) -/
  | patrolScrub (ecc : EccFound)
  /-- PCIE_PERST_N deasserted with the host port ready starts link training. (R437) -/
  | perstDeassert
  /-- The PCI Express link reaches L0 and LINK_UP is raised. (R437) -/
  | pcieLinkUp (speed : Fin 8) (width : Fin 16)
  /-- A hot reset resets only the host port, its requester state and in-flight requests. (R438) -/
  | hotReset
  /-- A Function Level Reset resets only the host port as a hot reset does. (R438) -/
  | functionLevelReset
  /-- A data-link-layer loss resets the host port and sets WAKE_CAUSE.LINK_DOWN. (R438) -/
  | linkDown
  /-- A host request held beyond HOLD_MAX completes with Completer Abort or is discarded. (R434) -/
  | holdAbort (a : Nat) (bar2 write : Bool)
  /-- An SPI WRITE transaction whose CRC passes writes its words in ascending order. (R440) -/
  | spiWrite (a : Nat) (ws : List Word) (crc : Half)
  /-- An SPI READ transaction returns words without clearing read-clear registers. (R442) -/
  | spiRead (op : Byte) (a : Nat) (n : Fin 64) (crc : Half)
  /-- An SPI READ_CLR clears read-clear registers only if every byte and the final CRC were clocked out. (R442) -/
  | spiReadClr (a : Nat) (n : Fin 64) (crc : Half) (complete : Bool)
  /-- An access through the master's cascade window acts on a subordinate as the cascade requester. (R458) -/
  | cascWindowAccess (r : Requester) (off : Nat) (w : Option Word) (found : CascFound)
  /-- An Ethernet port's link status changes and LINK_CHANGE is raised. (R454) -/
  | ethLinkChange (q : Fin 3) (stat : Byte)
  /-- An SFP_I2C write starts a one-byte access to the module. (R448) -/
  | sfpI2cAccess (r : Requester) (q : Fin 2) (w : Word)
  /-- A module byte access completes, setting NACK and recording I2C_NACK if unacknowledged. (R448) -/
  | sfpI2cDone (q : Fin 2) (nack : Bool) (data : Byte)
  /-- A host write of the guarded BYP_OPEN sets bypass permissions, or records BYP_REQUESTER from an engine. (R449) -/
  | bypOpenWrite (r : Requester) (w : Word)
  /-- A host kick of 0x005A or 0x00A5 services the bypass watchdog only if it differs from the previous kick. (R450) -/
  | bypKick (r : Requester) (w : Word)
  /-- The bypass watchdog expires, clearing BYP_OPEN and driving both holds low. (R450) -/
  | bypassWdtExpiry
  /-- A Korub link trains and comes UP, or stays MISWIRED on a bad peer. (R457) -/
  | korUp (k : Fin 3) (peerPart : Fin 4) (peerLink : Fin 4) (peerMaster : Bool)
  /-- A Korub lane fails and the link runs on one lane. (R457) -/
  | korDegraded (k : Fin 3)
  /-- A Korub link declared down aborts groups with parts beyond it and may put a subordinate in HOLDOVER. (R461) -/
  | korDown (k : Fin 3)
  /-- A subordinate runs a two-way time exchange with the master over its direct link. (R459) -/
  | korubTimeExchange (k : Fin 3) (m : TimeMeas) (masterHold : Bool)
  /-- A guarded LEVEL write applies a lamp level, or is discarded as FS_ACTIVE while a failsafe cause is active. (R467) -/
  | levelWrite (r : Requester) (o : Fin 6) (w : Word)
  /-- A guarded FAILSAFE write sets the failsafe level and starts its copy to the persistent store. (R468) -/
  | failsafeWrite (r : Requester) (o : Fin 6) (w : Word)
  /-- A failsafe level's copy to the persistent store completes and STORE_DONE is raised. (R468) -/
  | failsafeStoreDone (o : Fin 6)
  /-- A host write of LAMP_KICK services the host-loss watchdog, or records LAMP_REQUESTER from an engine. (R471) -/
  | lampKick (r : Requester) (w : Word)
  /-- The host-loss watchdog expires and the lamps take the failsafe level. (R471) -/
  | hostWdtExpiry
  /-- At each PWM period boundary a pending level takes effect and any fade steps. (R472) -/
  | pwmBoundary (n : Fin 4)
  /-- A DAPC level frame starts on the DALI bus once it has been free for its settling time. (R474) -/
  | daliLevelFrame (c : Fin 2) (delayed : Bool)
  /-- A DALI frame meets a collision and is retried or ends COLLISION_FAIL. (R474) -/
  | daliCollision (c : Fin 2)
  /-- A DALI frame ends and leaves its result in DQ_RES. (R475) -/
  | daliFrameDone (c : Fin 2) (ans : DaliAnswer)
  /-- A DQ_PUSH queues a host DALI frame, or is recorded as DQ_FULL. (R475) -/
  | dqPush (r : Requester) (c : Fin 2) (w : Word)
  /-- DQ_FLUSH ends the queued DALI frames not yet started as FLUSHED. (R475) -/
  | dqFlush (r : Requester) (c : Fin 2) (w : Word)
  /-- Reading DQ_RES returns and removes the oldest DALI result. (R475) -/
  | dqResRead (r : Requester) (c : Fin 2)
  /-- DALIc_RX low for 45 ms without the device driving declares BUS_DOWN. (R473) -/
  | busDown (c : Fin 2)
  /-- DALIc_RX high for 20 ms declares BUS_UP and a waiting level frame is sent. (R473) -/
  | busUp (c : Fin 2)
  /-- A LEVEL lamp action applies ACT_LEVEL to its output at T. (R477) -/
  | lampActLevel (slot : Fin 8)
  /-- A SCENE lamp action sends GO TO SCENE on a DALI output at T. (R477) -/
  | lampActScene (slot : Fin 8)
  /-- A write of EVT_RD_IDX latches all eight words of an event log slot in one cycle. (R486) -/
  | evtRdIdx (r : Requester) (w : Word)
  /-- EVT_CLR empties the event log and zeroes EVT_OVERFLOW. (R486) -/
  | evtClr (r : Requester) (w : Word)
  /-- Ashpit writes an intake trace record to the DRAM ring, or discards it when the queue or ring is full. (R483) -/
  | traceIntake
  /-- A power-down to EMBER or OFF, a radio stop, or a DRAM self-refresh entry or exit ends some milliseconds after its command, changing PWR_STATE and raising TRANS_DONE. (R109) -/
  | transDone
  /-- The 40 MHz crystal becomes usable at ±20 ppm within 3 ms of its start, releasing AES blocks and radio wake-ups that waited for it. (R106) -/
  | x40mUsable
  /-- While die E keeps time alone, the last mesh correction becoming older than E_LOCK_AGE moves its quality from LOCKED or ACQUIRING to HOLDOVER. (R88) -/
  | eLockAgeExpiry
  /-- KEY_OVERLAP after the receiver's link key switch, the other KEY_PHASE stops selecting the previous key. (R313) -/
  | xblKeyOverlapEnd (l : Fin 8)
  /-- When AES_CFG.HOLD expires after a block of higher priority, the byte-serial AES engine starts the waiting lower-priority block. (R398) -/
  | aesHoldExpiry
  /-- Verification of a loaded Ember image ends within 40 ms with VERIFIED or BAD in EMB_STAT and raises EMB_DONE. (R374) -/
  | embVerifyDone
  /-- Assertion of the PCIE_PERST_N input puts the host port in reset and drops its link. (R437) -/
  | perstAssert
  /-- A head releases Dd_HDh_ALERT_N, clearing HEAD_STAT.ALERT and freeing the head's transmit enables for later slots. (R283) -/
  | headAlertRelease (dir : Fin 12)
  /-- The coordinator's write of an address-table entry to the persistent record store completes, letting the waiting OK JOIN_RESP be sent. (R178) -/
  | addressTableWriteDone (eui : Nat)
  deriving DecidableEq, Repr

end Sys2Proof
end

