-- ==== Sys2Proof/Decode.lean ====
section
/-!
DEFINITION. The command that a word spells. No row of the opcode table gives bits: the block's commands are register accesses,
events of its links, radios and pins, and the instants of its own time, and none of them is an encoded word.
-/
namespace Sys2Proof

/-- The command spelt by a word of `nbits` bits: none. -/
def decodeTableWord (_nbits _w : Nat) : Option Instr := none

end Sys2Proof
end

