-- ==== Sys2Proof/Machine/Addr.lean ====
section
/-!
DEFINITION. The BAR0 byte offset of every register of the page maps (R37, R38, R40 and each block's page-map rule).
Each constant is named by its page and register; array registers take their index; radio-die pages take the die number.
-/
namespace Sys2Proof.Machine

/-- Base of the window of radio die `d` (R37). -/
def dWin (d : Nat) : Nat := 0xC00000 + 0x400000 * d

/-! HDR: offsets from a page base `p`. -/
/-- PAGE_ID (R40), RO. -/
def HDR.pageId (p : Nat) : Nat := p + 0x0
/-- PAGE_VER (R40), RO. -/
def HDR.pageVer (p : Nat) : Nat := p + 0x4
/-- PAGE_STAT (R40), RO. -/
def HDR.pageStat (p : Nat) : Nat := p + 0x8
/-- PAGE_CTRL (R40), RW, WO. -/
def HDR.pageCtrl (p : Nat) : Nat := p + 0xC
/-- INT_RAW (R40), RO. -/
def HDR.intRaw (p : Nat) : Nat := p + 0x10
/-- INT_EN (R40), RW. -/
def HDR.intEn (p : Nat) : Nat := p + 0x14
/-- INT_STAT (R40), W1C. -/
def HDR.intStat (p : Nat) : Nat := p + 0x18
/-- INT_SET (R40), WO. -/
def HDR.intSet (p : Nat) : Nat := p + 0x1C
/-- ERR_CODE (R40), RC. -/
def HDR.errCode (p : Nat) : Nat := p + 0x20
/-- ERR_INFO (R40), RO. -/
def HDR.errInfo (p : Nat) : Nat := p + 0x24
/-- CLAMP_FIELD (R40), RO. -/
def HDR.clampField (p : Nat) : Nat := p + 0x28
/-- CLAMP_WROTE (R40), RO. -/
def HDR.clampWrote (p : Nat) : Nat := p + 0x2C
/-- CLAMP_APPLIED (R40), RO. -/
def HDR.clampApplied (p : Nat) : Nat := p + 0x30
/-- CLAMP_COUNT (R40), RC. -/
def HDR.clampCount (p : Nat) : Nat := p + 0x34
/-- GUARD_FAIL (R40), RC. -/
def HDR.guardFail (p : Nat) : Nat := p + 0x38
/-- TXN_TAG (R40), RW. -/
def HDR.txnTag (p : Nat) : Nat := p + 0x40
/-- TXN_STAT (R40), RO. -/
def HDR.txnStat (p : Nat) : Nat := p + 0x44

/-- Base of page GLB. -/
def GLB.page : Nat := 0x0
/-- DEV_ID (R53), RO. -/
def GLB.devId : Nat := 0x100
/-- DEV_REV (R53), RO. -/
def GLB.devRev : Nat := 0x104
/-- DIE_PRESENT (R53), RO. -/
def GLB.diePresent : Nat := 0x108
/-- DIE_POWER (R53), RO. -/
def GLB.diePower : Nat := 0x10C
/-- DIE_LOST (R53), W1C. -/
def GLB.dieLost : Nat := 0x110
/-- PWR_STATE (R53), RO. -/
def GLB.pwrState : Nat := 0x114
/-- PWR_CMD (R53), WG. -/
def GLB.pwrCmd : Nat := 0x118
/-- SELFTEST_SUM (R53), RO. -/
def GLB.selftestSum : Nat := 0x11C
/-- GLB_INT (R53), RO. -/
def GLB.glbInt : Nat := 0x120
/-- GLB_INT_EN (R53), RW. -/
def GLB.glbIntEn : Nat := 0x124
/-- CLAMP_LOG_CNT (R53), RO. -/
def GLB.clampLogCnt : Nat := 0x130
/-- CLAMP_LOG_LOST (R53), RO. -/
def GLB.clampLogLost : Nat := 0x134
/-- CLAMP_LOG_CLR (R53), WO. -/
def GLB.clampLogClr : Nat := 0x138
/-- STRAPS (R53), RO. -/
def GLB.straps : Nat := 0x140
/-- CASC_WIN_PART (R53), RW. -/
def GLB.cascWinPart : Nat := 0x150
/-- CASC_WIN_BASE (R53), RW. -/
def GLB.cascWinBase : Nat := 0x154
/-- CLAMP_LOG (R53), RO. -/
def GLB.clampLog (n : Nat) (w : Nat) : Nat := 0x800 + 0x10 * n + 0x4 * w

/-! DC: die control page, offsets from the window base `p`. -/
/-- DIE_INT_LO (R52), RO. -/
def DC.dieIntLo (p : Nat) : Nat := p + 0x100
/-- DIE_INT_HI (R52), RO. -/
def DC.dieIntHi (p : Nat) : Nat := p + 0x104
/-- WAKE_EN (R52), RW. -/
def DC.wakeEn (p : Nat) : Nat := p + 0x108
/-- DISC_STAT (R52), RO. -/
def DC.discStat (p : Nat) : Nat := p + 0x10C
/-- DIE_TEMP (R505), RO. -/
def DC.dieTemp (p : Nat) : Nat := p + 0x180
/-- TEMP_CFG (R505), RW. -/
def DC.tempCfg (p : Nat) : Nat := p + 0x184
/-- TEMP_MAX (R505), RC. -/
def DC.tempMax (p : Nat) : Nat := p + 0x188
/-- VEC_MAP (R52), RW. -/
def DC.vecMap (p : Nat) (k : Nat) : Nat := p + 0x200 + 0x4 * k

/-- Base of page C1. -/
def C1.page : Nat := 0x410000
/-- TXN_OPEN (R68), WO. -/
def C1.txnOpen : Nat := 0x410100
/-- TXN_OPENED (R68), RC. -/
def C1.txnOpened : Nat := 0x410104
/-- TXN_ATIME_S (R68), RW. -/
def C1.txnAtimeS : Nat := 0x410108
/-- TXN_ATIME_NS (R68), RW. -/
def C1.txnAtimeNs : Nat := 0x41010C
/-- TXN_COMMIT (R68), WG. -/
def C1.txnCommit : Nat := 0x410110
/-- TXN_ABORT (R68), WG. -/
def C1.txnAbort : Nat := 0x410114
/-- TXN_RELEASE (R68), WO. -/
def C1.txnRelease : Nat := 0x410118
/-- TXN_OPEN_CNT (R68), RO. -/
def C1.txnOpenCnt : Nat := 0x41011C
/-- TXN_STAT (R68), RO. -/
def C1.txnStat (n : Nat) : Nat := 0x410200 + 0x20 * n
/-- TXN_INFO (R68), RO. -/
def C1.txnInfo (n : Nat) : Nat := 0x410204 + 0x20 * n
/-- TXN_COUNTS (R68), RO. -/
def C1.txnCounts (n : Nat) : Nat := 0x410208 + 0x20 * n
/-- TXN_T_S (R68), RO. -/
def C1.txnTS (n : Nat) : Nat := 0x41020C + 0x20 * n
/-- TXN_T_NS (R68), RO. -/
def C1.txnTNs (n : Nat) : Nat := 0x410210 + 0x20 * n
/-- TXN_APPLIED_S (R68), RO. -/
def C1.txnAppliedS (n : Nat) : Nat := 0x410214 + 0x20 * n
/-- TXN_APPLIED_NS (R68), RO. -/
def C1.txnAppliedNs (n : Nat) : Nat := 0x410218 + 0x20 * n

/-- Base of page C2. -/
def C2.page : Nat := 0x420000
/-- TIME_SNAP (R101), WO. -/
def C2.timeSnap : Nat := 0x420100
/-- SNAP_S_LO (R101), RO. -/
def C2.snapSLo : Nat := 0x420104
/-- SNAP_S_HI (R101), RO. -/
def C2.snapSHi : Nat := 0x420108
/-- SNAP_NS (R101), RO. -/
def C2.snapNs : Nat := 0x42010C
/-- SNAP_FRAC (R101), RO. -/
def C2.snapFrac : Nat := 0x420110
/-- TIME_QUAL (R101), RO. -/
def C2.timeQual : Nat := 0x420114
/-- TIME_CMD (R101), WG. -/
def C2.timeCmd : Nat := 0x420118
/-- SERVO_CFG (R101), RW. -/
def C2.servoCfg : Nat := 0x42011C
/-- SRC_MODE (R101), RW. -/
def C2.srcMode : Nat := 0x420120
/-- SRC_PRIO_LO (R101), RW. -/
def C2.srcPrioLo : Nat := 0x420124
/-- SRC_PRIO_HI (R101), RW. -/
def C2.srcPrioHi : Nat := 0x420128
/-- OFFSET_NS (R101), RO. -/
def C2.offsetNs : Nat := 0x42012C
/-- FREQ_ADJ (R101), RO. -/
def C2.freqAdj : Nat := 0x420130
/-- STEP_OFS_S (R101), RO. -/
def C2.stepOfsS : Nat := 0x420134
/-- STEP_OFS_NS (R101), RO. -/
def C2.stepOfsNs : Nat := 0x420138
/-- SET_S_LO (R101), RW. -/
def C2.setSLo : Nat := 0x42013C
/-- SET_S_HI (R101), RW. -/
def C2.setSHi : Nat := 0x420140
/-- SET_NS (R101), RW. -/
def C2.setNs : Nat := 0x420144
/-- HOLD_AGE (R101), RO. -/
def C2.holdAge : Nat := 0x420148
/-- UTC_OFFSET (R101), RO. -/
def C2.utcOffset : Nat := 0x42014C
/-- PTP_DOMAIN (R101), RW. -/
def C2.ptpDomain : Nat := 0x420150
/-- OUTLIER_CNT (R101), RC. -/
def C2.outlierCnt : Nat := 0x420154
/-- ACT_DISCARDED (R101), RC. -/
def C2.actDiscarded : Nat := 0x420158
/-- PTP_CFG (R101), RW. -/
def C2.ptpCfg (p : Nat) : Nat := 0x420200 + 0x40 * p
/-- PTP_ASYM_PS (R101), RW. -/
def C2.ptpAsymPs (p : Nat) : Nat := 0x420204 + 0x40 * p
/-- PTP_TXLAT_PS (R101), RW. -/
def C2.ptpTxlatPs (p : Nat) : Nat := 0x420208 + 0x40 * p
/-- PTP_RXLAT_PS (R101), RW. -/
def C2.ptpRxlatPs (p : Nat) : Nat := 0x42020C + 0x40 * p
/-- PTP_OFFSET_NS (R101), RO. -/
def C2.ptpOffsetNs (p : Nat) : Nat := 0x420210 + 0x40 * p
/-- PTP_MPD_NS (R101), RO. -/
def C2.ptpMpdNs (p : Nat) : Nat := 0x420214 + 0x40 * p
/-- PTP_PSTATE (R101), RO. -/
def C2.ptpPstate (p : Nat) : Nat := 0x420218 + 0x40 * p
/-- TT_CFG (R101), RW. -/
def C2.ttCfg (l : Nat) : Nat := 0x420400 + 0x20 * l
/-- TT_ASYM_PS (R101), RW. -/
def C2.ttAsymPs (l : Nat) : Nat := 0x420404 + 0x20 * l
/-- TT_OFFSET_NS (R101), RO. -/
def C2.ttOffsetNs (l : Nat) : Nat := 0x420408 + 0x20 * l
/-- TT_DELAY_NS (R101), RO. -/
def C2.ttDelayNs (l : Nat) : Nat := 0x42040C + 0x20 * l
/-- TT_MEMBER (R101), RO. -/
def C2.ttMember (l : Nat) : Nat := 0x420410 + 0x20 * l

/-- Base of page C3. -/
def C3.page : Nat := 0x430000
/-- GR_CFG (R376), RW. -/
def C3.grCfg : Nat := 0x430100
/-- GR_STAT (R376), RO. -/
def C3.grStat : Nat := 0x430104
/-- TD_CMD (R376), WO. -/
def C3.tdCmd : Nat := 0x430108
/-- TD_RESULT (R376), RO. -/
def C3.tdResult : Nat := 0x43010C
/-- TD_DATA (R376), RW. -/
def C3.tdData (w : Nat) : Nat := 0x430110 + 0x4 * w
/-- GR_DEC (R376), WO. -/
def C3.grDec : Nat := 0x43012C
/-- GR_DONE (R376), WO. -/
def C3.grDone : Nat := 0x430130
/-- GR_UNDERFLOW (R376), RC. -/
def C3.grUnderflow : Nat := 0x430134
/-- GR_GROUP (R376), RW. -/
def C3.grGroup (g : Nat) : Nat := 0x430200 + 0x4 * g
/-- GR_TIMER (R376), RW. -/
def C3.grTimer (t : Nat) : Nat := 0x430300 + 0x4 * t
/-- BIND (R376), RW. -/
def C3.bind (b : Nat) : Nat := 0x430400 + 0x4 * b

/-- Base of page C4. -/
def C4.page : Nat := 0x440000
/-- FW_CMD (R377), WO. -/
def C4.fwCmd : Nat := 0x440100
/-- FW_BASE (R377), RW. -/
def C4.fwBase : Nat := 0x440104
/-- FW_STAT (R377), RO. -/
def C4.fwStat : Nat := 0x440108
/-- FW_VER (R377), RO. -/
def C4.fwVer : Nat := 0x44010C
/-- ENG_EN (R377), RW. -/
def C4.engEn : Nat := 0x440110
/-- ENG_STAT (R377), RO. -/
def C4.engStat (e : Nat) : Nat := 0x440200 + 0x10 * e
/-- ENG_FAULT (R377), RO. -/
def C4.engFault (e : Nat) : Nat := 0x440204 + 0x10 * e
/-- ENG_WDT (R377), RW. -/
def C4.engWdt (e : Nat) : Nat := 0x440208 + 0x10 * e
/-- ENG_BUSY (R377), RC. -/
def C4.engBusy (e : Nat) : Nat := 0x44020C + 0x10 * e
/-- MB_DATA (R377), RW. -/
def C4.mbData (m : Nat) (w : Nat) : Nat := 0x441000 + 0x80 * m + 0x4 * w
/-- MB_DOORBELL (R377), WO. -/
def C4.mbDoorbell (m : Nat) : Nat := 0x441040 + 0x80 * m
/-- MB_STAT (R377), RO. -/
def C4.mbStat (m : Nat) : Nat := 0x441044 + 0x80 * m
/-- MB_RELEASE (R377), WO. -/
def C4.mbRelease (m : Nat) : Nat := 0x441048 + 0x80 * m

/-- Base of page C5. -/
def C5.page : Nat := 0x450000
/-- DMA_DONE_MAP (R393), W1C. -/
def C5.dmaDoneMap : Nat := 0x450100
/-- DMA_ERR_MAP (R393), W1C. -/
def C5.dmaErrMap : Nat := 0x450104
/-- DMA_PAUSED_MAP (R393), RO. -/
def C5.dmaPausedMap : Nat := 0x450108
/-- CH_CMD (R393), WO. -/
def C5.chCmd (n : Nat) : Nat := 0x450200 + 0x40 * n
/-- CH_STAT (R393), RO. -/
def C5.chStat (n : Nat) : Nat := 0x450204 + 0x40 * n
/-- CH_DESC_LO (R393), RW. -/
def C5.chDescLo (n : Nat) : Nat := 0x450208 + 0x40 * n
/-- CH_DESC_HI (R393), RW. -/
def C5.chDescHi (n : Nat) : Nat := 0x45020C + 0x40 * n
/-- CH_CUR_LO (R393), RO. -/
def C5.chCurLo (n : Nat) : Nat := 0x450210 + 0x40 * n
/-- CH_CUR_HI (R393), RO. -/
def C5.chCurHi (n : Nat) : Nat := 0x450214 + 0x40 * n
/-- CH_RESIDUE (R393), RO. -/
def C5.chResidue (n : Nat) : Nat := 0x450218 + 0x40 * n
/-- CH_MISMATCH (R393), RO. -/
def C5.chMismatch (n : Nat) : Nat := 0x45021C + 0x40 * n
/-- CH_PACE (R393), RW. -/
def C5.chPace (n : Nat) : Nat := 0x450220 + 0x40 * n
/-- CH_HIGH (R393), RW. -/
def C5.chHigh (n : Nat) : Nat := 0x450224 + 0x40 * n
/-- CH_LOW (R393), RW. -/
def C5.chLow (n : Nat) : Nat := 0x450228 + 0x40 * n
/-- CH_LEVEL (R393), RO. -/
def C5.chLevel (n : Nat) : Nat := 0x45022C + 0x40 * n
/-- CH_LEVEL_ADJ (R393), WO. -/
def C5.chLevelAdj (n : Nat) : Nat := 0x450230 + 0x40 * n
/-- CH_BYTES (R393), RC. -/
def C5.chBytes (n : Nat) : Nat := 0x450234 + 0x40 * n
/-- CH_REQ_OVR (R393), RC. -/
def C5.chReqOvr (n : Nat) : Nat := 0x450238 + 0x40 * n

/-- Base of page C6. -/
def C6.page : Nat := 0x460000
/-- KEY_CMD (R408), WG. -/
def C6.keyCmd : Nat := 0x460100
/-- KEY_RESULT (R408), RO. -/
def C6.keyResult : Nat := 0x460104
/-- KEY_META (R408), RW. -/
def C6.keyMeta : Nat := 0x460108
/-- KEY_PN_LO (R408), RW. -/
def C6.keyPnLo : Nat := 0x46010C
/-- KEY_PN_HI (R408), RW. -/
def C6.keyPnHi : Nat := 0x460110
/-- KEY_STAT (R408), RO. -/
def C6.keyStat : Nat := 0x460114
/-- KEY_DATA (R408), WO. -/
def C6.keyData (w : Nat) : Nat := 0x460120 + 0x4 * w
/-- PIPE_TX_BYTES (R408), RC. -/
def C6.pipeTxBytes (p : Nat) : Nat := 0x460200 + 0x10 * p
/-- PIPE_RX_BYTES (R408), RC. -/
def C6.pipeRxBytes (p : Nat) : Nat := 0x460204 + 0x10 * p
/-- PIPE_AUTH_FAIL (R408), RC. -/
def C6.pipeAuthFail (p : Nat) : Nat := 0x460208 + 0x10 * p
/-- PIPE_LOAD (R408), RO. -/
def C6.pipeLoad (p : Nat) : Nat := 0x46020C + 0x10 * p

/-- Base of page C7. -/
def C7.page : Nat := 0x470000
/-- DRAM_CFG (R427), RW. -/
def C7.dramCfg : Nat := 0x470100
/-- DRAM_CMD (R427), WO. -/
def C7.dramCmd : Nat := 0x470104
/-- DRAM_STAT (R427), RO. -/
def C7.dramStat : Nat := 0x470108
/-- CAP_MB (R427), RO. -/
def C7.capMb : Nat := 0x47010C
/-- TRAIN_CFG (R427), RW. -/
def C7.trainCfg : Nat := 0x470110
/-- SCRUB_CFG (R427), RW. -/
def C7.scrubCfg : Nat := 0x470114
/-- CE_THR (R427), RW. -/
def C7.ceThr : Nat := 0x470118
/-- FRZ_ADDR_LO (R427), RO. -/
def C7.frzAddrLo : Nat := 0x470120
/-- FRZ_ADDR_HI (R427), RO. -/
def C7.frzAddrHi : Nat := 0x470124
/-- FRZ_SYND (R427), RO. -/
def C7.frzSynd : Nat := 0x470128
/-- FRZ_SYND_HI (R427), RO. -/
def C7.frzSyndHi : Nat := 0x47012C
/-- FRZ_REQ (R427), RO. -/
def C7.frzReq : Nat := 0x470130
/-- FRZ_TIME_S (R427), RO. -/
def C7.frzTimeS : Nat := 0x470134
/-- FRZ_TIME_NS (R427), RO. -/
def C7.frzTimeNs : Nat := 0x470138
/-- FRZ_EXTRA (R427), RC. -/
def C7.frzExtra : Nat := 0x47013C
/-- POISON_CNT (R427), RO. -/
def C7.poisonCnt : Nat := 0x470140
/-- SPLIT_CNT (R427), RC. -/
def C7.splitCnt : Nat := 0x470144
/-- UNTRACKED_CNT (R427), RC. -/
def C7.untrackedCnt : Nat := 0x470148
/-- CH_STAT (R427), RO. -/
def C7.chStat (n : Nat) : Nat := 0x470200 + 0x10 * n
/-- CE_CNT (R427), RC. -/
def C7.ceCnt (n : Nat) : Nat := 0x470204 + 0x10 * n
/-- CE_LAST (R427), RO. -/
def C7.ceLast (n : Nat) : Nat := 0x470208 + 0x10 * n

/-- Base of page C8. -/
def C8.page : Nat := 0x480000
/-- HP_CFG (R464), RW. -/
def C8.hpCfg : Nat := 0x480100
/-- HP_STAT (R464), RO. -/
def C8.hpStat : Nat := 0x480104
/-- DRAM_WIN (R464), RW. -/
def C8.dramWin : Nat := 0x480108
/-- HP_ABORT_CNT (R464), RC. -/
def C8.hpAbortCnt : Nat := 0x48010C
/-- HP_LINKDOWN_CNT (R464), RC. -/
def C8.hpLinkdownCnt : Nat := 0x480110

/-- Base of page C9. -/
def C9.page : Nat := 0x490000
/-- BYP_OPEN (R454), WG. -/
def C9.bypOpen : Nat := 0x490100
/-- BYP_KICK (R454), WG. -/
def C9.bypKick : Nat := 0x490104
/-- BYP_WDT (R454), RW. -/
def C9.bypWdt : Nat := 0x490108
/-- BYP_STAT (R454), RO. -/
def C9.bypStat : Nat := 0x49010C
/-- ETH_CFG (R454), RW. -/
def C9.ethCfg (q : Nat) : Nat := 0x490200 + 0x40 * q
/-- ETH_STAT (R454), RO. -/
def C9.ethStat (q : Nat) : Nat := 0x490204 + 0x40 * q
/-- RX_BYTES_LO (R454), RO. -/
def C9.rxBytesLo (q : Nat) : Nat := 0x490208 + 0x40 * q
/-- RX_BYTES_HI (R454), RO. -/
def C9.rxBytesHi (q : Nat) : Nat := 0x49020C + 0x40 * q
/-- TX_BYTES_LO (R454), RO. -/
def C9.txBytesLo (q : Nat) : Nat := 0x490210 + 0x40 * q
/-- TX_BYTES_HI (R454), RO. -/
def C9.txBytesHi (q : Nat) : Nat := 0x490214 + 0x40 * q
/-- RX_ERR (R454), RC. -/
def C9.rxErr (q : Nat) : Nat := 0x490218 + 0x40 * q
/-- SFP_CTRL (R454), RW. -/
def C9.sfpCtrl (q : Nat) : Nat := 0x49021C + 0x40 * q
/-- SFP_I2C (R454), RW. -/
def C9.sfpI2c (q : Nat) : Nat := 0x490220 + 0x40 * q

/-- Base of page C10. -/
def C10.page : Nat := 0x4A0000
/-- CASC_STAT (R463), RO. -/
def C10.cascStat : Nat := 0x4A0100
/-- CASC_INT (R463), RO. -/
def C10.cascInt : Nat := 0x4A0104
/-- KOR_CFG (R463), RW. -/
def C10.korCfg (k : Nat) : Nat := 0x4A0200 + 0x40 * k
/-- KOR_STAT (R463), RO. -/
def C10.korStat (k : Nat) : Nat := 0x4A0204 + 0x40 * k
/-- KOR_ERR (R463), RC. -/
def C10.korErr (k : Nat) : Nat := 0x4A0208 + 0x40 * k
/-- KOR_TIME_NS (R463), RO. -/
def C10.korTimeNs (k : Nat) : Nat := 0x4A020C + 0x40 * k

/-- Base of page C11. -/
def C11.page : Nat := 0x4B0000
/-- TRACE_CFG (R488), RW. -/
def C11.traceCfg : Nat := 0x4B0100
/-- TRACE_BASE (R488), RW. -/
def C11.traceBase : Nat := 0x4B0104
/-- TRACE_SIZE (R488), RW. -/
def C11.traceSize : Nat := 0x4B0108
/-- TRACE_HEAD (R488), RO. -/
def C11.traceHead : Nat := 0x4B010C
/-- TRACE_TAIL (R488), RW. -/
def C11.traceTail : Nat := 0x4B0110
/-- TRACE_LOST (R488), RC. -/
def C11.traceLost : Nat := 0x4B0114
/-- TRACE_STAT (R488), RO. -/
def C11.traceStat : Nat := 0x4B0118
/-- EVT_HEAD (R488), RO. -/
def C11.evtHead : Nat := 0x4B0120
/-- EVT_OVERFLOW (R488), RC. -/
def C11.evtOverflow : Nat := 0x4B0124
/-- EVT_E_LOST (R488), RC. -/
def C11.evtELost : Nat := 0x4B0128
/-- EVT_CLR (R488), WO. -/
def C11.evtClr : Nat := 0x4B012C
/-- EVT_RD_IDX (R488), RW. -/
def C11.evtRdIdx : Nat := 0x4B0130
/-- EVT_RD (R488), RO. -/
def C11.evtRd (w : Nat) : Nat := 0x4B0140 + 0x4 * w
/-- HEALTH (R488), RO. -/
def C11.health : Nat := 0x4B0160
/-- HEALTH_STICKY (R488), RC. -/
def C11.healthSticky : Nat := 0x4B0164

/-- Base of page C12. -/
def C12.page : Nat := 0x4C0000
/-- FWD_CFG (R347), RW (T). -/
def C12.fwdCfg : Nat := 0x4C0100
/-- PCP_MAP (R347), RW (T). -/
def C12.pcpMap : Nat := 0x4C0104
/-- CLASS_PCP (R347), RW (T). -/
def C12.classPcp : Nat := 0x4C0108
/-- DSCP_MAP (R347), RW (T). -/
def C12.dscpMap (n : Nat) : Nat := 0x4C0110 + 0x4 * n
/-- VLAN_CMD (R347), WO. -/
def C12.vlanCmd : Nat := 0x4C0140
/-- VLAN_DATA (R347), RW. -/
def C12.vlanData (w : Nat) : Nat := 0x4C0144 + 0x4 * w
/-- RMAC_LO (R347), RW (T). -/
def C12.rmacLo (i : Nat) : Nat := 0x4C0150 + 0x8 * i
/-- RMAC_HI (R347), RW (T). -/
def C12.rmacHi (i : Nat) : Nat := 0x4C0154 + 0x8 * i
/-- L3_EXCEPT (R347), RC. -/
def C12.l3Except : Nat := 0x4C0190
/-- LEARN_OVERRUN (R347), RC. -/
def C12.learnOverrun : Nat := 0x4C0194
/-- STATIC_MOVE (R347), RC. -/
def C12.staticMove : Nat := 0x4C0198
/-- CSUM_BAD (R347), RC. -/
def C12.csumBad : Nat := 0x4C019C
/-- PORT_CFG (R347), RW (T). -/
def C12.portCfg (q : Nat) : Nat := 0x4C0200 + 0x10 * q
/-- LEARN_LIMIT (R347), RW (T). -/
def C12.learnLimit (q : Nat) : Nat := 0x4C0204 + 0x10 * q
/-- LEARN_COUNT (R347), RO. -/
def C12.learnCount (q : Nat) : Nat := 0x4C0208 + 0x10 * q
/-- PORT_DROP (R347), RC. -/
def C12.portDrop (q : Nat) : Nat := 0x4C020C + 0x10 * q
/-- BSS_VID (R347), RW (T). -/
def C12.bssVid (p : Nat) (b : Nat) : Nat := 0x4C0400 + 0x40 * p + 0x4 * b

/-- Base of page C13. -/
def C13.page : Nat := 0x4D0000
/-- TBL_CMD (R348), WO. -/
def C13.tblCmd : Nat := 0x4D0100
/-- TBL_STATUS (R348), RO. -/
def C13.tblStatus : Nat := 0x4D0104
/-- TBL_LOC (R348), RO. -/
def C13.tblLoc : Nat := 0x4D0108
/-- TBL_CURSOR (R348), RW. -/
def C13.tblCursor : Nat := 0x4D010C
/-- TBL_KEY (R348), RW. -/
def C13.tblKey (w : Nat) : Nat := 0x4D0110 + 0x4 * w
/-- TBL_RES (R348), RW. -/
def C13.tblRes (w : Nat) : Nat := 0x4D0124 + 0x4 * w
/-- TBL_CFG (R348), RW. -/
def C13.tblCfg : Nat := 0x4D0130
/-- HASH_SEED (R348), RW. -/
def C13.hashSeed (w : Nat) : Nat := 0x4D0134 + 0x4 * w
/-- AGE_CFG (R348), RW. -/
def C13.ageCfg : Nat := 0x4D013C
/-- SCRUB_CFG (R348), RW. -/
def C13.scrubCfg : Nat := 0x4D0140
/-- TBL_USE (R348), RO. -/
def C13.tblUse : Nat := 0x4D0144
/-- PARITY_CNT (R348), RC. -/
def C13.parityCnt : Nat := 0x4D0148
/-- AGED_CNT (R348), RC. -/
def C13.agedCnt : Nat := 0x4D014C
/-- MOVE_CNT (R348), RC. -/
def C13.moveCnt : Nat := 0x4D0150
/-- LEARN_CNT (R348), RC. -/
def C13.learnCnt : Nat := 0x4D0154
/-- SWEEP_RESULT (R348), RO. -/
def C13.sweepResult : Nat := 0x4D0158

/-- Base of page C14. -/
def C14.page : Nat := 0x4E0000
/-- LPM_CMD (R349), WO. -/
def C14.lpmCmd : Nat := 0x4E0100
/-- LPM_STATUS (R349), RO. -/
def C14.lpmStatus : Nat := 0x4E0104
/-- LPM_ADDR (R349), RW. -/
def C14.lpmAddr (w : Nat) : Nat := 0x4E0108 + 0x4 * w
/-- LPM_NH (R349), RW. -/
def C14.lpmNh : Nat := 0x4E0118
/-- LPM_USE (R349), RO. -/
def C14.lpmUse : Nat := 0x4E011C
/-- NODE_USE (R349), RO. -/
def C14.nodeUse (s : Nat) : Nat := 0x4E0124 + 0x4 * s
/-- NH_CMD (R349), WO. -/
def C14.nhCmd : Nat := 0x4E0140
/-- NH_DATA (R349), RW. -/
def C14.nhData (w : Nat) : Nat := 0x4E0144 + 0x4 * w
/-- PASS_CNT (R349), RC. -/
def C14.passCnt : Nat := 0x4E0160

/-- Base of page C15. -/
def C15.page : Nat := 0x4F0000
/-- QM_CFG (R350), RW (T). -/
def C15.qmCfg : Nat := 0x4F0100
/-- SPILL_BASE_LO (R350), RW. -/
def C15.spillBaseLo : Nat := 0x4F0104
/-- SPILL_BASE_HI (R350), RW. -/
def C15.spillBaseHi : Nat := 0x4F0108
/-- SPILL_SIZE (R350), RW. -/
def C15.spillSize : Nat := 0x4F010C
/-- CELL_FREE (R350), RO. -/
def C15.cellFree : Nat := 0x4F0110
/-- SPILL_USE (R350), RO. -/
def C15.spillUse : Nat := 0x4F0114
/-- STA_Q_MAX (R350), RW (T). -/
def C15.staQMax : Nat := 0x4F0118
/-- PORT_Q_MAX (R350), RW (T). -/
def C15.portQMax : Nat := 0x4F011C
/-- QM_CMD (R350), WO. -/
def C15.qmCmd : Nat := 0x4F0120
/-- CLASS_CFG (R350), RW (T). -/
def C15.classCfg (c : Nat) : Nat := 0x4F0200 + 0x10 * c
/-- CLASS_WEIGHT (R350), RW (T). -/
def C15.classWeight (c : Nat) : Nat := 0x4F0204 + 0x10 * c
/-- CLASS_DROP (R350), RC. -/
def C15.classDrop (c : Nat) : Nat := 0x4F0208 + 0x10 * c
/-- CLASS_SPILL (R350), RC. -/
def C15.classSpill (c : Nat) : Nat := 0x4F020C + 0x10 * c

/-- Base of page C16. -/
def C16.page : Nat := 0x500000
/-- AS_CFG (R256), RW. -/
def C16.asCfg : Nat := 0x500100
/-- STA_CMD (R256), WO. -/
def C16.staCmd : Nat := 0x500104
/-- STA_RESULT (R256), RO. -/
def C16.staResult : Nat := 0x500108
/-- STA_KEY (R256), WG. -/
def C16.staKey : Nat := 0x50010C
/-- STA_TOTAL (R256), RO. -/
def C16.staTotal : Nat := 0x500110
/-- TWT_CMD (R256), WO. -/
def C16.twtCmd : Nat := 0x500114
/-- TWT_RESULT (R256), RO. -/
def C16.twtResult : Nat := 0x500118
/-- TID_DROP (R256), RC. -/
def C16.tidDrop : Nat := 0x50011C
/-- STA_DATA (R256), RW, RO. -/
def C16.staData (w : Nat) : Nat := 0x500140 + 0x4 * w
/-- TWT_DATA (R256), RW. -/
def C16.twtData (w : Nat) : Nat := 0x500180 + 0x4 * w
/-- SCHED_CFG (R256), RW (T). -/
def C16.schedCfg (p : Nat) : Nat := 0x500200 + 0x40 * p
/-- TXOP_CFG (R256), RW (T). -/
def C16.txopCfg (p : Nat) : Nat := 0x500204 + 0x40 * p
/-- EDCA (R256), RW (T). -/
def C16.edca (p : Nat) (ac : Nat) : Nat := 0x500208 + 0x40 * p + 0x4 * ac
/-- TSF_BASE (R256), RW. -/
def C16.tsfBase (p : Nat) : Nat := 0x500218 + 0x40 * p
/-- BCN_CFG (R256), RW (T). -/
def C16.bcnCfg (p : Nat) : Nat := 0x50021C + 0x40 * p
/-- SCHED_CMD (R256), WO. -/
def C16.schedCmd (p : Nat) : Nat := 0x500220 + 0x40 * p
/-- SCHED_STAT (R256), RO. -/
def C16.schedStat (p : Nat) : Nat := 0x500224 + 0x40 * p
/-- AIRTIME (R256), RC. -/
def C16.airtime (p : Nat) : Nat := 0x500228 + 0x40 * p
/-- PPDU_CNT (R256), RC. -/
def C16.ppduCnt (p : Nat) : Nat := 0x50022C + 0x40 * p
/-- DROP_CNT (R256), RC. -/
def C16.dropCnt (p : Nat) : Nat := 0x500230 + 0x40 * p
/-- DUP_CNT (R256), RC. -/
def C16.dupCnt (p : Nat) : Nat := 0x500234 + 0x40 * p
/-- UL_CFG (R256), RW (T). -/
def C16.ulCfg (p : Nat) : Nat := 0x500238 + 0x40 * p
/-- STA_CNT (R256), RO. -/
def C16.staCnt (p : Nat) : Nat := 0x50023C + 0x40 * p
/-- PROFILE (R256), RW (T). -/
def C16.profile (n : Nat) (w : Nat) : Nat := 0x500400 + 0x10 * n + 0x4 * w
/-- ACT_S (R256), RW. -/
def C16.actS (i : Nat) : Nat := 0x500600 + 0x20 * i
/-- ACT_NS (R256), RW. -/
def C16.actNs (i : Nat) : Nat := 0x500604 + 0x20 * i
/-- ACT_DESC (R256), RW. -/
def C16.actDesc (i : Nat) : Nat := 0x500608 + 0x20 * i
/-- ACT_ARM (R256), WG. -/
def C16.actArm (i : Nat) : Nat := 0x50060C + 0x20 * i
/-- ACT_STAT (R256), RO. -/
def C16.actStat (i : Nat) : Nat := 0x500610 + 0x20 * i

/-- Base of page C17. -/
def C17.page : Nat := 0x510000
/-- LINK_EN (R314), RO. -/
def C17.linkEn : Nat := 0x510100
/-- LINK_EVT (R314), RC. -/
def C17.linkEvt : Nat := 0x510104
/-- LINK_CFG (R314), RW (T). -/
def C17.linkCfg (l : Nat) : Nat := 0x510200 + 0x80 * l
/-- LINK_ID (R314), RW (T). -/
def C17.linkId (l : Nat) : Nat := 0x510204 + 0x80 * l
/-- SUB_PEER (R314), RW (T). -/
def C17.subPeer (l : Nat) : Nat := 0x510208 + 0x80 * l
/-- REORDER (R314), RW (T). -/
def C17.reorder (l : Nat) : Nat := 0x51020C + 0x80 * l
/-- HEALTH0 (R314), RW (T). -/
def C17.health0 (l : Nat) : Nat := 0x510210 + 0x80 * l
/-- HEALTH1 (R314), RW (T). -/
def C17.health1 (l : Nat) : Nat := 0x510214 + 0x80 * l
/-- HEALTH2 (R314), RW (T). -/
def C17.health2 (l : Nat) : Nat := 0x510218 + 0x80 * l
/-- RETX_TO (R314), RW (T). -/
def C17.retxTo (l : Nat) : Nat := 0x51021C + 0x80 * l
/-- STEER_LO (R314), RW (T). -/
def C17.steerLo (l : Nat) : Nat := 0x510220 + 0x80 * l
/-- STEER_HI (R314), RW (T). -/
def C17.steerHi (l : Nat) : Nat := 0x510224 + 0x80 * l
/-- KEY_SEL (R314), WG (T). -/
def C17.keySel (l : Nat) : Nat := 0x510228 + 0x80 * l
/-- KEY_CFG (R314), RW (T). -/
def C17.keyCfg (l : Nat) : Nat := 0x51022C + 0x80 * l
/-- MEMBER_STAT (R314), RO. -/
def C17.memberStat (l : Nat) : Nat := 0x510230 + 0x80 * l
/-- SEQ_STAT (R314), RO. -/
def C17.seqStat (l : Nat) : Nat := 0x510234 + 0x80 * l
/-- INFLIGHT (R314), RO. -/
def C17.inflight (l : Nat) : Nat := 0x510238 + 0x80 * l
/-- TX_CNT (R314), RC. -/
def C17.txCnt (l : Nat) : Nat := 0x51023C + 0x80 * l
/-- RX_CNT (R314), RC. -/
def C17.rxCnt (l : Nat) : Nat := 0x510240 + 0x80 * l
/-- REORD_CNT (R314), RC. -/
def C17.reordCnt (l : Nat) : Nat := 0x510244 + 0x80 * l
/-- FAIL_CNT (R314), RC. -/
def C17.failCnt (l : Nat) : Nat := 0x510248 + 0x80 * l
/-- SEC_CNT (R314), RC. -/
def C17.secCnt (l : Nat) : Nat := 0x51024C + 0x80 * l
/-- LAST_FAIL_S (R314), RO. -/
def C17.lastFailS (l : Nat) : Nat := 0x510250 + 0x80 * l
/-- LAST_FAIL_NS (R314), RO. -/
def C17.lastFailNs (l : Nat) : Nat := 0x510254 + 0x80 * l
/-- FAIL_TIME (R314), RO. -/
def C17.failTime (l : Nat) : Nat := 0x510258 + 0x80 * l
/-- ACT_S (R314), RW. -/
def C17.actS (i : Nat) : Nat := 0x510700 + 0x20 * i
/-- ACT_NS (R314), RW. -/
def C17.actNs (i : Nat) : Nat := 0x510704 + 0x20 * i
/-- ACT_DESC (R314), RW. -/
def C17.actDesc (i : Nat) : Nat := 0x510708 + 0x20 * i
/-- ACT_ARM (R314), WG. -/
def C17.actArm (i : Nat) : Nat := 0x51070C + 0x20 * i
/-- ACT_STAT (R314), RO. -/
def C17.actStat (i : Nat) : Nat := 0x510710 + 0x20 * i

/-- Base of page E1. -/
def E1.page : Nat := 0x810000
/-- PM_CFG (R126), RW. -/
def E1.pmCfg : Nat := 0x810100
/-- DIE_ROLE (R126), RW. -/
def E1.dieRole : Nat := 0x810104
/-- RST_CAUSE (R126), RO. -/
def E1.rstCause : Nat := 0x810108
/-- OSC_STAT (R126), RO. -/
def E1.oscStat : Nat := 0x81010C
/-- TRANS_TIME (R126), RO. -/
def E1.transTime : Nat := 0x810110
/-- SUP_WARN_ACT (R126), RO. -/
def E1.supWarnAct : Nat := 0x810114
/-- SUP_MON_STAT (R126), RO. -/
def E1.supMonStat (m : Nat) : Nat := 0x810200 + 0x10 * m
/-- SUP_LAST_DUR (R126), RO. -/
def E1.supLastDur (m : Nat) : Nat := 0x810204 + 0x10 * m
/-- SUP_LAST_MIN (R126), RO. -/
def E1.supLastMin (m : Nat) : Nat := 0x810208 + 0x10 * m

/-- Base of page E2. -/
def E2.page : Nat := 0x820000
/-- ST_CFG (R127), WG. -/
def E2.stCfg : Nat := 0x820100
/-- ST_RESULT (R127), RO. -/
def E2.stResult (d : Nat) : Nat := 0x820200 + 0x10 * d
/-- ST_DETAIL (R127), RO. -/
def E2.stDetail (d : Nat) : Nat := 0x820204 + 0x10 * d
/-- ST_SLICE_FAIL (R127), RO. -/
def E2.stSliceFail (d : Nat) : Nat := 0x820208 + 0x10 * d
/-- ST_RUNS (R127), RO. -/
def E2.stRuns (d : Nat) : Nat := 0x82020C + 0x10 * d

/-- Base of page E3. -/
def E3.page : Nat := 0x830000
/-- RF_CTRL (R159), RW. -/
def E3.rfCtrl : Nat := 0x830100
/-- RF_CMD (R159), WO. -/
def E3.rfCmd : Nat := 0x830104
/-- RF_STATE (R159), RO. -/
def E3.rfState : Nat := 0x830108
/-- CHAN0_KHZ (R159), RW (T). -/
def E3.chan0Khz : Nat := 0x83010C
/-- CHAN_SEL (R159), RW (T). -/
def E3.chanSel : Nat := 0x830110
/-- SEARCH_EN (R159), RW (T). -/
def E3.searchEn : Nat := 0x830114
/-- RX_CFG (R159), RW (T). -/
def E3.rxCfg : Nat := 0x830118
/-- TX_CFG (R159), RW (T). -/
def E3.txCfg : Nat := 0x83011C
/-- TX_FRAME (R159), RW. -/
def E3.txFrame : Nat := 0x830120
/-- TX_PHY (R159), RW. -/
def E3.txPhy : Nat := 0x830124
/-- TX_STAT (R159), RO. -/
def E3.txStat : Nat := 0x830128
/-- TUNER_CFG (R159), RW. -/
def E3.tunerCfg : Nat := 0x83012C
/-- TUNER_STAT (R159), RO. -/
def E3.tunerStat : Nat := 0x830130
/-- AFC_CFG (R159), RW. -/
def E3.afcCfg : Nat := 0x830134
/-- AFC_TRIM (R159), RO. -/
def E3.afcTrim : Nat := 0x830138
/-- CAL_STAT (R159), RO. -/
def E3.calStat : Nat := 0x83013C
/-- ED_CFG (R159), RW. -/
def E3.edCfg : Nat := 0x830140
/-- ED_RESULT (R159), RO. -/
def E3.edResult : Nat := 0x830144
/-- RSSI_NOW (R159), RO. -/
def E3.rssiNow : Nat := 0x830148
/-- ANT_DELAY (R159), RW. -/
def E3.antDelay : Nat := 0x83014C
/-- RX_RING_BASE (R159), RW. -/
def E3.rxRingBase : Nat := 0x830150
/-- RX_RING_SIZE (R159), RW. -/
def E3.rxRingSize : Nat := 0x830154
/-- RX_RING_HEAD (R159), RO. -/
def E3.rxRingHead : Nat := 0x830158
/-- RX_RING_TAIL (R159), RW. -/
def E3.rxRingTail : Nat := 0x83015C
/-- FALSE_DET_CNT (R159), RC. -/
def E3.falseDetCnt : Nat := 0x830160
/-- CAPTURE_CNT (R159), RC. -/
def E3.captureCnt : Nat := 0x830164
/-- DROP_CNT (R159), RC. -/
def E3.dropCnt : Nat := 0x830168
/-- MODE_CFG (R159), RW (T). -/
def E3.modeCfg (k : Nat) : Nat := 0x830180 + 0x4 * k
/-- ACT_S (R159), RW. -/
def E3.actS (i : Nat) : Nat := 0x830200 + 0x20 * i
/-- ACT_NS (R159), RW. -/
def E3.actNs (i : Nat) : Nat := 0x830204 + 0x20 * i
/-- ACT_DESC (R159), RW. -/
def E3.actDesc (i : Nat) : Nat := 0x830208 + 0x20 * i
/-- ACT_FRAME (R159), RW. -/
def E3.actFrame (i : Nat) : Nat := 0x83020C + 0x20 * i
/-- ACT_ARM (R159), WG. -/
def E3.actArm (i : Nat) : Nat := 0x830210 + 0x20 * i
/-- ACT_STAT (R159), RO. -/
def E3.actStat (i : Nat) : Nat := 0x830214 + 0x20 * i

/-- Base of page E4. -/
def E4.page : Nat := 0x840000
/-- MESH_CFG (R197), RW (T). -/
def E4.meshCfg : Nat := 0x840100
/-- PAN_ID (R197), RW (T). -/
def E4.panId : Nat := 0x840104
/-- MESH_ADDR (R197), RO. -/
def E4.meshAddr : Nat := 0x840108
/-- EUI_LO (R197), RO. -/
def E4.euiLo : Nat := 0x84010C
/-- EUI_HI (R197), RO. -/
def E4.euiHi : Nat := 0x840110
/-- BCN_CFG (R197), RW (T). -/
def E4.bcnCfg : Nat := 0x840114
/-- PARENT_STAT (R197), RO. -/
def E4.parentStat : Nat := 0x840118
/-- POLL_CFG (R197), RW (T). -/
def E4.pollCfg : Nat := 0x84011C
/-- FLOOD_CFG (R197), RW (T). -/
def E4.floodCfg : Nat := 0x840120
/-- CSMA_CFG (R197), RW (T). -/
def E4.csmaCfg : Nat := 0x840124
/-- MESH_SEC (R197), RW (T). -/
def E4.meshSec : Nat := 0x840128
/-- KEY_SEL (R197), WG (T). -/
def E4.keySel : Nat := 0x84012C
/-- SCAN_CFG (R197), RW. -/
def E4.scanCfg : Nat := 0x840130
/-- GRACE_LEFT (R197), RO. -/
def E4.graceLeft : Nat := 0x840134
/-- CHILD_CNT (R197), RO. -/
def E4.childCnt : Nat := 0x840138
/-- TABLE_USE (R197), RO. -/
def E4.tableUse : Nat := 0x84013C
/-- SEEN_USE (R197), RO. -/
def E4.seenUse : Nat := 0x840140
/-- TX_FC (R197), RO. -/
def E4.txFc : Nat := 0x840144
/-- ADDR_CMD (R197), WO. -/
def E4.addrCmd : Nat := 0x840148
/-- BCN_CNT (R197), RC. -/
def E4.bcnCnt : Nat := 0x84014C
/-- DUP_CNT (R197), RC. -/
def E4.dupCnt : Nat := 0x840150
/-- FLOOD_CNT (R197), RC. -/
def E4.floodCnt : Nat := 0x840154
/-- INDQ_CNT (R197), RC. -/
def E4.indqCnt : Nat := 0x840158
/-- SEC_CNT (R197), RC. -/
def E4.secCnt : Nat := 0x84015C
/-- TXR_BASE (R197), RW. -/
def E4.txrBase : Nat := 0x840160
/-- TXR_SIZE (R197), RW. -/
def E4.txrSize : Nat := 0x840164
/-- TXR_HEAD (R197), RW. -/
def E4.txrHead : Nat := 0x840168
/-- TXR_TAIL (R197), RO. -/
def E4.txrTail : Nat := 0x84016C
/-- RXR_BASE (R197), RW. -/
def E4.rxrBase : Nat := 0x840170
/-- RXR_SIZE (R197), RW. -/
def E4.rxrSize : Nat := 0x840174
/-- RXR_HEAD (R197), RO. -/
def E4.rxrHead : Nat := 0x840178
/-- RXR_TAIL (R197), RW. -/
def E4.rxrTail : Nat := 0x84017C
/-- RXR_DROP (R197), RC. -/
def E4.rxrDrop : Nat := 0x840180
/-- HDR_BAD (R197), RC. -/
def E4.hdrBad : Nat := 0x840184
/-- ACT_S (R197), RW. -/
def E4.actS (i : Nat) : Nat := 0x840200 + 0x20 * i
/-- ACT_NS (R197), RW. -/
def E4.actNs (i : Nat) : Nat := 0x840204 + 0x20 * i
/-- ACT_DESC (R197), RW. -/
def E4.actDesc (i : Nat) : Nat := 0x840208 + 0x20 * i
/-- ACT_ARM (R197), WG. -/
def E4.actArm (i : Nat) : Nat := 0x84020C + 0x20 * i
/-- ACT_STAT (R197), RO. -/
def E4.actStat (i : Nat) : Nat := 0x840210 + 0x20 * i

/-- Base of page E5. -/
def E5.page : Nat := 0x850000
/-- EMB_CMD (R378), WO. -/
def E5.embCmd : Nat := 0x850100
/-- EMB_STAT (R378), RO. -/
def E5.embStat : Nat := 0x850104
/-- EMB_VER (R378), RO. -/
def E5.embVer : Nat := 0x850108

/-- Base of page E6. -/
def E6.page : Nat := 0x860000
/-- AES_CFG (R401), RW. -/
def E6.aesCfg : Nat := 0x860100
/-- KEY_CMD (R401), WG. -/
def E6.keyCmd : Nat := 0x860104
/-- KEY_RESULT (R401), RO. -/
def E6.keyResult : Nat := 0x860108
/-- KEY_DATA (R401), WO. -/
def E6.keyData (w : Nat) : Nat := 0x860110 + 0x4 * w
/-- KEY_STAT (R401), RO. -/
def E6.keyStat (s : Nat) : Nat := 0x860140 + 0x4 * s
/-- AES_BLOCKS (R401), RC. -/
def E6.aesBlocks : Nat := 0x860180
/-- CTX_CMD (R401), WG. -/
def E6.ctxCmd (k : Nat) : Nat := 0x860200 + 0x40 * k
/-- CTX_GO (R401), WO. -/
def E6.ctxGo (k : Nat) : Nat := 0x860204 + 0x40 * k
/-- CTX_STAT (R401), RO. -/
def E6.ctxStat (k : Nat) : Nat := 0x860208 + 0x40 * k
/-- CTX_IN (R401), RW. -/
def E6.ctxIn (k : Nat) (w : Nat) : Nat := 0x860210 + 0x40 * k + 0x4 * w
/-- CTX_OUT (R401), RO. -/
def E6.ctxOut (k : Nat) (w : Nat) : Nat := 0x860220 + 0x40 * k + 0x4 * w

/-- Base of page E7. -/
def E7.page : Nat := 0x870000
/-- LAMP_CFG (R479), RW (T). -/
def E7.lampCfg : Nat := 0x870100
/-- LAMP_STAT (R479), RO. -/
def E7.lampStat : Nat := 0x870104
/-- FS_CAUSE (R479), RO. -/
def E7.fsCause : Nat := 0x870108
/-- HOST_WDT (R479), RW. -/
def E7.hostWdt : Nat := 0x87010C
/-- LAMP_KICK (R479), WG. -/
def E7.lampKick : Nat := 0x870110
/-- WDT_LEFT (R479), RO. -/
def E7.wdtLeft : Nat := 0x870114
/-- LEVEL (R479), WG (T). -/
def E7.level (o : Nat) : Nat := 0x870200 + 0x10 * o
/-- FAILSAFE (R479), WG. -/
def E7.failsafe (o : Nat) : Nat := 0x870204 + 0x10 * o
/-- OUT_CFG_DALI (R479), RW (T). -/
def E7.outCfgDali (o : Nat) : Nat := 0x870208 + 0x10 * o
/-- OUT_CFG_PWM (R479), RW (T). -/
def E7.outCfgPwm (o : Nat) : Nat := 0x870228 + 0x10 * o
/-- OUT_NOW (R479), RO. -/
def E7.outNow (o : Nat) : Nat := 0x87020C + 0x10 * o
/-- DQ_PUSH (R479), WO. -/
def E7.dqPush (c : Nat) : Nat := 0x870300 + 0x20 * c
/-- DQ_STAT (R479), RO. -/
def E7.dqStat (c : Nat) : Nat := 0x870304 + 0x20 * c
/-- DQ_RES (R479), RC. -/
def E7.dqRes (c : Nat) : Nat := 0x870308 + 0x20 * c
/-- DQ_FLUSH (R479), WO. -/
def E7.dqFlush (c : Nat) : Nat := 0x87030C + 0x20 * c
/-- DALI_CNT (R479), RC. -/
def E7.daliCnt (c : Nat) : Nat := 0x870310 + 0x20 * c
/-- ACT_S (R479), RW. -/
def E7.actS (i : Nat) : Nat := 0x870600 + 0x20 * i
/-- ACT_NS (R479), RW. -/
def E7.actNs (i : Nat) : Nat := 0x870604 + 0x20 * i
/-- ACT_DESC (R479), RW. -/
def E7.actDesc (i : Nat) : Nat := 0x870608 + 0x20 * i
/-- ACT_LEVEL (R479), WG. -/
def E7.actLevel (i : Nat) : Nat := 0x87060C + 0x20 * i
/-- ACT_ARM (R479), WG. -/
def E7.actArm (i : Nat) : Nat := 0x870610 + 0x20 * i
/-- ACT_STAT (R479), RO. -/
def E7.actStat (i : Nat) : Nat := 0x870614 + 0x20 * i

/-- Base of page E8. -/
def E8.page : Nat := 0x880000
/-- TIME_SNAP (R509), WO. -/
def E8.timeSnap : Nat := 0x880100
/-- SNAP_S_LO (R509), RO. -/
def E8.snapSLo : Nat := 0x880104
/-- SNAP_S_HI (R509), RO. -/
def E8.snapSHi : Nat := 0x880108
/-- SNAP_NS (R509), RO. -/
def E8.snapNs : Nat := 0x88010C
/-- SNAP_FRAC (R509), RO. -/
def E8.snapFrac : Nat := 0x880110
/-- TIME_QUAL (R509), RO. -/
def E8.timeQual : Nat := 0x880114
/-- TIME_CMD (R509), WG. -/
def E8.timeCmd : Nat := 0x880118
/-- SERVO_CFG (R509), RW. -/
def E8.servoCfg : Nat := 0x88011C
/-- STEP_OFS_S (R509), RO. -/
def E8.stepOfsS : Nat := 0x880134
/-- STEP_OFS_NS (R509), RO. -/
def E8.stepOfsNs : Nat := 0x880138
/-- SET_S_LO (R509), RW. -/
def E8.setSLo : Nat := 0x88013C
/-- SET_S_HI (R509), RW. -/
def E8.setSHi : Nat := 0x880140
/-- SET_NS (R509), RW. -/
def E8.setNs : Nat := 0x880144
/-- HOLD_AGE (R509), RO. -/
def E8.holdAge : Nat := 0x880148
/-- E_TIME_CFG (R509), RW. -/
def E8.eTimeCfg : Nat := 0x880160

/-- Base of page E9. -/
def E9.page : Nat := 0x890000
/-- SPI_STAT (R465), RO. -/
def E9.spiStat : Nat := 0x890100
/-- SPI_ERR (R465), RC. -/
def E9.spiErr : Nat := 0x890104
/-- WAKE_CAUSE (R465), W1C. -/
def E9.wakeCause : Nat := 0x890108
/-- WAKE_STAT (R465), RO. -/
def E9.wakeStat : Nat := 0x89010C

/-- Base of page E10. -/
def E10.page : Nat := 0x8A0000
/-- GPIO_IN (R129), RO. -/
def E10.gpioIn : Nat := 0x8A0100
/-- GPIO_OUT (R129), RW (T). -/
def E10.gpioOut : Nat := 0x8A0104
/-- GPIO_DIR (R129), RW (T). -/
def E10.gpioDir : Nat := 0x8A0108
/-- GPIO_CFG (R129), RW. -/
def E10.gpioCfg (n : Nat) : Nat := 0x8A0200 + 0x4 * n
/-- GPIO_TS_S (R129), RO. -/
def E10.gpioTsS (n : Nat) : Nat := 0x8A0300 + 0x8 * n
/-- GPIO_TS_NS (R129), RO. -/
def E10.gpioTsNs (n : Nat) : Nat := 0x8A0304 + 0x8 * n

/-- Page 1 of radio die `d`. -/
def D1.page (d : Nat) : Nat := dWin d + 0x10000
/-- CHAIN_EN (R226), RW (T). -/
def D1.chainEn (d : Nat) : Nat := D1.page d + 0x100
/-- TILE_STAT (R226), RO. -/
def D1.tileStat (d : Nat) : Nat := D1.page d + 0x104
/-- CHAIN_MUTE (R226), W1C. -/
def D1.chainMute (d : Nat) : Nat := D1.page d + 0x108
/-- CH_TXGAIN (R226), RW (T). -/
def D1.chTxgain (d : Nat) (c : Nat) : Nat := D1.page d + 0x200 + 0x10 * c
/-- CH_RSSI (R226), RO. -/
def D1.chRssi (d : Nat) (c : Nat) : Nat := D1.page d + 0x204 + 0x10 * c

/-- Page 2 of radio die `d`. -/
def D2.page (d : Nat) : Nat := dWin d + 0x20000
/-- SYN_STAT (R227), RO. -/
def D2.synStat (d : Nat) : Nat := D2.page d + 0x100
/-- SYN_FREQ (R227), RO. -/
def D2.synFreq (d : Nat) : Nat := D2.page d + 0x104
/-- UNLOCK_CNT (R227), RC. -/
def D2.unlockCnt (d : Nat) : Nat := D2.page d + 0x108

/-- Page 3 of radio die `d`. -/
def D3.page (d : Nat) : Nat := dWin d + 0x30000
/-- CAL_CMD (R227), WO. -/
def D3.calCmd (d : Nat) : Nat := D3.page d + 0x100
/-- CAL_STAT (R227), RO. -/
def D3.calStat (d : Nat) : Nat := D3.page d + 0x104
/-- CAL_CFG (R227), RW. -/
def D3.calCfg (d : Nat) : Nat := D3.page d + 0x108
/-- SU_FAIL (R227), RO. -/
def D3.suFail (d : Nat) : Nat := D3.page d + 0x10C
/-- PHASE_TAB (R227), RO. -/
def D3.phaseTab (d : Nat) (k : Nat) : Nat := D3.page d + 0x110 + 0x4 * k

/-- Page 4 of radio die `d`. -/
def D4.page (d : Nat) : Nat := dWin d + 0x40000
/-- PART_CFG (R228), RW. -/
def D4.partCfg (d : Nat) : Nat := D4.page d + 0x100
/-- PART_CHAN (R228), RW (T). -/
def D4.partChan (d : Nat) : Nat := D4.page d + 0x104
/-- PART_PUNCT (R228), RW (T). -/
def D4.partPunct (d : Nat) : Nat := D4.page d + 0x108
/-- PART_TX (R228), RW (T). -/
def D4.partTx (d : Nat) : Nat := D4.page d + 0x10C
/-- PART_STAT (R228), RO. -/
def D4.partStat (d : Nat) : Nat := D4.page d + 0x110
/-- SEQ_CMD (R228), WO. -/
def D4.seqCmd (d : Nat) : Nat := D4.page d + 0x114
/-- SEQ_STAT (R228), RO. -/
def D4.seqStat (d : Nat) : Nat := D4.page d + 0x118
/-- RX_CNT (R228), RC. -/
def D4.rxCnt (d : Nat) : Nat := D4.page d + 0x11C
/-- CAPTURE_CNT (R228), RC. -/
def D4.captureCnt (d : Nat) : Nat := D4.page d + 0x120
/-- ACT_S (R228), RW. -/
def D4.actS (d : Nat) (i : Nat) : Nat := D4.page d + 0x200 + 0x20 * i
/-- ACT_NS (R228), RW. -/
def D4.actNs (d : Nat) (i : Nat) : Nat := D4.page d + 0x204 + 0x20 * i
/-- ACT_DESC (R228), RW. -/
def D4.actDesc (d : Nat) (i : Nat) : Nat := D4.page d + 0x208 + 0x20 * i
/-- ACT_CHAN (R228), RW. -/
def D4.actChan (d : Nat) (i : Nat) : Nat := D4.page d + 0x20C + 0x20 * i
/-- ACT_ARM (R228), WG. -/
def D4.actArm (d : Nat) (i : Nat) : Nat := D4.page d + 0x210 + 0x20 * i
/-- ACT_STAT (R228), RO. -/
def D4.actStat (d : Nat) (i : Nat) : Nat := D4.page d + 0x214 + 0x20 * i

/-- Page 5 of radio die `d`. -/
def D5.page (d : Nat) : Nat := dWin d + 0x50000
/-- BF_CFG (R229), RW (T). -/
def D5.bfCfg (d : Nat) : Nat := D5.page d + 0x100
/-- SOUND_STAT (R229), RO. -/
def D5.soundStat (d : Nat) : Nat := D5.page d + 0x104
/-- SOUND_CNT (R229), RC. -/
def D5.soundCnt (d : Nat) : Nat := D5.page d + 0x108
/-- WEIGHT_CNT (R229), RO. -/
def D5.weightCnt (d : Nat) : Nat := D5.page d + 0x10C
/-- CSR_BASE_LO (R229), RW. -/
def D5.csrBaseLo (d : Nat) : Nat := D5.page d + 0x110
/-- CSR_BASE_HI (R229), RW. -/
def D5.csrBaseHi (d : Nat) : Nat := D5.page d + 0x114

/-- Page 6 of radio die `d`. -/
def D6.page (d : Nat) : Nat := dWin d + 0x60000
/-- FE_CFG (R229), RW (T). -/
def D6.feCfg (d : Nat) : Nat := D6.page d + 0x100
/-- FE_RAMP (R229), RW (T). -/
def D6.feRamp (d : Nat) (c : Nat) : Nat := D6.page d + 0x200 + 0x10 * c
/-- FE_DELAY (R229), RW. -/
def D6.feDelay (d : Nat) (c : Nat) : Nat := D6.page d + 0x204 + 0x10 * c
/-- FE_DET (R229), RO. -/
def D6.feDet (d : Nat) (c : Nat) : Nat := D6.page d + 0x208 + 0x10 * c
/-- FE_PWR (R229), RO. -/
def D6.fePwr (d : Nat) (c : Nat) : Nat := D6.page d + 0x20C + 0x10 * c

/-- Page 6 of radio die `d`. -/
def D6B.page (d : Nat) : Nat := dWin d + 0x60000
/-- HEAD_CMD (R289), WO. -/
def D6B.headCmd (d : Nat) (h : Nat) : Nat := D6B.page d + 0x200 + 0x40 * h
/-- HEAD_RDATA (R289), RO. -/
def D6B.headRdata (d : Nat) (h : Nat) : Nat := D6B.page d + 0x204 + 0x40 * h
/-- HEAD_STAT (R289), RO. -/
def D6B.headStat (d : Nat) (h : Nat) : Nat := D6B.page d + 0x208 + 0x40 * h
/-- HEAD_TIMING (R289), RW (T). -/
def D6B.headTiming (d : Nat) (h : Nat) : Nat := D6B.page d + 0x20C + 0x40 * h
/-- HEAD_DELAY (R289), RO. -/
def D6B.headDelay (d : Nat) (h : Nat) : Nat := D6B.page d + 0x210 + 0x40 * h
/-- HEAD_DELAY_OFS (R289), RW. -/
def D6B.headDelayOfs (d : Nat) (h : Nat) : Nat := D6B.page d + 0x214 + 0x40 * h
/-- BEAM_CFG (R289), RW (T). -/
def D6B.beamCfg (d : Nat) (h : Nat) : Nat := D6B.page d + 0x218 + 0x40 * h
/-- BEAM_STAT (R289), RO. -/
def D6B.beamStat (d : Nat) (h : Nat) : Nat := D6B.page d + 0x21C + 0x40 * h
/-- HEAD_DET (R289), RO. -/
def D6B.headDet (d : Nat) (c : Nat) : Nat := D6B.page d + 0x400 + 0x4 * c

/-- Page 7 of radio die `d`. -/
def D7.page (d : Nat) : Nat := dWin d + 0x70000
/-- CFO_CFG (R290), RW. -/
def D7.cfoCfg (d : Nat) : Nat := D7.page d + 0x100
/-- DIR_CFG (R290), RW (T). -/
def D7.dirCfg (d : Nat) (h : Nat) : Nat := D7.page d + 0x200 + 0x100 * h
/-- DIR_CHAN (R290), RW (T). -/
def D7.dirChan (d : Nat) (h : Nat) : Nat := D7.page d + 0x204 + 0x100 * h
/-- DIR_ID (R290), RW (T). -/
def D7.dirId (d : Nat) (h : Nat) : Nat := D7.page d + 0x208 + 0x100 * h
/-- TM_CFG (R290), RW (T). -/
def D7.tmCfg (d : Nat) (h : Nat) : Nat := D7.page d + 0x20C + 0x100 * h
/-- DIR_STAT (R290), RO. -/
def D7.dirStat (d : Nat) (h : Nat) : Nat := D7.page d + 0x210 + 0x100 * h
/-- DIR_HEALTH (R290), RO. -/
def D7.dirHealth (d : Nat) (h : Nat) : Nat := D7.page d + 0x214 + 0x100 * h
/-- CFO_STAT (R290), RO. -/
def D7.cfoStat (d : Nat) (h : Nat) : Nat := D7.page d + 0x218 + 0x100 * h
/-- FRAME_CNT (R290), RC. -/
def D7.frameCnt (d : Nat) (h : Nat) : Nat := D7.page d + 0x21C + 0x100 * h
/-- CW_FAIL (R290), RC. -/
def D7.cwFail (d : Nat) (h : Nat) : Nat := D7.page d + 0x220 + 0x100 * h
/-- SWITCH_CNT (R290), RC. -/
def D7.switchCnt (d : Nat) (h : Nat) : Nat := D7.page d + 0x224 + 0x100 * h
/-- SKIP_CNT (R290), RC. -/
def D7.skipCnt (d : Nat) (h : Nat) : Nat := D7.page d + 0x228 + 0x100 * h
/-- TM_PEND (R290), RO. -/
def D7.tmPend (d : Nat) (h : Nat) : Nat := D7.page d + 0x22C + 0x100 * h
/-- DIR_CAP (R290), RO. -/
def D7.dirCap (d : Nat) (h : Nat) : Nat := D7.page d + 0x230 + 0x100 * h
/-- TM_CMD (R290), WO. -/
def D7.tmCmd (d : Nat) : Nat := D7.page d + 0x1000
/-- TM_STAGE (R290), RW. -/
def D7.tmStage (d : Nat) (w : Nat) : Nat := D7.page d + 0x1400 + 0x4 * w
/-- TM_TAB (R290), RO. -/
def D7.tmTab (d : Nat) (n : Nat) (w : Nat) : Nat := D7.page d + 0x2000 + 0x400 * n + 0x4 * w
/-- SNR_AVG (R290), RO. -/
def D7.snrAvg (d : Nat) (hs : Nat) (w : Nat) : Nat := D7.page d + 0x8000 + 0x1000 * hs + 0x4 * w

end Sys2Proof.Machine
end

