-- ==== Sys2Proof/Machine/Bits.lean ====
section
/-!
DEFINITION. Bit fields of register words, signed readings and saturating sums: the helpers every register operation uses.
-/
namespace Sys2Proof.Machine

/-- The field `hi:lo` of a word, right-justified. -/
def bitsOf (w : Word) (hi lo : Nat) : Nat := w.toNat / 2 ^ lo % 2 ^ (hi + 1 - lo)

/-- The word with its field `hi:lo` replaced by the low bits of `v`. -/
def putFld (w : Word) (hi lo v : Nat) : Word :=
  BitVec.ofNat 32 (w.toNat - bitsOf w hi lo * 2 ^ lo + v % 2 ^ (hi + 1 - lo) * 2 ^ lo)

/-- Bit `n` of a word. -/
def bitOf (w : Word) (n : Nat) : Bool := w.toNat / 2 ^ n % 2 == 1

/-- The word with bit `n` set to `b`. -/
def putBit (w : Word) (n : Nat) (b : Bool) : Word := putFld w n n (if b then 1 else 0)

/-- A Boolean as the bit it is stored as. -/
def b2n (b : Bool) : Nat := if b then 1 else 0

/-- A number read as two's complement of `w` bits. -/
def sx (w n : Nat) : Int := if n % 2 ^ w < 2 ^ (w - 1) then (n % 2 ^ w : Nat) else (n % 2 ^ w : Nat) - (2 ^ w : Nat)

/-- An integer as a two's complement number of `w` bits. -/
def ux (w : Nat) (i : Int) : Nat := (i % (2 ^ w : Nat)).toNat

/-- An integer limited to `[lo, hi]`. -/
def clampI (lo hi i : Int) : Int := if i < lo then lo else if hi < i then hi else i

/-- A number limited to `[lo, hi]`. -/
def clampN (lo hi n : Nat) : Nat := if n < lo then lo else if hi < n then hi else n

/-- A signed 32-bit register value, saturating. -/
def satI32 (i : Int) : Word := BitVec.ofInt 32 (clampI (-2147483648) 2147483647 i)

/-- An unsigned 32-bit register value, saturating. -/
def satU32 (n : Nat) : Word := BitVec.ofNat 32 (min n 0xFFFFFFFF)

/-- A sum that stops at all ones of `w` bits (R482). -/
def satAdd (w a b : Nat) : Nat := min (a + b) (2 ^ w - 1)

/-- How a guarded register reads: its value and the value's one's complement above it (R8). -/
def guardRead (v : Nat) : Word := BitVec.ofNat 32 ((0xFFFF - v % 0x10000) * 0x10000 + v % 0x10000)

/-- The guard test: bits 31:16 are the one's complement of bits 15:0 (R43). -/
def guardOk (w : Word) : Bool := bitsOf w 31 16 + bitsOf w 15 0 == 0xFFFF

/-- The next generation of an 8-bit count that skips 0 (R55, R481). -/
def nextGen (g : Nat) : Nat := if g % 256 == 255 then 1 else g % 256 + 1

/-- The signed difference of two numbers modulo 2^w. -/
def sdiff (w a b : Nat) : Int := Int.bmod ((a : Int) - (b : Int)) (2 ^ w)

end Sys2Proof.Machine
end

