-- ==== Sys2Proof/Machine/Sparse.lean ====
section
/-!
DEFINITION. Sparse memories in canonical form: a list of (address, value) pairs with strictly rising addresses, in which
no entry equals what an unlisted address reads as. Registers (R8) and byte memories both use it.
-/
namespace Sys2Proof.Machine

variable {α : Type}

/-- The listed value at `k`. -/
def Sparse.find (l : List (Nat × α)) (k : Nat) : Option α :=
  match l with
  | [] => none
  | (a, v) :: t => if a = k then some v else Sparse.find t k

/-- The list without `k`. -/
def Sparse.erase (l : List (Nat × α)) (k : Nat) : List (Nat × α) := l.filter (fun p => p.1 != k)

/-- The list with `k` holding `v`, kept in order. -/
def Sparse.insert (l : List (Nat × α)) (k : Nat) (v : α) : List (Nat × α) :=
  match l with
  | [] => [(k, v)]
  | (a, w) :: t => if a = k then (k, v) :: t else if k < a then (k, v) :: (a, w) :: t else (a, w) :: Sparse.insert t k v

/-- Addresses strictly rise. -/
def Sparse.sorted : List (Nat × α) → Bool
  | [] => true
  | [_] => true
  | (a, _) :: (b, w) :: t => decide (a < b) && Sparse.sorted ((b, w) :: t)

/-- A write: the value an unlisted address reads as (`dflt`) is not listed. -/
def Sparse.put [DecidableEq α] (dflt : α) (l : List (Nat × α)) (k : Nat) (v : α) : List (Nat × α) :=
  if v = dflt then Sparse.erase l k else Sparse.insert l k v

/-- A byte memory, canonical; an unlisted byte reads 0. -/
abbrev Mem := List (Nat × Byte)

/-- The byte of a memory at `a`. -/
def Mem.byte (m : Mem) (a : Nat) : Byte := (Sparse.find m a).getD 0

/-- The memory with one byte written. -/
def Mem.setByte (m : Mem) (a : Nat) (b : Byte) : Mem := Sparse.put 0 m a b

/-- The canonical form of a byte memory. -/
def Mem.wf (m : Mem) : Bool := Sparse.sorted m && m.all (fun p => p.2 != 0)

/-- `n` bytes from `a`. -/
def Mem.bytes (m : Mem) (a : Nat) : Nat → List Byte
  | 0 => []
  | n + 1 => m.byte a :: Mem.bytes m (a + 1) n

/-- The memory with the bytes `bs` written from `a` upwards. -/
def Mem.setBytes (m : Mem) (a : Nat) : List Byte → Mem
  | [] => m
  | b :: bs => Mem.setBytes (m.setByte a b) (a + 1) bs

/-- A little-endian 32-bit word of a memory (R8). -/
def Mem.word (m : Mem) (a : Nat) : Word := m.byte (a + 3) ++ m.byte (a + 2) ++ m.byte (a + 1) ++ m.byte a

/-- The bytes of a word, little-endian (R8). -/
def wordBytes (w : Word) : List Byte :=
  [w.extractLsb' 0 8, w.extractLsb' 8 8, w.extractLsb' 16 8, w.extractLsb' 24 8]

/-- The memory with a little-endian word written. -/
def Mem.setWord (m : Mem) (a : Nat) (w : Word) : Mem := m.setBytes a (wordBytes w)

/-- The memory with words written from `a` upwards. -/
def Mem.setWords (m : Mem) (a : Nat) (ws : List Word) : Mem := m.setBytes a (ws.flatMap wordBytes)

end Sys2Proof.Machine
end

