-- ==== Sys2Proof/Config.lean ====
section
/-!
DEFINITION. What an implementation fixes, and the free values. A free value is an opaque constant: nothing in Lean can
evaluate it or prove a value of it. Every one is named in a row of notes/assumptions.
-/
namespace Sys2Proof

/-- The free word a step draws for a value the spec leaves open; the argument is the plain counter `State.fresh`. -/
opaque Config.freeWord : Nat → BitVec 32

/-- A free number, drawn as `Config.freeWord` is. -/
opaque Config.freeNat : Nat → Nat

/-- The part's EUI-64 (R163): a factory value. -/
opaque Config.eui : BitVec 64

/-- The version of the Ember firmware the part leaves the factory with (R374, R378). -/
opaque Config.emberVersion : BitVec 32

/-- DEV_REV: the silicon revision (R53). -/
opaque Config.deviceRevision : BitVec 32

/-- The factory latency of an Ethernet port in its mode, in ps: port, and receive (R80). It is taken within 0 to 200,000 (R101). -/
opaque Config.ptpLatency : Nat → Bool → Nat

/-- The frequency estimate that the servo's loop makes of a measurement: bandwidth code, present estimate and offset. The loop's gains are
not stated (R77). It is taken within ±250 ppm. -/
opaque Config.loopFreq : Nat → Int → Int → Nat

/-- The frequency estimate that die E makes of successive corrections: present estimate, last offset and offset (R88). -/
opaque Config.rtcFreq : Int → Int → Int → Nat

/-- A word of the data set of the grandmaster behind a selection of a source: class, variance and accuracy, and the two words of its
identity (R84). -/
opaque Config.gmWord : Nat → Nat → BitVec 32

/-- Block ciphers and digests the spec names by standard (AES of FIPS 197, GCM, CCM*, SHA-256 and the signature check),
taken as uninterpreted functions of their inputs: key words, then data words, to the result words. -/
opaque Config.aesEncrypt : List (BitVec 32) → List (BitVec 32) → List (BitVec 32)

/-- The inverse of `Config.aesEncrypt` under the same key. -/
opaque Config.aesDecrypt : List (BitVec 32) → List (BitVec 32) → List (BitVec 32)

/-- The 4-octet FCS of IEEE 802.15.4 over a PSDU's other octets (R168). -/
opaque Config.fcs : List (BitVec 8) → List (BitVec 8)

/-- AES-256-GCM of NIST SP 800-38D: key words, nonce, additional data and text, to the ciphertext followed by the tag (R298). -/
opaque Config.gcmSeal : List (BitVec 32) → List (BitVec 8) → List (BitVec 8) → List (BitVec 8) → List (BitVec 8)

/-- SHA-256 of FIPS 180-4 (R356). -/
opaque Config.sha256 : List (BitVec 8) → List (BitVec 8)

/-- The ECDSA check of FIPS 186-4 under the public key in the ROM: a digest and a signature (R356). -/
opaque Config.ecdsaOk : List (BitVec 8) → List (BitVec 8) → Bool

/-- The backward-frame window and settling time of a DALI priority, in ns: figures of IEC 62386-101 the spec does not
repeat (R473, R476). -/
opaque Config.daliWindow : Nat → Nat

/-- Octets that an RU of a number of tones carries in a number of µs at an MCS and with streams: the rates of IEEE 802.11be,
which the spec takes by reference (R204, R244). -/
opaque Config.ruCapacity (tones mcs streams us : Nat) : Nat

/-- The acknowledgement exchange of a plan, in µs (R244). -/
opaque Config.ackExchange : Nat → Nat

/-- The time of a sounding sequence for a number of stations with a number of dimensions, in µs (R220, R244). -/
opaque Config.soundTime (stations dims : Nat) : Nat

/-- Regularised zero-forcing weights, as the one number that stands for them: from the noise loading in dB, the base of the channel-state
region, the stations, and the DRAM that holds their records (R221). -/
opaque Config.rzfWeights (reg base : Nat) (stations : List Nat) (dram : List (Nat × BitVec 8)) : Nat

/-- The channel correlation of two stations on a partition is at most 0.5 (R244); the first argument is a free index. -/
opaque Config.uncorrelated (i p a b : Nat) : Bool

/-- Which three of more than three LINKS bits a station entry keeps (R235, R45). -/
opaque Config.linksPick : Nat → Nat

/-- The legal FSP_MASK that a mask of 0 takes (R45). -/
opaque Config.fspPick : Nat

end Sys2Proof
end

