-- ==== Sys2Proof/Machine/RegMap.lean ====
section
/-!
DEFINITION. The register map of every page: offset, array shape, access code, reset value and the legal range of every
configuration field, as the page-map and field tables of the spec give them (R8, R40, R45, R52, R53 and each block rule).
-/
namespace Sys2Proof.Machine

/-- Access codes (R8). -/
inductive Access where
  | rw | ro | w1c | rc | wo | wg
  deriving DecidableEq, Repr

/-- A legal range that depends on other state (R46), named by the field it belongs to; `State.depVal` evaluates it. -/
inductive Dep where

  | actOutput | actTarget | affinity | bcnPhase | beamLast | bindEn | cascBase | chLow | chainEn | chanNum | chanPlan | classReserve | csrBase | daliTarget | dieRole | dirSplit | dramBoot | dramWin | ecwMax | ethAn
  | ethFec | ethMode | feProtect | fspMask | keyIndex | keyNext | keyPn | lampLevel | maxUsers | meshRingBase | meshRole | minBe | modeMod | modeRate | partPunct | partSize | portFlood | radioEn | reqSel | ringIndex
  | rxRingBase | scanLast | scrubPass | spillSize | staLinks | steerDup | steerFb | steerPref | traceBase | traceTail | tunerProtect | twtPart | txPower | unlockThr | wakeEn
  deriving DecidableEq, Repr

/-- The legal range of a field (R45, R47). -/
inductive Legal where
  /-- Every code. -/
  | any
  /-- A number in `[lo, hi]`; clamped to the nearest. -/
  | rng (lo hi : Nat)
  /-- A two's complement number in `[lo, hi]`; clamped to the nearest. -/
  | srng (lo hi : Int)
  /-- Codes `0` to `hi`; another code takes `dflt`. -/
  | enum (hi dflt : Nat)
  /-- The listed codes; another code takes `dflt`. -/
  | enumOf (codes : List Nat) (dflt : Nat)
  /-- A bitmap; bits outside the mask are cleared. -/
  | bits (mask : Nat)
  /-- Must be zero (reserved bits of a guarded word). -/
  | zero
  /-- A nanosecond time field: rejected above 999,999,999 (R47, R70). -/
  | timeNs
  /-- A range that depends on other state. -/
  | dep (d : Dep)
  deriving DecidableEq, Repr

/-- One writable field of a register. -/
structure Field where
  name : String
  hi : Nat
  lo : Nat
  legal : Legal
  deriving DecidableEq, Repr

/-- One register, or one register array, of a page. -/
structure RegSpec where
  name : String
  off : Nat
  dims : List (Nat × Nat)
  acc : Access
  trans : Bool
  reset : Nat
  fields : List Field
  deriving DecidableEq, Repr

/-- The common page header (R40). Part 0. -/
def mapHDRPart0 : List RegSpec :=
  [⟨"PAGE_ID", 0x0, [], .ro, false, 0, []⟩,
   ⟨"PAGE_VER", 0x4, [], .ro, false, 0x100, []⟩,
   ⟨"PAGE_STAT", 0x8, [], .ro, false, 0, []⟩,
   ⟨"PAGE_CTRL", 0xC, [], .rw, false, 0, [⟨"ENABLE", 0, 0, .any⟩, ⟨"STRICT", 8, 8, .any⟩]⟩,
   ⟨"INT_RAW", 0x10, [], .ro, false, 0, []⟩,
   ⟨"INT_EN", 0x14, [], .rw, false, 0, [⟨"EN", 31, 0, .any⟩]⟩,
   ⟨"INT_STAT", 0x18, [], .w1c, false, 0, []⟩,
   ⟨"INT_SET", 0x1C, [], .wo, false, 0, []⟩,
   ⟨"ERR_CODE", 0x20, [], .rc, false, 0, []⟩,
   ⟨"ERR_INFO", 0x24, [], .ro, false, 0, []⟩,
   ⟨"CLAMP_FIELD", 0x28, [], .ro, false, 0, []⟩,
   ⟨"CLAMP_WROTE", 0x2C, [], .ro, false, 0, []⟩]

/-- The common page header (R40). Part 1. -/
def mapHDRPart1 : List RegSpec :=
  [⟨"CLAMP_APPLIED", 0x30, [], .ro, false, 0, []⟩,
   ⟨"CLAMP_COUNT", 0x34, [], .rc, false, 0, []⟩,
   ⟨"GUARD_FAIL", 0x38, [], .rc, false, 0, []⟩,
   ⟨"TXN_TAG", 0x40, [], .rw, false, 0, [⟨"TAG", 11, 0, .any⟩]⟩,
   ⟨"TXN_STAT", 0x44, [], .ro, false, 0, []⟩]

/-- The common page header (R40). -/
def mapHDR : List RegSpec :=
  mapHDRPart0 ++ mapHDRPart1

/-- Block registers of the global page (R53). Part 0. -/
def mapGLBPart0 : List RegSpec :=
  [⟨"DEV_ID", 0x100, [], .ro, false, 0, []⟩,
   ⟨"DEV_REV", 0x104, [], .ro, false, Config.deviceRevision.toNat, []⟩,
   ⟨"DIE_PRESENT", 0x108, [], .ro, false, 0, []⟩,
   ⟨"DIE_POWER", 0x10C, [], .ro, false, 2, []⟩,
   ⟨"DIE_LOST", 0x110, [], .w1c, false, 0, []⟩,
   ⟨"PWR_STATE", 0x114, [], .ro, false, 1, []⟩,
   ⟨"PWR_CMD", 0x118, [], .wg, false, 0, [⟨"CMD", 3, 0, .rng 1 5⟩, ⟨"RADIO_EN", 9, 4, .dep .radioEn⟩, ⟨"DRAM_SR", 10, 10, .any⟩, ⟨"MBZ", 15, 11, .zero⟩]⟩,
   ⟨"SELFTEST_SUM", 0x11C, [], .ro, false, 0, []⟩,
   ⟨"GLB_INT", 0x120, [], .ro, false, 0, []⟩,
   ⟨"GLB_INT_EN", 0x124, [], .rw, false, 0, [⟨"EN", 8, 0, .any⟩]⟩,
   ⟨"CLAMP_LOG_CNT", 0x130, [], .ro, false, 0, []⟩,
   ⟨"CLAMP_LOG_LOST", 0x134, [], .ro, false, 0, []⟩]

/-- Block registers of the global page (R53). Part 1. -/
def mapGLBPart1 : List RegSpec :=
  [⟨"CLAMP_LOG_CLR", 0x138, [], .wo, false, 0, []⟩,
   ⟨"STRAPS", 0x140, [], .ro, false, 0, []⟩,
   ⟨"CASC_WIN_PART", 0x150, [], .rw, false, 0, [⟨"PART", 1, 0, .any⟩]⟩,
   ⟨"CASC_WIN_BASE", 0x154, [], .rw, false, 0, [⟨"BASE", 31, 0, .dep .cascBase⟩]⟩,
   ⟨"CLAMP_LOG", 0x800, [(64, 16), (4, 4)], .ro, false, 0, []⟩]

/-- Block registers of the global page (R53). -/
def mapGLB : List RegSpec :=
  mapGLBPart0 ++ mapGLBPart1

/-- Block registers of a die control page (R52, R505); `v` is the default MSI-X vector of the die (R50). -/
def mapDC (v : Nat) : List RegSpec :=
  [⟨"DIE_INT_LO", 0x100, [], .ro, false, 0, []⟩,
   ⟨"DIE_INT_HI", 0x104, [], .ro, false, 0, []⟩,
   ⟨"WAKE_EN", 0x108, [], .rw, false, 0, [⟨"WAKE_EN", 10, 0, .dep .wakeEn⟩]⟩,
   ⟨"DISC_STAT", 0x10C, [], .ro, false, 0, []⟩,
   ⟨"DIE_TEMP", 0x180, [], .ro, false, 0, []⟩,
   ⟨"TEMP_CFG", 0x184, [], .rw, false, 0x69, [⟨"HIGH", 7, 0, .rng 60 110⟩]⟩,
   ⟨"TEMP_MAX", 0x188, [], .rc, false, 0, []⟩,
   ⟨"VEC_MAP", 0x200, [(16, 4)], .rw, false, 0x01010101 * v, [⟨"VEC0", 5, 0, .any⟩, ⟨"VEC1", 13, 8, .any⟩, ⟨"VEC2", 21, 16, .any⟩, ⟨"VEC3", 29, 24, .any⟩]⟩]

/-- Block registers of page C1. Part 0. -/
def mapC1Part0 : List RegSpec :=
  [⟨"TXN_OPEN", 0x100, [], .wo, false, 0, []⟩,
   ⟨"TXN_OPENED", 0x104, [], .rc, false, 0, []⟩,
   ⟨"TXN_ATIME_S", 0x108, [], .rw, false, 0, [⟨"S", 31, 0, .any⟩]⟩,
   ⟨"TXN_ATIME_NS", 0x10C, [], .rw, false, 0, [⟨"NS", 31, 0, .timeNs⟩]⟩,
   ⟨"TXN_COMMIT", 0x110, [], .wg, false, 0, [⟨"TAG", 11, 0, .any⟩, ⟨"POLICY", 13, 12, .rng 0 2⟩, ⟨"MBZ", 15, 14, .zero⟩]⟩,
   ⟨"TXN_ABORT", 0x114, [], .wg, false, 0, [⟨"TAG", 11, 0, .any⟩, ⟨"MBZ", 15, 12, .zero⟩]⟩,
   ⟨"TXN_RELEASE", 0x118, [], .wo, false, 0, []⟩,
   ⟨"TXN_OPEN_CNT", 0x11C, [], .ro, false, 0, []⟩,
   ⟨"TXN_STAT", 0x200, [(16, 32)], .ro, false, 0, []⟩,
   ⟨"TXN_INFO", 0x204, [(16, 32)], .ro, false, 0, []⟩,
   ⟨"TXN_COUNTS", 0x208, [(16, 32)], .ro, false, 0, []⟩,
   ⟨"TXN_T_S", 0x20C, [(16, 32)], .ro, false, 0, []⟩]

/-- Block registers of page C1. Part 1. -/
def mapC1Part1 : List RegSpec :=
  [⟨"TXN_T_NS", 0x210, [(16, 32)], .ro, false, 0, []⟩,
   ⟨"TXN_APPLIED_S", 0x214, [(16, 32)], .ro, false, 0, []⟩,
   ⟨"TXN_APPLIED_NS", 0x218, [(16, 32)], .ro, false, 0, []⟩]

/-- Block registers of page C1. -/
def mapC1 : List RegSpec :=
  mapC1Part0 ++ mapC1Part1

/-- Block registers of page C2. Part 0. -/
def mapC2Part0 : List RegSpec :=
  [⟨"TIME_SNAP", 0x100, [], .wo, false, 0, []⟩,
   ⟨"SNAP_S_LO", 0x104, [], .ro, false, 0, []⟩,
   ⟨"SNAP_S_HI", 0x108, [], .ro, false, 0, []⟩,
   ⟨"SNAP_NS", 0x10C, [], .ro, false, 0, []⟩,
   ⟨"SNAP_FRAC", 0x110, [], .ro, false, 0, []⟩,
   ⟨"TIME_QUAL", 0x114, [], .ro, false, 0, []⟩,
   ⟨"TIME_CMD", 0x118, [], .wg, false, 0, [⟨"CMD", 3, 0, .rng 1 5⟩, ⟨"TIME_CMD", 15, 4, .zero⟩]⟩,
   ⟨"SERVO_CFG", 0x11C, [], .rw, false, 0x1407D064, [⟨"LOCK_THR", 9, 0, .rng 10 1000⟩, ⟨"UNLOCK_THR", 22, 10, .dep .unlockThr⟩, ⟨"BW", 24, 23, .any⟩, ⟨"LOCK_THR_SUB", 31, 25, .rng 1 100⟩]⟩,
   ⟨"SRC_MODE", 0x120, [], .rw, false, 0x300, [⟨"SEL", 0, 0, .any⟩, ⟨"FIXED", 7, 4, .enum 13 0⟩, ⟨"TIMEOUT", 13, 8, .rng 1 60⟩]⟩,
   ⟨"SRC_PRIO_LO", 0x124, [], .rw, false, 0x22222311, [⟨"P0", 3, 0, .any⟩, ⟨"P1", 7, 4, .any⟩, ⟨"P2", 11, 8, .any⟩, ⟨"P3", 15, 12, .any⟩, ⟨"P4", 19, 16, .any⟩, ⟨"P5", 23, 20, .any⟩, ⟨"P6", 27, 24, .any⟩, ⟨"P7", 31, 28, .any⟩]⟩,
   ⟨"SRC_PRIO_HI", 0x128, [], .rw, false, 0x14222, [⟨"P8", 3, 0, .any⟩, ⟨"P9", 7, 4, .any⟩, ⟨"P10", 11, 8, .any⟩, ⟨"P11", 15, 12, .any⟩, ⟨"P12", 19, 16, .any⟩, ⟨"P13", 23, 20, .any⟩]⟩,
   ⟨"OFFSET_NS", 0x12C, [], .ro, false, 0, []⟩]

/-- Block registers of page C2. Part 1. -/
def mapC2Part1 : List RegSpec :=
  [⟨"FREQ_ADJ", 0x130, [], .ro, false, 0, []⟩,
   ⟨"STEP_OFS_S", 0x134, [], .ro, false, 0, []⟩,
   ⟨"STEP_OFS_NS", 0x138, [], .ro, false, 0, []⟩,
   ⟨"SET_S_LO", 0x13C, [], .rw, false, 0, [⟨"S", 31, 0, .any⟩]⟩,
   ⟨"SET_S_HI", 0x140, [], .rw, false, 0, [⟨"S", 15, 0, .any⟩]⟩,
   ⟨"SET_NS", 0x144, [], .rw, false, 0, [⟨"NS", 31, 0, .timeNs⟩]⟩,
   ⟨"HOLD_AGE", 0x148, [], .ro, false, 0, []⟩,
   ⟨"UTC_OFFSET", 0x14C, [], .ro, false, 0, []⟩,
   ⟨"PTP_DOMAIN", 0x150, [], .rw, false, 0, [⟨"DOMAIN", 7, 0, .rng 0 239⟩]⟩,
   ⟨"OUTLIER_CNT", 0x154, [], .rc, false, 0, []⟩,
   ⟨"ACT_DISCARDED", 0x158, [], .rc, false, 0, []⟩,
   ⟨"PTP_CFG", 0x200, [(3, 64)], .rw, false, 0x3001, [⟨"ROLE", 1, 0, .any⟩, ⟨"TRANSPORT", 3, 2, .enum 2 0⟩, ⟨"STAMP_ALL", 4, 4, .any⟩, ⟨"LOG_SYNC", 11, 8, .srng (-7) 0⟩, ⟨"LOG_DREQ", 15, 12, .srng (-7) 4⟩, ⟨"LOG_ANN", 19, 16, .srng (-3) 4⟩]⟩]

/-- Block registers of page C2. Part 2. -/
def mapC2Part2 : List RegSpec :=
  [⟨"PTP_ASYM_PS", 0x204, [(3, 64)], .rw, false, 0, [⟨"PS", 31, 0, .srng (-2000000) 2000000⟩]⟩,
   ⟨"PTP_TXLAT_PS", 0x208, [], .rw, false, Config.ptpLatency 0 false % 200001, [⟨"PS", 31, 0, .rng 0 200000⟩]⟩,
   ⟨"PTP_RXLAT_PS", 0x20C, [], .rw, false, Config.ptpLatency 0 true % 200001, [⟨"PS", 31, 0, .rng 0 200000⟩]⟩,
   ⟨"PTP_TXLAT_PS", 0x248, [], .rw, false, Config.ptpLatency 1 false % 200001, [⟨"PS", 31, 0, .rng 0 200000⟩]⟩,
   ⟨"PTP_RXLAT_PS", 0x24C, [], .rw, false, Config.ptpLatency 1 true % 200001, [⟨"PS", 31, 0, .rng 0 200000⟩]⟩,
   ⟨"PTP_TXLAT_PS", 0x288, [], .rw, false, Config.ptpLatency 2 false % 200001, [⟨"PS", 31, 0, .rng 0 200000⟩]⟩,
   ⟨"PTP_RXLAT_PS", 0x28C, [], .rw, false, Config.ptpLatency 2 true % 200001, [⟨"PS", 31, 0, .rng 0 200000⟩]⟩,
   ⟨"PTP_OFFSET_NS", 0x210, [(3, 64)], .ro, false, 0, []⟩,
   ⟨"PTP_MPD_NS", 0x214, [(3, 64)], .ro, false, 0, []⟩,
   ⟨"PTP_PSTATE", 0x218, [(3, 64)], .ro, false, 0, []⟩,
   ⟨"TT_CFG", 0x400, [(8, 32)], .rw, false, 0x11, [⟨"CLIENT", 0, 0, .any⟩, ⟨"RATE", 7, 1, .rng 1 64⟩]⟩,
   ⟨"TT_ASYM_PS", 0x404, [(8, 32)], .rw, false, 0, [⟨"PS", 31, 0, .srng (-100000) 100000⟩]⟩,
   ⟨"TT_OFFSET_NS", 0x408, [(8, 32)], .ro, false, 0, []⟩,
   ⟨"TT_DELAY_NS", 0x40C, [(8, 32)], .ro, false, 0, []⟩,
   ⟨"TT_MEMBER", 0x410, [(8, 32)], .ro, false, 0, []⟩]

/-- Block registers of page C2. -/
def mapC2 : List RegSpec :=
  mapC2Part0 ++ mapC2Part1 ++ mapC2Part2

/-- Block registers of page C3. Part 0. -/
def mapC3Part0 : List RegSpec :=
  [⟨"GR_CFG", 0x100, [], .rw, false, 0xFF01, [⟨"TRACE_EN", 0, 0, .any⟩, ⟨"TRACE_MASK", 15, 8, .any⟩]⟩,
   ⟨"GR_STAT", 0x104, [], .ro, false, 0, []⟩,
   ⟨"TD_CMD", 0x108, [], .wo, false, 0, []⟩,
   ⟨"TD_RESULT", 0x10C, [], .ro, false, 0x80000000, []⟩,
   ⟨"TD_DATA", 0x110, [], .rw, false, 0, [⟨"COUNT", 11, 0, .any⟩, ⟨"RELOAD", 23, 12, .any⟩, ⟨"GROUP", 29, 24, .any⟩]⟩,
   ⟨"TD_DATA", 0x114, [], .rw, false, 0, [⟨"CLASS", 2, 0, .any⟩, ⟨"PREEMPTIBLE", 3, 3, .any⟩, ⟨"RUN_MAX", 13, 4, .rng 0 1000⟩, ⟨"AFFINITY", 31, 16, .dep .affinity⟩]⟩,
   ⟨"TD_DATA", 0x118, [], .rw, false, 0, [⟨"ENTRY", 11, 0, .any⟩]⟩,
   ⟨"TD_DATA", 0x11C, [], .rw, false, 0, [⟨"ARG", 31, 0, .any⟩]⟩,
   ⟨"TD_DATA", 0x120, [], .rw, false, 0, [⟨"SUCC0", 11, 0, .any⟩, ⟨"V0", 15, 15, .any⟩, ⟨"SUCC1", 27, 16, .any⟩, ⟨"V1", 31, 31, .any⟩]⟩,
   ⟨"TD_DATA", 0x124, [], .rw, false, 0, [⟨"SUCC2", 11, 0, .any⟩, ⟨"V2", 15, 15, .any⟩, ⟨"SUCC3", 27, 16, .any⟩, ⟨"V3", 31, 31, .any⟩]⟩,
   ⟨"TD_DATA", 0x128, [], .ro, false, 0, []⟩,
   ⟨"GR_DEC", 0x12C, [], .wo, false, 0, []⟩]

/-- Block registers of page C3. Part 1. -/
def mapC3Part1 : List RegSpec :=
  [⟨"GR_DONE", 0x130, [], .wo, false, 0, []⟩,
   ⟨"GR_UNDERFLOW", 0x134, [], .rc, false, 0, []⟩,
   ⟨"GR_GROUP", 0x200, [(64, 4)], .rw, false, 0x80000001, [⟨"WEIGHT", 7, 0, .rng 1 255⟩, ⟨"ENABLE", 31, 31, .any⟩]⟩,
   ⟨"GR_TIMER", 0x300, [(8, 4)], .rw, false, 0, [⟨"PERIOD", 19, 0, .rng 0 1000000⟩]⟩,
   ⟨"BIND", 0x400, [(256, 4)], .rw, false, 0, [⟨"SOURCE", 7, 0, .any⟩, ⟨"TASK", 27, 16, .any⟩, ⟨"EN", 31, 31, .dep .bindEn⟩]⟩]

/-- Block registers of page C3. -/
def mapC3 : List RegSpec :=
  mapC3Part0 ++ mapC3Part1

/-- Block registers of page C4. Part 0. -/
def mapC4Part0 : List RegSpec :=
  [⟨"FW_CMD", 0x100, [], .wo, false, 0, []⟩,
   ⟨"FW_BASE", 0x104, [], .rw, false, 0, [⟨"BASE", 10, 0, .any⟩]⟩,
   ⟨"FW_STAT", 0x108, [], .ro, false, 0, []⟩,
   ⟨"FW_VER", 0x10C, [], .ro, false, 0, []⟩,
   ⟨"ENG_EN", 0x110, [], .rw, false, 0xFFFF, [⟨"ENG_EN", 15, 0, .any⟩]⟩,
   ⟨"ENG_STAT", 0x200, [(16, 16)], .ro, false, 0, []⟩,
   ⟨"ENG_FAULT", 0x204, [(16, 16)], .ro, false, 0, []⟩,
   ⟨"ENG_WDT", 0x208, [(16, 16)], .rw, false, 0x64, [⟨"PERIOD", 9, 0, .rng 0 1000⟩]⟩,
   ⟨"ENG_BUSY", 0x20C, [(16, 16)], .rc, false, 0, []⟩,
   ⟨"MB_DATA", 0x1000, [(32, 128), (16, 4)], .rw, false, 0, [⟨"W", 31, 0, .any⟩]⟩,
   ⟨"MB_DOORBELL", 0x1040, [(32, 128)], .wo, false, 0, []⟩,
   ⟨"MB_STAT", 0x1044, [(32, 128)], .ro, false, 0, []⟩]

/-- Block registers of page C4. Part 1. -/
def mapC4Part1 : List RegSpec :=
  [⟨"MB_RELEASE", 0x1048, [(32, 128)], .wo, false, 0, []⟩]

/-- Block registers of page C4. -/
def mapC4 : List RegSpec :=
  mapC4Part0 ++ mapC4Part1

/-- Block registers of page C5. Part 0. -/
def mapC5Part0 : List RegSpec :=
  [⟨"DMA_DONE_MAP", 0x100, [], .w1c, false, 0, []⟩,
   ⟨"DMA_ERR_MAP", 0x104, [], .w1c, false, 0, []⟩,
   ⟨"DMA_PAUSED_MAP", 0x108, [], .ro, false, 0, []⟩,
   ⟨"CH_CMD", 0x200, [(32, 64)], .wo, false, 0, []⟩,
   ⟨"CH_STAT", 0x204, [(32, 64)], .ro, false, 0, []⟩,
   ⟨"CH_DESC_LO", 0x208, [(32, 64)], .rw, false, 0, [⟨"ADDR", 31, 6, .any⟩]⟩,
   ⟨"CH_DESC_HI", 0x20C, [(32, 64)], .rw, false, 0x10000000, [⟨"ADDR_HI", 15, 0, .any⟩, ⟨"SPACE", 31, 28, .enum 2 1⟩]⟩,
   ⟨"CH_CUR_LO", 0x210, [(32, 64)], .ro, false, 0, []⟩,
   ⟨"CH_CUR_HI", 0x214, [(32, 64)], .ro, false, 0, []⟩,
   ⟨"CH_RESIDUE", 0x218, [(32, 64)], .ro, false, 0, []⟩,
   ⟨"CH_MISMATCH", 0x21C, [(32, 64)], .ro, false, 0xFFFFFFFF, []⟩,
   ⟨"CH_PACE", 0x220, [(32, 64)], .rw, false, 0x200, [⟨"REQ_SEL", 7, 0, .dep .reqSel⟩, ⟨"BURST", 9, 8, .enum 2 2⟩, ⟨"LEVEL_MODE", 13, 12, .enum 2 0⟩]⟩]

/-- Block registers of page C5. Part 1. -/
def mapC5Part1 : List RegSpec :=
  [⟨"CH_HIGH", 0x224, [(32, 64)], .rw, false, 0x4000, [⟨"CH_HIGH", 23, 0, .any⟩]⟩,
   ⟨"CH_LOW", 0x228, [(32, 64)], .rw, false, 0x1000, [⟨"CH_LOW", 23, 0, .dep .chLow⟩]⟩,
   ⟨"CH_LEVEL", 0x22C, [(32, 64)], .ro, false, 0, []⟩,
   ⟨"CH_LEVEL_ADJ", 0x230, [(32, 64)], .wo, false, 0, []⟩,
   ⟨"CH_BYTES", 0x234, [(32, 64)], .rc, false, 0, []⟩,
   ⟨"CH_REQ_OVR", 0x238, [(32, 64)], .rc, false, 0, []⟩]

/-- Block registers of page C5. -/
def mapC5 : List RegSpec :=
  mapC5Part0 ++ mapC5Part1

/-- Block registers of page C6. -/
def mapC6 : List RegSpec :=
  [⟨"KEY_CMD", 0x100, [], .wg, false, 0, [⟨"SLOT", 12, 0, .rng 0 4159⟩, ⟨"CMD", 14, 13, .rng 1 3⟩, ⟨"KEY_CMD", 15, 15, .zero⟩]⟩,
   ⟨"KEY_RESULT", 0x104, [], .ro, false, 0x80000000, []⟩,
   ⟨"KEY_META", 0x108, [], .rw, false, 2, [⟨"SUITE", 1, 0, .enum 2 2⟩]⟩,
   ⟨"KEY_PN_LO", 0x10C, [], .rw, false, 1, [⟨"KEY_PN_LO", 31, 0, .dep .keyPn⟩]⟩,
   ⟨"KEY_PN_HI", 0x110, [], .rw, false, 0, [⟨"KEY_PN_HI", 15, 0, .dep .keyPn⟩]⟩,
   ⟨"KEY_STAT", 0x114, [], .ro, false, 0, []⟩,
   ⟨"KEY_DATA", 0x120, [(8, 4)], .wo, false, 0, []⟩,
   ⟨"PIPE_TX_BYTES", 0x200, [(8, 16)], .rc, false, 0, []⟩,
   ⟨"PIPE_RX_BYTES", 0x204, [(8, 16)], .rc, false, 0, []⟩,
   ⟨"PIPE_AUTH_FAIL", 0x208, [(8, 16)], .rc, false, 0, []⟩,
   ⟨"PIPE_LOAD", 0x20C, [(8, 16)], .ro, false, 0, []⟩]

/-- Block registers of page C7. Part 0. -/
def mapC7Part0 : List RegSpec :=
  [⟨"DRAM_CFG", 0x100, [], .rw, false, 0xE26, [⟨"CHANNELS", 0, 0, .any⟩, ⟨"RANKS", 1, 1, .any⟩, ⟨"DENSITY", 3, 2, .enum 2 2⟩, ⟨"BOOT", 5, 4, .dep .dramBoot⟩, ⟨"FSP_MASK", 11, 8, .dep .fspMask⟩]⟩,
   ⟨"DRAM_CMD", 0x104, [], .wo, false, 0, []⟩,
   ⟨"DRAM_STAT", 0x108, [], .ro, false, 0, []⟩,
   ⟨"CAP_MB", 0x10C, [], .ro, false, 0, []⟩,
   ⟨"TRAIN_CFG", 0x110, [], .rw, false, 0x50064, [⟨"PERIOD", 9, 0, .rng 10 1000⟩, ⟨"TEMP_THR", 20, 16, .rng 2 20⟩]⟩,
   ⟨"SCRUB_CFG", 0x114, [], .rw, false, 0x5A0, [⟨"PASS", 15, 0, .dep .scrubPass⟩]⟩,
   ⟨"CE_THR", 0x118, [], .rw, false, 0x100, [⟨"CE_THR", 15, 0, .rng 1 65535⟩]⟩,
   ⟨"FRZ_ADDR_LO", 0x120, [], .ro, false, 0, []⟩,
   ⟨"FRZ_ADDR_HI", 0x124, [], .ro, false, 0, []⟩,
   ⟨"FRZ_SYND", 0x128, [], .ro, false, 0, []⟩,
   ⟨"FRZ_SYND_HI", 0x12C, [], .ro, false, 0, []⟩,
   ⟨"FRZ_REQ", 0x130, [], .ro, false, 0, []⟩]

/-- Block registers of page C7. Part 1. -/
def mapC7Part1 : List RegSpec :=
  [⟨"FRZ_TIME_S", 0x134, [], .ro, false, 0, []⟩,
   ⟨"FRZ_TIME_NS", 0x138, [], .ro, false, 0, []⟩,
   ⟨"FRZ_EXTRA", 0x13C, [], .rc, false, 0, []⟩,
   ⟨"POISON_CNT", 0x140, [], .ro, false, 0, []⟩,
   ⟨"SPLIT_CNT", 0x144, [], .rc, false, 0, []⟩,
   ⟨"UNTRACKED_CNT", 0x148, [], .rc, false, 0, []⟩,
   ⟨"CH_STAT", 0x200, [(4, 16)], .ro, false, 0, []⟩,
   ⟨"CE_CNT", 0x204, [(4, 16)], .rc, false, 0, []⟩,
   ⟨"CE_LAST", 0x208, [(4, 16)], .ro, false, 0, []⟩]

/-- Block registers of page C7. -/
def mapC7 : List RegSpec :=
  mapC7Part0 ++ mapC7Part1

/-- Block registers of page C8. -/
def mapC8 : List RegSpec :=
  [⟨"HP_CFG", 0x100, [], .rw, false, 0xA, [⟨"HOLD_MAX", 5, 0, .rng 1 40⟩]⟩,
   ⟨"HP_STAT", 0x104, [], .ro, false, 0, []⟩,
   ⟨"DRAM_WIN", 0x108, [], .rw, false, 0, [⟨"BASE", 6, 0, .dep .dramWin⟩]⟩,
   ⟨"HP_ABORT_CNT", 0x10C, [], .rc, false, 0, []⟩,
   ⟨"HP_LINKDOWN_CNT", 0x110, [], .rc, false, 0, []⟩]

/-- Block registers of page C9. Part 0. -/
def mapC9Part0 : List RegSpec :=
  [⟨"BYP_OPEN", 0x100, [], .wg, false, 0, [⟨"EAST", 0, 0, .any⟩, ⟨"WEST", 1, 1, .any⟩, ⟨"BYP_OPEN", 15, 2, .zero⟩]⟩,
   ⟨"BYP_KICK", 0x104, [], .wg, false, 0, [⟨"KICK", 15, 0, .enumOf [90, 165] 0⟩]⟩,
   ⟨"BYP_WDT", 0x108, [], .rw, false, 0xC8, [⟨"PERIOD", 8, 0, .rng 50 500⟩]⟩,
   ⟨"BYP_STAT", 0x10C, [], .ro, false, 0, []⟩,
   ⟨"ETH_CFG", 0x200, [(2, 64)], .rw, false, 0x25960000, [⟨"MODE", 2, 0, .dep .ethMode⟩, ⟨"FEC", 5, 4, .dep .ethFec⟩, ⟨"PAUSE_RX", 8, 8, .any⟩, ⟨"AN", 9, 9, .dep .ethAn⟩, ⟨"MAXLEN", 29, 16, .rng 1518 9622⟩, ⟨"ENABLE", 31, 31, .any⟩]⟩,
   ⟨"ETH_CFG", 0x280, [], .rw, false, 0x25960001, [⟨"MODE", 2, 0, .dep .ethMode⟩, ⟨"FEC", 5, 4, .dep .ethFec⟩, ⟨"PAUSE_RX", 8, 8, .any⟩, ⟨"AN", 9, 9, .dep .ethAn⟩, ⟨"MAXLEN", 29, 16, .rng 1518 9622⟩, ⟨"ENABLE", 31, 31, .any⟩]⟩,
   ⟨"ETH_STAT", 0x204, [(3, 64)], .ro, false, 0, []⟩,
   ⟨"RX_BYTES_LO", 0x208, [(3, 64)], .ro, false, 0, []⟩,
   ⟨"RX_BYTES_HI", 0x20C, [(3, 64)], .ro, false, 0, []⟩,
   ⟨"TX_BYTES_LO", 0x210, [(3, 64)], .ro, false, 0, []⟩,
   ⟨"TX_BYTES_HI", 0x214, [(3, 64)], .ro, false, 0, []⟩,
   ⟨"RX_ERR", 0x218, [(3, 64)], .rc, false, 0, []⟩]

/-- Block registers of page C9. Part 1. -/
def mapC9Part1 : List RegSpec :=
  [⟨"SFP_CTRL", 0x21C, [(2, 64)], .rw, false, 0, [⟨"TX_DIS", 0, 0, .any⟩]⟩,
   ⟨"SFP_I2C", 0x220, [(2, 64)], .rw, false, 0, [⟨"DATA", 7, 0, .any⟩, ⟨"REG", 15, 8, .any⟩, ⟨"DEV", 22, 16, .rng 80 81⟩, ⟨"READ", 23, 23, .any⟩]⟩]

/-- Block registers of page C9. -/
def mapC9 : List RegSpec :=
  mapC9Part0 ++ mapC9Part1

/-- Block registers of page C10. -/
def mapC10 : List RegSpec :=
  [⟨"CASC_STAT", 0x100, [], .ro, false, 0, []⟩,
   ⟨"CASC_INT", 0x104, [], .ro, false, 0, []⟩,
   ⟨"KOR_CFG", 0x200, [(3, 64)], .rw, false, 1, [⟨"ALLOW_1LANE", 0, 0, .any⟩, ⟨"ENABLE", 31, 31, .any⟩]⟩,
   ⟨"KOR_STAT", 0x204, [(3, 64)], .ro, false, 0, []⟩,
   ⟨"KOR_ERR", 0x208, [(3, 64)], .rc, false, 0, []⟩,
   ⟨"KOR_TIME_NS", 0x20C, [(3, 64)], .ro, false, 0, []⟩]

/-- Block registers of page C11. Part 0. -/
def mapC11Part0 : List RegSpec :=
  [⟨"TRACE_CFG", 0x100, [], .rw, false, 0, [⟨"EN", 0, 0, .any⟩, ⟨"MODE", 1, 1, .any⟩]⟩,
   ⟨"TRACE_BASE", 0x104, [], .rw, false, 0, [⟨"TRACE_BASE", 13, 0, .dep .traceBase⟩]⟩,
   ⟨"TRACE_SIZE", 0x108, [], .rw, false, 0, [⟨"TRACE_SIZE", 10, 0, .rng 0 1024⟩]⟩,
   ⟨"TRACE_HEAD", 0x10C, [], .ro, false, 0, []⟩,
   ⟨"TRACE_TAIL", 0x110, [], .rw, false, 0, [⟨"TRACE_TAIL", 24, 0, .dep .traceTail⟩]⟩,
   ⟨"TRACE_LOST", 0x114, [], .rc, false, 0, []⟩,
   ⟨"TRACE_STAT", 0x118, [], .ro, false, 0, []⟩,
   ⟨"EVT_HEAD", 0x120, [], .ro, false, 0, []⟩,
   ⟨"EVT_OVERFLOW", 0x124, [], .rc, false, 0, []⟩,
   ⟨"EVT_E_LOST", 0x128, [], .rc, false, 0, []⟩,
   ⟨"EVT_CLR", 0x12C, [], .wo, false, 0, []⟩,
   ⟨"EVT_RD_IDX", 0x130, [], .rw, false, 0, [⟨"EVT_RD_IDX", 11, 0, .any⟩]⟩]

/-- Block registers of page C11. Part 1. -/
def mapC11Part1 : List RegSpec :=
  [⟨"EVT_RD", 0x140, [(8, 4)], .ro, false, 0, []⟩,
   ⟨"HEALTH", 0x160, [], .ro, false, 0, []⟩,
   ⟨"HEALTH_STICKY", 0x164, [], .rc, false, 0, []⟩]

/-- Block registers of page C11. -/
def mapC11 : List RegSpec :=
  mapC11Part0 ++ mapC11Part1

/-- Block registers of page C12. Part 0. -/
def mapC12Part0 : List RegSpec :=
  [⟨"FWD_CFG", 0x100, [], .rw, true, 0x13, [⟨"TTL_HOST", 0, 0, .any⟩, ⟨"OPT_HOST", 1, 1, .any⟩, ⟨"HBH_HOST", 2, 2, .any⟩, ⟨"MISS_HOST", 3, 3, .any⟩, ⟨"NEIGH_HOST", 4, 4, .any⟩]⟩,
   ⟨"PCP_MAP", 0x104, [], .rw, true, 0xFAC688, [⟨"M0", 2, 0, .any⟩, ⟨"M1", 5, 3, .any⟩, ⟨"M2", 8, 6, .any⟩, ⟨"M3", 11, 9, .any⟩, ⟨"M4", 14, 12, .any⟩, ⟨"M5", 17, 15, .any⟩, ⟨"M6", 20, 18, .any⟩, ⟨"M7", 23, 21, .any⟩]⟩,
   ⟨"CLASS_PCP", 0x108, [], .rw, true, 0xFAC688, [⟨"M0", 2, 0, .any⟩, ⟨"M1", 5, 3, .any⟩, ⟨"M2", 8, 6, .any⟩, ⟨"M3", 11, 9, .any⟩, ⟨"M4", 14, 12, .any⟩, ⟨"M5", 17, 15, .any⟩, ⟨"M6", 20, 18, .any⟩, ⟨"M7", 23, 21, .any⟩]⟩,
   ⟨"DSCP_MAP", 0x110, [], .rw, true, 0, [⟨"M0", 2, 0, .any⟩, ⟨"M1", 5, 3, .any⟩, ⟨"M2", 8, 6, .any⟩, ⟨"M3", 11, 9, .any⟩, ⟨"M4", 14, 12, .any⟩, ⟨"M5", 17, 15, .any⟩, ⟨"M6", 20, 18, .any⟩, ⟨"M7", 23, 21, .any⟩]⟩,
   ⟨"DSCP_MAP", 0x114, [], .rw, true, 0x249249, [⟨"M0", 2, 0, .any⟩, ⟨"M1", 5, 3, .any⟩, ⟨"M2", 8, 6, .any⟩, ⟨"M3", 11, 9, .any⟩, ⟨"M4", 14, 12, .any⟩, ⟨"M5", 17, 15, .any⟩, ⟨"M6", 20, 18, .any⟩, ⟨"M7", 23, 21, .any⟩]⟩,
   ⟨"DSCP_MAP", 0x118, [], .rw, true, 0x492492, [⟨"M0", 2, 0, .any⟩, ⟨"M1", 5, 3, .any⟩, ⟨"M2", 8, 6, .any⟩, ⟨"M3", 11, 9, .any⟩, ⟨"M4", 14, 12, .any⟩, ⟨"M5", 17, 15, .any⟩, ⟨"M6", 20, 18, .any⟩, ⟨"M7", 23, 21, .any⟩]⟩,
   ⟨"DSCP_MAP", 0x11C, [], .rw, true, 0x6DB6DB, [⟨"M0", 2, 0, .any⟩, ⟨"M1", 5, 3, .any⟩, ⟨"M2", 8, 6, .any⟩, ⟨"M3", 11, 9, .any⟩, ⟨"M4", 14, 12, .any⟩, ⟨"M5", 17, 15, .any⟩, ⟨"M6", 20, 18, .any⟩, ⟨"M7", 23, 21, .any⟩]⟩,
   ⟨"DSCP_MAP", 0x120, [], .rw, true, 0x924924, [⟨"M0", 2, 0, .any⟩, ⟨"M1", 5, 3, .any⟩, ⟨"M2", 8, 6, .any⟩, ⟨"M3", 11, 9, .any⟩, ⟨"M4", 14, 12, .any⟩, ⟨"M5", 17, 15, .any⟩, ⟨"M6", 20, 18, .any⟩, ⟨"M7", 23, 21, .any⟩]⟩,
   ⟨"DSCP_MAP", 0x124, [], .rw, true, 0xB6DB6D, [⟨"M0", 2, 0, .any⟩, ⟨"M1", 5, 3, .any⟩, ⟨"M2", 8, 6, .any⟩, ⟨"M3", 11, 9, .any⟩, ⟨"M4", 14, 12, .any⟩, ⟨"M5", 17, 15, .any⟩, ⟨"M6", 20, 18, .any⟩, ⟨"M7", 23, 21, .any⟩]⟩,
   ⟨"DSCP_MAP", 0x128, [], .rw, true, 0xDB6DB6, [⟨"M0", 2, 0, .any⟩, ⟨"M1", 5, 3, .any⟩, ⟨"M2", 8, 6, .any⟩, ⟨"M3", 11, 9, .any⟩, ⟨"M4", 14, 12, .any⟩, ⟨"M5", 17, 15, .any⟩, ⟨"M6", 20, 18, .any⟩, ⟨"M7", 23, 21, .any⟩]⟩,
   ⟨"DSCP_MAP", 0x12C, [], .rw, true, 0xFFFFFF, [⟨"M0", 2, 0, .any⟩, ⟨"M1", 5, 3, .any⟩, ⟨"M2", 8, 6, .any⟩, ⟨"M3", 11, 9, .any⟩, ⟨"M4", 14, 12, .any⟩, ⟨"M5", 17, 15, .any⟩, ⟨"M6", 20, 18, .any⟩, ⟨"M7", 23, 21, .any⟩]⟩,
   ⟨"VLAN_CMD", 0x140, [], .wo, false, 0, []⟩]

/-- Block registers of page C12. Part 1. -/
def mapC12Part1 : List RegSpec :=
  [⟨"VLAN_DATA", 0x144, [], .rw, false, 0, [⟨"MEMBER", 31, 0, .bits 0x07FF3F1F⟩]⟩,
   ⟨"VLAN_DATA", 0x148, [], .rw, false, 0, [⟨"UNTAGGED", 31, 0, .bits 0xF⟩]⟩,
   ⟨"VLAN_DATA", 0x14C, [], .rw, false, 0, [⟨"FID", 11, 0, .any⟩, ⟨"L3", 12, 12, .any⟩, ⟨"VRF", 14, 13, .any⟩, ⟨"RMAC", 18, 16, .any⟩, ⟨"VALID", 31, 31, .any⟩]⟩,
   ⟨"RMAC_LO", 0x150, [(8, 8)], .rw, true, 0, [⟨"MAC", 31, 0, .any⟩]⟩,
   ⟨"RMAC_HI", 0x154, [(8, 8)], .rw, true, 0, [⟨"MAC", 15, 0, .any⟩]⟩,
   ⟨"L3_EXCEPT", 0x190, [], .rc, false, 0, []⟩,
   ⟨"LEARN_OVERRUN", 0x194, [], .rc, false, 0, []⟩,
   ⟨"STATIC_MOVE", 0x198, [], .rc, false, 0, []⟩,
   ⟨"CSUM_BAD", 0x19C, [], .rc, false, 0, []⟩,
   ⟨"PORT_CFG", 0x200, [(4, 16)], .rw, true, 0x184001, [⟨"PVID", 11, 0, .rng 1 4094⟩, ⟨"ACCEPT", 13, 12, .enum 2 0⟩, ⟨"CLASS_MODE", 15, 14, .enum 2 1⟩, ⟨"DEF_CLASS", 18, 16, .any⟩, ⟨"FLOOD_EN", 19, 19, .dep .portFlood⟩, ⟨"LEARN_EN", 20, 20, .any⟩, ⟨"EXCESS", 21, 21, .any⟩, ⟨"ENABLE", 31, 31, .any⟩]⟩,
   ⟨"PORT_CFG", 0x240, [], .rw, true, 0x104001, [⟨"PVID", 11, 0, .rng 1 4094⟩, ⟨"ACCEPT", 13, 12, .enum 2 0⟩, ⟨"CLASS_MODE", 15, 14, .enum 2 1⟩, ⟨"DEF_CLASS", 18, 16, .any⟩, ⟨"FLOOD_EN", 19, 19, .dep .portFlood⟩, ⟨"LEARN_EN", 20, 20, .any⟩, ⟨"EXCESS", 21, 21, .any⟩, ⟨"ENABLE", 31, 31, .any⟩]⟩,
   ⟨"PORT_CFG", 0x250, [(22, 16)], .rw, true, 0x184001, [⟨"PVID", 11, 0, .rng 1 4094⟩, ⟨"ACCEPT", 13, 12, .enum 2 0⟩, ⟨"CLASS_MODE", 15, 14, .enum 2 1⟩, ⟨"DEF_CLASS", 18, 16, .any⟩, ⟨"FLOOD_EN", 19, 19, .dep .portFlood⟩, ⟨"LEARN_EN", 20, 20, .any⟩, ⟨"EXCESS", 21, 21, .any⟩, ⟨"ENABLE", 31, 31, .any⟩]⟩]

/-- Block registers of page C12. Part 2. -/
def mapC12Part2 : List RegSpec :=
  [⟨"LEARN_LIMIT", 0x204, [(27, 16)], .rw, true, 0xFFFF, [⟨"LEARN_LIMIT", 15, 0, .any⟩]⟩,
   ⟨"LEARN_COUNT", 0x208, [(27, 16)], .ro, false, 0, []⟩,
   ⟨"PORT_DROP", 0x20C, [(27, 16)], .rc, false, 0, []⟩,
   ⟨"BSS_VID", 0x400, [(6, 64), (16, 4)], .rw, true, 0, [⟨"BSS_VID", 11, 0, .rng 0 4094⟩]⟩]

/-- Block registers of page C12. -/
def mapC12 : List RegSpec :=
  mapC12Part0 ++ mapC12Part1 ++ mapC12Part2

/-- Block registers of page C13. Part 0. -/
def mapC13Part0 : List RegSpec :=
  [⟨"TBL_CMD", 0x100, [], .wo, false, 0, []⟩,
   ⟨"TBL_STATUS", 0x104, [], .ro, false, 0x80000000, []⟩,
   ⟨"TBL_LOC", 0x108, [], .ro, false, 0, []⟩,
   ⟨"TBL_CURSOR", 0x10C, [], .rw, false, 0, [⟨"INDEX", 13, 0, .any⟩, ⟨"BANK", 18, 16, .any⟩]⟩,
   ⟨"TBL_KEY", 0x110, [(5, 4)], .rw, false, 0, [⟨"W", 31, 0, .any⟩]⟩,
   ⟨"TBL_RES", 0x124, [(3, 4)], .rw, false, 0, [⟨"W", 31, 0, .any⟩]⟩,
   ⟨"TBL_CFG", 0x130, [], .rw, false, 8, [⟨"MAX_KICKS", 4, 0, .rng 1 16⟩]⟩,
   ⟨"HASH_SEED", 0x134, [(2, 4)], .rw, false, 0xFFFFFFFF, [⟨"SEED", 31, 0, .any⟩]⟩,
   ⟨"AGE_CFG", 0x13C, [], .rw, false, 0x12C, [⟨"PERIOD", 15, 0, .any⟩]⟩,
   ⟨"SCRUB_CFG", 0x140, [], .rw, false, 0x3E8, [⟨"PERIOD", 13, 0, .rng 100 10000⟩]⟩,
   ⟨"TBL_USE", 0x144, [], .ro, false, 0, []⟩,
   ⟨"PARITY_CNT", 0x148, [], .rc, false, 0, []⟩]

/-- Block registers of page C13. Part 1. -/
def mapC13Part1 : List RegSpec :=
  [⟨"AGED_CNT", 0x14C, [], .rc, false, 0, []⟩,
   ⟨"MOVE_CNT", 0x150, [], .rc, false, 0, []⟩,
   ⟨"LEARN_CNT", 0x154, [], .rc, false, 0, []⟩,
   ⟨"SWEEP_RESULT", 0x158, [], .ro, false, 0, []⟩]

/-- Block registers of page C13. -/
def mapC13 : List RegSpec :=
  mapC13Part0 ++ mapC13Part1

/-- Block registers of page C14. -/
def mapC14 : List RegSpec :=
  [⟨"LPM_CMD", 0x100, [], .wo, false, 0, []⟩,
   ⟨"LPM_STATUS", 0x104, [], .ro, false, 0x80000000, []⟩,
   ⟨"LPM_ADDR", 0x108, [(4, 4)], .rw, false, 0, [⟨"W", 31, 0, .any⟩]⟩,
   ⟨"LPM_NH", 0x118, [], .rw, false, 0, [⟨"NH", 11, 0, .any⟩]⟩,
   ⟨"LPM_USE", 0x11C, [], .ro, false, 0, []⟩,
   ⟨"NODE_USE", 0x124, [(6, 4)], .ro, false, 0, []⟩,
   ⟨"NH_CMD", 0x140, [], .wo, false, 0, []⟩,
   ⟨"NH_DATA", 0x144, [], .rw, false, 0, [⟨"KIND", 1, 0, .any⟩, ⟨"PORT", 6, 2, .any⟩, ⟨"SUB", 18, 7, .any⟩, ⟨"EVID", 30, 19, .rng 1 4094⟩]⟩,
   ⟨"NH_DATA", 0x148, [], .rw, false, 0, [⟨"MAC", 31, 0, .any⟩]⟩,
   ⟨"NH_DATA", 0x14C, [], .rw, false, 0, [⟨"MAC", 15, 0, .any⟩]⟩,
   ⟨"PASS_CNT", 0x160, [], .rc, false, 0, []⟩]

/-- Block registers of page C15. Part 0. -/
def mapC15Part0 : List RegSpec :=
  [⟨"QM_CFG", 0x100, [], .rw, true, 0x3F, [⟨"SPILL_EN", 7, 0, .any⟩]⟩,
   ⟨"SPILL_BASE_LO", 0x104, [], .rw, false, 0, [⟨"ADDR", 31, 20, .any⟩]⟩,
   ⟨"SPILL_BASE_HI", 0x108, [], .rw, false, 0, [⟨"ADDR", 1, 0, .any⟩]⟩,
   ⟨"SPILL_SIZE", 0x10C, [], .rw, false, 0, [⟨"SPILL_SIZE", 12, 0, .dep .spillSize⟩]⟩,
   ⟨"CELL_FREE", 0x110, [], .ro, false, 0x18000, []⟩,
   ⟨"SPILL_USE", 0x114, [], .ro, false, 0, []⟩,
   ⟨"STA_Q_MAX", 0x118, [], .rw, true, 0x200, [⟨"STA_Q_MAX", 12, 0, .rng 16 4096⟩]⟩,
   ⟨"PORT_Q_MAX", 0x11C, [], .rw, true, 0x2000, [⟨"PORT_Q_MAX", 15, 0, .rng 64 32768⟩]⟩,
   ⟨"QM_CMD", 0x120, [], .wo, false, 0, []⟩,
   ⟨"CLASS_CFG", 0x200, [], .rw, true, 0x60000400, [⟨"RESERVE", 13, 0, .dep .classReserve⟩, ⟨"WMARK", 30, 16, .any⟩]⟩,
   ⟨"CLASS_CFG", 0x210, [], .rw, true, 0x50000400, [⟨"RESERVE", 13, 0, .dep .classReserve⟩, ⟨"WMARK", 30, 16, .any⟩]⟩,
   ⟨"CLASS_CFG", 0x220, [], .rw, true, 0x40000400, [⟨"RESERVE", 13, 0, .dep .classReserve⟩, ⟨"WMARK", 30, 16, .any⟩]⟩]

/-- Block registers of page C15. Part 1. -/
def mapC15Part1 : List RegSpec :=
  [⟨"CLASS_CFG", 0x230, [], .rw, true, 0x30000400, [⟨"RESERVE", 13, 0, .dep .classReserve⟩, ⟨"WMARK", 30, 16, .any⟩]⟩,
   ⟨"CLASS_CFG", 0x240, [], .rw, true, 0x20000400, [⟨"RESERVE", 13, 0, .dep .classReserve⟩, ⟨"WMARK", 30, 16, .any⟩]⟩,
   ⟨"CLASS_CFG", 0x250, [], .rw, true, 0x10000400, [⟨"RESERVE", 13, 0, .dep .classReserve⟩, ⟨"WMARK", 30, 16, .any⟩]⟩,
   ⟨"CLASS_CFG", 0x260, [], .rw, true, 0x4000400, [⟨"RESERVE", 13, 0, .dep .classReserve⟩, ⟨"WMARK", 30, 16, .any⟩]⟩,
   ⟨"CLASS_CFG", 0x270, [], .rw, true, 0x400, [⟨"RESERVE", 13, 0, .dep .classReserve⟩, ⟨"WMARK", 30, 16, .any⟩]⟩,
   ⟨"CLASS_WEIGHT", 0x204, [(8, 16)], .rw, true, 0x20, [⟨"QW", 7, 0, .rng 1 255⟩]⟩,
   ⟨"CLASS_DROP", 0x208, [(8, 16)], .rc, false, 0, []⟩,
   ⟨"CLASS_SPILL", 0x20C, [(8, 16)], .rc, false, 0, []⟩]

/-- Block registers of page C15. -/
def mapC15 : List RegSpec :=
  mapC15Part0 ++ mapC15Part1

/-- Block registers of page C16. Part 0. -/
def mapC16Part0 : List RegSpec :=
  [⟨"AS_CFG", 0x100, [], .rw, false, 0xA0064, [⟨"PLAN_US", 9, 0, .rng 20 1000⟩, ⟨"REORDER_TO", 23, 16, .rng 1 100⟩]⟩,
   ⟨"STA_CMD", 0x104, [], .wo, false, 0, []⟩,
   ⟨"STA_RESULT", 0x108, [], .ro, false, 0x80000000, []⟩,
   ⟨"STA_KEY", 0x10C, [], .wg, false, 0, [⟨"SLOT", 11, 0, .any⟩, ⟨"NEXT", 12, 12, .any⟩, ⟨"STA_KEY", 15, 13, .zero⟩]⟩,
   ⟨"STA_TOTAL", 0x110, [], .ro, false, 0, []⟩,
   ⟨"TWT_CMD", 0x114, [], .wo, false, 0, []⟩,
   ⟨"TWT_RESULT", 0x118, [], .ro, false, 0x80000000, []⟩,
   ⟨"TID_DROP", 0x11C, [], .rc, false, 0, []⟩,
   ⟨"STA_DATA", 0x140, [], .rw, false, 0, [⟨"MAC_LO", 31, 0, .any⟩]⟩,
   ⟨"STA_DATA", 0x144, [], .rw, false, 0, [⟨"MAC_HI", 15, 0, .any⟩, ⟨"LINKS", 21, 16, .dep .staLinks⟩, ⟨"BSSID", 27, 24, .any⟩, ⟨"VALID", 31, 31, .any⟩]⟩,
   ⟨"STA_DATA", 0x148, [], .rw, false, 0, [⟨"AID", 10, 0, .rng 1 2007⟩, ⟨"MODE", 14, 12, .enum 4 0⟩, ⟨"NSS", 18, 15, .rng 1 8⟩, ⟨"BW", 21, 19, .rng 0 4⟩, ⟨"MCS", 25, 22, .any⟩, ⟨"MU_DL", 26, 26, .any⟩, ⟨"TRIG", 27, 27, .any⟩, ⟨"MLD", 28, 28, .any⟩, ⟨"PROTECTED", 29, 29, .any⟩]⟩,
   ⟨"STA_DATA", 0x14C, [], .rw, false, 0, [⟨"WEIGHT", 7, 0, .rng 1 255⟩, ⟨"PROFILE", 11, 8, .any⟩, ⟨"BA_SIZE", 13, 12, .any⟩, ⟨"UL_MCS", 23, 16, .rng 0 13⟩]⟩]

/-- Block registers of page C16. Part 1. -/
def mapC16Part1 : List RegSpec :=
  [⟨"STA_DATA", 0x150, [], .rw, false, 0, [⟨"ZERO", 31, 0, .rng 0 0⟩]⟩,
   ⟨"STA_DATA", 0x154, [], .rw, false, 0, [⟨"ZERO", 31, 0, .rng 0 0⟩]⟩,
   ⟨"STA_DATA", 0x158, [], .rw, false, 0, [⟨"ZERO", 31, 0, .rng 0 0⟩]⟩,
   ⟨"STA_DATA", 0x15C, [], .rw, false, 0, [⟨"ZERO", 31, 0, .rng 0 0⟩]⟩,
   ⟨"STA_DATA", 0x160, [], .ro, false, 0, []⟩,
   ⟨"STA_DATA", 0x164, [], .ro, false, 0, []⟩,
   ⟨"STA_DATA", 0x168, [], .ro, false, 0, []⟩,
   ⟨"STA_DATA", 0x16C, [], .ro, false, 0, []⟩,
   ⟨"STA_DATA", 0x170, [], .ro, false, 0, []⟩,
   ⟨"STA_DATA", 0x174, [], .ro, false, 0, []⟩,
   ⟨"STA_DATA", 0x178, [], .ro, false, 0, []⟩,
   ⟨"STA_DATA", 0x17C, [], .ro, false, 0, []⟩]

/-- Block registers of page C16. Part 2. -/
def mapC16Part2 : List RegSpec :=
  [⟨"TWT_DATA", 0x180, [], .rw, false, 0, [⟨"STA", 10, 0, .any⟩, ⟨"PART", 26, 24, .dep .twtPart⟩, ⟨"TRIGGER", 28, 28, .any⟩, ⟨"ANNOUNCED", 29, 29, .any⟩, ⟨"BROADCAST", 31, 31, .any⟩]⟩,
   ⟨"TWT_DATA", 0x184, [], .rw, false, 0, [⟨"T", 31, 0, .any⟩]⟩,
   ⟨"TWT_DATA", 0x188, [], .rw, false, 0, [⟨"T", 31, 0, .any⟩]⟩,
   ⟨"TWT_DATA", 0x18C, [], .rw, false, 0, [⟨"INTERVAL", 31, 0, .rng 1000 3600000000⟩]⟩,
   ⟨"TWT_DATA", 0x190, [], .rw, false, 0, [⟨"DUR", 7, 0, .rng 1 255⟩]⟩,
   ⟨"SCHED_CFG", 0x200, [(6, 64)], .rw, true, 0x64941F, [⟨"DL_OFDMA", 0, 0, .any⟩, ⟨"UL_OFDMA", 1, 1, .any⟩, ⟨"DL_MU", 2, 2, .any⟩, ⟨"UL_MU", 3, 3, .any⟩, ⟨"SOUND_AUTO", 4, 4, .any⟩, ⟨"MAX_USERS", 15, 8, .dep .maxUsers⟩, ⟨"SOUND_PERIOD", 25, 16, .rng 10 1000⟩]⟩,
   ⟨"TXOP_CFG", 0x204, [(6, 64)], .rw, true, 0x707D0, [⟨"URGENT_US", 15, 0, .rng 0 10000⟩, ⟨"RETRY_MAX", 19, 16, .any⟩]⟩,
   ⟨"EDCA", 0x208, [(6, 64)], .rw, true, 0x643, [⟨"AIFSN", 3, 0, .rng 1 15⟩, ⟨"ECWMIN", 7, 4, .any⟩, ⟨"ECWMAX", 11, 8, .dep .ecwMax⟩, ⟨"TXOP_LIMIT", 23, 16, .any⟩]⟩,
   ⟨"EDCA", 0x20C, [(6, 64)], .rw, true, 0xA47, [⟨"AIFSN", 3, 0, .rng 1 15⟩, ⟨"ECWMIN", 7, 4, .any⟩, ⟨"ECWMAX", 11, 8, .dep .ecwMax⟩, ⟨"TXOP_LIMIT", 23, 16, .any⟩]⟩,
   ⟨"EDCA", 0x210, [(6, 64)], .rw, true, 0x5E0431, [⟨"AIFSN", 3, 0, .rng 1 15⟩, ⟨"ECWMIN", 7, 4, .any⟩, ⟨"ECWMAX", 11, 8, .dep .ecwMax⟩, ⟨"TXOP_LIMIT", 23, 16, .any⟩]⟩,
   ⟨"EDCA", 0x214, [(6, 64)], .rw, true, 0x2F0321, [⟨"AIFSN", 3, 0, .rng 1 15⟩, ⟨"ECWMIN", 7, 4, .any⟩, ⟨"ECWMAX", 11, 8, .dep .ecwMax⟩, ⟨"TXOP_LIMIT", 23, 16, .any⟩]⟩,
   ⟨"TSF_BASE", 0x218, [(6, 64)], .rw, false, 0, [⟨"TSF", 31, 0, .any⟩]⟩]

/-- Block registers of page C16. Part 3. -/
def mapC16Part3 : List RegSpec :=
  [⟨"BCN_CFG", 0x21C, [(6, 64)], .rw, true, 0x10064, [⟨"BCN_INT", 15, 0, .rng 10 1000⟩, ⟨"DTIM", 23, 16, .rng 1 255⟩]⟩,
   ⟨"SCHED_CMD", 0x220, [(6, 64)], .wo, false, 0, []⟩,
   ⟨"SCHED_STAT", 0x224, [(6, 64)], .ro, false, 0, []⟩,
   ⟨"AIRTIME", 0x228, [(6, 64)], .rc, false, 0, []⟩,
   ⟨"PPDU_CNT", 0x22C, [(6, 64)], .rc, false, 0, []⟩,
   ⟨"DROP_CNT", 0x230, [(6, 64)], .rc, false, 0, []⟩,
   ⟨"DUP_CNT", 0x234, [(6, 64)], .rc, false, 0, []⟩,
   ⟨"UL_CFG", 0x238, [(6, 64)], .rw, true, 0x14C4, [⟨"TARGET_RSSI", 7, 0, .srng (-90) (-40)⟩, ⟨"BSRP_MS", 15, 8, .rng 1 255⟩]⟩,
   ⟨"STA_CNT", 0x23C, [(6, 64)], .ro, false, 0, []⟩,
   ⟨"PROFILE", 0x400, [(16, 16), (4, 4)], .rw, true, 0, [⟨"D_LO", 13, 0, .rng 0 10000⟩, ⟨"DROP_LO", 14, 14, .any⟩, ⟨"D_HI", 29, 16, .rng 0 10000⟩, ⟨"DROP_HI", 30, 30, .any⟩]⟩,
   ⟨"ACT_S", 0x600, [(8, 32)], .rw, false, 0, [⟨"S", 31, 0, .any⟩]⟩,
   ⟨"ACT_NS", 0x604, [(8, 32)], .rw, false, 0, [⟨"NS", 31, 0, .timeNs⟩]⟩]

/-- Block registers of page C16. Part 4. -/
def mapC16Part4 : List RegSpec :=
  [⟨"ACT_DESC", 0x608, [(8, 32)], .rw, false, 4, [⟨"KIND", 2, 0, .enum 5 4⟩, ⟨"TARGET", 26, 16, .dep .actTarget⟩]⟩,
   ⟨"ACT_ARM", 0x60C, [(8, 32)], .wg, false, 0, [⟨"POLICY", 1, 0, .any⟩, ⟨"ENABLE", 2, 2, .any⟩, ⟨"MBZ", 15, 3, .zero⟩]⟩,
   ⟨"ACT_STAT", 0x610, [(8, 32)], .ro, false, 0, []⟩]

/-- Block registers of page C16. -/
def mapC16 : List RegSpec :=
  mapC16Part0 ++ mapC16Part1 ++ mapC16Part2 ++ mapC16Part3 ++ mapC16Part4

/-- Block registers of page C17. Part 0. -/
def mapC17Part0 : List RegSpec :=
  [⟨"LINK_EN", 0x100, [], .ro, false, 0, []⟩,
   ⟨"LINK_EVT", 0x104, [], .rc, false, 0, []⟩,
   ⟨"LINK_CFG", 0x200, [(8, 128)], .rw, true, 0x70, [⟨"DIR", 3, 0, .rng 0 11⟩, ⟨"PART", 6, 4, .enumOf [0, 1, 2, 3, 4, 5, 7] 7⟩, ⟨"SUB", 8, 8, .any⟩, ⟨"PEER_STA", 26, 16, .any⟩, ⟨"ENABLE", 31, 31, .any⟩]⟩,
   ⟨"LINK_ID", 0x204, [(8, 128)], .rw, true, 0, [⟨"OWN", 15, 0, .any⟩, ⟨"PEER", 31, 16, .any⟩]⟩,
   ⟨"SUB_PEER", 0x208, [(8, 128)], .rw, true, 1, [⟨"SUB_PEER", 15, 0, .rng 1 4094⟩]⟩,
   ⟨"REORDER", 0x20C, [(8, 128)], .rw, true, 0x31414, [⟨"REORDER_TO", 6, 0, .rng 1 100⟩, ⟨"RETURN_WAIT", 14, 8, .rng 0 100⟩, ⟨"RETX_MAX", 19, 16, .any⟩]⟩,
   ⟨"HEALTH0", 0x210, [(8, 128)], .rw, true, 0x1400A2, [⟨"MISS", 3, 0, .rng 1 8⟩, ⟨"MIN_CAP", 12, 4, .rng 0 381⟩, ⟨"UP_HOLD", 25, 16, .rng 1 1000⟩]⟩,
   ⟨"HEALTH1", 0x214, [(8, 128)], .rw, true, 0xA0A0024, [⟨"MISS", 3, 0, .rng 1 15⟩, ⟨"MIN_CAP", 11, 4, .rng 0 100⟩, ⟨"KA", 22, 16, .rng 1 100⟩, ⟨"UP_HOLD", 31, 24, .rng 1 255⟩]⟩,
   ⟨"HEALTH2", 0x218, [(8, 128)], .rw, true, 0x1E0A02, [⟨"MISS", 2, 0, .rng 1 7⟩, ⟨"KA", 13, 8, .rng 1 60⟩, ⟨"UP_HOLD", 23, 16, .rng 1 255⟩]⟩,
   ⟨"RETX_TO", 0x21C, [(8, 128)], .rw, true, 0x140505, [⟨"T0", 6, 0, .rng 1 100⟩, ⟨"T1", 14, 8, .rng 1 100⟩, ⟨"T2", 22, 16, .rng 1 100⟩]⟩,
   ⟨"STEER_LO", 0x220, [(8, 128)], .rw, true, 0x34343434, [⟨"PREF0", 1, 0, .dep .steerPref⟩, ⟨"FB1_0", 3, 2, .dep .steerFb⟩, ⟨"FB2_0", 5, 4, .dep .steerFb⟩, ⟨"DUP0", 6, 6, .dep .steerDup⟩, ⟨"PREF1", 9, 8, .dep .steerPref⟩, ⟨"FB1_1", 11, 10, .dep .steerFb⟩, ⟨"FB2_1", 13, 12, .dep .steerFb⟩, ⟨"DUP1", 14, 14, .dep .steerDup⟩, ⟨"PREF2", 17, 16, .dep .steerPref⟩, ⟨"FB1_2", 19, 18, .dep .steerFb⟩, ⟨"FB2_2", 21, 20, .dep .steerFb⟩, ⟨"DUP2", 22, 22, .dep .steerDup⟩, ⟨"PREF3", 25, 24, .dep .steerPref⟩, ⟨"FB1_3", 27, 26, .dep .steerFb⟩, ⟨"FB2_3", 29, 28, .dep .steerFb⟩, ⟨"DUP3", 30, 30, .dep .steerDup⟩]⟩,
   ⟨"STEER_HI", 0x224, [(8, 128)], .rw, true, 0x64343434, [⟨"PREF4", 1, 0, .dep .steerPref⟩, ⟨"FB1_4", 3, 2, .dep .steerFb⟩, ⟨"FB2_4", 5, 4, .dep .steerFb⟩, ⟨"DUP4", 6, 6, .dep .steerDup⟩, ⟨"PREF5", 9, 8, .dep .steerPref⟩, ⟨"FB1_5", 11, 10, .dep .steerFb⟩, ⟨"FB2_5", 13, 12, .dep .steerFb⟩, ⟨"DUP5", 14, 14, .dep .steerDup⟩, ⟨"PREF6", 17, 16, .dep .steerPref⟩, ⟨"FB1_6", 19, 18, .dep .steerFb⟩, ⟨"FB2_6", 21, 20, .dep .steerFb⟩, ⟨"DUP6", 22, 22, .dep .steerDup⟩, ⟨"PREF7", 25, 24, .dep .steerPref⟩, ⟨"FB1_7", 27, 26, .dep .steerFb⟩, ⟨"FB2_7", 29, 28, .dep .steerFb⟩, ⟨"DUP7", 30, 30, .dep .steerDup⟩]⟩]

/-- Block registers of page C17. Part 1. -/
def mapC17Part1 : List RegSpec :=
  [⟨"KEY_SEL", 0x228, [(8, 128)], .wg, true, 0, [⟨"CUR", 5, 0, .any⟩, ⟨"NEXT", 11, 6, .dep .keyNext⟩, ⟨"NEXT_VALID", 12, 12, .any⟩, ⟨"KEY_SEL", 15, 13, .zero⟩]⟩,
   ⟨"KEY_CFG", 0x22C, [(8, 128)], .rw, true, 0x64, [⟨"KEY_OVERLAP", 9, 0, .rng 0 1000⟩]⟩,
   ⟨"MEMBER_STAT", 0x230, [(8, 128)], .ro, false, 0, []⟩,
   ⟨"SEQ_STAT", 0x234, [(8, 128)], .ro, false, 0, []⟩,
   ⟨"INFLIGHT", 0x238, [(8, 128)], .ro, false, 0, []⟩,
   ⟨"TX_CNT", 0x23C, [(8, 128)], .rc, false, 0, []⟩,
   ⟨"RX_CNT", 0x240, [(8, 128)], .rc, false, 0, []⟩,
   ⟨"REORD_CNT", 0x244, [(8, 128)], .rc, false, 0, []⟩,
   ⟨"FAIL_CNT", 0x248, [(8, 128)], .rc, false, 0, []⟩,
   ⟨"SEC_CNT", 0x24C, [(8, 128)], .rc, false, 0, []⟩,
   ⟨"LAST_FAIL_S", 0x250, [(8, 128)], .ro, false, 0, []⟩,
   ⟨"LAST_FAIL_NS", 0x254, [(8, 128)], .ro, false, 0, []⟩]

/-- Block registers of page C17. Part 2. -/
def mapC17Part2 : List RegSpec :=
  [⟨"FAIL_TIME", 0x258, [(8, 128)], .ro, false, 0, []⟩,
   ⟨"ACT_S", 0x700, [(8, 32)], .rw, false, 0, [⟨"S", 31, 0, .any⟩]⟩,
   ⟨"ACT_NS", 0x704, [(8, 32)], .rw, false, 0, [⟨"NS", 31, 0, .timeNs⟩]⟩,
   ⟨"ACT_DESC", 0x708, [(8, 32)], .rw, false, 2, [⟨"KIND", 1, 0, .enum 2 2⟩, ⟨"LINK", 10, 8, .any⟩]⟩,
   ⟨"ACT_ARM", 0x70C, [(8, 32)], .wg, false, 0, [⟨"POLICY", 1, 0, .any⟩, ⟨"ENABLE", 2, 2, .any⟩, ⟨"MBZ", 15, 3, .zero⟩]⟩,
   ⟨"ACT_STAT", 0x710, [(8, 32)], .ro, false, 0, []⟩]

/-- Block registers of page C17. -/
def mapC17 : List RegSpec :=
  mapC17Part0 ++ mapC17Part1 ++ mapC17Part2

/-- Block registers of page E1. -/
def mapE1 : List RegSpec :=
  [⟨"PM_CFG", 0x100, [], .rw, false, 0x503C, [⟨"BANK_BCN_INT", 9, 0, .rng 10 600⟩, ⟨"PAUSE_MAX", 15, 12, .rng 1 15⟩]⟩,
   ⟨"DIE_ROLE", 0x104, [], .rw, false, 0, [⟨"D0", 1, 0, .dep .dieRole⟩, ⟨"D1", 3, 2, .dep .dieRole⟩, ⟨"D2", 5, 4, .dep .dieRole⟩, ⟨"D3", 7, 6, .dep .dieRole⟩, ⟨"D4", 9, 8, .dep .dieRole⟩, ⟨"D5", 11, 10, .dep .dieRole⟩]⟩,
   ⟨"RST_CAUSE", 0x108, [], .ro, false, 0, []⟩,
   ⟨"OSC_STAT", 0x10C, [], .ro, false, 0, []⟩,
   ⟨"TRANS_TIME", 0x110, [], .ro, false, 0, []⟩,
   ⟨"SUP_WARN_ACT", 0x114, [], .ro, false, 0, []⟩,
   ⟨"SUP_MON_STAT", 0x200, [(8, 16)], .ro, false, 0, []⟩,
   ⟨"SUP_LAST_DUR", 0x204, [(8, 16)], .ro, false, 0, []⟩,
   ⟨"SUP_LAST_MIN", 0x208, [(8, 16)], .ro, false, 0, []⟩]

/-- Block registers of page E2. -/
def mapE2 : List RegSpec :=
  [⟨"ST_CFG", 0x100, [], .wg, false, 0, [⟨"ALLOW_DEGRADED", 0, 0, .any⟩, ⟨"ST_CFG", 15, 1, .zero⟩]⟩,
   ⟨"ST_RESULT", 0x200, [(8, 16)], .ro, false, 0, []⟩,
   ⟨"ST_DETAIL", 0x204, [(8, 16)], .ro, false, 0, []⟩,
   ⟨"ST_SLICE_FAIL", 0x208, [(8, 16)], .ro, false, 0, []⟩,
   ⟨"ST_RUNS", 0x20C, [(8, 16)], .ro, false, 0, []⟩]

/-- Block registers of page E3. Part 0. -/
def mapE3Part0 : List RegSpec :=
  [⟨"RF_CTRL", 0x100, [], .rw, false, 5, [⟨"RX_RETURN", 1, 0, .enum 2 0⟩, ⟨"TX_RETURN", 3, 2, .enum 2 0⟩]⟩,
   ⟨"RF_CMD", 0x104, [], .wo, false, 0, []⟩,
   ⟨"RF_STATE", 0x108, [], .ro, false, 0, []⟩,
   ⟨"CHAN0_KHZ", 0x10C, [], .rw, true, 0xD3EA0, [⟨"CHAN0_KHZ", 19, 0, .rng 862000 960000⟩]⟩,
   ⟨"CHAN_SEL", 0x110, [], .rw, true, 0x1000, [⟨"CHAN_NUM", 9, 0, .dep .chanNum⟩, ⟨"SPACING", 13, 12, .any⟩]⟩,
   ⟨"SEARCH_EN", 0x114, [], .rw, true, 1, [⟨"SEARCH_EN", 3, 0, .any⟩]⟩,
   ⟨"RX_CFG", 0x118, [], .rw, true, 0x7FF0084, [⟨"RX_DIV", 1, 0, .any⟩, ⟨"CAPTURE_EN", 2, 2, .any⟩, ⟨"CAPTURE_MARGIN", 8, 4, .rng 0 20⟩, ⟨"RX_MAXLEN", 26, 16, .rng 1 2047⟩]⟩,
   ⟨"TX_CFG", 0x11C, [], .rw, true, 0x18C81460, [⟨"PA_SEL", 0, 0, .any⟩, ⟨"POWER", 7, 1, .dep .txPower⟩, ⟨"RAMP_US", 14, 8, .rng 2 100⟩, ⟨"TX_WAIT_MAX", 25, 16, .rng 0 1000⟩, ⟨"DRIVE", 29, 26, .rng 0 10⟩]⟩,
   ⟨"TX_FRAME", 0x120, [], .rw, false, 0x10000, [⟨"ADDR", 15, 0, .any⟩, ⟨"LEN", 26, 16, .rng 1 2047⟩, ⟨"MODE", 29, 28, .any⟩]⟩,
   ⟨"TX_PHY", 0x124, [], .rw, false, 0x3008, [⟨"PREAMBLE", 9, 0, .rng 4 1000⟩, ⟨"FCS4", 12, 12, .any⟩, ⟨"DW", 13, 13, .any⟩]⟩,
   ⟨"TX_STAT", 0x128, [], .ro, false, 0, []⟩,
   ⟨"TUNER_CFG", 0x12C, [], .rw, false, 0x30A01, [⟨"AUTO", 0, 0, .any⟩, ⟨"TUNE_THR", 12, 8, .rng 6 20⟩, ⟨"PROTECT_THR", 20, 16, .dep .tunerProtect⟩]⟩]

/-- Block registers of page E3. Part 1. -/
def mapE3Part1 : List RegSpec :=
  [⟨"TUNER_STAT", 0x130, [], .ro, false, 0, []⟩,
   ⟨"AFC_CFG", 0x134, [], .rw, false, 0x1E01, [⟨"TRIM_EN", 0, 0, .any⟩, ⟨"TRIM_MAX", 12, 8, .rng 1 30⟩]⟩,
   ⟨"AFC_TRIM", 0x138, [], .ro, false, 0, []⟩,
   ⟨"CAL_STAT", 0x13C, [], .ro, false, 0, []⟩,
   ⟨"ED_CFG", 0x140, [], .rw, false, 8, [⟨"ED_SYM", 10, 0, .rng 8 1024⟩]⟩,
   ⟨"ED_RESULT", 0x144, [], .ro, false, 0, []⟩,
   ⟨"RSSI_NOW", 0x148, [], .ro, false, 0, []⟩,
   ⟨"ANT_DELAY", 0x14C, [], .rw, false, 0, [⟨"RX", 9, 0, .rng 0 1000⟩, ⟨"TX", 25, 16, .rng 0 1000⟩]⟩,
   ⟨"RX_RING_BASE", 0x150, [], .rw, false, 0, [⟨"RX_RING_BASE", 12, 0, .dep .rxRingBase⟩]⟩,
   ⟨"RX_RING_SIZE", 0x154, [], .rw, false, 0x40, [⟨"RX_RING_SIZE", 10, 0, .rng 16 1024⟩]⟩,
   ⟨"RX_RING_HEAD", 0x158, [], .ro, false, 0, []⟩,
   ⟨"RX_RING_TAIL", 0x15C, [], .rw, false, 0, [⟨"RX_RING_TAIL", 9, 0, .dep .ringIndex⟩]⟩]

/-- Block registers of page E3. Part 2. -/
def mapE3Part2 : List RegSpec :=
  [⟨"FALSE_DET_CNT", 0x160, [], .rc, false, 0, []⟩,
   ⟨"CAPTURE_CNT", 0x164, [], .rc, false, 0, []⟩,
   ⟨"DROP_CNT", 0x168, [], .rc, false, 0, []⟩,
   ⟨"MODE_CFG", 0x180, [(4, 4)], .rw, true, 0x1000, [⟨"RATE", 2, 0, .dep .modeRate⟩, ⟨"MOD", 3, 3, .dep .modeMod⟩, ⟨"FEC", 5, 4, .enum 2 0⟩, ⟨"INDEX", 7, 6, .enum 1 0⟩, ⟨"BT", 8, 8, .any⟩, ⟨"FREQ_MODE", 9, 9, .any⟩, ⟨"RATE_TOL", 15, 10, .rng 2 40⟩, ⟨"SFD", 16, 16, .any⟩]⟩,
   ⟨"ACT_S", 0x200, [(8, 32)], .rw, false, 0, [⟨"S", 31, 0, .any⟩]⟩,
   ⟨"ACT_NS", 0x204, [(8, 32)], .rw, false, 0, [⟨"NS", 31, 0, .timeNs⟩]⟩,
   ⟨"ACT_DESC", 0x208, [(8, 32)], .rw, false, 0xA, [⟨"KIND", 2, 0, .enum 4 2⟩, ⟨"USE_CUR", 3, 3, .any⟩, ⟨"MODE", 5, 4, .any⟩, ⟨"CHAN_NUM", 17, 8, .dep .chanNum⟩]⟩,
   ⟨"ACT_FRAME", 0x20C, [(8, 32)], .rw, false, 0x10000, [⟨"ADDR", 15, 0, .any⟩, ⟨"LEN", 26, 16, .rng 1 2047⟩]⟩,
   ⟨"ACT_ARM", 0x210, [(8, 32)], .wg, false, 0, [⟨"POLICY", 1, 0, .any⟩, ⟨"ENABLE", 2, 2, .any⟩, ⟨"MBZ", 15, 3, .zero⟩]⟩,
   ⟨"ACT_STAT", 0x214, [(8, 32)], .ro, false, 0, []⟩]

/-- Block registers of page E3. -/
def mapE3 : List RegSpec :=
  mapE3Part0 ++ mapE3Part1 ++ mapE3Part2

/-- Block registers of page E4. Part 0. -/
def mapE4Part0 : List RegSpec :=
  [⟨"MESH_CFG", 0x100, [], .rw, true, 8, [⟨"ROLE", 1, 0, .dep .meshRole⟩, ⟨"PERMIT_JOIN", 2, 2, .any⟩, ⟨"RELAY", 3, 3, .any⟩]⟩,
   ⟨"PAN_ID", 0x104, [], .rw, true, 0, [⟨"PAN_ID", 15, 0, .rng 0 65534⟩]⟩,
   ⟨"MESH_ADDR", 0x108, [], .ro, false, 0xFFFE, []⟩,
   ⟨"EUI_LO", 0x10C, [], .ro, false, Config.eui.toNat % 2 ^ 32, []⟩,
   ⟨"EUI_HI", 0x110, [], .ro, false, Config.eui.toNat / 2 ^ 32, []⟩,
   ⟨"BCN_CFG", 0x114, [], .rw, true, (300 + 0x10000 * (Config.eui.toNat % 2 ^ 16 % 300)), [⟨"BCN_INT", 12, 0, .rng 5 6000⟩, ⟨"BCN_PHASE", 28, 16, .dep .bcnPhase⟩]⟩,
   ⟨"PARENT_STAT", 0x118, [], .ro, false, 0, []⟩,
   ⟨"POLL_CFG", 0x11C, [], .rw, true, 0x804, [⟨"CHILD_TO_MULT", 3, 0, .rng 2 15⟩, ⟨"INDQ_PER_CHILD", 13, 8, .rng 1 64⟩]⟩,
   ⟨"FLOOD_CFG", 0x120, [], .rw, true, 0x4034005, [⟨"TTL", 3, 0, .rng 1 15⟩, ⟨"JITTER_MAX", 15, 8, .any⟩, ⟨"REDUNDANCY", 18, 16, .any⟩, ⟨"RATE_MAX", 28, 24, .rng 1 20⟩]⟩,
   ⟨"CSMA_CFG", 0x124, [], .rw, true, 0xA63453, [⟨"MIN_BE", 3, 0, .dep .minBe⟩, ⟨"MAX_BE", 7, 4, .rng 3 8⟩, ⟨"MAX_BACKOFFS", 10, 8, .rng 0 5⟩, ⟨"MAX_RETRIES", 14, 12, .any⟩, ⟨"CCA_THR", 23, 16, .srng (-120) (-60)⟩]⟩,
   ⟨"MESH_SEC", 0x128, [], .rw, true, 0x3C05, [⟨"LEVEL", 2, 0, .rng 5 7⟩, ⟨"KEY_OVERLAP", 15, 8, .any⟩]⟩,
   ⟨"KEY_SEL", 0x12C, [], .wg, true, 0, [⟨"CUR", 3, 0, .any⟩, ⟨"NEXT", 7, 4, .dep .keyNext⟩, ⟨"NEXT_VALID", 8, 8, .any⟩, ⟨"KEY_SEL", 15, 9, .zero⟩]⟩]

/-- Block registers of page E4. Part 1. -/
def mapE4Part1 : List RegSpec :=
  [⟨"SCAN_CFG", 0x130, [], .rw, false, 0x23, [⟨"DWELL", 9, 0, .rng 1 600⟩, ⟨"FIRST", 19, 10, .dep .chanNum⟩, ⟨"LAST", 29, 20, .dep .scanLast⟩]⟩,
   ⟨"GRACE_LEFT", 0x134, [], .ro, false, 0, []⟩,
   ⟨"CHILD_CNT", 0x138, [], .ro, false, 0, []⟩,
   ⟨"TABLE_USE", 0x13C, [], .ro, false, 0, []⟩,
   ⟨"SEEN_USE", 0x140, [], .ro, false, 0, []⟩,
   ⟨"TX_FC", 0x144, [], .ro, false, 0, []⟩,
   ⟨"ADDR_CMD", 0x148, [], .wo, false, 0, []⟩,
   ⟨"BCN_CNT", 0x14C, [], .rc, false, 0, []⟩,
   ⟨"DUP_CNT", 0x150, [], .rc, false, 0, []⟩,
   ⟨"FLOOD_CNT", 0x154, [], .rc, false, 0, []⟩,
   ⟨"INDQ_CNT", 0x158, [], .rc, false, 0, []⟩,
   ⟨"SEC_CNT", 0x15C, [], .rc, false, 0, []⟩]

/-- Block registers of page E4. Part 2. -/
def mapE4Part2 : List RegSpec :=
  [⟨"TXR_BASE", 0x160, [], .rw, false, 0, [⟨"TXR_BASE", 13, 0, .dep .meshRingBase⟩]⟩,
   ⟨"TXR_SIZE", 0x164, [], .rw, false, 0x40, [⟨"TXR_SIZE", 10, 0, .rng 16 1024⟩]⟩,
   ⟨"TXR_HEAD", 0x168, [], .rw, false, 0, [⟨"TXR_HEAD", 9, 0, .dep .ringIndex⟩]⟩,
   ⟨"TXR_TAIL", 0x16C, [], .ro, false, 0, []⟩,
   ⟨"RXR_BASE", 0x170, [], .rw, false, 0, [⟨"RXR_BASE", 13, 0, .dep .meshRingBase⟩]⟩,
   ⟨"RXR_SIZE", 0x174, [], .rw, false, 0x40, [⟨"RXR_SIZE", 10, 0, .rng 16 1024⟩]⟩,
   ⟨"RXR_HEAD", 0x178, [], .ro, false, 0, []⟩,
   ⟨"RXR_TAIL", 0x17C, [], .rw, false, 0, [⟨"RXR_TAIL", 9, 0, .dep .ringIndex⟩]⟩,
   ⟨"RXR_DROP", 0x180, [], .rc, false, 0, []⟩,
   ⟨"HDR_BAD", 0x184, [], .rc, false, 0, []⟩,
   ⟨"ACT_S", 0x200, [(2, 32)], .rw, false, 0, [⟨"S", 31, 0, .any⟩]⟩,
   ⟨"ACT_NS", 0x204, [(2, 32)], .rw, false, 0, [⟨"NS", 31, 0, .timeNs⟩]⟩]

/-- Block registers of page E4. Part 3. -/
def mapE4Part3 : List RegSpec :=
  [⟨"ACT_DESC", 0x208, [(2, 32)], .rw, false, 3, [⟨"KIND", 2, 0, .enum 3 3⟩]⟩,
   ⟨"ACT_ARM", 0x20C, [(2, 32)], .wg, false, 0, [⟨"POLICY", 1, 0, .any⟩, ⟨"ENABLE", 2, 2, .any⟩, ⟨"MBZ", 15, 3, .zero⟩]⟩,
   ⟨"ACT_STAT", 0x210, [(2, 32)], .ro, false, 0, []⟩]

/-- Block registers of page E4. -/
def mapE4 : List RegSpec :=
  mapE4Part0 ++ mapE4Part1 ++ mapE4Part2 ++ mapE4Part3

/-- Block registers of page E5. -/
def mapE5 : List RegSpec :=
  [⟨"EMB_CMD", 0x100, [], .wo, false, 0, []⟩,
   ⟨"EMB_STAT", 0x104, [], .ro, false, 0, []⟩,
   ⟨"EMB_VER", 0x108, [], .ro, false, Config.emberVersion.toNat, []⟩]

/-- Block registers of page E6. -/
def mapE6 : List RegSpec :=
  [⟨"AES_CFG", 0x100, [], .rw, false, 2, [⟨"HOLD", 3, 0, .rng 0 10⟩]⟩,
   ⟨"KEY_CMD", 0x104, [], .wg, false, 0, [⟨"SLOT", 3, 0, .any⟩, ⟨"CMD", 5, 4, .rng 1 2⟩, ⟨"LEN", 6, 6, .any⟩, ⟨"MBZ", 7, 7, .zero⟩, ⟨"KEY_INDEX", 15, 8, .dep .keyIndex⟩]⟩,
   ⟨"KEY_RESULT", 0x108, [], .ro, false, 0x80000000, []⟩,
   ⟨"KEY_DATA", 0x110, [(8, 4)], .wo, false, 0, []⟩,
   ⟨"KEY_STAT", 0x140, [(16, 4)], .ro, false, 0, []⟩,
   ⟨"AES_BLOCKS", 0x180, [], .rc, false, 0, []⟩,
   ⟨"CTX_CMD", 0x200, [(8, 64)], .wg, false, 0, [⟨"CMD", 1, 0, .rng 1 2⟩, ⟨"SLOT", 5, 2, .any⟩, ⟨"PRIO", 7, 6, .any⟩, ⟨"CTX_CMD", 15, 8, .zero⟩]⟩,
   ⟨"CTX_GO", 0x204, [(8, 64)], .wo, false, 0, []⟩,
   ⟨"CTX_STAT", 0x208, [(8, 64)], .ro, false, 0, []⟩,
   ⟨"CTX_IN", 0x210, [(8, 64), (4, 4)], .rw, false, 0, [⟨"W", 31, 0, .any⟩]⟩,
   ⟨"CTX_OUT", 0x220, [(8, 64), (4, 4)], .ro, false, 0, []⟩]

/-- Block registers of page E7. Part 0. -/
def mapE7Part0 : List RegSpec :=
  [⟨"LAMP_CFG", 0x100, [], .rw, true, 0, [⟨"DALI_EN", 1, 0, .any⟩, ⟨"PWM_EN", 5, 2, .any⟩]⟩,
   ⟨"LAMP_STAT", 0x104, [], .ro, false, 0, []⟩,
   ⟨"FS_CAUSE", 0x108, [], .ro, false, 0, []⟩,
   ⟨"HOST_WDT", 0x10C, [], .rw, false, 0x12C, [⟨"PERIOD", 11, 0, .rng 0 3600⟩, ⟨"EMBER_RUN", 16, 16, .any⟩]⟩,
   ⟨"LAMP_KICK", 0x110, [], .wg, false, 0, [⟨"LAMP_KICK", 15, 0, .any⟩]⟩,
   ⟨"WDT_LEFT", 0x114, [], .ro, false, 0, []⟩,
   ⟨"LEVEL", 0x200, [(6, 16)], .wg, true, 0, [⟨"LEVEL", 15, 0, .dep .lampLevel⟩]⟩,
   ⟨"FAILSAFE", 0x204, [(2, 16)], .wg, false, 254, [⟨"FAILSAFE", 15, 0, .dep .lampLevel⟩]⟩,
   ⟨"FAILSAFE", 0x224, [(4, 16)], .wg, false, 65535, [⟨"FAILSAFE", 15, 0, .dep .lampLevel⟩]⟩,
   ⟨"OUT_CFG_DALI", 0x208, [(2, 16)], .rw, true, 0x3FE, [⟨"TARGET", 7, 0, .dep .daliTarget⟩, ⟨"PRIO", 10, 8, .rng 1 5⟩]⟩,
   ⟨"OUT_CFG_PWM", 0x228, [(4, 16)], .rw, true, 0x3E8, [⟨"FREQ", 15, 0, .rng 100 40000⟩, ⟨"POL", 16, 16, .any⟩, ⟨"FADE", 27, 18, .rng 0 1000⟩]⟩,
   ⟨"OUT_NOW", 0x20C, [(6, 16)], .ro, false, 0, []⟩]

/-- Block registers of page E7. Part 1. -/
def mapE7Part1 : List RegSpec :=
  [⟨"DQ_PUSH", 0x300, [(2, 32)], .wo, false, 0, []⟩,
   ⟨"DQ_STAT", 0x304, [(2, 32)], .ro, false, 0, []⟩,
   ⟨"DQ_RES", 0x308, [(2, 32)], .rc, false, 0, []⟩,
   ⟨"DQ_FLUSH", 0x30C, [(2, 32)], .wo, false, 0, []⟩,
   ⟨"DALI_CNT", 0x310, [(2, 32)], .rc, false, 0, []⟩,
   ⟨"ACT_S", 0x600, [(8, 32)], .rw, false, 0, [⟨"S", 31, 0, .any⟩]⟩,
   ⟨"ACT_NS", 0x604, [(8, 32)], .rw, false, 0, [⟨"NS", 31, 0, .timeNs⟩]⟩,
   ⟨"ACT_DESC", 0x608, [(8, 32)], .rw, false, 0, [⟨"KIND", 0, 0, .any⟩, ⟨"OUTPUT", 6, 4, .dep .actOutput⟩, ⟨"SCENE", 11, 8, .any⟩]⟩,
   ⟨"ACT_LEVEL", 0x60C, [(8, 32)], .wg, false, 0, [⟨"ACT_LEVEL", 15, 0, .any⟩]⟩,
   ⟨"ACT_ARM", 0x610, [(8, 32)], .wg, false, 0, [⟨"POLICY", 1, 0, .any⟩, ⟨"ENABLE", 2, 2, .any⟩, ⟨"MBZ", 15, 3, .zero⟩]⟩,
   ⟨"ACT_STAT", 0x614, [(8, 32)], .ro, false, 0, []⟩]

/-- Block registers of page E7. -/
def mapE7 : List RegSpec :=
  mapE7Part0 ++ mapE7Part1

/-- Block registers of page E8. Part 0. -/
def mapE8Part0 : List RegSpec :=
  [⟨"TIME_SNAP", 0x100, [], .wo, false, 0, []⟩,
   ⟨"SNAP_S_LO", 0x104, [], .ro, false, 0, []⟩,
   ⟨"SNAP_S_HI", 0x108, [], .ro, false, 0, []⟩,
   ⟨"SNAP_NS", 0x10C, [], .ro, false, 0, []⟩,
   ⟨"SNAP_FRAC", 0x110, [], .ro, false, 0, []⟩,
   ⟨"TIME_QUAL", 0x114, [], .ro, false, 0, []⟩,
   ⟨"TIME_CMD", 0x118, [], .wg, false, 0, [⟨"CMD", 3, 0, .enumOf [1, 2, 3, 5] 0⟩, ⟨"MBZ", 15, 4, .zero⟩]⟩,
   ⟨"SERVO_CFG", 0x11C, [], .rw, false, 0x1407D064, [⟨"LOCK_THR_SUB", 31, 25, .rng 1 100⟩]⟩,
   ⟨"STEP_OFS_S", 0x134, [], .ro, false, 0, []⟩,
   ⟨"STEP_OFS_NS", 0x138, [], .ro, false, 0, []⟩,
   ⟨"SET_S_LO", 0x13C, [], .rw, false, 0, [⟨"S", 31, 0, .any⟩]⟩,
   ⟨"SET_S_HI", 0x140, [], .rw, false, 0, [⟨"S", 15, 0, .any⟩]⟩]

/-- Block registers of page E8. Part 1. -/
def mapE8Part1 : List RegSpec :=
  [⟨"SET_NS", 0x144, [], .rw, false, 0, [⟨"NS", 31, 0, .timeNs⟩]⟩,
   ⟨"HOLD_AGE", 0x148, [], .ro, false, 0, []⟩,
   ⟨"E_TIME_CFG", 0x160, [], .rw, false, 0x258005A, [⟨"E_LOCK_AGE", 11, 0, .rng 30 3600⟩, ⟨"TT_SUB_INT", 27, 16, .rng 60 3600⟩]⟩]

/-- Block registers of page E8. -/
def mapE8 : List RegSpec :=
  mapE8Part0 ++ mapE8Part1

/-- Block registers of page E9. -/
def mapE9 : List RegSpec :=
  [⟨"SPI_STAT", 0x100, [], .ro, false, 0, []⟩,
   ⟨"SPI_ERR", 0x104, [], .rc, false, 0, []⟩,
   ⟨"WAKE_CAUSE", 0x108, [], .w1c, false, 0, []⟩,
   ⟨"WAKE_STAT", 0x10C, [], .ro, false, 0, []⟩]

/-- Block registers of page E10. -/
def mapE10 : List RegSpec :=
  [⟨"GPIO_IN", 0x100, [], .ro, false, 0, []⟩,
   ⟨"GPIO_OUT", 0x104, [], .rw, true, 0, [⟨"GPIO_OUT", 11, 0, .any⟩]⟩,
   ⟨"GPIO_DIR", 0x108, [], .rw, true, 0, [⟨"GPIO_DIR", 11, 0, .any⟩]⟩,
   ⟨"GPIO_CFG", 0x200, [(12, 4)], .rw, false, 0x10, [⟨"MODE", 2, 0, .enum 5 0⟩, ⟨"PULL", 5, 4, .enum 2 1⟩, ⟨"DEBOUNCE", 15, 8, .any⟩]⟩,
   ⟨"GPIO_TS_S", 0x300, [(12, 8)], .ro, false, 0, []⟩,
   ⟨"GPIO_TS_NS", 0x304, [(12, 8)], .ro, false, 0, []⟩]

/-- Block registers of page D1. -/
def mapD1 : List RegSpec :=
  [⟨"CHAIN_EN", 0x100, [], .rw, true, 0xFFFF, [⟨"CHAIN_EN", 15, 0, .dep .chainEn⟩]⟩,
   ⟨"TILE_STAT", 0x104, [], .ro, false, 0, []⟩,
   ⟨"CHAIN_MUTE", 0x108, [], .w1c, false, 0, []⟩,
   ⟨"CH_TXGAIN", 0x200, [(16, 16)], .rw, true, 0, [⟨"TRIM", 7, 0, .srng (-32) 32⟩]⟩,
   ⟨"CH_RSSI", 0x204, [(16, 16)], .ro, false, 0, []⟩]

/-- Block registers of page D2. -/
def mapD2 : List RegSpec :=
  [⟨"SYN_STAT", 0x100, [], .ro, false, 0, []⟩,
   ⟨"SYN_FREQ", 0x104, [], .ro, false, 0, []⟩,
   ⟨"UNLOCK_CNT", 0x108, [], .rc, false, 0, []⟩]

/-- Block registers of page D3. -/
def mapD3 : List RegSpec :=
  [⟨"CAL_CMD", 0x100, [], .wo, false, 0, []⟩,
   ⟨"CAL_STAT", 0x104, [], .ro, false, 0, []⟩,
   ⟨"CAL_CFG", 0x108, [], .rw, false, 0x14, [⟨"STALE_THR", 5, 0, .rng 5 40⟩]⟩,
   ⟨"SU_FAIL", 0x10C, [], .ro, false, 0, []⟩,
   ⟨"PHASE_TAB", 0x110, [(4, 4)], .ro, false, 0, []⟩]

/-- Block registers of page D4. Part 0. -/
def mapD4Part0 : List RegSpec :=
  [⟨"PART_CFG", 0x100, [], .rw, false, 0x10, [⟨"SIZE", 1, 0, .dep .partSize⟩, ⟨"RETURN", 5, 4, .enum 2 0⟩]⟩,
   ⟨"PART_CHAN", 0x104, [], .rw, true, 0x100, [⟨"BAND", 1, 0, .dep .chanPlan⟩, ⟨"BW", 4, 2, .dep .chanPlan⟩, ⟨"CHAN", 15, 8, .dep .chanPlan⟩, ⟨"PRI20", 19, 16, .dep .chanPlan⟩]⟩,
   ⟨"PART_PUNCT", 0x108, [], .rw, true, 0, [⟨"PART_PUNCT", 15, 0, .dep .partPunct⟩]⟩,
   ⟨"PART_TX", 0x10C, [], .rw, true, 0x10A00C8, [⟨"TX_WAIT_MAX", 9, 0, .rng 0 1000⟩, ⟨"CAPTURE_MARGIN", 20, 16, .rng 0 20⟩, ⟨"CAPTURE_EN", 24, 24, .any⟩]⟩,
   ⟨"PART_STAT", 0x110, [], .ro, false, 0, []⟩,
   ⟨"SEQ_CMD", 0x114, [], .wo, false, 0, []⟩,
   ⟨"SEQ_STAT", 0x118, [], .ro, false, 0, []⟩,
   ⟨"RX_CNT", 0x11C, [], .rc, false, 0, []⟩,
   ⟨"CAPTURE_CNT", 0x120, [], .rc, false, 0, []⟩,
   ⟨"ACT_S", 0x200, [(8, 32)], .rw, false, 0, [⟨"S", 31, 0, .any⟩]⟩,
   ⟨"ACT_NS", 0x204, [(8, 32)], .rw, false, 0, [⟨"NS", 31, 0, .timeNs⟩]⟩,
   ⟨"ACT_DESC", 0x208, [(8, 32)], .rw, false, 2, [⟨"KIND", 1, 0, .any⟩]⟩]

/-- Block registers of page D4. Part 1. -/
def mapD4Part1 : List RegSpec :=
  [⟨"ACT_CHAN", 0x20C, [(8, 32)], .rw, false, 0x100, [⟨"BAND", 1, 0, .dep .chanPlan⟩, ⟨"BW", 4, 2, .dep .chanPlan⟩, ⟨"CHAN", 15, 8, .dep .chanPlan⟩, ⟨"PRI20", 19, 16, .dep .chanPlan⟩]⟩,
   ⟨"ACT_ARM", 0x210, [(8, 32)], .wg, false, 0, [⟨"POLICY", 1, 0, .any⟩, ⟨"ENABLE", 2, 2, .any⟩, ⟨"MBZ", 15, 3, .zero⟩]⟩,
   ⟨"ACT_STAT", 0x214, [(8, 32)], .ro, false, 0, []⟩]

/-- Block registers of page D4. -/
def mapD4 : List RegSpec :=
  mapD4Part0 ++ mapD4Part1

/-- Block registers of page D5. -/
def mapD5 : List RegSpec :=
  [⟨"BF_CFG", 0x100, [], .rw, true, 0x503228, [⟨"SOUND_DIM", 3, 0, .rng 1 8⟩, ⟨"NG", 4, 4, .any⟩, ⟨"CB", 5, 5, .any⟩, ⟨"WEIGHT_AGE", 17, 8, .rng 1 1000⟩, ⟨"REG", 23, 18, .rng 0 40⟩]⟩,
   ⟨"SOUND_STAT", 0x104, [], .ro, false, 0, []⟩,
   ⟨"SOUND_CNT", 0x108, [], .rc, false, 0, []⟩,
   ⟨"WEIGHT_CNT", 0x10C, [], .ro, false, 0, []⟩,
   ⟨"CSR_BASE_LO", 0x110, [], .rw, false, 0, [⟨"ADDR", 31, 12, .dep .csrBase⟩]⟩,
   ⟨"CSR_BASE_HI", 0x114, [], .rw, false, 0, [⟨"ADDR", 1, 0, .dep .csrBase⟩]⟩]

/-- Block registers of page D6. -/
def mapD6 : List RegSpec :=
  [⟨"FE_CFG", 0x100, [], .rw, true, 0x30A05, [⟨"TX_LEAD", 4, 0, .rng 1 20⟩, ⟨"RL_THR", 12, 8, .rng 6 20⟩, ⟨"PROTECT_THR", 20, 16, .dep .feProtect⟩]⟩,
   ⟨"FE_RAMP", 0x200, [(16, 16)], .rw, true, 5, [⟨"RAMP", 4, 0, .rng 2 20⟩]⟩,
   ⟨"FE_DELAY", 0x204, [(16, 16)], .rw, false, 0, [⟨"PS", 14, 0, .rng 0 20000⟩]⟩,
   ⟨"FE_DET", 0x208, [(16, 16)], .ro, false, 0, []⟩,
   ⟨"FE_PWR", 0x20C, [(16, 16)], .ro, false, 0, []⟩]

/-- Block registers of page D6B. -/
def mapD6B : List RegSpec :=
  [⟨"HEAD_CMD", 0x200, [(2, 64)], .wo, false, 0, []⟩,
   ⟨"HEAD_RDATA", 0x204, [(2, 64)], .ro, false, 0, []⟩,
   ⟨"HEAD_STAT", 0x208, [(2, 64)], .ro, false, 0, []⟩,
   ⟨"HEAD_TIMING", 0x20C, [(2, 64)], .rw, true, 0x404, [⟨"RAMP", 3, 0, .rng 2 8⟩, ⟨"TX_LEAD", 11, 8, .rng 2 8⟩]⟩,
   ⟨"HEAD_DELAY", 0x210, [(2, 64)], .ro, false, 0, []⟩,
   ⟨"HEAD_DELAY_OFS", 0x214, [(2, 64)], .rw, false, 0, [⟨"HEAD_DELAY_OFS", 15, 0, .srng (-10000) 10000⟩]⟩,
   ⟨"BEAM_CFG", 0x218, [(2, 64)], .rw, true, 0x257C07C0, [⟨"TX_FIRST", 5, 0, .rng 0 63⟩, ⟨"TX_LAST", 11, 6, .dep .beamLast⟩, ⟨"RX_FIRST", 17, 12, .rng 0 63⟩, ⟨"RX_LAST", 23, 18, .dep .beamLast⟩, ⟨"TRACK", 27, 24, .any⟩, ⟨"HYST", 31, 28, .rng 1 15⟩]⟩,
   ⟨"BEAM_STAT", 0x21C, [(2, 64)], .ro, false, 0, []⟩,
   ⟨"HEAD_DET", 0x400, [(16, 4)], .ro, false, 0, []⟩]

/-- Block registers of page D7. Part 0. -/
def mapD7Part0 : List RegSpec :=
  [⟨"CFO_CFG", 0x100, [], .rw, false, 0x10A, [⟨"TRIM_MAX", 4, 0, .rng 1 20⟩, ⟨"TRIM_EN", 8, 8, .any⟩]⟩,
   ⟨"DIR_CFG", 0x200, [(2, 256)], .rw, true, 0x46C4, [⟨"END", 0, 0, .any⟩, ⟨"GUARD", 4, 1, .rng 1 8⟩, ⟨"SPLIT", 15, 5, .dep .dirSplit⟩, ⟨"CYC_OFS", 26, 16, .rng 0 1144⟩, ⟨"ENABLE", 31, 31, .any⟩]⟩,
   ⟨"DIR_CHAN", 0x204, [(2, 256)], .rw, true, 1, [⟨"CHAN", 2, 0, .rng 1 6⟩, ⟨"EDGE", 8, 8, .any⟩]⟩,
   ⟨"DIR_ID", 0x208, [(2, 256)], .rw, true, 0, [⟨"ID", 31, 0, .any⟩]⟩,
   ⟨"TM_CFG", 0x20C, [(2, 256)], .rw, true, 0x233, [⟨"MARGIN", 3, 0, .rng 0 12⟩, ⟨"BACKOFF_THR", 7, 4, .rng 1 12⟩, ⟨"TM_HYST", 13, 8, .rng 1 50⟩, ⟨"MODE", 16, 16, .any⟩]⟩,
   ⟨"DIR_STAT", 0x210, [(2, 256)], .ro, false, 0, []⟩,
   ⟨"DIR_HEALTH", 0x214, [(2, 256)], .ro, false, 0, []⟩,
   ⟨"CFO_STAT", 0x218, [(2, 256)], .ro, false, 0, []⟩,
   ⟨"FRAME_CNT", 0x21C, [(2, 256)], .rc, false, 0, []⟩,
   ⟨"CW_FAIL", 0x220, [(2, 256)], .rc, false, 0, []⟩,
   ⟨"SWITCH_CNT", 0x224, [(2, 256)], .rc, false, 0, []⟩,
   ⟨"SKIP_CNT", 0x228, [(2, 256)], .rc, false, 0, []⟩]

/-- Block registers of page D7. Part 1. -/
def mapD7Part1 : List RegSpec :=
  [⟨"TM_PEND", 0x22C, [(2, 256)], .ro, false, 0, []⟩,
   ⟨"DIR_CAP", 0x230, [(2, 256)], .ro, false, 0, []⟩,
   ⟨"TM_CMD", 0x1000, [], .wo, false, 0, []⟩,
   ⟨"TM_STAGE", 0x1400, [(208, 4)], .rw, false, 0, [⟨"E0", 3, 0, .rng 0 12⟩, ⟨"E1", 7, 4, .rng 0 12⟩, ⟨"E2", 11, 8, .rng 0 12⟩, ⟨"E3", 15, 12, .rng 0 12⟩, ⟨"E4", 19, 16, .rng 0 12⟩, ⟨"E5", 23, 20, .rng 0 12⟩, ⟨"E6", 27, 24, .rng 0 12⟩, ⟨"E7", 31, 28, .rng 0 12⟩]⟩,
   ⟨"TM_TAB", 0x2000, [(16, 1024), (208, 4)], .ro, false, 0, []⟩,
   ⟨"SNR_AVG", 0x8000, [(4, 4096), (832, 4)], .ro, false, 0, []⟩]

/-- Block registers of page D7. -/
def mapD7 : List RegSpec :=
  mapD7Part0 ++ mapD7Part1

/-- Offset `o` from a register array of shape `dims` names an element of it. -/
def inDims : List (Nat × Nat) → Nat → Bool
  | [], o => o == 0
  | (n, st) :: ds, o =>
    -- the outermost stride is the largest
    if o / st < n then inDims ds (o % st) else false

/-- The array shape with its strides in falling order. -/
def RegSpec.shape (r : RegSpec) : List (Nat × Nat) :=
  match r.dims with
  | [(a, s), (b, t)] => if s < t then [(b, t), (a, s)] else [(a, s), (b, t)]
  | ds => ds

/-- The register that page offset `o` names, if any (R9: none is reserved). -/
def findReg (m : List RegSpec) (o : Nat) : Option RegSpec :=
  m.find? (fun r => decide (r.off ≤ o) && inDims r.shape (o - r.off))

/-- Roles of a radio die (R23). -/
inductive Role where
  /-- Disabled. -/
  | off
  /-- Access role. -/
  | access
  /-- Backhaul role. -/
  | backhaul
  deriving DecidableEq, Repr

/-- Block registers of page `n` of die C (R38). -/
def mapC : Nat → List RegSpec
  | 0 => mapDC 1 | 1 => mapC1 | 2 => mapC2 | 3 => mapC3 | 4 => mapC4 | 5 => mapC5 | 6 => mapC6
  | 7 => mapC7 | 8 => mapC8 | 9 => mapC9 | 10 => mapC10 | 11 => mapC11 | 12 => mapC12 | 13 => mapC13
  | 14 => mapC14 | 15 => mapC15 | 16 => mapC16 | 17 => mapC17 | _ => []

/-- Block registers of page `n` of die E (R38). -/
def mapE : Nat → List RegSpec
  | 0 => mapDC 2 | 1 => mapE1 | 2 => mapE2 | 3 => mapE3 | 4 => mapE4 | 5 => mapE5 | 6 => mapE6
  | 7 => mapE7 | 8 => mapE8 | 9 => mapE9 | 10 => mapE10 | _ => []

/-- Block registers of page `n` of radio die `d` in role `r` (R38, R288 to R290). -/
def mapD (d : Nat) (r : Role) : Nat → List RegSpec
  | 0 => mapDC (3 + d) | 1 => mapD1 | 2 => mapD2 | 3 => mapD3 | 4 => mapD4 | 5 => mapD5
  | 6 => if r = .backhaul then mapD6B else mapD6
  | 7 => if r = .backhaul then mapD7 else []
  | _ => []

end Sys2Proof.Machine
end

