-- ==== Sys2Proof/Machine/State.lean ====
section
/-!
DEFINITION. The machine's state, as plain data: the register file of the page maps as one sparse overlay over the reset
values, everything the spec gives the machine beside its registers, the queue of waiting commands, and the state after
reset.
-/
namespace Sys2Proof.Machine

/-! ## The queue manager (R343 to R346) -/

/-- Where a queued frame's cells are: within its class's reserve, in the shared pool, or in the DRAM (R344). -/
inductive Pool where
  | reserve
  | shared
  | dram
  deriving DecidableEq, Repr

/-- A frame in a queue. -/
structure QFrame where
  /-- Number given at its admission. -/
  num : Nat
  frame : Frame
  /-- SUB of the decision: the mesh short address on port 4 (R323). -/
  sub : Nat
  /-- `mono` at its admission (R238). -/
  at_ : Nat
  pool : Pool
  deriving DecidableEq, Repr

/-- The deficit round robin of a port: the class served now, and the deficits of classes 0 to 5 (R345). -/
structure Drr where
  port : Nat
  cls : Nat
  deficit : List Nat
  deriving DecidableEq, Repr

/-- The queue manager: the queues that hold frames, oldest frame first, and the round robins. -/
structure Qm where
  queues : List (Nat × List QFrame)
  nextNum : Nat
  drr : List Drr
  /-- Ethernet ports held by a PAUSE frame, until a `mono` (R447). -/
  paused : List (Nat × Nat)
  deriving DecidableEq, Repr

/-! ## Forwarding tables (R326 to R341, R347 to R349) -/

/-- A slot of the exact-match table that holds an entry: its position (bank × 16,384 + index; the stash from 65,536), the eight
words, and what the device keeps beside them. -/
structure EmSlot where
  pos : Nat
  words : List Word
  /-- Order in which entries were written; the stash is emptied oldest first (R331). -/
  seq : Nat
  /-- The entry was written here by this relocation (R333). -/
  moved : Option Nat
  /-- Walks for which this source copy of a relocation is retained (R333). -/
  kept : List Requester
  /-- A group's pending INSERT reserves the slot, and its lookups miss (R335). -/
  pend : Option (Fin 16)
  deriving DecidableEq, Repr

/-- A walk of a requester: its cursor, its last NEXT in `mono`, and the count of relocations when it opened (R333). -/
structure EmWalk where
  req : Requester
  cursor : Nat
  last : Nat
  opened : Nat
  deriving DecidableEq, Repr

/-- A sweep: FLUSH_PORT with its port and INCL_STATIC, or aging; its TYPE filter, and entries removed (R334). -/
structure EmSweep where
  flush : Option (Nat × Bool)
  type : Nat
  removed : Nat
  deriving DecidableEq, Repr

/-- A queued learn request (R326). -/
structure LearnReq where
  fid : Nat
  mac : Nat
  port : Nat
  sub : Nat
  deriving DecidableEq, Repr

/-- The exact-match table. -/
structure Em where
  slots : List EmSlot
  seq : Nat
  relocs : Nat
  /-- The current sweep mark (R334). -/
  mark : Bool
  sweep : Option EmSweep
  walks : List EmWalk
  learnq : List LearnReq
  /-- `mono` at the last AGE_SWEEP and the last scrub pass. -/
  lastAge : Nat
  lastScrub : Nat
  deriving DecidableEq, Repr

/-- A prefix of the LPM table's prefix store (R338, R340). -/
structure Prefix where
  v6 : Bool
  vrf : Nat
  addr : Nat
  len : Nat
  nh : Nat
  deriving DecidableEq, Repr

/-- The LPM table: prefixes in walk order, staged changes of a group (an INSERT, or a DELETE), next hops by index, and each
requester's walk position. -/
structure Lpm where
  prefixes : List Prefix
  staged : List (Fin 16 × Bool × Prefix)
  nextHops : List (Nat × List Word)
  walks : List (Requester × Option Prefix)
  deriving DecidableEq, Repr

/-- The forwarding pipelines' tables. -/
structure Fwd where
  em : Em
  lpm : Lpm
  /-- VLAN entries by VID: MEMBER, UNTAGGED and the FID word (R347). -/
  vlans : List (Nat × List Word)
  deriving DecidableEq, Repr

/-! ## The sub-GHz radio (R130 to R161) -/

/-- A reception on the sub-GHz radio (R139, R140). -/
structure SgRx where
  /-- The correlator that holds it. -/
  corr : Nat
  /-- Its SFD has matched. -/
  synced : Bool
  /-- Its header check has passed. -/
  confirmed : Bool
  /-- PSDU octets by the PHR. -/
  len : Nat
  /-- RSSI at its sync, 0.5 dB units. -/
  rssi : Int
  fec : Bool
  whiten : Bool
  fcs4 : Bool
  /-- Local time of die E at the end of the SFD. -/
  stamp : Nat
  /-- MODE_CFG of its correlator when it began: a reception finishes in its old mode (R138). -/
  mode : Word
  /-- Under RX_DIV = 3, chain 1 had the higher RSSI over the preamble and is used (R138). -/
  chain1 : Bool
  deriving DecidableEq, Repr

/-- Why the radio transmits. -/
inductive SgTxKind where
  /-- TX_NOW. -/
  | now
  /-- A TX action of a slot. -/
  | act (i : Fin 8)
  /-- An Imm-Ack of the MAC assist. -/
  | ack
  /-- A frame of the MAC assist. -/
  | mac
  deriving DecidableEq, Repr

/-- A transmission: its kind, the frame in die E SRAM (address in bytes, length), its mode, and the octets where they have been read at a
preparation instant or composed by the MAC assist (R152, R168). -/
structure SgTx where
  kind : SgTxKind
  addr : Nat
  len : Nat
  mode : Nat
  psdu : Option (List Byte)
  deriving DecidableEq, Repr

/-- A transmission as it leaves the antenna: the PSDU, MODE_CFG in force, what TX_PHY and TX_CFG ask for, the local time of die E at which
the first preamble bit leaves the antenna, and that at which it leaves the die's ball (R132, R144, R145). -/
structure SgEmit where
  psdu : List Byte
  mode : Word
  preamble : Nat
  fcs4 : Bool
  whiten : Bool
  ext : Bool
  power : Nat
  drive : Nat
  antenna : Int
  ball : Int
  deriving DecidableEq, Repr

/-- Where SETTLE leads when the synthesiser locks (R149). -/
inductive SgGoal where
  | idle
  | listen
  | tx (t : SgTx)
  /-- The transmission of a prepared action, which starts at its T. -/
  | act (i : Fin 8)
  | cal
  deriving DecidableEq, Repr

/-- The radio's state beside its registers. -/
structure Sub where
  rx : Option SgRx
  tx : Option SgTx
  goal : SgGoal
  /-- An immediate transmission that waits for lock, for the end of a calibration or of a supply warning, and `mono` at its
  acceptance (R146, R147). -/
  wait : Option (SgTx × Nat)
  /-- Steps of the calibration that runs, and of a deferred one (R153, R154). -/
  cal : Option (BitVec 7)
  calDefer : Option (BitVec 7)
  /-- `mono` at the start of the calibration. -/
  calAt : Nat
  /-- The start-up calibration has been started since the last reset of die E (R149). -/
  started : Bool
  /-- Step 0 or 3 of a calibration has run since the last reset of die E, so that CAL_STAT.TEMP holds its temperature (R154). -/
  calRef : Bool
  /-- An automatic retune is due (R156). -/
  retune : Bool
  /-- Consecutive transmissions with a return loss below TUNE_THR (R156). -/
  lowRl : Nat
  /-- The trim of AFC_TRIM that the last parent frame asks for, in 2^-8 ppm (R143). -/
  trim : Option Int
  /-- A channel change waits for the end of the transmission (R151). -/
  chanPend : Bool
  /-- A prepared action, and the actions that wait for the end of a transmission, in the order of their instants (R152). -/
  prepared : Option (Fin 8)
  blocked : List (Fin 8)
  /-- An acknowledgement is due before the radio returns (R150). -/
  ackDue : Bool
  /-- A fresh arming that waits for its slot's transmission to end: the slot and its policy (R96). -/
  rearm : Option (Fin 8 × Nat)
  /-- The protection of R157 has acted on the transmission. -/
  protect : Bool
  /-- The frame of the prepared action, read from SRAM at its P (R152). -/
  prepPsdu : List Byte
  /-- `mono` at which the synthesiser last locked (R147). -/
  lockAt : Nat
  /-- The last transmission uses the external path; `mono` at its first and after its last bit, and until when SG_XPA_EN and SG_TRSW
  stay high after it (R145). -/
  txExt : Bool
  txFrom : Nat
  txTo : Nat
  xpaTo : Nat
  trswTo : Nat
  /-- `mono` at the start of an energy detection, and its length in ns (R155). -/
  edAt : Nat
  edFor : Nat
  /-- A TRIM_CLEAR waits for IDLE, LISTEN or SLEEP (R143). -/
  trimClr : Bool
  deriving DecidableEq, Repr

/-! ## The lamp mesh (R162 to R199) -/

/-- A child of this node (R179, R180). -/
structure MeshChild where
  short : Nat
  eui : Nat
  sleepy : Bool
  floodSub : Bool
  /-- Granted poll interval, s. -/
  poll : Nat
  /-- `mono` when it was last heard. -/
  heard : Nat
  deriving DecidableEq, Repr

/-- A pending child entry of a relayed JOIN_REQ (R179): CAPS, poll interval and `mono` at the request. -/
structure PendChild where
  eui : Nat
  caps : Nat
  poll : Nat
  since : Nat
  deriving DecidableEq, Repr

/-- An entry of the indirect queue (R182, R184): a frame for one sleepy child, or a flood with its delivery mask. -/
structure IndEntry where
  id : Nat
  frame : MeshHdr
  /-- The children still to be served: one for a unicast frame, the mask of a flood. -/
  kids : List Nat
  flood : Bool
  /-- `mono` when it was queued and when it expires. -/
  queued : Nat
  expires : Nat
  /-- Transmit descriptor it came from. -/
  desc : Option Nat
  deriving DecidableEq, Repr

/-- One (key index, counter, DSN) set of the replay table (R190). -/
structure ReplaySet where
  key : Nat
  counter : Nat
  dsn : Nat
  deriving DecidableEq, Repr

/-- One neighbour of the replay table (R190, R191). -/
structure ReplayEntry where
  eui : Nat
  short : Nat
  sets : List ReplaySet
  heard : Nat
  deriving DecidableEq, Repr

/-- An entry of the seen-message cache (R185): its key, the stamp of its insertion, and the copies heard. -/
structure SeenEntry where
  origin : Nat
  mseq : Nat
  stamp : Nat
  copies : Nat
  deriving DecidableEq, Repr

/-- Where a transmission of the MAC assist is (R166). -/
inductive MacPhase where
  /-- Not begun. -/
  | queued
  /-- In a CSMA-CA backoff. -/
  | backoff
  /-- It waits for the frame counter's save (R189). -/
  | fcWait
  | air
  | ackWait
  deriving DecidableEq, Repr

/-- A transmission that the Ember engine arms on RF_ACT[6] or RF_ACT[7] (R90, R172): a beacon, a TT_REQ with its number, or a TT_RESP to a
short address with the request's number, t1 and t2. -/
inductive EngFrame where
  | beacon
  | ttReq (seq : Nat)
  | ttResp (dest seq t1 t2 : Nat)
  deriving DecidableEq, Repr

/-- A received frame that the MAC accepted: its header and the end of its SFD at the antenna, in die E's local time (R166). -/
structure MacRxd where
  mac : MacHdr
  stamp : Nat
  deriving DecidableEq, Repr

/-- An Imm-Ack that is due: addressee, DSN, and the frame-pending bit as it stood when the FCS was checked (R166). -/
structure AckDue where
  dest : Nat
  dsn : Nat
  pend : Bool
  deriving DecidableEq, Repr

/-- The sender of a frame that has passed its security check: short address, EUI-64, PAN, and the end of the frame's SFD (R188). -/
structure MeshAuth where
  src : Nat
  eui : Nat
  pan : Nat
  stamp : Nat
  deriving DecidableEq, Repr

/-- A frame of the MAC assist: its mesh frame, next hop (0xFFFF all neighbours, 0xFFFE the joiner `eui`), and the key
binding once secured (R192). -/
structure MacTx where
  frame : MeshHdr
  next : Nat
  eui : Nat
  ackReq : Bool
  pendBit : Bool
  phase : MacPhase
  backoffs : Nat
  be : Nat
  retries : Nat
  /-- Key slot, generation, frame counter and DSN, once the frame is secured. -/
  sealed : Option (Nat × Nat × Nat × Nat)
  desc : Option Nat
  ind : Option Nat
  /-- Place of the PSDU in die E SRAM, in bytes, its length, and once the frame is secured its octets. -/
  addr : Nat
  len : Nat
  psdu : List Byte
  /-- The key slot it was secured under has been erased since (R192). -/
  gone : Bool
  /-- `mono` at the end of its transmission, from which its ack is awaited (R166). -/
  since : Nat
  deriving DecidableEq, Repr

/-- The outgoing frame counter of a key slot: next value, value in the persistent store, and a save under way (R189). -/
structure FrameCounter where
  slot : Nat
  next : Nat
  saved : Nat
  saving : Option Nat
  deriving DecidableEq, Repr

/-- A beacon sender heard in a scan (R177). -/
structure ScanHit where
  src : Nat
  chan : Nat
  cost : Nat
  depth : Nat
  permit : Bool
  /-- NTIME of its beacon, and its interval in 100 ms units. -/
  ntime : Nat
  bcnInt : Nat
  deriving DecidableEq, Repr

/-- Where the node is between losing and finding a parent. -/
structure MeshJoin where
  /-- The scan's channel and `mono` at the start of its dwell. -/
  chan : Nat
  dwell : Nat
  hits : List ScanHit
  /-- The chosen parent and `mono` at its JOIN_REQ. -/
  target : Option (ScanHit × Nat)
  /-- Parents excluded after a failed join, with `mono` at the failure. -/
  excluded : List (Nat × Nat)
  deriving DecidableEq, Repr

/-- What the node knows of its parent (R174, R175). -/
structure MeshParent where
  /-- Predicted end of SFD of the next beacon, in local time. -/
  pred : Nat
  /-- Local time at the last beacon received. -/
  heard : Nat
  /-- The parent's interval in 100 ms units. -/
  bcnInt : Nat
  /-- Path delay of the last two-way exchange, ns (R86), and steps removed it announced. -/
  delay : Int
  steps : Nat
  /-- Own PATH_COST (R177). -/
  cost : Nat
  widened : Nat
  /-- `mono` at which the rejoin grace ends. -/
  grace : Option Nat
  deriving DecidableEq, Repr

/-- The lamp-mesh MAC assist and the Ember engine's mesh state beside their registers. -/
structure Mesh where
  /-- The received frame that the security check takes next, the acknowledgement that is due, and the sender of the frame that has just
  passed its security check (R166, R188). -/
  rxd : Option MacRxd
  ackTo : Option AckDue
  auth : Option MeshAuth
  children : List MeshChild
  pendKids : List PendChild
  /-- Coordinator: the address table (EUI-64, short address), in the persistent record store, and OK answers whose entry
  is still to be written (R164, R178). -/
  addrs : List (Nat × Nat)
  addrWait : List JoinInfo
  /-- Route table: address and neighbour (R181). -/
  routes : List (Nat × Nat)
  indq : List IndEntry
  nextInd : Nat
  replay : List ReplayEntry
  seen : List SeenEntry
  /-- Floods waiting for their jitter, and `mono` at its end (R185). -/
  rebro : List (MeshHdr × Nat)
  txq : List MacTx
  counters : List FrameCounter
  dsn : Nat
  floodSeq : Nat
  /-- `mono` of the floods originated in the last second (R186). -/
  floodAt : List Nat
  /-- The previous key slot, and `mono` at which its overlap ends (R192). -/
  prevKey : Option (Nat × Nat)
  /-- A sleepy child whose ack carried the frame-pending bit (R183). -/
  owed : Option Nat
  join : MeshJoin
  parent : MeshParent
  /-- What the Ember engine has armed on RF_ACT[6] and RF_ACT[7] (R90). -/
  eng : List (Fin 8 × EngFrame)
  /-- Local time of the last beacon prepared, and `mono` of a change that calls for an extra one (R173). -/
  lastBcn : Option Nat
  extraBcn : Option Nat
  /-- In EMBER, an open window for the parent's beacon: local time of its end, and the radio state to go back to (R174). -/
  window : Option (Nat × Nat)
  /-- Local time of the last status beacon armed in BANKED, and `mono` at the last two-way exchange (R86, R194). -/
  bankBcn : Nat
  lastTt : Nat
  deriving DecidableEq, Repr

/-! ## The access radio (R200 to R231) -/

/-- A reception of a partition: tentative until its header check passes (R215), with its power in 0.5 dB units. -/
structure PartRx where
  tentative : Bool
  power : Int
  deriving DecidableEq, Repr

/-- An immediate transmission that waits: its kind, its length in µs, and `mono` at its acceptance (R213). -/
structure PartWait where
  kind : Nat
  us : Nat
  since : Nat
  deriving DecidableEq, Repr

/-- A transmission of a partition: 0 an immediate PPDU, 1 a step of a TXOP, 2 one that follows another frame SIFS later, as a response,
an NDP or a BFRP trigger does, 3 a scheduled one (R210, R213, R220); the frames it carries
are the scheduler's. -/
structure PartTx where
  kind : Nat
  /-- Its length in µs, `mono` at its first sample, and `mono` after its last, at which the ramps down begin (R206). -/
  us : Nat
  start : Nat
  stop : Nat
  /-- The chains that send it, as (die, chains); and those muted during it, as (die, chain, `mono`) (R208). -/
  chains : List (Nat × Half)
  muted : List (Nat × Nat × Nat)
  /-- The action slot of a scheduled transmission (R213). -/
  slot : Option (Fin 8)
  /-- A chain was muted during it (R208). -/
  protect : Bool
  deriving DecidableEq, Repr

/-- Where SETTLE leads (R211): a state code, or a transmission that waits. -/
inductive PartGoal where
  | state (code : Nat)
  | tx (kind : Nat)
  deriving DecidableEq, Repr

/-- Beamforming weights for a group of stations, and `mono` when they were ready (R221). -/
structure WeightSet where
  stations : List Nat
  born : Nat
  /-- The weights themselves, as the one number that stands for them (R221). -/
  value : Nat
  deriving DecidableEq, Repr

/-- A sounding sequence: the stations named, and those whose report is written (R220). -/
structure Sounding where
  stations : List Nat
  reports : List Nat
  deriving DecidableEq, Repr

/-- An access partition, kept under its lead die (R201), beside its registers. -/
structure PartState where
  rx : Option PartRx
  tx : Option PartTx
  goal : PartGoal
  /-- The last transmission, whose ramps down may still run (R206). -/
  last : Option PartTx
  wait : Option PartWait
  cal : Option (BitVec 4)
  calDefer : Option (BitVec 4)
  /-- `mono` at the start of the calibration. -/
  calAt : Nat
  /-- The retune under way needs an inter-chain phase calibration (R209). -/
  needPhase : Bool
  /-- Entries of PHASE_TAB in order of last use, most recent first. -/
  phaseLru : List Nat
  /-- A channel change, or the end of the partition, waits for the end of the PPDU, the TXOP or the calibration; until then the channel in
  force is not that of PART_CHAN (R202, R209, R240). -/
  chanPend : Bool
  chanCur : Option Word
  stopPend : Bool
  /-- The actions that wait for the end of the PPDU, in the order of their instants (R228). -/
  blocked : List (Fin 8)
  /-- Dies of the partition whose tiles left service with a lost die (R202). -/
  gone : BitVec 6
  sounding : Option Sounding
  /-- Stations with a current channel-state record, and the weight sets (R220, R221). -/
  csr : List Nat
  weights : List WeightSet
  deriving DecidableEq, Repr

/-- A tile out of service for failed calibration steps (R219): bits 3:0 as CAL_CMD numbers the steps, which a run of CAL_CMD can
mend; bits 6:4 the steps of a radio start that CAL_CMD has not. -/
structure TileFail where
  die : Nat
  tile : Nat
  steps : BitVec 7
  deriving DecidableEq, Repr

/-- The access radios. -/
structure Acc where
  parts : List PartState
  /-- Radio dies whose sequencer engines hold the operational image (R375). -/
  fw : BitVec 6
  /-- The level of the BAND outputs of each die: high on the 5 and 6 GHz path (R205). -/
  band : BitVec 6
  tileFails : List TileFail
  deriving DecidableEq, Repr

/-! ## The access scheduler (R232 to R258) and the cipher pipes' key slots (R405) -/

/-- A key slot of the inline cipher pipes, 0 to 4,159. -/
structure PipeKey where
  slot : Nat
  valid : Bool
  suite : Nat
  key : List Word
  gen : Nat
  eraseGen : Nat
  /-- Next packet number to be sent; on a link slot the highest one sent. -/
  pn : Nat
  exhausted : Bool
  deriving DecidableEq, Repr

/-- An MPDU sent and not yet acknowledged (R252, R253). -/
structure Mpdu where
  tid : Nat
  sn : Nat
  frame : Frame
  /-- Key slot, generation and packet number it was encrypted with. -/
  key : Option (Nat × Nat × Nat)
  retries : Nat
  /-- The partition in whose PPDU it is now (R251). -/
  air : Option Nat
  deriving DecidableEq, Repr

/-- The receive side of a station's TID (R253, R254). -/
structure TidRx where
  tid : Nat
  /-- Window start, and sequence numbers marked received from there on. -/
  start : Nat
  got : List Nat
  /-- Frames held for order, by sequence number. -/
  held : List (Nat × Frame)
  /-- `mono` when the gap at the window start opened. -/
  gap : Option Nat
  lastSn : Option Nat
  lastPn : Nat
  deriving DecidableEq, Repr

/-- An entry of the station table that has been written, and what the scheduler keeps of the station (R233 to R235). -/
structure Station where
  idx : Nat
  /-- Words 0 to 7 of R235. -/
  words : List Word
  keyCur : Nat
  keyNext : Nat
  nextValid : Bool
  /-- Data airtime charged, ns; virtual time on each partition, ns modulo 2^32 (R243). -/
  airtime : Nat
  vtime : List Nat
  ps : Bool
  /-- A PS-Poll or U-APSD trigger that has not been served (R248). -/
  poll : Bool
  /-- `mono` at the last frame received, or at the entry's first write. -/
  heard : Nat
  sent : Nat
  rcvd : Nat
  dropped : Nat
  /-- Next sequence number of each TID (R251). -/
  txSn : List Nat
  tx : List Mpdu
  rx : List TidRx
  /-- TIDs whose window at the recipient needs a BAR (R253). -/
  bar : List Nat
  /-- Uplink backlog last reported, and `mono` of the report (R246). -/
  ul : Nat
  ulAt : Option Nat
  /-- REMOVE has been commanded: out of the candidate lists (R251). -/
  removing : Bool
  deriving DecidableEq, Repr

/-- A group key binding of partition × 16 + BSSID (R252). -/
structure GroupKey where
  idx : Nat
  cur : Nat
  next : Nat
  nextValid : Bool
  deriving DecidableEq, Repr

/-- A TWT entry in use (R250): its five words, whether its service periods are armed, and the TSF at which its open service
period began. -/
structure Twt where
  idx : Nat
  words : List Word
  armed : Bool
  opened : Option Nat
  /-- TSF of the last start that is not to be served again. -/
  done : Option Nat
  deriving DecidableEq, Repr

/-- An allocation of a plan: a station, its streams, the tones of its RU, and whether it is on the MU-MIMO RU (R244). -/
structure Alloc where
  sta : Nat
  streams : Nat
  tones : Nat
  mu : Bool
  deriving DecidableEq, Repr

/-- A standing plan (R241): stations to sound, the DL PPDU, and the UL step or a BSRP trigger. -/
structure Plan where
  sound : List Nat
  dl : List Alloc
  ul : List Alloc
  bsrp : Bool
  /-- Time the plan may take, µs; none when it cannot hold one exchange and is not run (R242). -/
  dur : Option Nat
  /-- Length of the DL PPDU, µs (R244). -/
  dlUs : Nat
  /-- The TXOP limit is 0: one DL or one UL exchange (R241). -/
  one : Bool
  /-- Deadline in ns and DROP_LATE of each TID of a DL station, as its profile stood when the plan was built (R238, R239). -/
  late : List (Nat × List (Option Nat × Bool))
  deriving DecidableEq, Repr

/-- A step of a TXOP that runs: 0 SOUND, 1 DL, 2 UL, 3 ACK. -/
structure Txop where
  ac : Nat
  /-- The plan that was standing when the TXOP was won (R241). -/
  plan : Plan
  steps : List Nat
  /-- The PPDU of the present step has been prepared. -/
  prepared : Bool
  /-- `mono` that the TXOP must not pass (R241, R242). -/
  ends : Nat
  deriving DecidableEq, Repr

/-- The scheduler of a partition beside its registers. -/
structure PartSched where
  plan : Plan
  /-- `mono` when the plan was built. -/
  built : Nat
  txop : Option Txop
  paused : Bool
  /-- A PAUSE waits for the end of the TXOP (R240). -/
  pauseReq : Bool
  /-- Nanoseconds of charged airtime not yet shown in AIRTIME. -/
  residue : Nat
  /-- Stations of an abandoned sounding sequence, due again (R247). -/
  soundAgain : List Nat
  deriving DecidableEq, Repr

/-- The access scheduler. -/
structure Sched where
  stations : List Station
  gkeys : List GroupKey
  twts : List Twt
  parts : List PartSched
  deriving DecidableEq, Repr

/-! ## The backhaul radio (R259 to R292) -/

/-- A map of one stream at one end: its letter (0 BASE, 1 A, 2 B, 3 OFF), identity and design mean in 0.5 dB (R272 to R274). -/
structure BhMap where
  letter : Nat
  id : Nat
  design : Int
  deriving DecidableEq, Repr

/-- One stream of a direction. -/
structure BhStream where
  /-- The map the peer's frames use, and the update sent and not yet taken up, with its K_AT_SWITCH (R273, R274). -/
  rx : BhMap
  rxPend : Option (BhMap × Nat)
  /-- TM_UPDATE is still sent: the peer's ACK_ID has not named it. -/
  sending : Bool
  /-- Identity of the last map computed for the stream. -/
  lastId : Nat
  /-- Identities of the receive and transmit tables A and B, with the design mean of the receive ones. -/
  rxIds : List (Nat × Int)
  txIds : List Nat
  /-- The map and K of own frames, and an update loaded that waits for its switch (R274, R276). -/
  tx : BhMap
  k : Nat
  txNext : Option (BhMap × Nat)
  ackId : Nat
  /-- Back-off that the peer asks for, and that this end asks for (R275). -/
  asked : Nat
  request : Nat
  /-- K of the peer's last frame. -/
  peerK : Nat
  /-- Mean SNR of the last four frames, newest first, 0.5 dB. -/
  snrs : List Int
  /-- The stream is OFF because the peer has set it OFF (R277). -/
  peerOff : Bool
  /-- Frames of the peer for which its OFF still answers this end's own OFF (R277). -/
  offHold : Nat
  deriving DecidableEq, Repr

/-- The beam search of a direction (R279). -/
structure BhSearch where
  /-- Cycles since it began. -/
  cycles : Nat
  /-- Best SNR, with the peer's transmit beam and the own receive beam. -/
  best : Option (Int × Nat × Nat)
  /-- Both ends have their pair: SEARCH_COMPLETE is due. -/
  found : Bool
  deriving DecidableEq, Repr

/-- A backhaul direction, number 2 × d + h (R259). -/
structure BhDir where
  streams : List BhStream
  search : BhSearch
  /-- A good header in the present cycle, cycles without one, cycles in LOST, and cycles the peer's SKIP still covers. -/
  good : Bool
  noGood : Nat
  lost : Nat
  peerSkip : Nat
  /-- Cycles begun since the direction was enabled, and the last one with a change under R276. -/
  cycle : Nat
  lastChange : Option Nat
  /-- A change that waits has been counted in DEFERRED. -/
  deferred : Bool
  /-- The next frame asks for BASE, or answers BASE_REQ (R277). -/
  baseReq : Bool
  baseAnswer : Bool
  /-- The next cycle start turns the direction OFF, begins a retune, or begins a calibration (R278, R283, R285). -/
  retune : Bool
  retuning : Bool
  calNext : Option (BitVec 4)
  cal : Option (BitVec 4 × Nat)
  /-- Timing advance of end B, in samples (R269). -/
  advance : Int
  /-- Own transmit and receive beams, and what the last frame probed: 1 PROBE, 2 PROBE_RX (R280). -/
  probed : Nat
  probeOdd : Bool
  /-- Probe results for the next header. -/
  foundLo : Int
  foundHi : Int
  /-- `mono` at the first sample of the frame that this cycle sends, and after its last (R264, R283). -/
  txSpan : Option (Nat × Nat)
  /-- The present noise window counts: no channel change since its start (R271). -/
  window : Bool
  /-- Cross-band link frames that wait for a frame of the direction, oldest first (R267, R293). -/
  outq : List (List Byte)
  /-- Cycle of end A's grid whose start has come (R264). -/
  grid : Option Nat
  /-- Arrival error of end B's last frame at end A, in samples (R269). -/
  arrival : Int
  deriving DecidableEq, Repr

/-- Why a step can stop with a fault. -/
inductive Fault where
  /-- A register access beyond the 64 MB of BAR0 and the memory windows (R37). Raised by the access commands that carry an offset
  (`REGISTER_WRITE`, `STAGED_WRITE`, `ACCESS_OFF`, `RC_COUNTER_READ`). Safe: the spec gives such an access no address to reach. -/
  | badOffset
  deriving DecidableEq, Repr

/-- Why a step can refuse. -/
inductive Refusal where
  /-- A command that has no meaning yet, named by its mnemonic; raised by `exec` alone. Safe. -/
  | notModelled (mnemonic : String)
  deriving DecidableEq, Repr

/-- The orderable parts (R1). -/
inductive Part where
  | px9602
  | px9604
  | px9606
  | px9608
  deriving DecidableEq, Repr

/-- The straps sampled at reset (R455): the part's place in a cascade. -/
structure Straps where
  /-- CASC_MST: the master part or a lone part. -/
  master : Bool
  /-- Position of the part in the cascade, 0 on the master. -/
  part : Nat
  deriving DecidableEq, Repr

/-! ## Commit groups (R54 to R68) -/

/-- States of a commit group (R62). -/
inductive GState where
  | free
  | opened
  | committed
  | armed
  | go
  | complete
  | aborted
  | held
  | frozen
  | waitSupply
  deriving DecidableEq, Repr

/-- One staged register write, already checked against its legal range (R57): its BAR0 offset, plus 64 MB × PART on a
subordinate part. -/
structure StagedWrite where
  addr : Nat
  value : Word
  deriving DecidableEq, Repr

/-- One staged table operation: the command register, the command word and the data registers captured with it (R54,
R335). -/
structure StagedTable where
  reg : Nat
  cmd : Word
  data : List Word
  deriving DecidableEq, Repr

/-- One participant's failed condition: the reason, and what TXN_INFO names (R31, R63). -/
structure Finding where
  reason : Nat
  die : Nat
  page : Nat
  off : Nat
  deriving DecidableEq, Repr

/-- One of the 16 group slots of the transaction unit (R55, R62, R63). -/
structure Group where
  /-- Generation, 0 until the slot is first opened. -/
  gen : Nat
  state : GState
  reason : Nat
  info : Word
  policy : Nat
  late : Bool
  unlocked : Bool
  clamped : Bool
  abortLate : Bool
  supply : Bool
  allowClamp : Bool
  notify : Bool
  /-- T, as low 32 bits of the seconds and nanoseconds. -/
  tS : Nat
  tNs : Nat
  /-- Ns from the scale T was named on to the present one: a group in GO completes on the old scale (R97). -/
  shift : Int
  /-- Local time of application. -/
  appS : Nat
  appNs : Nat
  writes : List StagedWrite
  tables : List StagedTable
  /-- Participants that have returned ARMED, by part and die (R29, R460). -/
  armedBy : List (Nat × Die)
  /-- Dies of this part that hold their share in shadows, with comparators armed (R29). -/
  shadowed : List Die
  /-- What the participants of this part found at PREP, to be reported at the vote (R29, R31). -/
  found : List Finding
  /-- The close at T minus 2 µs has passed with GO held and no CANCEL (R29). -/
  closed : Bool
  deriving DecidableEq, Repr

/-- A slot that has never been opened. -/
def Group.empty : Group :=
  { gen := 0, state := .free, reason := 0, info := 0, policy := 0, late := false, unlocked := false, clamped := false,
    abortLate := false, supply := false, allowClamp := false, notify := false, tS := 0, tNs := 0, shift := 0, appS := 0, appNs := 0,
    writes := [], tables := [], armedBy := [], shadowed := [], found := [], closed := false }

/-- The copy of TXN_TAG of one requester on one page (R56). -/
structure TagCopy where
  req : Requester
  page : Nat
  tag : Nat
  deriving DecidableEq, Repr

/-- The TXU registers held per requester (R55, R56). -/
structure TxuPort where
  req : Requester
  /-- TXN_OPENED, until it is read. -/
  opened : Word
  atimeS : Word
  atimeNs : Word
  deriving DecidableEq, Repr

/-- The share of a closed group that die E keeps when die C leaves STANDBY or RUN (R66). -/
structure KeptShare where
  slot : Fin 16
  tS : Nat
  tNs : Nat
  writes : List StagedWrite
  deriving DecidableEq, Repr

/-- The transaction unit. -/
structure Txu where
  groups : List Group
  ports : List TxuPort
  kept : List KeptShare
  deriving DecidableEq, Repr

/-! ## Logs and interrupt signalling (R48 to R50, R436, R486) -/

/-- One record of the event log (R486). -/
structure EvRec where
  die : Nat
  page : Nat
  code : Nat
  info : Word
  /-- Stamp: local time in ns and the epoch. -/
  time : Nat
  epoch : Nat
  kind : Nat
  part : Nat
  replayed : Bool
  num : Nat
  deriving DecidableEq, Repr

/-- The clamp record frozen for a requester by a read of CLAMP_FIELD (R48). -/
structure ClampFreeze where
  req : Requester
  page : Nat
  wrote : Word
  applied : Word
  deriving DecidableEq, Repr

/-- Logs: the global clamp log (R49), the event log and die E's buffer (R486, R487), and the frozen clamp records. -/
structure Logs where
  clamps : List (List Word)
  freezes : List ClampFreeze
  /-- Event log, newest first, at most 4,096. -/
  events : List EvRec
  /-- Record number of the next event. -/
  nextNum : Nat
  /-- Next slot written (EVT_HEAD bits 11:0). -/
  head : Nat
  /-- Die E's buffer, oldest first, at most 64. -/
  eBuf : List EvRec
  /-- The Ashpit intake queue, oldest first, at most 256 records (R483). -/
  intake : List (List Word)
  deriving DecidableEq, Repr

/-- The MSI-X capability of the host port (R50, R436). -/
structure Msix where
  enabled : Bool
  mask : BitVec 64
  pend : BitVec 64
  deriving DecidableEq, Repr

/-! ## Time (R69 to R103, R509) -/

/-- A step of local time named by the NTU for an instant 20 µs ahead (R87). -/
structure StepMsg where
  /-- The instant, in ns of the old scale. -/
  instant : Nat
  /-- The change of local time, in ns. -/
  delta : Int
  /-- The epoch advances with the step (not at initial adoption, R78). -/
  advance : Bool
  deriving DecidableEq, Repr

/-- What the NTU knows of one source (R76). -/
structure SrcRec where
  num : Nat
  /-- `mono` at its last valid measurement. -/
  last : Nat
  /-- Rank of its grandmaster by the data-set comparison; lower is better. -/
  gmRank : Nat
  steps : Nat
  /-- Its server is LOCKED (R84). -/
  locked : Bool
  deriving DecidableEq, Repr

/-- The servo and quality memory of a timekeeper: the NTU, and die E while it keeps time alone (R73, R88, R97). -/
structure Keeper where
  sources : List SrcRec
  /-- The selected source, and that no measurement of it has been judged since its selection (R97). -/
  sel : Option Nat
  newSel : Bool
  /-- The source selected last, which stays when it is lost: its return is no new selection (R97). -/
  lastSel : Option Nat
  /-- The last 16 valid offsets, newest first (R73). -/
  recent : List Int
  /-- The measurement before lay more than 1 µs from the mean. -/
  prevFar : Bool
  /-- Consecutive valid measurements within the lock threshold. -/
  lockRun : Nat
  /-- Consecutive valid measurements beyond the unlock threshold. -/
  unlockRun : Nat
  /-- Consecutive valid measurements beyond ±1 ms. -/
  stepRun : Nat
  lastOfs : Int
  /-- The offset before the last, of die E's corrections (R88). -/
  priorOfs : Int
  /-- The source of the last step, and the refused sources (R99). -/
  stepSrc : Nat
  refused : List Nat
  /-- `mono` at entry to the present HOLDOVER, and the length in s of the last one (R75). -/
  holdFrom : Option Nat
  holdLast : Nat
  /-- `mono` at the last correction, and whether each of the last three lay within LOCK_THR_SUB (R88). -/
  lastCorr : Option Nat
  corr3 : List Bool
  /-- Time has come from the mesh, or from die C at a quality other than FREERUN, since the last reset of die E (R88). -/
  taught : Bool
  deriving DecidableEq, Repr

/-- An outstanding two-way exchange of Lanivy time transfer (R83); `link` 8 is the mesh parent. -/
structure TtExchange where
  link : Nat
  seq : Nat
  member : Nat
  t1 : Nat
  /-- `mono` when TT_REQ left. -/
  sent : Nat
  deriving DecidableEq, Repr

/-- Time: every die's copy of local time, the epoch, the two keepers, a pending step and open exchanges. -/
structure Time where
  /-- Local time of die C, die E, D0 to D5, in ns of the NTIME scale (R18, R69). -/
  clk : Vector Nat 8
  /-- Sub-nanosecond phase of local time, in ns times 2^-16 ppm: a ns holds 65,536,000,000 of them (R69, R77). -/
  phase : Nat
  /-- The servo's frequency estimate of the source in force, in 2^-16 ppm (R75, R77, R88). -/
  rate : Int
  epoch : BitVec 8
  ntu : Keeper
  rtc : Keeper
  step : Option StepMsg
  /-- Phase that the servo still removes by frequency, in the units of `phase` (R77). -/
  slew : Int
  /-- Outstanding exchanges, the oldest first. -/
  exchanges : List TtExchange
  /-- `mono` before which a cross-band link sends no further TT_REQ, by its exchange rate (R83). -/
  ttNext : Vector Nat 8
  /-- How often the selected source has changed: the grandmaster's data set is free for each selection (R84). -/
  gm : Nat
  /-- Exchange number of the next TT_REQ. -/
  ttSeq : Nat
  deriving DecidableEq, Repr

/-! ## Power, reset, self-test, supplies, GPIO (R104 to R129) -/

/-- Where the part is in the reset sequence of R116. -/
inductive ResetPhase where
  /-- OFF: nothing runs. -/
  | off
  /-- Die E held in reset. -/
  | held
  /-- Die E released: crystal start and self-test. -/
  | testing
  /-- The sequence has ended; registers are reachable. -/
  | done
  deriving DecidableEq, Repr

/-- A power transition in progress (R109). -/
structure Transition where
  /-- State code being entered. -/
  target : Nat
  /-- State code it began from. -/
  origin : Nat
  /-- PWR_CMD value that began it. -/
  cmd : Word
  /-- `mono` at acceptance. -/
  start : Nat
  /-- Kindle has not yet ended. -/
  kindle : Bool
  /-- Radio dies whose radio start has not yet ended. -/
  adding : BitVec 6
  /-- A DRAM self-refresh entry (some true) or exit (some false) in progress. -/
  sr : Option Bool
  /-- A power-down or a radio stop in progress. -/
  down : Bool
  /-- `mono` when a supply warning paused it (R114). -/
  paused : Option Nat
  /-- Radio dies that the pause holds at the end of their self-test (R114). -/
  wait : BitVec 6
  /-- `mono` at the end of the supply ramp in progress: 6 ms of Kindle, 4 ms of a radio start (R111, R112). -/
  ramp : Option Nat
  /-- Radio dies whose radio start has ended, and an exit of self-refresh that has ended, while a pause holds the transition there. -/
  ended : BitVec 6
  srEnded : Bool
  deriving DecidableEq, Repr

/-- One general-purpose pin (R128). -/
structure Pin where
  /-- The level counted last. -/
  counted : Bool
  /-- A new level waiting for its debounce: `mono` and the stamp at its first sample. -/
  since : Option (Nat × Nat)
  deriving DecidableEq, Repr

/-- Power manager, reset and self-test. -/
structure Power where
  phase : ResetPhase
  trans : Option Transition
  /-- The role each radio die copied at its release (R23, R113). -/
  role : Vector Role 6
  /-- The board enables EN_D0 to EN_D5 that are asserted (R105). -/
  en : BitVec 6
  /-- Radio dies released from reset. -/
  released : BitVec 6
  /-- Die C has been released from reset. -/
  cUp : Bool
  /-- Dies whose self-test is running, with `mono` at their release (R119). -/
  tests : List (Die × Nat)
  /-- Users of the 40 MHz crystal in EMBER: bit 0 sub-GHz radio, 1 AES engine, 2 Ember engine, 3 a die E action (R106). -/
  oscUsers : BitVec 4
  /-- The 40 MHz crystal is usable at ±20 ppm (R106). -/
  x40Usable : Bool
  /-- The DRAM is retained in self-refresh while die C is off (R110, R117). -/
  retained : Bool
  /-- Consecutive failed retries of the Ember link and of each core link (R16). -/
  flueRetry : Vector Nat 7
  /-- `mono` at the last declaration of each monitor's warning (R28, R94). -/
  warnAt : Vector Nat 8
  /-- TEMP_HIGH of each die has been raised and its temperature has not since fallen 5 °C below HIGH (R505). -/
  hot : BitVec 8
  pins : List Pin
  deriving DecidableEq, Repr


/-! ## Cross-band links (R293 to R316) -/

/-- A dispatched DATA frame that no ACK has marked (R305). -/
structure XblSent where
  seq : Nat
  pn : Nat
  cls : Nat
  /-- SEQ of the class's DATA frame before it; none for the first since the enable. -/
  prev : Option Nat
  /-- Octets of the frame; and its ciphertext with the tag. -/
  len : Nat
  cipher : List Byte
  /-- The key slot and generation it is bound to, and the KEY_PHASE it bears (R313). -/
  slot : Nat
  gen : Nat
  phase : Bool
  dup : Bool
  /-- Member of its last transmission, its place among the link's transmissions, and `mono` then. -/
  member : Nat
  order : Nat
  last : Nat
  retx : Nat
  /-- It waits to be retransmitted, ahead of its class's new frames. -/
  ready : Bool
  deriving DecidableEq, Repr

/-- A DATA frame held for order, with `mono` at its arrival (R302). -/
structure XblHeld where
  seq : Nat
  cls : Nat
  prev : Nat
  frame : Frame
  since : Nat
  deriving DecidableEq, Repr

/-- A member of a link: `mono` since when its conditions are clear, when the peer was last heard on it, and at its last health
report (R308, R309). -/
structure XblMember where
  clear : Nat
  heard : Nat
  report : Nat
  deriving DecidableEq, Repr

/-- A traffic class of a link: the member it uses, `mono` since when its new frames wait for a move (R307), PREV of its next
frame, and L_c (R302). -/
structure XblClass where
  cur : Option Nat
  wait : Option Nat
  prev : Option Nat
  last : Option Nat
  deriving DecidableEq, Repr

/-- A cross-band link context. -/
structure XblLink where
  /-- Next SEQ to assign, and WRAP of the key in use (R298, R300). -/
  next : Nat
  wrap : Nat
  /-- Transmissions so far. -/
  sends : Nat
  phase : Bool
  stall : Bool
  store : List XblSent
  classes : List XblClass
  members : List XblMember
  /-- H, and the sequences accepted within 65,536 of it (R301). -/
  high : Option Nat
  got : List Nat
  held : List XblHeld
  /-- Starts of the blocks that changed since they were last acknowledged, newest first, and `mono` of the last ACK (R304). -/
  changed : List Nat
  ackAt : Option Nat
  /-- Wraps of received frames under CUR and NEXT. -/
  wrapCur : Nat
  wrapNext : Nat
  /-- The previous key: its slot, its wrap, and the `mono` until which the other phase selects it (R313). -/
  prevKey : Option (Nat × Nat × Nat)
  /-- Channel of member 1's partition at the enable (R309). -/
  chan : Word
  deriving DecidableEq, Repr


/-! ## Engines and the Grate (R352 to R378) -/

/-- A line of an engine's D-cache: in DRAM or shared SRAM, its address, whether it is dirty, and its 64 bytes. -/
structure CacheLine where
  dram : Bool
  addr : Nat
  dirty : Bool
  bytes : List Byte
  deriving DecidableEq, Repr

/-- A firmware engine beside its registers. -/
structure Engine where
  /-- PREEMPTED tasks it holds, the last one first. -/
  held : List Nat
  /-- It runs its start-up task, outside the Grate (R358). -/
  startup : Bool
  /-- Its task has ended, and it has not yet taken another (R371). -/
  ending : Bool
  /-- It saves its task's context for this task (R371). -/
  saving : Option Nat
  /-- `mono` at its entry into RUNNING, at the last reading of ENG_BUSY since, and at the start of its task. -/
  since : Nat
  busyFrom : Nat
  taskFrom : Nat
  dcache : List CacheLine
  /-- Local SRAM, 256 KB, canonical. -/
  sram : List (Nat × Byte)
  deriving DecidableEq, Repr

/-- A task descriptor that has been written (R366): words 0 to 5, state code, generation, EARLY, last engine, its place among the
READY tasks (lower is older), and the source of its last decrement (R373). -/
structure Task where
  idx : Nat
  words : List Word
  state : Nat
  gen : Nat
  early : Nat
  engine : Nat
  place : Int
  src : Nat
  deriving DecidableEq, Repr

/-- The Grate (R366 to R373). -/
structure Grate where
  tasks : List Task
  /-- Place of the next task to become READY, and of the next one to return to the head. -/
  next : Int
  head : Int
  /-- READY tasks already considered and not placed (R370). -/
  skip : List Nat
  /-- Standing of each group in the weighted round robin (R370). -/
  wrr : List (Nat × Int)
  /-- `mono` at the last expiry of each timer, or when its PERIOD was written. -/
  timers : List Nat
  /-- Number of the next trace record (R373). -/
  recNum : Nat
  deriving DecidableEq, Repr

/-- The Ember engine's image store (R374): its SRAM, and a switch that waits for the end of its mesh event. -/
structure Ember where
  sram : List (Nat × Byte)
  switching : Bool
  deriving DecidableEq, Repr


/-! ## DMA, AES and DRAM (R379 to R402, R409 to R429) -/

/-- A DMA channel beside its registers (R381 to R392). -/
structure DmaChan where
  /-- Words 0 to 11 of the descriptor in progress. -/
  desc : List Word
  /-- Bytes of its streams moved or compared. -/
  pos : Nat
  /-- Every byte of it has been moved; its end is due. -/
  tail : Bool
  /-- An ABORT waits for the descriptor's end. -/
  abort : Bool
  /-- Requests that wait, and whether the level lets the channel move (R386, R387). -/
  reqs : Nat
  go : Bool
  /-- The descriptor CH_CUR names has not been read: a freeze of the DRAM refused it (R391). -/
  unread : Bool
  deriving DecidableEq, Repr

/-- The DMA controller: its channels, and the channel of each class served last (R380). -/
structure Dma where
  chans : List DmaChan
  lastRadio : Nat
  lastHost : Nat
  deriving DecidableEq, Repr

/-- A key slot of the byte-serial AES engine: its key, and the retired copy with its length bit and generation (R399). -/
structure AesSlot where
  key : List Word
  retired : Option (List Word × Bool × Nat)
  deriving DecidableEq, Repr

/-- An AES context beside CTX_STAT (R397): it has started a block; its pending block's order and operation. -/
structure AesCtx where
  started : Bool
  order : Nat
  decrypt : Bool
  deriving DecidableEq, Repr

/-- A block in the AES engine: its context, key, input and operation; `live` is cleared when the context closes. -/
structure AesRun where
  ctx : Nat
  key : List Word
  input : List Word
  decrypt : Bool
  prio : Nat
  live : Bool
  deriving DecidableEq, Repr

/-- The byte-serial AES engine. -/
structure Aes where
  slots : List AesSlot
  ctxs : List AesCtx
  run : Option AesRun
  /-- Priority held for the context that finished, and the `mono` until which (R398). -/
  hold : Option (Nat × Nat × Nat)
  order : Nat
  deriving DecidableEq, Repr

/-- A DRAM access that waits: requester kind and instance (R428), address, length, and what it writes. -/
structure DramReq where
  /-- `mono` at its arrival (R434). -/
  since : Nat
  kind : Nat
  inst : Nat
  addr : Nat
  len : Nat
  write : Option (List Byte)
  deriving DecidableEq, Repr

/-- The DRAM controller beside its registers. -/
structure DramCtl where
  /-- Data rates with training results, and the target of a pending or running set-point change (R414, R416). -/
  trained : BitVec 4
  target : Option Nat
  /-- Accesses held, in order (R422). -/
  held : List DramReq
  /-- Poisoned lines, by address / 64 (R424). -/
  poison : List Nat
  /-- The line whose error froze the controller. -/
  failed : Nat
  /-- Refreshes owed by a bank of a channel: channel × 64 + bank (R417). -/
  owed : List (Nat × Nat)
  /-- `mono` and die C's temperature at the last retraining, `mono` at the last patrol pass. -/
  trainAt : Nat
  trainTemp : Int
  scrubAt : Nat
  /-- DRAM_CFG and the current set point while the retained DRAM keeps data and die C is unpowered (R413, R426). -/
  kept : Option (Word × Nat)
  deriving DecidableEq, Repr

/-! ## Host port and bypass watchdog (R437, R450) -/

/-- The host port beside its registers: PCIE_PERST_N is asserted; the port is ready (R437); and the high words that reads of byte
counters' low words have latched, by BAR0 offset (R447). -/
structure HostPort where
  perst : Bool
  ready : Bool
  high : List (Nat × Word)
  deriving DecidableEq, Repr

/-- The bypass watchdog beside BYP_STAT (R450): `mono` at the last servicing kick with the period in force, in ns; and that the
next kick is the first since a reset or an expiry. -/
structure Byp where
  serviced : Option Nat
  period : Nat
  first : Bool
  deriving DecidableEq, Repr

/-! ## Actions (R90 to R96) -/

/-- An action that holds a queue entry: PENDING, HELD or FROZEN, or deferred by a supply warning. What it carries was
captured at its arming. -/
structure PendAct where
  slot : ActSlot
  tS : Nat
  tNs : Nat
  desc : Word
  /-- ACT_FRAME, ACT_LEVEL or ACT_CHAN, where the block has one. -/
  extra : Word
  /-- Its execution has begun at its preparation instant (R96, R148). -/
  began : Bool
  deriving DecidableEq, Repr

/-! ## Lamp outputs (R466 to R480) -/

/-- A fade of a PWM output: from, to, periods in all and periods done (R472). -/
structure Fade where
  start : Nat
  goal : Nat
  steps : Nat
  done : Nat
  deriving DecidableEq, Repr

/-- One lamp output. -/
structure LampOut where
  /-- The applied level (R467); after a scene it is unknown (R477). -/
  level : Option Nat
  /-- In failsafe until a level is written (R35, R470). -/
  fs : Bool
  /-- A change waits for the next PWM period boundary, with a fade or without (R472). -/
  change : Option Bool
  fade : Option Fade
  /-- The period of local time, counted from second 0, whose boundary was the last to act (R472). -/
  period : Option Nat
  /-- The failsafe level in die E's persistent record store, and a copy to it under way (R468). -/
  stored : Nat
  storing : Bool
  deriving DecidableEq, Repr

/-- A queued DALI frame (R475). -/
structure DaliFrame where
  frame : Nat
  long : Bool
  answer : Bool
  twice : Bool
  collisions : Nat
  deriving DecidableEq, Repr

/-- What a DALI channel has on its bus. -/
inductive DaliBus where
  | idle
  | level (frame : Nat)
  | queued (f : DaliFrame)
  deriving DecidableEq, Repr

/-- One DALI-2 channel (R473 to R476). -/
structure DaliChan where
  /-- The level frame that has not started: its 16-bit frame and the level, none for a scene. -/
  waiting : Option (Nat × Option Nat)
  bus : DaliBus
  queue : List DaliFrame
  results : List Word
  deriving DecidableEq, Repr

/-- The lamp-output block. -/
structure Lamp where
  outs : List LampOut
  chans : List DaliChan
  /-- `mono` at the last kick of the host-loss watchdog while it counts (R471). -/
  kick : Option Nat
  deriving DecidableEq, Repr

/-- What the part sends outside: the model's record of effects that leave the block. -/
inductive Out where
  /-- An MSI-X message of a vector (R50). -/
  | msix (v : Nat)
  /-- A time-class message of the commit protocol to a die: 1 PREP, 2 VOTE, 3 GO, 4 CANCEL (R29). -/
  | commit (kind : Nat) (slot : Nat)
  /-- A frame on DALI channel `c` (R474, R475). -/
  | dali (c : Nat) (frame : Nat) (long : Bool)
  /-- A sub-GHz transmission (R145). -/
  | rf (tx : SgEmit)
  /-- The unmodulated probe of a tuner sweep at −20 dBm: its carrier in kHz (R156). -/
  | sgProbe (khz : Nat)
  /-- A message naming a step of local time for an instant (R87). -/
  | stepMsg (instant : Nat)
  /-- A TT_REQ on a cross-band link, or on the mesh as link 8 (R83). -/
  | ttReq (link seq t1 : Nat)
  /-- A TT_RESP with its stamps, and FLAGS (R83, R84). -/
  | ttResp (link seq t1 t2 t3 flags : Nat)
  /-- The receive descriptor of a stamped Ethernet frame: port and NTIME words (R80). -/
  | ptpRx (port : Nat) (stamp : List Word)
  /-- A departing Sync or Delay_Resp: port, domainNumber, stamp inserted, correctionField fraction in 2^-16 ns, and what happens to the
  UDP checksum: 0 none, 1 zeroed, 2 corrected (R79, R80). -/
  | ptpTx (port domain : Nat) (sync : Bool) (stamp : Nat) (frac : Nat) (udp : Nat)
  /-- A mesh frame to a next hop, as its secured PSDU (R168). -/
  | mesh (next eui : Nat) (frame : MeshHdr) (psdu : List Byte)
  /-- An Imm-Ack with its frame-pending bit (R166). -/
  | immAck (dest : Nat) (pend : Bool)
  /-- A beacon payload (R170). -/
  | beacon (payload : List Byte)
  /-- A mesh frame handed to the sub-GHz mesh port of the forwarding pipelines (R181). -/
  | meshToFwd (frame : MeshHdr)
  /-- The sub-GHz member of a cross-band link hands a frame to the cross-band link unit (R296). -/
  | meshToXbl (src : Nat) (payload : List Byte)
  /-- A PPDU of a partition: 0 immediate, 1 step of a TXOP, 2 SIFS after another frame, 3 scheduled; its µs, the chains of each die that
  send it, and the gain trim of each chain in 0.25 dB (R206, R208, R226). -/
  | ppdu (part kind us : Nat) (chains : List (Nat × Half)) (gains : List (Nat × List Int))
  /-- A step of a start-up calibration sends its CW probe, for 1 ms on each chain of the die (R217). -/
  | feProbe (die step : Nat)
  /-- The content of a sounding frame: an NDPA's stations; an NDP's dimensions; a BFRP trigger's stations, with the grouping and codebook
  of their feedback (R220). -/
  | ndpa (part : Nat) (stations : List Nat)
  | ndp (part dims : Nat)
  | bfrp (part : Nat) (stations : List Nat) (ng cb : Bool)
  /-- A trigger of a TXOP's UL step: Basic, or else BSRP; each user's station, streams and tones, and the target RSSI that UL_CFG names (R241, R246). -/
  | trigger (part : Nat) (basic : Bool) (users : List (Nat × Nat × Nat)) (rssi : Nat)
  /-- A frame leaves an egress port: a ring, local, host or Korub port (R345). -/
  | egress (port : Nat) (frame : Frame)
  /-- A BAR, or MU-BAR, to a station's TID (R253). -/
  | bar (part sta tid : Nat)
  /-- An acknowledgement, or a bitmap bit, for a received MPDU (R253). -/
  | mpduAck (part sta tid sn : Nat)
  /-- An MPDU in a PPDU: its station, TID, sequence number, and key slot with packet number (R252). -/
  | mpdu (part sta tid sn : Nat) (key : Option (Nat × Nat)) (frame : Frame)
  /-- A group-addressed frame in a PPDU. -/
  | group (part bssid : Nat) (key : Option (Nat × Nat)) (frame : Frame)
  /-- A frame received from a lent partition's peer goes to the cross-band link unit (R295). -/
  | partToXbl (link : Nat) (frame : Frame)
  /-- A backhaul frame of a direction: the octets of its header and the information octets of its codewords; a training frame of a search
  has no codewords (R267, R268, R270). -/
  | bhFrame (dir : Nat) (header : List Byte) (words : List (List Byte))
  /-- A serial word to a head, and a STROBE (R261). -/
  | headWrite (dir addr data : Nat)
  | strobe (dir : Nat)
  /-- A backhaul frame ends in its ramp-down, with outcome SUPPLY (R283). -/
  | bhCut (dir : Nat)
  /-- An XBL frame of a link leaves on a member: its octets (R297, R298). -/
  | xbl (link member : Nat) (octets : List Byte)
  /-- A write to host memory over PCI Express (R382, R392). -/
  | hostWrite (addr : Nat) (octets : List Byte)
  /-- A DRAM read's data, or the error it ends in, to its requester by kind and instance (R420, R422, R428). -/
  | dramData (kind inst : Nat) (octets : List Byte)
  | dramError (kind inst addr : Nat)
  /-- A transaction's answer on SPI_MISO: STATUS, its complement, and for a read the words and the CRC-16 (R440). -/
  | spi (octets : List Byte)
  /-- A PCI Express read ends with Completer Abort status (R434). -/
  | completerAbort (addr : Nat)
  /-- A write through the cascade window to part `part` (R458). -/
  | cascWrite (part addr : Nat) (w : Word)
  /-- A byte access to the module of a ring port (R448): port, module register, device address, byte, direction. -/
  | sfpI2c (port reg dev data : Nat) (read : Bool)
  /-- A Flue message is delivered on its destination die, in the order of the classes (R14). -/
  | flue (dst : Die) (cls : FlueClass) (addr : Nat) (word : Word)
  deriving DecidableEq, Repr

/-- The whole machine. -/
structure State where
  part : Part
  straps : Straps
  /-- The commands that are waiting, first in, first out. -/
  pending : List Instr
  /-- The words the last read access answered. -/
  resp : List Word
  /-- What the part has sent outside since reset, newest first (the model's own field). -/
  outbox : List Out
  /-- Free values drawn so far (the model's own field). -/
  fresh : Nat
  /-- Nanoseconds of elapsed time, counted by the idle step: the base of every duration (the model's own field). -/
  mono : Nat
  /-- Registers that differ from their reset values, by BAR0 offset, in canonical form. -/
  regs : List (Nat × Word)
  /-- Copies of TXN_TAG that are not 0 (R56). -/
  tags : List TagCopy
  txu : Txu
  logs : Logs
  msix : Msix
  time : Time
  power : Power
  /-- Pending actions in the order in which they were armed (R90, R95). -/
  actq : List PendAct
  lamp : Lamp
  sub : Sub
  mesh : Mesh
  acc : Acc
  qm : Qm
  fwd : Fwd
  sched : Sched
  /-- Backhaul directions 0 to 11. -/
  bh : List BhDir
  /-- Cross-band links 0 to 7. -/
  xbl : List XblLink
  engines : List Engine
  grate : Grate
  ember : Ember
  /-- The 8 MB shared SRAM of die C (R352), in canonical form. -/
  shared : List (Nat × Byte)
  dma : Dma
  /-- Capture and channel-state memory of the radio dies (R382), each canonical. -/
  radioMem : List (List (Nat × Byte))
  aes : Aes
  ddr : DramCtl
  hport : HostPort
  byp : Byp
  /-- Events of hardware sources that the Grate has not yet counted, by source code (R368). -/
  srcq : List Nat
  /-- Key slots of the inline cipher pipes that have been installed or erased (R405). -/
  pipeKeys : List PipeKey
  /-- Frames the pipes have carried in the last ms: pipe, `mono`, octets (PIPE_LOAD, R408). -/
  pipeLog : List (Nat × Nat × Nat)
  /-- Registers a page holds per requester (R332), by requester and BAR0 offset, in canonical form. -/
  perReq : List (Nat × Word)
  /-- The DRAM array (R409), in canonical form. -/
  dram : List (Nat × Byte)
  /-- The 256 KB frame SRAM of die E (R141). -/
  esram : List (Nat × Byte)
  deriving DecidableEq, Repr

/-! ## The state after reset -/

/-- An engine with nothing on it. -/
def Engine.fresh : Engine :=
  { held := [], startup := false, ending := false, saving := none, since := 0, busyFrom := 0, taskFrom := 0, dcache := [], sram := [] }

/-- The Grate with no task, at a `mono`. -/
def Grate.fresh (mono : Nat) : Grate :=
  { tasks := [], next := 0, head := -1, skip := [], wrr := [], timers := List.replicate 8 mono, recNum := 0 }

/-- A link context after a reset or an enable. -/
def XblLink.fresh (chan : Word) (mono : Nat) : XblLink :=
  { next := 0, wrap := 0, sends := 0, phase := false, stall := false, store := [],
    classes := List.replicate 8 { cur := none, wait := none, prev := none, last := none },
    members := List.replicate 3 { clear := mono, heard := mono, report := mono }, high := none, got := [], held := [], changed := [],
    ackAt := none, wrapCur := 0, wrapNext := 0, prevKey := none, chan := chan }

/-- The BASE map. -/
def BhMap.base : BhMap := { letter := 0, id := 0, design := 0 }

/-- A stream that has just entered UP (R278). -/
def BhStream.fresh : BhStream :=
  { rx := BhMap.base, rxPend := none, sending := false, lastId := 0, rxIds := [(0, 0), (0, 0)], txIds := [0, 0], tx := BhMap.base, k := 0,
    txNext := none, ackId := 0, asked := 0, request := 0, peerK := 0, snrs := [], peerOff := false, offHold := 0 }

/-- A direction that is OFF. -/
def BhDir.off : BhDir :=
  { streams := [BhStream.fresh, BhStream.fresh], search := { cycles := 0, best := none, found := false }, good := false, noGood := 0,
    lost := 0, peerSkip := 0, cycle := 0, lastChange := none, deferred := false, baseReq := false, baseAnswer := false, retune := false,
    retuning := false, calNext := none, cal := none, advance := 0, probed := 0, probeOdd := false, foundLo := 0, foundHi := 0, txSpan := none,
    window := false, outq := [], grid := none, arrival := 0 }

/-- A partition that does nothing; its radio goes to IDLE (code 1) when it locks. -/
def PartState.empty : PartState :=
  { rx := none, tx := none, last := none, goal := .state 1, wait := none, cal := none, calDefer := none, calAt := 0, needPhase := false,
    phaseLru := [], chanPend := false, chanCur := none, stopPend := false, blocked := [], gone := 0, sounding := none, csr := [],
    weights := [] }

/-- The scheduler of a partition with no plan. -/
def PartSched.fresh : PartSched :=
  { plan := { sound := [], dl := [], ul := [], bsrp := false, dur := none, dlUs := 0, one := false, late := [] }, built := 0, txop := none, paused := false,
    pauseReq := false, residue := 0, soundAgain := [] }

/-- The access scheduler with nothing entered. -/
def Sched.fresh : Sched := { stations := [], gkeys := [], twts := [], parts := List.replicate 6 PartSched.fresh }

/-- The queue manager with every queue empty. -/
def Qm.fresh : Qm := { queues := [], nextNum := 0, drr := [], paused := [] }

/-- The forwarding tables, empty, at a `mono`. -/
def Fwd.fresh (mono : Nat) : Fwd :=
  { em := { slots := [], seq := 0, relocs := 0, mark := false, sweep := none, walks := [], learnq := [], lastAge := mono, lastScrub := mono },
    lpm := { prefixes := [], staged := [], nextHops := [], walks := [] }, vlans := [] }

/-- A channel that has done nothing. -/
def DmaChan.fresh : DmaChan := { desc := [], pos := 0, tail := false, abort := false, reqs := 0, go := false, unread := false }

/-- The DMA controller with no channel active. -/
def Dma.fresh : Dma := { chans := List.replicate 32 DmaChan.fresh, lastRadio := 15, lastHost := 15 }

/-- A key slot that holds nothing. -/
def AesSlot.fresh : AesSlot := { key := [], retired := none }

/-- A context that is FREE. -/
def AesCtx.fresh : AesCtx := { started := false, order := 0, decrypt := false }

/-- The engine at a release of die E. -/
def Aes.fresh : Aes :=
  { slots := List.replicate 16 AesSlot.fresh, ctxs := List.replicate 8 AesCtx.fresh, run := none, hold := none, order := 0 }

/-- The DRAM controller at a power-up of die C, at a `mono`. -/
def DramCtl.fresh (mono : Nat) : DramCtl :=
  { trained := 0, target := none, held := [], poison := [], failed := 0, owed := [], trainAt := mono, trainTemp := 0, scrubAt := mono,
    kept := none }

/-- A timekeeper that knows no source. -/
def Keeper.fresh : Keeper :=
  { sources := [], sel := none, newSel := false, lastSel := none, recent := [], prevFar := false, lockRun := 0, unlockRun := 0, stepRun := 0,
    lastOfs := 0, priorOfs := 0, stepSrc := 0, refused := [], holdFrom := none, holdLast := 0, lastCorr := none, corr3 := [], taught := false }

/-- The sub-GHz radio in SLEEP. -/
def Sub.fresh : Sub :=
  { rx := none, tx := none, goal := .idle, wait := none, cal := none, calDefer := none, calAt := 0, started := false, calRef := false, retune := false, lowRl := 0,
    trim := none, chanPend := false, prepared := none, blocked := [], ackDue := false, rearm := none, protect := false, prepPsdu := [],
    lockAt := 0, txExt := false, txFrom := 0, txTo := 0, xpaTo := 0, trswTo := 0, edAt := 0, edFor := 0, trimClr := false }

/-- The mesh with no parent, no child and no key counter. -/
def Mesh.fresh : Mesh :=
  { rxd := none, ackTo := none, auth := none, children := [], pendKids := [], addrs := [], addrWait := [], routes := [], indq := [], nextInd := 0, replay := [],
    seen := [], rebro := [], txq := [], counters := [], dsn := 0, floodSeq := 0, floodAt := [], prevKey := none, owed := none,
    join := { chan := 0, dwell := 0, hits := [], target := none, excluded := [] },
    parent := { pred := 0, heard := 0, bcnInt := 0, delay := 0, steps := 0, cost := 0xFFFF, widened := 0, grace := none },
    eng := [], lastBcn := none, extraBcn := none, window := none, bankBcn := 0, lastTt := 0 }

/-- A lamp output held at its stored failsafe level, undriven while disabled (R466, R468). -/
def LampOut.fresh (stored : Nat) : LampOut :=
  { level := some stored, fs := true, change := none, fade := none, period := none, stored := stored, storing := false }

/-- A DALI channel with nothing on its bus. -/
def DaliChan.fresh : DaliChan := { waiting := none, bus := .idle, queue := [], results := [] }

/-- The failsafe levels a part leaves the factory with (R468). -/
def factoryLevels : List Nat := [254, 254, 65535, 65535, 65535, 65535]

/-- The machine with die E held in reset: no register differs from its reset value, and nothing is kept but the levels of die E's
persistent record store. -/
def State.held (p : Part) (st : Straps) (levels : List Nat) : State :=
  { part := p, straps := st, pending := [], resp := [], outbox := [], fresh := 0, mono := 0, regs := [], tags := [],
    txu := { groups := List.replicate 16 Group.empty, ports := [], kept := [] },
    logs := { clamps := [], freezes := [], events := [], nextNum := 0, head := 0, eBuf := [], intake := [] },
    msix := { enabled := false, mask := BitVec.allOnes 64, pend := 0 },
    time := { clk := Vector.replicate 8 0, phase := 0, rate := 0, epoch := 0, ntu := Keeper.fresh, rtc := Keeper.fresh, step := none, slew := 0,
              exchanges := [], ttNext := Vector.replicate 8 0, gm := 0, ttSeq := 0 },
    power := { phase := .held, trans := none, role := Vector.replicate 6 .off, en := 0, released := 0, cUp := false, tests := [], oscUsers := 0,
               x40Usable := false, retained := false, flueRetry := Vector.replicate 7 0, warnAt := Vector.replicate 8 0, hot := 0,
               pins := List.replicate 12 { counted := false, since := none } },
    actq := [],
    lamp := { outs := levels.map LampOut.fresh, chans := List.replicate 2 DaliChan.fresh, kick := none },
    sub := Sub.fresh, mesh := Mesh.fresh,
    acc := { parts := List.replicate 6 PartState.empty, fw := 0, band := 0, tileFails := [] },
    qm := Qm.fresh, fwd := Fwd.fresh 0, sched := Sched.fresh, bh := List.replicate 12 BhDir.off,
    xbl := List.replicate 8 (XblLink.fresh 0 0), engines := List.replicate 16 Engine.fresh, grate := Grate.fresh 0,
    ember := { sram := [], switching := false }, shared := [], dma := Dma.fresh, radioMem := List.replicate 6 [], aes := Aes.fresh,
    ddr := DramCtl.fresh 0, hport := { perst := true, ready := false, high := [] }, byp := { serviced := none, period := 0, first := true },
    srcq := [], pipeKeys := [], pipeLog := [], perReq := [], dram := [], esram := [] }

/-- The registers that the reset sequence of R116 has moved from their reset values by its end after a power-on reset: the verdict
of die E and its run, RST_CAUSE POR, the 40 MHz crystal that runs until the 32.768 kHz one has started, the ROM image of the Ember
engine, FS_ENTER of the lamp outputs, and the mesh as the source of die E's own time (R106, R116, R120, R374, R469, R509). -/
def resetRegs : List (Nat × Word) :=
  [(0x11C, 0x4), (0x810108, 1), (0x81010C, 2), (0x820210, 1), (0x82021C, 1), (0x850104, 0x100), (0x870010, 1), (0x880114, 0xB00)]

/-- A part at the end of the reset sequence that follows a power-on reset, in EMBER (R108, R116). -/
def State.resetFor (p : Part) : State :=
  let s := State.held p { master := true, part := 0 } factoryLevels
  { s with regs := resetRegs, power := { s.power with phase := .done, x40Usable := true } }

/-- The machine right after reset: a PX9608 strapped as a master or lone part. -/
def State.reset : State := State.resetFor .px9608

end Sys2Proof.Machine
end

