-- ==== Sys2Proof/Machine/Ops.lean ====
section
/-!
DEFINITION. The named operations every family uses: reading and writing registers and their fields, saturating counters,
die power and local time, error, guard and clamp records, interrupt signalling, the event log, and the judgement of an
activation time.
-/
namespace Sys2Proof.Machine

/-! ## The register file -/

/-- The page a BAR0 offset lies in. -/
def pageOf (a : Nat) : Nat := a - a % 0x10000

/-- The 4 MB window a BAR0 offset lies in: 0 global, 1 die C, 2 die E, 3 to 8 D0 to D5 (R37). -/
def winOf (a : Nat) : Nat := a / 0x400000

/-- The page number within its window. -/
def pageNo (a : Nat) : Nat := a / 0x10000 % 64

/-- Pages of a window; further indexes are reserved and follow R9 (R38, R53). -/
def pageCount (w : Nat) : Nat := if w = 0 then 1 else if w = 1 then 18 else if w = 2 then 11 else 8

/-- Die code of the die behind a window, as in PAGE_ID.DIE (R40). -/
def winCode (w : Nat) : Nat := if w ≤ 2 then w else 0x0D + w

/-- The die behind a BAR0 offset; the global page is held on die E (R53). -/
def dieOf (a : Nat) : Die :=
  match winOf a with
  | 0 => .e | 1 => .c | 2 => .e | 3 => .d 0 | 4 => .d 1 | 5 => .d 2 | 6 => .d 3 | 7 => .d 4 | _ => .d 5

/-- Index of a die in DIE_PRESENT, DIE_POWER and DIE_LOST, and in the list of local times (R53). -/
def dieIdx : Die → Fin 8
  | .c => 0
  | .e => 1
  | .d n => ⟨n.val + 2, by omega⟩

/-- PAGE_ID.DIE code of a die (R40). -/
def dieCode : Die → Nat
  | .c => 1
  | .e => 2
  | .d n => 0x10 + n.val

/-- Window base of a die (R37). -/
def dieWin : Die → Nat
  | .c => 0x400000
  | .e => 0x800000
  | .d n => dWin n.val

/-- Number of radio dies of a part (R1). -/
def radioDies : Part → Nat
  | .px9602 => 0 | .px9604 => 2 | .px9606 => 4 | .px9608 => 6

/-- The register map of a page (R38), the header excluded. -/
def State.pageMap (s : State) (p : Nat) : List RegSpec :=
  match winOf p with
  | 0 => if p = 0 then mapGLB else []
  | 1 => mapC (pageNo p)
  | 2 => mapE (pageNo p)
  | w => if w ≤ 8 then mapD (w - 3) (s.power.role.toList.getD (w - 3) .off) (pageNo p) else []

/-- The register at a BAR0 offset (R9: none is reserved). -/
def State.spec (s : State) (a : Nat) : Option RegSpec :=
  if 0x2400000 ≤ a then none
  else if a % 0x10000 < 0x100 then findReg mapHDR (a % 0x10000) else findReg (s.pageMap (pageOf a)) (a % 0x10000)

/-- What a register that nothing has changed holds: its reset value. -/
def State.resetOf (s : State) (a : Nat) : Word :=
  match s.spec a with
  | some r => BitVec.ofNat 32 r.reset
  | none => 0

/-- The stored word of a register. -/
def State.rd (s : State) (a : Nat) : Word := (Sparse.find s.regs a).getD (s.resetOf a)

/-- The state with a register's stored word replaced. -/
def State.wr (s : State) (a : Nat) (v : Word) : State := { s with regs := Sparse.put (s.resetOf a) s.regs a v }

/-- A field of a stored register. -/
def State.fld (s : State) (a hi lo : Nat) : Nat := bitsOf (s.rd a) hi lo

/-- A bit of a stored register. -/
def State.bit (s : State) (a n : Nat) : Bool := bitOf (s.rd a) n

/-- The state with a field of a register replaced. -/
def State.setFld (s : State) (a hi lo v : Nat) : State := s.wr a (putFld (s.rd a) hi lo v)

/-- The state with a bit of a register replaced. -/
def State.setBit (s : State) (a n : Nat) (b : Bool) : State := s.wr a (putBit (s.rd a) n b)

/-- A saturating counter field counts `n` more (R482). -/
def State.bump (s : State) (a hi lo n : Nat) : State := s.setFld a hi lo (satAdd (hi + 1 - lo) (s.fld a hi lo) n)

/-- A whole 32-bit saturating counter counts `n` more. -/
def State.count (s : State) (a n : Nat) : State := s.bump a 31 0 n

/-- Registers written in turn. -/
def State.wrs (s : State) : List (Nat × Word) → State
  | [] => s
  | (a, v) :: t => (s.wr a v).wrs t

/-- The words of a register array of stride 4. -/
def State.rdArr (s : State) (a : Nat) : Nat → List Word
  | 0 => []
  | n + 1 => s.rd a :: s.rdArr (a + 4) n

/-- A register array of stride 4 written from `a`. -/
def State.wrArr (s : State) (a : Nat) : List Word → State
  | [] => s
  | w :: t => (s.wr a w).wrArr (a + 4) t

/-- All registers of `[lo, hi)` return to their reset values. -/
def State.clearRegs (s : State) (lo hi : Nat) : State :=
  { s with regs := s.regs.filter (fun p => decide (p.1 < lo) || decide (hi ≤ p.1)) }

/-- A read access answers these words. -/
def State.answer (s : State) (ws : List Word) : State := { s with resp := ws }

/-- Something leaves the part. -/
def State.emit (s : State) (o : Out) : State := { s with outbox := o :: s.outbox }

/-- A hardware source of the Grate has an event (R368); GRATE_SOURCE_EVENT counts it. -/
def State.sourceEvent (s : State) (code : Nat) : State := { s with srcq := s.srcq ++ [code] }

/-- Draw a free value: `f` receives the index to apply an opaque constant of Config to. -/
def State.draw (s : State) (f : Nat → State → State) : State := f s.fresh { s with fresh := s.fresh + 1 }

/-! ## Dies, power state and local time -/

/-- DIE_PRESENT: the die is fitted (R1, R53). -/
def State.fitted (s : State) (d : Die) : Bool :=
  match d with
  | .d n => decide (n.val < radioDies s.part)
  | _ => true

/-- DIE_POWER: the die is powered (R53). -/
def State.powered (s : State) (d : Die) : Bool := s.bit GLB.diePower (dieIdx d).val

/-- PWR_STATE.STATE: 0 OFF, 1 EMBER, 2 STANDBY, 3 RUN, 4 BANKED (R104, R108). -/
def State.pstate (s : State) : Nat := s.fld GLB.pwrState 3 0

/-- A commanded power-down to EMBER or OFF is in progress (R110). -/
def State.leaving (s : State) : Bool :=
  match s.power.trans with
  | some t => decide (t.target ≤ 1)
  | none => false

/-- Die C is in STANDBY or RUN and not leaving it: the TXU and the NTU run (R30, R110, R509). -/
def State.cRuns (s : State) : Bool := (s.pstate == 2 || s.pstate == 3) && !s.leaving

/-- Die C keeps time: it is in STANDBY or RUN, and a power-down has not yet come to the step in which die E takes over (R19, R110). -/
def State.cTime (s : State) : Bool := (s.pstate == 2 || s.pstate == 3) && s.power.cUp

/-- BANKED with die E itself failed: only the global page and the self-test controller page answer (R122). -/
def State.eFailed (s : State) : Bool := s.pstate == 4 && s.fld GLB.selftestSum 3 2 == 3

/-- A die's copy of local time, in ns (R18). -/
def State.now (s : State) (d : Die) : Nat := s.time.clk[(dieIdx d).val]'(by have := (dieIdx d).isLt; omega)

/-- A nanosecond in the units of local time's phase: 2^-16 ppm of it each (R77). -/
def nsUnits : Nat := 65536000000

/-- The largest frequency adjustment, ±250 ppm, in 2^-16 ppm (R77). -/
def freqMax : Int := 16384000

/-- The part of the frequency adjustment that removes a phase offset: at most 200 ppm, within the ±250 ppm of the whole, and no more than
is left (R77). -/
def State.slewRate (s : State) : Int :=
  if 0 < s.time.slew then max 0 (min (min s.time.slew 13107200) (freqMax - s.time.rate))
  else min 0 (max (max s.time.slew (-13107200)) (-freqMax - s.time.rate))

/-- The frequency adjustment in force, in 2^-16 ppm (R77, R101). -/
def State.freqAdj (s : State) : Int := s.time.rate + s.slewRate

/-- The sub-nanosecond fraction of local time, in units of 2^-16 ns (R69). -/
def State.frac (s : State) : BitVec 16 := BitVec.ofNat 16 (s.time.phase / 1000000)

/-- The low 32 bits of the seconds of an instant (R70). -/
def sec32 (t : Nat) : Nat := t / 1000000000 % 2 ^ 32

/-- The nanoseconds of an instant (R69). -/
def nsOf (t : Nat) : Nat := t % 1000000000

/-- NTIME words 0 to 3 of an instant (R69). -/
def ntime (t : Nat) (epoch : BitVec 8) (frac : BitVec 16) : List Word :=
  [BitVec.ofNat 32 (sec32 t), BitVec.ofNat 32 (t / 1000000000 / 2 ^ 32 % 2 ^ 16 + epoch.toNat * 0x10000),
   BitVec.ofNat 32 (nsOf t), BitVec.ofNat 32 frac.toNat]

/-- The signed difference of an ATIME from local time `t`, in ns (R71). -/
def atimeDiff (aS aNs t : Nat) : Int := sdiff 32 aS (sec32 t) * 1000000000 + ((aNs : Int) - (nsOf t : Int))

/-- What R71 makes of a difference and a lead time. -/
inductive Judgement where
  | far
  | ahead
  | late
  | past
  deriving DecidableEq, Repr

/-- The judgement of R71. -/
def judge (d lead : Int) : Judgement :=
  if 60000000000 < d then .far else if lead ≤ d then .ahead else if -60000000000 ≤ d then .late else .past

/-- The roles of the radio dies as copied at their release (R23). -/
def State.role (s : State) (d : Fin 6) : Role := s.power.role[d.val]

/-- The master part of a cascade, or a lone part (R455). -/
def State.isMaster (s : State) : Bool := s.straps.master

/-! ## Interrupts (R40, R50, R51) -/

/-- INT_STAT of a page: INT_RAW AND INT_EN (R40). -/
def State.intStat (s : State) (p : Nat) : Word := s.rd (HDR.intRaw p) &&& s.rd (HDR.intEn p)

/-- The pages of a window that exist (R38). -/
def winPages (w : Nat) : List Nat := (List.range (pageCount w)).map (fun k => w * 0x400000 + k * 0x10000)

/-- The die behind window `w` is fitted and powered, so that its pages can interrupt; the global page is on die E. -/
def State.winOn (s : State) (w : Nat) : Bool :=
  match w with
  | 0 => true
  | 1 => s.powered .c
  | 2 => true
  | k + 3 => if h : k < 6 then s.powered (.d ⟨k, h⟩) else false

/-- Every page that can interrupt now. -/
def State.pages (s : State) : List Nat := (List.range 9).flatMap (fun w => if s.winOn w then winPages w else [])

/-- The MSI-X vector of a page: 0 for the global page, else VEC_MAP of its die control page (R50). -/
def State.vector (s : State) (p : Nat) : Nat :=
  if winOf p = 0 then 0 else s.fld (DC.vecMap (winOf p * 0x400000) (pageNo p / 4)) (8 * (pageNo p % 4) + 5) (8 * (pageNo p % 4))

/-- Some page mapped to a vector interrupts. -/
def State.vecActive (s : State) (v : Nat) : Bool := s.pages.any (fun p => s.vector p == v && s.intStat p != 0)

/-- Messages can be signalled: die C runs, the PCI Express link is up and the host has enabled MSI-X (R50, R51). -/
def State.canSignal (s : State) : Bool := s.powered .c && s.bit C8.hpStat 0 && s.msix.enabled

/-- A vector's message falls due: it is sent, or its Pending Bit is set if it is masked (R50, R436). -/
def State.fireVector (s : State) (v : Nat) : State :=
  if s.canSignal then
    if s.msix.mask.getLsbD v then { s with msix := { s.msix with pend := s.msix.pend ||| BitVec.ofNat 64 (2 ^ v) } }
    else s.emit (.msix v)
  else s

/-- After a change of a page's interrupt bits: the message of its vector is due when the vector's pages changed from no
interrupt to interrupt (R50). `t` is the state after the change. -/
def State.signal (s t : State) (p : Nat) : State :=
  if !s.vecActive (s.vector p) && t.vecActive (t.vector p) then t.fireVector (t.vector p) else t

/-- Events of a page set INT_RAW bits (R40). -/
def State.raiseBits (s : State) (p : Nat) (w : Word) : State :=
  s.signal (s.wr (HDR.intRaw p) (s.rd (HDR.intRaw p) ||| w)) p

/-- Block event `n` of a page. -/
def State.raise (s : State) (p n : Nat) : State := s.raiseBits p (BitVec.ofNat 32 (2 ^ n))

/-! ## The event log (R486, R487) -/

/-- Kinds of event that die E keeps while die C is off (R487). -/
def keptKind (k : Nat) : Bool := k ≤ 3 || k == 5 || k == 7

/-- The own position in the cascade: a master is part 0 whatever CASC_ID holds (R455). -/
def State.ownPart (s : State) : Nat := if s.straps.master then 0 else s.straps.part

/-- One record is entered: in the event log while die C runs, else in die E's buffer when it is of die E's own pages and
of a kind it keeps. `p` is the page it concerns. -/
def State.logEvent (s : State) (p kind code : Nat) (info : Word) : State :=
  let c := s.powered .c
  let r : EvRec := { die := winCode (winOf p), page := pageNo p, code := code, info := info,
                     time := s.now (if c then .c else .e), epoch := s.time.epoch.toNat, kind := kind,
                     part := s.ownPart, replayed := false, num := s.logs.nextNum }
  if c then
    let full := decide (4096 ≤ s.logs.events.length)
    let s1 := { s with logs := { s.logs with events := (r :: s.logs.events).take 4096,
                                             nextNum := (s.logs.nextNum + 1) % 2 ^ 32,
                                             head := (s.logs.head + 1) % 4096 } }
    if full then
      let first := s1.rd C11.evtOverflow == 0
      let s2 := (s1.count C11.evtOverflow 1).setBit C11.healthSticky 4 true
      if first then s2.raise C11.page 2 else s2
    else s1
  else if (winOf p == 0 || winOf p == 2) && keptKind kind then
    let full := decide (64 ≤ s.logs.eBuf.length)
    let b := if full then s.logs.eBuf.tail else s.logs.eBuf
    let s1 := { s with logs := { s.logs with eBuf := b ++ [r] } }
    if full then s1.count C11.evtELost 1 else s1
  else s

/-- A record of a kind whose INFO word the spec does not state: the word is free (R486). -/
def State.logFree (s : State) (p kind : Nat) : State := s.draw (fun i t => t.logEvent p kind 0 (Config.freeWord i))

/-! ## Node health (R488) -/

/-- HEALTH of the Ashpit page (R488): bit 0 DIE_LOST, 1 FAULT, 2 UNLOCKED, 3 DRAM_DOWN, 4 SUPPLY, 5 IN_FS, 6 BYP_LOW. -/
def State.health (s : State) : Word :=
  let lost := s.rd GLB.dieLost != 0
  let fault := s.pages.any (fun p => bitsOf (s.rd (HDR.errCode p)) 23 16 != 0)
  let unlocked := s.fld C2.timeQual 3 0 != 2
  let dram := s.fld C7.dramStat 2 0 != 2
  let supply := s.rd E1.supWarnAct != 0
  let inFs := s.fld E7.lampStat 5 0 != 0
  let byp := (s.bit (C9.ethCfg 0) 31 && !s.bit C9.bypStat 0) || (s.bit (C9.ethCfg 1) 31 && !s.bit C9.bypStat 1)
  BitVec.ofNat 32 (b2n lost + 2 * b2n fault + 4 * b2n unlocked + 8 * b2n dram + 16 * b2n supply + 32 * b2n inFs + 64 * b2n byp)

/-- After a change of a condition HEALTH shows, from `s` to `t`: HEALTH_CHANGE is raised and the mirror bits of
HEALTH_STICKY take the bits 0 to 2 that became 1 (R488). Ashpit is on die C. -/
def State.healthStep (s t : State) : State :=
  if s.powered .c && t.powered .c && s.health != t.health then
    let up := t.health &&& ~~~ s.health
    (t.wr C11.healthSticky (t.rd C11.healthSticky ||| BitVec.ofNat 32 (bitsOf up 2 0 * 64))).raise C11.page 3
  else t

/-! ## Error, guard and clamp records (R40, R42 to R49) -/

/-- An error code is recorded on a page: CODE, COUNT, ERR_INFO, INT_RAW.ERR and an event record (R40, R42, R486); the page's
FAULT shows in HEALTH (R488). -/
def State.err (s : State) (p code : Nat) (info : Word) : State :=
  let s1 := (s.setFld (HDR.errCode p) 15 0 code).bump (HDR.errCode p) 23 16 1
  s.healthStep (((s1.wr (HDR.errInfo p) info).raise p 28).logEvent p 0 code info)

/-- A guard failure is recorded in GUARD_FAIL of the register's page and sets INT_RAW.GUARD (R40, R43). -/
def State.guardFail (s : State) (a : Nat) (flue staged : Bool) : State :=
  let p := pageOf a
  let g := HDR.guardFail p
  let s1 := (((s.setFld g 15 0 (a % 0x10000)).bump g 23 16 1).setBit g 24 flue).setBit g 25 staged
  let s2 := (s1.setBit g 31 true).raise p 31
  s2.logEvent p 1 0 (s2.rd g)

/-- How a clamp or range rejection is recorded (R48). -/
structure ClampRec where
  msb : Nat
  lsb : Nat
  isEnum : Bool
  rejected : Bool
  staged : Bool
  wrote : Nat
  applied : Nat
  deriving DecidableEq, Repr

/-- CLAMP_FIELD bits 28:0 of a record. -/
def ClampRec.field (c : ClampRec) (a : Nat) : Nat :=
  a % 0x10000 + c.lsb * 2 ^ 16 + c.msb * 2 ^ 21 + b2n c.isEnum * 2 ^ 26 + b2n c.rejected * 2 ^ 27 + b2n c.staged * 2 ^ 28

/-- One clamp or range rejection: the page's clamp registers, CLAMP_COUNT, INT_RAW.CLAMP and the global clamp log, whose
loss sets HEALTH_STICKY.CLAMP_FULL (R40, R48, R49, R488). -/
def State.clampRec (s : State) (a : Nat) (c : ClampRec) : State :=
  let p := pageOf a
  let s1 := (s.wr (HDR.clampField p) (BitVec.ofNat 32 (c.field a + 2 ^ 31))).wrs
    [(HDR.clampWrote p, BitVec.ofNat 32 c.wrote), (HDR.clampApplied p, BitVec.ofNat 32 c.applied)]
  let s2 := (s1.count (HDR.clampCount p) 1).raise p 30
  if s2.logs.clamps.length < 64 then
    let e : List Word := [BitVec.ofNat 32 (s.ownPart * 2 ^ 24 + winCode (winOf p) * 2 ^ 16 + pageNo p * 2 ^ 8),
      BitVec.ofNat 32 (c.field a), BitVec.ofNat 32 c.wrote, BitVec.ofNat 32 c.applied]
    { s2 with logs := { s2.logs with clamps := s2.logs.clamps ++ [e] } }
  else (s2.count GLB.clampLogLost 1).setBit C11.healthSticky 5 true

/-- A write rejected for its range: one clamp record with REJECTED set, naming the lowest field at fault (R44, R47, R48),
and the page's error code. -/
def State.reject (s : State) (a : Nat) (c : ClampRec) (code : Nat) : State :=
  (s.clampRec a { c with rejected := true }).err (pageOf a) code (BitVec.ofNat 32 (a % 0x10000))

/-! ## Supplies and time quality -/

/-- Monitor of a die's supply: 0 die E, 1 die C, 2 to 7 D0 to D5 (R124). -/
def monOf : Die → Nat
  | .e => 0
  | .c => 1
  | .d n => n.val + 2

/-- The die whose supply a monitor watches (R124). -/
def monDie : Fin 8 → Die
  | 0 => .e
  | 1 => .c
  | ⟨n + 2, h⟩ => .d ⟨n, by omega⟩

/-- The die's supply monitor is in warning (R125). -/
def State.supplyWarn (s : State) (d : Die) : Bool := s.bit E1.supWarnAct (monOf d)

/-- A warning of the die's monitor was declared no later than 2 µs before now, so that it is active at this instant (R28,
R94). -/
def State.warnedInTime (s : State) (d : Die) : Bool :=
  s.supplyWarn d && decide (s.power.warnAt.toList.getD (monOf d) 0 + 2000 ≤ s.mono)

/-- TIME_QUAL.STATE of the timekeeper that a die's actions follow: the NTU while die C runs, else die E (R88, R94). -/
def State.quality (s : State) : Nat := if s.cTime then s.fld C2.timeQual 3 0 else s.fld E8.timeQual 3 0

/-- Time quality is LOCKED. -/
def State.locked (s : State) : Bool := s.quality == 2

/-- The dies in the order of their PAGE_ID.DIE codes. -/
def allDies : List Die := [.c, .e, .d 0, .d 1, .d 2, .d 3, .d 4, .d 5]

/-! ## A requester's command write -/

/-- The tag under which a requester's writes to a page are staged; 0 is none (R56). -/
def State.tagOf (s : State) (r : Requester) (p : Nat) : Nat :=
  ((s.tags.find? (fun t => t.req == r && t.page == p)).map TagCopy.tag).getD 0

/-- The state with a requester's TXN_TAG of a page replaced. -/
def State.setTag (s : State) (r : Requester) (p tag : Nat) : State :=
  let ts := s.tags.filter (fun t => !(t.req == r && t.page == p))
  { s with tags := if tag = 0 then ts else { req := r, page := p, tag := tag } :: ts }

/-- The pages of die C that run in BANKED while die C is kept: die control, DMA, DRAM controller, host port and Ashpit (R122). -/
def bankedPages : List Nat := [0, 5, 7, 8, 11]

/-- The window of a BAR0 offset can be reached: the die is fitted and powered and the reset sequence has ended (R4, R39,
R108, R122). -/
def State.reachable (s : State) (a : Nat) : Bool :=
  s.power.phase == .done && decide (pageNo a < pageCount (winOf a)) && s.fitted (dieOf a) && (winOf a == 0 || s.powered (dieOf a)) &&
    !(s.eFailed && winOf a == 2 && pageNo a != 2) &&
    !(s.pstate == 4 && winOf a == 1 && !(bankedPages.contains (pageNo a)))

/-- An access to a fitted but unpowered die records ACCESS_OFF in the global page (R39); to an absent die it does nothing
(R4). -/
def State.accessOff (s : State) (a : Nat) : State :=
  if s.power.phase == .done && s.fitted (dieOf a) && winOf a != 0 && !s.powered (dieOf a)
  then s.err GLB.page 1 (BitVec.ofNat 32 a) else s

/-- Global registers marked S (R53). -/
def globalS : List Nat := [GLB.devId, GLB.devRev, GLB.diePresent, GLB.diePower, GLB.dieLost, GLB.pwrState, GLB.pwrCmd, GLB.selftestSum,
  GLB.glbInt, GLB.glbIntEn, GLB.straps]

/-- With die C off only SPI reaches the part, and of it the die E window, the global registers marked S and the global header
(R443). -/
def State.pathOk (s : State) (r : Requester) (a : Nat) : Bool :=
  s.powered .c || (r == .spi && (winOf a == 2 || globalS.contains a || decide (a < 0x100)))

/-- A write of a command register, or of any register without a transactional field: unreachable windows take R4, R39 and R443,
a write under a tag records TXN_NONTRANS and applies directly (R56), and `act` is its effect. -/
def State.cmdWrite (s : State) (r : Requester) (a : Nat) (act : State → State) : State :=
  if !s.reachable a then s.accessOff a
  else if !s.pathOk r a then s
  else act (if s.tagOf r (pageOf a) = 0 then s else s.err (pageOf a) 7 (BitVec.ofNat 32 (a % 0x10000)))

/-- A write of a guarded command register: the halves must agree (R43), then `act` takes bits 15:0. -/
def State.guardWrite (s : State) (r : Requester) (a : Nat) (w : Word) (act : Nat → State → State) : State :=
  s.cmdWrite r a (fun t => if guardOk w then act (bitsOf w 15 0) t else t.guardFail a false false)

/-- A guarded word whose value lies outside its legal range is rejected, never clamped (R44): `msb` and `lsb` locate the
lowest field at fault and `live` is the unchanged value. -/
def State.guardRange (s : State) (a msb lsb v live : Nat) : State :=
  s.reject a { msb := msb, lsb := lsb, isEnum := false, rejected := true, staged := false, wrote := v, applied := live } 5

/-- A guarded command register takes an accepted value, which its reads return until the next (R8). -/
def State.accept (s : State) (a v : Nat) : State := s.wr a (BitVec.ofNat 32 v)

/-! ## The 40 MHz crystal (R106) -/

/-- An open context of the AES engine, or an enabled PWM output at a duty between its ends, keeps the 40 MHz crystal running (R396,
R472). -/
def State.x40Held (s : State) : Bool :=
  (List.range 8).any (fun k => s.fld (E6.ctxStat k) 2 0 != 0) ||
  (List.range 4).any (fun n => s.bit E7.lampCfg (n + 2) && s.fld (E7.outNow (n + 2)) 15 0 != 0 && s.fld (E7.outNow (n + 2)) 15 0 != 65535)

/-- The 40 MHz crystal runs: in every state but EMBER, for a user, through Kindle, and while the 32.768 kHz crystal is not valid
(R106, R111). -/
def State.x40On (s : State) : Bool :=
  s.pstate != 1 || s.power.oscUsers != 0 || s.x40Held || !s.bit E1.oscStat 0 || s.power.trans.isSome

/-- OSC_STAT follows the 40 MHz crystal; one that stops has to start and settle again (R106). -/
def State.oscSync (s : State) : State :=
  if s.x40On then s.setBit E1.oscStat 1 true
  else { s.setFld E1.oscStat 2 1 0 with power := { s.power with x40Usable := false } }

end Sys2Proof.Machine
end

