-- ==== Sys2Proof/Machine/DmaPace.lean ====
section
/-!
DEFINITION. The channels of the DMA controller, their states, and the pacing of them by request lines and levels (R386 to R388, R393).
-/
namespace Sys2Proof.Machine

/-! ## Channels -/

/-- Channel `n`, and a channel changed. -/
def State.chan (s : State) (n : Nat) : DmaChan := s.dma.chans.getD n DmaChan.fresh

def State.onChan (s : State) (n : Nat) (f : DmaChan → DmaChan) : State :=
  { s with dma := { s.dma with chans := s.dma.chans.set n (f (s.chan n)) } }

/-- CH_STAT.STATE codes (R388). -/
def chIdle : Nat := 0
def chRunning : Nat := 1
def chWaiting : Nat := 2
def chPausing : Nat := 3
def chPaused : Nat := 4
def chComplete : Nat := 5
def chAborted : Nat := 6
def chError : Nat := 7

/-- CH_STAT.STATE. -/
def State.ch (s : State) (n : Nat) : Nat := s.fld (C5.chStat n) 2 0

/-- A radio-class channel (R379). -/
def radioClass (n : Nat) : Bool := decide (n < 16)

/-- A channel takes a state; DMA_PAUSED_MAP shows PAUSED (R393). -/
def State.setCh (s : State) (n st : Nat) : State :=
  (s.setFld (C5.chStat n) 2 0 st).setBit C5.dmaPausedMap n (st == chPaused)

/-- CMD_STATE and CMD_CLASS (R395). -/
def State.chCmdState (s : State) (n cmd : Nat) : State := s.err C5.page 0x0100 (BitVec.ofNat 32 (n * 256 + cmd))

def State.chCmdClass (s : State) (n cmd : Nat) : State := s.err C5.page 0x0101 (BitVec.ofNat 32 (n * 256 + cmd))

/-- CH_END: the channel's DMA_DONE_MAP bit (R393, R395). -/
def State.chEnd (s : State) (n : Nat) : State := (s.setBit C5.dmaDoneMap n true).raise C5.page 0

/-- The channel ends in ERROR (R383, R391). -/
def State.chFail (s : State) (n reason : Nat) : State :=
  (((s.setFld (C5.chStat n) 7 4 reason).setCh n chError).setBit C5.dmaErrMap n true).raise C5.page 1

/-- The channel ends ABORTED with a reason (R388, R390). -/
def State.chAbort (s : State) (n reason : Nat) : State := ((s.setFld (C5.chStat n) 7 4 reason).setCh n chAborted).chEnd n

/-! ## Pacing (R386, R387) -/

/-- CH_LEVEL. -/
def State.level (s : State) (n : Nat) : Nat := s.fld (C5.chLevel n) 23 0

/-- Whether the level lets the channel move, from whether it did before (R387). -/
def State.levelGo (s : State) (n : Nat) (go : Bool) : Bool :=
  let lv := s.level n
  match s.fld (C5.chPace n) 13 12 with
  | 1 => if go then decide (s.fld (C5.chLow n) 23 0 < lv) else decide (s.fld (C5.chHigh n) 23 0 ≤ lv)
  | 2 => if go then decide (lv < s.fld (C5.chHigh n) 23 0) else decide (lv ≤ s.fld (C5.chLow n) 23 0)
  | _ => true

/-- A channel that runs is RUNNING, or WAITING where its pacing holds it (R387). -/
def State.pace (s : State) (n : Nat) : State :=
  if s.ch n = chRunning || s.ch n = chWaiting then
    let go := s.levelGo n (s.chan n).go
    let s1 := s.onChan n (fun x => { x with go := go })
    let held := !(s.chan n).tail && (!go || (s.fld (C5.chPace n) 7 0 != 0 && (s.chan n).reqs == 0))
    s1.setCh n (if held then chWaiting else chRunning)
  else s

/-- A request line pulses: its channels that are under way take a request, up to 16 waiting; one beyond is counted (R386). -/
def State.dmaRequest (s : State) (line : Nat) : State :=
  (List.range 32).foldl (fun t n =>
    let st := t.ch n
    if line = 0 || t.fld (C5.chPace n) 7 0 ≠ line || st = chIdle || 5 ≤ st then t
    else if (t.chan n).reqs < 16 then (t.onChan n (fun x => { x with reqs := x.reqs + 1 })).pace n
    else (t.count (C5.chReqOvr n) 1).raise C5.page 3) s

/-- The request lines of R386: a channel-state record of a radio die written, and a Grate timer expired. -/
def lineRecord (d : Nat) : Nat := 0x12 + 4 * d
def lineTimer (t : Nat) : Nat := 0x40 + t

end Sys2Proof.Machine
end

