-- ==== Sys2Proof/Machine/ActCore.lean ====
section
/-!
DEFINITION. Action slots: where their registers are, their status word, and what happens when the instant of an armed
action comes (R90 to R96). Arming is in Actions.lean, after the blocks whose actions it performs.
-/
namespace Sys2Proof.Machine

/-- The die that owns a slot. -/
def slotDie : ActSlot → Die
  | .rf _ => .e
  | .mesh _ => .e
  | .lamp _ => .e
  | .sched _ => .c
  | .link _ => .c
  | .part d _ => .d d

/-- ACT_S of a slot; ACT_NS and ACT_DESC follow it. -/
def slotBase : ActSlot → Nat
  | .rf i => E3.actS i.val
  | .mesh i => E4.actS i.val
  | .lamp i => E7.actS i.val
  | .sched i => C16.actS i.val
  | .link i => C17.actS i.val
  | .part d i => D4.actS d.val i.val

/-- ACT_ARM of a slot. -/
def slotArm : ActSlot → Nat
  | .rf i => E3.actArm i.val
  | .mesh i => E4.actArm i.val
  | .lamp i => E7.actArm i.val
  | .sched i => C16.actArm i.val
  | .link i => C17.actArm i.val
  | .part d i => D4.actArm d.val i.val

/-- ACT_STAT of a slot. -/
def slotStat (x : ActSlot) : Nat := (slotArm x) + 4

/-- The register between ACT_DESC and ACT_ARM, where the slot has one. -/
def slotExtra (x : ActSlot) : Option Nat :=
  match x with
  | .rf i => some (E3.actFrame i.val)
  | .lamp i => some (E7.actLevel i.val)
  | .part d i => some (D4.actChan d.val i.val)
  | _ => none

/-- The page of a slot. -/
def slotPage (x : ActSlot) : Nat := pageOf (slotBase x)

/-- Entries of a die's action queue (R90). -/
def actCapacity : Die → Nat
  | .c => 512
  | .e => 128
  | .d _ => 1024

/-- The action that holds a slot's queue entry. -/
def State.pendAct (s : State) (x : ActSlot) : Option PendAct := s.actq.find? (fun a => a.slot == x)

/-- The state without a slot's queue entry. -/
def State.dropAct (s : State) (x : ActSlot) : State := { s with actq := s.actq.filter (fun a => a.slot != x) }

/-- ACT_STAT.STATE codes (R96). -/
def stPending : Nat := 1
def stDone : Nat := 2
def stMissed : Nat := 3
def stHeld : Nat := 4
def stFrozen : Nat := 5
def stRejected : Nat := 6
def stCancelled : Nat := 7

/-- The status word of a slot with its state, reason and flags replaced; POLICY stays (R96). -/
def State.setActStat (s : State) (x : ActSlot) (st reason : Nat) (late unlocked supply : Bool) : State :=
  s.wr (slotStat x) (BitVec.ofNat 32 (st + reason * 2 ^ 16 + b2n late * 2 ^ 24 + b2n unlocked * 2 ^ 25 + b2n supply * 2 ^ 28
    + s.fld (slotStat x) 31 30 * 2 ^ 30))

/-- Block event of an ended action, on the pages that have one. -/
def slotDoneEvent : ActSlot → Option Nat
  | .rf _ => none
  | .mesh _ => none
  | .lamp _ => some 6
  | .sched _ => some 5
  | .link _ => some 8
  | .part _ _ => some 3

/-- A user of the 40 MHz crystal in EMBER comes or goes (R106): 0 sub-GHz radio, 1 AES engine, 2 Ember engine, 3 a die E
action. -/
def State.oscUser (s : State) (u : Nat) (b : Bool) : State :=
  let m := BitVec.ofNat 4 (2 ^ u)
  { s with power := { s.power with oscUsers := if b then s.power.oscUsers ||| m else s.power.oscUsers &&& ~~~ m } }.oscSync

/-- What the Ember engine had armed on a slot has ended: a beacon that was not sent is counted SKIPPED (R173), and the crystal is no longer
held for a TT_RESP (R91). -/
def State.engEnd (s : State) (x : ActSlot) (missed : Bool) : State :=
  match x with
  | .rf i =>
    let s1 := { s with mesh := { s.mesh with eng := s.mesh.eng.filter (fun e => e.1 != i) } }
    match s.mesh.eng.find? (fun e => e.1 == i) with
    | some (_, .beacon) => if missed then s1.bump E4.bcnCnt 15 0 1 else s1
    | some (_, .ttReq _) => s1
    | some (_, .ttResp _ _ _ _) => s1.oscUser 2 false
    | none => s
  | _ => s

/-- An action ends: its status, its queue entry and its page's event. -/
def State.endAct (s : State) (x : ActSlot) (st reason : Nat) (late unlocked supply : Bool) : State :=
  let s1 := ((s.setActStat x st reason late unlocked supply).dropAct x).engEnd x (st != stDone)
  match (slotDoneEvent x) with
  | some n => if st = stDone then s1.raise (slotPage x) n else s1
  | none => s1

/-- Signed ns from the die's local time to an action's T. -/
def State.actDiff (s : State) (a : PendAct) : Int := atimeDiff a.tS a.tNs (s.now (slotDie a.slot))

/-- The action waits for the end of a transmission in progress at its T (R152, R228). -/
def State.slotBlocked (s : State) (x : ActSlot) : Bool :=
  match x with
  | .rf i => s.sub.blocked.contains i
  | .part d i => (s.acc.parts.getD d.val PartState.empty).blocked.contains i
  | _ => false

/-- An action that has yet to be carried out at its T: PENDING, neither begun, nor blocked, nor deferred by a supply warning. -/
def State.actOpen (s : State) (a : PendAct) : Bool :=
  s.fld (slotStat a.slot) 3 0 == stPending && !a.began && !s.slotBlocked a.slot && !s.bit (slotStat a.slot) 28

/-- An action of the same page and the same T that was armed earlier goes first (R95). -/
def State.actBehind (s : State) (a : PendAct) : Bool :=
  (s.actq.takeWhile (fun (b : PendAct) => b.slot != a.slot)).any (fun (b : PendAct) =>
    slotPage b.slot == slotPage a.slot && b.tS == a.tS && b.tNs == a.tNs && s.actOpen b)

/-- The action is PENDING, its T has come on its die's local time, and it is its turn (R95). No comparator fires while a step of
local time waits for its instant (R87); nothing of the old scale is pending then (R78, R97). -/
def State.actDue (s : State) (a : PendAct) : Bool :=
  s.fld (slotStat a.slot) 3 0 == stPending && decide (s.actDiff a ≤ 0) && s.time.step.isNone && !s.actBehind a

/-- The pages whose fields the action of a slot changes: the page of the slot, and for a backhaul die its page 7 too, which holds the
channel and configuration of the directions whose slots stand on page 4. -/
def slotPages (x : ActSlot) : List Nat :=
  match x with
  | .part d _ => [D4.page d.val, D7.page d.val]
  | _ => [slotPage x]

/-- A single action on the fields of one of these pages is due at a T that a group shares: it goes before the group's shares (R95). -/
def State.actFirst (s : State) (pages : List Nat) (tS tNs : Nat) : Bool :=
  s.actq.any (fun (b : PendAct) => pages.any (fun p => (slotPages b.slot).contains p) && b.tS == tS && b.tNs == tNs && s.actOpen b)

/-- The external PA is selected (R144). -/
def State.sgExt (s : State) : Bool := s.bit E3.txCfg 0

/-- The dies whose supply warnings `w` defer an action (R94): its own; for a lamp action any die's, since no lamp output is activated
during one; and for a transmission of the sub-GHz radio any die's, but on the external path only, which is all that a warning stops
(R33, R146). -/
def State.actHeldBy (s : State) (a : PendAct) (w : Die → Bool) : Bool :=
  match a.slot with
  | .lamp _ => allDies.any w
  | .rf _ => if bitsOf a.desc 2 0 = 0 then s.sgExt && allDies.any w else w .e
  | x => w (slotDie x)

/-- A supply warning holds the action now. -/
def State.actWarn (s : State) (a : PendAct) : Bool := s.actHeldBy a s.supplyWarn

/-- A supply warning declared no later than T − 2 µs defers the action at its T (R94). -/
def State.actWarned (s : State) (a : PendAct) : Bool := s.actHeldBy a s.warnedInTime

/-- Ramp time in ns (R145). -/
def State.rampNs (s : State) : Nat := s.fld E3.txCfg 14 8 * 1000

/-- The synthesiser has been locked since T − RAMP − 10 µs (R147). -/
def State.sgLockedFor (s : State) (a : PendAct) : Bool :=
  s.bit E3.rfState 4 && decide ((s.sub.lockAt + s.rampNs + 10000 : Nat) ≤ (s.mono : Int) + s.actDiff a)

/-- The execution of an action has begun: a transmission has, once its ramp up has, at T − RAMP (R96, R148). -/
def State.actBegun (s : State) (a : PendAct) : Bool :=
  a.began || match a.slot with
    | .rf i => bitsOf a.desc 2 0 == 0 && s.sub.prepared == some i && s.actOpen a && s.sgLockedFor a && !s.actWarned a
        && decide (s.actDiff a ≤ s.rampNs)
    | _ => false

/-- What an action's T brings (R94): a supply warning on its die defers it, and a deferred action waits for recovery;
a die that cannot execute it ends it MISSED with reason STATE; otherwise it executes on local time whatever the quality,
flagged UNLOCKED when that is not LOCKED. `perform` answers none where the die cannot execute the action. -/
def State.actAtT (s : State) (x : ActSlot) (perform : PendAct → State → Option State) : State :=
  match s.pendAct x with
  | none => s
  | some a =>
    if !s.actDue a || s.bit (slotStat x) 28 then s
    else if s.actWarned a then s.setBit (slotStat x) 28 true
    else match perform a s with
      | some t => t.endAct x stDone 0 false (!s.locked) false
      | none => s.endAct x stMissed 4 false false false

/-- A step of local time awaits TIME_STEP, TIME_KEEP or TIME_SET (EPOCH_PEND, R97), for the timekeeper in force. -/
def State.epochPend (s : State) : Bool := if s.cTime then s.bit C2.timeQual 12 else s.bit E8.timeQual 12

/-- The lamp mesh runs: its page is enabled and the node has a role (R162, R197). -/
def State.meshOn (s : State) : Bool := s.bit (HDR.pageCtrl E4.page) 0 && s.fld E4.meshCfg 1 0 != 0

/-- Lead time of a slot, in ns (R91): 1 ms, but 20 ms on die E while die C does not run, save for RF_ACT[6] and RF_ACT[7] while the
Ember engine arms them, with the mesh on, and the 40 MHz crystal runs. -/
def State.leadNs (s : State) (x : ActSlot) : Int :=
  if slotDie x != .e || s.cRuns then 1000000
  else match x with
    | .rf i => if 6 ≤ i.val && s.meshOn && s.bit E1.oscStat 1 then 1000000 else 20000000
    | _ => 20000000

/-- The block's default late policy: EXECUTE_LATE for lamp actions, DROP for the others (R93). -/
def defaultPolicy : ActSlot → Nat
  | .lamp _ => 1
  | _ => 0

/-- An action of a slot with the ATIME, descriptor and further word its registers hold now. -/
def State.freshAct (s : State) (x : ActSlot) : PendAct :=
  let ext := match slotExtra x with
    | some a => s.rd a
    | none => 0
  { slot := x, tS := (s.rd (slotBase x)).toNat, tNs := (s.rd (slotBase x + 4)).toNat, desc := s.rd (slotBase x + 8),
    extra := ext, began := false }

/-- The slot takes a queue entry in a state, or is REJECTED as QUEUE_FULL (R90). -/
def State.enqueueAct (s : State) (a : PendAct) (st : Nat) : State :=
  let s1 := s.dropAct a.slot
  if (s1.actq.filter (fun b => slotDie b.slot == slotDie a.slot)).length < actCapacity (slotDie a.slot) then
    { s1.setActStat a.slot st 0 false false false with actq := s1.actq ++ [a] }
  else s1.setActStat a.slot stRejected 0x10 false false false

/-- An action carried out late: deferred by its die's supply warning, applied with LATE, or MISSED with reason STATE (R93,
R94). -/
def State.performLate (s : State) (a : PendAct) (supply : Bool) (perform : PendAct → State → Option State) : State :=
  if s.actWarn a then (s.enqueueAct a stPending).setBit (slotStat a.slot) 28 true
  else match perform a s with
    | some t => t.endAct a.slot stDone 0 true (!s.locked) supply
    | none => s.endAct a.slot stMissed 4 false false supply

/-- An action that met a transmission follows its late policy at the transmission's end (R93, R152, R228). -/
def State.lateBlocked (s : State) (x : ActSlot) (perform : PendAct → State → Option State) : State :=
  match s.pendAct x with
  | none => s
  | some a =>
    let pol := s.fld (slotStat x) 31 30
    if pol = 1 then (s.dropAct x).performLate a false perform
    else if pol = 2 then s.setFld (slotStat x) 3 0 stHeld
    else s.endAct x stMissed 4 false false false

/-- A slot's index joins a list that does not hold it. -/
def addOnce (l : List (Fin 8)) (i : Fin 8) : List (Fin 8) := if l.contains i then l else l ++ [i]

/-- What follows a judgement of an action (R91, R93, R97): FAR and PAST are REJECTED; one ahead of its lead time is PENDING, or FROZEN
while EPOCH_PEND is set; a late one follows its policy. -/
def State.actJudged (s : State) (a : PendAct) (policy : Nat) (perform : PendAct → State → Option State) : Judgement → State
  | .far => (s.dropAct a.slot).setActStat a.slot stRejected 2 false false false
  | .past => (s.dropAct a.slot).setActStat a.slot stRejected 3 false false false
  | .ahead => (s.dropAct a.slot).enqueueAct a (if s.epochPend then stFrozen else stPending)
  | .late =>
    if policy = 1 then (s.dropAct a.slot).performLate a false perform
    else if policy = 2 then (s.dropAct a.slot).enqueueAct a stHeld
    else (s.dropAct a.slot).setActStat a.slot stMissed 1 false false false

/-- The judgement of an action against its die's local time, and what follows (R71, R96). -/
def State.judgeAct (s : State) (a : PendAct) (policy : Nat) (perform : PendAct → State → Option State) : State :=
  s.actJudged a policy perform (judge (s.actDiff a) (s.leadNs a.slot))

/-- A fresh arming of a slot (R96): an action it held is withdrawn, POLICY takes the policy in force, and the registers as
they stand are judged. -/
def State.armAct (s : State) (x : ActSlot) (policy : Nat) (perform : PendAct → State → Option State) : State :=
  let pol := if policy = 3 then defaultPolicy x else policy
  let s1 := s.setFld (slotStat x) 31 30 pol
  s1.judgeAct (s.freshAct x) pol perform

/-! ## Starts of target wake time (R249, R250) -/

/-- The TSF of a partition, in µs (R249). -/
def State.tsf (s : State) (p : Nat) : Nat :=
  (((s.now .c : Int) - (s.rd (C16.tsfBase p)).toNat * 1000000000) / 1000 % (2 ^ 64 : Nat)).toNat

def Twt.word (t : Twt) (n : Nat) : Word := t.words.getD n 0
/-- The partition of an entry: the broadcast entries lie per partition (R257). -/
def Twt.part (t : Twt) : Nat := if 1024 ≤ t.idx then (t.idx - 1024) / 16 else bitsOf (t.word 0) 26 24
def Twt.target (t : Twt) : Nat := (t.word 1).toNat + (t.word 2).toNat * 2 ^ 32
def Twt.interval (t : Twt) : Nat := max (t.word 3).toNat 1
/-- The last start at or before a TSF. -/
def Twt.lastStart (t : Twt) (now : Nat) : Option Nat :=
  if t.target ≤ now then some (t.target + (now - t.target) / t.interval * t.interval) else none

/-- Service periods that the scheduler keeps armed on a radio die: the next 64 starts of its partition, while an entry of it is armed; each
holds an entry of the die's queue (R250). -/
def State.twtArmed (s : State) : Die → Nat
  | .d n => if s.sched.twts.any (fun (t : Twt) => t.armed && t.part == n.val) then 64 else 0
  | _ => 0

/-- The starts that a step of local time, or a frozen epoch, has passed are lost: none is served late (R250). -/
def State.twtLost (s : State) : State :=
  { s with sched := { s.sched with twts := s.sched.twts.map (fun (t : Twt) => match t.lastStart (s.tsf t.part) with
    | some x => { t with done := some (max x (t.done.getD 0)) }
    | none => t) } }

end Sys2Proof.Machine
end

