-- ==== Sys2Proof/Machine/Queue.lean ====
section
/-!
DEFINITION. The queue manager: queue numbers, admission, spilling to the DRAM and fetching back, and the service of a port's
class queues (R343 to R346, R350).
-/
namespace Sys2Proof.Machine

/-- Cells of a frame (R343). -/
def cellsOf (f : Frame) : Nat := (f.len + 255) / 256

/-- The frames of a queue, oldest first. -/
def State.queue (s : State) (q : Nat) : List QFrame := (Sparse.find s.qm.queues q).getD []

/-- The frames of a queue replaced. -/
def State.setQueue (s : State) (q : Nat) (l : List QFrame) : State :=
  { s with qm := { s.qm with queues := Sparse.put [] s.qm.queues q l } }

/-- Queue of a station's TID (R236). -/
def staQueue (sta tid : Nat) : Nat := sta * 8 + tid

/-- Queue of a port's class (R343). -/
def portQueue (port cls : Nat) : Nat := 16384 + port * 8 + cls

/-- Broadcast queue of a BSSID's class (R343). -/
def bcastQueue (p b cls : Nat) : Nat := 16640 + (p * 16 + b) * 8 + cls

/-- Cells held in a pool by the queues of a class, or of every class. -/
def State.cellsIn (s : State) (pool : Pool) (cls : Option Nat) : Nat :=
  s.qm.queues.foldl (fun n (x : Nat × List QFrame) =>
    if cls.isNone || cls == some (x.1 % 8) then
      x.2.foldl (fun m (f : QFrame) => if f.pool = pool then m + cellsOf f.frame else m) n
    else n) 0

/-- On-die cells (R343). -/
def cellTotal : Nat := 98304

/-- CELL_FREE (R350). -/
def State.cellFree (s : State) : Nat := cellTotal - s.cellsIn .reserve none - s.cellsIn .shared none

/-- SPILL_USE: spilled frames' space in MB, rounded up (R350). -/
def State.spillUse (s : State) : Nat := (s.cellsIn .dram none * 256 + 1048575) / 1048576

/-- RESERVE of a class (R344). -/
def State.reserveOf (s : State) (c : Nat) : Nat := s.fld (C15.classCfg c) 13 0

/-- Shared cells: those no class reserves (R344). -/
def State.sharedCells (s : State) : Nat := cellTotal - (List.range 8).foldl (fun n c => n + s.reserveOf c) 0

/-- The DRAM takes frames: it is READY (R344, R412). -/
def State.dramTakes (s : State) : Bool := s.fld C7.dramStat 2 0 == 2

/-- A class may spill a frame now (R344). -/
def State.canSpill (s : State) (c cells : Nat) : Bool :=
  s.bit C15.qmCfg c && s.dramTakes && decide ((s.cellsIn .dram none + cells) * 256 ≤ s.fld C15.spillSize 12 0 * 1048576)

/-- The verdict of admission (R344): a pool, or a drop; and whether CLASS_SPILL counts. -/
def State.admission (s : State) (q : Nat) (f : Frame) : Option (Pool × Bool) :=
  let c := q % 8
  let n := cellsOf f
  let l := s.queue q
  let limit := if 16384 ≤ q && q < 16640 then s.fld C15.portQMax 15 0 else s.fld C15.staQMax 12 0
  let inQ := l.foldl (fun m (x : QFrame) => m + cellsOf x.frame) 0
  let free := s.sharedCells - s.cellsIn .shared none
  if limit < inQ + n then none
  else if l.any (fun (x : QFrame) => x.pool == .dram) then (if s.canSpill c n then some (.dram, false) else none)
  else if s.cellsIn .reserve (some c) + n ≤ s.reserveOf c then some (.reserve, false)
  else if n + s.fld (C15.classCfg c) 30 16 ≤ free then some (.shared, false)
  else if s.canSpill c n then some (.dram, true)
  else none

/-- A frame is dropped by the queue manager (R344). -/
def State.classDrop (s : State) (c : Nat) : State := s.count (C15.classDrop c) 1

/-! ## Backlogged stations (R243) -/

/-- An entry is VALID (R235). -/
def Station.valid (t : Station) : Bool := (t.words.getD 1 0).getLsbD 31

/-- The station's entry in use (R233). -/
def State.station (s : State) (i : Nat) : Option Station := s.sched.stations.find? (fun (t : Station) => t.idx == i && t.valid)

/-- A station's entry changed. -/
def State.onStation (s : State) (i : Nat) (f : Station → Station) : State :=
  { s with sched := { s.sched with stations := s.sched.stations.map (fun (t : Station) => if t.idx == i then f t else t) } }

/-- LINKS of an entry includes partition `p` (R235). -/
def Station.linked (t : Station) (p : Nat) : Bool := (t.words.getD 1 0).getLsbD (16 + p)

/-- The station has a non-empty queue. -/
def State.backlogged (s : State) (i : Nat) : Bool := (List.range 8).any (fun k => !(s.queue (staQueue i k)).isEmpty)

/-- The lower of two virtual times, by signed difference modulo 2^32 (R243). -/
def vmin (a b : Nat) : Nat := if sdiff 32 a b < 0 then a else b

/-- The greater of two virtual times. -/
def vmax (a b : Nat) : Nat := if sdiff 32 a b < 0 then b else a

/-- Lowest virtual time among the backlogged stations of a partition (R243). -/
def State.lowestVt (s : State) (p : Nat) : Option Nat :=
  s.sched.stations.foldl (fun best (t : Station) =>
    if t.valid && t.linked p && !t.removing && s.backlogged t.idx then
      match best with
      | none => some (t.vtime.getD p 0)
      | some b => some (vmin b (t.vtime.getD p 0))
    else best) none

/-- A station whose queues were all empty becomes backlogged: on each partition its virtual time takes the lowest of the
backlogged stations, if greater (R243). -/
def State.wakeStation (s : State) (i : Nat) : State :=
  if s.backlogged i then s
  else s.onStation i (fun t => { t with vtime := (List.range 6).map (fun p =>
    match s.lowestVt p with
    | some v => if t.linked p then vmax (t.vtime.getD p 0) v else t.vtime.getD p 0
    | none => t.vtime.getD p 0) })

/-! ## Admission and removal -/

/-- QUEUE_ADMISSION: a frame is admitted on-die, spilled to the DRAM, or dropped (R344). -/
def State.intakeFrame (s : State) (q : Nat) (f : Frame) (sub : Nat) : State :=
  let c := q % 8
  match s.admission q f with
  | none =>
    let s1 := s.classDrop c
    if s.bit C15.qmCfg c && s.dramTakes && !s.canSpill c (cellsOf f) && s.fld C15.spillSize 12 0 != 0 then s1.raise C15.page 1 else s1
  | some (pool, counted) =>
    let s1 := if q < 16384 then s.wakeStation (q / 8) else s
    let x : QFrame := { num := s.qm.nextNum, frame := f, sub := sub, at_ := s.mono, pool := pool }
    let s2 := { s1.setQueue q (s1.queue q ++ [x]) with qm := { (s1.setQueue q (s1.queue q ++ [x])).qm with nextNum := s.qm.nextNum + 1 } }
    let s3 := if counted then s2.count (C15.classSpill c) 1 else s2
    if pool = .dram && s.cellsIn .dram none = 0 then s3.raise C15.page 0 else s3

/-- The head of a queue, when it is on-die (R345). -/
def State.head (s : State) (q : Nat) : Option QFrame :=
  match s.queue q with
  | x :: _ => if x.pool = .dram then none else some x
  | [] => none

/-- A queue without its head. -/
def State.pop (s : State) (q : Nat) : State := s.setQueue q (s.queue q).tail

/-- SPILL_FETCH: the first frame of a queue that lies in the DRAM is fetched back on-die (R345). -/
def execSpillFetch (q : Nat) (s : State) : Host.Outcome State Fault Refusal :=
  let l := s.queue q
  let c := q % 8
  match l.find? (fun (x : QFrame) => x.pool == .dram) with
  | none => .next s
  | some x =>
    let n := cellsOf x.frame
    let pool := if s.cellsIn .reserve (some c) + n ≤ s.reserveOf c then Pool.reserve
      else if s.cellsIn .shared none + n ≤ s.sharedCells then .shared else .dram
    if s.dramTakes then .next (s.setQueue q (l.map (fun (y : QFrame) => if y.num = x.num then { y with pool := pool } else y))) else .next s

/-- Every frame in the DRAM is dropped and counted; the queues go on with their on-die frames (R346). -/
def State.dropSpilled (s : State) : State :=
  s.qm.queues.foldl (fun t (x : Nat × List QFrame) =>
    let gone := (x.2.filter (fun (f : QFrame) => f.pool == .dram)).length
    if gone = 0 then t
    else (t.setQueue x.1 (x.2.filter (fun (f : QFrame) => f.pool != .dram))).count (C15.classDrop (x.1 % 8)) gone) s

/-- DISCARD_SPILL: QM_CMD 1 (R346, R350). -/
def execDiscardSpill (r : Requester) (s : State) : Host.Outcome State Fault Refusal := .next (s.cmdWrite r C15.qmCmd State.dropSpilled)

/-- A freeze of the DRAM stops every queue whose head lies in it: FREEZE_HOLD (R346). -/
def State.freezeHold (s : State) : State :=
  if s.qm.queues.any (fun (x : Nat × List QFrame) => match x.2 with
      | f :: _ => f.pool == .dram
      | [] => false)
  then s.raise C15.page 2 else s

/-! ## Service of a port's classes (R345) -/

/-- Quantum of a class, in octets (R345). -/
def State.quantum (s : State) (c : Nat) : Nat := s.fld (C15.classWeight c) 7 0 * 256

/-- The round robin of a port. -/
def State.drrOf (s : State) (port : Nat) : Drr :=
  (s.qm.drr.find? (fun (d : Drr) => d.port == port)).getD { port := port, cls := 0, deficit := List.replicate 6 0 }

/-- The next class of classes 0 to 5 to serve, by deficit round robin; a class met with frames gains its quantum, and an empty
one loses its deficit. `turn` is set when the present class has just been reached. -/
def drrPick (len : Nat → Option Nat) (quantum : Nat → Nat) : Nat → Bool → Drr → Option (Nat × Drr)
  | 0, _, _ => none
  | n + 1, turn, d =>
    let nxt := (d.cls + 1) % 6
    match len d.cls with
    | none => drrPick len quantum n true { d with cls := nxt, deficit := d.deficit.set d.cls 0 }
    | some k =>
      let have_ := d.deficit.getD d.cls 0 + (if turn then quantum d.cls else 0)
      if k ≤ have_ then some (d.cls, { d with deficit := d.deficit.set d.cls (have_ - k) })
      else drrPick len quantum n true { d with cls := nxt, deficit := d.deficit.set d.cls have_ }

/-- The class a port serves next, and its round robin after that (R345): 7 before 6 before the others. -/
def State.nextClass (s : State) (port : Nat) : Option (Nat × Drr) :=
  let d := s.drrOf port
  let len := fun c => (s.head (portQueue port c)).map (fun (x : QFrame) => x.frame.len)
  if (len 7).isSome then some (7, d)
  else if (len 6).isSome then some (6, d)
  else if (List.range 6).all (fun c => (len c).isNone) then none
  else drrPick len s.quantum 4096 false d

/-- A port takes its next frame (R345). -/
def State.takePort (s : State) (port : Nat) : Option (QFrame × Nat × State) :=
  match s.nextClass port with
  | none => none
  | some (c, d) =>
    match s.head (portQueue port c) with
    | none => none
    | some x =>
      let s1 := s.pop (portQueue port c)
      some (x, c, { s1 with qm := { s1.qm with drr := d :: s1.qm.drr.filter (fun (e : Drr) => e.port != port) } })

end Sys2Proof.Machine
end

