-- ==== Sys2Proof/Machine/Plan.lean ====
section
/-!
DEFINITION. What the access radio and its scheduler share: partitions and their dies, station entries as the scheduler reads them, and
the standing plan of a partition (R200 to R202, R235, R237, R241 to R247).
-/
namespace Sys2Proof.Machine

/-! ## Partitions (R201, R202) -/

/-- The partition of lead die `d`. -/
def State.part? (s : State) (d : Nat) : PartState := s.acc.parts.getD d PartState.empty

/-- The partition of lead die `d` changed. -/
def State.onPart (s : State) (d : Nat) (f : PartState → PartState) : State :=
  { s with acc := { s.acc with parts := s.acc.parts.set d (f (s.part? d)) } }

/-- The die with an index. -/
def dieN (n : Nat) : Die := if h : n < 6 then .d ⟨n, h⟩ else .e

/-- Role of the die with an index (R23). -/
def State.roleN (s : State) (n : Nat) : Role := s.power.role.toList.getD n .off

/-- Dies a partition of lead die `d` spans (R24): one, two or four. -/
def State.partDies (s : State) (d : Nat) : List Nat := (List.range (2 ^ s.fld (D4.partCfg d) 1 0)).map (fun k => d + k)

/-- The partition of lead die `d` is enabled (R202). -/
def State.partOn (s : State) (d : Nat) : Bool :=
  s.powered (dieN d) && s.roleN d == .access && s.bit (HDR.pageCtrl (D4.page d)) 0

/-- The lead die of the enabled partition that die `n` is a member of (R201). -/
def State.memberOf (s : State) (n : Nat) : Option Nat :=
  (List.range 6).find? (fun d => d != n && s.partOn d && (s.partDies d).contains n && s.roleN n == .access)

/-- The state of a partition (R211). -/
def State.pa (s : State) (d : Nat) : Nat := s.fld (D4.partStat d) 3 0

/-- The state of a partition replaced. -/
def State.setPa (s : State) (d st : Nat) : State := s.setFld (D4.partStat d) 3 0 st

/-- PART_STAT.LOCKED. -/
def State.paLocked (s : State) (d : Nat) : Bool := s.bit (D4.partStat d) 15

/-- The channel in force: PART_CHAN, but while a change of it waits the channel before (R209, R240). -/
def State.partChanOf (s : State) (d : Nat) : Word := ((s.part? d).chanCur).getD (s.rd (D4.partChan d))

/-- The state that PART_CFG.RETURN names: 0 IDLE, 1 LISTEN, 2 SLEEP; as PART_STAT.STATE codes it (R211, R212). -/
def State.paRetState (s : State) (d : Nat) : Nat :=
  let r := s.fld (D4.partCfg d) 5 4
  if r = 0 then 1 else if r = 1 then 3 else 0

/-- The dies of a partition still in it. -/
def State.liveDies (s : State) (d : Nat) : List Nat := (s.partDies d).filter (fun n => !(s.part? d).gone.getLsbD n)

/-- Tiles in service on a die of the partition (R202, R230). -/
def State.tilesIn (s : State) (n : Nat) : Nat := s.fld (D1.tileStat n) 3 0

/-- PART_STAT.CHAINS: four for each tile in service (R230). -/
def State.showChains (s : State) (d : Nat) : State :=
  let n := (s.liveDies d).foldl (fun c k => c + ((List.range 4).filter (fun t => s.bit (D1.tileStat k) t)).length * 4) 0
  s.setFld (D4.partStat d) 14 8 n

/-- The scheduler of a partition beside its registers. -/
def State.ps (s : State) (p : Nat) : PartSched :=
  s.sched.parts.getD p PartSched.fresh

def State.onPs (s : State) (p : Nat) (f : PartSched → PartSched) : State :=
  { s with sched := { s.sched with parts := s.sched.parts.set p (f (s.ps p)) } }

/-- The scheduler of a partition is in a TXOP (R240). -/
def State.inTxop (s : State) (d : Nat) : Bool := (s.ps d).txop.isSome

/-! ## Station entries (R235) -/

def Station.word (t : Station) (n : Nat) : Word := t.words.getD n 0
def Station.links (t : Station) : Nat := bitsOf (t.word 1) 21 16
def Station.bssid (t : Station) : Nat := bitsOf (t.word 1) 27 24
def Station.mode (t : Station) : Nat := bitsOf (t.word 2) 14 12
def Station.nss (t : Station) : Nat := bitsOf (t.word 2) 18 15
def Station.mcs (t : Station) : Nat := bitsOf (t.word 2) 25 22
/-- MU_DL and TRIG count only from HE on (R235). -/
def Station.muDl (t : Station) : Bool := bitOf (t.word 2) 26 && decide (3 ≤ t.mode)
def Station.trig (t : Station) : Bool := bitOf (t.word 2) 27 && decide (3 ≤ t.mode)
def Station.protected_ (t : Station) : Bool := bitOf (t.word 2) 29
def Station.weight (t : Station) : Nat := bitsOf (t.word 3) 7 0
def Station.profile (t : Station) : Nat := bitsOf (t.word 3) 11 8
/-- Largest bitmap offered (R235). -/
def Station.window (t : Station) : Nat := [64, 256, 512, 1024].getD (bitsOf (t.word 3) 13 12) 64

/-- The station is in a current weight set of some partition it is linked to (R221). -/
def State.weightsOk (s : State) (p i : Nat) : Bool := (s.part? p).weights.any (fun (w : WeightSet) => w.stations.contains i)

/-! ## Target wake time (R249, R250) -/

def Twt.dur (t : Twt) : Nat := bitsOf (t.word 4) 7 0 * 256
/-- The stations of an entry: one, or every station of the partition for a broadcast schedule, whose members the spec does not
hold anywhere. -/
def Twt.serves (t : Twt) (i : Nat) : Bool := decide (1024 ≤ t.idx) || bitsOf (t.word 0) 10 0 == i

/-- The first start at or after a TSF. -/
def Twt.nextStart (t : Twt) (now : Nat) : Nat :=
  if now ≤ t.target then t.target else t.target + (now - t.target + t.interval - 1) / t.interval * t.interval

/-! ## Eligibility (R237, R247, R248) -/

/-- A service period that serves a station is open on a partition. -/
def State.spServes (s : State) (p i : Nat) : Bool :=
  s.sched.twts.any (fun (t : Twt) => t.opened.isSome && t.part == p && t.serves i)

/-- A service period is open on a partition. -/
def State.spOpen (s : State) (p : Nat) : Bool := s.sched.twts.any (fun (t : Twt) => t.opened.isSome && t.part == p)

/-- Awake for downlink (R248). -/
def State.awake (s : State) (t : Station) : Bool :=
  !t.ps || t.poll || (List.range 6).any (fun p => t.linked p && s.spServes p t.idx)

/-- TIDs of a station eligible for downlink on a partition, with frames on-die (R237, R345). -/
def State.eligible (s : State) (p : Nat) (t : Station) : List Nat :=
  if t.valid && t.linked p && !t.removing && s.awake t then (List.range 8).filter (fun k => (s.head (staQueue t.idx k)).isSome) else []

/-- MPDUs of a station that wait for a retry (R253). -/
def Station.retryable (t : Station) : List Mpdu := t.tx.filter (fun (m : Mpdu) => m.air.isNone)

/-- Group-addressed frames wait on a partition. -/
def State.groupWaits (s : State) (p : Nat) : Bool := (List.range 128).any (fun k => (s.head (16640 + p * 128 + k)).isSome)

/-- Age of a station's youngest current weights on a partition (R221). -/
def State.weightBorn (s : State) (p i : Nat) : Option Nat :=
  ((s.part? p).weights.filter (fun (w : WeightSet) => w.stations.contains i)).foldl (fun (b : Option Nat) w => match b with
    | none => some w.born
    | some x => some (max x w.born)) none

/-- Stations due for sounding, those with the oldest weights first (R247). -/
def State.soundDue (s : State) (p : Nat) : List Nat :=
  let due := s.sched.stations.filter (fun (t : Station) => t.valid && t.linked p && !t.removing &&
    ((s.bit (C16.schedCfg p) 4 && t.muDl && s.backlogged t.idx && (match s.weightBorn p t.idx with
        | none => true
        | some b => decide (b + s.fld (C16.schedCfg p) 25 16 * 1000000 < s.mono))) || (s.ps p).soundAgain.contains t.idx))
  let key := fun (t : Station) => (s.weightBorn p t.idx).getD 0
  ((due.map (fun t => (key t, t.idx))).mergeSort (fun a b => decide (a.1 < b.1) || (a.1 == b.1 && decide (a.2 ≤ b.2)))).map Prod.snd

/-! ## Resource units (R204, R244, R245) -/

/-- Tones of a whole channel, by bandwidth code (R243). -/
def wholeTones (bw : Nat) : Nat := [242, 484, 996, 1992, 3984].getD bw 242

/-- User limit, by bandwidth code (R245). -/
def userLimit (bw : Nat) : Nat := [9, 18, 37, 74, 148].getD bw 9

/-- First 26-tone unit of 20 MHz subchannel `i`: from 80 MHz on each 80 MHz has a centre unit of its own. -/
def subUnit (bw i : Nat) : Nat := if bw ≤ 1 then 9 * i else 37 * (i / 4) + 9 * (i % 4) + (if 2 ≤ i % 4 then 1 else 0)

/-- Units from `a`, `n` of them. -/
def units (a n : Nat) : List Nat := (List.range n).map (fun k => a + k)

/-- A resource unit: its tones and its 26-tone units. -/
abbrev Ru := Nat × List Nat

/-- Resource units of a channel, smallest first: RUs of 26 to 3,984 tones and the MRUs of 484 tones and more (R204; their
places are those of IEEE 802.11be). -/
def ruList (bw : Nat) : List Ru :=
  let subs := List.range (2 ^ bw)
  let u := subUnit bw
  let ru := fun (tones n : Nat) (from_ : List Nat) => from_.map (fun a => ((tones, units a n) : Ru))
  let n80 := if bw < 2 then 0 else 2 ^ (bw - 2)
  let half := fun (i : Nat) => units (u (2 * i)) 9 ++ units (u (2 * i + 1)) 9
  let seg := fun (j : Nat) => units (37 * j) 37
  ru 26 1 (List.range (userLimit bw))
    ++ ru 52 2 (subs.flatMap (fun i => [u i, u i + 2, u i + 5, u i + 7]))
    ++ ru 106 4 (subs.flatMap (fun i => [u i, u i + 5]))
    ++ ru 242 9 (subs.map u)
    ++ (List.range (2 ^ bw / 2)).map (fun i => (484, half i))
    ++ (List.range n80).flatMap (fun j => (List.range 4).map (fun k =>
        (726, half (2 * j + (if k < 2 then 1 else 0)) ++ units (u (4 * j + k)) 9)))
    ++ (List.range n80).map (fun j => (996, seg j))
    ++ (List.range (n80 / 2)).flatMap (fun h => (List.range 4).map (fun k =>
        (1480, seg (2 * h + (if k < 2 then 1 else 0)) ++ half (4 * h + k))))
    ++ (List.range (n80 / 2)).map (fun h => (1992, seg (2 * h) ++ seg (2 * h + 1)))
    ++ (if bw = 4 then (List.range 4).map (fun k => (2988, ((List.range 4).filter (fun j => j != k)).flatMap seg)) else [])
    ++ (if bw = 4 then (List.range 8).map (fun k => (3472, ((List.range 4).filter (fun j => j != k / 2)).flatMap seg ++ half k)) else [])
    ++ (if bw = 4 then [(3984, units 0 148)] else [])

/-- Units that punctured subchannels take away (R245). -/
def puncturedUnits (bw punct : Nat) : List Nat :=
  ((List.range (2 ^ bw)).filter (fun i => punct / 2 ^ i % 2 == 1)).flatMap (fun i => units (subUnit bw i) 9)

/-- The units of the MU-MIMO RU: the 160 MHz that holds the primary 20 MHz, or the whole channel (R244). -/
def muUnits (bw pri : Nat) : List Nat := if bw = 4 then units (74 * (pri / 8)) 74 else units 0 (userLimit bw)

/-- Tones of a single-user PPDU: the largest RU or MRU that meets no punctured subchannel (R245). -/
def wholeRu (bw punct : Nat) : Nat :=
  match ((ruList bw).filter (fun (r : Ru) => r.2.all (fun x => !(puncturedUnits bw punct).contains x))).getLast? with
  | some r => r.1
  | none => wholeTones bw

/-! ## Building a step of a plan (R244, R246) -/

/-- What the builder carries: allocations, stations on the MU-MIMO RU with their streams, and the free units. -/
structure Build where
  allocs : List Alloc
  mu : List (Nat × Nat)
  muOn : Bool
  free : List Nat
  deriving DecidableEq, Repr

/-- Streams on the MU-MIMO RU. -/
def Build.streams (b : Build) : Nat := b.mu.foldl (fun n x => n + x.2) 0

def Build.users (b : Build) : Nat := b.allocs.length + b.mu.length

/-- A candidate of a step: its station, backlog in octets, MCS, and whether the MU-MIMO RU may take it. -/
structure Cand where
  sta : Nat
  nss : Nat
  mcs : Nat
  bytes : Nat
  muOk : Bool
  deriving DecidableEq, Repr

/-- One candidate is placed (R244): on the MU-MIMO RU, or on the smallest free RU that holds its backlog over the duration, or
else on the largest free one, or skipped. -/
def Build.place (b : Build) (rus : List Ru) (ofdma : Bool) (limit maxUsers us : Nat) (corrOk : Nat → Nat → Bool) (c : Cand) : Build :=
  if maxUsers ≤ b.users then b
  else if b.muOn && c.muOk && b.streams < limit && b.mu.length < 8 && b.mu.all (fun x => corrOk x.1 c.sta) then
    { b with mu := b.mu ++ [(c.sta, min (min c.nss 4) (limit - b.streams))] }
  else if !ofdma then b
  else
    let open_ := rus.filter (fun (r : Ru) => r.2.all b.free.contains)
    let pick := match open_.find? (fun r => decide (c.bytes ≤ Config.ruCapacity r.1 c.mcs (min c.nss 8) us)) with
      | some r => some r
      | none => open_.getLast?
    match pick with
    | none => b
    | some r => { b with
      allocs := b.allocs ++ [{ sta := c.sta, streams := min c.nss 8, tones := r.1, mu := false }]
      free := b.free.filter (fun x => !r.2.contains x) }

/-- A multi-user step over its candidates in order (R244): one station on the MU-MIMO RU becomes its OFDMA user, and with none the
RU returns to OFDMA allocation. The RU is the largest, of at least 242 tones, that lies in its 160 MHz or whole channel and meets no
punctured subchannel (R245). -/
def buildMu (bw pri punct : Nat) (muOn ofdma : Bool) (limit maxUsers us : Nat) (corrOk : Nat → Nat → Bool) (cs : List Cand) : List Alloc :=
  let rus := ruList bw
  let all := (units 0 (userLimit bw)).filter (fun x => !(puncturedUnits bw punct).contains x)
  let room := (rus.filter (fun (r : Ru) => decide (242 ≤ r.1) && r.2.all (fun x => (muUnits bw pri).contains x && all.contains x))).getLast?
  let mine := (room.map Prod.snd).getD []
  let tones := (room.map Prod.fst).getD 0
  let muOn := muOn && room.isSome
  let b0 : Build := { allocs := [], mu := [], muOn := muOn, free := if muOn then all.filter (fun x => !mine.contains x) else all }
  let b1 := cs.foldl (fun (b : Build) c => b.place rus ofdma limit maxUsers us corrOk c) b0
  match b1.mu with
  | [] =>
    if muOn then
      let rest := cs.filter (fun c => !b1.allocs.any (fun a => a.sta == c.sta))
      (rest.foldl (fun (b : Build) c => b.place rus ofdma limit maxUsers us corrOk c)
        { b1 with muOn := false, free := all.filter (fun x => b1.free.contains x || mine.contains x) }).allocs
    else b1.allocs
  | [x] => { sta := x.1, streams := x.2, tones := tones, mu := false } :: b1.allocs
  | l => l.map (fun x => { sta := x.1, streams := x.2, tones := tones, mu := true }) ++ b1.allocs

/-! ## Deadlines and candidates (R238, R244) -/

/-- Deadline of a profile's TID in ns, none for none; and its DROP_LATE (R238). -/
def State.deadline (s : State) (prof tid : Nat) : Option Nat :=
  let a := C16.profile prof (tid / 2)
  let d := if tid % 2 = 0 then s.fld a 13 0 else s.fld a 29 16
  if d = 0 then none else some (d * 1000000)

def State.dropLate (s : State) (prof tid : Nat) : Bool := s.bit (C16.profile prof (tid / 2)) (if tid % 2 = 0 then 14 else 30)

/-- Earliest deadline, in `mono`, among a station's urgent frames (R238). -/
def State.urgentAt (s : State) (p : Nat) (t : Station) : Option Nat :=
  (s.eligible p t).foldl (fun (b : Option Nat) k => match s.deadline t.profile k, s.head (staQueue t.idx k) with
    | some d, some x =>
      if x.at_ + d ≤ s.mono + s.fld (C16.txopCfg p) 15 0 * 1000 then
        match b with
        | none => some (x.at_ + d)
        | some y => some (min y (x.at_ + d))
      else b
    | _, _ => b) none

/-- The order of R244: urgent first by earliest deadline, then stations of an open service period (R250), then lowest virtual
time; ties to the lower index. -/
def State.candBefore (s : State) (p : Nat) (a b : Station) : Bool :=
  let va := a.vtime.getD p 0
  let vb := b.vtime.getD p 0
  let byVt := if va = vb then decide (a.idx ≤ b.idx) else decide (sdiff 32 va vb < 0)
  match s.urgentAt p a, s.urgentAt p b with
  | some x, some y => decide (x < y) || (x == y && decide (a.idx ≤ b.idx))
  | some _, none => true
  | none, some _ => false
  | none, none =>
    let sa := s.spServes p a.idx
    let sb := s.spServes p b.idx
    if sa = sb then byVt else sa

/-- Backlog of a station's eligible queues and of its retries, in octets. -/
def State.backlogBytes (s : State) (p : Nat) (t : Station) : Nat :=
  (s.eligible p t).foldl (fun n k => (s.queue (staQueue t.idx k)).foldl (fun m (x : QFrame) =>
    if x.pool = .dram then m else m + x.frame.len) n) (t.retryable.foldl (fun m (x : Mpdu) => m + x.frame.len) 0)

/-- Downlink candidates in order (R244). -/
def State.dlStations (s : State) (p : Nat) : List Station :=
  (s.sched.stations.filter (fun (t : Station) => !(s.eligible p t).isEmpty
    || (t.valid && t.linked p && !t.removing && s.awake t && !t.retryable.isEmpty))).mergeSort (s.candBefore p)

/-- Access category of a TID, in priority order 0 BK, 1 BE, 2 VI, 3 VO, and its EDCA index (R236, R256). -/
def tidAc (tid : Nat) : Nat := [1, 0, 0, 1, 2, 2, 3, 3].getD tid 1
def acIndex (pri : Nat) : Nat := [1, 0, 2, 3].getD pri 0

/-- Highest access category among the eligible queues; AC_VO in a service period (R240, R250). -/
def State.contendAc (s : State) (p : Nat) : Nat :=
  if s.spOpen p then 3
  else s.sched.stations.foldl (fun n (t : Station) => (s.eligible p t).foldl (fun m k => max m (tidAc k)) n) 0

/-! ## Plans (R241, R242, R245 to R247) -/

/-- µs until the earliest instant that a plan must end before: the next TBTT, the next service period, an armed action's
preparation (R242). -/
def State.blocker (s : State) (p : Nat) : Nat :=
  let t := s.tsf p
  let per := s.fld (C16.bcnCfg p) 15 0 * 1024
  let tbtt := (t / max per 1 + 1) * per - t
  let sps := s.sched.twts.filterMap (fun (x : Twt) => if x.armed && x.part == p && x.opened.isNone then some (x.nextStart (t + 1) - t) else none)
  let acts := s.actq.filterMap (fun (a : PendAct) => match a.slot with
    | .part d _ => if d.val == p && s.fld (slotStat a.slot) 3 0 == stPending then some ((s.actDiff a).toNat / 1000) else none
    | _ => none)
  (sps ++ acts).foldl min tbtt

/-- SIFS of a partition's band, µs (R210). -/
def State.sifs (s : State) (p : Nat) : Nat := if bitsOf (s.partChanOf p) 1 0 = 0 then 10 else 16

/-- Time that a standing plan has when it is won, µs: what it was built for, up to SIFS before what blocks it now (R241, R242). -/
def State.planRoom (s : State) (p : Nat) (q : Plan) : Nat := min (q.dur.getD 0) (s.blocker p - s.sifs p)

/-- Longest plan of an access category, µs: its TXOP limit, or one exchange (R241). -/
def State.txopLimit (s : State) (p ac : Nat) : Nat :=
  let l := s.fld (C16.edca p (acIndex ac)) 23 16 * 32
  if l = 0 then 65535 else l

/-- TRIG stations with no report newer than BSRP_MS (R246). -/
def State.bsrpStale (s : State) (p : Nat) : Bool :=
  s.sched.stations.any (fun (t : Station) => t.valid && t.linked p && !t.removing && t.trig && (match t.ulAt with
    | none => true
    | some x => decide (x + s.fld (C16.ulCfg p) 15 8 * 1000000 ≤ s.mono)))

/-- The least number of µs, up to `most`, in which an allocation carries a backlog (R244). -/
def timeFor (a : Alloc) (mcs bytes most : Nat) : Nat :=
  ((List.range most).find? (fun us => decide (bytes ≤ Config.ruCapacity a.tones mcs a.streams us))).getD most

/-- Deadline and DROP_LATE of each TID of a station, as its profile stands (R238, R239). -/
def State.lateOf (s : State) (t : Station) : Nat × List (Option Nat × Bool) :=
  (t.idx, (List.range 8).map (fun k => (s.deadline t.profile k, s.dropLate t.profile k)))

/-- The DL step for a duration (R244): single-user to the first candidate, where it is the only one or a multi-user PPDU may not hold it
(R235), or multi-user. The spatial streams are limited by the chains in
service (R202). `i` is a free index. -/
def State.dlAllocs (s : State) (p work i : Nat) : List Alloc :=
  let cfg := C16.schedCfg p
  let chan := s.partChanOf p
  let bw := bitsOf chan 4 2
  let chains := s.fld (D4.partStat p) 14 8
  let corr := fun a b => Config.uncorrelated i p a b
  let cand := fun (x : Station) =>
    ({ sta := x.idx, nss := min x.nss chains, mcs := x.mcs, bytes := s.backlogBytes p x, muOk := x.muDl && s.weightsOk p x.idx } : Cand)
  let single := fun (x : Station) => [({ sta := x.idx, streams := min (min x.nss 8) chains, tones := wholeRu bw (s.fld (D4.partPunct p) 15 0), mu := false } : Alloc)]
  match s.dlStations p with
  | [] => []
  | x :: rest =>
    let multi := (x :: rest).filter (fun y => decide (3 ≤ y.mode))
    if rest.isEmpty || (!s.bit cfg 0 && !s.bit cfg 2) || decide (x.mode < 3) || decide (multi.length < 2) then single x
    else buildMu bw (bitsOf chan 19 16) (s.fld (D4.partPunct p) 15 0) (s.bit cfg 2) (s.bit cfg 0) (min 16 chains)
      (min (s.fld cfg 15 8) (userLimit bw)) work corr (multi.map cand)

/-- The UL step for a duration (R246), its streams limited by the chains in service (R202). -/
def State.ulAllocs (s : State) (p work : Nat) : List Alloc :=
  let cfg := C16.schedCfg p
  let chan := s.partChanOf p
  let bw := bitsOf chan 4 2
  let chains := s.fld (D4.partStat p) 14 8
  let ulS := (s.sched.stations.filter (fun (x : Station) => x.valid && x.linked p && !x.removing && x.trig && x.ul != 0)).mergeSort (s.candBefore p)
  let ulCand := fun (x : Station) => ({ sta := x.idx, nss := min x.nss chains, mcs := bitsOf (x.word 3) 23 16, bytes := x.ul, muOk := true } : Cand)
  if (s.bit cfg 1 || s.bit cfg 3) && work ≠ 0 then
    buildMu bw (bitsOf chan 19 16) (s.fld (D4.partPunct p) 15 0) (s.bit cfg 3) (s.bit cfg 1) (min 8 chains)
      (min (s.fld cfg 15 8) (userLimit bw)) work (fun _ _ => true) (ulS.map ulCand)
  else []

/-- A standing plan is built (R241, R242, R244, R246, R247). The steps share the plan's time: the DL step has what a sounding leaves, less
its acknowledgement exchange, and ends once its largest backlog is sent; the UL step has what remains after it. A TXOP limit of 0
leaves one exchange, DL before UL, and a sounding only where neither is due. -/
def State.planBuild (s : State) (p : Nat) : State :=
  let ac := s.contendAc p
  let limit := s.txopLimit p ac
  let block := s.blocker p - s.sifs p
  let us := min limit block
  let one := s.fld (C16.edca p (acIndex ac)) 23 16 == 0
  let due := (s.soundDue p).take 32
  let ack := Config.ackExchange p
  s.draw (fun i t =>
    let sounds := !due.isEmpty && !(one && !((s.dlStations p).isEmpty && (s.ulAllocs p (us - ack)).isEmpty))
    let left := if sounds then us - Config.soundTime due.length (s.fld (D5.bfCfg p) 3 0) else us
    let work := left - ack
    let dl := s.dlAllocs p work i
    let need := fun (a : Alloc) => match s.station a.sta with
      | some e => timeFor a e.mcs (s.backlogBytes p e) work
      | none => 0
    let dlUs := dl.foldl (fun n a => max n (need a)) 0
    let used := if dl.isEmpty then 0 else dlUs + ack + s.sifs p
    let ul := if one && !dl.isEmpty then [] else s.ulAllocs p (left - used - ack)
    let plan : Plan := { sound := if sounds then due else [], dl := dl, ul := ul, bsrp := (s.ps p).plan.bsrp && ul.isEmpty,
                         dur := if 0 < work then some us else none, dlUs := dlUs, one := one,
                         late := (s.dlStations p).map s.lateOf }
    let t1 := t.onPs p (fun q => { q with plan := plan, built := s.mono })
    if block < limit && limit ≠ 65535 then t1.setFld (C16.schedStat p) 31 24 ((s.fld (C16.schedStat p) 31 24 + 1) % 256) else t1)

end Sys2Proof.Machine
end

