-- ==== Sys2Proof/Machine/Access.lean ====
section
/-!
DEFINITION. The access radio: partitions, channels, the packet sequencer's states, transmissions and receptions, tiles and
chains, calibration, sounding and weights, and the partition actions (R200 to R231).
-/
namespace Sys2Proof.Machine

/-- PART_STAT.STATE codes (R211). -/
def paSleep : Nat := 0
def paIdle : Nat := 1
def paSettle : Nat := 2
def paListen : Nat := 3
def paRx : Nat := 4
def paTx : Nat := 5
def paCal : Nat := 6

/-! ## Channels (R203, R209) -/

/-- Bandwidth codes a band allows (R203). -/
def maxBw (band : Nat) : Nat := if band = 0 then 1 else if band = 1 then 3 else 4

/-- Numbers from `a` to `b` in steps of `k`. -/
def stepsTo (a b k : Nat) : List Nat := (List.range ((b - a) / k + 1)).map (fun i => a + i * k)

/-- Legal centres of a band and bandwidth, rising (R203). -/
def centres (band bw : Nat) : List Nat :=
  if band = 0 then (if bw = 0 then stepsTo 1 13 1 else stepsTo 3 11 1)
  else if band = 1 then
    if bw = 0 then stepsTo 36 64 4 ++ stepsTo 100 144 4 ++ stepsTo 149 177 4
    else if bw = 1 then stepsTo 38 62 8 ++ stepsTo 102 142 8 ++ stepsTo 151 175 8
    else if bw = 2 then [42, 58, 106, 122, 138, 155, 171]
    else [50, 114, 163]
  else if bw = 0 then stepsTo 1 233 4
  else if bw = 1 then stepsTo 3 227 8
  else if bw = 2 then stepsTo 7 215 16
  else if bw = 3 then stepsTo 15 207 32
  else stepsTo 31 191 32

/-- The nearest of a rising list; a tie goes to the lower (R203). -/
def nearest (l : List Nat) (c : Nat) : Nat :=
  (l.foldl (fun (best : Option Nat) x =>
    match best with
    | none => some x
    | some b => if (x : Int) - c < (c : Int) - b then some x else some b) none).getD c

/-- A channel word clamped in the order BAND, BW, CHAN, PRI20 (R46, R203). -/
def clampChan (w : Word) : Word :=
  let band := if bitsOf w 1 0 = 3 then 0 else bitsOf w 1 0
  let bw := min (bitsOf w 4 2) (maxBw band)
  let chan := nearest (centres band bw) (bitsOf w 15 8)
  let pri := min (bitsOf w 19 16) (2 ^ bw - 1)
  BitVec.ofNat 32 (band + bw * 4 + chan * 2 ^ 8 + pri * 2 ^ 16)

/-- Centre frequency in kHz (R203). -/
def centreKhz (w : Word) : Nat :=
  (if bitsOf w 1 0 = 0 then 2407000 else if bitsOf w 1 0 = 1 then 5000000 else 5950000) + 5000 * bitsOf w 15 8

/-- The PHASE_TAB entry that holds a channel's inter-chain phase (R209, R227). -/
def State.phaseEntry (s : State) (d : Nat) (chan : Word) : Option Nat :=
  (List.range 4).find? (fun k => s.bit (D3.phaseTab d k) 31 && s.fld (D3.phaseTab d k) 15 0 == bitsOf chan 15 0)

/-- Every die of a partition shows the synthesiser's lock and settling (R227). -/
def State.synShow (s : State) (d : Nat) (locked settling : Bool) : State :=
  let v := BitVec.ofNat 32 (b2n locked + 2 * b2n settling)
  (s.setBit (D4.partStat d) 15 locked).wrs ((s.liveDies d).map (fun n => (D2.synStat n, v)))

/-- The BAND outputs of some dies: low on the 2.4 GHz path, high on the 5 and 6 GHz path. They change only here, in a channel change, while
SETTLE holds TXEN and RXEN low (R205). -/
def State.setBand (s : State) (dies : List Nat) (high : Bool) : State :=
  let m : BitVec 6 := dies.foldl (fun b n => b ||| BitVec.ofNat 6 (2 ^ n)) 0
  { s with acc := { s.acc with band := if high then s.acc.band ||| m else s.acc.band &&& ~~~ m } }

/-- The synthesisers of a partition settle on PART_CHAN towards a goal (R209, R211). -/
def State.paSettleTo (s : State) (d : Nat) (g : PartGoal) : State :=
  let w := s.rd (D4.partChan d)
  let s1 := (s.setPa d paSettle).synShow d false true
  let s2 := s1.wrs ((s.liveDies d).map (fun n => (D2.synFreq n, BitVec.ofNat 32 (centreKhz w))))
  (s2.setBand (s.liveDies d) (bitsOf w 1 0 != 0)).onPart d (fun p => { p with goal := g, needPhase := (s.phaseEntry d w).isNone })

/-- The partition goes to a state it was told to (R211): LISTEN needs the synthesiser locked. -/
def State.paGo (s : State) (d st : Nat) : State :=
  if st = paListen && !s.paLocked d then s.paSettleTo d (.state paListen)
  else s.setPa d st

/-- State of PART_CFG.RETURN: 0 IDLE, 1 LISTEN, 2 SLEEP (R212). -/
def State.paReturn (s : State) (d : Nat) : State := s.paGo d (s.paRetState d)

/-- A frame of a station is dropped: its own counter (R235). -/
def State.staDrop (s : State) (i : Nat) : State := s.onStation i (fun t => { t with dropped := t.dropped + 1 })

/-- An MPDU was not acknowledged: it is retried, or after RETRY_MAX dropped, with a BAR due for the gap (R253). -/
def State.mpduFail (s : State) (p i : Nat) (m : Mpdu) : State :=
  if m.retries + 1 ≤ s.fld (C16.txopCfg p) 19 16 then
    s.onStation i (fun t => { t with tx := t.tx.map (fun y => if y.tid == m.tid && y.sn == m.sn then { y with air := none, retries := y.retries + 1 } else y) })
  else
    (((s.onStation i (fun t => { t with tx := t.tx.filter (fun y => !(y.tid == m.tid && y.sn == m.sn)), bar := m.tid :: t.bar.filter (fun k => k != m.tid) })).staDrop i).bump
      (C16.dropCnt p) 31 16 1)

/-- MPDUs in a partition's PPDUs whose exchange has ended without an answer are offered again, or dropped after their last retry
(R253). -/
def State.airClear (s : State) (p : Nat) : State :=
  s.sched.stations.foldl (fun t (e : Station) => (e.tx.filter (fun (m : Mpdu) => m.air == some p)).foldl (fun u m => u.mpduFail p e.idx m) t) s

/-- WEIGHT_CNT shows the current weight sets (R229). -/
def State.showWeights (s : State) (d : Nat) : State :=
  s.setFld (D5.weightCnt d) 9 0 (min (s.part? d).weights.length 1023)

/-- All weights become invalid with their channel, and so do the channel-state records that were sounded on it; WEIGHTS_STALE (R221). -/
def State.weightsStale (s : State) (d : Nat) : State :=
  ((s.onPart d (fun p => { p with weights := [], csr := [] })).showWeights d).raise (D5.page d) 2

/-- A channel change takes effect: the weights go with the old channel, and the synthesisers settle towards a goal (R209, R221). -/
def State.paApply (s : State) (d : Nat) (g : PartGoal) : State :=
  let s1 := s.onPart d (fun p => { p with chanPend := false, chanCur := none })
  (if (s.part? d).chanCur.isSome then s1.weightsStale d else s1).paSettleTo d g

/-- A channel change that waited takes effect: a reception in progress ends as PREEMPTED, and the return state follows (R209, R211, R240). -/
def State.paChanDue (s : State) (d : Nat) : State :=
  let st := s.pa d
  if !(s.part? d).chanPend || st = paTx || st = paCal then s
  else
    let s1 := s.onPart d (fun p => { p with rx := none })
    let s2 := if (s.part? d).rx.isSome then s1.bump (D4.captureCnt d) 31 16 1 else s1
    s2.paApply d (if st = paSettle then (s.part? d).goal else .state (if st = paRx then s.paRetState d else st))

/-- A service bit of SCHED_CFG is set (R240). -/
def State.serviceOn (s : State) (p : Nat) : Bool := s.fld (C16.schedCfg p) 4 0 != 0

/-- The TXOP of a partition ends: its unanswered MPDUs are offered again, a pause or a channel change that waited for it takes effect, the
stations `again` of an abandoned sequence are due again, and the plan is rebuilt (R240, R241, R247, R253). -/
def State.txopCut (s : State) (d : Nat) (again : List Nat) : State :=
  let s1 := ((s.airClear d).onPs d (fun q => { q with
    txop := none, paused := s.serviceOn d && (q.paused || q.pauseReq), pauseReq := false, soundAgain := q.soundAgain ++ again })).paChanDue d
  if s.inTxop d then s1.planBuild d else s1

/-- A sounding sequence is abandoned with a reason, and the feedback it wrote is discarded (R222, R231). -/
def State.soundAbandon (s : State) (d reason : Nat) : State :=
  match (s.part? d).sounding with
  | none => s
  | some q =>
    let s1 := s.onPart d (fun p => { p with sounding := none, csr := p.csr.filter (fun x => !q.reports.contains x) })
    let s2 := ((s1.wr (D5.soundStat d) 0).bump (D5.soundCnt d) 31 16 1).raise (D5.page d) 1
    (s2.err (D5.page d) 0x0100 (BitVec.ofNat 32 reason)).txopCut d q.stations

/-- A reception in progress ends as PREEMPTED, and is counted (R209). -/
def State.paPreempt (s : State) (d : Nat) : State :=
  if (s.part? d).rx.isSome then ((s.onPart d (fun p => { p with rx := none })).bump (D4.captureCnt d) 31 16 1).txopCut d [] else s

/-- What a channel change from the channel `old` does to the activity of an enabled partition (R209, R221, R222): in TX it waits for the end
of the PPDU, in CAL for the end of the steps, and in a TXOP for its end, unless it ends a reception or a sounding, and the TXOP with it
(R240). -/
def State.paRetune (s : State) (d : Nat) (old : Word) : State :=
  let s1 := ((s.onPart d (fun p => { p with chanPend := false, chanCur := some old })).soundAbandon d 1)
  let st := s.pa d
  if st = paTx || st = paCal || (st ≠ paRx && s1.inTxop d) then
    s1.onPart d (fun p => { p with chanPend := true, goal := if st = paCal then .state paIdle else p.goal })
  else if st = paRx then (s1.paPreempt d).paApply d (.state (s.paRetState d))
  else if st = paSettle then s1.paApply d (s.part? d).goal
  else s1.paApply d (.state st)

/-- A supply warning holds on some die of the partition (R213). -/
def State.paHeld (s : State) (d : Nat) : Bool := (s.liveDies d).any (fun n => s.supplyWarn (dieN n))

/-- The chains of a die that may transmit: enabled, and not muted (R208, R226). -/
def State.txChains (s : State) (n : Nat) : Half :=
  BitVec.ofNat 16 (s.fld (D1.chainEn n) 15 0) &&& ~~~ BitVec.ofNat 16 (s.fld (D1.chainMute n) 15 0)

/-- CH_TXGAIN.TRIM of each chain of a die, in 0.25 dB (R226, R230). -/
def State.txGains (s : State) (n : Nat) : List Int := (List.range 16).map (fun c => sx 8 (s.fld (D1.chTxgain n c) 7 0))

/-- RAMP of a chain, ns (R206, R230). -/
def State.feRampNs (s : State) (n c : Nat) : Nat := s.fld (D6.feRamp n c) 4 0 * 100

/-- TX_LEAD of a partition, ns (R206, R230). -/
def State.feLeadNs (s : State) (d : Nat) : Nat := s.fld (D6.feCfg d) 4 0 * 100

/-- ns from the first front-end signal to the first sample of a PPDU: TX_LEAD and the longest RAMP of its chains (R206). -/
def State.txAhead (s : State) (d : Nat) (chains : List (Nat × Half)) : Nat :=
  s.feLeadNs d + chains.foldl (fun m x => (List.range 16).foldl (fun k c => if x.2.getLsbD c then max k (s.feRampNs x.1 c) else k) m) 0

/-- A PPDU starts on the chains that may transmit; its first sample leaves after TX_LEAD and RAMP, or SIFS after the frame it follows. One
that waited records WAITED and its wait (R206, R210, R213, R230). -/
def State.ppduStart (s : State) (d kind us : Nat) (slot : Option (Fin 8)) : State :=
  let wait := (s.part? d).wait.filter (fun w => w.kind == kind)
  let waited := match wait with
    | some w => (s.mono - w.since) / 1000
    | none => 0
  let chains := (s.liveDies d).map (fun n => (n, s.txChains n))
  let at_ := s.mono + (if kind = 2 then s.sifs d * 1000 else s.txAhead d chains)
  let tx : PartTx := { kind := kind, us := us, start := at_, stop := at_ + us * 1000, chains := chains, muted := [], slot := slot, protect := false }
  let s1 := (s.setPa d paTx).onPart d (fun p => { p with tx := some tx, wait := p.wait.filter (fun w => w.kind != kind), rx := none })
  let s2 := if kind = 3 then s1 else s1.wr (D4.seqStat d) (BitVec.ofNat 32 (b2n wait.isSome * 2 ^ 9 + min waited 0xFFFF * 2 ^ 16))
  s2.emit (.ppdu d kind us chains (chains.map (fun x => (x.1, s.txGains x.1))))

/-- SLEEP, IDLE and LISTEN, from which a PPDU starts once the synthesiser is locked (R211). -/
def paRests (st : Nat) : Bool := st == paSleep || st == paIdle || st == paListen

/-- A waiting PPDU starts once the partition rests with its synthesiser locked and no supply warning holds it (R213). -/
def State.ppduWaiting (s : State) (d : Nat) : State :=
  match (s.part? d).wait with
  | some w => if s.paLocked d && !s.paHeld d && paRests (s.pa d) then s.ppduStart d w.kind w.us none else s
  | none => s

/-- A calibration that runs or waits is given up with its partition (R202, R218). -/
def State.partCalDrop (s : State) (d : Nat) : State :=
  if (s.part? d).cal.isSome || (s.part? d).calDefer.isSome then (s.setBit (D3.calStat d) 8 false).setBit (D3.calStat d) 10 false else s

/-- The partition ends: it stops, its sounding and weights go, its dies are released, and its scheduler is no longer paused (R202, R240). -/
def State.partEnd (s : State) (d : Nat) : State :=
  let s1 := (((s.soundAbandon d 3).txopCut d []).partCalDrop d).setBit (HDR.pageCtrl (D4.page d)) 0 false
  let s2 := s1.onPart d (fun p => { PartState.empty with phaseLru := p.phaseLru })
  ((s2.showWeights d).wr (D4.partStat d) 0).onPs d (fun q => { q with paused := false, pauseReq := false })

/-- The end of a reception, after which `u` is the state `s` leads to: a stop that waited for it comes (R202), or a transmission that
still waits starts (R213). -/
def State.paStopped (s : State) (d : Nat) (u : State) : State :=
  if s.pa d == paRx then (if (s.part? d).stopPend then u.partEnd d else u.ppduWaiting d) else u

/-- PART_CHAN takes a clamped channel, by a direct write, a group share or a CHANNEL action (R209). -/
def State.setPartChan (s : State) (d : Nat) (w : Word) : State :=
  let s1 := s.wr (D4.partChan d) w
  if s.rd (D4.partChan d) = w || !s.partOn d then s1 else s.paStopped d (s1.paRetune d (s.partChanOf d))

/-! ## Transmissions (R206, R210, R213) -/

/-- A PPDU of `us` µs without an ATIME is handed to the sequencer: it starts in SLEEP, IDLE or LISTEN with the synthesiser locked, and waits
in SETTLE or CAL and during a supply warning (R211, R213). -/
def State.ppduRequest (s : State) (d kind us : Nat) : State :=
  let st := s.pa d
  if !s.partOn d || st = paRx || st = paTx then s
  else if paRests st && s.paLocked d && !s.paHeld d then s.ppduStart d kind us none
  else
    let s1 := s.onPart d (fun p => { p with wait := p.wait.or (some { kind := kind, us := us, since := s.mono }) })
    if st = paCal || (paRests st && s.paLocked d) then s1 else s1.paSettleTo d (.tx kind)

/-- PPDU_IMMEDIATE (R213). -/
def execPpduImmediate (d : Fin 6) (us : Nat) (s : State) : Host.Outcome State Fault Refusal := .next (s.ppduRequest d.val 0 us)

/-- The action that stands for a scheduled transmission in its slot of the sequencer page: descriptor bit 31 marks it, and the further word
holds its µs. Its T is that of the first sample (R213). -/
def State.ppduAct (s : State) (d : Fin 6) (i : Fin 8) (us : Nat) : PendAct :=
  let at_ := s.now (.d d) + s.txAhead d.val ((s.liveDies d.val).map (fun n => (n, s.txChains n)))
  { slot := .part d i, tS := sec32 at_, tNs := nsOf at_, desc := 0x80000000, extra := BitVec.ofNat 32 us, began := false }

/-- The action of a slot has begun (R96). -/
def State.actBegin (s : State) (x : ActSlot) : State :=
  { s with actq := s.actq.map (fun (a : PendAct) => if a.slot == x then { a with began := true } else a) }

/-- A scheduled transmission at S − RAMP − TX_LEAD: a supply warning on a die of the partition defers it, without the lock it ends MISSED as
MISSED_LOCK, where the partition is busy as STATE, and otherwise it starts (R94, R213). -/
def State.ppduScheduled (s : State) (d : Fin 6) (i : Fin 8) (us : Nat) : State :=
  let x : ActSlot := .part d i
  let s1 := s.enqueueAct (s.ppduAct d i us) stPending
  if s1.fld (slotStat x) 3 0 ≠ stPending then s1
  else if s.paHeld d.val then s1.setBit (slotStat x) 28 true
  else if !s.paLocked d.val then s1.endAct x stMissed 0x0F false false false
  else if !paRests (s.pa d.val) then s1.endAct x stMissed 4 false false false
  else (s1.actBegin x).ppduStart d.val 3 us (some i)

/-- An immediate PPDU that waits ends without a start, with an outcome (R213, R214, R230). -/
def State.ppduDropWait (s : State) (d outcome : Nat) : State :=
  match (s.part? d).wait with
  | some w =>
    let us := (s.mono - w.since) / 1000
    let s1 := s.onPart d (fun p => { p with wait := none, goal := match p.goal with
      | .tx _ => .state paListen
      | g => g })
    (s1.wr (D4.seqStat d) (BitVec.ofNat 32 (outcome + 2 ^ 9 + min us 0xFFFF * 2 ^ 16))).raise (D4.page d) 1
  | none => s

/-- An immediate PPDU that waited fails with no emission; a sounding whose announcement it was times out (R213, R231). -/
def State.ppduFail (s : State) (d outcome code : Nat) : State :=
  match (s.part? d).wait with
  | none => s
  | some w =>
    let s1 := (s.ppduDropWait d outcome).err (D4.page d) code (BitVec.ofNat 32 ((s.mono - w.since) / 1000))
    if w.kind = 1 && s.fld (D5.soundStat d) 2 0 = 1 then s1.soundAbandon d 2 else s1

/-- ACCESS_TX_WAIT_EXPIRY: TX_WAIT_MAX has passed with the synthesiser unlocked, or under a supply warning (R213). -/
def execAccessTxWaitExpiry (d : Fin 6) (s : State) : Host.Outcome State Fault Refusal :=
  match (s.part? d.val).wait with
  | some w =>
    if s.mono < w.since + s.fld (D4.partTx d.val) 9 0 * 1000 then .next s
    else if s.paLocked d.val && s.paHeld d.val then .next (s.ppduFail d.val 3 0x0102)
    else .next (s.ppduFail d.val 2 0x0101)
  | none => .next s

/-- What a partition action does when it is carried out (R209, R228); none when the partition is not enabled, transmits, or calibrates. What
else the partition does gives way: a reception, and under LISTEN, IDLE or SLEEP an immediate PPDU that waits, end as PREEMPTED. A
scheduled transmission that a supply warning deferred is sent, if the partition rests with its synthesiser locked (R94, R213). -/
def partPerform (a : PendAct) (s : State) : Option State :=
  match a.slot with
  | .part d _ =>
    let n := d.val
    let go := fun (st : Nat) => some (s.paStopped n (((s.paPreempt n).ppduDropWait n 5).paGo n st))
    if !s.partOn n || s.pa n = paTx || s.pa n = paCal then none
    else if bitOf a.desc 31 then (if paRests (s.pa n) && s.paLocked n then some (s.ppduStart n 3 a.extra.toNat none) else none)
    else match bitsOf a.desc 1 0 with
      | 0 => some (s.setPartChan n (clampChan a.extra))
      | 1 => go paListen
      | 2 => go paIdle
      | _ => go paSleep
  | _ => none

/-- The actions that met a transmission follow their late policies at the end of the PPDU (R228). -/
def State.paUnblock (s : State) (d : Fin 6) : State :=
  (s.part? d.val).blocked.foldl (fun (t : State) i => t.lateBlocked (.part d i) partPerform) (s.onPart d.val (fun p => { p with blocked := [] }))

/-- The outcome of a PPDU, 1 DONE, 3 SUPPLY or 4 ABORTED, in SEQ_STAT, or of a scheduled one in its slot (R94, R213, R214, R230). -/
def State.ppduOver (s : State) (d : Fin 6) (t : PartTx) (outcome : Nat) : State :=
  let n := d.val
  let s1 := s.onPart n (fun p => { p with tx := none, last := some { t with stop := min t.stop s.mono } })
  if t.kind ≠ 3 then
    ((s1.setFld (D4.seqStat n) 3 0 outcome).setBit (D4.seqStat n) 10 t.protect).raise (D4.page n) (if outcome = 1 then 0 else 1)
  else match t.slot with
    | some i =>
      if outcome = 1 then s1.endAct (.part d i) stDone 0 false (!s.locked) false
      else if outcome = 3 then s1.endAct (.part d i) stMissed 8 false false false
      else s1.endAct (.part d i) stCancelled 0 false false false
    | none => s1

/-- What follows a PPDU: the pending stop, the pending channel change, an expected response, or the return state (R202, R209, R212). -/
def State.ppduNext (s : State) (d : Fin 6) (expects : Bool) : State :=
  let n := d.val
  if (s.part? n).stopPend then s.partEnd n
  else if (s.part? n).chanPend && !s.inTxop n then (s.paApply n (.state (s.paRetState n))).paUnblock d
  else if expects then (s.paGo n paListen).paUnblock d
  else ((s.paReturn n).paUnblock d).ppduWaiting n

/-- A PPDU ends with an outcome (R206, R212). -/
def State.ppduFinish (s : State) (d : Fin 6) (outcome : Nat) (expects : Bool) : State :=
  match (s.part? d.val).tx with
  | none => s
  | some t => (s.ppduOver d t outcome).ppduNext d expects

/-- A chain's readings of a PPDU (R207): forward and reflected detector, return loss, and consecutive low readings; the
fourth raises MISMATCH with the chain's bit in ERR_INFO. -/
def State.chainReading (s : State) (l : ChainLevel) : State :=
  let a := D6.fePwr l.die l.chain
  let low := decide (l.rl < 4 * s.fld (D6.feCfg l.die) 12 8)
  let n := if low then min (s.fld a 27 24 + 1) 15 else 0
  let s1 := s.wrs [(a, BitVec.ofNat 32 (ux 16 l.level + min l.rl 255 * 2 ^ 16 + n * 2 ^ 24)),
    (D6.feDet l.die l.chain, BitVec.ofNat 32 (l.detFwd % 65536 + l.detRev % 65536 * 2 ^ 16))]
  if n = 4 then (s1.wr (HDR.errInfo (D6.page l.die)) (BitVec.ofNat 32 (2 ^ l.chain))).raise (D6.page l.die) 0 else s1

/-- A chain sends the transmission (R206, R208). -/
def PartTx.sends (t : PartTx) (n c : Nat) : Bool := t.chains.any (fun x => x.1 == n && x.2.getLsbD c)

/-- A PPDU that ends before its time has read its detectors, once it has lasted 20 µs; over what part of it the spec does not say, so that what
each of its chains read is free (R207). -/
def State.cutReadings (s : State) (t : PartTx) : State :=
  if s.mono < t.start + 20000 || t.us < 20 then s
  else t.chains.foldl (fun u x => (List.range 16).foldl (fun (v : State) c =>
    if x.2.getLsbD c then
      v.draw (fun i w => w.draw (fun j y =>
        let a := (Config.freeWord i).toNat
        let b := (Config.freeWord j).toNat
        y.chainReading { die := x.1, chain := c, level := sx 16 (a % 65536), rl := a / 65536 % 256, detFwd := b % 65536, detRev := b / 65536 }))
    else v) u) s

/-- A PPDU is cut short with an outcome: 3 SUPPLY or 4 ABORTED (R213, R214). -/
def State.ppduCut (s : State) (d : Fin 6) (outcome : Nat) : State :=
  match (s.part? d.val).tx with
  | none => s
  | some t => ((s.cutReadings t).ppduOver d t outcome).ppduNext d false

/-- The step of a sounding sequence that follows the announcement, or the NDP: the NDP with its dimensions, or the BFRP trigger, SIFS later
(R220). -/
def State.soundNext (s : State) (d next : Nat) : State :=
  match (s.part? d).sounding with
  | none => s
  | some q =>
    let b := D5.bfCfg d
    if s.fld (D5.soundStat d) 2 0 = 1 then
      ((s.setFld (D5.soundStat d) 2 0 2).emit (.ndp d (s.fld b 3 0))).ppduStart d 2 next none
    else
      ((s.setFld (D5.soundStat d) 2 0 3).emit (.bfrp d (q.stations.filter (fun x => !q.reports.contains x)) (s.bit b 4) (s.bit b 5))).ppduStart
        d 2 next none

/-- The announcement or the NDP of a sounding sequence is being sent (R220). -/
def State.soundSends (s : State) (d : Nat) : Bool :=
  (s.part? d).sounding.isSome && (s.fld (D5.soundStat d) 2 0 == 1 || s.fld (D5.soundStat d) 2 0 == 2)

/-- A PPDU's ramp down ends; one of 20 µs or longer has read its detectors. In a sounding sequence the next frame, of `next` µs, follows
(R206, R207, R212, R220). -/
def State.ppduTxEnd (s : State) (d : Fin 6) (next : Nat) (expects : Bool) (levels : List ChainLevel) : State :=
  match (s.part? d.val).tx with
  | none => s
  | some t =>
    let mine := levels.filter (fun l => t.sends l.die l.chain && l.chain < 16)
    let s1 := (if 20 ≤ t.us then mine.foldl State.chainReading s else s).ppduOver d t 1
    if s1.soundSends d.val && !(s.part? d.val).stopPend && !s.paHeld d.val then s1.soundNext d.val next else s1.ppduNext d expects

/-- CHAIN_PROTECT: a chain whose return loss reads below PROTECT_THR ramps down and is muted until the host clears its bit; the others go on
(R208). -/
def execChainProtect (d : Fin 6) (c : Fin 16) (rl : Nat) (s : State) : Host.Outcome State Fault Refusal :=
  let n := d.val
  let lead := (s.memberOf n).getD n
  let sends := match (s.part? lead).tx with
    | some t => t.sends n c.val
    | none => false
  if !sends || 4 * s.fld (D6.feCfg n) 20 16 ≤ rl || s.bit (D1.chainMute n) c.val then .next s
  else
    let mute := fun (t : PartTx) => { t with
      protect := true, muted := (n, c.val, s.mono) :: t.muted
      chains := t.chains.map (fun x => if x.1 = n then (x.1, x.2 &&& ~~~ BitVec.ofNat 16 (2 ^ c.val)) else x) }
    let s1 := (s.setBit (D1.chainMute n) c.val true).onPart lead (fun p => { p with tx := p.tx.map mute })
    .next (((s1.raise (D1.page n) 1).raise (D6.page n) 1).err (D6.page n) 0x0100 (BitVec.ofNat 32 c.val))

/-- A supply warning on a die ends a PPDU of its partition with outcome SUPPLY (R213). -/
def State.accSupplyWarn (s : State) (n : Fin 6) : State :=
  let lead := ((s.memberOf n.val).getD n.val)
  if h : lead < 6 then s.ppduCut ⟨lead, h⟩ 3 else s

/-- The end of a supply warning lets a waiting PPDU start (R213). -/
def State.accSupplyOk (s : State) (n : Fin 6) : State :=
  let lead := (s.memberOf n.val).getD n.val
  s.ppduWaiting lead

/-! ## Receptions (R210, R215, R216) -/

/-- PPDU_SYNC: in LISTEN a tentative reception starts; a valid sync abandons a tentative one at once (R215). -/
def execPpduSync (d : Fin 6) (power : Int) (s : State) : Host.Outcome State Fault Refusal :=
  let n := d.val
  let s1 := (s.setPa n paRx).onPart n (fun p => { p with rx := some { tentative := true, power := power } })
  if !s.partOn n then .next s
  else if s.pa n = paListen then .next s1
  else match (s.part? n).rx with
    | some x => if x.tentative then .next (s1.bump (D4.rxCnt n) 31 16 1) else .next s
    | none => .next s

/-- PPDU_HEADER: the header check confirms the reception, or fails it and the partition listens again (R215). -/
def execPpduHeader (d : Fin 6) (ok : Bool) (s : State) : Host.Outcome State Fault Refusal :=
  let n := d.val
  match (s.part? n).rx with
  | some x =>
    if !x.tentative then .next s
    else if ok then .next (s.onPart n (fun p => { p with rx := some { x with tentative := false } }))
    else .next (s.paStopped n (((s.onPart n (fun p => { p with rx := none })).bump (D4.rxCnt n) 15 0 1).paGo n paListen))
  | none => .next s

/-- PPDU_CAPTURE: before half of the data field a sync stronger by CAPTURE_MARGIN ends the PPDU as CAPTURED (R216). Powers are
in 0.5 dB units. -/
def execPpduCapture (d : Fin 6) (power : Int) (half : Bool) (s : State) : Host.Outcome State Fault Refusal :=
  let n := d.val
  match (s.part? n).rx with
  | some x =>
    if !x.tentative && !half && s.bit (D4.partTx n) 24 && decide (x.power + 2 * (s.fld (D4.partTx n) 20 16 : Nat) ≤ power) then
      .next (((s.onPart n (fun p => { p with rx := some { tentative := true, power := power } })).bump (D4.captureCnt n) 15 0 1).raise
        (D4.page n) 2)
    else .next s
  | none => .next s

/-- A received PPDU ends: CH_RSSI takes the level of each chain that may receive, and a response of `respond` µs due SIFS later comes before
the return state; while a sounding sequence gathers its feedback that is a further BFRP trigger (R210, R212, R220, R226). -/
def State.ppduRxEnd (s : State) (d : Nat) (respond : Option Nat) (levels : List ChainLevel) : State :=
  match (s.part? d).rx with
  | none => s
  | some x =>
    if x.tentative then s
    else
      let mine := levels.filter (fun l => (s.liveDies d).contains l.die && l.chain < 16 && s.bit (D1.chainEn l.die) l.chain)
      let s1 := (s.wrs (mine.map (fun l => (D1.chRssi l.die l.chain, BitVec.ofNat 32 (ux 16 l.level))))).onPart d (fun p => { p with rx := none })
      match respond with
      | some us =>
        if s.paHeld d then s.paStopped d (s1.paReturn d)
        else if s.fld (D5.soundStat d) 2 0 = 3 && (s.part? d).sounding.isSome then s1.soundNext d us
        else s1.ppduStart d 2 us none
      | none => s.paStopped d (s1.paReturn d)

/-! ## Tiles (R202, R219) -/

/-- A tile leaves service: its bit and its chains clear, TILE_OUT is raised, and the partition shows fewer chains (R202, R230).
`why` is the TILE_STAT bit that says why: 4 self-test, 8 calibration; none for a lost die. -/
def State.tileOut (s : State) (n t : Nat) (why : Option Nat) : State :=
  let s0 := match why with
    | some b => s.setBit (D1.tileStat n) (b + t) true
    | none => s
  if !s.bit (D1.tileStat n) t then s0
  else
    let s1 := (s0.setBit (D1.tileStat n) t false).setFld (D1.chainEn n) (4 * t + 3) (4 * t) 0
    let s2 := (s1.raise (D1.page n) 0).err (D1.page n) 0x0100 (BitVec.ofNat 32 t)
    match s2.memberOf n with
    | some l => s2.showChains l
    | none => if s2.partOn n then s2.showChains n else s2

/-- A tile returns to service; its chains stay disabled until the host writes their bits (R219, R230). -/
def State.tileIn (s : State) (n t : Nat) : State :=
  let s1 := s.setBit (D1.tileStat n) (8 + t) false
  if s.bit (D1.tileStat n) (4 + t) then s1 else s1.setBit (D1.tileStat n) t true

/-- The dies that the loss of die `n` takes out of a partition: itself, and the members no longer joined to the lead through
powered dies, along D0–D1–D2–D3 or D4–D5 (R13, R202). -/
def State.lostWith (s : State) (lead n : Nat) : List Nat := (s.partDies lead).filter (fun k => n ≤ k)

/-- A die of an enabled partition is lost: the lead ends the partition; a member's tiles, and those it joined, leave service
(R202). The lost die's own registers go with its power. -/
def State.partDieLost (s : State) (n : Nat) : State :=
  if s.partOn n then s.partEnd n
  else match s.memberOf n with
    | none => s
    | some l =>
      let out := s.lostWith l n
      let s1 := out.foldl (fun t k => if k = n then t else (List.range 4).foldl (fun u q => u.tileOut k q none) t) s
      (s1.onPart l (fun p => { p with gone := out.foldl (fun g k => g ||| BitVec.ofNat 6 (2 ^ k)) p.gone })).showChains l

/-- Tiles that left service with a die's loss alone return when the host enables a partition again (R202). -/
def State.tilesBack (s : State) (n : Nat) : State :=
  (List.range 4).foldl (fun t q => if t.bit (D1.tileStat n) (4 + q) || t.bit (D1.tileStat n) (8 + q) then t else t.setBit (D1.tileStat n) q true) s

/-! ## Results of a calibration (R209, R218, R219) -/

/-- The dies that a calibration of the lead die's partition covers: its dies, or before it is enabled those that it would have (R218). -/
def State.calDies (s : State) (d : Nat) : List Nat :=
  if s.partOn d then s.liveDies d
  else (s.partDies d).filter (fun n => s.powered (dieN n) && s.roleN n == .access && (n == d || !s.partOn n) && (s.memberOf n).isNone)

/-- A channel's inter-chain phase result is stored, or used: the least recently used entry gives way (R209). -/
def State.phaseUse (s : State) (d : Nat) : State :=
  let w := s.partChanOf d
  let lru := (s.part? d).phaseLru
  let k := match s.phaseEntry d w with
    | some k => k
    | none => ((List.range 4).find? (fun k => !s.bit (D3.phaseTab d k) 31)).getD (lru.getLastD 0)
  (s.wr (D3.phaseTab d k) (BitVec.ofNat 32 (bitsOf w 15 0 + 2 ^ 31))).onPart d (fun p => { p with
    phaseLru := k :: p.phaseLru.filter (fun x => x != k), needPhase := false })

/-- Duration of a set of calibration steps, ns (R218). -/
def paCalNs (set : BitVec 4) : Nat :=
  (if set.getLsbD 0 then 4000000 else 0) + (if set.getLsbD 1 then 3000000 else 0) + (if set.getLsbD 2 then 1200000 else 0)
    + (if set.getLsbD 3 then 1500000 else 0)

/-- The steps of a set that have begun within `ns` of the start of the run, in the order of the table (R218). -/
def paCalBegun (set : BitVec 4) (ns : Nat) : BitVec 4 :=
  (List.range 4).foldl (fun g k => if set.getLsbD k && paCalNs (set &&& BitVec.ofNat 4 (2 ^ k - 1)) ≤ ns then g ||| BitVec.ofNat 4 (2 ^ k) else g) 0

/-- A tile's failed steps after a run: the run's steps are replaced by its result; a tile without failed steps returns to
service (R219). -/
def State.calTile (s : State) (set : BitVec 4) (n t : Nat) (bad : BitVec 4) : State :=
  let old := ((s.acc.tileFails.find? (fun x => x.die == n && x.tile == t)).map TileFail.steps).getD 0
  let now := (old &&& ~~~ set.setWidth 7) ||| (bad &&& set).setWidth 7
  let rest := s.acc.tileFails.filter (fun x => !(x.die == n && x.tile == t))
  let s1 := { s with acc := { s.acc with tileFails := if now = 0 then rest else { die := n, tile := t, steps := now } :: rest } }
  let s2 := if bad &&& set ≠ 0 then
      (s1.tileOut n t (some 8)).err (D3.page n) 0x0100 (BitVec.ofNat 32 ((bad &&& set).toNat + t * 256))
    else s1
  if old ≠ 0 && now = 0 then s2.tileIn n t else s2

/-- What a run of steps of a partition leaves: CAL_STAT, the temperatures of a transmit IQ step, the channel's phase result, and the
tiles that failed or passed (R218, R219). -/
def State.partCalRecord (s : State) (n : Nat) (set : BitVec 4) (fails : List CalFail) : State :=
  let failed := fails.foldl (fun (b : BitVec 4) f => b ||| (f.steps &&& set)) 0
  let s1 := (s.onPart n (fun p => { p with cal := none })).setPa n paIdle
  let s2 := s1.wr (D3.calStat n) (putBit (putFld (putFld (s.rd (D3.calStat n)) 3 0 (set &&& ~~~ failed).toNat) 7 4 failed.toNat) 10 false)
  let s3 := if set.getLsbD 0 then
      ((s.calDies n).foldl (fun t k => t.setFld (D3.calStat k) 31 24 (s.fld (DC.dieTemp (dWin k)) 7 0)) s2).setBit (D3.calStat n) 9 false
    else s2
  let s4 := if set.getLsbD 2 then s3.phaseUse n else s3
  let s5 := (s.calDies n).foldl (fun t k => (List.range 4).foldl (fun u q =>
    u.calTile set k q (((fails.find? (fun f => f.die == k && f.tile == q)).map CalFail.steps).getD 0)) t) s4
  s5.showChains n

/-! ## Commands of the sequencer page (R201, R202, R211, R214) -/

/-- A command write to a page of a partition: on a member die it is discarded as PART_MEMBER (R201). -/
def State.partWrite (s : State) (r : Requester) (d a : Nat) (act : State → State) : State :=
  s.cmdWrite r a (fun t =>
    match t.memberOf d with
    | some l => t.err (D4.page d) 0x0100 (BitVec.ofNat 32 l)
    | none => act t)

/-- SEQ_CMD: a command in a state that does not allow it, or with the partition disabled, is discarded as CMD_BUSY (R230). -/
def State.seqCmd (s : State) (r : Requester) (d code : Nat) (ok : Nat → Bool) (act : State → State) : State :=
  s.partWrite r d (D4.seqCmd d) (fun t =>
    if t.partOn d && ok (t.pa d) then act t else t.err (D4.page d) 0x0103 (BitVec.ofNat 32 code))

/-- The partition is free for a new state: not receiving, transmitting or calibrating. -/
def paFree (st : Nat) : Bool := st ≤ 3

/-- SEQ_SLEEP (R211). -/
def execSeqSleep (r : Requester) (d : Fin 6) (s : State) : Host.Outcome State Fault Refusal :=
  .next (s.seqCmd r d.val 1 paFree (fun t => t.paGo d.val paSleep))

/-- SEQ_IDLE (R211). -/
def execSeqIdle (r : Requester) (d : Fin 6) (s : State) : Host.Outcome State Fault Refusal :=
  .next (s.seqCmd r d.val 2 paFree (fun t => t.paGo d.val paIdle))

/-- SEQ_LISTEN (R211). -/
def execSeqListen (r : Requester) (d : Fin 6) (s : State) : Host.Outcome State Fault Refusal :=
  .next (s.seqCmd r d.val 3 paFree (fun t => t.paGo d.val paListen))

/-- An ABORT in CAL stops the run after its current step: the steps begun run to their end, the others keep their earlier results (R214). -/
def State.partCalStop (s : State) (n : Nat) : State :=
  s.onPart n (fun p => { p with cal := p.cal.map (fun set => paCalBegun set (s.mono - p.calAt)), goal := .state paIdle })

/-- The ABORT command by state: completion wins over an abort that comes with it, and a sounding sequence is abandoned with reason 3 (R214,
R231). -/
def State.seqAbort (s : State) (r : Requester) (d : Fin 6) (completing : Bool) : State :=
  let n := d.val
  let late := fun (t : State) => (t.setFld (D4.seqStat n) 3 0 1).setBit (D4.seqStat n) 8 true
  s.seqCmd r n 4 (fun _ => true) (fun t0 =>
    let t := if completing then t0 else t0.soundAbandon n 3
    if t.pa n = paTx then
      if completing then late t
      else if (t.part? n).stopPend then t.ppduCut d 4 else (t.ppduCut d 4).paGo n paIdle
    else if t.pa n = paRx then
      if completing then late t else t.paStopped n (((t.ppduDropWait n 4).onPart n (fun p => { p with rx := none })).setPa n paIdle)
    else if t.pa n = paCal then (t.ppduDropWait n 4).partCalStop n
    else ((t.ppduDropWait n 4).onPart n (fun p => { p with goal := .state paIdle })).setPa n paIdle)

/-- SEQ_ABORT (R214). -/
def execSeqAbort (r : Requester) (d : Fin 6) (completing : Bool) (s : State) : Host.Outcome State Fault Refusal :=
  .next (s.seqAbort r d completing)

/-- The placement of a partition is legal (R24), and each of its dies is fitted, powered, in access role, of no other enabled
partition, and has all four tiles in service (R202). -/
def State.placementOk (s : State) (d : Nat) : Bool :=
  let size := s.fld (D4.partCfg d) 1 0
  (size == 0 || (size == 1 && d % 2 == 0) || (size == 2 && d == 0))
    && (s.partDies d).all (fun n => n < 6 && s.fitted (dieN n) && s.powered (dieN n) && s.roleN n == .access
      && !(n != d && s.partOn n) && (s.memberOf n).isNone && s.tilesIn n == 0xF)

/-- PAGE_CTRL.ENABLE of a lead die becomes 1 (R202, R375): refused as PART_PLACEMENT, or as NO_FW where a die still needs its
operational image and FW_STAT is not VERIFIED; else the partition settles on its channel, after a calibration in progress. -/
def State.partEnable (s : State) (d : Nat) : State :=
  let b := (s.partDies d).foldl State.tilesBack s
  let goal := PartGoal.state (s.paRetState d)
  if s.partOn d then s
  else if s.roleN d != .access || !b.placementOk d then s.err (dWin d) 3 (BitVec.ofNat 32 d)
  else if (s.partDies d).any (fun n => !s.acc.fw.getLsbD n) && s.fld C4.fwStat 1 0 != 2 then s.err (dWin d) 0x0100 (BitVec.ofNat 32 d)
  else
    let s1 := (b.setBit (HDR.pageCtrl (D4.page d)) 0 true).onPart d (fun p => { PartState.empty with
      phaseLru := p.phaseLru, cal := p.cal, calAt := p.calAt, chanPend := p.cal.isSome, goal := goal })
    let s2 := { s1 with acc := { s1.acc with fw := (s.partDies d).foldl (fun g k => g ||| BitVec.ofNat 6 (2 ^ k)) s1.acc.fw } }
    let s3 := (s2.setFld (D4.partStat d) 6 4 d).showChains d
    if (s.part? d).cal.isSome then s3 else s3.paSettleTo d goal

/-- PAGE_CTRL.ENABLE becomes 0: the partition stops at the end of any PPDU in progress (R202). -/
def State.partDisable (s : State) (d : Nat) : State :=
  if !s.partOn d then s
  else if s.pa d = paTx || s.pa d = paRx then s.onPart d (fun p => { p with stopPend := true })
  else s.partEnd d

/-! ## Lock and calibration (R209, R218, R219) -/

/-- The synthesisers of an enabled partition settle: in SETTLE, or in IDLE after an ABORT in SETTLE, which moves the partition but
tunes nothing (R209, R214). -/
def State.paTuning (s : State) (n : Nat) : Bool := s.partOn n && (s.liveDies n).any (fun k => s.bit (D2.synStat k) 1)

/-- The synthesiser of a radio die loses its lock outside a channel change: it is counted and recorded with the state, LOCKED clears, and the
synthesiser settles again (R227, R231). -/
def State.synthLost (s : State) (n lead : Nat) : State :=
  let s1 := (s.count (D2.unlockCnt n) 1).raise (D2.page n) 1
  let s2 := (s1.err (D2.page n) 0x0100 (BitVec.ofNat 32 (s.pa lead))).wr (D2.synStat n) 2
  if s.partOn lead then s2.setBit (D4.partStat lead) 15 false else s2

/-- ACCESS_SYNTH_LOCK: the synthesisers lock, with the phase calibration where the channel had no stored result, and SETTLE leads to its
goal; or a locked one has lost its lock (R209, R211, R227, R231). -/
def execAccessSynthLock (d : Fin 6) (lost : Bool) (s : State) : Host.Outcome State Fault Refusal :=
  let n := d.val
  if lost then .next (if s.powered (.d d) && s.bit (D2.synStat n) 0 then s.synthLost n ((s.memberOf n).getD n) else s)
  else if s.role d == .backhaul then
    .next (if s.bit (D2.synStat n) 1 then (s.wr (D2.synStat n) 1).raise (D2.page n) 0 else s)
  else if !s.paTuning n then .next s
  else
    let s1 := ((s.phaseUse n).synShow n true false)
    let s2 := (s1.liveDies n).foldl (fun t k => t.raise (D2.page k) 0) s1
    let s3 := if s.pa n ≠ paSettle then s2
      else match (s.part? n).goal with
        | .state st => s2.setPa n st
        | .tx _ => s2.setPa n paIdle
    .next (s3.ppduWaiting n)

/-- Some armed action of the partition falls within `span` ns (R218). -/
def State.paActWithin (s : State) (d span : Nat) : Bool :=
  s.actq.any (fun a => match a.slot with
    | .part n _ => n.val == d && s.fld (slotStat a.slot) 3 0 == stPending && decide (s.actDiff a ≤ span)
    | _ => false)

/-- A calibration starts: the partition is deaf (R218). -/
def State.paCalStart (s : State) (d : Nat) (set : BitVec 4) : State :=
  ((s.setPa d paCal).onPart d (fun p => { p with cal := some set, calDefer := none, calAt := s.mono })).wr (D3.calStat d)
    (putBit (putBit (s.rd (D3.calStat d)) 8 false) 10 true)

/-- The partition is free to calibrate now (R218). -/
def State.paCalFree (s : State) (d : Nat) (set : BitVec 4) : Bool :=
  (s.pa d == paIdle || s.pa d == paListen || s.pa d == paSleep) && !s.paActWithin d (paCalNs set)

/-- CAL_CMD: 0 runs all four steps; in RX or TX it is refused as CAL_BUSY. It runs in SLEEP and IDLE before the partition is enabled too, where
a tile out of service can pass it (R218, R219). -/
def State.partCal (s : State) (r : Requester) (d : Nat) (w : Word) : State :=
  s.partWrite r d (D3.calCmd d) (fun t =>
    let set : BitVec 4 := if bitsOf w 3 0 = 0 then 0xF else BitVec.ofNat 4 (bitsOf w 3 0)
    if t.roleN d != .access || t.pa d = paRx || t.pa d = paTx then t.err (D3.page d) 0x0101 w
    else if t.paCalFree d set then t.paCalStart d set
    else (t.onPart d (fun p => { p with calDefer := some set })).setBit (D3.calStat d) 8 true)

/-- PART_CAL (R218). -/
def execPartCal (r : Requester) (d : Fin 6) (w : Word) (s : State) : Host.Outcome State Fault Refusal := .next (s.partCal r d.val w)

/-- PART_CAL_DEFERRED_START (R218). -/
def execPartCalDeferredStart (d : Fin 6) (s : State) : Host.Outcome State Fault Refusal :=
  match (s.part? d.val).calDefer with
  | some set => if s.paCalFree d.val set then .next (s.paCalStart d.val set) else .next s
  | none => .next s

/-- A run of a partition ends, is recorded, and the partition moves to IDLE; then the pending channel change, or a PPDU that waited
(R209, R213, R218, R219). -/
def State.partCalDone (s : State) (n : Nat) (fails : List CalFail) : State :=
  match (s.part? n).cal with
  | none => s
  | some set =>
    let s6 := (s.partCalRecord n set fails).raise (D3.page n) 0
    if (s6.part? n).chanPend then s6.paApply n (s6.part? n).goal
    else match (s6.part? n).wait with
      | some w => if s6.paLocked n then s6.ppduWaiting n else s6.paSettleTo n (.tx w.kind)
      | none => s6

/-! ## Actions (R228) -/

/-- A partition action of a kind at its T on an access-role die: a transmission in progress holds it back to the end of the
PPDU (R228). -/
def State.partActAtT (s : State) (d : Fin 6) (i : Fin 8) (k : Nat) : State :=
  match s.pendAct (.part d i) with
  | some a =>
    if bitsOf a.desc 1 0 ≠ k || bitOf a.desc 31 || s.role d != .access then s
    else if s.actDue a && s.partOn d.val && s.pa d.val = paTx then s.onPart d.val (fun p => { p with blocked := addOnce p.blocked i })
    else s.actAtT (.part d i) partPerform
  | none => s

/-- PART_ACT_LISTEN (R228). -/
def execPartActListen (d : Fin 6) (i : Fin 8) (s : State) : Host.Outcome State Fault Refusal := .next (s.partActAtT d i 1)

/-- PART_ACT_IDLE (R228). -/
def execPartActIdle (d : Fin 6) (i : Fin 8) (s : State) : Host.Outcome State Fault Refusal := .next (s.partActAtT d i 2)

/-- PART_ACT_SLEEP (R228). -/
def execPartActSleep (d : Fin 6) (i : Fin 8) (s : State) : Host.Outcome State Fault Refusal := .next (s.partActAtT d i 3)

/-- PART_ACT_CHANNEL: the retune starts at T (R209, R228). -/
def execPartActChannel (d : Fin 6) (i : Fin 8) (s : State) : Host.Outcome State Fault Refusal := .next (s.partActAtT d i 0)

/-! ## Sounding and weights (R220 to R222) -/

/-- SOUNDING_START: a sequence begins for up to 32 stations, on an enabled partition that rests, locked, without one: its announcement, of `us`
µs, is handed to the sequencer (R220). -/
def execSoundingStart (d : Fin 6) (stations : List Nat) (us : Nat) (s : State) : Host.Outcome State Fault Refusal :=
  let n := d.val
  if s.partOn n && s.paLocked n && paRests (s.pa n) && (s.part? n).wait.isNone && (s.part? n).sounding.isNone && !stations.isEmpty
      && decide (stations.length ≤ 32) then
    .next ((((s.onPart n (fun p => { p with sounding := some { stations := stations, reports := [] } })).wr (D5.soundStat n)
      (BitVec.ofNat 32 (1 + stations.length * 2 ^ 8))).emit (.ndpa n stations)).ppduRequest n 1 us)
  else .next s

/-- The channel-state region of a partition: a DRAM byte address (R229). -/
def State.csrBase (s : State) (d : Nat) : Nat := s.fld (D5.csrBaseLo d) 31 12 * 4096 + s.fld (D5.csrBaseHi d) 1 0 * 2 ^ 32

/-- SOUNDING_FEEDBACK: a station's report goes to its 16 KB channel-state record (R220). -/
def execSoundingFeedback (d : Fin 6) (sta : Nat) (report : List Byte) (s : State) : Host.Outcome State Fault Refusal :=
  let n := d.val
  match (s.part? n).sounding with
  | none => .next s
  | some q =>
    if !q.stations.contains sta then .next s
    else
      let m := Mem.setBytes s.dram (s.csrBase n + sta % 512 * 16384) (report.take 16384)
      .next ((({ s with dram := m }.onPart n (fun p => { p with
        sounding := some { q with reports := sta :: q.reports.filter (fun x => x != sta) }
        csr := sta :: p.csr.filter (fun x => x != sta) })).setFld (D5.soundStat n) 2 0 3).dmaRequest (lineRecord n))

/-- SOUND_DONE: the last expected TB PPDU has ended or timed out (R220). -/
def execSoundDone (d : Fin 6) (s : State) : Host.Outcome State Fault Refusal :=
  let n := d.val
  if (s.part? n).sounding.isSome then
    .next (((((s.onPart n (fun p => { p with sounding := none })).setFld (D5.soundStat n) 2 0 4).bump (D5.soundCnt n) 15 0 1).raise
      (D5.page n) 0).sourceEvent (0x60 + n))
  else .next s

/-- WEIGHTS_READY: weights for a group whose stations all have a current record, on the present channel, with the noise loading of BF_CFG.REG
(R221). -/
def execWeightsReady (d : Fin 6) (stations : List Nat) (s : State) : Host.Outcome State Fault Refusal :=
  let n := d.val
  if s.partOn n && !stations.isEmpty && stations.all (fun x => (s.part? n).csr.contains x) then
    let value := Config.rzfWeights (s.fld (D5.bfCfg n) 23 18) (s.csrBase n) stations s.dram
    let s1 := s.onPart n (fun p => { p with weights := { stations := stations, born := s.mono, value := value } :: p.weights.filter (fun w => w.stations != stations) })
    .next ((if s.fld (D5.soundStat n) 2 0 = 4 then s1.wr (D5.soundStat n) 0 else s1).showWeights n)
  else .next s

/-- WEIGHT_AGE_EXPIRY: weights older than WEIGHT_AGE are no longer used (R221). -/
def execWeightAgeExpiry (d : Fin 6) (s : State) : Host.Outcome State Fault Refusal :=
  let n := d.val
  let age := s.fld (D5.bfCfg n) 17 8 * 1000000
  .next ((s.onPart n (fun p => { p with weights := p.weights.filter (fun w => s.mono ≤ w.born + age) })).showWeights n)

/-- A die's temperature has moved more than STALE_THR from its own at the last transmit IQ step: CAL_STALE at its lead (R218). -/
def State.accStale (s : State) (n : Nat) (temp : Int) : State :=
  let lead := (s.memberOf n).getD n
  let a := D3.calStat lead
  if s.partOn lead && !s.bit a 9 && decide (s.fld (D3.calCfg lead) 5 0 < (temp - sx 8 (s.fld (D3.calStat n) 31 24)).natAbs) then
    (s.setBit a 9 true).raise (D3.page lead) 1
  else s

end Sys2Proof.Machine
end

