-- ==== Sys2Proof/Machine/BhFrames.lean ====
section
/-!
DEFINITION. The octets of a backhaul frame: its checksums, delimited frames, codewords with their pointers, the scrambling, and the layout of a
TM_UPDATE (R267, R268, R270, R273).
-/
namespace Sys2Proof.Machine

/-- A big-endian number of `n` octets. -/
def be (n v : Nat) : List Byte := (List.range n).map (fun k => BitVec.ofNat 8 (v / 256 ^ (n - 1 - k)))

/-- One octet into the CRC-32 of IEEE 802.3, least significant bit first. -/
def ethCrcByte (c : Nat) (b : Byte) : Nat :=
  (List.range 8).foldl (fun d _ => if d % 2 = 1 then (d / 2) ^^^ 0xEDB88320 else d / 2) (c ^^^ b.toNat)

/-- The CRC-32 of IEEE 802.3 over octets (R268). -/
def ethCrc (bs : List Byte) : Nat := bs.foldl ethCrcByte 0xFFFFFFFF ^^^ 0xFFFFFFFF

/-- The CRC-8 of polynomial 0x07 over octets, most significant bit first, from 0 (R270). -/
def crc8 (bs : List Byte) : Nat :=
  bs.foldl (fun c b => (List.range 8).foldl (fun d _ => if 128 ≤ d then (d * 2 % 256) ^^^ 7 else d * 2) (c ^^^ b.toNat)) 0

/-- A frame behind its delimiter: length and class in bits 23:0 and their CRC-8 above, big-endian, then the frame, padded to a multiple of 4
octets (R270). -/
def delimited (cls : Nat) (f : List Byte) : List Byte :=
  let head := be 3 (cls * 2 ^ 14 + f.length % 2 ^ 14)
  be 1 (crc8 head) ++ head ++ f ++ List.replicate ((4 - f.length % 4) % 4) 0

/-- Octets that a frame of a length takes behind its delimiter. -/
def delimitedLen (n : Nat) : Nat := 4 + (n + 3) / 4 * 4

/-- The scrambler 1 + x^14 + x^15, most significant bit first: 15 bits of state, run over an octet (R270). -/
def scrambleByte (st : Nat) (b : Byte) : Nat × Byte :=
  let r := (List.range 8).foldl (fun (x : Nat × Nat) _ =>
    let out := (x.1 / 2 ^ 13 + x.1 / 2 ^ 14) % 2
    ((x.1 * 2 + out) % 2 ^ 15, x.2 * 2 + out)) (st, 0)
  (r.1, b ^^^ BitVec.ofNat 8 r.2)

/-- Octets scrambled from a state. -/
def scrambleFrom : Nat → List Byte → List Byte
  | _, [] => []
  | st, b :: t => (scrambleByte st b).2 :: scrambleFrom (scrambleByte st b).1 t

/-- The payload of a frame scrambled, seeded with the low 15 bits of CYCLE, or 0x7FFF for 0 (R270). -/
def scrambled (cycle : Nat) (bs : List Byte) : List Byte :=
  scrambleFrom (if cycle % 2 ^ 15 = 0 then 0x7FFF else cycle % 2 ^ 15) bs

/-- Where the delimiters of frames of these delimited lengths begin. -/
def delimiterStarts : Nat → List Nat → List Nat
  | _, [] => []
  | at_, n :: t => at_ :: delimiterStarts (at_ + n) t

/-- The information octets of each codeword: the pointer to the first delimiter that begins in it, or 0xFFFF, and 200 scrambled octets of the
frames behind their delimiters; the tail of the last one is zero (R270). -/
def codewords (cycle : Nat) (frames : List (Nat × List Byte)) : List (List Byte) :=
  let parts := frames.map (fun f => delimited f.1 f.2)
  let all := parts.flatten
  let n := (all.length + 199) / 200
  let starts := delimiterStarts 0 (parts.map List.length)
  let sent := scrambled cycle (all ++ List.replicate (200 * n - all.length) 0)
  (List.range n).map (fun k =>
    let ptr := match starts.find? (fun p => decide (200 * k ≤ p) && decide (p < 200 * k + 200)) with
      | some p => p - 200 * k
      | none => 0xFFFF
    be 2 ptr ++ (sent.drop (200 * k)).take 200)

/-- The frames of a queue, in order, that fit behind their delimiters in a number of octets, and the rest. -/
def fitFrames : Nat → List (List Byte) → List (List Byte) × List (List Byte)
  | _, [] => ([], [])
  | room, f :: t =>
    if delimitedLen f.length ≤ room then
      let r := fitFrames (room - delimitedLen f.length) t
      (f :: r.1, r.2)
    else ([], f :: t)

/-- Entries packed two per octet, low nibble first. -/
def packEntries (es : List Nat) : List Byte :=
  (List.range 832).map (fun j => BitVec.ofNat 8 (es.getD (2 * j) 0 % 16 + es.getD (2 * j + 1) 0 % 16 * 16))

/-- A TM_UPDATE (R273). -/
def tmUpdateOctets (stream id kAt design : Nat) (es : List Nat) : List Byte :=
  be 1 0x10 ++ be 1 stream ++ be 1 id ++ be 1 kAt ++ be 2 design ++ be 2 0 ++ packEntries es

/-- What a backhaul header names (R268). -/
structure BhHeader where
  endB : Bool
  sender : Nat
  cycle : Nat
  tmap : List Nat
  probe : Bool
  probeRx : Bool
  baseReq : Bool
  k : List Nat
  ids : List Nat
  acks : List Nat
  requests : List Nat
  txBeam : Nat
  beamReq : Option Nat
  probeLo : Int
  probeHi : Int
  symbols : Nat
  words : Nat
  snrFb : Nat
  skip : Nat
  locked : Bool
  ta : Int
  deriving DecidableEq, Repr

/-- The 32 octets of a header (R268). -/
def BhHeader.octets (h : BhHeader) : List Byte :=
  let pair := fun (l : List Nat) => be 1 (l.getD 0 0 + l.getD 1 0 * 16)
  let body := be 1 (1 + b2n h.endB * 4) ++ be 2 h.sender ++ be 2 h.cycle
    ++ be 1 (h.tmap.getD 0 0 + h.tmap.getD 1 0 * 4 + b2n h.probe * 16 + b2n h.probeRx * 32 + b2n h.baseReq * 64)
    ++ pair h.k ++ be 1 (h.ids.getD 0 0) ++ be 1 (h.ids.getD 1 0) ++ be 1 (h.acks.getD 0 0) ++ be 1 (h.acks.getD 1 0)
    ++ pair h.requests ++ be 1 h.txBeam ++ be 1 (match h.beamReq with
      | some b => b + 128
      | none => 0)
    ++ be 1 (ux 8 h.probeLo) ++ be 1 (ux 8 h.probeHi) ++ be 2 h.symbols ++ be 2 h.words ++ be 1 h.snrFb ++ be 1 h.skip
    ++ be 1 (b2n h.locked) ++ be 2 (ux 16 h.ta) ++ be 3 0
  body ++ be 4 (ethCrc body)

end Sys2Proof.Machine
end

