-- ==== Sys2Proof/Machine/Backhaul.lean ====
section
/-!
DEFINITION. The backhaul radio: cycles and frames, tone maps and back-off, beam search and tracking, heads, calibration and the
direction actions (R259 to R292). A direction is numbered 2 × d + h.
-/
namespace Sys2Proof.Machine

/-- Direction `n`, and the state with it changed. -/
def State.dir (s : State) (n : Nat) : BhDir := s.bh.getD n BhDir.off
def State.onDir (s : State) (n : Nat) (f : BhDir → BhDir) : State := { s with bh := s.bh.set n (f (s.dir n)) }

/-- A stream of a direction changed. -/
def BhDir.onStream (x : BhDir) (k : Nat) (f : BhStream → BhStream) : BhDir := { x with streams := x.streams.modify k f }
def BhDir.stream (x : BhDir) (k : Nat) : BhStream := x.streams.getD k BhStream.fresh

/-- Die and head of a direction (R259). -/
def dirDie (n : Nat) : Nat := n / 2
def dirHead (n : Nat) : Nat := n % 2

/-- Registers of a direction. -/
def dCfg (n : Nat) : Nat := D7.dirCfg (dirDie n) (dirHead n)
def dStat (n : Nat) : Nat := D7.dirStat (dirDie n) (dirHead n)
def dTm (n : Nat) : Nat := D7.tmCfg (dirDie n) (dirHead n)

/-- DIR_STAT.STATE: 0 OFF, 1 SEARCH, 2 UP, 3 LOST (R278). -/
def State.dirState (s : State) (n : Nat) : Nat := s.fld (dStat n) 2 0

/-- Event `k` of a direction on page 7 (R292). -/
def State.dirEvent (s : State) (n k : Nat) : State := s.raise (D7.page (dirDie n)) (8 * dirHead n + k)

/-- The die of a direction is powered in backhaul role. -/
def State.dirHere (s : State) (n : Nat) : Bool := s.powered (dieN (dirDie n)) && s.roleN (dirDie n) == .backhaul

/-! ## Tone maps (R270 to R275) -/

/-- Word address of table `n` of R290: side 0 receive, 1 transmit; letter 1 A, 2 B. -/
def tabOf (dir side stream letter : Nat) : Nat := D7.tmTab (dirDie dir) (8 * dirHead dir + 4 * side + 2 * stream + (letter - 1)) 0

/-- Entry `j` of a table: a nibble, low first. -/
def State.tabEntry (s : State) (tab j : Nat) : Nat := s.fld (tab + 4 * (j / 8)) (4 * (j % 8) + 3) (4 * (j % 8))

/-- Eight nibbles as a word. -/
def packNibbles (l : List Nat) : Word := BitVec.ofNat 32 (l.foldr (fun e n => e % 16 + 16 * n) 0)

/-- A table written with entries. -/
def State.putTab (s : State) (tab : Nat) (es : List Nat) : State :=
  s.wrArr tab ((List.range 208).map (fun w => packNibbles ((List.range 8).map (fun j => es.getD (8 * w + j) 0))))

/-- EDGE loads the ten outermost data subcarriers of each edge with 0 bits (R262). -/
def edgeOff (edge : Bool) (j : Nat) : Bool := edge && (j < 10 || 1654 ≤ j)

/-- Entries of a table or of the staged map. -/
def State.entriesAt (s : State) (tab : Nat) : List Nat :=
  (s.rdArr tab 208).flatMap (fun w => (List.range 8).map (fun j => bitsOf w (4 * j + 3) (4 * j)))

/-- Coded bits per symbol of a stream (R270). -/
def State.streamBits (s : State) (dir side stream : Nat) (m : BhMap) (k : Nat) : Nat :=
  let edge := s.bit (D7.dirChan (dirDie dir) (dirHead dir)) 8
  (List.range 1664).foldl (fun n j =>
    if edgeOff edge j || m.letter = 3 then n
    else n + ((if m.letter = 0 then 2 else s.tabEntry (tabOf dir side stream m.letter) j) - k)) 0

/-- Data symbols of an end's slot per cycle (R264). -/
def State.slotSymbols (s : State) (n : Nat) (endB : Bool) : Nat :=
  let a := s.fld (dCfg n) 15 5
  if endB then 1136 - 2 * s.fld (dCfg n) 4 1 - a else a

/-- DIR_CAP: one way in Mb/s, receive and transmit (R282, R286). -/
def State.dirCap (s : State) (n : Nat) : State :=
  let x := s.dir n
  let own := s.bit (dCfg n) 0
  let cap := fun (side : Nat) (endB : Bool) (m : BhStream → BhMap) (k : BhStream → Nat) =>
    s.slotSymbols n endB * (s.streamBits n side 0 (m (x.stream 0)) (k (x.stream 0)) + s.streamBits n side 1 (m (x.stream 1)) (k (x.stream 1))) * 5 / 6 / 1000
  s.wr (D7.dirCap (dirDie n) (dirHead n)) (BitVec.ofNat 32 (min (cap 0 (!own) BhStream.rx BhStream.peerK) 65535
    + min (cap 1 own BhStream.tx BhStream.k) 65535 * 2 ^ 16))

/-- DIR_STAT and TM_PEND show a direction (R291). -/
def State.dirShow (s : State) (n : Nat) : State :=
  let x := s.dir n
  let a := x.stream 0
  let b := x.stream 1
  let st := BitVec.ofNat 32 (s.dirState n + a.tx.letter * 2 ^ 4 + b.tx.letter * 2 ^ 6 + a.k * 2 ^ 8 + b.k * 2 ^ 12 + a.tx.id * 2 ^ 16 + b.tx.id * 2 ^ 24)
  let pid := fun (y : BhStream) => (y.rxPend.map (fun p => p.1.id)).getD 0
  (s.wr (dStat n) st).wr (D7.tmPend (dirDie n) (dirHead n))
    (BitVec.ofNat 32 (pid a + pid b * 2 ^ 8 + b2n a.rxPend.isSome * 2 ^ 16 + b2n b.rxPend.isSome * 2 ^ 17))

/-- A direction's state replaced. -/
def State.setDirState (s : State) (n v : Nat) : State := s.setFld (dStat n) 2 0 v

/-- Both streams return to BASE and pending updates are discarded (R277). -/
def BhDir.toBase (x : BhDir) : BhDir :=
  { x with streams := x.streams.map (fun y => { y with rx := BhMap.base, rxPend := none, sending := false, tx := BhMap.base, k := 0, txNext := none, request := 0, asked := 0 }) }

/-- Pending updates are discarded at both ends of a direction (R277). -/
def BhDir.dropUpdates (x : BhDir) : BhDir :=
  { x with streams := x.streams.map (fun y => { y with rxPend := none, sending := false, txNext := none }) }

/-- A direction that goes OFF; a calibration of its head goes on (R278, R285). -/
def BhDir.toOff (x : BhDir) : BhDir := { BhDir.off with cal := x.cal, calNext := x.calNext, grid := x.grid }

/-- Next map identity: 1 to 255 (R273). -/
def nextId (i : Nat) : Nat := if i % 256 = 255 then 1 else i % 256 + 1

/-- The back-off request (R275): the deficit of the 4-frame mean against the design mean, in 0.5 dB units. -/
def backoffRequest (thr : Nat) (design : Int) (snrs : List Int) : Nat :=
  let n : Int := snrs.length
  let short := design * n - snrs.foldl (fun a b => a + b) 0
  if n = 0 || short ≤ 2 * (thr : Int) * n then 0 else min 12 ((short + 6 * n - 1) / (6 * n)).toNat

/-- A staged map is worth sending: its payload bits per symbol differ from those of the map in use by at least TM_HYST % (R272). -/
def State.tmWorth (s : State) (n stream : Nat) : Bool :=
  let edge := s.bit (D7.dirChan (dirDie n) (dirHead n)) 8
  let new := ((s.entriesAt (D7.tmStage (dirDie n) 0)).zipIdx).foldl (fun b (x : Nat × Nat) => if edgeOff edge x.2 then b else b + x.1) 0
  let old := s.streamBits n 0 stream ((s.dir n).stream stream).rx 0
  decide (s.fld (dTm n) 13 8 * old ≤ (if old ≤ new then new - old else old - new) * 100)

/-- A staged map is loaded into the idle receive table and sent (R272 to R274, R291). -/
def State.tmSend (s : State) (n stream design kAt : Nat) : State :=
  let y := (s.dir n).stream stream
  let letter := if y.rx.letter = 1 then 2 else 1
  let id := nextId y.lastId
  let m : BhMap := { letter := letter, id := id, design := design }
  let s1 := s.wrArr (tabOf n 0 stream letter) (s.rdArr (D7.tmStage (dirDie n) 0) 208)
  (s1.onDir n (fun x => x.onStream stream (fun z => { z with
    rxPend := some (m, kAt), sending := true, lastId := id, rxIds := z.rxIds.set (letter - 1) (id, (design : Int)) }))).dirShow n

/-- TM_SEND: in AUTO mode only engines send, in HOST mode only the host; a stream with an update pending refuses; a map that
differs too little is not sent (R272, R291). -/
def execTmSend (r : Requester) (d : Fin 6) (w : Word) (s : State) : Host.Outcome State Fault Refusal :=
  .next (s.cmdWrite r (D7.tmCmd d.val) (fun t =>
    let n := 2 * d.val + bitsOf w 0 0
    let engine := match r with
      | .engine _ => true
      | _ => false
    let refuse := fun (why : Nat) => t.err (D7.page d.val) 0x0105 (BitVec.ofNat 32 why)
    if !bitOf w 31 then t
    else if t.bit (dTm n) 16 == engine then refuse 2
    else if ((t.dir n).stream (bitsOf w 1 1)).rxPend.isSome then refuse 1
    else if !t.tmWorth n (bitsOf w 1 1) then t
    else t.tmSend n (bitsOf w 1 1) (bitsOf w 15 8) (min (bitsOf w 19 16) 12)))

/-- TM_UPDATE_RX: the update goes into the idle transmit table, is acknowledged, and waits for the next frame (R274). -/
def execTmUpdateRx (dir : Fin 12) (stream : Fin 2) (id k : Nat) (design : Nat) (entries : List Nat) (s : State) : Host.Outcome State Fault Refusal :=
  let n := dir.val
  if !s.dirHere n || s.dirState n ≠ 2 then .next s
  else
    let y := (s.dir n).stream stream.val
    let letter := if y.tx.letter = 1 then 2 else 1
    let m : BhMap := { letter := letter, id := id % 256, design := design }
    .next ((s.putTab (tabOf n 1 stream.val letter) entries).onDir n (fun x => x.onStream stream.val (fun z => { z with
      txNext := some (m, k), ackId := id % 256, txIds := z.txIds.set (letter - 1) (id % 256) })))

/-! ## The cycle (R264, R267, R276, R278 to R280, R283) -/

/-- Sizes of the beam ranges (R279). -/
def State.nT (s : State) (n : Nat) : Nat :=
  let a := D6B.beamCfg (dirDie n) (dirHead n)
  s.fld a 11 6 + 1 - s.fld a 5 0
def State.nR (s : State) (n : Nat) : Nat :=
  let a := D6B.beamCfg (dirDie n) (dirHead n)
  s.fld a 23 18 + 1 - s.fld a 17 12

/-- Own transmit and receive beam (BEAM_STAT). -/
def bStat (n : Nat) : Nat := D6B.beamStat (dirDie n) (dirHead n)
def State.txBeam (s : State) (n : Nat) : Nat := s.fld (bStat n) 5 0
def State.rxBeam (s : State) (n : Nat) : Nat := s.fld (bStat n) 13 8

/-- The beams are moved: the pending beam registers of the head are written, and a STROBE in the guard applies them (R261, R280). -/
def State.setBeams (s : State) (n tx rx : Nat) : State :=
  if s.txBeam n = tx && s.rxBeam n = rx then s
  else ((((s.setFld (bStat n) 5 0 tx).setFld (bStat n) 13 8 rx).emit (.headWrite n 1 tx)).emit (.headWrite n 2 rx)).emit (.strobe n)

/-- A frame of the slot is not sent: SKIP_CNT and FRAME_SKIPPED with its reason (R283). -/
def State.frameSkip (s : State) (n why : Nat) : State :=
  (s.bump (D7.skipCnt (dirDie n) (dirHead n)) 15 0 1).err (D7.page (dirDie n)) 0x0103 (BitVec.ofNat 32 (dirHead n * 256 + why))

/-- The reason for which this cycle's frame is not sent, if any (R283). -/
def State.skipReason (s : State) (n : Nat) : Option Nat :=
  let x := s.dir n
  if !s.bit (D2.synStat (dirDie n)) 0 && !x.retuning then some 1
  else if s.supplyWarn (dieN (dirDie n)) then some 2
  else if x.cal.isSome then some 3
  else if x.retuning then some 4
  else if s.bit (D6B.headStat (dirDie n) (dirHead n)) 1 then some 5
  else none

/-- ns of a count of samples at 2,640 MS/s (R263). -/
def samplesNs (n : Int) : Nat := (n * 1000 / 2640).toNat

/-- `mono` at the first sample of the frame that this cycle sends and after its last: after the quiet symbol, and at end B after end A's slot
and the guard too, with its timing advance; a symbol is 2,304 samples. A search frame is four symbols long (R264, R269, R279). -/
def State.frameSpan (s : State) (n : Nat) (training : Bool) : Nat × Nat :=
  let own := s.bit (dCfg n) 0
  let before : Nat := if own then 1 + (4 + s.slotSymbols n false) + s.fld (dCfg n) 4 1 else 1
  let len := if training then 4 else 4 + s.slotSymbols n own
  let start : Int := before * 2304 + (if own then 960 - (s.dir n).advance else 0)
  (s.mono + samplesNs start, s.mono + samplesNs (start + len * 2304))

/-- The frame that this cycle sends is held until it ends (R283). -/
def State.frameMark (s : State) (n : Nat) (training : Bool) : State :=
  let span := s.frameSpan n training
  s.onDir n (fun z => { z with txSpan := some span })

/-- A supply warning on the die ends its frames in progress with outcome SUPPLY, and keeps those of the cycle that have not begun from
being sent; both count as skipped for a supply warning (R125, R283). -/
def State.bhSupplyWarn (s : State) (d : Fin 6) : State :=
  [2 * d.val, 2 * d.val + 1].foldl (fun u n =>
    match (u.dir n).txSpan with
    | some (a, b) =>
      if u.mono < b then
        ((u.onDir n (fun z => { z with txSpan := if u.mono < a then none else some (a, u.mono) })).frameSkip n 2).emit (.bhCut n)
      else u
    | none => u) s

/-- A stream's own tile is out of service, or its chains are gated (R277, R288). -/
def State.ownOff (s : State) (n k : Nat) : Bool :=
  let t := 2 * dirHead n + k
  !s.bit (D1.tileStat (dirDie n)) t || s.fld (D1.chainEn (dirDie n)) (4 * t + 3) (4 * t) = 0

/-- A stream is OFF at this end: of its own, or because the peer has set it OFF (R277, R288). -/
def State.streamOff (s : State) (n k : Nat) : Bool := s.ownOff n k || ((s.dir n).stream k).peerOff

/-- What a stream's frames should carry next: map, K, and whether the change is exempt from R276. -/
def State.streamWants (s : State) (n k : Nat) : BhMap × Nat × Bool :=
  let x := s.dir n
  let y := x.stream k
  if s.streamOff n k then ({ BhMap.base with letter := 3 }, 0, true)
  else if x.baseAnswer then (BhMap.base, 0, true)
  else match y.txNext with
    | some (m, kAt) => (m, kAt, false)
    | none => ((if y.tx.letter = 3 then BhMap.base else y.tx), y.asked, false)

/-- The maps and K of a frame: at most one change in 10 cycles, the others wait (R276). -/
def State.switchMaps (s : State) (n : Nat) : State :=
  let x := s.dir n
  let due := fun (k : Nat) => let w := s.streamWants n k; let y := x.stream k; (w.1 != y.tx || w.2.1 != y.k)
  let free := match x.lastChange with
    | none => true
    | some c => decide (c + 10 ≤ x.cycle)
  let wait := (List.range 2).any (fun k => due k && !(s.streamWants n k).2.2) && !free
  let go := fun (k : Nat) => due k && ((s.streamWants n k).2.2 || free)
  let upd := fun (k : Nat) (z : BhStream) =>
    let w := s.streamWants n k
    let y := if s.ownOff n k then { z with offHold := 2 } else z
    if go k then { y with tx := w.1, k := w.2.1, txNext := if y.txNext.map (fun p => p.1) = some w.1 then none else y.txNext } else y
  let changed := go 0 || go 1
  let normal := (List.range 2).any (fun k => go k && !(s.streamWants n k).2.2)
  let rain := (List.range 2).any (fun k => go k && (x.stream k).k = 0 && (s.streamWants n k).2.1 ≠ 0)
  let swap := (List.range 2).any (fun k => go k && (x.stream k).tx.letter ≠ (s.streamWants n k).1.letter)
  let s1 := s.onDir n (fun z =>
    { ((z.onStream 0 (upd 0)).onStream 1 (upd 1)) with
      lastChange := if normal then some z.cycle else z.lastChange
      deferred := if changed then false else z.deferred || wait
      baseAnswer := false })
  let c := D7.switchCnt (dirDie n) (dirHead n)
  let s2 := if changed then s1.bump c 15 0 1 else if wait && !x.deferred then s1.bump c 31 16 1 else s1
  let s3 := if rain then s2.dirEvent n 4 else s2
  if swap then s3.dirEvent n 3 else s3

/-- Mean SNR of the peer's last frame, over its streams, in 0.5 dB (R268). -/
def BhDir.snrFb (x : BhDir) : Nat :=
  let l := x.streams.filterMap (fun (y : BhStream) => y.snrs.head?)
  (clampI 0 255 (if l.isEmpty then 0 else l.foldl (fun a b => a + b) 0 / l.length)).toNat

/-- The header of a frame of a direction, with the fields that every frame has; the others are those of BASE without data (R268). -/
def State.bhHeader (s : State) (n : Nat) : BhHeader :=
  let x := s.dir n
  { endB := s.bit (dCfg n) 0, sender := s.fld (D7.dirId (dirDie n) (dirHead n)) 15 0, cycle := s.now (dieN (dirDie n)) / 1000000 % 65536
    tmap := [0, 0], probe := false, probeRx := false, baseReq := false, k := [0, 0], ids := [0, 0], acks := [0, 0], requests := [0, 0]
    txBeam := s.txBeam n, beamReq := none, probeLo := x.foundLo, probeHi := x.foundHi, symbols := 0, words := 0, snrFb := x.snrFb, skip := 0
    locked := s.locked, ta := if s.bit (dCfg n) 0 then 0 else x.arrival }

/-- Codewords that a frame can carry in a number of symbols of `bits` coded bits (R270). -/
def wordsIn (symbols bits : Nat) : Nat := symbols * bits / 1944

/-- The frames of a cycle: TM_UPDATEs, of class 7, go ahead of what the cross-band link unit has handed over, of class 0, as far as the symbols
hold whole frames; the rest waits (R270, R273). -/
def State.bhLoad (s : State) (n room : Nat) : List (Nat × List Byte) × List (List Byte) :=
  let x := s.dir n
  let upds := (List.range 2).filterMap (fun k => match (x.stream k).rxPend with
    | some (m, kAt) => if (x.stream k).sending then
        some (tmUpdateOctets k m.id kAt m.design.toNat (s.entriesAt (tabOf n 0 k m.letter))) else none
    | none => none)
  let u := fitFrames room upds
  let left := room - u.1.foldl (fun a f => a + delimitedLen f.length) 0
  let d := fitFrames (if u.2.isEmpty then left else 0) x.outq
  (u.1.map (fun f => (7, f)) ++ d.1.map (fun f => (0, f)), d.2)

/-- The frame of an UP or LOST cycle is sent (R267, R268, R270, R280). -/
def State.sendFrame (s : State) (n skip : Nat) : State :=
  let s1 := s.switchMaps n
  let x := s1.dir n
  let a := x.stream 0
  let b := x.stream 1
  let cyc := s.now (dieN (dirDie n)) / 1000000
  let track := 20 * s.fld (D6B.beamCfg (dirDie n) (dirHead n)) 27 24
  let probe := if track ≠ 0 && cyc % track = 0 then (if x.probeOdd then 2 else 1) else 0
  let bits := s1.streamBits n 1 0 a.tx a.k + s1.streamBits n 1 1 b.tx b.k
  let size := s1.slotSymbols n (s.bit (dCfg n) 0) - (if probe = 0 then 0 else 2)
  let load := s1.bhLoad n (wordsIn size bits * 200)
  let words := codewords cyc load.1
  let h := { s1.bhHeader n with
    tmap := [a.tx.letter, b.tx.letter], probe := probe ≠ 0, probeRx := probe = 2, baseReq := x.baseReq, k := [a.k, b.k]
    ids := [a.tx.id, b.tx.id], acks := [a.ackId, b.ackId], requests := [a.request, b.request], words := words.length
    symbols := (words.length * 1944 + bits - 1) / max bits 1, skip := skip }
  let s2 := s1.emit (.bhFrame n h.octets words)
  s2.onDir n (fun z => { z with outq := load.2, probed := probe, probeOdd := if probe = 0 then z.probeOdd else !z.probeOdd, baseReq := false })

/-- The training frames and beams of a search cycle (R279); a frame that cannot be sent is skipped (R283). -/
def State.searchCycle (s : State) (n : Nat) : State :=
  let x := s.dir n
  let cfg := D6B.beamCfg (dirDie n) (dirHead n)
  let c := x.search.cycles
  let train := fun (t : State) (ask : Option Nat) => match s.skipReason n with
    | some why => t.frameSkip n why
    | none => (t.frameMark n true).emit (.bhFrame n { t.bhHeader n with beamReq := ask }.octets [])
  let s1 := if !s.bit (dCfg n) 0 then
      let b := if x.search.found then s.txBeam n else s.fld cfg 5 0 + c % max (s.nT n) 1
      train (s.setBeams n b b) none
    else if c < s.nT n * s.nR n then s.setBeams n (s.txBeam n) (s.fld cfg 17 12 + c / max (s.nT n) 1)
    else match x.search.best with
      | some (_, t, r) => train (s.setBeams n r r) (some t)
      | none => s
  s1.onDir n (fun z => { z with search := { z.search with cycles := if s.bit (dCfg n) 0 && c ≥ s.nT n * s.nR n && x.search.best.isNone then 0 else c + 1 } })

/-- The direction enters SEARCH (R278). -/
def State.enterSearch (s : State) (n : Nat) : State :=
  ((s.onDir n (fun z => { z with search := { cycles := 0, best := none, found := false }, noGood := 0, lost := 0 })).setDirState n 1).dirEvent n 2

/-- Cycles that a head's calibration occupies (R285). -/
def bhCalCycles (set : BitVec 4) : Nat :=
  (if set.getLsbD 0 then 4 else 0) + (if set.getLsbD 1 then 3 else 0) + (if set.getLsbD 2 then 6 else 0) + (if set.getLsbD 3 then 3 else 0)

/-- The direction is enabled, with its page enabled and its head present (R278). -/
def State.dirOn (s : State) (n : Nat) : Bool :=
  s.dirHere n && s.bit (dCfg n) 31 && s.bit (HDR.pageCtrl (D7.page (dirDie n))) 0 && s.bit (D6B.headStat (dirDie n) (dirHead n)) 0

/-- What the start of a cycle settles before its frame: OFF, SEARCH, a retune, a calibration announced one frame before (R278,
R283, R285). -/
def State.cycleSettle (s : State) (n : Nat) : State :=
  let s0 := if s.dirState n = 0 then (s.onDir n BhDir.toOff).enterSearch n else s
  s0.onDir n (fun z =>
    let y := if z.retune then { z.toBase with window := false } else z
    { y with
      retuning := z.retune
      retune := false
      good := false
      cycle := z.cycle + 1
      lost := if s0.dirState n = 3 then z.lost + 1 else 0 })

/-- Loopback of a head: register 0x03 bit 0, and HEAD_STAT.LOOPBACK (R261, R289). -/
def State.headLoop (s : State) (n : Nat) (on : Bool) : State :=
  (s.setBit (D6B.headStat (dirDie n) (dirHead n)) 3 on).emit (.headWrite n 3 (b2n on))

/-- A calibration that waits begins at a cycle start; its loopback step couples the head's chains (R261, R285). -/
def State.bhCalBegin (s : State) (n : Nat) : State :=
  match (s.dir n).calNext, (s.dir n).cal with
  | some set, none =>
    let t := (s.onDir n (fun z => { z with cal := some (set, bhCalCycles set), calNext := none })).setBit (D3.calStat (dirDie n)) 10 true
    if set.getLsbD 2 then t.headLoop n true else t
  | _, _ => s

/-- The cycle of end A's grid that has begun, by local time and CYC_OFS symbols of 2,304 samples (R264). -/
def State.gridCycle (s : State) (n : Nat) : Nat :=
  (s.now (dieN (dirDie n)) - samplesNs (s.fld (dCfg n) 26 16 * 2304 : Nat)) / 1000000

/-- A cycle start comes: at end A once per cycle of its grid; end B follows end A's frames (R259, R264). -/
def State.gridNew (s : State) (n : Nat) : Bool := s.bit (dCfg n) 0 || (s.dir n).grid != some (s.gridCycle n)

/-- The direction with its present grid cycle marked as begun. -/
def State.gridMark (s : State) (n : Nat) : State := s.onDir n (fun z => { z with grid := some (s.gridCycle n) })

/-- BH_CYCLE_START. A head without frames calibrates at once; another announces it in SKIP of its last frame before (R278, R285). -/
def execBhCycleStart (dir : Fin 12) (s0 : State) : Host.Outcome State Fault Refusal :=
  let n := dir.val
  let s := s0.gridMark n
  if !s0.dirHere n || !s0.gridNew n then .next s0
  else if !s.dirOn n then
    (if s.dirState n = 0 then .next (s.bhCalBegin n) else .next ((((s.onDir n BhDir.toOff).wr (dStat n) 0).dirShow n).bhCalBegin n))
  else
    let s1 := s.cycleSettle n
    let x := s1.dir n
    if s1.dirState n = 1 then .next (((s1.bhCalBegin n).searchCycle n).dirShow n)
    else
      let announce := match x.calNext with
        | some set => if x.cal.isNone then some set else none
        | none => none
      let s2 := match s1.skipReason n with
        | some why => s1.frameSkip n why
        | none => (s1.frameMark n false).sendFrame n ((announce.map bhCalCycles).getD 0)
      .next (((s2.bhCalBegin n).dirCap n).dirShow n)

/-! ## Received frames (R269, R274, R275, R277, R279 to R281) -/

/-- The streams of a received header: maps in use, K, acknowledgements and requests (R274, R275, R277). -/
def BhStream.heard (y : BhStream) (f : BhFrame) (k thr : Nat) : BhStream :=
  let letter := f.tmap.getD k 0
  let id := f.mapId.getD k 0
  let snrs := (f.snr.getD k 0 :: y.snrs).take 4
  let swapped := match y.rxPend with
    | some (m, _) => decide (m.letter = letter) && decide (m.id = id) && (letter == 1 || letter == 2)
    | none => false
  let rx := if letter = 1 || letter = 2 then
      (if swapped then (y.rxPend.map (fun p => p.1)).getD y.rx else { letter := letter, id := id, design := (y.rxIds.getD (letter - 1) (0, 0)).2 })
    else { BhMap.base with letter := letter }
  { y with
    rx := rx
    rxPend := if swapped then none else y.rxPend
    sending := y.sending && !swapped && !(match y.rxPend with
      | some (m, _) => f.ackId.getD k 0 == m.id
      | none => false)
    asked := min (f.backoffReq.getD k 0) 12
    peerK := f.k.getD k 0
    snrs := snrs
    peerOff := letter == 3 && y.offHold == 0
    offHold := y.offHold - 1
    request := if letter = 1 || letter = 2 then backoffRequest thr rx.design snrs else 0 }

/-- A stream's header names a map this end does not hold (R277). -/
def BhStream.unknown (y : BhStream) (f : BhFrame) (k : Nat) : Bool :=
  let letter := f.tmap.getD k 0
  (letter == 1 || letter == 2) && (y.rxIds.getD (letter - 1) (0, 0)).1 != f.mapId.getD k 0

/-- Moves of the beams that probes call for (R280): own transmit beam by the peer's results, own receive beam by its own. -/
def State.beamTrack (s : State) (n : Nat) (f : BhFrame) : State :=
  let cfg := D6B.beamCfg (dirDie n) (dirHead n)
  let hyst : Int := 2 * s.fld cfg 31 28
  let step := fun (b lo hi : Nat) (pl ph : Int) =>
    if hyst ≤ ph && pl ≤ ph && b < hi then b + 1 else if hyst ≤ pl && lo < b then b - 1 else b
  let tx := if (s.dir n).probed = 1 then step (s.txBeam n) (s.fld cfg 5 0) (s.fld cfg 11 6) f.probeLo f.probeHi else s.txBeam n
  let rx := if f.probeRx then step (s.rxBeam n) (s.fld cfg 17 12) (s.fld cfg 23 18) f.foundLo f.foundHi else s.rxBeam n
  let moved := tx ≠ s.txBeam n || rx ≠ s.rxBeam n
  let s1 := (s.setBeams n tx rx).onDir n (fun z => { z with
    foundLo := if f.probe && !f.probeRx then f.foundLo else z.foundLo, foundHi := if f.probe && !f.probeRx then f.foundHi else z.foundHi, probed := 0 })
  let s2 := if f.probe then (s1.setFld (bStat n) 23 16 (ux 8 f.foundLo)).setFld (bStat n) 31 24 (ux 8 f.foundHi) else s1
  if moved then s2.raise (D6B.page (dirDie n)) (2 + dirHead n) else s2

/-- Carrier offset (R281): CFO_STAT, and at end B the trim moves by one eighth of the offset, at most 0.05 ppm per frame. -/
def State.cfo (s : State) (n : Nat) (khz : Int) : State :=
  let a := D7.cfoStat (dirDie n) (dirHead n)
  let loMhz : Int := 58320 + (s.fld (D7.dirChan (dirDie n) (dirHead n)) 2 0 - 1) * 2160 - 11750
  let move := clampI (-12) 12 ((khz * 32000).tdiv loMhz)
  let lim : Int := 256 * s.fld (D7.cfoCfg (dirDie n)) 4 0
  let trim := sx 16 (s.fld a 31 16)
  let new := if s.bit (dCfg n) 0 && s.bit (D7.cfoCfg (dirDie n)) 8 then clampI (-lim) lim (trim + move) else trim
  s.wr a (BitVec.ofNat 32 (ux 16 khz + ux 16 new * 2 ^ 16))

/-- A good header in SEARCH (R279). -/
def State.searchHeard (s : State) (n : Nat) (f : BhFrame) : State :=
  let x := s.dir n
  let snr := f.snr.getD 0 0
  if !s.bit (dCfg n) 0 then
    (if f.beamReq = some (s.txBeam n) then s.onDir n (fun z => { z with search := { z.search with found := true } }) else s)
  else if x.search.cycles ≤ s.nT n * s.nR n then
    let better := match x.search.best with
      | none => true
      | some (v, _, _) => decide (v < snr)
    if better then s.onDir n (fun z => { z with search := { z.search with best := some (snr, f.txBeam, s.rxBeam n) } }) else s
  else match x.search.best with
    | some (_, t, _) => if f.txBeam = t then s.onDir n (fun z => { z with search := { z.search with found := true } }) else s
    | none => s

/-- A good header of an UP direction (R269, R274, R275, R277). -/
def State.upHeard (s : State) (n : Nat) (f : BhFrame) : State :=
  let x := s.dir n
  let unk := (List.range 2).find? (fun k => (x.stream k).unknown f k)
  let thr := s.fld (dTm n) 7 4
  let swap := (List.range 2).any (fun k => (x.stream k).rx.letter ≠ f.tmap.getD k 0)
  let rain := (List.range 2).any (fun k => (x.stream k).peerK = 0 && f.k.getD k 0 ≠ 0)
  let s1 := s.onDir n (fun z => (z.onStream 0 (fun y => y.heard f 0 thr)).onStream 1 (fun y => y.heard f 1 thr))
  let s2 := if f.baseReq then s1.onDir n (fun z => { z.dropUpdates with baseAnswer := true }) else s1
  let s3 := if rain then s2.dirEvent n 4 else s2
  match unk with
  | some k =>
    let s4 := s3.onDir n (fun z => { z.dropUpdates with
      baseReq := true
      streams := z.dropUpdates.streams.map (fun y => { y with rx := { BhMap.base with letter := if y.rx.letter = 3 then 3 else 0 }, request := 0 }) })
    ((s4.dirEvent n 6).err (D7.page (dirDie n)) 0x0101 (BitVec.ofNat 32 (dirHead n * 256 + k))).beamTrack n f
  | none =>
    let s4 := if swap then s3.dirEvent n 3 else s3
    (s4.count (D7.cwFail (dirDie n) (dirHead n)) f.cwFail).beamTrack n f

/-- BH_FRAME_RX: the header check of R269 and what follows. -/
def execBhFrameRx (dir : Fin 12) (f : BhFrame) (s : State) : Host.Outcome State Fault Refusal :=
  let n := dir.val
  let cnt := D7.frameCnt (dirDie n) (dirHead n)
  if !s.dirHere n || s.dirState n = 0 then .next s
  else if !f.crcOk then .next (s.bump cnt 31 16 1)
  else if f.endB == s.bit (dCfg n) 0 then
    .next (((s.bump cnt 31 16 1).dirEvent n 7).err (D7.page (dirDie n)) 0x0100 (BitVec.ofNat 32 (dirHead n)))
  else if f.ver ≠ 1 || f.sender ≠ s.fld (D7.dirId (dirDie n) (dirHead n)) 31 16 || !f.consistent then
    .next (((s.bump cnt 31 16 1).dirEvent n 5).err (D7.page (dirDie n)) 0x0104 (BitVec.ofNat 32 (dirHead n)))
  else
    let s1 := ((s.bump cnt 15 0 1).onDir n (fun z => { z with
      good := true, noGood := 0, lost := 0, peerSkip := f.skip
      advance := if s.bit (dCfg n) 0 then z.advance + f.ta else 0, arrival := if s.bit (dCfg n) 0 then 0 else f.arrival })).cfo n f.offset
    if s.dirState n = 1 then .next (s1.searchHeard n f)
    else
      let s2 := if s.dirState n = 3 then (s1.setDirState n 2).dirEvent n 0 else s1
      .next (((s2.upHeard n f).dirCap n).dirShow n)

/-- BH_HEALTH_REPORT: the end of the receive slot: DIR_HEALTH, with the cycles without a good header that SKIP does not cover
(R278, R282). -/
def execBhHealthReport (dir : Fin 12) (s : State) : Host.Outcome State Fault Refusal :=
  let n := dir.val
  if !s.dirHere n || s.dirState n = 0 then .next s
  else
    let x := s.dir n
    let all := (x.stream 0).snrs ++ (x.stream 1).snrs
    let mean : Int := if all.isEmpty then 0 else all.foldl (fun a b => a + b) 0 / all.length
    let miss := !x.good && x.peerSkip = 0
    let ng := if miss then x.noGood + 1 else x.noGood
    .next ((s.onDir n (fun z => { z with noGood := ng, peerSkip := if x.good then z.peerSkip else z.peerSkip - 1 })).wr
      (D7.dirHealth (dirDie n) (dirHead n)) (BitVec.ofNat 32 ((clampI 0 255 mean).toNat + min ng 255 * 2 ^ 8)))

/-- BH_LINK_LOST: eight consecutive cycles without a good header (R278). -/
def execBhLinkLost (dir : Fin 12) (s : State) : Host.Outcome State Fault Refusal :=
  let n := dir.val
  if s.dirHere n && s.dirState n = 2 && 8 ≤ (s.dir n).noGood then .next ((s.setDirState n 3).dirEvent n 1) else .next s

/-- BH_SEARCH_RESTART: 64 cycles in LOST (R278). -/
def execBhSearchRestart (dir : Fin 12) (s : State) : Host.Outcome State Fault Refusal :=
  let n := dir.val
  if s.dirHere n && s.dirState n = 3 && 64 ≤ (s.dir n).lost then .next (s.enterSearch n) else .next s

/-- SEARCH_COMPLETE: the direction holds its pair and enters UP with BASE on both streams (R278, R279). -/
def execSearchComplete (dir : Fin 12) (s : State) : Host.Outcome State Fault Refusal :=
  let n := dir.val
  if s.dirHere n && s.dirState n = 1 && (s.dir n).search.found then
    .next ((((s.onDir n (fun z => { BhDir.off with
      cycle := z.cycle, good := z.good, advance := z.advance, arrival := z.arrival, grid := z.grid, outq := z.outq })).setDirState n 2).dirEvent n 0).dirShow n)
  else .next s

/-! ## Noise windows (R271, R272) -/

/-- Two signed 16-bit entries a word. -/
def packSnr (l : List Int) (w : Nat) : Word := BitVec.ofNat 32 (ux 16 (l.getD (2 * w) 0) + ux 16 (l.getD (2 * w + 1) 0) * 2 ^ 16)

/-- NOISE_WINDOW_DONE: SNR_AVG of both streams and their Grate sources; a partial window is discarded (R271). `late` are the
streams whose map for the window before is not ready: TM_LATE (R272). -/
def execNoiseWindowDone (dir : Fin 12) (snr0 snr1 : List Int) (late0 late1 : Bool) (s : State) : Host.Outcome State Fault Refusal :=
  let n := dir.val
  if !s.dirHere n || s.dirState n ≠ 2 then .next s
  else if !(s.dir n).window then .next (s.onDir n (fun z => { z with window := true }))
  else
    let put := fun (t : State) (k : Nat) (l : List Int) =>
      (t.wrArr (D7.snrAvg (dirDie n) (2 * dirHead n + k) 0) ((List.range 832).map (packSnr l))).sourceEvent (0x40 + 4 * dirDie n + 2 * dirHead n + k)
    let miss := fun (t : State) (k : Nat) (b : Bool) =>
      if b then (t.bump (D7.skipCnt (dirDie n) (dirHead n)) 31 16 1).err (D7.page (dirDie n)) 0x0102 (BitVec.ofNat 32 (dirHead n * 256 + k)) else t
    .next (miss (miss (put (put s 0 snr0) 1 snr1) 0 late0) 1 late1)

/-! ## Heads (R261, R283, R289, R291) -/

/-- A head command on a page of a backhaul die; reserved addresses are refused as HEAD_BUSY. -/
def State.headCmd (s : State) (r : Requester) (d h : Nat) (w : Word) (act : State → State) : State :=
  s.cmdWrite r (D6B.headCmd d h) (fun t =>
    if t.roleN d != .backhaul then t
    else if bitsOf w 22 16 < 0x10 then t.err (D6B.page d) 0x0101 (BitVec.ofNat 32 (bitsOf w 22 16))
    else act t)

/-- HEAD_WRITE. -/
def execHeadWrite (r : Requester) (d : Fin 6) (h : Fin 2) (w : Word) (s : State) : Host.Outcome State Fault Refusal :=
  .next (s.headCmd r d.val h.val w (fun t => t.emit (.headWrite (2 * d.val + h.val) (bitsOf w 22 16) (bitsOf w 15 0))))

/-- HEAD_READ: the head's answer goes to HEAD_RDATA. -/
def execHeadRead (r : Requester) (d : Fin 6) (h : Fin 2) (w : Word) (data : Half) (s : State) : Host.Outcome State Fault Refusal :=
  .next (s.headCmd r d.val h.val w (fun t => t.wr (D6B.headRdata d.val h.val) (BitVec.ofNat 32 (data.toNat + 2 ^ 31))))

/-- HEAD_ALERT (R261, R283). -/
def execHeadAlert (dir : Fin 12) (s : State) : Host.Outcome State Fault Refusal :=
  let n := dir.val
  let a := D6B.headStat (dirDie n) (dirHead n)
  if !s.dirHere n || s.bit a 1 then .next s
  else .next (((s.setBit a 1 true).raise (D6B.page (dirDie n)) (dirHead n)).err (D6B.page (dirDie n)) 0x0102 (BitVec.ofNat 32 (dirHead n)))

/-- HEAD_ALERT_RELEASE: later slots send again (R283). -/
def execHeadAlertRelease (dir : Fin 12) (s : State) : Host.Outcome State Fault Refusal :=
  let n := dir.val
  if s.dirHere n then .next (s.setBit (D6B.headStat (dirDie n) (dirHead n)) 1 false) else .next s

/-! ## Calibration (R285) -/

/-- BH_CAL: the steps wait for the cycle start of each head named. -/
def execBhCal (r : Requester) (d : Fin 6) (w : Word) (s : State) : Host.Outcome State Fault Refusal :=
  .next (s.cmdWrite r (D3.calCmd d.val) (fun t =>
    if t.roleN d.val != .backhaul then t
    else
      let set : BitVec 4 := if bitsOf w 3 0 = 0 then 0xF else BitVec.ofNat 4 (bitsOf w 3 0)
      let heads := if bitsOf w 9 8 = 0 then 3 else bitsOf w 9 8
      let one := fun (u : State) (h : Nat) => if heads / 2 ^ h % 2 = 1 then u.onDir (2 * d.val + h) (fun z => { z with calNext := some set }) else u
      one (one t 0) 1))

/-- A head's calibration ends: CAL_STAT, and tiles of failed steps leave service (R219, R285). -/
def State.bhCalDone (s : State) (n : Nat) (fails : List CalFail) : State :=
  let d := dirDie n
  match (s.dir n).cal with
  | none => s
  | some (set, _) =>
    let mine := fails.filter (fun f => f.die == d && f.tile / 2 == dirHead n)
    let failed := mine.foldl (fun (b : BitVec 4) f => b ||| (f.steps &&& set)) 0
    let s1 := ((if set.getLsbD 2 then s.headLoop n false else s).onDir n (fun z => { z with cal := none })).wr (D3.calStat d)
      (putBit (putFld (putFld (s.rd (D3.calStat d)) 3 0 (set &&& ~~~ failed).toNat) 7 4 failed.toNat) 10 false)
    let s2 := if set.getLsbD 0 then
        (s1.setFld (D3.calStat d) 31 24 (s.fld (DC.dieTemp (dWin d)) 7 0)).setBit (D3.calStat d) 9 false else s1
    let s3 := [2 * dirHead n, 2 * dirHead n + 1].foldl (fun t q =>
      t.calTile set d q (((mine.find? (fun f => f.tile == q)).map CalFail.steps).getD 0)) s2
    let s4 := if set.getLsbD 2 && !failed.getLsbD 2 then
        s3.draw (fun k t => t.wr (D6B.headDelay d (dirHead n)) (BitVec.ofNat 32 (bitsOf (Config.freeWord k) 19 0))) else s3
    s4.raise (D3.page d) 0

/-- PART_CAL_DONE: a partition's run ends, or a backhaul die's heads' (R218, R219, R285). -/
def execPartCalDone (d : Fin 6) (fails : List CalFail) (s : State) : Host.Outcome State Fault Refusal :=
  if s.role d = .backhaul then .next ((s.bhCalDone (2 * d.val) fails).bhCalDone (2 * d.val + 1) fails)
  else .next (s.partCalDone d.val fails)

/-- A backhaul die has moved more than STALE_THR from its last transmit IQ step: CAL_STALE (R218, R285). -/
def State.bhStale (s : State) (d : Nat) (temp : Int) : State :=
  let a := D3.calStat d
  if s.roleN d == .backhaul && !s.bit a 9 && decide (s.fld (D3.calCfg d) 5 0 < (temp - sx 8 (s.fld a 31 24)).natAbs) then
    (s.setBit a 9 true).raise (D3.page d) 1
  else s

/-! ## Channel, enabling and actions (R278, R283, R288, R375) -/

/-- DIR_CHAN takes a value, from any source: a new channel retunes at the next cycle start and discards the noise window
(R271, R283). -/
def State.setDirChan (s : State) (n : Nat) (w : Word) : State :=
  let a := D7.dirChan (dirDie n) (dirHead n)
  let s1 := s.wr a w
  if bitsOf w 2 0 = s.fld a 2 0 then s1 else s1.onDir n (fun z => { z with retune := true, window := false })

/-- DIR_CFG.ENABLE becomes 1: refused as NO_FW while the die has no image and FW_STAT is not VERIFIED (R375). -/
def State.dirEnable (s : State) (n : Nat) : Option State :=
  let d := dirDie n
  if !s.dirHere n then none
  else if !s.acc.fw.getLsbD d && s.fld C4.fwStat 1 0 ≠ 2 then none
  else some { s.setBit (dCfg n) 31 true with acc := { s.acc with fw := s.acc.fw ||| BitVec.ofNat 6 (2 ^ d) } }

/-- A refused enable is recorded as NO_FW on the die control page (R375). -/
def State.dirNoFw (s : State) (n : Nat) : State := s.err (dWin (dirDie n)) 0x0100 (BitVec.ofNat 32 (0x10 + n))

/-- What a direction action does (R288); none where it cannot be carried out. -/
def bhPerform (a : PendAct) (s : State) : Option State :=
  match a.slot with
  | .part d _ =>
    let n := 2 * d.val + bitsOf a.desc 4 4
    if !s.dirHere n then none
    else match bitsOf a.desc 1 0 with
      | 0 => some (s.setDirChan n (putFld (s.rd (D7.dirChan d.val (dirHead n))) 2 0 (clampN 1 6 (bitsOf a.desc 10 8))))
      | 1 => s.dirEnable n
      | _ => some (s.setBit (dCfg n) 31 false)
  | _ => none

/-- A direction action of a kind at its T, on a backhaul-role die (R288). -/
def State.bhActAtT (s : State) (d : Fin 6) (i : Fin 8) (k : Nat) : State :=
  match s.pendAct (.part d i) with
  | some a =>
    if min (bitsOf a.desc 1 0) 2 ≠ k || s.role d != .backhaul then s
    else
      let s0 := if k = 1 && s.actDue a && (s.dirEnable (2 * d.val + bitsOf a.desc 4 4)).isNone && s.dirHere (2 * d.val)
        then s.dirNoFw (2 * d.val) else s
      s0.actAtT (.part d i) bhPerform
  | none => s

/-- BH_ACT_CHANNEL: DONE at T; the retune begins at the next cycle start (R283). -/
def execBhActChannel (d : Fin 6) (i : Fin 8) (s : State) : Host.Outcome State Fault Refusal := .next (s.bhActAtT d i 0)

/-- DIR_ON (R288). -/
def execDirOn (d : Fin 6) (i : Fin 8) (s : State) : Host.Outcome State Fault Refusal := .next (s.bhActAtT d i 1)

/-- DIR_OFF: OFF at the next cycle start (R278, R288). -/
def execDirOff (d : Fin 6) (i : Fin 8) (s : State) : Host.Outcome State Fault Refusal := .next (s.bhActAtT d i 2)

end Sys2Proof.Machine
end

