-- ==== Sys2Proof/Machine/Lamp.lean ====
section
/-!
DEFINITION. Lamp outputs of die E: guarded levels, the failsafe level and its causes, the host-loss watchdog, PWM periods
and fades, the DALI-2 channels and the lamp actions (R466 to R480).
-/
namespace Sys2Proof.Machine

/-- Output `o` of the block. -/
def State.lampOut (s : State) (o : Nat) : LampOut :=
  s.lamp.outs.getD o { level := none, fs := false, change := none, fade := none, period := none, stored := 0, storing := false }

/-- The state with an output replaced. -/
def State.setLampOut (s : State) (o : Nat) (x : LampOut) : State := { s with lamp := { s.lamp with outs := s.lamp.outs.set o x } }

/-- Channel `c` of the block. -/
def State.dali (s : State) (c : Nat) : DaliChan := s.lamp.chans.getD c { waiting := none, bus := .idle, queue := [], results := [] }

/-- The state with a channel replaced. -/
def State.setDali (s : State) (c : Nat) (x : DaliChan) : State := { s with lamp := { s.lamp with chans := s.lamp.chans.set c x } }

/-- LAMP_CFG: output `o` is enabled (R466, R480). -/
def State.lampOn (s : State) (o : Nat) : Bool := s.bit E7.lampCfg o

/-- The output is a DALI channel (R466). -/
def isDali (o : Nat) : Bool := decide (o < 2)

/-- A level inside the output's range (R466, R480). -/
def levelOk (o v : Nat) : Bool := if isDali o then decide (v ≤ 254) else decide (v ≤ 65535)

/-- The DAPC frame of a level to an output's TARGET (R474). -/
def State.dapc (s : State) (o v : Nat) : Nat := s.fld (E7.outCfgDali o) 7 0 * 256 + v

/-- The GO TO SCENE frame of a scene to an output's TARGET: the command form of the address byte, then 0x10 plus the
scene (R477, IEC 62386-102). -/
def State.sceneFrame (s : State) (o n : Nat) : Nat := (s.fld (E7.outCfgDali o) 7 0 + 1) * 256 + 0x10 + n

/-- LAMP_STAT.BUS_DOWN of a channel (R473). -/
def State.busDown (s : State) (c : Nat) : Bool := s.bit E7.lampStat (8 + c)

/-- LAMP_STAT.IN_FS follows the outputs: an enabled output in failsafe shows its bit (R469, R480). -/
def State.showFs (s : State) : State :=
  s.setFld E7.lampStat 5 0 ((List.range 6).foldl (fun n o => if s.lampOn o && (s.lampOut o).fs then n + 2 ^ o else n) 0)

/-- An output starts towards a driven level: a DALI output by a level frame that replaces one not started (R474), a PWM
output at its next period boundary, with a fade or without (R472). A disabled output is undriven (R466). -/
def State.driveLamp (s : State) (o v : Nat) (fade : Bool) : State :=
  if !s.lampOn o then s
  else if isDali o then s.setDali o { s.dali o with waiting := some (s.dapc o v, some v) }
  else s.setLampOut o { s.lampOut o with change := some fade }

/-- A failsafe cause is active (FS_CAUSE, R469). -/
def State.fsActive (s : State) : Bool := s.fld E7.fsCause 3 0 != 0

/-- One output enters failsafe (R469): its level is the failsafe level, an enabled output is driven there without a fade,
and the entry is logged (R486). -/
def State.fsOutput (s : State) (o : Nat) : State :=
  let x := s.lampOut o
  if x.fs then s
  else
    let v := s.fld (E7.failsafe o) 15 0
    let s1 := (s.setLampOut o { x with fs := true, level := some v, fade := none }).setBit E7.lampStat (16 + o) false
    if s.lampOn o then (s1.driveLamp o v false).logFree E7.page 7 else s1

/-- A failsafe cause begins: every output takes the failsafe level and FS_ENTER is raised (R469). It is not deferred by a
supply warning. -/
def State.fsBegin (s : State) (cause : Nat) : State :=
  let s1 := s.setBit E7.fsCause cause true
  let s2 := (List.range 6).foldl State.fsOutput s1
  s.healthStep (s2.showFs.raise E7.page 0)

/-- A failsafe cause clears; the outputs stay at the failsafe level (R35, R469). -/
def State.fsClear (s : State) (cause : Nat) : State := s.setBit E7.fsCause cause false

/-- A level is applied to an output: LEVEL holds it, an output leaves failsafe with FS_EXIT, and a change of the applied
level is driven (R467, R470, R472, R474). While a cause is active it is discarded as FS_ACTIVE, and the answer is none. Any requester's write of
LEVEL ends failsafe, an engine's too (log 96). -/
def State.applyLevel (s : State) (o v : Nat) : Option State :=
  if s.fsActive then none
  else
    let x := s.lampOut o
    let s1 := (s.wr (E7.level o) (BitVec.ofNat 32 v)).setLampOut o { x with level := some v, fs := false }
    let s2 := if x.level = some v && !x.fs then s1 else s1.driveLamp o v true
    some (if x.fs then s.healthStep (s2.showFs.raise E7.page 1) else s2)

/-- A level change discarded while a failsafe cause is active (R470). -/
def State.fsDiscard (s : State) (o : Nat) : State := s.err E7.page 0x0100 (BitVec.ofNat 32 o)

/-- A level is applied, or discarded as FS_ACTIVE (R470). -/
def State.levelOrDiscard (s : State) (o v : Nat) : State := (s.applyLevel o v).getD (s.fsDiscard o)

/-- LAMP_CFG enables an output: one held in failsafe is driven at the failsafe level, another at its applied level; a
disabled output is undriven, DALI_TX low and PWM at its inactive level (R466, R469). -/
def State.lampEnable (s : State) (o : Nat) (was : Bool) : State :=
  if s.lampOn o == was then s
  else if s.lampOn o then
    match (s.lampOut o).level with
    | some v => s.driveLamp o v false
    | none => s
  else
    let s1 := (s.wr (E7.outNow o) 0).setBit E7.lampStat (16 + o) false
    let s2 := s1.setLampOut o { s1.lampOut o with change := none, fade := none }
    if isDali o then s2.setDali o { s2.dali o with waiting := none } else s2

/-- A write of LAMP_CFG, direct or as a group share. -/
def State.setLampCfg (s : State) (w : Word) : State :=
  let s1 := s.wr E7.lampCfg w
  ((List.range 6).foldl (fun t o => t.lampEnable o (s.lampOn o)) s1).showFs.oscSync

/-- A write of a guarded FAILSAFE: the register takes the level and its copy to the persistent store starts (R468). -/
def State.failsafeWrite (s : State) (r : Requester) (o : Nat) (w : Word) : State :=
  s.guardWrite r (E7.failsafe o) w (fun v t =>
    if levelOk o v then
      ((t.wr (E7.failsafe o) (BitVec.ofNat 32 v)).setLampOut o { t.lampOut o with storing := true }).setBit E7.lampStat 24 true
    else t.guardRange (E7.failsafe o) 15 0 v (t.fld (E7.failsafe o) 15 0))

/-- FAILSAFE_WRITE (R468). -/
def execFailsafeWrite (r : Requester) (o : Fin 6) (w : Word) (s : State) : Host.Outcome State Fault Refusal :=
  .next (s.failsafeWrite r o.val w)

/-- FAILSAFE_STORE_DONE: a copy under way completes, unless a supply warning on die E holds it; STORE_PEND clears with
the last one and STORE_DONE is raised (R468, R478). -/
def execFailsafeStoreDone (o : Fin 6) (s : State) : Host.Outcome State Fault Refusal :=
  let x := s.lampOut o.val
  if x.storing && !s.supplyWarn .e then
    let s1 := s.setLampOut o.val { x with storing := false, stored := s.fld (E7.failsafe o.val) 15 0 }
    .next ((s1.setBit E7.lampStat 24 (s1.lamp.outs.any LampOut.storing)).raise E7.page 7)
  else .next s

/-- The host-loss watchdog counts in STANDBY and RUN, and in EMBER while EMBER_RUN is 1; a PERIOD of 0 turns it off
(R471). -/
def State.hostWdtCounts (s : State) : Bool :=
  s.fld E7.hostWdt 11 0 != 0 && (s.cRuns || (s.pstate == 1 && s.bit E7.hostWdt 16))

/-- A kick of the host-loss watchdog: an engine's write is discarded as LAMP_REQUESTER; an accepted one restarts the
period and clears the HOST_WDT cause (R469, R471). -/
def State.lampKick (s : State) (r : Requester) (w : Word) : State :=
  match r with
  | .engine _ => s.cmdWrite r E7.lampKick (fun t => t.err E7.page 0x0101 (BitVec.ofNat 32 (E7.lampKick % 0x10000)))
  | _ => s.guardWrite r E7.lampKick w (fun v t =>
      let t1 := t.wr E7.lampKick (BitVec.ofNat 32 v)
      ({ t1 with lamp := { t1.lamp with kick := if t.hostWdtCounts then some t.mono else none } }).fsClear 2)

/-- LAMP_KICK (R471). -/
def execLampKick (r : Requester) (w : Word) (s : State) : Host.Outcome State Fault Refusal := .next (s.lampKick r w)

/-- WDT_LEFT: seconds to expiry, rounded up; 0 while the watchdog does not count (R471, R479). -/
def State.wdtLeft (s : State) : Nat :=
  match s.lamp.kick with
  | some k => if s.hostWdtCounts then (k + s.fld E7.hostWdt 11 0 * 1000000000 - s.mono + 999999999) / 1000000000 else 0
  | none => 0

/-- HOST_WDT_EXPIRY: PERIOD seconds after the last kick the watchdog expires: HOST_WDT_EXP and the HOST_WDT cause
(R469, R471). -/
def execHostWdtExpiry (s : State) : Host.Outcome State Fault Refusal :=
  match s.lamp.kick with
  | some k =>
    if s.hostWdtCounts && decide (k + s.fld E7.hostWdt 11 0 * 1000000000 ≤ s.mono) then
      .next (({ s with lamp := { s.lamp with kick := none } }.raise E7.page 2).fsBegin 2)
    else .next s
  | none => .next s

/-- Periods a fade of a PWM output takes: FADE in units of 10 ms at FREQ periods a second (R472, R480). -/
def State.fadeSteps (s : State) (o : Nat) : Nat := s.fld (E7.outCfgPwm (o - 2)) 27 18 * s.fld (E7.outCfgPwm (o - 2)) 15 0 / 100

/-- OUT_NOW `k` periods into a fade: the exact position is start + (goal − start) k / steps; where it is no whole number
the register shows one of its two neighbours (a free choice). -/
def State.fadeLevel (s : State) (f : Fade) : Nat :=
  let num : Int := (f.start : Int) * f.steps + ((f.goal : Int) - f.start) * f.done
  let lo := num / f.steps
  (if num % f.steps = 0 then lo else lo + (Config.freeNat s.fresh % 2 : Nat)).toNat

/-- One equal step of a fade (R472). -/
def State.fadeStep (s : State) (o : Nat) : State :=
  match (s.lampOut o).fade with
  | none => s
  | some f =>
    let f1 := { f with done := f.done + 1 }
    let s2 := { s.wr (E7.outNow o) (BitVec.ofNat 32 (s.fadeLevel f1)) with fresh := s.fresh + 1 }
    if f1.done < f1.steps then s2.setLampOut o { s2.lampOut o with fade := some f1 }
    else ((s2.wr (E7.outNow o) (BitVec.ofNat 32 f1.goal)).setLampOut o { s2.lampOut o with fade := none }).setBit
      E7.lampStat (16 + o) false

/-- One period boundary of a PWM output (R472): a waiting change takes effect, at once or as the start of a fade from
OUT_NOW; each boundary after it makes one equal step of the fade. -/
def State.pwmBoundary (s : State) (o : Nat) : State :=
  let x := s.lampOut o
  let goal := x.level.getD 0
  let n := s.fadeSteps o
  match x.change with
  | none => s.fadeStep o
  | some fade =>
    if fade && n != 0 then
      (s.setLampOut o { x with change := none, fade := some { start := s.fld (E7.outNow o) 15 0, goal := goal, steps := n, done := 0 } }).setBit
        E7.lampStat (16 + o) true
    else ((s.setLampOut o { x with change := none, fade := none }).wr (E7.outNow o) (BitVec.ofNat 32 goal)).setBit
      E7.lampStat (16 + o) false

/-- The period of PWM output `n` that runs, counted from second 0 of die E's local time (R472). -/
def State.pwmPeriod (s : State) (n : Nat) : Nat := s.now .e * s.fld (E7.outCfgPwm n) 15 0 / 1000000000

/-- A boundary has fallen since the last that acted, and the output with its present period marked. -/
def State.pwmNew (s : State) (n : Nat) : Bool := (s.lampOut (n + 2)).period != some (s.pwmPeriod n)

def State.pwmMark (s : State) (n : Nat) : State :=
  s.setLampOut (n + 2) { s.lampOut (n + 2) with period := some (s.pwmPeriod n) }

/-- PWM_BOUNDARY of output PWM `n`, once for each boundary of local time; a duty between its ends keeps the 40 MHz crystal running
(R472). -/
def execPwmBoundary (n : Fin 4) (s : State) : Host.Outcome State Fault Refusal :=
  if s.lampOn (n.val + 2) && s.pwmNew n.val then .next ((s.pwmMark n.val).pwmBoundary (n.val + 2)).oscSync else .next s

/-- Duration in ns of a DALI forward frame: 17 bit periods for 16 bits, 25 for 24 bits (R476, the example's 14.167 ms and
20.833 ms). -/
def frameNs (long : Bool) : Nat := if long then 20833333 else 14166667

/-- An action or group share is pending on a DALI output within the given span: the bus is held for its instant T
(R476). -/
def State.daliHeld (s : State) (c span : Nat) : Bool :=
  let acts := s.actq.any (fun a => match a.slot with
    | .lamp _ => s.fld (slotStat a.slot) 3 0 == stPending && bitsOf a.desc 6 4 == c && decide (0 ≤ s.actDiff a) && decide (s.actDiff a < span)
    | _ => false)
  let groups := s.txu.groups.any (fun g =>
    (g.state == .committed || g.state == .armed || g.state == .go) && g.writes.any (fun w => w.addr == E7.level c)
      && decide (0 ≤ atimeDiff g.tS g.tNs (s.now .e)) && decide (atimeDiff g.tS g.tNs (s.now .e) < span))
  acts || groups

/-- A channel with a free bus starts its oldest queued frame: not while a level frame waits, while BUS_DOWN is set, while
32 results are unread, or while it could not end before a pending T (R474 to R476). The backward window and settling
time are those of IEC 62386-101. -/
def State.daliNext (s : State) (c : Nat) : State :=
  let x := s.dali c
  match x.queue with
  | [] => s
  | f :: q =>
    if x.bus == .idle && x.waiting.isNone && !s.busDown c && s.lampOn c && decide (x.results.length < 32)
        && !s.daliHeld c (frameNs f.long + Config.daliWindow (s.fld (E7.outCfgDali c) 10 8)) then
      (s.setDali c { x with bus := .queued f, queue := q }).emit (.dali c f.frame f.long)
    else s

/-- The waiting level frame starts on the bus; OUT_NOW shows its level, or 0xFFFF after a scene (R467, R474, R477). -/
def State.daliLevelStart (s : State) (c : Nat) : State :=
  let x := s.dali c
  match x.waiting with
  | some (f, v) =>
    if x.bus == .idle && !s.busDown c && s.lampOn c then
      ((s.setDali c { x with waiting := none, bus := .level f }).wr (E7.outNow c) (BitVec.ofNat 32 (v.getD 0xFFFF))).emit
        (.dali c f false)
    else s
  | none => s

/-- DALI_LEVEL_FRAME: the level frame starts once the bus has been free for its settling time; where another master held
the bus at T, DALI_CNT.DELAYED counts it (R474, R476). With none to send, the bus serves the queue (R475). -/
def execDaliLevelFrame (c : Fin 2) (delayed : Bool) (s : State) : Host.Outcome State Fault Refusal :=
  let s1 := s.daliLevelStart c.val
  .next (if delayed && (s.dali c.val).waiting.isSome && (s1.dali c.val).waiting.isNone
    then s1.bump (E7.daliCnt c.val) 31 16 1 else if (s.dali c.val).waiting.isNone then s1.daliNext c.val else s1)

/-- A queued frame ends with a result; DQ_RESULT is raised (R475). -/
def State.daliResult (s : State) (c code back : Nat) : State :=
  let x := s.dali c
  (s.setDali c { x with bus := .idle, results := x.results ++ [BitVec.ofNat 32 (2 ^ 31 + code * 2 ^ 8 + back)] }).raise E7.page 3

/-- DALI_COLLISION: each is counted; a level frame is retried until it is sent unless a newer one has replaced it, and a
queued frame fails on its tenth (R474, R475). -/
def execDaliCollision (c : Fin 2) (s : State) : Host.Outcome State Fault Refusal :=
  let x := s.dali c.val
  let s1 := s.bump (E7.daliCnt c.val) 15 0 1
  match x.bus with
  | .idle => .next s
  | .level f =>
    let w := match x.waiting with
      | some y => some y
      | none => some (f, (s.lampOut c.val).level)
    .next (s1.setDali c.val { x with bus := .idle, waiting := w })
  | .queued f =>
    if f.collisions + 1 < 10 then
      .next ((s1.setDali c.val { x with bus := .idle, queue := { f with collisions := f.collisions + 1 } :: x.queue }).daliNext c.val)
    else .next (((s1.daliResult c.val 3 0).err E7.page 0x0103 (BitVec.ofNat 32 c.val)).daliNext c.val)

/-- DALI_FRAME_DONE: a level frame leaves no result; a queued frame leaves SENT, or for one marked ANSWER the backward
frame, NO_ANSWER or FRAMING (R475, R480). A frame marked TWICE has been sent twice. -/
def execDaliFrameDone (c : Fin 2) (ans : DaliAnswer) (s : State) : Host.Outcome State Fault Refusal :=
  let x := s.dali c.val
  match x.bus with
  | .idle => .next s
  | .level _ => .next ((s.setDali c.val { x with bus := .idle }).daliNext c.val)
  | .queued f =>
    let s1 := if f.twice then s.emit (.dali c.val f.frame f.long) else s
    let s2 := if !f.answer then s1.daliResult c.val 0 0
      else match ans with
        | .none => s1.daliResult c.val 2 0
        | .byte b => s1.daliResult c.val 1 b.toNat
        | .framing => s1.daliResult c.val 4 0
    .next (s2.daliNext c.val)

/-- DQ_PUSH: a host frame is queued, or discarded as DQ_FULL beyond 32 (R475). -/
def State.dqPush (s : State) (r : Requester) (c : Nat) (w : Word) : State :=
  s.cmdWrite r (E7.dqPush c) (fun t =>
    let x := t.dali c
    if x.queue.length < 32 then
      (t.setDali c { x with queue := x.queue ++ [DaliFrame.mk (bitsOf w 23 0) (bitOf w 24) (bitOf w 25) (bitOf w 26) 0] }).daliNext c
    else t.err E7.page 0x0102 (BitVec.ofNat 32 c))

/-- DQ_PUSH (R475). -/
def execDqPush (r : Requester) (c : Fin 2) (w : Word) (s : State) : Host.Outcome State Fault Refusal := .next (s.dqPush r c.val w)

/-- DQ_FLUSH: the frames not yet started end as FLUSHED, each with its result (R475). -/
def State.dqFlush (s : State) (r : Requester) (c : Nat) : State :=
  s.cmdWrite r (E7.dqFlush c) (fun t =>
    let x := t.dali c
    let t1 := t.setDali c { x with queue := [], results := x.results ++ x.queue.map (fun _ => BitVec.ofNat 32 (2 ^ 31 + 5 * 2 ^ 8)) }
    if x.queue.isEmpty then t1 else t1.raise E7.page 3)

/-- DQ_FLUSH (R475). -/
def execDqFlush (r : Requester) (c : Fin 2) (_w : Word) (s : State) : Host.Outcome State Fault Refusal := .next (s.dqFlush r c.val)

/-- DQ_RES_READ: the oldest result is returned and removed; with none it reads 0 (R475, R479). -/
def State.dqResRead (s : State) (c : Nat) : State :=
  let x := s.dali c
  match x.results with
  | [] => s.answer [0]
  | w :: t => ((s.setDali c { x with results := t }).answer [w]).daliNext c

/-- DQ_RES_READ (R475). -/
def execDqResRead (_r : Requester) (c : Fin 2) (s : State) : Host.Outcome State Fault Refusal :=
  if s.reachable (E7.dqRes c.val) then .next (s.dqResRead c.val) else .next ((s.accessOff (E7.dqRes c.val)).answer [0])

/-- BUS_DOWN: DALIc_RX low for 45 ms without the device driving (R473). -/
def execBusDown (c : Fin 2) (s : State) : Host.Outcome State Fault Refusal :=
  .next ((s.setBit E7.lampStat (8 + c.val) true).raise E7.page 4)

/-- BUS_UP: DALIc_RX high for 20 ms; a waiting level frame is sent (R473, R474). -/
def execBusUp (c : Fin 2) (s : State) : Host.Outcome State Fault Refusal :=
  .next ((((s.setBit E7.lampStat (8 + c.val) false).raise E7.page 5).daliLevelStart c.val).daliNext c.val)

/-- What a lamp action does at its instant (R477): LEVEL applies its level, SCENE sends GO TO SCENE on a DALI output,
whose applied level becomes unknown. None while a failsafe cause is active: MISSED with reason STATE, FS_ACTIVE
recorded by the caller (R470). A SCENE action too takes its output out of failsafe (log 96). -/
def lampPerform (a : PendAct) (s : State) : Option State :=
  let o := bitsOf a.desc 6 4
  if s.fsActive then none
  else if bitOf a.desc 0 then
    let x := s.lampOut o
    let s1 := s.setLampOut o { x with level := none, fs := false }
    let s2 := if s.lampOn o then s1.setDali o { s1.dali o with waiting := some (s.sceneFrame o (bitsOf a.desc 11 8), none) } else s1
    some (if x.fs then s.healthStep (s2.showFs.raise E7.page 1) else s2)
  else s.applyLevel o (bitsOf a.extra 15 0)

/-- At T a level frame leaves the bus at once where the bus is free (R476). -/
def State.lampActAtT (s : State) (i : Fin 8) (kind : Bool) : State :=
  match s.pendAct (.lamp i) with
  | some a =>
    if bitOf a.desc 0 == kind then
      let s1 := if s.actDue a && s.fsActive && !s.actWarned a && !s.bit (slotStat (.lamp i)) 28
        then s.fsDiscard (bitsOf a.desc 6 4) else s
      ((s1.actAtT (.lamp i) lampPerform).daliLevelStart (bitsOf a.desc 6 4)).daliNext (bitsOf a.desc 6 4)
    else s
  | none => s

/-- LAMP_ACT_LEVEL: a LEVEL action applies ACT_LEVEL to its output at T (R477). -/
def execLampActLevel (i : Fin 8) (s : State) : Host.Outcome State Fault Refusal := .next (s.lampActAtT i false)

/-- LAMP_ACT_SCENE: a SCENE action sends GO TO SCENE on a DALI output at T (R477). -/
def execLampActScene (i : Fin 8) (s : State) : Host.Outcome State Fault Refusal := .next (s.lampActAtT i true)

end Sys2Proof.Machine
end

