-- ==== Sys2Proof/Machine/Aes.lean ====
section
/-!
DEFINITION. The byte-serial AES engine of die E: key slots, contexts, and the order of blocks (R396 to R402).
-/
namespace Sys2Proof.Machine

/-! ## Slots and contexts -/



/-- Key slot `n`, and a slot replaced. -/
def State.aesSlot (s : State) (n : Nat) : AesSlot := s.aes.slots.getD n AesSlot.fresh

def State.setAesSlot (s : State) (n : Nat) (x : AesSlot) : State := { s with aes := { s.aes with slots := s.aes.slots.set n x } }

/-- Context `k`, and a context replaced. -/
def State.aesCtx (s : State) (k : Nat) : AesCtx := s.aes.ctxs.getD k AesCtx.fresh

def State.setAesCtx (s : State) (k : Nat) (x : AesCtx) : State := { s with aes := { s.aes with ctxs := s.aes.ctxs.set k x } }

/-- CTX_STAT fields (R402): 0 FREE, 1 OPEN, 2 PENDING, 3 RUNNING. -/
def State.ctxState (s : State) (k : Nat) : Nat := s.fld (E6.ctxStat k) 2 0
def State.ctxGen (s : State) (k : Nat) : Nat := s.fld (E6.ctxStat k) 23 16
def State.ctxPrio (s : State) (k : Nat) : Nat := s.fld (E6.ctxStat k) 25 24
def State.ctxSlot (s : State) (k : Nat) : Nat := s.fld (E6.ctxStat k) 31 28

/-- The slot's current generation. -/
def State.aesGen (s : State) (n : Nat) : Nat := s.fld (E6.keyStat n) 15 8

/-- The open contexts of a slot under a generation. -/
def State.ctxsOf (s : State) (n g : Nat) : List Nat :=
  (List.range 8).filter (fun k => s.ctxState k != 0 && s.ctxSlot k == n && s.ctxGen k == g)

/-- A retired copy is dropped when its last context has closed; KEY_STAT counts the contexts on each generation (R399, R402). -/
def State.aesShow (s : State) (n : Nat) : State :=
  let x := s.aesSlot n
  let old := match x.retired with
    | some (_, _, g) => (s.ctxsOf n g).length
    | none => 0
  let s1 := if old = 0 then s.setAesSlot n { x with retired := none } else s
  (((s1.setBit (E6.keyStat n) 2 (old != 0)).setFld (E6.keyStat n) 27 24 (s.ctxsOf n (s.aesGen n)).length).setFld (E6.keyStat n) 31 28 old)

/-- The key of a context's bound generation, and whether it is AES-256 (R399). -/
def State.boundKey (s : State) (k : Nat) : List Word :=
  let n := s.ctxSlot k
  match (s.aesSlot n).retired with
  | some (key, long, g) => if g = s.ctxGen k then (if long then key else key.take 4)
    else (if s.bit (E6.keyStat n) 1 then (s.aesSlot n).key else (s.aesSlot n).key.take 4)
  | none => if s.bit (E6.keyStat n) 1 then (s.aesSlot n).key else (s.aesSlot n).key.take 4

/-! ## Blocks (R396, R398) -/

/-- The pending context the engine takes next: highest priority, earliest submission; none below a held priority. -/
def State.aesNext (s : State) : Option Nat :=
  let floor := match s.aes.hold with
    | some (p, _, til) => if s.mono < til then p else 0
    | none => 0
  (List.range 8).foldl (fun (best : Option Nat) k =>
    if s.ctxState k ≠ 2 || s.ctxPrio k < floor then best
    else match best with
      | none => some k
      | some b => if s.ctxPrio b < s.ctxPrio k || (s.ctxPrio b == s.ctxPrio k && (s.aesCtx k).order < (s.aesCtx b).order) then some k else some b) none

/-- The 40 MHz clock serves the engine: outside EMBER and BANKED always, there once the crystal is usable (R106, R396). -/
def State.aesClock (s : State) : Bool := s.cRuns || s.power.x40Usable

/-- The engine starts a block when it is free (R398). -/
def State.aesKick (s : State) : State :=
  if s.aes.run.isSome || !s.aesClock then s
  else match s.aesNext with
    | none => s
    | some k =>
      let c := s.aesCtx k
      let run : AesRun := { ctx := k, key := s.boundKey k, input := s.rdArr (E6.ctxIn k 0) 4, decrypt := c.decrypt, prio := s.ctxPrio k, live := true }
      let s1 := (s.setAesCtx k { c with started := true }).setFld (E6.ctxStat k) 2 0 3
      { s1 with aes := { s1.aes with run := some run, hold := none } }

/-- CTX_BUSY and CTX_SIDE (R397, R402). -/
def State.ctxBusy (s : State) (k : Nat) : State := s.err E6.page 0x0103 (BitVec.ofNat 32 k)

/-- A context command: contexts 0 to 5 are the Ember engine's (no requester), 6 and 7 the host's (R397). -/
def State.ctxWrite (s : State) (r : Option Requester) (k a : Nat) (act : State → State) : State :=
  let side := fun (t : State) => if r.isSome == decide (6 ≤ k) then act t else t.err E6.page 0x0100 (BitVec.ofNat 32 k)
  match r with
  | some q => s.cmdWrite q a side
  | none => side s

/-- A guarded word from a requester, or the Ember engine. -/
def State.aesGuard (hi : Half) (v a : Nat) (act : State → State) (s : State) : State :=
  if guardOk (hi ++ BitVec.ofNat 16 v) then act s else s.guardFail a false false

/-- CTX_OPEN: an open context is a user of the 40 MHz crystal (R396). -/
def State.ctxOpen (s : State) (k n prio : Nat) : State :=
  if s.ctxState k ≠ 0 then s.ctxBusy k
  else if !s.bit (E6.keyStat n) 0 then
    ((s.setFld (E6.ctxStat k) 7 4 1).err E6.page 0x0101 (BitVec.ofNat 32 k))
  else
    let w := BitVec.ofNat 32 (1 + s.aesGen n * 2 ^ 16 + prio * 2 ^ 24 + n * 2 ^ 28)
    (((s.wr (E6.ctxStat k) w).setAesCtx k AesCtx.fresh).aesShow n).oscSync

def execCtxOpen (r : Option Requester) (k : Fin 8) (slot : Fin 16) (prio : Fin 4) (hi : Half) (s : State) : Host.Outcome State Fault Refusal :=
  .next (s.ctxWrite r k.val (E6.ctxCmd k.val)
    (State.aesGuard hi (1 + slot.val * 4 + prio.val * 64) (E6.ctxCmd k.val) (fun t => (t.accept (E6.ctxCmd k.val) (1 + slot.val * 4 + prio.val * 64)).ctxOpen k.val slot.val prio.val)))

/-- CTX_CLOSE: a pending block is discarded as CTX_BUSY; a running one finishes without a result (R398, R400). -/
def State.ctxClose (s : State) (k : Nat) : State :=
  if s.ctxState k = 0 then s
  else
    let s0 := if s.ctxState k = 2 then s.ctxBusy k else s
    let s1 := s0.setFld (E6.ctxStat k) 2 0 0
    let hold := match s1.aes.hold with
      | some (p, c, til) => if c = k then none else some (p, c, til)
      | none => none
    let s2 := { s1 with aes := { s1.aes with hold := hold, run := s1.aes.run.map (fun (x : AesRun) => if x.ctx = k then { x with live := false } else x) } }
    ((s2.aesShow (s.ctxSlot k)).oscSync).aesKick

def execCtxClose (r : Option Requester) (k : Fin 8) (hi : Half) (s : State) : Host.Outcome State Fault Refusal :=
  .next (s.ctxWrite r k.val (E6.ctxCmd k.val) (State.aesGuard hi 2 (E6.ctxCmd k.val) (fun t => (t.accept (E6.ctxCmd k.val) 2).ctxClose k.val)))

/-- CTX_GO: one block is submitted; DONE is cleared (R397). -/
def State.ctxGo (s : State) (k : Nat) (decrypt : Bool) : State :=
  if 2 ≤ s.ctxState k then s.ctxBusy k
  else if s.ctxState k = 0 then s
  else
    let s1 := ((s.setFld (E6.ctxStat k) 2 0 2).setBit (E6.ctxStat k) 8 false).setAesCtx k { s.aesCtx k with order := s.aes.order, decrypt := decrypt }
    let hold := match s1.aes.hold with
      | some (p, c, til) => if c = k then none else some (p, c, til)
      | none => none
    { s1 with aes := { s1.aes with order := s.aes.order + 1, hold := hold } }.aesKick

def execCtxGo (r : Option Requester) (k : Fin 8) (decrypt : Bool) (s : State) : Host.Outcome State Fault Refusal :=
  .next (s.ctxWrite r k.val (E6.ctxGo k.val) (fun t => t.ctxGo k.val decrypt))

/-- AES_BLOCK_DONE: the result, CTX_DONE, and the hold of the priority that finished (R398). -/
def execAesBlockDone (s : State) : Host.Outcome State Fault Refusal :=
  match s.aes.run with
  | none => .next s
  | some x =>
    let s0 := { s.count E6.aesBlocks 1 with aes := { s.aes with run := none, hold := none } }
    if !x.live then .next s0.aesKick
    else
      let out := if x.decrypt then Config.aesDecrypt x.key x.input else Config.aesEncrypt x.key x.input
      let s1 := s0.wrArr (E6.ctxOut x.ctx 0) ((List.range 4).map (fun i => out.getD i 0))
      let s2 := ((s1.setFld (E6.ctxStat x.ctx) 2 0 1).setBit (E6.ctxStat x.ctx) 8 true).raise E6.page x.ctx
      .next { s2 with aes := { s2.aes with hold := some (x.prio, x.ctx, s.mono + s.fld E6.aesCfg 3 0 * 1000) } }.aesKick

/-- AES_HOLD_EXPIRY. -/
def execAesHoldExpiry (s : State) : Host.Outcome State Fault Refusal :=
  match s.aes.hold with
  | some (_, _, til) => if til ≤ s.mono then .next { s with aes := { s.aes with hold := none } }.aesKick else .next s
  | none => .next s

/-! ## Key commands (R399, R400) -/

/-- The end of a KEY_CMD: KEY_DATA is cleared, the result shown, and KEY_DONE raised. -/
def State.aesCmdEnd (s : State) (status : Nat) : State :=
  ((s.wrArr (E6.keyData 0) (List.replicate 8 0)).wr E6.keyResult (BitVec.ofNat 32 (2 ^ 31 + status))).raise E6.page 8

/-- SLOT_BUSY: a retired copy is still held. -/
def State.aesSlotBusy (s : State) (n : Nat) : State := (s.err E6.page 0x0102 (BitVec.ofNat 32 n)).aesCmdEnd 1

/-- INSTALL: a key that open contexts use is kept as the retired copy. -/
def State.aesInstall (s : State) (n : Nat) (long : Bool) (index : Nat) : State :=
  if (s.aesSlot n).retired.isSome then s.aesSlotBusy n
  else
    let g := s.aesGen n
    let open_ := (s.ctxsOf n g).length
    let old := if open_ = 0 then none else some ((s.aesSlot n).key, s.bit (E6.keyStat n) 1, g)
    let s1 := s.setAesSlot n { key := s.rdArr (E6.keyData 0) 8, retired := old }
    let s2 := s1.wr (E6.keyStat n) (BitVec.ofNat 32 (1 + b2n long * 2 + nextGen g * 2 ^ 8 + index * 2 ^ 16))
    (s2.aesShow n).aesCmdEnd 0

/-- ERASE: contexts that have started a block keep the retired copy; the others end KEY_GONE, and no frame secured under the slot is sent
again (R192). -/
def State.aesErase (s : State) (n : Nat) : State :=
  if (s.aesSlot n).retired.isSome then s.aesSlotBusy n
  else
    let g := s.aesGen n
    let held := s.ctxsOf n g
    let gone := held.filter (fun k => !(s.aesCtx k).started)
    let s0 := gone.foldl (fun (t : State) k =>
      ((t.setFld (E6.ctxStat k) 2 0 0).setFld (E6.ctxStat k) 7 4 1).err E6.page 0x0101 (BitVec.ofNat 32 k)) s
    let old := if gone.length < held.length then some ((s.aesSlot n).key, s.bit (E6.keyStat n) 1, g) else none
    let s1 := s0.setAesSlot n { key := [], retired := old }
    let s2 := s1.wr (E6.keyStat n) (BitVec.ofNat 32 (nextGen g * 2 ^ 8))
    let s3 := { s2 with mesh := { s2.mesh with txq := s2.mesh.txq.map (fun (t : MacTx) =>
      if t.sealed.any (fun (b : Nat × Nat × Nat × Nat) => b.1 == n) then { t with gone := true } else t) } }
    (s3.aesShow n).oscSync.aesCmdEnd 0

/-- A KEY_CMD word: guard, the range of KEY_INDEX, and the command (R43, R44, R402). -/
def State.aesCmd (s : State) (r : Option Requester) (slot cmd : Nat) (long : Bool) (index : Nat) (hi : Half) (act : State → State) : State :=
  let v := slot + cmd * 16 + b2n long * 64 + index * 256
  let body := State.aesGuard hi v E6.keyCmd (fun t =>
    if (cmd == 1) == (index == 0) then t.guardRange E6.keyCmd 15 8 index (t.fld E6.keyCmd 15 8) else act (t.accept E6.keyCmd v))
  match r with
  | some q => s.cmdWrite q E6.keyCmd body
  | none => body s

/-- AES_KEY_INSTALL. -/
def execAesKeyInstall (r : Option Requester) (slot : Fin 16) (long : Bool) (index : Byte) (hi : Half) (s : State) : Host.Outcome State Fault Refusal :=
  .next (s.aesCmd r slot.val 1 long index.toNat hi (fun t => t.aesInstall slot.val long index.toNat))

/-- AES_KEY_ERASE. -/
def execAesKeyErase (r : Option Requester) (slot : Fin 16) (long : Bool) (index : Byte) (hi : Half) (s : State) : Host.Outcome State Fault Refusal :=
  .next (s.aesCmd r slot.val 2 long index.toNat hi (fun t => t.aesErase slot.val))

end Sys2Proof.Machine
end

