-- ==== Sys2Proof/Machine/SubGhz.lean ====
section
/-!
DEFINITION. The sub-GHz radio of die E: states, receptions and the receive ring, transmissions, channel changes,
calibration, energy detection, the antenna tuner and the RF actions (R130 to R161).
-/
namespace Sys2Proof.Machine

/-- RF_STATE.STATE codes (R149). -/
def sgSleep : Nat := 0
def sgIdle : Nat := 1
def sgSettle : Nat := 2
def sgListen : Nat := 3
def sgRxSt : Nat := 4
def sgTxSt : Nat := 5
def sgCalSt : Nat := 6
def sgEdSt : Nat := 7

/-- The radio's state (R149). -/
def State.sg (s : State) : Nat := s.fld E3.rfState 3 0

/-- The radio's state replaced. -/
def State.setSg (s : State) (st : Nat) : State := s.setFld E3.rfState 3 0 st

/-- The synthesiser is locked. -/
def State.sgLocked (s : State) : Bool := s.bit E3.rfState 4

/-- RF_STATE.LOCKED replaced. -/
def State.setSgLocked (s : State) (b : Bool) : State := s.setBit E3.rfState 4 b

/-- PAGE_CTRL.ENABLE of the radio's page (R149). -/
def State.sgEnabled (s : State) : Bool := s.bit (HDR.pageCtrl E3.page) 0

/-- A change of the radio's state beside its registers. -/
def State.onSub (s : State) (f : Sub → Sub) : State := { s with sub := f s.sub }

/-- The synthesiser locks: RF_STATE.LOCKED, and the instant of it (R147). -/
def State.sgLock (s : State) : State := (s.setSgLocked true).onSub (fun x => { x with lockAt := s.mono })

/-- Channel spacing in kHz (R131, R160). -/
def spacingKhz (code : Nat) : Nat := if code = 0 then 100 else if code = 1 then 200 else if code = 2 then 400 else 600

/-- Carrier frequency in kHz (R131). -/
def State.carrierKhz (s : State) : Nat := s.fld E3.chan0Khz 19 0 + s.fld E3.chanSel 9 0 * spacingKhz (s.fld E3.chanSel 13 12)

/-- The radio settles towards a goal (R149). A radio that leaves SLEEP uses the 40 MHz crystal. -/
def State.sgSettleTo (s : State) (g : SgGoal) : State :=
  (((s.setSg sgSettle).setSgLocked false).onSub (fun x => { x with goal := g })).oscUser 0 true

/-- The radio goes to IDLE. -/
def State.sgToIdle (s : State) : State := (s.setSg sgIdle).oscUser 0 true

/-- The radio goes to SLEEP. -/
def State.sgToSleep (s : State) : State := ((s.setSg sgSleep).setSgLocked false).oscUser 0 false

/-- The radio goes to LISTEN: at once when the synthesiser is locked, else through SETTLE. -/
def State.sgToListen (s : State) : State := if s.sgLocked then s.setSg sgListen else s.sgSettleTo .listen

/-- A return state of RF_CTRL: 0 IDLE, 1 LISTEN, 2 SLEEP (R150). -/
def State.sgReturn (s : State) (code : Nat) : State :=
  if code = 1 then s.sgToListen else if code = 2 then s.sgToSleep else s.sgToIdle

/-! ## Transmission (R144 to R148, R156, R157) -/

/-- Data rate of MODE_CFG.RATE in kb/s (R133). -/
def sgKbps (code : Nat) : Nat := if code = 1 then 100 else if code = 2 then 150 else if code = 3 then 200 else if code = 4 then 300 else 50

/-- `n` symbol periods of a mode in ns: a symbol of 4-FSK carries two bits (R133). -/
def sgSymbolsNs (mode : Word) (n : Nat) : Nat := (if bitOf mode 3 then 2 * n else n) * 1000000 / sgKbps (bitsOf mode 2 0)

/-- Time on air of a frame in ns, from its first preamble bit to its last: preamble and SFD uncoded, PHR and PSDU at half the rate with
FEC on (R134). DEDUCED, log 105: the coder's tail and padding, which the spec leaves to the standard, are not counted. -/
def sgAirNs (mode : Word) (preamble len : Nat) : Nat :=
  let coded := if bitsOf mode 5 4 = 0 then 2 + len else 2 * (2 + len)
  (preamble + 2 + coded) * 8 * 1000000 / sgKbps (bitsOf mode 2 0)

/-- The mode of MODE_CFG[k] as the radio uses it: in EMBER the link runs at 50 kb/s, 2-FSK, whatever RATE and MOD hold (R33). -/
def State.sgMode (s : State) (k : Nat) : Word :=
  let w := s.rd (E3.modeCfg k)
  if s.pstate = 1 then putFld w 3 0 0 else w

/-- A transmission starts, its first preamble bit `lead` ns from now (R145): the frame is read, unless it has been, and leaves the
antenna. An immediate one that waited records WAITED and the wait (R147). -/
def State.sgTxLead (s : State) (lead : Nat) (t : SgTx) : State :=
  let w := s.sgMode t.mode
  let pre := s.fld E3.txPhy 9 0
  let t0 := s.mono + lead
  let delay : Int := if lead = 0 then 0 else s.fld E3.antDelay 25 16
  let at0 : Int := s.now .e + lead + delay
  let e : SgEmit :=
    { psdu := t.psdu.getD (Mem.bytes s.esram t.addr t.len), mode := w, preamble := pre, fcs4 := s.bit E3.txPhy 12, whiten := s.bit E3.txPhy 13,
      ext := s.sgExt, power := s.fld E3.txCfg 7 1, drive := s.fld E3.txCfg 29 26, antenna := at0, ball := at0 - s.fld E3.antDelay 25 16 }
  let s1 := (s.setSg sgTxSt).onSub (fun x => { x with tx := some t, protect := false, goal := .idle, wait := x.wait.filter (fun w => w.1 != t) })
    |>.onSub (fun x => { x with txExt := s.sgExt, txFrom := t0, txTo := t0 + sgAirNs w pre t.len })
  let s2 := match t.kind with
    | .now =>
      let us := match s.sub.wait with
        | some (_, t0) => (s.mono - t0) / 1000
        | none => 0
      s1.wr E3.txStat (BitVec.ofNat 32 (b2n s.sub.wait.isSome * 2 ^ 9 + min us 0xFFFF * 2 ^ 16))
    | _ => s1
  s2.emit (.rf e)

/-- An immediate transmission starts: the switch to transmit and the ramp up come before its first preamble bit (R145). -/
def State.sgTxStart (s : State) (t : SgTx) : State := s.sgTxLead (s.rampNs + 10000) t

/-- An immediate transmission in external mode is held by a supply warning: on die E (R146), and on any die, where R33 stops the
external PA too. -/
def State.sgHeld (s : State) : Bool := s.sgExt && allDies.any s.supplyWarn

/-- The radio rests in IDLE or LISTEN, prepares no action, and no supply warning holds a transmission (R146, R147, R152). -/
def State.sgRests (s : State) : Bool := (s.sg == sgIdle || s.sg == sgListen) && s.sub.prepared.isNone && !s.sgHeld

/-- A waiting transmission starts once the radio rests, through SETTLE where the synthesiser is not locked (R146, R147). -/
def State.sgTxWaiting (s : State) : State :=
  match s.sub.wait with
  | some (t, _) => if !s.sgRests then s else if s.sgLocked then s.sgTxStart t else s.sgSettleTo (.tx t)
  | none => s

/-- An immediate transmission is requested (R147): it starts when the radio rests with its synthesiser locked, else it waits for lock,
for the end of a calibration or another transmission, for a prepared action, or for the end of a supply warning. A radio that is not
enabled stays in SLEEP (R149). -/
def State.sgTxRequest (s : State) (t : SgTx) : State :=
  if !s.sgEnabled then s
  else if s.sgRests && s.sgLocked then s.sgTxStart t
  else
    let s1 := s.onSub (fun x => { x with wait := match x.wait with
      | some (u, t0) => if u.kind == .now && t.kind != .now then some (u, t0) else some (t, s.mono)
      | none => some (t, s.mono) })
    if s.sub.prepared.isSome then s1
    else if s.sg == sgSleep || s.sg == sgSettle || ((s.sg == sgIdle || s.sg == sgListen) && !s.sgLocked) then s1.sgSettleTo (.tx t) else s1

/-- An immediate transmission that waited fails with no emission: outcome, wait and error (R146, R147). -/
def State.sgTxFail (s : State) (outcome code : Nat) : State :=
  match s.sub.wait with
  | none => s
  | some (t, t0) =>
    let us := (s.mono - t0) / 1000
    let s1 := s.onSub (fun x => { x with wait := none, goal := if x.goal = .tx t then .idle else x.goal })
    let s2 := match t.kind with
      | .now => s1.wr E3.txStat (BitVec.ofNat 32 (outcome + 2 ^ 9 + min us 0xFFFF * 2 ^ 16))
      | _ => s1
    (s2.raise E3.page 2).err E3.page code (BitVec.ofNat 32 us)

/-! ## Reception (R138 to R143) -/

/-- RX_RING record and PSDU of a reception (R141). The place of the PSDU in die E SRAM is the MAC assist's choice: a free value. Of a
frame that was cut, link quality, offset and rate error are what the radio had by then, and its PSDU carries nothing guaranteed: all are
free. A full ring discards the frame with RING_FULL. -/
def State.sgRecord (s : State) (x : SgRx) (outcome : Nat) (e : Option SgRxEnd) : State :=
  let size := s.fld E3.rxRingSize 10 0
  let head := s.fld E3.rxRingHead 9 0
  if (head + 1) % size = s.fld E3.rxRingTail 9 0 then (s.count E3.dropCnt 1).raise E3.page 10
  else s.draw (fun i t =>
    let loc := Config.freeNat i % 8192
    let lqi := (e.map (fun y => y.lqi.toNat)).getD (Config.freeNat (i + 1) % 256)
    let w0 := x.len % 2048 + x.corr * 2 ^ 12 + outcome * 2 ^ 16 + b2n x.fec * 2 ^ 20 + b2n x.whiten * 2 ^ 21
      + b2n x.fcs4 * 2 ^ 22 + b2n x.chain1 * 2 ^ 23 + lqi * 2 ^ 24
    let w1 := ux 16 x.rssi + ux 16 ((e.map SgRxEnd.fofs).getD (Config.freeNat (i + 2))) * 2 ^ 16
    let w2 := loc + ux 16 ((e.map SgRxEnd.rateErr).getD (Config.freeNat (i + 3))) * 2 ^ 16
    let cut := (List.range x.len).map (fun j => BitVec.ofNat 8 (Config.freeNat (i + 4 + j)))
    let stamp := ntime (x.stamp - t.fld E3.antDelay 9 0) t.time.epoch 0
    let rec32 := [BitVec.ofNat 32 w0, BitVec.ofNat 32 w1, BitVec.ofNat 32 w2] ++ stamp ++ [0]
    let at0 := (t.fld E3.rxRingBase 12 0 + head) * 32
    let m := Mem.setWords t.esram at0 rec32
    let m' := Mem.setBytes m (loc * 32) ((e.map SgRxEnd.psdu).getD cut)
    let t1 : State := { t with esram := m', fresh := t.fresh + 3 + x.len }
    t1.setFld E3.rxRingHead 9 0 ((head + 1) % size))

/-- A reception in progress ends without its end of frame: with its record when its header check has passed (R141). -/
def State.sgDropRx (s : State) (outcome : Nat) : State :=
  match s.sub.rx with
  | none => s
  | some x =>
    let s1 := (s.onSub (fun y => { y with rx := none })).setFld E3.rfState 11 8 0
    if x.confirmed then s1.sgRecord x outcome none else s1

/-- A reception ends as PREEMPTED and is counted (R151, R152). -/
def State.sgPreempt (s : State) : State :=
  if s.sub.rx.isSome then (s.sgDropRx 3).bump E3.captureCnt 31 16 1 else s

/-- Local time of die E at an end of SFD, to the 25 ns that its stamps resolve (R86, R136). DEDUCED, log 102: the resolution truncates. -/
def State.sgStamp (s : State) : Nat := s.now .e / 25 * 25

/-- A new reception on correlator `k` in a mode, from its preamble (`synced` false) or its sync (R139). `ch1`: chain 1 had the higher
RSSI over the preamble, and RX_DIV 3 takes that chain for the frame (R138). -/
def State.sgNewRx (s : State) (k : Nat) (mode : Word) (synced : Bool) (rssi : Int) (ch1 : Bool) : State :=
  let x : SgRx := { corr := k, synced := synced, confirmed := false, len := 0, rssi := rssi, fec := bitsOf mode 5 4 != 0,
                    whiten := false, fcs4 := false, stamp := s.sgStamp, mode := mode, chain1 := ch1 && s.fld E3.rxCfg 1 0 == 3 }
  ((s.onSub (fun y => { y with rx := some x })).setFld E3.rfState 11 8 (2 ^ k)).setSg sgRxSt

/-- Correlator `k` is enabled: correlator 0 searches while the mesh runs whatever SEARCH_EN holds, and correlators 1 to 3 do
not search in EMBER (R167, R193). -/
def State.sgEnabledCorr (s : State) (k : Nat) : Bool :=
  (k == 0 && s.meshOn) || (s.bit E3.searchEn k && (k == 0 || s.pstate != 1))

/-- Correlator `k` searches: it is enabled, and no lower enabled correlator has the same mode (R138). -/
def State.sgSearches (s : State) (k : Nat) : Bool :=
  s.sgEnabledCorr k && !(List.range k).any (fun j => s.sgEnabledCorr j && s.rd (E3.modeCfg j) == s.rd (E3.modeCfg k))

/-- The channel registers changed (R151): IDLE and LISTEN retune at once, RX ends as PREEMPTED and retunes, TX retunes at its
end, as does a radio that owes an acknowledgement, and an energy detection starts again (R155). -/
def State.sgRetuneChan (s : State) : State :=
  if s.sub.ackDue then s.onSub (fun x => { x with chanPend := true })
  else if s.sg == sgEdSt then (s.setSgLocked false).onSub (fun x => { x with edAt := s.mono })
  else if s.sg == sgIdle then s.sgSettleTo .idle
  else if s.sg == sgListen then s.sgSettleTo .listen
  else if s.sg == sgRxSt then s.sgPreempt.sgSettleTo .listen
  else if s.sg == sgTxSt then s.onSub (fun x => { x with chanPend := true })
  else if s.sg == sgSettle then s.sgSettleTo s.sub.goal
  else s.setSgLocked false

/-! ## Calibration (R153, R154) -/

/-- Duration of a calibration step in ns (R153). -/
def sgStepNs (k : Nat) : Nat := [400000, 300000, 200000, 800000, 200000, 300000, 300000].getD k 0

/-- Duration of a set of steps in ns. -/
def sgCalNs (set : BitVec 7) : Nat := (List.range 7).foldl (fun n k => if set.getLsbD k then n + sgStepNs k else n) 0

/-- Time from the preparation instant of an RF action to its T, in ns (R152). -/
def State.sgPrepNs (s : State) (desc : Word) : Nat :=
  let kind := bitsOf desc 2 0
  let there := s.sgLocked && (bitOf desc 3 || s.fld E3.chanSel 9 0 == bitsOf desc 17 8)
  if kind = 0 then (s.fld E3.txCfg 14 8 + 10 + (if there then 0 else 110)) * 1000
  else if kind = 1 then 110000 else 0

/-- Some armed RF action has its preparation instant within `span` ns (R154). -/
def State.sgActWithin (s : State) (span : Nat) : Bool :=
  s.actq.any (fun a => match a.slot with
    | .rf _ => s.fld (slotStat a.slot) 3 0 == stPending && decide (s.actDiff a - s.sgPrepNs a.desc ≤ span)
    | _ => false)

/-- A calibration starts. A tuner sweep sends its probe on the current channel (R156). -/
def State.sgCalStart (s : State) (set : BitVec 7) : State :=
  let s1 := (((s.setSg sgCalSt).onSub (fun x => { x with cal := some set, calDefer := none, calAt := s.mono })).oscUser 0 true).setBit E3.calStat 16 false
  if set.getLsbD 6 then s1.emit (.sgProbe s.carrierKhz) else s1

/-- A requested calibration starts from IDLE, LISTEN or SLEEP when no armed action's P falls within it, else it is deferred
(R154). -/
def State.sgCalRequest (s : State) (set : BitVec 7) : State :=
  if (s.sg == sgIdle || s.sg == sgListen || s.sg == sgSleep) && !s.sgActWithin (sgCalNs set) then s.sgCalStart set
  else (s.onSub (fun x => { x with calDefer := some set })).setBit E3.calStat 16 true

/-- The steps of a set, in the order of the table, that meet a test of when they begin and how long they last (R153). -/
def sgCalPart (set : BitVec 7) (p : Nat → Nat → Bool) : BitVec 7 :=
  (List.range 7).foldl (fun g k => if set.getLsbD k && p (sgCalNs (set &&& BitVec.ofNat 7 (2 ^ k - 1))) (sgStepNs k) then
    g ||| BitVec.ofNat 7 (2 ^ k) else g) 0

/-- What a run of steps leaves in CAL_STAT (R153, R154): its failed steps keep their previous results, and TEMP is the temperature of
a run of step 0 or 3. -/
def State.sgCalRecord (s : State) (set fail : BitVec 7) : State :=
  let s1 := (s.onSub (fun x => { x with cal := none })).wr E3.calStat
    (putFld (putFld (s.rd E3.calStat) 6 0 (set &&& ~~~ fail).toNat) 14 8 (fail &&& set).toNat)
  if set.getLsbD 0 || set.getLsbD 3 then
    ((s1.onSub (fun x => { x with calRef := true })).setFld E3.calStat 31 24 (s.fld (DC.dieTemp 0x800000) 7 0)).setBit E3.calStat 17 false
  else s1

/-- An ABORT in CAL cuts the run after its current step: the steps that have begun remain of it, the others keep their previous results
(R148). -/
def State.sgCalCut (s : State) : State :=
  s.onSub (fun x => { x with cal := x.cal.map (fun set => sgCalPart set (fun from_ _ => decide (from_ ≤ s.mono - s.sub.calAt))) })

/-- A calibration that an action's preparation meets ends there, since none runs across a P: its finished steps stand (R152, R154). -/
def State.sgCalQuit (s : State) : State :=
  match s.sub.cal with
  | some set => s.sgCalRecord (sgCalPart set (fun from_ len => decide (from_ + len ≤ s.mono - s.sub.calAt))) 0
  | none => s

/-- Other activity gives way to an action (R152): a reception ends as PREEMPTED, a calibration and an energy detection end. -/
def State.sgYield (s : State) : State :=
  let s1 := s.sgPreempt.sgCalQuit
  if s1.sg == sgRxSt || s1.sg == sgCalSt || s1.sg == sgEdSt then s1.sgToIdle else s1

/-! ## Actions (R152) -/

/-- The transmission of a TX action. -/
def actTx (a : PendAct) (i : Fin 8) : SgTx :=
  { kind := .act i, addr := bitsOf a.extra 15 0 * 4, len := bitsOf a.extra 26 16, mode := bitsOf a.desc 5 4, psdu := none }

/-- The channel an action names: the current one, or ACT_DESC.CHAN_NUM (R152, R160). -/
def State.sgActChan (s : State) (desc : Word) : State :=
  if bitOf desc 3 || s.fld E3.chanSel 9 0 == bitsOf desc 17 8 then s
  else (s.setFld E3.chanSel 9 0 (bitsOf desc 17 8)).setSgLocked false

/-- What an RF action does when it is carried out (R152); none when the radio is not enabled, or is transmitting or about to send an
acknowledgement. -/
def rfPerform (a : PendAct) (s : State) : Option State :=
  if !s.sgEnabled || s.sg == sgTxSt || s.sub.ackDue then none
  else
    let kind := bitsOf a.desc 2 0
    let s0 := s.sgYield
    match a.slot with
    | .rf i =>
      if kind = 0 then some ((s0.sgActChan a.desc).sgTxRequest (actTx a i))
      else if kind = 1 then
        some (s0.sgActChan a.desc).sgToListen
      else if kind = 2 then some s0.sgToIdle
      else if kind = 3 then some s0.sgToSleep
      else
        let s1 := if bitOf a.desc 3 then s else s.setFld E3.chanSel 9 0 (bitsOf a.desc 17 8)
        some s1.sgRetuneChan
    | _ => none

/-- The actions that met a transmission in progress follow their late policies at that transmission's end (R93, R152). -/
def State.sgUnblock (s : State) : State :=
  s.sub.blocked.foldl (fun (t : State) i => t.lateBlocked (.rf i) rfPerform) (s.onSub (fun x => { x with blocked := [] }))

/-- A fresh arming that waited for the end of its slot's action is judged (R96). -/
def State.sgRearm (s : State) (i : Fin 8) : State :=
  match s.sub.rearm with
  | some (j, pol) => if j = i then (s.onSub (fun x => { x with rearm := none })).armAct (.rf i) pol rfPerform else s
  | none => s

/-- SG_XPA_EN falls at the end of the ramp down and SG_TRSW 2 µs later; a transmission that was cut ramps down first (R145, R146, R148). -/
def State.sgSwitchBack (s : State) (cut : Bool) : State :=
  let low := s.mono + (if cut then s.rampNs else 0)
  s.onSub (fun x => if x.txExt then { x with xpaTo := low, trswTo := low + 2000 } else x)

/-- A transmission ends with an outcome: 1 DONE, 3 SUPPLY, 4 PROTECT, 5 ABORTED (R145 to R148, R157). The radio returns to
`ret`, or retunes first for a channel change. -/
def State.sgTxFinish (s : State) (outcome : Nat) (ret : Nat) : State :=
  match s.sub.tx with
  | none => s
  | some t =>
    let s1 := (s.sgSwitchBack (outcome != 1)).onSub (fun x => { x with tx := none, protect := false })
    let s2 := match t.kind with
      | .now =>
        ((s1.setFld E3.txStat 3 0 outcome).setBit E3.txStat 10 s.sub.protect).raise E3.page (if outcome = 1 then 1 else 2)
      | .act i =>
        match s1.pendAct (.rf i) with
        | none => s1
        | some _ =>
          let u := s1.bit (slotStat (.rf i)) 25
          let s3 := if outcome = 1 then s1.endAct (.rf i) stDone 0 false u false
            else if outcome = 5 then s1.endAct (.rf i) stCancelled 0x0B false u false
            else s1.endAct (.rf i) stMissed (if outcome = 3 then 8 else 4) false u (outcome == 3)
          (s3.raise E3.page (if outcome = 1 then 1 else 2)).sgRearm i
      | .ack => s1
      | .mac => s1
    let s5 := if s2.sub.chanPend then (s2.onSub (fun x => { x with chanPend := false })).setSgLocked false else s2
    (if s2.sub.chanPend && ret = 0 then s5.sgSettleTo .idle else s5.sgReturn ret).sgUnblock.sgTxWaiting

/-- An ABORT that ends a settling or a calibration ends an immediate transmission that waits for it, with outcome ABORTED (R148). -/
def State.sgDropWait (s : State) : State :=
  match s.sub.wait with
  | some (t, _) =>
    let s1 := s.onSub (fun x => { x with wait := none })
    if t.kind == .now then (s1.setFld E3.txStat 3 0 5).raise E3.page 2 else s1
  | none => s

/-- Setting PAGE_CTRL.ENABLE for the first time after a reset of die E runs the start-up calibration; clearing it ends what the radio
does, a transmission as ABORTED, and puts it in SLEEP (R149, R153). -/
def State.sgEnableChange (s : State) (on : Bool) : State :=
  if on then
    if s.sub.started then s else (s.onSub (fun x => { x with started := true })).sgCalStart 0x7F
  else
    let s1 := (s.sgDropRx 4).sgDropWait.sgTxFinish 5 2
    let s2 := s1.onSub (fun x => { x with tx := none, wait := none, cal := none, calDefer := none, goal := .idle, ackDue := false, prepared := none })
    (s2.setBit E3.calStat 16 false).sgToSleep

/-! ## Commands -/

/-- A write of RF_CMD: `ok` says in which states the command is allowed; otherwise, or with the radio disabled, it is
refused as CMD_BUSY (R149, R160, R161). -/
def State.rfCmd (s : State) (r : Requester) (code : Nat) (ok : Nat → Bool) (act : State → State) : State :=
  s.cmdWrite r E3.rfCmd (fun t => if t.sgEnabled && ok t.sg then act t else t.err E3.page 0x0105 (BitVec.ofNat 32 code))

/-- The states in which the radio is free for a new command: not receiving, transmitting, calibrating or measuring. -/
def sgFree (st : Nat) : Bool := st ≤ 3

/-- RF_CMD_SLEEP (R149, R151). -/
def execRfCmdSleep (r : Requester) (s : State) : Host.Outcome State Fault Refusal :=
  .next (s.rfCmd r 1 sgFree State.sgToSleep)

/-- RF_CMD_IDLE (R149). -/
def execRfCmdIdle (r : Requester) (s : State) : Host.Outcome State Fault Refusal := .next (s.rfCmd r 2 sgFree State.sgToIdle)

/-- RF_CMD_LISTEN: the synthesiser settles and detection starts (R149). -/
def execRfCmdListen (r : Requester) (s : State) : Host.Outcome State Fault Refusal := .next (s.rfCmd r 3 sgFree State.sgToListen)

/-- The frame TX_FRAME names. -/
def State.txNowFrame (s : State) : SgTx :=
  { kind := .now, addr := s.fld E3.txFrame 15 0 * 4, len := s.fld E3.txFrame 26 16, mode := s.fld E3.txFrame 29 28, psdu := none }

/-- TX_NOW is accepted in every state but RX and TX; ED is no state it leaves (R147, R149). -/
def State.txNow (s : State) (r : Requester) : State :=
  s.rfCmd r 4 (fun st => sgFree st || st == sgCalSt) (fun t => (t.wr E3.txStat 0).sgTxRequest t.txNowFrame)

/-- TX_NOW (R147). -/
def execTxNow (r : Requester) (s : State) : Host.Outcome State Fault Refusal := .next (s.txNow r)

/-- RF_CMD CAL: the steps of CAL_SET, all for 0; refused in RX and TX (R153, R154). -/
def State.rfCal (s : State) (r : Requester) (set : BitVec 7) : State :=
  s.rfCmd r 5 sgFree (fun t => t.sgCalRequest (if set = 0 then 0x7F else set))

/-- RF_CAL (R154). -/
def execRfCal (r : Requester) (set : BitVec 7) (s : State) : Host.Outcome State Fault Refusal := .next (s.rfCal r set)

/-- RF_RETUNE: step 6 of R153 on request (R156). -/
def execRfRetune (r : Requester) (s : State) : Host.Outcome State Fault Refusal :=
  .next (s.rfCmd r 6 sgFree (fun t => t.sgCalRequest 0x40))

/-- RF_ED: energy detection on the current channel starts, over ED_SYM symbol periods at the rate of MODE_CFG[0] (R155). -/
def execRfEd (r : Requester) (s : State) : Host.Outcome State Fault Refusal :=
  .next (s.rfCmd r 7 (fun st => st == sgSleep || st == sgIdle || st == sgListen)
    (fun t => (((t.setSg sgEdSt).setBit E3.edResult 31 false).oscUser 0 true).onSub
      (fun x => { x with edAt := t.mono, edFor := sgSymbolsNs (t.sgMode 0) (t.fld E3.edCfg 10 0) })))

/-- RF_CMD ABORT by state (R148); `completing` says that the final ramp down or the last bit has come, and then completion
wins, as it has where the acknowledgement of a received frame is due. In CAL the run ends with its current step, at SG_CAL_DONE. -/
def State.rfAbort (s : State) (r : Requester) (completing : Bool) : State :=
  s.rfCmd r 8 (fun st => st != sgEdSt) (fun t =>
    if t.sg == sgTxSt then
      if completing then t.setBit E3.txStat 8 true
      else t.sgTxFinish 5 0
    else if t.sg == sgRxSt then if completing || t.sub.ackDue then t else (t.sgDropRx 4).sgToIdle.sgTxWaiting
    else if t.sg == sgCalSt then t.sgDropWait.sgCalCut
    else if t.sg == sgListen then t.sgToIdle
    else if t.sg == sgSettle then (t.sgDropWait.onSub (fun x => { x with goal := .idle })).sgToIdle
    else t)

/-- RF_ABORT (R148). -/
def execRfAbort (r : Requester) (completing : Bool) (s : State) : Host.Outcome State Fault Refusal :=
  .next (s.rfAbort r completing)

/-- The trim may change now (R143). -/
def State.sgTrimmable (s : State) : Bool := s.sg == sgIdle || s.sg == sgListen || s.sg == sgSleep

/-- TRIM_CLEAR: AFC_TRIM returns to 0, in another state than IDLE, LISTEN and SLEEP at the next entry into one of them (R143). -/
def execTrimClear (r : Requester) (s : State) : Host.Outcome State Fault Refusal :=
  .next (s.rfCmd r 9 (fun _ => true) (fun t =>
    if t.sgTrimmable then (t.wr E3.afcTrim 0).onSub (fun x => { x with trim := none, trimClr := false })
    else t.onSub (fun x => { x with trim := none, trimClr := true })))

/-- PREAMBLE_DETECT: a searching correlator detects a preamble in LISTEN and holds a tentative reception (R139, R149). -/
def execPreambleDetect (k : Fin 4) (s : State) : Host.Outcome State Fault Refusal :=
  if s.sg == sgListen && s.sgSearches k.val then .next (s.sgNewRx k.val (s.sgMode k.val) false 0 false) else .next s

/-- The mode a correlator's sync is found in while a reception runs: the capture detector searches the mode of the busy correlator
(R138, R139). -/
def State.sgSyncMode (s : State) (x : SgRx) (k : Nat) : Word := if k = x.corr then x.mode else s.sgMode k

/-- SYNC_DETECT: the SFD of the tentative reception matches, whatever SEARCH_EN holds by then, or a valid sync on any searching
correlator or on the capture detector, which searches the busy correlator's mode, abandons it at once and becomes the reception (R138,
R139). -/
def execSyncDetect (k : Fin 4) (rssi : Int) (ch1 : Bool) (s : State) : Host.Outcome State Fault Refusal :=
  let c1 := ch1 && s.fld E3.rxCfg 1 0 == 3
  if s.sg == sgListen && s.sgSearches k.val then .next (s.sgNewRx k.val (s.sgMode k.val) true rssi ch1)
  else match s.sub.rx with
    | some x =>
      if x.confirmed || (x.corr != k.val && !s.sgSearches k.val) then .next s
      else if x.corr = k.val && !x.synced then
        .next (s.onSub (fun y => { y with rx := some { x with synced := true, rssi := rssi, stamp := s.sgStamp, chain1 := c1 } }))
      else .next ((s.bump E3.falseDetCnt 31 16 1).sgNewRx k.val (s.sgSyncMode x k.val) true rssi ch1)
    | none => .next s

/-- The header check (R135). -/
def State.sgHeaderOk (s : State) (x : SgRx) (h : SgPhr) : Bool :=
  x.synced && !h.ms && h.rsvZero && decide ((if h.fcs4 then 4 else 2) + 1 ≤ h.len)
    && decide (h.len ≤ s.fld E3.rxCfg 26 16) && (!x.fec || h.metricOk)

/-- RX_HEADER: the PHR passes the header check, or the tentative reception fails as HDR_FAIL and the radio listens again
(R135, R139). -/
def execRxHeader (h : SgPhr) (s : State) : Host.Outcome State Fault Refusal :=
  match s.sub.rx with
  | none => .next s
  | some x =>
    if x.confirmed then .next s
    else if s.sgHeaderOk x h then
      .next (s.onSub (fun y => { y with rx := some { x with confirmed := true, len := h.len, whiten := h.dw, fcs4 := h.fcs4 } }))
    else .next (((s.bump E3.falseDetCnt 15 0 1).sgDropRx 4).sgToListen.sgTxWaiting)

/-- CAPTURE: before half of the PSDU's octets, a sync stronger by CAPTURE_MARGIN, on a searching correlator or on the capture detector
in the busy correlator's mode, ends the current frame as CAPTURED and the new one is received (R140). RSSI is in 0.5 dB units. -/
def execCapture (k : Fin 4) (rssi : Int) (ch1 : Bool) (octets : Nat) (s : State) : Host.Outcome State Fault Refusal :=
  match s.sub.rx with
  | none => .next s
  | some x =>
    if x.confirmed && (x.corr == k.val || s.sgSearches k.val) && s.bit E3.rxCfg 2 && decide (x.rssi + 2 * (s.fld E3.rxCfg 8 4 : Nat) ≤ rssi) && decide (2 * octets < x.len) then
      .next (((((s.sgDropRx 2).bump E3.captureCnt 15 0 1).raise E3.page 3)).sgNewRx k.val (s.sgSyncMode x k.val) true rssi ch1)
    else .next s

/-- The mesh parent's short address while the node has one (R143, R198). -/
def State.hasParent (s : State) (src : Nat) : Bool :=
  (s.fld E4.parentStat 19 16 == 3 || s.fld E4.parentStat 19 16 == 4) && s.fld E4.parentStat 15 0 == src

/-- The move of AFC_TRIM a frame asks for: a quarter of its offset, at most 0.5 ppm, in 2^-8 ppm (R143). -/
def State.trimMove (s : State) (fofs : Int) : Int := clampI (-128) 128 ((fofs * 12800000 / (s.carrierKhz : Nat)) / 4)

/-- A received frame ends: its record and PSDU are written, and the trim is noted (R141, R143). -/
def State.sgRxDone (s : State) (x : SgRx) (e : SgRxEnd) : State :=
  let s1 := (s.onSub (fun y => { y with rx := none })).setFld E3.rfState 11 8 0
  let full := (s.fld E3.rxRingHead 9 0 + 1) % s.fld E3.rxRingSize 10 0 == s.fld E3.rxRingTail 9 0
  let s2 := s1.sgRecord x (if e.fcsOk then 0 else 1) (some e)
  let s3 := if full then s2 else s2.raise E3.page 0
  let afc := s.bit E3.afcCfg 0 && e.fcsOk && !bitOf x.mode 9 && s.hasParent e.mac.src
  if afc then s3.onSub (fun y => { y with trim := some (s.trimMove e.fofs) }) else s3

/-- SG_XPA_EN (R130, R145): in external mode, from RAMP + 10 µs before the first preamble bit, which for a prepared action is ahead of
its T, to the end of the ramp down; low in reset of die E, which empties all of this. -/
def State.sgXpaEn (s : State) : Bool :=
  (s.sg == sgTxSt && s.sub.txExt) || decide (s.mono < s.sub.xpaTo) || match s.sub.prepared with
    | some i => s.sgExt && s.sgLocked && s.actq.any (fun a => a.slot == .rf i && bitsOf a.desc 2 0 == 0
        && s.fld (slotStat a.slot) 3 0 == stPending && decide (s.actDiff a ≤ (s.rampNs + 10000 : Nat)))
    | none => false

/-- SG_TRSW (R130, R145): high with SG_XPA_EN, and back to receive 2 µs after it. -/
def State.sgTrsw (s : State) : Bool := s.sgXpaEn || decide (s.mono < s.sub.trswTo)

/-- The level the radio sends at now, in half decibels above −10 dBm: TX_CFG.POWER, 6 dB less on the integrated PA once the protection
has acted (R144, R157). -/
def State.sgLevel (s : State) : Option Int :=
  if s.sg == sgTxSt then some ((s.fld E3.txCfg 7 1 : Int) - (if s.sub.protect && !s.sub.txExt then 12 else 0)) else none

/-- SG_XPA_VCTL (R130, R144, R145): the external path's power loop makes TX_CFG.POWER with the integrated PA driving at TX_CFG.DRIVE, along
a raised cosine of RAMP µs up to the first preamble bit and down from the last. Answered are the level aimed at and the ns of the ramp
reached, none at 0 V. -/
def State.sgVctl (s : State) : Option (Nat × Nat) :=
  if s.sg == sgTxSt && s.sub.txExt then
    let up := s.mono + s.rampNs - s.sub.txFrom
    let down := s.sub.txTo + s.rampNs - s.mono
    some (s.fld E3.txCfg 7 1, min s.rampNs (min up down))
  else if s.mono < s.sub.xpaTo then some (s.fld E3.txCfg 7 1, s.sub.xpaTo - s.mono)
  else none

/-- The ramp down ends. A transmission of at least 100 µs has measured the return loss `rl`, in 0.25 dB; the
fourth in a row below TUNE_THR raises MISMATCH and, with AUTO and the integrated PA, asks for a retune (R145, R150, R156). -/
def State.sgTxEnd (s : State) (rl : Nat) : State :=
  match s.sub.tx with
  | none => s
  | some t =>
    let measured := decide (100000 ≤ s.sub.txTo - s.sub.txFrom)
    let low := decide (rl < 4 * s.fld E3.tunerCfg 12 8)
    let run := if low then s.sub.lowRl + 1 else 0
    let s1 := if measured then
        let s2 := (s.setFld E3.tunerStat 7 0 (min rl 255)).setBit E3.tunerStat 30 s.sub.txExt
        if run = 4 then
          (s2.onSub (fun x => { x with lowRl := 0, retune := x.retune || (s.bit E3.tunerCfg 0 && !s.sgExt) })).raise E3.page 4
        else s2.onSub (fun x => { x with lowRl := run })
      else s
    s1.sgTxFinish 1 (if t.kind = .ack then s.fld E3.rfCtrl 1 0 else s.fld E3.rfCtrl 3 2)

/-- PA_PROTECT: a return loss below PROTECT_THR during a transmission: PROTECT is raised, the integrated PA drops by 6 dB for
the rest of the frame, an external one ramps down and the frame ends (R157). -/
def execPaProtect (rl : Nat) (s : State) : Host.Outcome State Fault Refusal :=
  if s.sg == sgTxSt && decide (rl < 4 * s.fld E3.tunerCfg 20 16) && !s.sub.protect then
    let s1 := (s.onSub (fun x => { x with protect := true })).raise E3.page 11
    if s.sub.txExt then .next (s1.sgTxFinish 4 (s.fld E3.rfCtrl 3 2)) else .next s1
  else .next s

/-- SG_SYNTH_LOCK: the synthesiser locks and SETTLE leads to its goal (R149); the radio's wake-up has waited for the 40 MHz
crystal (R106). -/
def execSgSynthLock (s : State) : Host.Outcome State Fault Refusal :=
  if s.sg == sgSettle && s.power.x40Usable then
    let s1 := s.sgLock
    match s.sub.goal with
    | .idle => .next s1.sgToIdle.sgTxWaiting
    | .listen => .next (s1.setSg sgListen).sgTxWaiting
    | .tx t => if s1.sgHeld then .next s1.sgToIdle else .next (s1.sgTxStart t)
    | .act _ => .next s1.sgToIdle.sgTxWaiting
    | .cal => .next (s1.setSg sgCalSt)
  else .next s

/-- SYNTH_UNLOCK: lock lost in RX or TX ends the frame (R161). -/
def execSynthUnlock (s : State) : Host.Outcome State Fault Refusal :=
  if s.sg == sgRxSt || s.sg == sgTxSt then
    let s1 := ((s.setSgLocked false).raise E3.page 8).err E3.page 0x0101 (BitVec.ofNat 32 s.sg)
    if s.sg == sgTxSt then .next (s1.sgTxFinish 5 (s.fld E3.rfCtrl 3 2))
    else .next ((s1.sgDropRx 4).sgReturn (s.fld E3.rfCtrl 1 0))
  else .next s

/-- TX_NO_LOCK: an immediate transmission still waiting after TX_WAIT_MAX for lock, for a calibration, or for an action or another
transmission, fails (R147). -/
def execTxNoLock (s : State) : Host.Outcome State Fault Refusal :=
  match s.sub.wait with
  | some (_, t0) =>
    if !s.sgHeld && decide (t0 + s.fld E3.txCfg 25 16 * 1000 ≤ s.mono) then .next (s.sgTxFail 2 0x0103) else .next s
  | none => .next s

/-- TX_SUPPLY: an immediate external-PA transmission still held by a supply warning after TX_WAIT_MAX fails (R146). -/
def execTxSupply (s : State) : Host.Outcome State Fault Refusal :=
  match s.sub.wait with
  | some (_, t0) =>
    if s.sgHeld && decide (t0 + s.fld E3.txCfg 25 16 * 1000 ≤ s.mono) then .next (s.sgTxFail 3 0x0104) else .next s
  | none => .next s

/-- A supply warning ends a transmission in external mode with outcome SUPPLY (R33, R146). -/
def State.sgSupplyWarn (s : State) : State :=
  if s.sg == sgTxSt && s.sub.txExt then s.sgTxFinish 3 (s.fld E3.rfCtrl 3 2) else s

/-- The end of a supply warning lets a waiting transmission start (R146). -/
def State.sgSupplyOk (s : State) : State :=
  s.sgTxWaiting

/-- SG_CAL_DONE: a run ends. Failed steps keep their previous results and are recorded as CAL_FAIL; the tuner's setting is a
measurement; the radio moves to IDLE, and a transmission that waited starts (R147, R153, R156). -/
def execSgCalDone (fail : BitVec 7) (limit : Bool) (rl : Nat) (s : State) : Host.Outcome State Fault Refusal :=
  match s.sub.cal with
  | none => .next s
  | some set =>
    let bad := fail &&& set
    let good := set &&& ~~~ fail
    let s2 := s.sgCalRecord set fail
    let s3 := if good.getLsbD 6 then
        s2.draw (fun i t => (((t.setFld E3.tunerStat 23 8 (Config.freeNat i)).setFld E3.tunerStat 7 0 (min rl 255)).setBit
          E3.tunerStat 31 limit).raise E3.page 5) else s2
    let s4 := if good.getLsbD 6 && limit then s3.err E3.page 0x0102 (BitVec.ofNat 32 rl) else s3
    let s5 := if bad != 0 then s4.err E3.page 0x0100 (BitVec.ofNat 32 bad.toNat) else s4
    .next (s5.raise E3.page 6).sgToIdle.sgTxWaiting

/-- Die E's temperature has moved more than 20 °C from that of the last run of steps 0 and 3: CAL_STAT.STALE and CAL_STALE (R154). -/
def State.sgStale (s : State) (temp : Int) : State :=
  if s.sub.calRef && !s.bit E3.calStat 17 && decide (20 < (temp - sx 8 (s.fld E3.calStat 31 24)).natAbs) then
    (s.setBit E3.calStat 17 true).raise E3.page 7
  else s

/-- SG_CAL_DEFERRED_START: a deferred calibration starts once no armed action stands in its way (R154). -/
def execSgCalDeferredStart (s : State) : Host.Outcome State Fault Refusal :=
  match s.sub.calDefer with
  | some set =>
    if (s.sg == sgIdle || s.sg == sgListen || s.sg == sgSleep) && !s.sgActWithin (sgCalNs set) then .next (s.sgCalStart set)
    else .next s
  | none => .next s

/-- AUTO_RETUNE: after MISMATCH, with AUTO set and the integrated PA selected, at an entry to IDLE or LISTEN that meets R154 (R156). -/
def execAutoRetune (s : State) : Host.Outcome State Fault Refusal :=
  if s.sub.retune && s.bit E3.tunerCfg 0 && !s.sgExt && (s.sg == sgIdle || s.sg == sgListen) && !s.sgActWithin (sgCalNs 0x40) then
    .next ((s.onSub (fun x => { x with retune := false })).sgCalStart 0x40)
  else .next s

/-- ED_DONE: ED_SYM symbol periods after its start, or its start again, the measurement ends, names the channel it ran on, and the radio
moves to IDLE (R149, R155). -/
def execEdDone (level : Int) (s : State) : Host.Outcome State Fault Refusal :=
  if s.sg == sgEdSt && decide (s.sub.edAt + s.sub.edFor ≤ s.mono) then
    .next (((s.wr E3.edResult (BitVec.ofNat 32 (ux 16 level + s.fld E3.chanSel 9 0 * 2 ^ 16 + 2 ^ 31))).raise E3.page 9).sgToIdle.sgTxWaiting)
  else .next s

/-- AFC_TRIM_UPDATE: in IDLE, LISTEN or SLEEP a TRIM_CLEAR that waited acts, and the trim of the last parent frame is made, within
TRIM_MAX (R143). -/
def execAfcTrimUpdate (s : State) : Host.Outcome State Fault Refusal :=
  if !s.sgTrimmable then .next s
  else
    let s1 := if s.sub.trimClr then (s.wr E3.afcTrim 0).onSub (fun x => { x with trimClr := false }) else s
    match s.sub.trim with
    | some m =>
      let lim : Int := s.fld E3.afcCfg 12 8 * 256
      .next ((s1.wr E3.afcTrim (BitVec.ofInt 32 (clampI (-lim) lim ((s1.rd E3.afcTrim).toInt + m)))).onSub
        (fun x => { x with trim := none }))
    | none => .next s1

/-- The preparation of an RF action at its P: other activity gives way, save a transmission or an acknowledgement that is due, and the
frame of a TX action is read (R150, R152). -/
def State.sgPrepare (s : State) (i : Fin 8) (a : PendAct) : State :=
  if !s.sgEnabled then s.endAct (.rf i) stMissed 4 false false false
  else if s.sg == sgTxSt || s.sub.ackDue then s.onSub (fun x => { x with blocked := addOnce x.blocked i })
  else
    let kind := bitsOf a.desc 2 0
    let s2 := s.sgYield.onSub (fun x => { x with prepared := some i })
    if kind = 0 then
      let s3 := (s2.onSub (fun x => { x with prepPsdu := Mem.bytes s.esram (actTx a i).addr (actTx a i).len })).sgActChan a.desc
      if s3.sgLocked then s3.sgToIdle else s3.sgSettleTo (.act i)
    else if kind = 1 then (s2.sgActChan a.desc).sgToListen
    else s2

/-- What the radio holds ready for a slot's action is let go (R152). -/
def State.letGo (s : State) (i : Fin 8) : State :=
  (s.onSub (fun x =>
    { x with prepared := if x.prepared = some i then none else x.prepared, blocked := x.blocked.filter (fun k => k != i) })).sgTxWaiting

/-- RF_ACT_TX: the first preamble bit leaves the antenna at T. A supply warning defers it on the external path (R94, R146); a
synthesiser that was not locked at T − RAMP − 10 µs drops it as MISSED_LOCK (R147),
and a frame of the Ember engine that could not be secured as STATE (R189).
Its status is DONE when the transmission ends. -/
def execRfActTx (i : Fin 8) (s : State) : Host.Outcome State Fault Refusal :=
  match s.pendAct (.rf i) with
  | some a =>
    if bitsOf a.desc 2 0 != 0 || !s.actDue a || s.bit (slotStat (.rf i)) 28 || s.sub.blocked.contains i || a.began then .next s
    else
      let s0 := s.onSub (fun x => { x with prepared := none })
      if s.actWarned a then .next (s0.setBit (slotStat (.rf i)) 28 true).sgTxWaiting
      else if !s.sgEnabled then .next ((s0.endAct (.rf i) stMissed 4 false false false).sgRearm i)
      else if s.sub.prepared = some i && s.sub.prepPsdu.isEmpty then
        .next ((s0.endAct (.rf i) stMissed 4 false false false).sgRearm i).sgTxWaiting
      else if s.sub.prepared != some i || !s.sgLockedFor a then
        .next ((s0.endAct (.rf i) stMissed 0x0F false false false).sgRearm i).sgTxWaiting
      else
        let s1 := s0.setBit (slotStat (.rf i)) 25 (!s.locked)
        let s2 := { s1 with actq := s1.actq.map (fun (b : PendAct) => if b.slot = ActSlot.rf i then { b with began := true } else b) }
        .next (s2.sgTxLead 0 { actTx a i with psdu := some s.sub.prepPsdu })
  | none => .next s

/-- An RF action of kind `k` is carried out at its T (R94, R152). -/
def State.rfActAtT (s : State) (i : Fin 8) (k : Nat) : State :=
  match s.pendAct (.rf i) with
  | some a =>
    if bitsOf a.desc 2 0 = k && !s.sub.blocked.contains i then
      (s.actAtT (.rf i) rfPerform).onSub (fun x => { x with prepared := if x.prepared = some i then none else x.prepared })
    else s
  | none => s

/-- RF_ACT_LISTEN: detection is running on the channel by T (R152). -/
def execRfActListen (i : Fin 8) (s : State) : Host.Outcome State Fault Refusal := .next (s.rfActAtT i 1)

/-- RF_ACT_IDLE: the radio enters IDLE at T (R152). -/
def execRfActIdle (i : Fin 8) (s : State) : Host.Outcome State Fault Refusal := .next (s.rfActAtT i 2)

/-- RF_ACT_SLEEP: the radio enters SLEEP at T (R152). -/
def execRfActSleep (i : Fin 8) (s : State) : Host.Outcome State Fault Refusal := .next (s.rfActAtT i 3)

/-- RF_ACT_CHANNEL: the channel changes at T (R152). -/
def execRfActChannel (i : Fin 8) (s : State) : Host.Outcome State Fault Refusal := .next (s.rfActAtT i 4)

end Sys2Proof.Machine
end

