-- ==== Sys2Proof/Machine/TimeCore.lean ====
section
/-!
DEFINITION. Network time: the quality of the timekeeper in force, measurements and the choice of a source, initial
adoption, steps of local time, and the stamps of PTP frames (R69 to R89, R97, R103).
-/
namespace Sys2Proof.Machine

/-- Time qualities (R73). -/
def qFreerun : Nat := 0
def qAcquiring : Nat := 1
def qLocked : Nat := 2
def qHoldover : Nat := 3

/-- The keeper in force: the NTU (true), or die E while it keeps time alone (R88). -/
def State.keeper (s : State) (n : Bool) : Keeper := if n then s.time.ntu else s.time.rtc

/-- The state with a keeper changed. -/
def State.onKeeper (s : State) (n : Bool) (f : Keeper → Keeper) : State :=
  if n then { s with time := { s.time with ntu := f s.time.ntu } } else { s with time := { s.time with rtc := f s.time.rtc } }

/-- Page of a keeper: the NTU page, or the real-time counter page (R101, R509). -/
def keeperPage (n : Bool) : Nat := if n then C2.page else E8.page

/-- TIME_QUAL of a keeper. -/
def timeQualOf (n : Bool) : Nat := if n then C2.timeQual else E8.timeQual

/-- The quality a keeper shows. -/
def State.qualOf (s : State) (n : Bool) : Nat := s.fld (timeQualOf n) 3 0

/-- HOLD_AGE of a keeper: seconds of the present HOLDOVER, or of the last one (R75). -/
def State.holdAge (s : State) (n : Bool) : Nat :=
  match (s.keeper n).holdFrom with
  | some t0 => min ((s.mono - t0) / 1000000000) 0xFFFFFFFF
  | none => (s.keeper n).holdLast

/-- The quality of a keeper changes (R73): LOCKED entered and left are events (R103), HOLD_AGE counts the HOLDOVER period
(R75), no correction is made in HOLDOVER, and HEALTH.UNLOCKED follows. -/
def State.setQual (s : State) (n : Bool) (q : Nat) : State :=
  let old := s.qualOf n
  if old = q then s
  else
    let age := s.holdAge n
    let s1 := s.setFld (timeQualOf n) 3 0 q
    let s2 := s1.onKeeper n (fun k => { k with
      holdFrom := if q = qHoldover then some s.mono else none
      holdLast := if old = qHoldover then age else k.holdLast
      lockRun := 0
      unlockRun := 0 })
    let s3 := if q = qHoldover then { s2 with time := { s2.time with slew := 0 } } else s2
    let s4 := if q = qLocked then s3.raise (keeperPage n) 0 else if old = qLocked then s3.raise (keeperPage n) 1 else s3
    s.healthStep s4

/-- Lock threshold of a source, in ns (R74). -/
def State.lockThr (s : State) (src : Nat) : Nat :=
  if src = 11 then s.fld C2.servoCfg 31 25 * 1000 else s.fld C2.servoCfg 9 0

/-- Unlock threshold of a source, in ns (R74). -/
def State.unlockThr (s : State) (src : Nat) : Nat :=
  if src = 11 then 5 * s.lockThr src else s.fld C2.servoCfg 22 10

/-! ## Steps of local time (R78, R87, R97) -/

/-- A named step: the message leaves for an instant 20 µs ahead on the old scale (R87). -/
def State.nameStep (s : State) (delta : Int) (advance : Bool) : State :=
  let d : Die := if s.cTime then .c else .e
  let at0 := s.now d + 20000
  ({ s with time := { s.time with step := some { instant := at0, delta := delta, advance := advance }, slew := 0 } }).emit
    (.stepMsg at0)

/-- Every group slot changed. -/
def State.onGroups (s : State) (f : Group → Group) : State := { s with txu := { s.txu with groups := s.txu.groups.map f } }

/-- Something is pending in the sense of R78: an action on any die, or a group COMMITTED, ARMED or GO. -/
def State.anyPending (s : State) : Bool :=
  s.actq.any (fun a => s.fld (slotStat a.slot) 3 0 == stPending)
    || s.txu.groups.any (fun g => g.state == .committed || g.state == .armed || g.state == .go)

/-- Every PENDING action and every COMMITTED or ARMED group becomes FROZEN (R62, R97); one whose execution has begun
finishes first (R96). -/
def State.freezeAll (s : State) : State :=
  let acts := s.actq.filter (fun a => s.fld (slotStat a.slot) 3 0 == stPending && !s.actBegun a)
  let s1 := acts.foldl (fun t a => t.setFld (slotStat a.slot) 3 0 stFrozen) s
  s1.onGroups (fun g => if g.state = .committed ∨ g.state = .armed then { g with state := .frozen } else g)

/-- TIME_EPOCH: a step is declared, its signed offset captured, the quality HOLDOVER with EPOCH_PEND set, and everything
pending frozen (R97). An offset beyond a signed count of 32 bits of seconds is shown as the nearest (DESIGN CHOICE, log 98). -/
def State.declareStep (s : State) (n : Bool) (src : Nat) (ofs : Int) : State :=
  let base := keeperPage n
  let s1 := s.wrs [(base + 0x134, satI32 (ofs.tdiv 1000000000)), (base + 0x138, BitVec.ofInt 32 (ofs.tmod 1000000000))]
  let s2 := (s1.onKeeper n (fun k => { k with stepSrc := src, stepRun := 0 })).setQual n qHoldover
  let s3 := (s2.setBit (timeQualOf n) 12 true).freezeAll
  (s3.raise base 2).logFree base 6

/-- Initial adoption of the first source: a step without TIME_EPOCH and without a new epoch; the quality becomes
ACQUIRING (R73, R78). -/
def State.adopt (s : State) (n : Bool) (ofs : Int) : State := (s.nameStep (-ofs) false).setQual n qAcquiring

/-- A measurement beyond ±1 ms in FREERUN, or a run of them elsewhere: adoption, or a declared step (R78, R97). -/
def State.farOffset (s : State) (n : Bool) (src : Nat) (ofs : Int) (first : Bool) : State :=
  let run := (s.keeper n).stepRun + 1
  let s1 := s.onKeeper n (fun k => { k with stepRun := run })
  if s.qualOf n = qFreerun then
    if !s.anyPending then s1.adopt n ofs
    else if 3 ≤ run then s1.declareStep n src ofs else s1
  else if first || 3 ≤ run then s1.declareStep n src ofs
  else s1

/-- STEP_INSTANT: at the named instant every die's copy of local time takes the new scale, the epoch advances where the
step advances it, and STEP_DONE is raised (R72, R87, R103). A group in GO completes on the old scale (R97), and one judged again on the
new scale before it came is now on the present one (R98). -/
def execStepInstant (s : State) : Host.Outcome State Fault Refusal :=
  match s.time.step with
  | none => .next s
  | some m =>
    if s.now (if s.cTime then .c else .e) < m.instant then .next s
    else
      let s1 := { s with time := { s.time with
          clk := s.time.clk.map (fun (c : Nat) => (Int.ofNat c + m.delta).toNat)
          epoch := if m.advance then s.time.epoch + 1 else s.time.epoch
          step := none } }
      let s2 := s1.onGroups (fun g => if g.state = .go ∨ g.shift ≠ 0 then { g with shift := g.shift + m.delta } else g)
      .next (s2.raise (keeperPage s.cTime) 5).twtLost

/-! ## Sources (R76, R99) -/

/-- Priority of a source (R76). -/
def State.srcPrio (s : State) (n : Nat) : Nat :=
  if n < 8 then s.fld C2.srcPrioLo (4 * n + 3) (4 * n) else s.fld C2.srcPrioHi (4 * (n - 8) + 3) (4 * (n - 8))

/-- An Ethernet port may take time: its role is the algorithm's or forced to slave-only (R79, R102). -/
def State.ptpSlave (s : State) (p : Nat) : Bool := s.bit (C2.ptpCfg p) 0

/-- An Ethernet port may give time: its role is the algorithm's or forced to master-only (R79, R102). -/
def State.ptpMaster (s : State) (p : Nat) : Bool := s.fld (C2.ptpCfg p) 1 0 == 1 || s.fld (C2.ptpCfg p) 1 0 == 2

/-- A source may be used at all: not refused, its port or link allowed as a source, of a priority other than 0, and the one FIXED names
where SRC_MODE is FIXED (R76, R79, R99, R102). -/
def State.srcUsable (s : State) (r : SrcRec) : Bool :=
  let n := r.num
  !s.time.ntu.refused.contains n && (if n < 3 then s.ptpSlave n else 10 < n || s.bit (C2.ttCfg (n - 3)) 0)
    && (if !s.isMaster then n == 12 else s.srcPrio n != 0 && (!s.bit C2.srcMode 0 || n == s.fld C2.srcMode 7 4))

/-- Source `a` is chosen before source `b`: priority, then the better grandmaster, then fewer steps removed, then the lower
number (R76). -/
def State.srcBefore (s : State) (a b : SrcRec) : Bool :=
  let pa := s.srcPrio a.num
  let pb := s.srcPrio b.num
  if pa ≠ pb then pa < pb
  else if a.gmRank ≠ b.gmRank then a.gmRank < b.gmRank
  else if a.steps ≠ b.steps then a.steps < b.steps
  else a.num < b.num

/-- The available source the NTU chooses (R76). -/
def State.bestSource (s : State) : Option SrcRec :=
  (s.time.ntu.sources.filter s.srcUsable).foldl (fun best r =>
    match best with
    | none => some r
    | some b => if s.srcBefore r b then some r else some b) none

/-- The NTU chooses its source again (R76): a change raises SRC_CHANGE; with none left, ACQUIRING and LOCKED become
HOLDOVER (R73). The counts of R73 go on through a change of source. The loss of the last source is a change too, after which TIME_QUAL.SOURCE
still names it (DESIGN CHOICE, log 100). -/
def State.reselect (s : State) : State :=
  let new := s.bestSource.map SrcRec.num
  if new = s.time.ntu.sel then s
  else
    let fresh := new.isSome && new != s.time.ntu.lastSel
    let s0 := s.onKeeper true (fun k => { k with sel := new, newSel := fresh, lastSel := new.or k.lastSel, stepRun := 0 })
    let s1 := if fresh then { s0 with time := { s0.time with gm := s0.time.gm + 1 } } else s0
    let s2 := match new with
      | some n => s1.setFld C2.timeQual 11 8 n
      | none => s1
    let s3 := s2.raise C2.page 3
    if new.isNone && (s.qualOf true == qAcquiring || s.qualOf true == qLocked) then s3.setQual true qHoldover else s3

/-- A source is recorded as available by a valid measurement (R76). -/
def State.noteSource (s : State) (r : SrcRec) : State :=
  s.onKeeper true (fun k => { k with sources := r :: k.sources.filter (fun x => x.num != r.num) })

/-! ## The servo (R77) -/

/-- A free number as a frequency within ±250 ppm, in 2^-16 ppm. -/
def asFreq (v : Nat) : Int := (v % 32768001 : Nat) - freqMax

/-- A phase offset of 1 ms or less is removed by frequency: the slew takes it up, and the frequency estimate of the source moves within
±250 ppm. The NTU's loop has the bandwidth of SERVO_CFG, and die E's works from successive corrections; the gains of either are not stated,
and what they make is free (R75, R77, R88). -/
def State.servo (s : State) (n : Bool) (ofs : Int) : State :=
  let r := if n then Config.loopFreq (s.fld C2.servoCfg 24 23) s.time.rate ofs else Config.rtcFreq s.time.rate s.time.rtc.priorOfs ofs
  { s with time := { s.time with slew := -ofs * nsUnits, rate := asFreq r } }

/-- The measurement is an outlier candidate: more than 1 µs from the mean of the last 16 valid ones (R73). -/
def farFromMean (recent : List Int) (ofs : Int) : Bool :=
  let n : Int := recent.length
  n != 0 && decide (1000 * n < (ofs * n - recent.foldl (· + ·) 0).natAbs)

/-- A valid measurement of the selected source counts toward LOCKED, or away from it (R73, R74). -/
def State.countLock (s : State) (src : Nat) (ofs : Int) : State :=
  let k := s.time.ntu
  let good := decide (ofs.natAbs ≤ s.lockThr src)
  let bad := decide (s.unlockThr src < ofs.natAbs)
  let q := s.qualOf true
  if q = qAcquiring then
    let run := if good then k.lockRun + 1 else 0
    if 16 ≤ run then s.setQual true qLocked else s.onKeeper true (fun x => { x with lockRun := run })
  else if q = qLocked then
    let run := if bad then k.unlockRun + 1 else 0
    if 4 ≤ run then s.setQual true qAcquiring else s.onKeeper true (fun x => { x with unlockRun := run })
  else s

/-- The measurement is an outlier: in LOCKED, more than 1 µs from the mean, and the one before it was not (R73). -/
def State.outlier (s : State) (ofs : Int) : Bool :=
  s.qualOf true == qLocked && farFromMean s.time.ntu.recent ofs && !s.time.ntu.prevFar

/-- An outlier is discarded and counted (R73); OFFSET_NS shows it as the last measured (R101). -/
def State.dropOutlier (s : State) (ofs : Int) : State :=
  ((s.wr C2.offsetNs (satI32 ofs)).onKeeper true (fun x => { x with prevFar := true })).count C2.outlierCnt 1

/-- A valid measurement of the selected source (R73, R77, R78, R97). While a step awaits its command or its instant only the last
offset is kept. -/
def State.judgeOffset (s : State) (src : Nat) (ofs : Int) : State :=
  let k := s.time.ntu
  let s1 := (s.wr C2.offsetNs (satI32 ofs)).onKeeper true (fun x =>
    { x with lastOfs := ofs, newSel := false, prevFar := farFromMean k.recent ofs, recent := (ofs :: x.recent).take 16 })
  if s.bit C2.timeQual 12 || s.time.step.isSome then s1
  else if 1000000 < ofs.natAbs then
    let s2 := s1.farOffset true src ofs k.newSel
    if s2.qualOf true = s.qualOf true then s2.countLock src ofs else s2
  else
    let s2 := s1.onKeeper true (fun x => { x with stepRun := 0 })
    let s3 := if s.qualOf true = qFreerun || s.qualOf true = qHoldover then s2.setQual true qAcquiring else s2
    (s3.countLock src ofs).servo true ofs

/-- Die E's quality while it keeps time alone (R88): a pending or refused step leaves it in HOLDOVER (R97, R99). -/
def State.rtcQuality (s : State) : Nat :=
  let k := s.time.rtc
  let age := s.fld E8.eTimeCfg 11 0 * 1000000000
  if s.bit E8.timeQual 12 || !k.refused.isEmpty then qHoldover
  else match k.lastCorr with
    | some t0 => if s.mono ≤ t0 + age then (if k.corr3.length = 3 && k.corr3.all id then qLocked else qAcquiring)
                 else if k.taught then qHoldover else qFreerun
    | none => if k.taught then qHoldover else qFreerun

/-- Die E judges its quality, with source 11, while it keeps time alone (R88, R509). -/
def State.rtcJudge (s : State) : State :=
  if s.cTime then s else (s.setFld E8.timeQual 11 8 11).setQual false s.rtcQuality

/-- A mesh correction at die E: it counts toward R88 in every state; while die E keeps time alone, R97 to R100 apply to
it (R509). -/
def State.rtcCorrect (s : State) (ofs : Int) : State :=
  let good := decide (ofs.natAbs ≤ s.fld E8.servoCfg 31 25 * 1000)
  let refused := !s.time.rtc.refused.isEmpty && decide (1000000 < ofs.natAbs)
  let s1 := s.onKeeper false (fun k => { k with lastCorr := some s.mono, corr3 := (good :: k.corr3).take 3, taught := true,
                                                priorOfs := k.lastOfs, lastOfs := ofs, refused := if refused then k.refused else [] })
  if s.cTime then s1
  else
    let s2 := if refused then s1 else s1.setBit E8.timeQual 13 false
    if s.bit E8.timeQual 12 || s.time.step.isSome || refused then s2.rtcJudge
    else if 1000000 < ofs.natAbs then (s2.farOffset false 11 ofs false).rtcJudge
    else ((s2.onKeeper false (fun k => { k with stepRun := 0 })).rtcJudge).servo false ofs

/-- Offset of a source in ns, from the exchange's stamps and the port's or link's asymmetry in ps (R81, R83): client minus
server. -/
def State.measuredOffset (s : State) (src : Nat) (m : TimeMeas) : Int :=
  if src < 3 then
    let mpd := ((m.t2 - m.t1) + (m.t4 - m.t3)) * 500
    ((m.t2 - m.t1) * 1000 - mpd - (s.rd (C2.ptpAsymPs src)).toInt) / 1000
  else
    let asym : Int := if 3 ≤ src && src ≤ 10 then (s.rd (C2.ttAsymPs (src - 3))).toInt else 0
    (((m.t4 - m.t3) - (m.t2 - m.t1)) * 500 + asym) / 1000

/-- Mean path delay in ns (R81, R83). -/
def pathDelay (m : TimeMeas) : Int := ((m.t2 - m.t1) + (m.t4 - m.t3)) / 2

/-- The offset and path delay registers of a port or link take the measurement (R101). -/
def State.noteOffset (s : State) (src : Nat) (m : TimeMeas) (ofs : Int) : State :=
  if src < 3 then s.wrs [(C2.ptpOffsetNs src, satI32 ofs), (C2.ptpMpdNs src, satI32 (pathDelay m))]
  else if src ≤ 10 then s.wrs [(C2.ttOffsetNs (src - 3), satI32 ofs), (C2.ttDelayNs (src - 3), satI32 (pathDelay m))]
  else s

/-- A server that is not LOCKED is used only while no source of the same or better priority is LOCKED (R84). -/
def State.unlockedServerOk (s : State) (src : Nat) (locked : Bool) : Bool :=
  locked || !(s.time.ntu.sources.any (fun r => r.num != src && r.locked && s.srcUsable r && s.srcPrio r.num ≤ s.srcPrio src))

/-- The server of a Lanivy exchange takes its time from this node: it follows the same grandmaster from farther away than this node, which
has another source (R84; DEDUCED, log 101). -/
def State.downstream (s : State) (src gmRank steps : Nat) : Bool :=
  decide (3 ≤ src) && decide (src ≤ 11) && s.time.ntu.sources.any (fun r =>
    s.time.ntu.sel == some r.num && r.num != src && r.gmRank == gmRank && decide (r.steps + 1 < steps))

/-- The source is refused no longer; TIME_QUAL.REFUSED clears with the last one (R99). -/
def State.unrefuse (s : State) (src : Nat) : State :=
  let s1 := s.onKeeper true (fun k => { k with refused := k.refused.filter (fun x => x != src) })
  if s1.time.ntu.refused.isEmpty then s1.setBit C2.timeQual 13 false else s1

/-- A completed measurement with its offset reaches the NTU (R73, R76): a refused source within ±1 ms returns to use (R99); the
source becomes available and the choice is made again; a measurement of the selected source is judged. One that is then an outlier of the
selected source is not valid: it is discarded, and leaves the choice of sources as it was. TIME_QUAL.STEPS counts the hop to this node. -/
def State.ntuMeasure (s : State) (src : Nat) (ofs : Int) (gmRank steps : Nat) (locked arb : Bool) (utc : Int) : State :=
  if !s.unlockedServerOk src locked || s.downstream src gmRank steps then s
  else
    let back := s.time.ntu.refused.contains src && decide (ofs.natAbs ≤ 1000000)
    let s1 := if back then s.unrefuse src else s
    let s2 := (s1.noteSource { num := src, last := s.mono, gmRank := gmRank, steps := steps, locked := locked }).reselect
    if s2.time.ntu.sel = some src then
      if s1.outlier ofs then s1.dropOutlier ofs
      else
        let s3 := (s2.setFld C2.timeQual 31 16 (min (steps + 1) 65535)).setBit C2.timeQual 14 arb
        (s3.wr C2.utcOffset (satI32 utc)).judgeOffset src ofs
    else s2

/-- A measurement of any source: the NTU's while die C runs, and die E's for the mesh (R73, R88). -/
def State.measure (s : State) (src : Nat) (ofs : Int) (gmRank steps : Nat) (locked arb : Bool) (utc : Int) : State :=
  let s1 := if src = 11 then s.rtcCorrect ofs else s
  if s.cTime && src ≠ 13 then s1.ntuMeasure src ofs gmRank steps locked arb utc else s1

/-- TIME_MEASUREMENT: a completed exchange of a source gives its offset (R73, R76, R81, R83). The host source gives none, nor does an
Ethernet port whose role takes no time (R79). -/
def execTimeMeasurement (src : Fin 14) (m : TimeMeas) (s : State) : Host.Outcome State Fault Refusal :=
  if src.val = 13 || (!s.cTime && src.val ≠ 11) || (decide (src.val < 3) && !s.ptpSlave src.val) then .next s
  else
    let ofs := s.measuredOffset src.val m
    .next ((s.noteOffset src.val m ofs).measure src.val ofs m.gmRank m.steps m.locked m.arb m.utc)

/-- SRC_LOST: a source without a valid measurement for SRC_TIMEOUT becomes unavailable; when it was the last, NO_SOURCE is
recorded and the quality falls to HOLDOVER (R73, R76, R103). -/
def execSrcLost (src : Fin 14) (s : State) : Host.Outcome State Fault Refusal :=
  match s.time.ntu.sources.find? (fun r => r.num == src.val) with
  | none => .next s
  | some r =>
    if !s.cTime || decide (s.mono < r.last + s.fld C2.srcMode 13 8 * 1000000000) then .next s
    else
      let was := s.time.ntu.sel
      let s1 := (s.onKeeper true (fun k => { k with sources := k.sources.filter (fun x => x.num != src.val) })).raise C2.page 4
      let s2 := s1.reselect
      if was = some src.val && s2.time.ntu.sel.isNone then .next (s2.err C2.page 0x0100 (BitVec.ofNat 32 src.val)) else .next s2

/-- E_LOCK_AGE_EXPIRY: while die E keeps time alone, no correction is younger than E_LOCK_AGE any longer (R88). -/
def execELockAgeExpiry (s : State) : Host.Outcome State Fault Refusal := .next s.rtcJudge

/-- DIE_TIME_CORRECTION: die C corrects a die's copy of local time over the Flue (R18). -/
def State.correctDie (s : State) (die : Die) : State :=
  { s with time := { s.time with clk := s.time.clk.set (dieIdx die).val (s.now .c) (by have := (dieIdx die).isLt; omega) } }

/-- DIE_TIME_CORRECTION (R18). -/
def execDieTimeCorrection (die : Die) (s : State) : Host.Outcome State Fault Refusal :=
  if s.cTime && s.powered die then .next (s.correctDie die) else .next s

/-! ## PTP stamps (R80) -/

/-- A stamp moved by a latency in ps towards the future or the past: ns and 2^-16 ns fraction. -/
def movedStamp (t : Nat) (frac : Nat) (ps : Int) : Nat × Nat :=
  let u : Int := (t : Int) * 65536 + frac + ps * 65536 / 1000
  (u.toNat / 65536, u.toNat % 65536)

/-- PTP_FRAME_RX: every PTP frame, and every frame of a port with STAMP_ALL, carries its receive stamp moved to the
medium-dependent interface; a malformed PTP message is recorded as PTP_RX_BAD (R80, R103). -/
def execPtpFrameRx (port : Fin 3) (ptp wellFormed : Bool) (s : State) : Host.Outcome State Fault Refusal :=
  if !s.cTime then .next s
  else
    let m := movedStamp (s.now .c) s.frac.toNat (-((s.rd (C2.ptpRxlatPs port.val)).toNat : Int))
    let s1 := if ptp || s.bit (C2.ptpCfg port.val) 4
      then s.emit (.ptpRx port.val (ntime m.1 s.time.epoch (BitVec.ofNat 16 m.2))) else s
    .next (if ptp && !wellFormed then s1.err C2.page 0x0103 (BitVec.ofNat 32 port.val) else s1)

/-- PTP_EVENT_TX: a departing Sync or Delay_Resp takes its stamp, moved to the medium-dependent interface, with the
fraction in correctionField; the frame check sequence is recomputed and the UDP checksum zeroed or corrected (R80). A port whose role gives
no time sends neither (R79). -/
def execPtpEventTx (port : Fin 3) (sync : Bool) (s : State) : Host.Outcome State Fault Refusal :=
  if !s.cTime || !s.ptpMaster port.val then .next s
  else
    let m := movedStamp (s.now .c) s.frac.toNat ((s.rd (C2.ptpTxlatPs port.val)).toNat : Int)
    .next (s.emit (.ptpTx port.val (s.fld C2.ptpDomain 7 0) sync m.1 m.2 (s.fld (C2.ptpCfg port.val) 3 2)))

/-! ## Snapshots (R101, R509) -/

/-- Local time of a die into the SNAP registers of a keeper's page (R69, R101). -/
def State.snap (s : State) (n : Bool) : State :=
  s.wrArr (keeperPage n + 0x104) (ntime (s.now (if n then .c else .e)) s.time.epoch s.frac)

/-- TIME_SNAP: bit 0 captures local time (R101). -/
def State.timeSnap (s : State) (r : Requester) (n : Bool) (w : Word) : State :=
  s.cmdWrite r (keeperPage n + 0x100) (fun t => if bitOf w 0 then t.snap n else t)

/-- TIME_SNAP (R101). -/
def execTimeSnap (r : Requester) (w : Word) (s : State) : Host.Outcome State Fault Refusal := .next (s.timeSnap r true w)

/-- TIME_SNAP on die E's page captures die E's copy of local time (R509). -/
def execETimeSnap (r : Requester) (w : Word) (s : State) : Host.Outcome State Fault Refusal := .next (s.timeSnap r false w)

end Sys2Proof.Machine
end

