-- ==== Sys2Proof/Machine/Frames.lean ====
section
/-!
DEFINITION. The octets of lamp-mesh frames: MAC and security headers, mesh header, CCM*, and what Lanivy time messages carry (R69, R84,
R165, R168, R170, R188).
-/
namespace Sys2Proof.Machine

/-! ## Fields on the wire -/

/-- Bytes of a number, little-endian (R168). -/
def leBytes (n v : Nat) : List Byte := (List.range n).map (fun k => BitVec.ofNat 8 (v / 256 ^ k))

/-- Bytes of a number, big-endian (R69). -/
def beBytes (n v : Nat) : List Byte := (leBytes n v).reverse

/-- NTIME of an instant on the wire, without epoch (R69, R170). -/
def wireTime (t : Nat) : List Byte := beBytes 6 (t / 1000000000) ++ beBytes 4 (nsOf t) ++ beBytes 2 0

/-- The part's own EUI-64 (R164). -/
def ownEui : Nat := Config.eui.toNat

/-- Own short address; 0xFFFE without one (R163). -/
def State.meshAddr (s : State) : Nat := s.fld E4.meshAddr 15 0

/-! ## CCM* (R188) -/

/-- Key words, or a block's words, from their bytes: byte i in word i div 4, at bits 8 × (i mod 4) (R397). -/
def blockWords (b : List Byte) : List Word :=
  (List.range 4).map (fun k => b.getD (4 * k + 3) 0 ++ b.getD (4 * k + 2) 0 ++ b.getD (4 * k + 1) 0 ++ b.getD (4 * k) 0)

/-- One block of AES-128, in bytes. -/
def aesBytes (key : List Word) (b : List Byte) : List Byte := (Config.aesEncrypt key (blockWords b)).flatMap wordBytes

def xorBytes (a b : List Byte) : List Byte := List.zipWith (fun x y => x ^^^ y) a b

/-- A text cut into blocks of 16 bytes, the last filled with zeros. -/
def blocks16 (m : List Byte) : List (List Byte) :=
  (List.range ((m.length + 15) / 16)).map (fun k => (((m.drop (16 * k)).take 16) ++ List.replicate 16 0).take 16)

/-- The CBC-MAC of a text with its additional data, and the key stream's block `i` (R188). -/
def ccmTag (key : List Word) (nonce : List Byte) (mic : Nat) (a m : List Byte) : List Byte :=
  let flags : Nat := (if a.isEmpty then 0 else 64) + 8 * ((mic - 2) / 2) + 1
  let b0 := leBytes 1 flags ++ nonce ++ beBytes 2 m.length
  let blocks := b0 :: (if a.isEmpty then [] else blocks16 (beBytes 2 a.length ++ a)) ++ blocks16 m
  (blocks.foldl (fun x b => aesBytes key (xorBytes x b)) (List.replicate 16 0)).take mic

def ccmStream (key : List Word) (nonce : List Byte) (i : Nat) : List Byte := aesBytes key (leBytes 1 1 ++ nonce ++ beBytes 2 i)

/-- CCM* of IEEE 802.15.4: the encrypted text and its MIC. -/
def ccmStar (key : List Word) (nonce : List Byte) (mic : Nat) (a m : List Byte) : List Byte :=
  let stream := ((List.range ((m.length + 15) / 16)).map (fun k => ccmStream key nonce (k + 1))).flatten
  xorBytes m stream ++ xorBytes (ccmTag key nonce mic a m) (ccmStream key nonce 0)

/-! ## Headers (R165, R168) -/

/-- Frame control, of frame version 1: type, security, frame pending, acknowledgement request, PAN ID compression and the addressing modes,
0 none, 2 short, 3 extended. -/
def frameControl (ftype : Nat) (sec pend ar compress : Bool) (dmode smode : Nat) : List Byte :=
  leBytes 2 (ftype + b2n sec * 2 ^ 3 + b2n pend * 2 ^ 4 + b2n ar * 2 ^ 5 + b2n compress * 2 ^ 6 + dmode * 2 ^ 10 + 2 ^ 12 + smode * 2 ^ 14)

/-- The auxiliary security header: security control with key identifier mode 1, frame counter and key index. -/
def auxHeader (level counter index : Nat) : List Byte := leBytes 1 (level + 8) ++ leBytes 4 counter ++ leBytes 1 index

/-- The mesh header. -/
def meshHeader (h : MeshHdr) : List Byte :=
  leBytes 1 h.mtype ++ leBytes 1 (h.ttl + 16 * b2n h.ext) ++ leBytes 2 h.origin ++ leBytes 2 h.dest ++ leBytes 2 h.mseq

/-- A JOIN_REQ as the joiner sends it: its source is its extended address (R168, R179). -/
def fromJoiner (h : MeshHdr) : Bool := h.mtype == 3 && h.origin == 0xFFFE

/-- The MAC header of a mesh frame: the destination is a short address, or for a joiner its EUI-64, the source the own short address, or the
extended one of a joining device. -/
def State.macHeader (s : State) (h : MeshHdr) (next eui dsn : Nat) (ar pend : Bool) : List Byte :=
  let ext := next == 0xFFFE
  frameControl 1 true pend ar true (if ext then 3 else 2) (if fromJoiner h then 3 else 2) ++ leBytes 1 dsn ++ leBytes 2 (s.fld E4.panId 15 0)
    ++ (if ext then leBytes 8 eui else leBytes 2 next) ++ (if fromJoiner h then leBytes 8 ownEui else leBytes 2 s.meshAddr)

/-- Octets of the MIC of a level: 4, 8 or 16 for 5 to 7, and for 1 to 3 (R165, R168). -/
def micLen (level : Nat) : Nat := if level % 4 = 1 then 4 else if level % 4 = 2 then 8 else 16

/-- A secured PSDU from its headers in clear and its text: at levels 5 to 7 the text is encrypted, at 1 to 3 it is authenticated only
(R170, R188). `b` is the key slot, its generation, the frame counter and the DSN. The FCS follows. -/
def State.securePsdu (s : State) (b : Nat × Nat × Nat × Nat) (level : Nat) (hdr text : List Byte) : List Byte :=
  let key := (s.aesSlot b.1).key.take 4
  let nonce := beBytes 8 ownEui ++ beBytes 4 b.2.2.1 ++ beBytes 1 level
  let body := if 4 ≤ level then hdr ++ ccmStar key nonce (micLen level) hdr text
    else hdr ++ text ++ ccmStar key nonce (micLen level) (hdr ++ text) []
  body ++ Config.fcs body

/-- The secured PSDU of a mesh frame (R168). -/
def State.meshPsdu (s : State) (b : Nat × Nat × Nat × Nat) (h : MeshHdr) (next eui : Nat) (ar pend : Bool) : List Byte :=
  let level := s.fld E4.meshSec 2 0
  s.securePsdu b level (s.macHeader h next eui b.2.2.2 ar pend ++ auxHeader level b.2.2.1 (s.fld (E6.keyStat b.1) 23 16))
    (meshHeader h ++ h.payload)

/-- Octets of a secured PSDU: MAC header with a count of extended addresses, auxiliary header, mesh header, payload, MIC and FCS (R168). -/
def State.psduLen (s : State) (payload extended : Nat) : Nat := 9 + 6 * extended + 6 + 8 + payload + micLen (s.fld E4.meshSec 2 0) + 4

/-- The PSDU of an Imm-Ack, which is never secured (R166). -/
def ackPsdu (dsn : Nat) (pend : Bool) : List Byte :=
  let b := frameControl 2 false pend false false 0 0 ++ leBytes 1 dsn
  b ++ Config.fcs b

/-! ## Frames received (R165, R166) -/

/-- A frame that uses no MAC option but the supported ones: version 1, a beacon, a data frame or a Data Request, without information
elements, secured with key identifier mode 1 at levels 5 to 7, or 1 to 3 for a beacon (R165). -/
def macSupported (m : MacHdr) : Bool :=
  m.version == 1 && !m.ies && m.secured && m.keyMode == 1 && !m.oddCounter &&
    (if m.ftype = 0 then decide (1 ≤ m.level) && decide (m.level ≤ 3)
     else (m.ftype == 1 || (m.ftype == 3 && m.cmd == 4)) && decide (5 ≤ m.level) && decide (m.level ≤ 7))

/-- The address check: a beacon, or a frame to the own short or extended address or to all, in the own PAN or to all PANs (R163, R166). -/
def State.macForUs (s : State) (m : MacHdr) : Bool :=
  m.ftype == 0 || ((m.panId == s.fld E4.panId 15 0 || m.panId == 0xFFFF) && (match m.destEui with
    | some e => e == ownEui
    | none => m.dest == 0xFFFF || (m.dest == s.meshAddr && m.dest != 0xFFFE && m.dest != 0)))

/-- The MAC takes a frame whose FCS is good: the mesh runs, and the frame is supported and addressed to this node. -/
def State.macTakes (s : State) (m : MacHdr) : Bool := s.meshOn && macSupported m && s.macForUs m

/-! ## Lanivy time messages (R84) -/

/-- FLAGS of a Lanivy message: LOCKED, HOLDOVER, epoch pending (R84). -/
def State.ttFlags (s : State) : Nat :=
  b2n s.locked + 2 * b2n (s.quality == qHoldover) + 4 * b2n s.epochPend

/-- Steps from this node to the grandmaster: the NTU's while die C runs, else one more than the mesh parent's (R84, R102). -/
def State.ownSteps (s : State) : Nat := if s.cTime then s.fld C2.timeQual 31 16 else min (s.mesh.parent.steps + 1) 65535

/-- The 64-byte payload of TT_REQ or TT_RESP (R84). The grandmaster's class, variance, accuracy and identity come from the selected source's
protocol: they are free, and the same for as long as that source is selected. -/
def State.ttPayload (s : State) (type seq t1 t2 t3 : Nat) : List Byte :=
  let resp := type == 2
  let gm := fun (k : Nat) => (Config.gmWord s.time.gm k).toNat
  beBytes 1 type ++ beBytes 1 s.ttFlags ++ beBytes 2 seq ++ beBytes 2 (if resp then s.ownSteps else 0)
    ++ beBytes 1 s.time.epoch.toNat ++ beBytes 4 (gm 0) ++ beBytes 1 0 ++ wireTime t1
    ++ (if resp then wireTime t2 ++ wireTime t3 ++ beBytes 8 (gm 1 * 2 ^ 32 + gm 2) else beBytes 32 0) ++ beBytes 8 0

end Sys2Proof.Machine
end

