-- ==== Sys2Proof/Machine/Mesh.lean ====
section
/-!
DEFINITION. The lamp mesh: the MAC assist's acknowledgements, CSMA-CA and retries, security and replay, routing, the
indirect queue, floods, beacons, joining, the host rings and the mesh actions (R162 to R199).
-/
namespace Sys2Proof.Machine

/-- A change of the mesh's state beside its registers. -/
def State.onMesh (s : State) (f : Mesh → Mesh) : State := { s with mesh := f s.mesh }

/-- The node is the coordinator, or a router (R162). -/
def State.isCoord (s : State) : Bool := s.fld E4.meshCfg 1 0 == 1
def State.isRouter (s : State) : Bool := s.fld E4.meshCfg 1 0 == 2

/-- PARENT_STAT.STATE codes (R198). -/
def psNone : Nat := 0
def psScanning : Nat := 1
def psJoining : Nat := 2
def psJoined : Nat := 3
def psWidened : Nat := 4
def psRejoining : Nat := 5

/-- PARENT_STAT.STATE. -/
def State.parentState (s : State) : Nat := s.fld E4.parentStat 19 16

/-- PARENT_STAT.STATE replaced. -/
def State.setParentState (s : State) (v : Nat) : State := s.setFld E4.parentStat 19 16 v

/-- PARENT_STAT.PARENT. -/
def State.parentAddr (s : State) : Nat := s.fld E4.parentStat 15 0

/-- The router has a parent whose beacons it follows, and has not lost it (R175, R176). -/
def State.parentUp (s : State) : Bool := s.isRouter && s.parentState == psJoined

/-- The part is in BANKED (R194). -/
def State.banked (s : State) : Bool := s.pstate == 4

/-- CHILD_CNT, TABLE_USE, SEEN_USE and TX_FC show the tables (R197). -/
def State.meshShow (s : State) : State :=
  let m := s.mesh
  let sleepy := (m.children.filter MeshChild.sleepy).length
  let fc := ((m.counters.find? (fun c => c.slot == s.fld E4.keySel 3 0)).map FrameCounter.next).getD 0
  s.wrs [(E4.childCnt, BitVec.ofNat 32 (sleepy + (m.children.length - sleepy) * 2 ^ 8)),
    (E4.tableUse, BitVec.ofNat 32 (m.indq.length + m.replay.length * 2 ^ 16)),
    (E4.seenUse, BitVec.ofNat 32 m.seen.length), (E4.txFc, BitVec.ofNat 32 fc)]

/-- The child with a short address. -/
def State.child (s : State) (a : Nat) : Option MeshChild := s.mesh.children.find? (fun c => c.short == a)

/-- The sleepy child with a short address. -/
def State.sleepyChild (s : State) (a : Nat) : Option MeshChild := s.mesh.children.find? (fun c => c.short == a && c.sleepy)

/-! ## Frames to send (R166, R168, R189, R192) -/

/-- A frame not yet sent. -/
def State.freshTx (s : State) (f : MeshHdr) (next eui : Nat) (desc ind : Option Nat) (pend : Bool) : MacTx :=
  { frame := f, next := next, eui := eui, ackReq := next != 0xFFFF, pendBit := pend, phase := .queued, backoffs := 0,
    be := s.fld E4.csmaCfg 3 0, retries := 0, sealed := none, desc := desc, ind := ind,
    addr := 0, len := s.psduLen f.payload.length (b2n (fromJoiner f) + b2n (next == 0xFFFE)), psdu := [], gone := false, since := 0 }

/-- The first frame of the queue begins its CSMA-CA when none is under way (R166). -/
def State.macKick (s : State) : State :=
  match s.mesh.txq with
  | t :: q => if t.phase = .queued then
      s.onMesh (fun m => { m with txq := { t with phase := .backoff, backoffs := 0, be := s.fld E4.csmaCfg 3 0 } :: q })
    else s
  | [] => s

/-- A frame joins the end of the queue. -/
def State.macQueue (s : State) (t : MacTx) : State := (s.onMesh (fun m => { m with txq := m.txq ++ [t] })).macKick

/-- A frame goes before every other that is not in the air or waiting for its ack: one in a backoff gives way, and begins again after it
(R183). -/
def State.macQueueFirst (s : State) (t : MacTx) : State :=
  (s.onMesh (fun m => { m with txq := match m.txq with
    | h :: q => if h.phase = .air || h.phase = .ackWait then h :: t :: q else t :: { h with phase := .queued } :: q
    | [] => [t] })).macKick

/-- A host descriptor's completion words: RESULT and retries, with TXR_DONE (R195). -/
def State.txrComplete (s : State) (d result retries : Nat) : State :=
  let a := (s.fld E4.txrBase 13 0 + d) * 16 + 8
  let w := putFld (putFld (Mem.word s.esram a) 3 0 result) 11 8 retries
  ({ s with esram := Mem.setWord s.esram a w }).raise E4.page 7

/-- The error a result records (R199). -/
def State.txError (s : State) (result info : Nat) : State :=
  if result = 5 then s.err E4.page 0x0100 (BitVec.ofNat 32 info)
  else if result = 6 then (s.raise E4.page 9).err E4.page 0x0101 (BitVec.ofNat 32 info)
  else if result = 7 then s.err E4.page 0x0102 (BitVec.ofNat 32 info)
  else if result = 9 then s.err E4.page 0x0106 (BitVec.ofNat 32 info)
  else s

/-- An indirect entry is served for a child: a unicast entry goes, a flood's mask bit clears (R183, R184). -/
def Mesh.served (m : Mesh) (id child : Nat) : Mesh :=
  { m with indq := m.indq.filterMap (fun e =>
      if e.id ≠ id then some e
      else
        let kids := e.kids.filter (fun k => k != child)
        if kids.isEmpty then none else some { e with kids := kids }) }

/-- The frame under way ends with a result code of R195; a frame that ends NO_ACK stays in the indirect queue (R183). -/
def State.macEnd (s : State) (result : Nat) : State :=
  match s.mesh.txq with
  | [] => s
  | t :: q =>
    let s1 := s.onMesh (fun m => { m with txq := q })
    let s2 := match t.ind with
      | some id => if result = 1 then s1.onMesh (fun m => m.served id t.next) else s1
      | none => s1
    let s3 := match t.desc with
      | some d => if t.ind.isNone || result = 1 then s2.txrComplete d result t.retries else s2
      | none => s2
    s3.meshShow.macKick

/-- The frame counter record of a key slot. -/
def State.counterOf (s : State) (slot : Nat) : FrameCounter :=
  (s.mesh.counters.find? (fun c => c.slot == slot)).getD { slot := slot, next := 0, saved := 0, saving := none }

/-- The record of a slot replaced. -/
def State.setCounter (s : State) (c : FrameCounter) : State :=
  s.onMesh (fun m => { m with counters := c :: m.counters.filter (fun x => x.slot != c.slot) })

/-- A frame counter after a reset of die E: it resumes at the saved value plus 4,096, whose save is under way; 0xFFFF_FFFF is the last value,
and is never sent (R189). -/
def resumeCounter (c : FrameCounter) : FrameCounter :=
  { c with next := min (c.saved + 4096) 0xFFFFFFFF,
           saving := if c.saved + 4096 < 0xFFFFFFFF then some (c.saved + 4096) else none }

/-- KEY_STAT of the byte-serial AES engine: the slot holds a key (R399). -/
def State.aesValid (s : State) (slot : Nat) : Bool := s.bit (E6.keyStat slot) 0

/-- A frame takes the next value of the current slot's counter, and KEY_EXHAUSTED is raised when it reaches its last; each multiple of 4,096 is saved before a value beyond it is
used (R189, R192). The answer is the sealed binding and the new record, or the result code that stops the frame, or none
where it waits for the save. -/
def State.sealFrame (s : State) : Except (Option Nat) (Nat × Nat × Nat × Nat) × State :=
  let slot := s.fld E4.keySel 3 0
  let c := s.counterOf slot
  if !s.aesValid slot then (.error (some 7), s)
  else if c.next = 0xFFFFFFFF then (.error (some 6), s)
  else if c.saving.isSome && c.saved + 4096 ≤ c.next then (.error none, s)
  else
    let n := c.next + 1
    let c1 := { c with next := n, saving := if n % 4096 = 0 then some n else c.saving }
    let s1 := (s.setCounter c1).onMesh (fun m => { m with dsn := (m.dsn + 1) % 256 })
    let s2 := if n = 0xFFFFFFFF then s1.raise E4.page 9 else s1
    (.ok (slot, s.fld (E6.keyStat slot) 15 8, c.next, s.mesh.dsn), s2.meshShow)

/-- A PSDU is placed in die E SRAM. -/
def State.putPsdu (s : State) (addr : Nat) (psdu : List Byte) : State := { s with esram := Mem.setBytes s.esram addr psdu }

/-- The first frame of the MAC queue, secured, goes to the radio. -/
def State.macAir (s : State) (t : MacTx) (q : List MacTx) : State :=
  ((s.onMesh (fun m => { m with txq := { t with phase := .air } :: q })).emit (.mesh t.next t.eui t.frame t.psdu)).sgTxRequest
    { kind := .mac, addr := t.addr, len := t.len, mode := 0, psdu := some t.psdu }

/-- The radio takes the first frame of the queue: an unsecured one is secured at this instant, its PSDU placed in die E SRAM (a free
place), and it is transmitted; a retry is the identical PSDU (R166, R168, R192). -/
def State.macSend (s : State) : State :=
  match s.mesh.txq with
  | [] => s
  | t :: q =>
    match t.sealed with
    | some _ => s.macAir t q
    | none =>
      match s.sealFrame with
      | (.ok b, u) => u.draw (fun i v =>
          let addr := Config.freeNat i % 65536 * 4
          let psdu := v.meshPsdu b t.frame t.next t.eui t.ackReq t.pendBit
          (v.putPsdu addr psdu).macAir { t with sealed := some b, addr := addr, psdu := psdu } q)
      | (.error none, _) => s.onMesh (fun m => { m with txq := { t with phase := .fcWait } :: q })
      | (.error (some r), _) => (s.txError r (s.fld E4.keySel 3 0)).macEnd r

/-- CSMA_BACKOFF_END: a backoff ends with CCA; energy at or above CCA_THR is busy (R166). -/
def execCsmaBackoffEnd (energy : Int) (s : State) : Host.Outcome State Fault Refusal :=
  match s.mesh.txq with
  | [] => .next s
  | t :: q =>
    if t.phase ≠ .backoff then .next s
    else if decide (sx 8 (s.fld E4.csmaCfg 23 16) ≤ energy) || s.sg == sgRxSt || s.sg == sgTxSt then
      if s.fld E4.csmaCfg 10 8 < t.backoffs + 1 then .next (s.macEnd 4)
      else .next (s.onMesh (fun m => { m with txq := { t with backoffs := t.backoffs + 1, be := min (t.be + 1) (s.fld E4.csmaCfg 7 4) } :: q }))
    else .next s.macSend

/-- The end of a transmission: a frame that asked for an ack waits for it, another is sent (R166). -/
def State.macTxEnd (s : State) : State :=
  match s.mesh.txq with
  | t :: q =>
    if t.phase = .air then
      if t.ackReq then s.onMesh (fun m => { m with txq := { t with phase := .ackWait, since := s.mono } :: q }) else s.macEnd 1
    else s
  | [] => s

/-- SG_TX_END: the ramp down of a transmission ends, not before RAMP after its last bit (R145, R150, R156), and the MAC assist's frame waits for its ack or is
done (R166). -/
def execSgTxEnd (rl : Nat) (s : State) : Host.Outcome State Fault Refusal :=
  match s.sub.tx with
  | none => .next s
  | some t =>
    if s.mono < s.sub.txTo + s.rampNs then .next s
    else if t.kind = .mac then .next (s.sgTxEnd rl).macTxEnd else .next (s.sgTxEnd rl)

/-- MAC_ACK_RX: an Imm-Ack with the frame's DSN completes it (R166). -/
def execMacAckRx (dsn : Nat) (s : State) : Host.Outcome State Fault Refusal :=
  match s.mesh.txq with
  | [] => .next s
  | t :: _ =>
    if t.phase = .ackWait && t.sealed.map (fun b => b.2.2.2) == some dsn then .next (s.macEnd 1) else .next s

/-- How long an ack is awaited, in ns: 1 ms and the ack's airtime in the frame's mode (R166). -/
def State.ackWaitNs (s : State) : Nat := 1000000 + sgAirNs (s.sgMode 0) (s.fld E3.txPhy 9 0) 7

/-- ACK_TIMEOUT: a frame unanswered within 1 ms and the ack's airtime, or whose transmission came to nothing, runs CSMA-CA again with the
identical PSDU, fails as NO_ACK after MAX_RETRIES, or as KEY_GONE when its slot has been erased (R166, R192). -/
def execAckTimeout (s : State) : Host.Outcome State Fault Refusal :=
  match s.mesh.txq with
  | [] => .next s
  | t :: q =>
    if (t.phase = .ackWait && decide (t.since + s.ackWaitNs ≤ s.mono)) || (t.phase = .air && s.sub.tx.isNone && s.sub.wait.isNone) then
      let slot := (t.sealed.map (fun b => b.1)).getD 0
      if s.fld E4.csmaCfg 14 12 < t.retries + 1 then .next (s.macEnd 3)
      else if t.gone then .next ((s.txError 7 slot).macEnd 7)
      else .next (s.onMesh (fun m => { m with txq :=
        { t with phase := .backoff, retries := t.retries + 1, backoffs := 0, be := s.fld E4.csmaCfg 3 0 } :: q }))
    else .next s

/-! ## Delivery to the host (R196) -/

/-- A frame for the host: its record at RXR_HEAD and its payload in die E SRAM (a free place); a full ring counts it
lost. -/
def State.hostFrame (s : State) (h : MeshHdr) (hop : Nat) (rssi : Int) : State :=
  let size := s.fld E4.rxrSize 10 0
  let head := s.fld E4.rxrHead 9 0
  if (head + 1) % size = s.fld E4.rxrTail 9 0 then (s.count E4.rxrDrop 1).raise E4.page 14
  else s.draw (fun i t =>
    let loc := Config.freeNat i % 65536
    let ws : List Word := [BitVec.ofNat 32 (h.mtype + h.ttl * 2 ^ 4 + b2n h.ext * 2 ^ 8 + h.origin * 2 ^ 16),
      BitVec.ofNat 32 (h.payload.length % 2048 + loc * 2 ^ 16),
      BitVec.ofNat 32 (hop % 65536 + ux 16 rssi * 2 ^ 16), BitVec.ofNat 32 h.mseq]
    let m := Mem.setBytes (Mem.setWords t.esram ((t.fld E4.rxrBase 13 0 + head) * 16) ws) (loc * 4) h.payload
    (({ t with esram := m }).setFld E4.rxrHead 9 0 ((head + 1) % size)).raise E4.page 6)

/-! ## The indirect queue (R182 to R184) -/

/-- Seconds as ns. -/
def secNs (n : Nat) : Nat := n * 1000000000

/-- A frame for a sleepy child is queued, or the result that refuses it: 8 INDQ_FULL or 9 TOO_LONG (R182). -/
def State.indQueue (s : State) (c : MeshChild) (h : MeshHdr) (desc : Option Nat) : Except Nat State :=
  let mine := (s.mesh.indq.filter (fun e => !e.flood && e.kids.contains c.short)).length
  if 127 < s.psduLen h.payload.length 0 then .error 9
  else if 1024 ≤ s.mesh.indq.length || s.fld E4.pollCfg 13 8 ≤ mine then .error 8
  else
    let e : IndEntry := { id := s.mesh.nextInd, frame := h, kids := [c.short], flood := false, queued := s.mono,
                          expires := s.mono + 2 * secNs c.poll + secNs 1, desc := desc }
    .ok (s.onMesh (fun m => { m with indq := m.indq ++ [e], nextInd := m.nextInd + 1 })).meshShow

/-- A refused indirect frame is counted, and INDQ_FULL raised (R182, R199). -/
def State.indRefused (s : State) (result len : Nat) : State :=
  let s1 := s.bump E4.indqCnt 31 16 1
  if result = 8 then s1.raise E4.page 12 else s1.txError 9 len

/-- A flood for the sleepy children that subscribe takes one entry with their mask (R184); as a frame of the indirect queue it is refused when
its PSDU would be too long (R182), and in BANKED the queue stays empty (R194). -/
def State.indFlood (s : State) (h : MeshHdr) : State :=
  let kids := s.mesh.children.filter (fun c => c.sleepy && c.floodSub)
  if kids.isEmpty || s.banked then s
  else if 127 < s.psduLen h.payload.length 0 then s.indRefused 9 h.payload.length
  else if 1024 ≤ s.mesh.indq.length then s.indRefused 8 0
  else
    let longest := kids.foldl (fun n c => max n c.poll) 0
    let e : IndEntry := { id := s.mesh.nextInd, frame := { h with ttl := 1 }, kids := kids.map MeshChild.short, flood := true,
                          queued := s.mono, expires := s.mono + 2 * secNs longest + secNs 1, desc := none }
    (s.onMesh (fun m => { m with indq := m.indq ++ [e], nextInd := m.nextInd + 1 })).meshShow

/-- The frames queued for a child, oldest first. -/
def State.indFor (s : State) (c : Nat) : List IndEntry := s.mesh.indq.filter (fun e => e.kids.contains c)

/-- A child is heard now (R180). -/
def State.hear (s : State) (c : Nat) : State :=
  s.onMesh (fun m => { m with children := m.children.map (fun k => if k.short = c then { k with heard := s.mono } else k) })

/-- The acknowledgement that a received frame asks for, with the frame-pending bit as the indirect queue stands now, when its FCS has been
checked: for a sleepy child that a frame waits, for the Data Request of a stranger always, in BANKED never (R166, R180, R194). -/
def State.ackFor (s : State) (m : MacHdr) : AckDue :=
  let pend := if (s.sleepyChild m.src).isSome then !(s.indFor m.src).isEmpty else m.ftype == 3 && (s.child m.src).isNone
  { dest := m.src, dsn := m.dsn, pend := !s.banked && pend }

/-- RX_FRAME_END: a received frame ends (R141, R143). One that the MAC takes is handed to the security check, a child is heard, and an
acknowledgement it asks for is sent first: until then the radio stays in RX and takes no other work; else it returns (R150, R165, R166). -/
def execRxFrameEnd (e : SgRxEnd) (s : State) : Host.Outcome State Fault Refusal :=
  match s.sub.rx with
  | none => .next s
  | some x =>
    if !x.confirmed then .next s
    else
      let s1 := s.sgRxDone x e
      if e.fcsOk && s.macTakes e.mac then
        let s2 := (s1.hear e.mac.src).onMesh (fun m => { m with rxd := some { mac := e.mac, stamp := x.stamp - s.fld E3.antDelay 9 0 } })
        if e.mac.ackReq then .next ((s2.onSub (fun y => { y with ackDue := true })).onMesh (fun m => { m with ackTo := some (s.ackFor e.mac) }))
        else .next (s2.sgReturn (s.fld E3.rfCtrl 1 0)).sgTxWaiting
      else .next (s1.sgReturn (s.fld E3.rfCtrl 1 0)).sgTxWaiting

/-- MAC_ACK_TX: the Imm-Ack that is due is sent; a sleepy child told that a frame is pending is owed one (R166, R183). An acknowledgement
is an immediate transmission, and waits as one where it cannot start (R146, R147). -/
def execMacAckTx (s : State) : Host.Outcome State Fault Refusal :=
  match s.mesh.ackTo with
  | none => .next s
  | some k =>
    if !s.sub.ackDue then .next s
    else
      let told := k.pend && (s.sleepyChild k.dest).isSome
      let s1 := (s.onSub (fun x => { x with ackDue := false })).onMesh (fun m => { m with ackTo := none, owed := if told then some k.dest else m.owed })
      .next ((s1.emit (.immAck k.dest k.pend)).sgToIdle.sgTxRequest
        { kind := .ack, addr := 0, len := 7, mode := 0, psdu := some (ackPsdu k.dsn k.pend) })

/-- INDIRECT_SEND: the next transmission is to the child just told that a frame is pending: its oldest frame, with the
frame-pending bit while more remain, or an empty data frame (R183). -/
def execIndirectSend (s : State) : Host.Outcome State Fault Refusal :=
  match s.mesh.owed with
  | none => .next s
  | some c =>
    let s1 := s.onMesh (fun m => { m with owed := none })
    match s1.indFor c with
    | e :: more => .next (s1.macQueueFirst (s1.freshTx e.frame c 0 e.desc (some e.id) (!more.isEmpty)))
    | [] =>
      let h : MeshHdr := { mtype := 1, ttl := 1, ext := false, origin := s.meshAddr, dest := c, mseq := 0, payload := [] }
      .next (s1.macQueueFirst (s1.freshTx h c 0 none none false))

/-- An indirect entry is discarded as EXPIRED; its descriptor is written again (R182, R195). -/
def State.indExpire (s : State) (e : IndEntry) : State :=
  let s1 := (s.onMesh (fun m => { m with indq := m.indq.filter (fun x => x.id != e.id) })).bump E4.indqCnt 15 0 1
  match e.desc with
  | some d => (s1.txrComplete d 10 0).meshShow
  | none => s1.meshShow

/-- INDIRECT_EXPIRY of a unicast entry (R182). -/
def execIndirectExpiry (id : Nat) (s : State) : Host.Outcome State Fault Refusal :=
  match s.mesh.indq.find? (fun e => e.id == id && !e.flood) with
  | some e => if e.expires ≤ s.mono then .next (s.indExpire e) else .next s
  | none => .next s

/-- FLOOD_ENTRY_EXPIRY: a flood's entry is freed (R184). -/
def execFloodEntryExpiry (id : Nat) (s : State) : Host.Outcome State Fault Refusal :=
  match s.mesh.indq.find? (fun e => e.id == id && e.flood) with
  | some e =>
    if e.expires ≤ s.mono then .next (s.onMesh (fun m => { m with indq := m.indq.filter (fun x => x.id != id) })).meshShow
    else .next s
  | none => .next s

/-- A child goes: its indirect frames are discarded as EXPIRED and its mask bits clear (R180). -/
def State.dropChild (s : State) (c : Nat) : State :=
  let s1 := (s.mesh.indq.filter (fun e => !e.flood && e.kids.contains c)).foldl State.indExpire s
  (s1.onMesh (fun m => { m with
    children := m.children.filter (fun k => k.short != c)
    indq := m.indq.filterMap (fun e =>
      let kids := e.kids.filter (fun k => k != c)
      if e.flood && kids.isEmpty then none else some { e with kids := kids }) })).meshShow

/-- CHILD_TIMEOUT: a sleepy child unheard for CHILD_TO_MULT poll intervals is removed (R180). -/
def execChildTimeout (short : Nat) (s : State) : Host.Outcome State Fault Refusal :=
  match s.sleepyChild short with
  | some c =>
    if c.heard + s.fld E4.pollCfg 3 0 * secNs c.poll ≤ s.mono then .next ((s.dropChild short).raise E4.page 5) else .next s
  | none => .next s

/-! ## Security (R188, R190, R191) -/

/-- The key slots whose frames are accepted: the current one, the next while NEXT_VALID, and the previous one within its
overlap (R188, R192). -/
def State.keySlots (s : State) : List Nat :=
  let cur := [s.fld E4.keySel 3 0]
  let nxt := if s.bit E4.keySel 8 then [s.fld E4.keySel 7 4] else []
  let prev := match s.mesh.prevKey with
    | some p => if s.mono < p.2 then [p.1] else []
    | none => []
  (cur ++ nxt ++ prev).filter s.aesValid

/-- What the replay table makes of a frame (R190). -/
inductive ReplayVerdict where
  | accept
  | duplicate
  | replay
  deriving DecidableEq, Repr

/-- The judgement of R190 against a neighbour's sets. -/
def judgeReplay (sets : List ReplaySet) (key counter dsn : Nat) : ReplayVerdict :=
  match sets.find? (fun x => x.key == key) with
  | none => .accept
  | some x => if x.counter < counter then .accept else if counter = x.counter && dsn = x.dsn then .duplicate else .replay

/-- The sets of a neighbour after an accepted frame: at most two key indices are kept. -/
def storeSet (sets : List ReplaySet) (key counter dsn : Nat) : List ReplaySet :=
  ({ key := key, counter := counter, dsn := dsn } :: sets.filter (fun x => x.key != key)).take 2

/-- The entry that gives way when the replay table is full: the least recently heard one that is neither the parent nor a
child (R191). -/
def State.replayVictim (s : State) : Option ReplayEntry :=
  (s.mesh.replay.filter (fun e => e.short != s.parentAddr && (s.child e.short).isNone)).foldl (fun best e =>
    match best with
    | none => some e
    | some b => if e.heard < b.heard then some e else some b) none

/-- An accepted frame is stored in its neighbour's entry, which is created where there is none (R190, R191). -/
def State.replayStore (s : State) (f : MacHdr) (eui : Nat) : State :=
  match s.mesh.replay.find? (fun e => e.eui == eui) with
  | some e =>
    (s.onMesh (fun m => { m with replay := { e with short := f.src, sets := storeSet e.sets f.keyIndex f.counter f.dsn, heard := s.mono }
                                    :: m.replay.filter (fun x => x.eui != eui) })).meshShow
  | none =>
    let n : ReplayEntry := { eui := eui, short := f.src, sets := storeSet [] f.keyIndex f.counter f.dsn, heard := s.mono }
    if s.mesh.replay.length < 512 then (s.onMesh (fun m => { m with replay := n :: m.replay })).meshShow
    else match s.replayVictim with
      | some v =>
        (((s.onMesh (fun m => { m with replay := n :: m.replay.filter (fun x => x.eui != v.eui) })).raise E4.page 10).err E4.page
          0x0107 (BitVec.ofNat 32 v.short)).meshShow
      | none => s

/-- The EUI-64 of a short address in the node's tables: the replay table, the children and the coordinator's address table (R188, R190). -/
def State.nbrEui (s : State) (a : Nat) : Option Nat :=
  ((s.mesh.replay.find? (fun e => e.short == a)).map ReplayEntry.eui).or
    (((s.child a).map MeshChild.eui).or ((s.mesh.addrs.find? (fun u => u.2 == a)).map Prod.fst))

/-- MESH_FRAME_RX: the security check of a frame that the MAC has taken: an unknown source or key index is counted with NO_KEY, a bad MIC
with MIC_FAIL, the replay table judges the rest, and a bad mesh header is counted in HDR_BAD. A frame that passes is
handed on (R168, R188, R190). -/
def execMeshFrameRx (f : MeshSec) (s : State) : Host.Outcome State Fault Refusal :=
  let s0 := s.onMesh (fun m => { m with rxd := none, auth := none })
  match s.mesh.rxd with
  | none => .next s
  | some x =>
    let h := x.mac
    let known := s.keySlots.any (fun k => s.fld (E6.keyStat k) 23 16 == h.keyIndex)
    if !s.meshOn then .next s0
    else match h.srcEui.or ((s.nbrEui h.src).or f.learnt) with
    | none => .next (s0.bump E4.secCnt 31 16 1)
    | some eui =>
      if !known then .next ((s0.bump E4.secCnt 31 16 1).err E4.page 0x0103 (BitVec.ofNat 32 h.keyIndex))
      else if !f.micOk then .next (s0.bump E4.secCnt 15 0 1)
      else
        let sets := ((s.mesh.replay.find? (fun e => e.eui == eui)).map ReplayEntry.sets).getD []
        match judgeReplay sets h.keyIndex h.counter h.dsn with
        | .duplicate => .next (s0.bump E4.dupCnt 15 0 1)
        | .replay => .next (s0.bump E4.dupCnt 31 16 1)
        | .accept =>
          let s1 := s0.replayStore h eui
          if h.ftype = 1 && (f.ttl = 0 || !f.rsvZero || f.mtype = 0 || 7 < f.mtype) then .next (s1.count E4.hdrBad 1)
          else .next (s1.onMesh (fun m => { m with auth := some { src := h.src, eui := eui, pan := h.panId, stamp := x.stamp } }))

/-- The sender of the frame handed on, which a frame's own row takes. -/
def State.takeAuth (s : State) : Option (MeshAuth × State) :=
  s.mesh.auth.map (fun a => (a, s.onMesh (fun m => { m with auth := none })))

/-! ## Routing (R181) -/

/-- The route table takes a neighbour for an address (R181): 4,094 entries indexed by short address. -/
def State.routeSet (s : State) (a nbr : Nat) : State :=
  if 1 ≤ a && a ≤ 0x0FFE then s.onMesh (fun m => { m with routes := (a, nbr) :: m.routes.filter (fun r => r.1 != a) }) else s

/-- The next hop of an address: a sleepy child's own, the table's, else the parent; none where there is none (R181). -/
def State.routeTo (s : State) (a : Nat) : Option Nat :=
  if (s.child a).isSome then some a
  else match s.mesh.routes.find? (fun r => r.1 == a) with
    | some r => some r.2
    | none => if s.parentUp then some s.parentAddr else none

/-- A frame goes to an address one hop on; without a way it is dropped as NO_ROUTE (R176, R181). -/
def State.forward (s : State) (h : MeshHdr) : State :=
  match s.routeTo h.dest with
  | some n => s.macQueue (s.freshTx h n 0 none none false)
  | none => s.err E4.page 0x0100 (BitVec.ofNat 32 h.dest)

/-- A short address that is reserved: frames addressed to it are discarded (R163). -/
def reservedAddr (a : Nat) : Bool := a == 0 || (decide (0x0FFF ≤ a) && decide (a ≤ 0xFFFD))

/-- MESH_DATA_RX: a DATA frame is delivered, queued for a sleepy child, or routed (R181); in BANKED it is not routed
(R194). An EXT frame goes to the forwarding port in STANDBY and RUN, and is dropped as NO_ROUTE in EMBER. -/
def execMeshDataRx (h : MeshHdr) (rssi : Int) (s : State) : Host.Outcome State Fault Refusal :=
  match s.takeAuth with
  | none => .next s
  | some (x, s0) =>
    let src := x.src
    let s1 := if (s.child src).isSome then s0.routeSet h.origin src else s0
    if h.mtype = 7 then
      if s.cRuns then .next (s1.emit (.meshToXbl src h.payload)) else .next s1
    else if h.mtype ≠ 1 || reservedAddr h.dest then .next s1
    else if h.dest = s.meshAddr then
      if h.ext then
        if s.cRuns then .next (s1.emit (.meshToFwd h)) else .next (s1.err E4.page 0x0100 (BitVec.ofNat 32 h.dest))
      else .next (s1.hostFrame h src rssi)
    else if s.banked then .next s1
    else match s.sleepyChild h.dest with
      | some c => match s1.indQueue c h none with
        | .ok t => .next t
        | .error r => .next (s1.indRefused r h.payload.length)
      | none => .next (s1.forward h)

/-! ## Floods (R185 to R187) -/

/-- The seen-message cache without the entries 60 s old at a stamp (R185). -/
def seenFresh (seen : List SeenEntry) (stamp : Nat) : List SeenEntry := seen.filter (fun e => stamp < e.stamp + secNs 60)

/-- A flood enters the cache; a full cache evicts its oldest entry (R187). -/
def State.seenInsert (s : State) (origin mseq stamp : Nat) : State :=
  let l := seenFresh s.mesh.seen stamp
  let e : SeenEntry := { origin := origin, mseq := mseq, stamp := stamp, copies := 1 }
  if l.length < 1024 then (s.onMesh (fun m => { m with seen := l ++ [e] })).meshShow
  else ((s.onMesh (fun m => { m with seen := l.tail ++ [e] })).raise E4.page 11).meshShow

/-- FLOOD_RX: judged at the end of its SFD, a copy counts, and cancels a pending rebroadcast at REDUNDANCY copies; a new flood is delivered, queued for
sleepy children, and relayed after a jitter of 0 to JITTER_MAX ms, whose draw is free, by a router or coordinator that is not BANKED (R185, R194). -/
def execFloodRx (h : MeshHdr) (rssi : Int) (s : State) : Host.Outcome State Fault Refusal :=
  match s.takeAuth with
  | none => .next s
  | some (x, s0) =>
    let src := x.src
    let stamp := x.stamp
    match (seenFresh s.mesh.seen stamp).find? (fun e => e.origin == h.origin && e.mseq == h.mseq) with
    | some e =>
      let n := e.copies + 1
      let s1 := s0.onMesh (fun m => { m with seen := m.seen.map (fun x =>
        if x.origin = h.origin ∧ x.mseq = h.mseq then { x with copies := x.copies + 1 } else x) })
      let red := s.fld E4.floodCfg 18 16
      if s.mesh.rebro.any (fun r => r.1.origin == h.origin && r.1.mseq == h.mseq) && red != 0 && decide (red ≤ n) then
        .next ((s1.onMesh (fun m => { m with rebro := m.rebro.filter (fun r => !(r.1.origin == h.origin && r.1.mseq == h.mseq)) })).bump
          E4.floodCnt 31 16 1)
      else .next s1
    | none =>
      let s1 := ((s0.seenInsert h.origin h.mseq stamp).hostFrame h src rssi).indFlood h
      if decide (1 < h.ttl) && s.bit E4.meshCfg 3 && (s.isRouter || s.isCoord) && !s.banked then
        .next (s1.draw (fun i t =>
          t.onMesh (fun m => { m with rebro := m.rebro ++ [(h, s.mono + Config.freeNat i % (s.fld E4.floodCfg 15 8 * 1000000 + 1))] })))
      else .next s1

/-- FLOOD_REBROADCAST: its jitter over, a pending flood is sent with TTL less one and counted RELAYED (R185). -/
def execFloodRebroadcast (origin mseq : Nat) (s : State) : Host.Outcome State Fault Refusal :=
  match s.mesh.rebro.find? (fun r => r.1.origin == origin && r.1.mseq == mseq && decide (r.2 ≤ s.mono)) with
  | some (h, _) =>
    let s1 := s.onMesh (fun m => { m with rebro := m.rebro.filter (fun r => !(r.1.origin == origin && r.1.mseq == mseq)) })
    .next ((s1.bump E4.floodCnt 15 0 1).macQueue (s1.freshTx { h with ttl := h.ttl - 1 } 0xFFFF 0 none none false))
  | none => .next s

/-! ## Host transmissions (R186, R195) -/

/-- A host flood: rate limit, own MSEQ, own cache entry, no jitter (R186). -/
def State.hostFlood (s : State) (d ttl : Nat) (ext : Bool) (payload : List Byte) : State :=
  let recent := s.mesh.floodAt.filter (fun t => s.mono < t + secNs 1)
  if s.fld E4.floodCfg 28 24 ≤ recent.length then s.txrComplete d 11 0
  else
    let seq := (s.mesh.floodSeq + 1) % 65536
    let h : MeshHdr := { mtype := 2, ttl := if ttl = 0 then s.fld E4.floodCfg 3 0 else ttl, ext := ext, origin := s.meshAddr,
                         dest := 0xFFFF, mseq := seq, payload := payload }
    let a := (s.fld E4.txrBase 13 0 + d) * 16 + 12
    let s1 := s.onMesh (fun m => { m with floodSeq := seq, floodAt := s.mono :: recent })
    let s2 := { s1 with esram := Mem.setWord s1.esram a (putFld (Mem.word s1.esram a) 15 0 seq) }
    let s3 := (s2.seenInsert s.meshAddr seq (s.now .e)).indFlood h
    s3.macQueue (s3.freshTx h 0xFFFF 0 (some d) none false)

/-- A host DATA frame: delivered, queued for a sleepy child, or sent to its next hop (R181, R182). DEDUCED, log 109: one to a reserved address is
discarded as NO_ROUTE (R163), and in BANKED one for a sleepy child is discarded with the indirect queue, as EXPIRED (R194). -/
def State.hostData (s : State) (d ttl dest : Nat) (ext : Bool) (payload : List Byte) : State :=
  let h : MeshHdr := { mtype := 1, ttl := if ttl = 0 then 15 else ttl, ext := ext, origin := s.meshAddr, dest := dest, mseq := 0,
                       payload := payload }
  if dest = s.meshAddr then (s.hostFrame h s.meshAddr 0).txrComplete d 1 0
  else if reservedAddr dest then (s.txError 5 dest).txrComplete d 5 0
  else match s.sleepyChild dest with
    | some c => if s.banked then (s.bump E4.indqCnt 15 0 1).txrComplete d 10 0 else match s.indQueue c h (some d) with
      | .ok t => t.txrComplete d 2 0
      | .error r => (s.indRefused r payload.length).txrComplete d r 0
    | none => match s.routeTo dest with
      | some n => s.macQueue (s.freshTx h n 0 (some d) none false)
      | none => (s.txError 5 dest).txrComplete d 5 0

/-- TX_DESCRIPTOR: the descriptor at TXR_TAIL is taken and the index advances (R195). -/
def execTxDescriptor (s : State) : Host.Outcome State Fault Refusal :=
  let d := s.fld E4.txrTail 9 0
  if !s.meshOn || d = s.fld E4.txrHead 9 0 then .next s
  else
    let a := (s.fld E4.txrBase 13 0 + d) * 16
    let w0 := Mem.word s.esram a
    let w1 := Mem.word s.esram (a + 4)
    let len := bitsOf w1 10 0
    let payload := Mem.bytes s.esram (bitsOf w1 31 16 * 4) len
    let s1 := s.setFld E4.txrTail 9 0 ((d + 1) % s.fld E4.txrSize 10 0)
    if bitsOf w0 3 0 ≠ 1 && bitsOf w0 3 0 ≠ 2 then .next (s1.txrComplete d 12 0)
    else if 1280 < len then .next ((s1.txError 9 len).txrComplete d 9 0)
    else if bitsOf w0 3 0 = 2 then .next (s1.hostFlood d (bitsOf w0 7 4) (bitOf w0 8) payload)
    else .next (s1.hostData d (bitsOf w0 7 4) (bitsOf w0 31 16) (bitOf w0 8) payload)

/-! ## Beacons (R170, R173, R194) -/

/-- Own PATH_COST: 0 on the coordinator, 0xFFFF without a path and in BANKED (R170, R176, R177, R194). -/
def State.pathCost (s : State) : Nat :=
  if s.banked then 0xFFFF else if s.isCoord then 0 else if s.parentUp then s.mesh.parent.cost else 0xFFFF

/-- The beacon payload at an instant (R170); PERMIT_JOIN is clear without a path and in BANKED. -/
def State.beaconPayload (s : State) (t : Nat) : List Byte :=
  let permit := s.bit E4.meshCfg 2 && s.pathCost != 0xFFFF
  let next := if s.bit E4.keySel 8 then s.fld (E6.keyStat (s.fld E4.keySel 7 4)) 23 16 else 0
  let flags := b2n permit + 2 * b2n s.locked + 4 * b2n (s.quality == qHoldover) + 8 * b2n (s.pstate == 1) + 16 * b2n s.banked
    + 32 * b2n s.isCoord + 64 * b2n (s.bit E4.keySel 8)
  let free := 128 - (s.mesh.children.filter MeshChild.sleepy).length
  leBytes 1 0xB7 ++ leBytes 1 flags ++ leBytes 1 (s.fld E4.parentStat 27 24) ++ leBytes 1 free ++ leBytes 2 s.pathCost
    ++ leBytes 2 (s.fld E4.bcnCfg 12 0) ++ wireTime t ++ leBytes 1 s.time.epoch.toNat ++ leBytes 1 next ++ leBytes 2 0
    ++ (if s.banked then leBytes 4 (s.rd GLB.selftestSum).toNat ++ leBytes 4 (s.rd E1.rstCause).toNat else [])

/-- The secured PSDU of a beacon with a payload: frame control, sequence number, source PAN and short address, auxiliary header of level
LEVEL − 4, superframe fields with beacon order, superframe order and final CAP slot 15, PAN coordinator and association permit, no GTS and
no pending addresses (R170). -/
def State.beaconPsdu (s : State) (b : Nat × Nat × Nat × Nat) (payload : List Byte) : List Byte :=
  let level := s.fld E4.meshSec 2 0 - 4
  let permit := s.bit E4.meshCfg 2 && s.pathCost != 0xFFFF
  s.securePsdu b level (frameControl 0 true false false false 0 2 ++ leBytes 1 b.2.2.2 ++ leBytes 2 (s.fld E4.panId 15 0) ++ leBytes 2 s.meshAddr
      ++ auxHeader level b.2.2.1 (s.fld (E6.keyStat b.1) 23 16))
    (leBytes 2 (0xFFF + b2n s.isCoord * 2 ^ 14 + b2n permit * 2 ^ 15) ++ [0, 0] ++ payload)

/-! ## What the Ember engine sends at an instant (R90, R91, R172, R173) -/

/-- Ns from the first preamble bit of a frame in the base mode to the end of its SFD. -/
def State.sfdNs (s : State) : Nat := (s.fld E3.txPhy 9 0 + 2) * 8 * 1000000 / sgKbps (bitsOf (s.sgMode 0) 2 0)

/-- The local time of an armed action's T. -/
def State.actTime (s : State) (a : PendAct) : Nat := ((s.now (slotDie a.slot) : Int) + s.actDiff a).toNat

/-- A beacon is armed on RF_ACT[6] or RF_ACT[7] for an instant. -/
def State.beaconArmed (s : State) (t : Nat) : Bool :=
  s.mesh.eng.any (fun e => e.2 == .beacon && s.actq.any (fun a => a.slot == .rf e.1 && s.actTime a == t))

/-- The Ember engine arms a TX action of RF_ACT[6] or RF_ACT[7], whichever of the two is free, `pref` first, with its first preamble bit at a
local time and policy DROP (R90, R93, R172). It takes an entry of die E's queue and is judged against its lead as any action (R91). The
frame's place in die E SRAM is free. -/
def State.engArm (s : State) (pref other : Fin 8) (t len : Nat) (what : EngFrame) : State :=
  match [pref, other].find? (fun i => (s.pendAct (.rf i)).isNone) with
  | none => s
  | some i => s.draw (fun n u =>
      let u1 := u.wrs [(E3.actS i.val, BitVec.ofNat 32 (t / 1000000000)), (E3.actNs i.val, BitVec.ofNat 32 (nsOf t)), (E3.actDesc i.val, 0x8),
        (E3.actFrame i.val, BitVec.ofNat 32 (Config.freeNat n % 65536 + len * 2 ^ 16))]
      let u2 := (u1.onMesh (fun m => { m with eng := (i, what) :: m.eng.filter (fun e => e.1 != i) })).armAct (.rf i) 0 rfPerform
      if (u2.pendAct (.rf i)).isNone then u2.engEnd (.rf i) true else u2)

/-- The octets of a beacon's PSDU. -/
def State.beaconLen (s : State) : Nat := 17 + (if s.banked then 32 else 24) + micLen (s.fld E4.meshSec 2 0 - 4) + 4

/-- The PSDU of an Ember engine's frame is in its place, ready for the transmission. -/
def State.engReady (s : State) (addr : Nat) (psdu : List Byte) : State := (s.putPsdu addr psdu).onSub (fun x => { x with prepPsdu := psdu })

/-- A TIME frame of the mesh with its payload (R169) is ready. -/
def State.engTime (s : State) (addr : Nat) (b : Nat × Nat × Nat × Nat) (dest : Nat) (pay : List Byte) : State :=
  let h : MeshHdr := { mtype := 6, ttl := 1, ext := false, origin := s.meshAddr, dest := dest, mseq := 0, payload := pay }
  let psdu := s.meshPsdu b h dest 0 false false
  (s.emit (.mesh dest 0 h psdu)).engReady addr psdu

/-- A frame of the Ember engine is secured at its preparation instant, with the end of its SFD at the antenna inserted as its NTIME, T1 or T3
(R172, R192). One that waits for the save of its frame counter is secured when that is done, if its T has not come; one that has no key or
no counter value left ends MISSED (R189). -/
def State.engSecure (s : State) (i : Fin 8) : State :=
  match s.mesh.eng.find? (fun e => e.1 == i), s.pendAct (.rf i) with
  | some (_, what), some a =>
    let sfd := s.actTime a + s.sfdNs
    let addr := (actTx a i).addr
    match s.sealFrame with
    | (.ok b, u) => match what with
      | .beacon =>
        let pay := u.beaconPayload sfd
        ((u.emit (.beacon pay)).onMesh (fun m => { m with lastBcn := some (s.actTime a) })).engReady addr (u.beaconPsdu b pay)
      | .ttReq seq =>
        let x : TtExchange := { link := 8, seq := seq, member := 2, t1 := sfd, sent := s.mono }
        let u1 := { u with time := { u.time with exchanges := x :: u.time.exchanges.filter (fun y => y.link != 8) } }
        (u1.emit (.ttReq 8 seq sfd)).engTime addr b s.parentAddr (u.ttPayload 1 seq sfd 0 0)
      | .ttResp dest seq t1 t2 => (u.emit (.ttResp 8 seq t1 t2 sfd s.ttFlags)).engTime addr b dest (u.ttPayload 2 seq t1 t2 sfd)
    | (.error none, _) => s.onSub (fun x => { x with prepPsdu := [] })
    | (.error (some r), _) =>
      ((s.txError r (s.fld E4.keySel 3 0)).onSub (fun x => { x with prepared := none })).endAct (.rf i) stMissed 4 false false false
  | _, _ => s

/-- ACT_PREPARE: the preparation instant of a pending RF action has come (R152). -/
def execActPrepare (i : Fin 8) (s : State) : Host.Outcome State Fault Refusal :=
  match s.pendAct (.rf i) with
  | some a =>
    if s.fld (slotStat (.rf i)) 3 0 == stPending && !s.bit (slotStat (.rf i)) 28
        && decide (s.actDiff a ≤ s.sgPrepNs a.desc) && s.sub.prepared != some i && !s.sub.blocked.contains i then
      let t := s.sgPrepare i a
      .next (if t.sub.prepared = some i then t.engSecure i else t)
    else .next s
  | none => .next s

/-- FC_SAVE_DONE: a frame counter reaches the persistent store; a supply warning on die E holds the write (R125, R189), and
the frames that waited for it are secured. -/
def execFcSaveDone (slot : Fin 16) (s : State) : Host.Outcome State Fault Refusal :=
  let c := s.counterOf slot.val
  match c.saving with
  | none => .next s
  | some v =>
    if s.supplyWarn .e then .next s
    else
      let s1 := s.setCounter { c with saved := v, saving := none }
      let s2 := match s1.sub.prepared with
        | some i => if s1.sub.prepPsdu.isEmpty then s1.engSecure i else s1
        | none => s1
      match s2.mesh.txq with
      | t :: _ => if t.phase = .fcWait then .next s2.macSend else .next s2
      | [] => .next s2

/-- The node sends beacons: the coordinator, or a router with a short address (R173, R176, R179). -/
def State.beacons (s : State) : Bool := s.meshOn && (s.isCoord || (s.isRouter && s.meshAddr != 0xFFFE)) && !s.banked

/-- The first instant of the beacon schedule that lies a lead time ahead: its count of 100 ms units since second 0 of local time, modulo
BCN_INT, is BCN_PHASE (R91, R173). -/
def State.nextBeacon (s : State) : Nat :=
  let int := s.fld E4.bcnCfg 12 0
  let u := ((s.now .e + (s.leadNs (.rf 6)).toNat + 99999999) / 100000000)
  (u + (s.fld E4.bcnCfg 28 16 + (int - u % int)) % int) * 100000000

/-- The instants of pending BEACON_NOW actions that lie a lead time ahead (R198). -/
def State.beaconsAsked (s : State) : List Nat :=
  (s.actq.filter (fun a => match a.slot with
    | .mesh _ => bitsOf a.desc 2 0 == 3 && s.actOpen a && decide (s.leadNs (.rf 6) ≤ s.actDiff a)
    | _ => false)).map s.actTime

/-- BEACON_TX: the Ember engine arms the next beacon that is due, of the schedule or of a BEACON_NOW action, unless it stands armed; the
beacon leaves at its instant (R172, R173). -/
def execBeaconTx (s : State) : Host.Outcome State Fault Refusal :=
  if !s.beacons then .next s
  else match ((s.nextBeacon :: s.beaconsAsked).filter (fun t => !s.beaconArmed t)).min? with
    | some t => .next (s.engArm 6 7 t s.beaconLen .beacon)
    | none => .next s

/-- EXTRA_BEACON: one extra beacon within 100 ms of a change of BCN_INT or BCN_PHASE, at an instant of the Ember engine's choosing that its
lead time allows: free (R91, R173). -/
def execExtraBeacon (s : State) : Host.Outcome State Fault Refusal :=
  match s.mesh.extraBcn with
  | some t0 =>
    let lead := (s.leadNs (.rf 6)).toNat
    let room := t0 + 100000000 - (s.mono + lead)
    if !s.beacons || ((s.pendAct (.rf 6)).isSome && (s.pendAct (.rf 7)).isSome) then .next s
    else .next (s.draw (fun i u =>
      (u.engArm 6 7 (u.now .e + lead + Config.freeNat i % (room + 1)) u.beaconLen .beacon).onMesh (fun m => { m with extraBcn := none })))
  | none => .next s

/-- BANKED_BEACON: in BANKED a status beacon every BANK_BCN_INT (R194). -/
def execBankedBeacon (s : State) : Host.Outcome State Fault Refusal :=
  let int := secNs (s.fld E1.pmCfg 9 0)
  if s.banked && s.meshOn && (s.pendAct (.rf 6)).isNone && decide (s.mesh.bankBcn + int ≤ s.now .e + int) then
    let t := max (s.mesh.bankBcn + int) (s.now .e + (s.leadNs (.rf 6)).toNat)
    .next ((s.engArm 6 7 t s.beaconLen .beacon).onMesh (fun m => { m with bankBcn := t }))
  else .next s

/-- What the Ember engine has armed is withdrawn: all of it, or the beacons. -/
def State.engCancel (s : State) (all : Bool) : State :=
  (s.mesh.eng.filter (fun e => all || e.2 == .beacon)).foldl (fun (t : State) e =>
    match t.pendAct (.rf e.1) with
    | some a => if t.actBegun a then t
      else (t.letGo e.1).endAct (.rf e.1) stCancelled 0 false false false
    | none => t) s

/-- A write of BCN_CFG, direct or as a group share: a change withdraws what was armed by the former schedule and calls for an extra beacon
(R173). -/
def State.setBcnCfg (s : State) (w : Word) : State :=
  if s.rd E4.bcnCfg = w then s else ((s.engCancel false).wr E4.bcnCfg w).onMesh (fun m => { m with extraBcn := some s.mono })

/-! ## Scanning and joining (R177 to R179) -/

/-- Link cost from an RSSI in dBm (R177). -/
def linkCost (rssi : Int) : Nat := 1 + ((-70 - rssi) / 3).toNat

/-- The radio goes to a channel number and listens there: from SLEEP and IDLE through SETTLE, in RX as a channel change, after a transmission
or calibration when that ends (R151, R177). -/
def State.listenOn (s : State) (n : Nat) : State :=
  let moved := s.fld E3.chanSel 9 0 != n
  let s1 := if moved then s.setFld E3.chanSel 9 0 n else s
  if s.sgEnabled && (s.sg == sgSleep || s.sg == sgIdle || (s.sg == sgSettle && s.sub.goal = .idle)) && s.sub.prepared.isNone then
    if moved || !s.sgLocked then s1.sgSettleTo .listen else s1.setSg sgListen
  else if moved then s1.sgRetuneChan else s1

/-- The radio listens on a channel of the scan (R177). -/
def State.scanOn (s : State) (n : Nat) : State :=
  (s.onMesh (fun m => { m with join := { m.join with chan := n, dwell := s.mono } })).listenOn n

/-- A sweep begins at SCAN_CFG.FIRST (R177). -/
def State.scanStart (s : State) : State :=
  ((s.setParentState psScanning).onMesh (fun m => { m with join := { m.join with hits := [], target := none } })).scanOn
    (s.fld E4.scanCfg 19 10)

/-- Within its rejoin grace (R175). -/
def State.inGrace (s : State) : Bool := s.mesh.parent.grace.isSome

/-- The sender a scan chooses: lowest PATH_COST plus link cost, with PERMIT_JOIN or in the grace, a path, and DEPTH below 15;
an excluded parent is passed over (R177, R179). -/
def State.scanBest (s : State) : Option ScanHit :=
  (s.mesh.join.hits.filter (fun h => (h.permit || s.inGrace) && decide (h.depth < 15)
    && !(s.mesh.join.excluded.any (fun x => x.1 == h.src)))).foldl (fun best h =>
      match best with
      | none => some h
      | some b => if h.cost < b.cost then some h else some b) none

/-- Bytes of a JOIN_REQ, JOIN_RESP or LEAVE payload (R171). -/
def joinBytes (mtype : Nat) (j : JoinInfo) : List Byte :=
  if mtype = 5 then leBytes 8 j.eui ++ leBytes 2 j.short ++ leBytes 1 j.code
  else leBytes 8 j.eui ++ leBytes 2 j.short ++ leBytes 1 j.code ++ leBytes 1 0 ++ leBytes 2 j.poll
    ++ (if mtype = 4 then leBytes 2 j.parent else [])

/-- A JOIN or LEAVE frame to a next hop. -/
def State.sendJoin (s : State) (mtype origin dest next eui : Nat) (j : JoinInfo) : State :=
  s.macQueue (s.freshTx { mtype := mtype, ttl := 15, ext := false, origin := origin, dest := dest, mseq := 0,
                          payload := joinBytes mtype j } next eui none none false)

/-- The chosen parent is asked, and its answer listened for (R179): a router asks with CAPS.ROUTER, and REJOIN while it holds an
address. -/
def State.joinTo (s : State) (h : ScanHit) : State :=
  let held := s.meshAddr != 0xFFFE
  let s1 := (s.setParentState (if held then psRejoining else psJoining)).onMesh (fun m =>
    { m with join := { m.join with target := some (h, s.mono) } })
  (s1.listenOn h.chan).sendJoin 3 0xFFFE 0x0001 h.src 0 { eui := ownEui, short := s.meshAddr, code := 4 + 8 * b2n held, poll := 0, parent := 0 }

/-- SCAN_DWELL_END: the next channel, or at the end of the sweep the chosen parent, or another sweep (R177). -/
def execScanDwellEnd (s : State) : Host.Outcome State Fault Refusal :=
  if s.parentState ≠ psScanning || s.mono < s.mesh.join.dwell + secNs (s.fld E4.scanCfg 9 0) then .next s
  else if s.mesh.join.chan < s.fld E4.scanCfg 29 20 then .next (s.scanOn (s.mesh.join.chan + 1))
  else match s.scanBest with
    | some h => .next (s.joinTo h)
    | none => .next s.scanStart

/-- A join attempt fails: JOIN_FAIL, the parent excluded for 60 s, and the choice made again (R179). -/
def State.joinFail (s : State) (code : Nat) : State :=
  match s.mesh.join.target with
  | none => s
  | some (h, _) =>
    let s1 := (s.err E4.page 0x0104 (BitVec.ofNat 32 code)).onMesh (fun m =>
      { m with join := { m.join with target := none, excluded := (h.src, s.mono) :: m.join.excluded } })
    match s1.scanBest with
    | some b => s1.joinTo b
    | none => s1.scanStart

/-- JOIN_TIMEOUT: no JOIN_RESP within 2 s (R179). -/
def execJoinTimeout (s : State) : Host.Outcome State Fault Refusal :=
  match s.mesh.join.target with
  | some (_, t0) => if t0 + secNs 2 ≤ s.mono then .next (s.joinFail 0xFF) else .next s
  | none => .next s

/-- PARENT_EXCLUDE_EXPIRY (R179). -/
def execParentExcludeExpiry (short : Nat) (s : State) : Host.Outcome State Fault Refusal :=
  let l := s.mesh.join.excluded.filter (fun x => x.1 != short || s.mono < x.2 + secNs 60)
  .next (s.onMesh (fun m => { m with join := { m.join with excluded := l } }))

/-- PENDING_CHILD_EXPIRY: a pending child entry is dropped after 2 s (R179). -/
def execPendingChildExpiry (eui : Nat) (s : State) : Host.Outcome State Fault Refusal :=
  .next (s.onMesh (fun m => { m with pendKids := m.pendKids.filter (fun p => p.eui != eui || s.mono < p.since + secNs 2) }))

/-- A poll interval replaced by the nearest legal value (R171). -/
def legalPoll (p : Nat) : Nat := clampN 1 3600 p

/-- The parent has no room for a joiner of these CAPS (R179, R180). -/
def State.parentFull (s : State) (caps : Nat) : Bool :=
  let sleepy := (s.mesh.children.filter MeshChild.sleepy).length
  (caps % 2 == 1 && decide (128 ≤ sleepy)) || (caps / 4 % 2 == 1 && decide (32 ≤ s.mesh.children.length - sleepy))

/-- A child is entered at its parent; CHILD_JOINED is raised (R179). -/
def State.enterChild (s : State) (eui short caps poll : Nat) : State :=
  let c : MeshChild := { short := short, eui := eui, sleepy := caps % 2 == 1, floodSub := caps / 2 % 2 == 1, poll := poll, heard := s.mono }
  ((s.onMesh (fun m => { m with children := c :: m.children.filter (fun k => k.short != short && k.eui != eui) })).raise
    E4.page 4).meshShow

/-- The address the coordinator gives, with its STATUS: 0 OK, 1 PAN_FULL, 2 DENIED (R178). -/
def State.assignAddr (s : State) (j : JoinInfo) : Nat × Nat :=
  let used := s.mesh.addrs ++ s.mesh.addrWait.map (fun w => (w.eui, w.short))
  let free (a : Nat) : Bool := !(used.any (fun u => u.2 == a))
  match used.find? (fun u => u.1 == j.eui) with
  | some u => (0, u.2)
  | none =>
    if !s.bit E4.meshCfg 2 && j.code / 8 % 2 == 0 then (2, 0xFFFE)
    else if 2 ≤ j.short && j.short ≤ 0x0FFE && free j.short then (0, j.short)
    else match (List.range 0xFFD).find? (fun k => free (k + 2)) with
      | some k => (0, k + 2)
      | none => (1, 0xFFFE)

/-- A JOIN_RESP on its way: to the joiner from its parent, else towards the parent that relayed the request (R169, R179). -/
def State.sendResp (s : State) (j : JoinInfo) : State :=
  if j.parent = s.meshAddr then s.sendJoin 4 s.meshAddr j.short 0xFFFE j.eui j
  else match s.routeTo j.parent with
    | some n => s.sendJoin 4 s.meshAddr j.parent n 0 j
    | none => s.err E4.page 0x0100 (BitVec.ofNat 32 j.parent)

/-- A JOIN_RESP reaches the parent that relayed it: an OK answer enters the child, and the response goes to the joiner
without waiting for a poll (R179). -/
def State.respAtParent (s : State) (j : JoinInfo) : State :=
  match s.mesh.pendKids.find? (fun p => p.eui == j.eui) with
  | none => s
  | some p =>
    let s1 := s.onMesh (fun m => { m with pendKids := m.pendKids.filter (fun x => x.eui != j.eui) })
    let s2 := if j.code = 0 then s1.enterChild j.eui j.short p.caps j.poll else s1
    s2.sendResp j

/-- The coordinator answers a JOIN_REQ (R178): an OK answer waits for its table entry's write; the others go at once. -/
def State.coordAnswer (s : State) (j : JoinInfo) (parent : Nat) : State :=
  let (st, a) := s.assignAddr j
  let ans : JoinInfo := { eui := j.eui, short := a, code := st, poll := legalPoll j.poll, parent := parent }
  if st = 0 then s.onMesh (fun m => { m with addrWait := ans :: m.addrWait.filter (fun w => w.eui != j.eui) })
  else
    let s1 := if st = 1 then s.raise E4.page 13 else s
    if parent = s.meshAddr then s1.respAtParent ans else s1.sendResp ans

/-- ADDRESS_TABLE_WRITE_DONE: the entry is in the persistent record store, which a supply warning on die E holds up, and the
OK answer is sent (R125, R178). -/
def execAddressTableWriteDone (eui : Nat) (s : State) : Host.Outcome State Fault Refusal :=
  match s.mesh.addrWait.find? (fun w => w.eui == eui) with
  | none => .next s
  | some j =>
    if s.supplyWarn .e then .next s
    else
      let s1 := s.onMesh (fun m => { m with addrs := (j.eui, j.short) :: m.addrs.filter (fun u => u.1 != eui),
                                            addrWait := m.addrWait.filter (fun w => w.eui != eui) })
      if j.parent = s.meshAddr then .next (s1.respAtParent j) else .next (s1.sendResp j)

/-- JOIN_REQ: a parent without room answers PARENT_FULL, one with room relays it and holds a pending entry; the coordinator
answers a relayed request, and is parent itself to one that comes direct (R178, R179). `parent` is the relaying router, or
0xFFFE for a request straight from the joiner. -/
def execJoinReq (j : JoinInfo) (s : State) : Host.Outcome State Fault Refusal :=
  match s.takeAuth with
  | none => .next s
  | some (x, s0) =>
    let src := x.src
    if s.banked then .next s0
    else if j.parent = 0xFFFE then
      if s.parentFull j.code then
        .next (s0.sendJoin 4 s.meshAddr 0xFFFE 0xFFFE j.eui
          { eui := j.eui, short := 0xFFFE, code := 3, poll := legalPoll j.poll, parent := s.meshAddr })
      else
        let p : PendChild := { eui := j.eui, caps := j.code, poll := legalPoll j.poll, since := s.mono }
        let s1 := s0.onMesh (fun m => { m with pendKids := p :: m.pendKids.filter (fun x => x.eui != j.eui) })
        if s.isCoord then .next (s1.coordAnswer j s.meshAddr)
        else if s.parentUp then .next (s1.sendJoin 3 s.meshAddr 0x0001 s.parentAddr 0 j)
        else .next (s0.err E4.page 0x0100 1)
    else
      let s1 := if (s.child src).isSome then s0.routeSet j.parent src else s0
      if s.isCoord then .next (s1.coordAnswer j j.parent)
      else if s.parentUp then .next (s1.sendJoin 3 j.parent 0x0001 s.parentAddr 0 j)
      else .next (s1.err E4.page 0x0100 1)

/-- The joiner takes its address: JOINED (R179). Its cost and depth follow its parent's (R177). DEDUCED, log 109: with a new parent no two-way
exchange has run, and its beacons are applied without a path delay until one has (R86). -/
def State.joined (s : State) (h : ScanHit) (short steps : Nat) : State :=
  let s1 := (s.wr E4.meshAddr (BitVec.ofNat 32 short)).wr E4.parentStat
    (BitVec.ofNat 32 (h.src + psJoined * 2 ^ 16 + (h.depth + 1) % 16 * 2 ^ 24))
  (s1.onMesh (fun m => { m with
    join := { m.join with target := none }
    parent := { m.parent with
      pred := h.ntime + ((s.now .e - h.ntime) / (h.bcnInt * 100000000) + 1) * (h.bcnInt * 100000000)
      heard := s.now .e
      bcnInt := h.bcnInt
      cost := min h.cost 0xFFFE
      widened := 0
      grace := none
      delay := if h.src = s.parentAddr then m.parent.delay else 0
      steps := steps } })).raise E4.page 0

/-- JOIN_RESP: at the joiner it gives the address or fails; at the parent that relayed the request it enters the child; else it
is routed on (R179). -/
def execJoinResp (j : JoinInfo) (s : State) : Host.Outcome State Fault Refusal :=
  match s.takeAuth with
  | none => .next s
  | some (_, s0) =>
    if j.eui = ownEui then
      match s.mesh.join.target with
      | some (h, _) => if j.code = 0 then .next (s0.joined h j.short s.mesh.parent.steps) else .next (s0.joinFail j.code)
      | none => .next s0
    else if j.parent = s.meshAddr then .next (s0.respAtParent j)
    else if s.banked then .next s0
    else .next ((s0.routeSet j.short ((s.routeTo j.parent).getD j.parent)).sendResp j)

/-- LEAVE: the route table takes the neighbour it passed through (R181), a parent removes the child and routes the LEAVE to the coordinator,
which frees the address; one of reason NOT_CHILD from the parent makes a router rejoin (R164, R180). -/
def execLeave (j : JoinInfo) (s : State) : Host.Outcome State Fault Refusal :=
  match s.takeAuth with
  | none => .next s
  | some (x, sa) =>
    let s0 := if (s.child x.src).isSome then sa.routeSet j.short x.src else sa
    if j.code = 1 then
      if s.isRouter && x.src = s.parentAddr then .next sa.scanStart else .next sa
    else
      let s1 := if (s.child j.short).isSome then s0.dropChild j.short else s0
      if s.isCoord then .next (s1.onMesh (fun m => { m with addrs := m.addrs.filter (fun u => u.2 != j.short) }))
      else if s.banked then .next s1
      else if s.parentUp then .next (s1.sendJoin 5 j.short 0x0001 s.parentAddr 0 j)
      else .next (s1.err E4.page 0x0100 1)

/-- POLL: a Data Request of a stranger is answered with LEAVE NOT_CHILD, which names it; a child is heard (R171, R180, R183). -/
def execPoll (s : State) : Host.Outcome State Fault Refusal :=
  match s.takeAuth with
  | none => .next s
  | some (x, s0) =>
    if (s.child x.src).isSome then .next (s0.hear x.src)
    else if s.banked then .next s0
    else .next (s0.sendJoin 5 s.meshAddr x.src x.src 0 { eui := x.eui, short := x.src, code := 1, poll := 0, parent := 0 })

/-- ADDR_CMD: FREE on the coordinator frees an address; on another role it is refused as ADDR_CMD_BAD (R164, R180). -/
def State.addrCmd (s : State) (r : Requester) (w : Word) : State :=
  s.cmdWrite r E4.addrCmd (fun t =>
    if t.isCoord && bitsOf w 19 16 == 1 then
      t.onMesh (fun m => { m with addrs := m.addrs.filter (fun u => u.2 != bitsOf w 15 0) })
    else t.err E4.page 0x0105 w)

/-- ADDR_FREE (R180). -/
def execAddrFree (r : Requester) (w : Word) (s : State) : Host.Outcome State Fault Refusal := .next (s.addrCmd r w)

/-! ## Following the parent (R174 to R176, R86) -/

/-- BEACON_RX: a beacon of another PROTO is none of the mesh's (R170); a scan collects senders of its PAN; a beacon of the parent resets the miss count, may raise PARENT_BACK, renews
the path cost, and gives a one-way time correction with the path delay of the last exchange (R86, R174, R175, R177). -/
def execBeaconRx (b : BeaconRx) (s : State) : Host.Outcome State Fault Refusal :=
  match s.takeAuth with
  | none => .next s
  | some (x, s0) =>
    if b.proto ≠ 0xB7 || x.pan ≠ s.fld E4.panId 15 0 || !s.isRouter then .next s0
    else
      let hit : ScanHit := { src := x.src, chan := s.fld E3.chanSel 9 0, cost := b.cost + linkCost b.rssi, depth := b.depth,
                             permit := b.flags.getLsbD 0, ntime := b.ntime, bcnInt := b.bcnInt }
      let s1 := if s.parentState = psScanning && b.cost < 0xFFFF then
          s0.onMesh (fun m => { m with join := { m.join with hits := hit :: m.join.hits.filter (fun y => y.src != x.src) } })
        else s0
      let follows := s.parentState == psJoined || s.parentState == psWidened
      if follows && x.src = s.parentAddr then
        let t := x.stamp
        let s2 := (s1.onMesh (fun m => { m with parent := { m.parent with
          pred := b.ntime + b.bcnInt * 100000000, heard := t, bcnInt := b.bcnInt
          cost := min (b.cost + linkCost b.rssi) 0xFFFE, widened := 0, grace := none } })).setFld E4.parentStat 23 20 0
        let s3 := (s2.setFld E4.parentStat 27 24 ((b.depth + 1) % 16)).setParentState psJoined
        let s4 := if s.parentState = psWidened then s3.raise E4.page 2 else s3
        let ofs : Int := (t : Int) - ((b.ntime : Int) + s.mesh.parent.delay)
        .next (s4.measure 11 ofs 0 s.mesh.parent.steps (b.flags.getLsbD 1) false (s.rd C2.utcOffset).toInt)
      else .next s1

/-- Half-width of the window of a predicted beacon (R174, R175). -/
def State.bcnWindow (s : State) : Nat :=
  let p := s.mesh.parent
  (2000000 + (p.pred - p.heard) * 40 / 1000000) * (if p.widened = 0 then 1 else 4)

/-- In EMBER the radio opens a window for the parent's beacon: it listens from P − W, for which the crystal starts ahead, and the synthesiser
settles (R106, R174, R193). DEDUCED, log 108: a radio that listens anyway has no window to open. -/
def State.windowOpen (s : State) : State :=
  let p := s.mesh.parent
  if s.pstate = 1 && s.meshOn && (s.parentState == psJoined || s.parentState == psWidened) && s.sgEnabled && (s.sg == sgSleep || s.sg == sgIdle)
      && s.mesh.window.isNone && s.sub.prepared.isNone && decide (p.pred ≤ s.now .e + s.bcnWindow + 5000000) then
    (s.onMesh (fun m => { m with window := some (p.pred + s.bcnWindow, s.sg) })).sgToListen
  else s

/-- The window ends at P + W: the radio goes back to the state it was opened from, and the Ember engine needs the crystal no longer (R174). -/
def State.windowClose (s : State) : State :=
  match s.mesh.window with
  | some (t, back) =>
    if s.now .e < t then s
    else
      let s1 := (s.onMesh (fun m => { m with window := none })).oscUser 2 false
      if s.sg == sgListen then (if back = sgSleep then s1.sgToSleep else s1.sgToIdle) else s1
  | none => s

/-- BEACON_WINDOW_END: an open window closes (R174). A predicted beacon not received by its window's end is missed (R175): the third miss
raises PARENT_LOST and starts the grace of 600 s; after three widened windows the scan begins. -/
def execBeaconWindowEnd (s0 : State) : Host.Outcome State Fault Refusal :=
  let s := s0.windowClose
  let p := s.mesh.parent
  if !(s.parentState == psJoined || s.parentState == psWidened) || s.now .e < p.pred + s.bcnWindow then .next s
  else
    let s1 := (s.bump E4.bcnCnt 31 16 1).onMesh (fun m => { m with parent := { m.parent with pred := p.pred + p.bcnInt * 100000000 } })
    if 0 < p.widened then
      let s2 := s1.onMesh (fun m => { m with parent := { m.parent with widened := p.widened - 1 } })
      if p.widened = 1 then .next s2.scanStart else .next s2
    else
      let missed := s.fld E4.parentStat 23 20 + 1
      let s2 := s1.setFld E4.parentStat 23 20 missed
      if missed = 3 then
        .next (((s2.onMesh (fun m => { m with parent := { m.parent with widened := 3, grace := some (s.mono + secNs 600) } })).setParentState
          psWidened).raise E4.page 1)
      else .next s2

/-- ADDR_LOST: the grace ends with no parent: the address, the children and the indirect queue are discarded, and the node
joins afresh (R175, R176). -/
def execAddrLost (s : State) : Host.Outcome State Fault Refusal :=
  match s.mesh.parent.grace with
  | some g =>
    if s.meshOn && g ≤ s.mono && s.parentState != psJoined then
      let s1 := (s.wr E4.meshAddr 0xFFFE).onMesh (fun m => { m with
        children := []
        indq := []
        pendKids := []
        owed := none
        parent := { m.parent with grace := none, widened := 0 } })
      .next (((s1.engCancel false).scanStart.raise E4.page 3).meshShow)
    else .next s
  | none => .next s

/-- GRACE_LEFT: seconds of rejoin grace remaining, rounded up (R197). -/
def State.graceLeft (s : State) : Nat :=
  match s.mesh.parent.grace with
  | some g => (g - s.mono + 999999999) / 1000000000
  | none => 0

/-- TT_SUB_EXCHANGE: die E runs a two-way exchange with its parent every TT_SUB_INT: its TT_REQ is armed at an instant of the Ember engine's
choosing that its lead time allows, within a second: free (R86, R91, R172). -/
def execTtSubExchange (s : State) : Host.Outcome State Fault Refusal :=
  if s.meshOn && s.parentUp && decide (s.mesh.lastTt + secNs (s.fld E8.eTimeCfg 27 16) ≤ s.mono) then
    let seq := s.time.ttSeq
    let s1 := { s with time := { s.time with ttSeq := (seq + 1) % 65536 } }
    .next (s1.draw (fun i u =>
      (u.engArm 7 6 (u.now .e + (u.leadNs (.rf 7)).toNat + Config.freeNat i % secNs 1) (u.psduLen 64 0) (.ttReq seq)).onMesh
        (fun m => { m with lastTt := s.mono })))
  else .next s

/-- A TT_REQ received on the mesh is answered with a TT_RESP whose SFD ends 10 ms after t2, armed on RF_ACT[7]; the crystal is held until it
has left (R91, R172). -/
def State.ttMeshServe (s : State) (seq t1 : Nat) : State :=
  match s.takeAuth with
  | none => s
  | some (x, s0) =>
    if (s.pendAct (.rf 6)).isSome && (s.pendAct (.rf 7)).isSome then s0
    else (s0.oscUser 2 true).engArm 7 6 (x.stamp + 10000000 - s.sfdNs) (s.psduLen 64 0) (.ttResp x.src seq t1 x.stamp)

/-! ## Keys and actions (R192, R198) -/

/-- MESH_KEY_OVERLAP_END: frames under the previous key stop being accepted (R192). -/
def execMeshKeyOverlapEnd (s : State) : Host.Outcome State Fault Refusal :=
  match s.mesh.prevKey with
  | some p => if p.2 ≤ s.mono then .next (s.onMesh (fun m => { m with prevKey := none })) else .next s
  | none => .next s

/-- KEY_SWITCH: NEXT becomes CUR, NEXT_VALID clears, the previous key stays for KEY_OVERLAP, and KEY_SWITCHED is raised
(R192). -/
def State.meshKeySwitch (s : State) : State :=
  let old := s.fld E4.keySel 3 0
  let s1 := (s.setFld E4.keySel 3 0 (s.fld E4.keySel 7 4)).setBit E4.keySel 8 false
  ((s1.onMesh (fun m => { m with prevKey := some (old, s.mono + secNs (s.fld E4.meshSec 15 8)) })).meshShow).raise E4.page 8

/-- What a mesh action does at its instant (R198); none while the mesh is disabled, and for a KEY_SWITCH with NEXT_VALID 0. A BEACON_NOW has
been done when its beacon, armed for the same instant, is sent; none where no beacon could be armed for it (R172). -/
def meshPerform (a : PendAct) (s : State) : Option State :=
  if !s.meshOn then none
  else match bitsOf a.desc 2 0 with
    | 0 => if s.bit E4.keySel 8 then some s.meshKeySwitch else none
    | 1 => some (s.setBit E4.meshCfg 2 true)
    | 2 => some (s.setBit E4.meshCfg 2 false)
    | _ => if s.beaconArmed (s.actTime a) || s.mesh.lastBcn = some (s.actTime a) then some s else none

/-- A mesh action of a kind at its T (R94). -/
def State.meshActAtT (s : State) (i : Fin 2) (k : Nat) : State :=
  match s.pendAct (.mesh i) with
  | some a => if bitsOf a.desc 2 0 = k then s.actAtT (.mesh i) meshPerform else s
  | none => s

/-- MESH_KEY_SWITCH (R192). -/
def execMeshKeySwitch (i : Fin 2) (s : State) : Host.Outcome State Fault Refusal := .next (s.meshActAtT i 0)

/-- PERMIT_ON (R198). -/
def execPermitOn (i : Fin 2) (s : State) : Host.Outcome State Fault Refusal := .next (s.meshActAtT i 1)

/-- PERMIT_OFF (R198). -/
def execPermitOff (i : Fin 2) (s : State) : Host.Outcome State Fault Refusal := .next (s.meshActAtT i 2)

/-- BEACON_NOW (R198). -/
def execBeaconNow (i : Fin 2) (s : State) : Host.Outcome State Fault Refusal := .next (s.meshActAtT i 3)

/-! ## Starting and stopping (R162, R177, R197) -/

/-- The mesh as its role and enable now stand: while it runs MODE_CFG[0] is at 50 kb/s and 2-FSK (R167), the coordinator holds address
0x0001 and no other node does (R163), and a router without a parent scans; a disabled mesh holds nothing under way (R162, R197). -/
def State.meshRestart (s : State) (wasOn : Bool) (wasRole : Nat) : State :=
  if !s.meshOn then
    if wasOn then
      ((s.engCancel true).setFld E4.parentStat 19 16 psNone).onMesh (fun m => { m with
        txq := []
        rebro := []
        owed := none
        rxd := none
        auth := none
        extraBcn := none
        window := none
        parent := { m.parent with grace := none, widened := 0 }
        join := { m.join with hits := [], target := none } })
    else s
  else
    let s1 := if wasOn then s else s.wr (E3.modeCfg 0) (putFld (s.rd (E3.modeCfg 0)) 3 0 0)
    if wasOn && wasRole = s.fld E4.meshCfg 1 0 then s1
    else if s.isCoord then (s1.wr E4.meshAddr 0x0001).wr E4.parentStat 0
    else (if s.meshAddr = 0x0001 then s1.wr E4.meshAddr 0xFFFE else s1).scanStart

/-- A write of MESH_CFG, direct or as a group share. -/
def State.setMeshCfg (s : State) (w : Word) : State := (s.wr E4.meshCfg w).meshRestart s.meshOn (s.fld E4.meshCfg 1 0)

/-- A change of PAGE_CTRL.ENABLE of the mesh page. -/
def State.meshEnableChange (s : State) (wasOn : Bool) : State := s.meshRestart wasOn (s.fld E4.meshCfg 1 0)

end Sys2Proof.Machine
end

