-- ==== Sys2Proof/Machine/TxnCore.lean ====
section
/-!
DEFINITION. The transaction unit: slots and tags, opening, committing, aborting and releasing a group, the votes, the loss of a
participant, the discard of groups when die C leaves, and staged table operations (R29 to R32, R54 to R68, R460). Staging a
register write, PREP and the application at T are in Txn.lean, after the register engine.
-/
namespace Sys2Proof.Machine

/-! ## Slots and tags (R55, R63) -/

/-- State codes of R62. -/
def GState.code : GState → Nat
  | .free => 0 | .opened => 1 | .committed => 2 | .armed => 3 | .go => 4
  | .complete => 5 | .aborted => 6 | .held => 7 | .frozen => 8 | .waitSupply => 9

/-- Reason codes of R63. -/
def rsnMissed : Nat := 1
def rsnFar : Nat := 2
def rsnPast : Nat := 3
def rsnState : Nat := 4
def rsnClamp : Nat := 5
def rsnGuard : Nat := 6
def rsnParticipant : Nat := 7
def rsnSupply : Nat := 8
def rsnConflict : Nat := 9
def rsnLimit : Nat := 10
def rsnHost : Nat := 11
def rsnTableFull : Nat := 12
def rsnDieLost : Nat := 13

/-- A group slot. -/
def State.group (s : State) (n : Fin 16) : Group := s.txu.groups.getD n.val Group.empty

/-- The state with a group slot replaced. -/
def State.setGroup (s : State) (n : Fin 16) (g : Group) : State := { s with txu := { s.txu with groups := s.txu.groups.set n.val g } }

/-- A slot's current or last tag; 0 before its first opening (R55, R63). -/
def Group.tag (g : Group) (n : Fin 16) : Nat := if g.gen = 0 then 0 else n.val * 256 + g.gen

/-- The slot a tag names. -/
def tagSlot (tag : Nat) : Fin 16 := ⟨tag / 256 % 16, by omega⟩

/-- The slot of a tag of the slot's current generation, unless it is FREE (R62). -/
def State.tagGroup (s : State) (tag : Nat) : Option (Fin 16) :=
  let n := tagSlot tag
  let g := s.group n
  if g.state ≠ .free ∧ g.gen = tag % 256 then some n else none

/-- TXN_STAT of a slot (R63). -/
def Group.stat (g : Group) (n : Fin 16) : Word :=
  BitVec.ofNat 32 (g.tag n + g.state.code * 2 ^ 12 + g.reason % 256 * 2 ^ 16 + b2n g.late * 2 ^ 24 + b2n g.unlocked * 2 ^ 25
    + b2n g.clamped * 2 ^ 26 + b2n g.abortLate * 2 ^ 27 + b2n g.supply * 2 ^ 28 + b2n g.allowClamp * 2 ^ 29 + g.policy % 4 * 2 ^ 30)

/-- TXN_COUNTS of a slot (R68). -/
def Group.counts (g : Group) : Word := BitVec.ofNat 32 (g.writes.length + g.tables.length * 2 ^ 16)

/-- TXN_INFO of a die, page number and register offset (R63). -/
def txnInfo (die page off : Nat) : Word := BitVec.ofNat 32 (die + page * 2 ^ 8 + off * 2 ^ 16)

/-- TXN_INFO of a BAR0 offset. -/
def infoAt (a : Nat) : Word := txnInfo (winCode (winOf a)) (pageNo a) (a % 0x10000)

/-- Groups that are not FREE (R68). -/
def State.openCount (s : State) : Nat := (s.txu.groups.filter (fun g => g.state != .free)).length

/-- A requester's TXU registers (R56). -/
def State.txuPort (s : State) (r : Requester) : TxuPort :=
  (s.txu.ports.find? (fun (p : TxuPort) => p.req == r)).getD { req := r, opened := 0, atimeS := 0, atimeNs := 0 }

/-- A requester's TXU registers replaced. -/
def State.setTxuPort (s : State) (p : TxuPort) : State :=
  { s with txu := { s.txu with ports := p :: s.txu.ports.filter (fun (q : TxuPort) => q.req != p.req) } }

/-- TXN_NOT_OPEN on the TXU page, with the tag written (R62). -/
def State.txnNotOpen (s : State) (tag : Nat) : State := s.err C1.page 6 (BitVec.ofNat 32 tag)

/-- The TXU runs: die C is in STANDBY or RUN, and the part is the master; a subordinate's TXU page reads 0 (R30, R67). -/
def State.txuRuns (s : State) : Bool := s.cRuns && s.isMaster

/-! ## Participants (R29, R460) -/

/-- Size of a part's BAR0 space, by which staged writes on a subordinate are offset. -/
def partSpan : Nat := 0x4000000

/-- The part and die a staged write belongs to. -/
def StagedWrite.owner (w : StagedWrite) : Nat × Die := (w.addr / partSpan, dieOf (w.addr % partSpan))

/-- A die of a part takes part in the group; table operations are die C's. -/
def Group.has (g : Group) (p : Nat) (d : Die) : Bool :=
  g.writes.any (fun w => w.owner == (p, d)) || (p == 0 && d == .c && !g.tables.isEmpty)

/-- The participants, in the order of part and die code. -/
def Group.participants (g : Group) : List (Nat × Die) :=
  (List.range 4).flatMap (fun p => (allDies.filter (fun d => g.has p d)).map (fun d => (p, d)))

/-- A participant lies on a subordinate part (R460). -/
def Group.remote (g : Group) : Bool := g.writes.any (fun w => decide (partSpan ≤ w.addr))

/-- The pages of this part that the group has staged on. -/
def Group.pages (g : Group) : List Nat :=
  ((g.writes.filter (fun w => decide (w.addr < partSpan))).map (fun w => pageOf w.addr) ++ g.tables.map (fun t => pageOf t.reg)).eraseDups

/-- Signed ns from die C's local time to a group's T; a group in GO completes on the scale it was named on (R97). -/
def State.groupDiff (s : State) (g : Group) : Int := atimeDiff g.tS g.tNs ((s.now .c : Int) - g.shift).toNat

/-- The group's cancels have closed, at T minus 2 µs with GO and no CANCEL (R29). -/
def State.groupClosed (s : State) (g : Group) : Bool := g.state == .go && (g.closed || decide (s.groupDiff g < 2000))

/-! ## Endings (R62 to R64) -/

/-- The table space that a group has reserved is freed, and its marks are cleared (R335). -/
def State.tableAbort (s : State) (n : Fin 16) : State :=
  { s with fwd := { s.fwd with
      em := { s.fwd.em with slots := s.fwd.em.slots.filter (fun (e : EmSlot) => e.pend != some n) }
      lpm := { s.fwd.lpm with staged := s.fwd.lpm.staged.filter (fun x => x.1 != n) } } }

/-- A group reaches COMPLETE or ABORTED: GROUP_DONE when it was opened with NOTIFY (R68). -/
def State.groupEnd (s : State) (n : Fin 16) (g : Group) : State :=
  let s1 := s.setGroup n { g with armedBy := [], shadowed := [], found := [], closed := false, shift := 0 }
  if g.notify then s1.raise C1.page 0 else s1

/-- The group aborts: INT_RAW.TXN on every page it has staged on (R40), reserved table space freed, status and event. A
participant's armed share is withdrawn by CANCEL (R29). -/
def State.abortGroup (s : State) (n : Fin 16) (reason : Nat) (info : Word) : State :=
  let g := s.group n
  let s1 := g.pages.foldl (fun t p => if t.reachable p then t.raise p 29 else t) (s.tableAbort n)
  let s2 := if g.armedBy.isEmpty then s1 else s1.emit (.commit 4 n.val)
  s2.groupEnd n { g with state := .aborted, reason := reason, info := info }

/-- A write or a table command that a group stages is refused, and aborts it: INT_RAW.TXN on the page of the register too (R40,
R57, R58, R60). -/
def State.refuseStaged (s : State) (n : Fin 16) (reason a : Nat) : State :=
  (if decide (partSpan ≤ a) || (s.group n).pages.contains (pageOf a) then s else s.raise (pageOf a) 29).abortGroup n reason (infoAt (a % partSpan))

/-- The group waits outside the protocol: its armed shares and reserved table space are withdrawn. -/
def State.parkGroup (s : State) (n : Fin 16) (g : Group) : State := (s.tableAbort n).setGroup n { g with armedBy := [], shadowed := [], found := [], closed := false }

/-! ## Opening, committing, aborting, releasing (R55, R61 to R64) -/

/-- TXN_OPEN: the lowest free slot, with its next generation; else NO_GROUP with the open count (R55). -/
def State.openGroup (s : State) (r : Requester) (w : Word) : State :=
  match (List.finRange 16).find? (fun n => (s.group n).state == .free) with
  | some n =>
    let gen := nextGen (s.group n).gen
    let g : Group := { Group.empty with gen := gen, state := .opened, allowClamp := bitOf w 0, notify := bitOf w 1 }
    (s.setGroup n g).setTxuPort { s.txuPort r with opened := BitVec.ofNat 32 (2 ^ 31 + n.val * 256 + gen) }
  | none => (s.setTxuPort { s.txuPort r with opened := 0 }).err C1.page 9 (BitVec.ofNat 32 s.openCount)

/-- A group is taken up: COMMITTED and PREP leaves, or FROZEN while EPOCH_PEND is set (R61, R97). -/
def State.taken (s : State) (n : Fin 16) (g : Group) : State :=
  if s.epochPend then s.setGroup n { g with state := .frozen }
  else (s.setGroup n { g with state := .committed }).emit (.commit 1 n.val)

/-- A group whose T is FAR or PAST: a committing one stays as it is, a frozen one returns to OPEN (R61, R98). -/
def State.returnGroup (s : State) (n : Fin 16) (g : Group) (reason : Nat) : State :=
  if g.state = .opened ∨ g.state = .held then s.setGroup n { g with reason := reason }
  else s.parkGroup n { g with state := .opened, reason := reason }

/-- A group as its commit leaves it before it is judged. -/
def Group.timed (g : Group) (tS tNs policy : Nat) : Group :=
  { g with policy := policy, tS := tS, tNs := tNs, reason := 0, info := 0, shift := 0, closed := false }

/-- What follows the judgement of T: FAR and PAST return the group; one on time is taken up; a late one follows its policy (R61, R62). -/
def State.groupJudged (s : State) (n : Fin 16) (g : Group) (tS tNs policy : Nat) : Judgement → State
  | .far => s.returnGroup n g rsnFar
  | .past => s.returnGroup n g rsnPast
  | .ahead => s.taken n (g.timed tS tNs policy)
  | .late =>
    if policy = 1 then
      s.taken n { g.timed tS tNs policy with tS := sec32 (s.now .c + 1000000), tNs := nsOf (s.now .c + 1000000), late := true }
    else if policy = 2 then s.parkGroup n { g.timed tS tNs policy with state := .held }
    else (s.setGroup n (g.timed tS tNs policy)).abortGroup n rsnMissed 0

/-- The judgement of T at a commit, or again after TIME_STEP, TIME_KEEP or TIME_SET, and what follows (R61, R62, R97, R98). -/
def State.judgeGroup (s : State) (n : Fin 16) (g : Group) (tS tNs policy : Nat) : State :=
  s.groupJudged n g tS tNs policy (judge (atimeDiff tS tNs (s.now .c)) 1000000)

/-- TXN_COMMIT of a tag with a policy, T being the writer's ATIME registers (R56, R61, R62). -/
def State.commitGroup (s : State) (r : Requester) (v : Nat) : State :=
  let tag := v % 4096
  match s.tagGroup tag with
  | none => s.txnNotOpen tag
  | some n =>
    let g := s.group n
    if g.state = .opened ∨ g.state = .held then
      let p := s.txuPort r
      s.judgeGroup n g p.atimeS.toNat p.atimeNs.toNat (v / 4096 % 4)
    else s.txnNotOpen tag

/-- A TXN_ABORT of a group with an armed T counts when it arrives by T minus 4 µs, or T minus 5 µs with a subordinate
participant; later the group completes with ABORT_LATE (R64, R460). -/
def State.timedAbort (s : State) (n : Fin 16) (g : Group) : State :=
  if (if g.remote then (5000 : Int) else 4000) ≤ s.groupDiff g then s.abortGroup n rsnHost 0
  else s.setGroup n { g with abortLate := true }

/-- TXN_ABORT of a tag (R62, R64, R460). -/
def State.hostAbort (s : State) (tag : Nat) : State :=
  match s.tagGroup tag with
  | none => s.txnNotOpen tag
  | some n =>
    let g := s.group n
    match g.state with
    | .aborted => s
    | .complete => s.setGroup n { g with abortLate := true }
    | .committed => s.timedAbort n g
    | .armed => s.timedAbort n g
    | .go => s.timedAbort n g
    | _ => s.abortGroup n rsnHost 0

/-- TXN_RELEASE of a tag: the slot is FREE, and its registers read 0 but for the tag (R62, R63). -/
def State.releaseGroup (s : State) (tag : Nat) : State :=
  match s.tagGroup tag with
  | none => s.txnNotOpen tag
  | some n =>
    let g := s.group n
    if g.state = .complete ∨ g.state = .aborted then s.setGroup n { Group.empty with gen := g.gen } else s.txnNotOpen tag

/-- TXN_OPEN (R55). -/
def execTxnOpen (r : Requester) (w : Word) (s : State) : Host.Outcome State Fault Refusal :=
  .next (s.cmdWrite r C1.txnOpen (fun t => if t.txuRuns then t.openGroup r w else t))

/-- TXN_OPENED: a read answers the requester's tag and clears it (R55, R56). -/
def execTxnOpened (r : Requester) (s : State) : Host.Outcome State Fault Refusal :=
  if !s.reachable C1.page then .next ((s.accessOff C1.txnOpened).answer [0])
  else if !s.isMaster then .next (s.answer [0])
  else
    let p := s.txuPort r
    .next ((s.setTxuPort { p with opened := 0 }).answer [p.opened])

/-- TXN_COMMIT: a guarded word; a policy code of 3 or a set bit 15:14 is rejected (R61). The register reads the last word it accepted,
of whichever requester, whatever became of the command (R8). -/
def execTxnCommit (r : Requester) (w : Word) (s : State) : Host.Outcome State Fault Refusal :=
  .next (s.guardWrite r C1.txnCommit w (fun v t =>
    if !t.txuRuns then t
    else if v / 4096 % 4 = 3 then t.guardRange C1.txnCommit 13 12 3 (t.fld C1.txnCommit 13 12)
    else if v / 16384 ≠ 0 then t.guardRange C1.txnCommit 15 14 (v / 16384) 0
    else (t.accept C1.txnCommit v).commitGroup r v))

/-- TXN_ABORT: a guarded word whose bits 15:12 are 0 (R64). The register reads the last word it accepted (R8). -/
def execTxnAbort (r : Requester) (w : Word) (s : State) : Host.Outcome State Fault Refusal :=
  .next (s.guardWrite r C1.txnAbort w (fun v t =>
    if !t.txuRuns then t
    else if v / 4096 ≠ 0 then t.guardRange C1.txnAbort 15 12 (v / 4096) 0
    else (t.accept C1.txnAbort v).hostAbort v))

/-- TXN_RELEASE (R62, R63). -/
def execTxnRelease (r : Requester) (w : Word) (s : State) : Host.Outcome State Fault Refusal :=
  .next (s.cmdWrite r C1.txnRelease (fun t => if t.txuRuns then t.releaseGroup (bitsOf w 11 0) else t))

/-- TXN_TAG of a requester on a page: 0, or the tag of an OPEN group; another tag leaves 0 and is recorded (R56). On a
subordinate part only the cascade requester names groups, which are the master's (R458). -/
def State.writeTag (s : State) (r : Requester) (p : Nat) (w : Word) : State :=
  let tag := bitsOf w 11 0
  let known := if s.isMaster then (match s.tagGroup tag with
      | some n => (s.group n).state == .opened
      | none => false) else r == .casc
  if tag = 0 then s.setTag r p 0
  else if known then s.setTag r p tag
  else (s.setTag r p 0).err p 6 (BitVec.ofNat 32 tag)

/-- TXN_TAG_WRITE (R56). -/
def execTxnTagWrite (r : Requester) (page : Nat) (w : Word) (s : State) : Host.Outcome State Fault Refusal :=
  if s.reachable page then .next (s.writeTag r page w) else .next (s.accessOff (page + 0x40))

/-! ## Supply warnings and lost participants (R28, R32, R66, R461) -/

/-- A group that a supply warning alone stops, at the vote or before the close, follows its policy (R32). -/
def State.supplyStop (s : State) (n : Fin 16) (info : Word) : State :=
  let g := s.group n
  if g.policy = 1 then s.setGroup n { g with state := .waitSupply, supply := true, reason := rsnSupply, info := info, closed := false }
  else if g.policy = 2 then s.parkGroup n { g with state := .held, supply := true, reason := rsnSupply, info := info }
  else (s.setGroup n { g with supply := true }).abortGroup n rsnSupply info

/-- A die declares a supply warning: it sends CANCEL for every group in GO it takes part in, unless it comes too late to be
active at T, later than T minus 2 µs, or T minus 6 µs with a subordinate participant (R28, R29, R460). -/
def State.supplyCancel (s : State) (d : Die) : State :=
  (List.finRange 16).foldl (fun t n =>
    let g := t.group n
    if g.state = .go ∧ g.has 0 d = true ∧ (if g.remote then (6000 : Int) else 2000) ≤ t.groupDiff g then
      (t.emit (.commit 4 n.val)).supplyStop n (txnInfo (dieCode d) 0 0)
    else t) s

/-- A participant is lost: before the close the group aborts as DIE_LOST, after it the group completes with that reason
(R66, R461). -/
def State.groupsLose (s : State) (part : Nat) (d : Option Die) (info : Word) : State :=
  (List.finRange 16).foldl (fun t n =>
    let g := t.group n
    let hit := match d with
      | some x => g.has part x
      | none => g.writes.any (fun w => w.addr / partSpan == part)
    if !hit then t
    else if t.groupClosed g then
      if part = 0 then t.setGroup n { g with reason := rsnDieLost, info := info } else t
    else match g.state with
      | .committed => t.abortGroup n rsnDieLost info
      | .armed => t.abortGroup n rsnDieLost info
      | .go => t.abortGroup n rsnDieLost info
      | .frozen => t.abortGroup n rsnDieLost info
      | .waitSupply => t.abortGroup n rsnDieLost info
      | _ => t) s

/-- A state in which a group is discarded when die C leaves: live, and not past its close (R66). -/
def GState.live : GState → Bool
  | .free => false
  | .complete => false
  | .aborted => false
  | _ => true

/-- Die C leaves STANDBY or RUN: die E keeps its armed share of a closed group, the other live groups are discarded and
recorded on die E, and the TXU's state is lost (R66). Groups that go at once are taken in the order of their slots, so that the last one,
whose tag DISC_STAT keeps, is the one of the highest slot (DESIGN CHOICE, log 92). -/
def State.discardGroups (s : State) : State :=
  let all := (List.finRange 16).map (fun n => (n, s.group n))
  let kept := (all.filter (fun x => s.groupClosed x.2)).map (fun x =>
    ({ slot := x.1, tS := x.2.tS, tNs := x.2.tNs, writes := x.2.writes.filter (fun w => w.owner == (0, Die.e)) } : KeptShare))
  let gone := all.filter (fun x => x.2.state.live && !s.groupClosed x.2)
  let s1 := { s with txu := { groups := List.replicate 16 Group.empty, ports := [],
                              kept := s.txu.kept ++ kept.filter (fun k => !k.writes.isEmpty) } }
  match gone.getLast? with
  | none => s1
  | some (n, g) =>
    let a := DC.discStat (dieWin .e)
    let s2 := ((s1.bump a 7 0 gone.length).setFld a 19 8 (g.tag n)).setBit a 31 true
    (s2.err (dieWin .e) 0x0101 (BitVec.ofNat 32 (g.tag n))).raise (dieWin .e) 1

/-! ## Staged table operations (R54, R58, R60, R335) -/

/-- The table and key of a staged INSERT or DELETE; a sweep has none. -/
def StagedTable.key (o : StagedTable) : Option (List Nat) :=
  if o.reg = C13.tblCmd then
    if bitsOf o.cmd 3 0 ≤ 2 then some (0 :: (o.data.take 5).map (fun w => w.toNat)) else none
  else
    let bits := if bitOf o.cmd 4 then 128 else 32
    let a := if bitOf o.cmd 4 then (o.data.take 4).foldl (fun n w => n * 2 ^ 32 + w.toNat) 0 else (o.data.getD 0 0).toNat
    some [1, bitsOf o.cmd 6 4, bitsOf o.cmd 14 8, a / 2 ^ (bits - bitsOf o.cmd 14 8)]

/-- An open group other than `n` has staged an operation on the same table and key (R58). -/
def State.tableConflict (s : State) (n : Fin 16) (o : StagedTable) : Bool :=
  o.key.isSome && (List.finRange 16).any (fun m => m != n && (s.group m).state.live && (s.group m).tables.any (fun x => x.key == o.key))

/-- A table command under a tag: staged in the group it names, which a conflict or the limit of 1,024 aborts (R58, R60); a
group that is not OPEN is recorded (R57). -/
def State.stageTable (s : State) (tag : Nat) (o : StagedTable) : State :=
  match s.tagGroup tag with
  | none => s.err (pageOf o.reg) 6 (BitVec.ofNat 32 tag)
  | some n =>
    let g := s.group n
    if g.state ≠ .opened then s.err (pageOf o.reg) 6 (BitVec.ofNat 32 tag)
    else if s.tableConflict n o then s.refuseStaged n rsnConflict o.reg
    else if 1024 ≤ g.tables.length then s.refuseStaged n rsnLimit o.reg
    else s.setGroup n { g with tables := g.tables ++ [o] }

/-- A write of a table command register: an operation that may be staged is, under a non-zero tag; every other one executes at
once (R54); an operation whose operands are refused is not staged. On a subordinate the tag is the master's, and the operation goes to its TXU (R458). -/
def State.tableWrite (s : State) (r : Requester) (o : StagedTable) (ok : Bool) (act : State → State) : State :=
  if !s.reachable o.reg then s.accessOff o.reg
  else if s.tagOf r (pageOf o.reg) = 0 || !ok then act s
  else if !s.isMaster then s
  else s.stageTable (s.tagOf r (pageOf o.reg)) o

/-- A table command that is never staged executes at once (R54). -/
def State.tableNow (s : State) (a : Nat) (act : State → State) : State := if s.reachable a then act s else s.accessOff a

end Sys2Proof.Machine
end

