-- ==== Sys2Proof/Machine/Tables.lean ====
section
/-!
DEFINITION. The tables of forwarding: the exact-match table with its relocations, walks and sweeps, the LPM table with its node
memory, next hops and VLANs, their commands, and what a commit group stages on them (R328 to R341, R347 to R349).
-/
namespace Sys2Proof.Machine

def State.onEm (s : State) (f : Em → Em) : State := { s with fwd := { s.fwd with em := f s.fwd.em } }
def State.onLpm (s : State) (f : Lpm → Lpm) : State := { s with fwd := { s.fwd with lpm := f s.fwd.lpm } }

/-! ## Per-requester registers (R332) -/

/-- Number of a requester among those that hold their own copies. -/
def reqNum : Requester → Nat
  | .pcie => 0
  | .spi => 1
  | .casc => 2
  | .engine n => 3 + n.val

/-- A requester's copy of a register. -/
def State.rdReq (s : State) (r : Requester) (a : Nat) : Word := (Sparse.find s.perReq (reqNum r * 2 ^ 32 + a)).getD (s.resetOf a)

/-- A requester's copy replaced. -/
def State.wrReq (s : State) (r : Requester) (a : Nat) (v : Word) : State :=
  { s with perReq := Sparse.put (s.resetOf a) s.perReq (reqNum r * 2 ^ 32 + a) v }

/-- A requester's copies of an array of stride 4. -/
def State.rdArrReq (s : State) (r : Requester) (a : Nat) : Nat → List Word
  | 0 => []
  | n + 1 => s.rdReq r a :: s.rdArrReq r (a + 4) n

def State.wrArrReq (s : State) (r : Requester) (a : Nat) : List Word → State
  | [] => s
  | w :: t => (s.wrReq r a w).wrArrReq r (a + 4) t

/-! ## Keys and hashes (R328, R329) -/

/-- One bit of a CRC-32, most significant bit first (the bit order is the model's choice). -/
def crcBit (poly crc : Nat) (b : Bool) : Nat :=
  let top := crc / 2 ^ 31 % 2 == 1
  (crc * 2 % 2 ^ 32) ^^^ (if top != b then poly else 0)

/-- A CRC-32 of bytes. -/
def crc32 (poly init : Nat) (bs : List Byte) : Nat :=
  bs.foldl (fun c b => (List.range 8).foldl (fun d k => crcBit poly d (b.getLsbD (7 - k))) c) init

/-- The key of an entry: words 0 to 4 with bits 31:16 of word 0 masked off (R328). -/
def emKey (ws : List Word) : List Word := (ws.getD 0 0 &&& 0xFFFF) :: (ws.drop 1).take 4

/-- The two hashes of a key (R329). -/
def State.emHash (s : State) (key : List Word) (way : Nat) : Nat :=
  let bs := key.flatMap wordBytes
  crc32 (if way = 0 then 0x1EDC6F41 else 0x04C11DB7) (s.rd (C13.hashSeed way)).toNat bs % 16384

/-- The candidate slots of a key, by bank (R329). -/
def State.emCandidates (s : State) (key : List Word) : List Nat :=
  let h0 := s.emHash key 0
  let h1 := s.emHash key 1
  [h0, 16384 + h0, 32768 + h1, 49152 + h1]

/-- The stash's positions: bank 4 (R329). -/
def stashPositions : List Nat := (List.range 8).map (fun i => 65536 + i)

/-- TBL_LOC of a position (R348). -/
def emLoc (pos : Nat) : Word := BitVec.ofNat 32 (pos % 16384 + pos / 16384 * 65536)

/-- A slot answers lookups: it is not a group's pending insert (R335). -/
def EmSlot.live (e : EmSlot) : Bool := e.pend.isNone

/-- The slot is occupied by an entry, beyond a retained copy. -/
def EmSlot.solid (e : EmSlot) : Bool := e.kept.isEmpty

/-- The live entry of a key: its own slot before a retained copy (R333). -/
def State.emFind (s : State) (key : List Word) : Option EmSlot :=
  let l := s.fwd.em.slots.filter (fun (e : EmSlot) => e.live && emKey e.words == key)
  match l.find? EmSlot.solid with
  | some e => some e
  | none => l.head?

/-- A position is free. -/
def emFree (slots : List EmSlot) (pos : Nat) : Bool := !slots.any (fun e => e.pos == pos && e.solid)

/-- The entry that stands at a position. -/
def emAt (slots : List EmSlot) (pos : Nat) : Option EmSlot := slots.find? (fun e => e.pos == pos && e.solid)

/-- Slots in the order of their positions. -/
def emInsertSorted (e : EmSlot) : List EmSlot → List EmSlot
  | [] => [e]
  | x :: t => if e.pos < x.pos then e :: x :: t else x :: emInsertSorted e t

/-! ## Placing an entry (R330, R331, R333) -/

/-- The slots of the other way to which the entry at a position can move. -/
def State.emTargets (s : State) (slots : List EmSlot) (pos : Nat) : List Nat :=
  match emAt slots pos with
  | some e =>
    if e.pend.isSome then []
    else
      let c := s.emCandidates (emKey e.words)
      if pos < 32768 then c.drop 2 else c.take 2
  | none => []

/-- Breadth-first search for a chain of relocations that ends in a free slot; paths have the latest position first. -/
def State.emChain (s : State) (slots : List EmSlot) : Nat → List (List Nat) → List Nat → Option (List Nat)
  | 0, _, _ => none
  | n + 1, paths, seen =>
    let step := paths.flatMap (fun p => (s.emTargets slots (p.headD 0)).map (fun t => t :: p))
    match step.find? (fun p => emFree slots (p.headD 0)) with
    | some p => some p
    | none => s.emChain slots n (step.filter (fun p => !seen.contains (p.headD 0))) (seen ++ step.map (fun p => p.headD 0))

/-- Walks from which a move from one position to another would hide its entry: the source lies at or ahead of the cursor and
the target behind it (R333). -/
def Em.hides (em : Em) (src dst : Nat) : List Requester :=
  (em.walks.filter (fun (w : EmWalk) => w.cursor ≤ src && dst < w.cursor)).map EmWalk.req

/-- One relocation (R330), with a retained copy where a walk needs it (R333). -/
def Em.relocate (em : Em) (src dst : Nat) : Em :=
  match emAt em.slots src with
  | none => em
  | some e =>
    let keep := em.hides src dst
    let rest := em.slots.filter (fun x => !(x.pos == src && x.solid))
    let moved : EmSlot := { e with pos := dst, moved := some (em.relocs + 1) }
    let l := emInsertSorted moved (if keep.isEmpty then rest else emInsertSorted { e with kept := keep } rest)
    { em with slots := l, relocs := em.relocs + 1 }

/-- The relocations of a chain, from its free end back. -/
def Em.chainMoves (em : Em) : List Nat → Em
  | dst :: src :: t => (em.relocate src dst).chainMoves (src :: t)
  | _ => em

/-- A chain found from a key's candidate slots, unless it would need a 65th retained copy (R333). -/
def State.emPath (s : State) (from_ : List Nat) : Option (List Nat) :=
  let em := s.fwd.em
  match s.emChain em.slots (s.fld C13.tblCfg 4 0) (from_.map (fun p => [p])) from_ with
  | none => none
  | some p =>
    let kept := em.slots.filter (fun e => !e.kept.isEmpty)
    let new := (p.zip p.tail).filter (fun (x : Nat × Nat) => !(em.hides x.2 x.1).isEmpty)
    if 64 < kept.length + new.length then none else some p

/-- Where an entry can be put: its position and the table with the way made free, the length of the chain, and whether the
stash was used; none is TABLE_FULL (R331). -/
def State.emRoom (s : State) (key : List Word) (stash : Bool) : Option (Nat × Em × Nat) :=
  let em := s.fwd.em
  let c := s.emCandidates key
  match c.find? (emFree em.slots) with
  | some p => some (p, em, 0)
  | none =>
    match s.emPath c with
    | some path => some (path.getLastD 0, em.chainMoves path, path.length - 1)
    | none => if stash then (stashPositions.find? (emFree em.slots)).map (fun p => (p, em, 0)) else none

/-- An entry with the sweep mark. -/
def putMark (ws : List Word) (m : Bool) : List Word := ws.set 0 (putBit (ws.getD 0 0) 21 m)

/-- An entry as the table keeps it: reserved bits of word 0 and PARITY are zero, and ACTION 4 to 7 fall back to 1 (R328). -/
def emNormal (ws : List Word) : List Word :=
  let w5 := ws.getD 5 0
  let a5 := if 4 ≤ bitsOf w5 7 5 then putFld w5 7 5 1 else w5
  ((ws.set 0 (putFld (ws.getD 0 0) 31 22 0)).set 5 (putFld a5 31 24 0)).set 7 (putFld (putFld (ws.getD 7 0) 31 28 0) 15 0 (bitsOf (ws.getD 7 0) 15 0))

/-- MOVE_CNT and STASH_USED after an entry has been placed (R348, R351). -/
def State.emPlaced (s : State) (pos len : Nat) : State :=
  let s1 := if len = 0 then s else s.count C13.moveCnt len
  if 65536 ≤ pos then s1.raise C13.page 3 else s1

/-- A result update writes every copy of an entry (R330). -/
def State.emUpdate (s : State) (key : List Word) (f : List Word → List Word) : State :=
  s.onEm (fun em => { em with slots := em.slots.map (fun (e : EmSlot) =>
    if e.live && emKey e.words == key then { e with words := f e.words } else e) })

/-- TABLE_FULL is raised and recorded with the entry's TYPE (R351). -/
def State.emFull (s : State) (ws : List Word) : State :=
  (s.raise C13.page 4).err C13.page 0x0102 (BitVec.ofNat 32 (bitsOf (ws.getD 0 0) 3 0))

/-- INSERT of an entry (R331): status, position and state. -/
def State.emInsert (s : State) (ws0 : List Word) : Nat × Nat × State :=
  let ws := putMark (emNormal ws0) s.fwd.em.mark
  let key := emKey ws
  match s.emFind key with
  | some e => (1, e.pos, s.emUpdate key (fun old => putMark (old.take 5 ++ ws.drop 5) s.fwd.em.mark))
  | none =>
    match s.emRoom key true with
    | none => (3, 0, s.emFull ws)
    | some (p, em, n) =>
      let e : EmSlot := { pos := p, words := ws, seq := em.seq, moved := none, kept := [], pend := none }
      (0, p, (s.onEm (fun _ => { em with slots := emInsertSorted e em.slots, seq := em.seq + 1 })).emPlaced p n)

/-- The oldest stash entry that can move moves into the banks, and so on for every stash entry (R331). -/
def State.emDrain (s : State) : Nat → State
  | 0 => s
  | n + 1 =>
    let stash := s.fwd.em.slots.filter (fun (e : EmSlot) => 65536 ≤ e.pos && e.solid && e.live)
    let old := stash.foldl (fun (best : Option EmSlot) e => match best with
      | none => if (s.emRoom (emKey e.words) false).isSome then some e else none
      | some b => if e.seq < b.seq && (s.emRoom (emKey e.words) false).isSome then some e else some b) none
    match old with
    | none => s
    | some e =>
      match s.emRoom (emKey e.words) false with
      | none => s
      | some (p, em, k) => State.emDrain ((s.onEm (fun _ => em.relocate e.pos p)).emPlaced p k) n

/-- A key's entry and its copies leave the table, and stash entries try to move (R331, R332). -/
def State.emDelete (s : State) (key : List Word) : State :=
  (s.onEm (fun em => { em with slots := em.slots.filter (fun (e : EmSlot) => !(e.live && emKey e.words == key)) })).emDrain 8

/-! ## Commands (R332, R333, R348) -/

/-- The key is legal: a known TYPE, and VALUE's unused bits 0 (R328). -/
def emKeyOk (ws : List Word) : Bool :=
  let w := fun n => (ws.getD n 0).toNat
  match w 0 % 16 with
  | 1 => decide (w 2 < 65536) && w 3 == 0 && w 4 == 0
  | 2 => w 2 == 0 && w 3 == 0 && w 4 == 0
  | 3 => true
  | 4 => decide (w 4 < 256)
  | _ => false

/-- Ports of R317. -/
def portLegal (q : Nat) : Bool := q ≤ 4 || (8 ≤ q && q ≤ 13) || (16 ≤ q && q ≤ 26)

/-- The status of a finished command, and CMD_DONE (R348, R351). -/
def State.tblStatus (s : State) (r : Requester) (result : Nat) (moved stash : Bool) : State :=
  (s.wrReq r C13.tblStatus (BitVec.ofNat 32 (result + b2n moved * 2 ^ 8 + b2n stash * 2 ^ 9 + 2 ^ 31))).raise C13.page 0

/-- The entry words a requester has written. -/
def State.tblEntry (s : State) (r : Requester) : List Word := s.rdArrReq r (C13.tblKey 0) 5 ++ s.rdArrReq r (C13.tblRes 0) 3

/-- A write of TBL_CMD: staged under a tag, with the requester's key and result words; else `act` (R54, R332). -/
def State.tblWrite (s : State) (r : Requester) (cmd : Word) (ok : Bool) (act : State → State) : State :=
  s.tableWrite r { reg := C13.tblCmd, cmd := cmd, data := s.tblEntry r } ok act

/-- An entry is shown to a requester with its position; PARITY reads 0. -/
def State.tblShow (s : State) (r : Requester) (e : EmSlot) : State :=
  ((s.wrArrReq r (C13.tblKey 0) (e.words.take 5)).wrArrReq r (C13.tblRes 0) (e.words.drop 5)).wrReq r C13.tblLoc (emLoc e.pos)

/-- INSERT as commanded, on given words (R331). -/
def State.tblInsert (s : State) (r : Requester) (ws : List Word) : State :=
  if !emKeyOk ws then s.tblStatus r 6 false false
  else
    match s.emInsert ws with
    | (st, p, t) => (if st = 3 then t else t.wrReq r C13.tblLoc (emLoc p)).tblStatus r st false (st != 3 && decide (65536 ≤ p))

/-- TBL_INSERT. -/
def execTblInsert (r : Requester) (s : State) : Host.Outcome State Fault Refusal :=
  .next (s.tblWrite r 1 (emKeyOk (s.tblEntry r)) (fun t => t.tblInsert r (t.tblEntry r)))

/-- DELETE as commanded. -/
def State.tblDelete (s : State) (r : Requester) (ws : List Word) : State :=
  if !emKeyOk ws then s.tblStatus r 6 false false
  else
    match s.emFind (emKey ws) with
    | none => s.tblStatus r 2 false false
    | some e => ((s.emDelete (emKey ws)).wrReq r C13.tblLoc (emLoc e.pos)).tblStatus r 0 false (decide (65536 ≤ e.pos))

/-- TBL_DELETE. -/
def execTblDelete (r : Requester) (s : State) : Host.Outcome State Fault Refusal :=
  .next (s.tblWrite r 2 (emKeyOk (s.tblEntry r)) (fun t => t.tblDelete r (t.tblEntry r)))

/-- TBL_SEARCH (R332). -/
def execTblSearch (r : Requester) (s : State) : Host.Outcome State Fault Refusal :=
  .next (s.tableNow C13.tblCmd (fun t =>
    let ws := t.tblEntry r
    if !emKeyOk ws then t.tblStatus r 6 false false
    else match t.emFind (emKey ws) with
      | none => t.tblStatus r 2 false false
      | some e => (t.tblShow r e).tblStatus r 1 false (decide (65536 ≤ e.pos))))

/-- A requester's walk. -/
def Em.walk (em : Em) (r : Requester) : Option EmWalk := em.walks.find? (fun (w : EmWalk) => w.req == r)

/-- A walk closes, and its retained copies go (R333). -/
def Em.closeWalk (em : Em) (r : Requester) : Em :=
  let free := fun (e : EmSlot) => if e.kept.contains r then
      (if e.kept.filter (fun x => x != r) = [] then none else some { e with kept := e.kept.filter (fun x => x != r) })
    else some e
  { em with walks := em.walks.filter (fun (w : EmWalk) => w.req != r), slots := em.slots.filterMap free }

/-- The copies a walk can report at or beyond its cursor: entries, and the copies retained for it. -/
def EmSlot.seenBy (e : EmSlot) (r : Requester) : Bool := e.live && (e.solid || e.kept.contains r)

/-- NEXT (R333): the walk's cursor stands just beyond the last entry reported. -/
def State.tblNext (s : State) (r : Requester) (type : Nat) (restart : Bool) : State :=
  let cur := s.rdReq r C13.tblCursor
  let em0 := if restart then
      let e := s.fwd.em.closeWalk r
      { e with walks := { req := r, cursor := bitsOf cur 13 0 + bitsOf cur 18 16 * 16384, last := s.mono, opened := e.relocs } :: e.walks }
    else s.fwd.em
  match em0.walk r with
  | none => s.tblStatus r 7 false false
  | some w =>
    let fits := em0.slots.filter (fun e => w.cursor ≤ e.pos && e.seenBy r && (type == 0 || bitsOf (e.words.getD 0 0) 3 0 == type))
    let best := fits.foldl (fun (b : Option EmSlot) e => match b with
      | none => some e
      | some x => if e.pos < x.pos || (e.pos == x.pos && !e.solid && x.solid) then some e else some x) none
    match best with
    | none => (s.onEm (fun _ => { em0 with walks := em0.walks.map (fun (x : EmWalk) => if x.req == r then { x with last := s.mono } else x) })).tblStatus r 4 false false
    | some e =>
      let again := !e.solid && fits.any (fun x => x.pos == e.pos && x.solid)
      let nxt := if again then e.pos else e.pos + 1
      let drop := fun (x : EmSlot) => if x.kept.contains r && (x.pos < nxt || (x.pos == e.pos && !e.solid)) then
          (if x.kept.filter (fun y => y != r) = [] then none else some { x with kept := x.kept.filter (fun y => y != r) })
        else some x
      let em1 : Em := { em0 with
        slots := em0.slots.filterMap drop
        walks := em0.walks.map (fun (x : EmWalk) => if x.req == r then { x with cursor := nxt, last := s.mono } else x) }
      let moved := !e.solid || (match e.moved with
        | some k => decide (w.opened < k)
        | none => false)
      (((s.onEm (fun _ => em1)).tblShow r e).wrReq r C13.tblCursor (emLoc e.pos)).tblStatus r 0 moved (decide (65536 ≤ e.pos))

/-- TBL_NEXT. -/
def execTblNext (r : Requester) (type : Fin 16) (restart : Bool) (s : State) : Host.Outcome State Fault Refusal :=
  .next (s.tableNow C13.tblCmd (fun t => t.tblNext r type.val restart))

/-- WALK_CLOSE. -/
def execWalkClose (r : Requester) (s : State) : Host.Outcome State Fault Refusal :=
  .next (s.tableNow C13.tblCmd (fun t => (t.onEm (fun em => em.closeWalk r)).tblStatus r 0 false false))

/-- WALK_TIMEOUT: 100 ms without a NEXT (R333). -/
def execWalkTimeout (r : Requester) (s : State) : Host.Outcome State Fault Refusal :=
  match s.fwd.em.walk r with
  | some w => if w.last + 100000000 ≤ s.mono then .next (s.onEm (fun em => em.closeWalk r)) else .next s
  | none => .next s

/-! ## Sweeps (R334) -/

/-- A sweep is accepted: the current mark toggles, and the sweep acts on the old mark. -/
def State.sweepStart (s : State) (w : EmSweep) : State :=
  (s.onEm (fun em => { em with sweep := some w, mark := !em.mark })).wr C13.sweepResult 0x80000000

/-- A sweep as commanded; only one runs at a time. -/
def State.sweepCmd (s : State) (r : Requester) (w : EmSweep) : State :=
  if s.fwd.em.sweep.isSome then s.tblStatus r 8 false false else (s.sweepStart w).tblStatus r 0 false false

/-- FLUSH_PORT; a port outside R317 is refused as BAD_KEY. -/
def execFlushPort (r : Requester) (port : Fin 32) (inclStatic : Bool) (type : Fin 16) (s : State) : Host.Outcome State Fault Refusal :=
  .next (s.tblWrite r (BitVec.ofNat 32 (5 + port.val * 2 ^ 8 + b2n inclStatic * 2 ^ 13 + type.val * 2 ^ 16)) (portLegal port.val) (fun t =>
    if !portLegal port.val then t.tblStatus r 6 false false
    else t.sweepCmd r { flush := some (port.val, inclStatic), type := type.val, removed := 0 }))

/-- AGE_SWEEP. -/
def execAgeSweep (r : Requester) (type : Fin 16) (s : State) : Host.Outcome State Fault Refusal :=
  .next (s.tblWrite r (BitVec.ofNat 32 (6 + type.val * 2 ^ 16)) true (fun t => t.sweepCmd r { flush := none, type := type.val, removed := 0 }))

/-- AUTO_AGE: every AGE_CFG.PERIOD seconds (R334). -/
def execAutoAge (s : State) : Host.Outcome State Fault Refusal :=
  let p := s.fld C13.ageCfg 15 0
  if s.cRuns && p ≠ 0 && s.fwd.em.lastAge + p * 1000000000 ≤ s.mono && s.fwd.em.sweep.isNone then
    .next ((s.sweepStart { flush := none, type := 0, removed := 0 }).onEm (fun em => { em with lastAge := s.mono }))
  else .next s

/-- What a sweep makes of an entry; none removes it. -/
def EmSweep.judge (w : EmSweep) (e : EmSlot) : Option EmSlot :=
  let w0 := e.words.getD 0 0
  if !e.live || !(w.type == 0 || bitsOf w0 3 0 == w.type) then some e
  else match w.flush with
    | some (port, incl) => if bitsOf (e.words.getD 5 0) 4 0 == port && (incl || !bitOf w0 16) then none else some e
    | none =>
      if !bitOf w0 17 || bitOf w0 16 then some e
      else if bitOf w0 18 then some { e with words := e.words.set 0 (putFld (putBit w0 18 false) 20 19 0) }
      else if bitsOf w0 20 19 + 1 = 3 then none
      else some { e with words := e.words.set 0 (putFld w0 20 19 (bitsOf w0 20 19 + 1)) }

/-- A sweep acts on an entry with the old mark, which then carries the new one, so that the next sweep finds it (R334). -/
def EmSweep.visit (w : EmSweep) (oldMark : Bool) (e : EmSlot) : Option EmSlot :=
  if bitOf (e.words.getD 0 0) 21 != oldMark then some e
  else (w.judge e).map (fun (x : EmSlot) => { x with words := putMark x.words (!oldMark) })

/-- A sweep acts on every entry with the old mark, and the stash is drained (R331, R334). -/
def State.sweepAct (s : State) (w : EmSweep) (oldMark : Bool) : Nat × State :=
  let em := s.fwd.em
  let kept := em.slots.filterMap (w.visit oldMark)
  let n := (em.slots.filter (fun (e : EmSlot) => e.solid && (w.visit oldMark e).isNone)).length
  let s1 := s.onEm (fun x => { x with slots := kept })
  (n, (if w.flush.isNone && n ≠ 0 then s1.count C13.agedCnt n else s1).emDrain 8)

/-- What a group's sweep makes at its T of every entry, beside a sweep that runs (R335). -/
def State.sweepBeside (s : State) (w : EmSweep) : State :=
  let em := s.fwd.em
  let n := (em.slots.filter (fun (e : EmSlot) => e.solid && (w.judge e).isNone)).length
  let s1 := s.onEm (fun x => { x with slots := em.slots.filterMap w.judge })
  (if w.flush.isNone && n ≠ 0 then s1.count C13.agedCnt n else s1).emDrain 8

/-- SWEEP_DONE (R334). -/
def execSweepDone (s : State) : Host.Outcome State Fault Refusal :=
  match s.fwd.em.sweep with
  | none => .next s
  | some w =>
    match s.sweepAct w (!s.fwd.em.mark) with
    | (n, t) => .next (((t.onEm (fun em => { em with sweep := none })).wr C13.sweepResult (BitVec.ofNat 32 ((n + w.removed) % 2 ^ 17))).raise C13.page 1)

/-! ## Parity (R337) -/

/-- A slot with bad parity is recorded and its entry removed. -/
def State.parityRemove (s : State) (pos : Nat) : State :=
  match emAt s.fwd.em.slots pos with
  | none => s
  | some _ =>
    let s1 := ((s.err C13.page 0x0100 (emLoc pos)).count C13.parityCnt 1).raise C13.page 2
    s1.onEm (fun em => { em with slots := em.slots.filter (fun (e : EmSlot) => !(e.pos == pos && e.solid)) })

/-- PARITY_REMOVE: a lookup has found the slot's parity bad (R337). -/
def execParityRemove (pos : Nat) (s : State) : Host.Outcome State Fault Refusal := .next (s.parityRemove pos)

/-- SCRUB_PASS: every slot is read once per SCRUB_CFG.PERIOD, and the bad ones are removed (R331, R337). -/
def execScrubPass (bad : List Nat) (s : State) : Host.Outcome State Fault Refusal :=
  if s.cRuns && s.fwd.em.lastScrub + s.fld C13.scrubCfg 13 0 * 1000000 ≤ s.mono then
    .next (((bad.foldl State.parityRemove s).onEm (fun em => { em with lastScrub := s.mono })).emDrain 8)
  else .next s

/-- A hash seed is written while table and stash are empty, else SEED_LOCKED (R348). -/
def State.seedWrite (s : State) (n : Nat) (w : Word) : State :=
  if s.fwd.em.slots.isEmpty then s.wr (C13.hashSeed n) w else s.err C13.page 0x0101 (BitVec.ofNat 32 (C13.hashSeed n % 65536))

/-- HASH_SEED_WRITE. -/
def execHashSeedWrite (r : Requester) (n : Fin 2) (w : Word) (s : State) : Host.Outcome State Fault Refusal :=
  .next (s.cmdWrite r (C13.hashSeed n.val) (fun t => t.seedWrite n.val w))

/-- TBL_USE (R348). -/
def State.tblUse (s : State) : Word :=
  let l := s.fwd.em.slots.filter (fun (e : EmSlot) => e.solid && e.live)
  BitVec.ofNat 32 ((l.filter (fun e => e.pos < 65536)).length + (l.filter (fun e => 65536 ≤ e.pos)).length * 2 ^ 24)

/-- LEARN_COUNT of a port (R327). -/
def State.learnCount (s : State) (q : Nat) : Nat :=
  (s.fwd.em.slots.filter (fun (e : EmSlot) => e.solid && e.live && bitOf (e.words.getD 0 0) 17 && bitsOf (e.words.getD 5 0) 4 0 == q)).length

/-! ## The LPM table (R338 to R341, R349) -/

/-- Width of an address family. -/
def famBits (v6 : Bool) : Nat := if v6 then 128 else 32

/-- An address with the bits beyond a length set to 0 (R340). -/
def prefixAddr (v6 : Bool) (addr len : Nat) : Nat :=
  let k := 2 ^ (famBits v6 - len)
  addr % 2 ^ famBits v6 / k * k

/-- The depths at which a prefix reaches a further node, with the stage that holds it (R338, R339). -/
def nodeDepths (v6 : Bool) : List (Nat × Nat) :=
  if v6 then [(24, 2), (32, 3), (40, 4), (48, 5), (56, 6), (64, 1), (72, 2), (80, 3), (88, 4), (96, 5), (104, 6), (112, 1), (120, 2)]
  else [(16, 2), (24, 3)]

/-- The nodes a prefix needs: stage, family, VRF, depth and the bits above it. -/
def Prefix.nodes (p : Prefix) : List (Nat × Bool × Nat × Nat × Nat) :=
  ((nodeDepths p.v6).filter (fun x => decide (x.1 < p.len))).map (fun x => (x.2, p.v6, p.vrf, x.1, p.addr / 2 ^ (famBits p.v6 - x.1)))

/-- The root boundaries an IPv6 prefix of length 24 or less uses. -/
def Prefix.boundaries (p : Prefix) : List (Nat × Nat) :=
  if p.v6 && p.len ≤ 24 then
    let a := p.addr / 2 ^ 104
    ([(p.vrf, a), (p.vrf, a + 2 ^ (24 - p.len))] : List (Nat × Nat)).filter (fun x => decide (0 < x.2) && decide (x.2 < 2 ^ 24))
  else []

/-- Nodes of a stage that a set of prefixes uses. -/
def nodeUse (ps : List Prefix) (stage : Nat) : Nat :=
  ((ps.flatMap Prefix.nodes).filter (fun x => x.1 == stage)).eraseDups.length

/-- Root boundaries that a set of prefixes uses. -/
def boundUse (ps : List Prefix) : Nat := (ps.flatMap Prefix.boundaries).eraseDups.length

/-- The stage that lacks room for a set of prefixes, if any (R339). -/
def nodeLack (ps : List Prefix) : Option Nat :=
  if 8192 < boundUse ps || 512 < nodeUse ps 1 then some 1
  else [2, 3, 4, 5, 6].find? (fun k => decide (2048 < nodeUse ps k))

/-- The same prefix. -/
def Prefix.same (a b : Prefix) : Bool := a.v6 == b.v6 && a.vrf == b.vrf && a.addr == b.addr && a.len == b.len

/-- Walk order: family, VRF, address and length (R349). -/
def Prefix.before (a b : Prefix) : Bool :=
  let k := fun (p : Prefix) => ((b2n p.v6 * 4 + p.vrf) * 2 ^ 128 + p.addr) * 256 + p.len
  decide (k a < k b)

def prefixInsert (p : Prefix) : List Prefix → List Prefix
  | [] => [p]
  | x :: t => if p.same x then p :: t else if p.before x then p :: x :: t else x :: prefixInsert p t

/-- Prefixes with those that groups have prepared. -/
def Lpm.withStaged (l : Lpm) : List Prefix :=
  (l.staged.filter (fun x => x.2.1)).foldl (fun ps x => prefixInsert x.2.2 ps) l.prefixes

/-- Whether a prefix can be inserted: status 0 OK, 1 EXISTS, 3 PREFIX_FULL, 4 NODE_FULL with the stage (R339, R349). -/
def Lpm.judge (l : Lpm) (p : Prefix) : Nat × Nat :=
  if l.prefixes.any p.same then (1, 0)
  else if 32768 ≤ l.prefixes.length then (3, 0)
  else match nodeLack (prefixInsert p l.withStaged) with
    | some k => (4, k)
    | none => (0, 0)

/-- The longest match of an address (R349). -/
def Lpm.search (l : Lpm) (v6 : Bool) (vrf addr : Nat) : Option Prefix :=
  l.prefixes.foldl (fun (best : Option Prefix) p =>
    if p.v6 == v6 && p.vrf == vrf && prefixAddr v6 addr p.len == p.addr then
      match best with
      | none => some p
      | some b => if b.len ≤ p.len then some p else some b
    else best) none

/-- An IPv6 lookup re-enters the pipe: longer prefixes stand below its first 64 bits (R338). -/
def Lpm.deep (l : Lpm) (v6 : Bool) (vrf addr : Nat) : Bool :=
  v6 && l.prefixes.any (fun (p : Prefix) => p.v6 && p.vrf == vrf && decide (64 < p.len) && p.addr / 2 ^ 64 == addr / 2 ^ 64)

/-- The prefix that LPM_CMD and LPM_ADDR name (R349). -/
def lpmPrefix (w : Word) (addr : List Word) (nh : Nat) : Prefix :=
  let v6 := bitOf w 4
  let a := if v6 then addr.foldl (fun n x => n * 2 ^ 32 + x.toNat) 0 else (addr.getD 0 0).toNat
  { v6 := v6, vrf := bitsOf w 6 5, addr := prefixAddr v6 a (bitsOf w 14 8), len := bitsOf w 14 8, nh := nh }

/-- LEN is within its family. -/
def Prefix.ok (p : Prefix) : Bool := decide (p.len ≤ famBits p.v6)

/-- A requester's LPM_STATUS, and CMD_DONE (R349, R351, R433). -/
def State.lpmStatus (s : State) (r : Requester) (result stage : Nat) : State :=
  (s.wrReq r C14.lpmStatus (BitVec.ofNat 32 (result + stage * 2 ^ 8 + 2 ^ 31))).raise C14.page 0

/-- The data registers of an LPM command: the requester's LPM_ADDR and LPM_NH (R433, R443). -/
def State.lpmData (s : State) (r : Requester) : List Word := s.rdArrReq r (C14.lpmAddr 0) 4 ++ [s.rdReq r C14.lpmNh]

/-- The prefix that LPM_CMD and its data registers name. -/
def lpmOf (w : Word) (ws : List Word) : Prefix := lpmPrefix w (ws.take 4) (bitsOf (ws.getD 4 0) 11 0)

/-- The prefix that a requester's LPM_CMD names now. -/
def State.lpmNamed (s : State) (r : Requester) (w : Word) : Prefix := lpmOf w (s.lpmData r)

/-- INSERT of a prefix (R340). -/
def State.lpmInsert (s : State) (r : Requester) (p : Prefix) : State :=
  if !p.ok then s.lpmStatus r 7 0
  else match s.fwd.lpm.judge p with
    | (4, k) => (s.lpmStatus r 4 k).err C14.page 0x0100 (BitVec.ofNat 32 k)
    | (3, _) => s.lpmStatus r 3 0
    | (st, _) => (s.onLpm (fun l => { l with prefixes := prefixInsert p l.prefixes })).lpmStatus r st 0

/-- LPM_INSERT. -/
def execLpmInsert (r : Requester) (w : Word) (s : State) : Host.Outcome State Fault Refusal :=
  .next (s.tableWrite r { reg := C14.lpmCmd, cmd := w, data := s.lpmData r } (s.lpmNamed r w).ok (fun t => t.lpmInsert r (t.lpmNamed r w)))

/-- DELETE of a prefix (R340). -/
def State.lpmDelete (s : State) (r : Requester) (p : Prefix) : State :=
  if !p.ok then s.lpmStatus r 7 0
  else if s.fwd.lpm.prefixes.any p.same then
    (s.onLpm (fun l => { l with prefixes := l.prefixes.filter (fun x => !p.same x) })).lpmStatus r 0 0
  else s.lpmStatus r 2 0

/-- LPM_DELETE. -/
def execLpmDelete (r : Requester) (w : Word) (s : State) : Host.Outcome State Fault Refusal :=
  .next (s.tableWrite r { reg := C14.lpmCmd, cmd := w, data := s.lpmData r } (s.lpmNamed r w).ok (fun t => t.lpmDelete r (t.lpmNamed r w)))

/-- LPM_SEARCH (R349). -/
def execLpmSearch (r : Requester) (w : Word) (s : State) : Host.Outcome State Fault Refusal :=
  .next (s.tableNow C14.lpmCmd (fun t =>
    let p := t.lpmNamed r (putFld w 14 8 (famBits (bitOf w 4)))
    match t.fwd.lpm.search p.v6 p.vrf p.addr with
    | some q => (t.wrReq r C14.lpmNh (BitVec.ofNat 32 q.nh)).lpmStatus r 1 0
    | none => t.lpmStatus r 2 0))

/-- The address words of a prefix (R349). -/
def Prefix.addrWords (p : Prefix) : List Word :=
  if p.v6 then (List.range 4).map (fun k => BitVec.ofNat 32 (p.addr / 2 ^ (96 - 32 * k)))
  else [BitVec.ofNat 32 p.addr, 0, 0, 0]

/-- LPM_NEXT: the prefix after the requester's last one in walk order; RESTART begins with the first (R349). -/
def execLpmNext (r : Requester) (w : Word) (s : State) : Host.Outcome State Fault Refusal :=
  .next (s.tableNow C14.lpmCmd (fun t =>
    let last := if bitOf w 15 then some none else (t.fwd.lpm.walks.find? (fun x => x.1 == r)).map Prod.snd
    match last with
    | none => t.lpmStatus r 5 0
    | some pos =>
      let nxt := t.fwd.lpm.prefixes.find? (fun (p : Prefix) => match pos with
        | none => true
        | some q => q.before p)
      match nxt with
      | none => t.lpmStatus r 5 0
      | some p =>
        let t1 := t.onLpm (fun l => { l with walks := (r, some p) :: l.walks.filter (fun x => x.1 != r) })
        (((t1.wrArrReq r (C14.lpmAddr 0) p.addrWords).wrReq r C14.lpmNh (BitVec.ofNat 32 p.nh))).lpmStatus r 0 0))

/-- LPM_WALK_CLOSE. -/
def execLpmWalkClose (r : Requester) (s : State) : Host.Outcome State Fault Refusal :=
  .next (s.tableNow C14.lpmCmd (fun t => (t.onLpm (fun l => { l with walks := l.walks.filter (fun x => x.1 != r) })).lpmStatus r 0 0))

/-- LPM_REPAIR: a node with bad parity is rebuilt from the prefix store; a bad entry of the store loses its prefix (R340). -/
def execLpmRepair (stage : Nat) (node : Nat) (lost : Option Nat) (s : State) : Host.Outcome State Fault Refusal :=
  let s1 := (s.err C14.page 0x0101 (BitVec.ofNat 32 (stage * 65536 + node % 65536))).raise C14.page 1
  match lost with
  | none => .next s1
  | some i => .next (((s1.onLpm (fun l => { l with prefixes := l.prefixes.eraseIdx i })).wr (HDR.errInfo C14.page) (BitVec.ofNat 32 i)).raise C14.page 2)

/-- A next hop's words; one never written is DROP (R341, R349). -/
def State.nextHop (s : State) (i : Nat) : List Word := (Sparse.find s.fwd.lpm.nextHops i).getD [0, 0, 0]

/-- NH_WRITE: every prefix that names the next hop changes in one write (R341). -/
def execNhWrite (r : Requester) (idx : Fin 4096) (s : State) : Host.Outcome State Fault Refusal :=
  .next (s.cmdWrite r C14.nhCmd (fun t =>
    t.onLpm (fun l => { l with nextHops := Sparse.put [0, 0, 0] l.nextHops idx.val (t.rdArr (C14.nhData 0) 3) })))

/-- NH_READ. -/
def execNhRead (r : Requester) (idx : Fin 4096) (s : State) : Host.Outcome State Fault Refusal :=
  .next (s.cmdWrite r C14.nhCmd (fun t => t.wrArr (C14.nhData 0) (t.nextHop idx.val)))

/-- NODE_USE of stage `k` (R349). -/
def State.nodeUseReg (s : State) (k : Nat) : Word :=
  let ps := s.fwd.lpm.withStaged
  BitVec.ofNat 32 (nodeUse ps k + (if k = 1 then boundUse ps * 2 ^ 16 else 0))

/-! ## VLANs (R347) -/

/-- A VLAN entry: MEMBER, UNTAGGED and the FID word; one never written is not VALID. -/
def State.vlan (s : State) (vid : Nat) : List Word := (Sparse.find s.fwd.vlans vid).getD [0, 0, 0]

/-- VLAN_WRITE. -/
def execVlanWrite (r : Requester) (vid : Fin 4096) (s : State) : Host.Outcome State Fault Refusal :=
  .next (s.cmdWrite r C12.vlanCmd (fun t =>
    { t with fwd := { t.fwd with vlans := Sparse.put [0, 0, 0] t.fwd.vlans vid.val (t.rdArr (C12.vlanData 0) 3) } }))

/-- VLAN_READ. -/
def execVlanRead (r : Requester) (vid : Fin 4096) (s : State) : Host.Outcome State Fault Refusal :=
  .next (s.cmdWrite r C12.vlanCmd (fun t => t.wrArr (C12.vlanData 0) (t.vlan vid.val)))

/-! ## Staged table operations (R335, R340) -/

/-- PREP of a staged operation: an INSERT reserves its room; none is TABLE_FULL. -/
def State.tablePrep (s : State) (g : Fin 16) (o : StagedTable) : Option State :=
  if o.reg = C13.tblCmd then
    if bitsOf o.cmd 3 0 ≠ 1 then some s
    else
      let ws := emNormal o.data
      match s.emRoom (emKey ws) true with
      | none => none
      | some (p, em, n) =>
        let e : EmSlot := { pos := p, words := ws, seq := em.seq, moved := none, kept := [], pend := some g }
        some ((s.onEm (fun _ => { em with slots := emInsertSorted e em.slots, seq := em.seq + 1 })).emPlaced p n)
  else
    let p := lpmOf o.cmd o.data
    if bitsOf o.cmd 2 0 = 1 then
      match s.fwd.lpm.judge p with
      | (3, _) => none
      | (4, _) => none
      | _ => some (s.onLpm (fun l => { l with staged := l.staged ++ [(g, true, p)] }))
    else some (s.onLpm (fun l => { l with staged := l.staged ++ [(g, false, p)] }))

/-- At T a staged operation becomes visible. -/
def State.tableApply (s : State) (g : Fin 16) (o : StagedTable) : State :=
  if o.reg = C13.tblCmd then
    let key := emKey (emNormal o.data)
    match bitsOf o.cmd 3 0 with
    | 1 =>
      let s1 := s.onEm (fun em => { em with slots := em.slots.filter (fun (e : EmSlot) => !(e.live && emKey e.words == key)) })
      s1.onEm (fun em => { em with slots := em.slots.map (fun (e : EmSlot) =>
        if e.pend = some g && emKey e.words == key then { e with pend := none, words := putMark e.words em.mark } else e) })
    | 2 => s.emDelete key
    | k =>
      let w : EmSweep := { flush := if k = 5 then some (bitsOf o.cmd 12 8, bitOf o.cmd 13) else none, type := bitsOf o.cmd 19 16, removed := 0 }
      if s.fwd.em.sweep.isSome then s.sweepBeside w
      else
        let old := s.fwd.em.mark
        match (s.sweepStart w).sweepAct w old with
        | (n, t) => t.onEm (fun em => { em with sweep := some { w with removed := n } })
  else
    let p := lpmOf o.cmd o.data
    let s1 := s.onLpm (fun l => { l with staged := l.staged.filter (fun x => !(x.1 == g && p.same x.2.2)) })
    if bitsOf o.cmd 2 0 = 1 then s1.onLpm (fun l => { l with prefixes := prefixInsert p l.prefixes })
    else s1.onLpm (fun l => { l with prefixes := l.prefixes.filter (fun x => !p.same x) })

end Sys2Proof.Machine
end

