-- ==== Sys2Proof/Machine/Forward.lean ====
section
/-!
DEFINITION. The forwarding pipeline: ingress VLAN, class, bridging, routing, learning, egress edit and queueing of a frame, the
Ethernet ports' receive side, and the service of egress ports (R317 to R327, R342, R345, R447).
-/
namespace Sys2Proof.Machine

/-! ## Ports (R317, R318) -/

/-- An access port, and its partition. -/
def accessPort (q : Nat) : Option Nat := if 8 ≤ q && q ≤ 13 then some (q - 8) else none

/-- A port takes frames: PORT_CFG.ENABLE, and its partition, link or Korub link is enabled (R318). -/
def State.portOn (s : State) (q : Nat) : Bool :=
  portLegal q && s.bit (C12.portCfg q) 31 &&
  match accessPort q with
  | some p => s.partOn p
  | none =>
    if 16 ≤ q && q ≤ 23 then s.bit (C17.linkCfg (q - 16)) 31
    else if 24 ≤ q then s.bit (C10.korCfg (q - 24)) 31
    else true

/-- A drop charged to a port (R318, R320). -/
def State.portDrop (s : State) (q : Nat) : State := if portLegal q then s.count (C12.portDrop q) 1 else s

/-- Frames of the port are always taken as untagged: access partitions and the mesh (R320). -/
def alwaysUntagged (q : Nat) : Bool := q == 4 || (accessPort q).isSome

/-- BSS_VID of a BSSID, or the port's PVID when that is 0 (R320, R321). -/
def State.bssVid (s : State) (p b : Nat) : Nat :=
  let v := s.fld (C12.bssVid p b) 11 0
  if v = 0 then s.fld (C12.portCfg (p + 8)) 11 0 else v

/-- The port's bit in a VLAN's MEMBER map. -/
def State.member (s : State) (vid q : Nat) : Bool := ((s.vlan vid).getD 0 0).getLsbD q

/-- FID, L3, VRF and RMAC of a VLAN (R347). -/
def State.vlanFid (s : State) (vid : Nat) : Nat := bitsOf ((s.vlan vid).getD 2 0) 11 0
def State.vlanValid (s : State) (vid : Nat) : Bool := bitOf ((s.vlan vid).getD 2 0) 31
def State.vlanVrf (s : State) (vid : Nat) : Nat := bitsOf ((s.vlan vid).getD 2 0) 14 13
def State.vlanL3 (s : State) (vid : Nat) : Bool := bitOf ((s.vlan vid).getD 2 0) 12

/-- The router MAC of a VLAN (R323, R324). -/
def State.routerMac (s : State) (vid : Nat) : Nat :=
  let i := bitsOf ((s.vlan vid).getD 2 0) 18 16
  (s.rd (C12.rmacLo i)).toNat + s.fld (C12.rmacHi i) 15 0 * 2 ^ 32

/-! ## Steps 2 and 3 (R320, R322) -/

/-- VID of an arriving frame; none where it is dropped (R320). -/
def State.ingressVid (s : State) (q : Nat) (f : Frame) (g : Ingress) : Option Nat :=
  let tag := if alwaysUntagged q then none else f.tag
  let accept := s.fld (C12.portCfg q) 13 12
  let own := match accessPort q with
    | some p => s.bssVid p (g.bssid % 16)
    | none => s.fld (C12.portCfg q) 11 0
  let vid := match tag with
    | some (_, v) => if v = 0 then own else v
    | none => own
  if (tag.isSome && accept == 2) || (tag.isNone && accept == 1) || vid == 4095 || !s.vlanValid vid || !s.member vid q then none
  else some vid

/-- PCP_MAP, CLASS_PCP and DSCP_MAP entries: three bits each (R347). -/
def State.mapEntry (s : State) (a k : Nat) : Nat := s.fld a (3 * k + 2) (3 * k)

/-- Class of a frame by its port (R322, rules 2 to 4). -/
def State.ingressClass (s : State) (q : Nat) (f : Frame) (g : Ingress) : Nat :=
  let deflt := s.fld (C12.portCfg q) 18 16
  let byPcp := match (if alwaysUntagged q then none else f.tag) with
    | some (pcp, _) => s.mapEntry C12.pcpMap (pcp % 8)
    | none => deflt
  if (accessPort q).isSome || (16 ≤ q && q ≤ 23) then g.cls % 8
  else match s.fld (C12.portCfg q) 15 14 with
    | 0 => deflt
    | 1 => byPcp
    | _ => match f.ip with
      | some h => s.mapEntry (C12.dscpMap (h.dscp % 64 / 8)) (h.dscp % 8)
      | none => byPcp

/-! ## Step 7 and 8: egress edit and queueing (R318, R321, R344) -/

/-- The tag a frame leaves a port with (R317, R321). -/
def State.egressTag (s : State) (q vid cls : Nat) : Option (Nat × Nat) :=
  if alwaysUntagged q then none
  else if q ≤ 3 && ((s.vlan vid).getD 1 0).getLsbD q then none
  else some (s.mapEntry C12.classPcp cls, vid)

/-- A frame with its egress tag; its length follows the tag. -/
def retag (f : Frame) (t : Option (Nat × Nat)) : Frame :=
  let base := if f.tag.isSome then f.len - 4 else f.len
  { f with tag := t, len := if t.isSome then base + 4 else base }

/-- The unicast queue of a port, SUB naming the station on an access port; none where the frame is for a station of another VID
(R321). -/
def State.egressQueue (s : State) (q sub vid cls : Nat) : Option Nat :=
  match accessPort q with
  | none => some (portQueue q cls)
  | some p =>
    match s.station sub with
    | some t => if t.linked p && s.bssVid p (bitsOf (t.words.getD 1 0) 27 24) == vid then some (staQueue sub cls) else none
    | none => none

/-- A frame goes to a port of a decision (R318, R321). -/
def State.egress (s : State) (q sub vid cls : Nat) (f : Frame) : State :=
  if !s.portOn q || !s.member vid q then s.portDrop q
  else match s.egressQueue q sub vid cls with
    | some n => s.intakeFrame n (retag f (s.egressTag q vid cls)) sub
    | none => s.portDrop q

/-- A frame, or a copy, goes to the host port (R323, R324). -/
def State.toHost (s : State) (vid cls : Nat) (f : Frame) : State :=
  if s.portOn 3 then s.intakeFrame (portQueue 3 cls) (retag f (s.egressTag 3 vid cls)) 0 else s.portDrop 3

/-- Ports of R317, in order. -/
def allPorts : List Nat := [0, 1, 2, 3, 8, 9, 10, 11, 12, 13, 16, 17, 18, 19, 20, 21, 22, 23, 24, 25, 26]

/-- A flooded frame (R323): a copy for every enabled member port with FLOOD_EN, save the ingress port and the mesh, and save the
Korub ports when it came from one; on an access port, one for each BSSID of the VID. -/
def State.flood (s : State) (inPort vid cls : Nat) (f : Frame) : State :=
  let ports := allPorts.filter (fun q => q != inPort && s.member vid q && s.bit (C12.portCfg q) 19 && s.portOn q
    && !(24 ≤ inPort && 24 ≤ q))
  ports.foldl (fun t q => match accessPort q with
    | some p => ((List.range 16).filter (fun b => s.bssVid p b == vid)).foldl (fun u b => u.intakeFrame (bcastQueue p b cls) (retag f none) 0) t
    | none => t.intakeFrame (portQueue q cls) (retag f (s.egressTag q vid cls)) 0) s

/-! ## Steps 4 and 5: bridging and routing (R323, R324) -/

/-- Key of an L2 entry (R328). -/
def l2Key (fid mac : Nat) : List Word :=
  [BitVec.ofNat 32 (1 + fid % 4096 * 16), BitVec.ofNat 32 mac, BitVec.ofNat 32 (mac / 2 ^ 32 % 65536), 0, 0]

/-- Key of a HOST4 or HOST6 entry. -/
def hostKey (v6 : Bool) (vrf addr : Nat) : List Word :=
  if v6 then BitVec.ofNat 32 (3 + vrf * 16) :: (List.range 4).map (fun k => BitVec.ofNat 32 (addr / 2 ^ (96 - 32 * k)))
  else [BitVec.ofNat 32 (2 + vrf * 16), BitVec.ofNat 32 addr, 0, 0, 0]

/-- Key of a FLOW4 entry. -/
def flowKey (vrf : Nat) (h : IpHdr) : List Word :=
  [BitVec.ofNat 32 (4 + vrf * 16), BitVec.ofNat 32 h.src, BitVec.ofNat 32 h.dst,
   BitVec.ofNat 32 (h.sport % 65536 * 65536 + h.dport % 65536), BitVec.ofNat 32 (h.proto % 256)]

/-- CLASS of a deciding entry where it overrides (R322, rule 1). -/
def entryClass (e : EmSlot) (cls : Nat) : Nat :=
  let w := e.words.getD 5 0
  if bitOf w 11 then bitsOf w 10 8 else cls

/-- ACTION, PORT and SUB of an entry (R328). -/
def EmSlot.action (e : EmSlot) : Nat := bitsOf (e.words.getD 5 0) 7 5
def EmSlot.port (e : EmSlot) : Nat := bitsOf (e.words.getD 5 0) 4 0
def EmSlot.sub (e : EmSlot) : Nat := bitsOf (e.words.getD 5 0) 23 12

/-- A broadcast or group MAC: the low bit of its first octet. -/
def groupMac (mac : Nat) : Bool := mac / 2 ^ 40 % 2 == 1

/-- A bridged frame; one to a broadcast or group address is flooded whatever the table holds (R323). -/
def State.bridge (s : State) (q vid cls : Nat) (f : Frame) : State :=
  match (if groupMac f.dst then none else s.emFind (l2Key (s.vlanFid vid) f.dst)) with
  | none => s.flood q vid cls f
  | some e =>
    let c := entryClass e cls
    let fwd := fun (t : State) => if e.port = q then t.portDrop q else t.egress e.port e.sub vid c f
    match e.action with
    | 0 => fwd s
    | 2 => s.toHost vid c f
    | 3 => (fwd s).toHost vid c f
    | _ => s

/-- One's complement sum of two 16-bit words. -/
def ocSum (a b : Nat) : Nat := if a + b < 65536 then a + b else a + b - 65535

/-- TTL or hop limit less one, and the IPv4 checksum updated as in RFC 1624 (R324). -/
def hopOf (h : IpHdr) : IpHdr :=
  let m := h.ttl % 256 * 256 + h.proto % 256
  let m1 := (h.ttl - 1) % 256 * 256 + h.proto % 256
  { h with ttl := h.ttl - 1, csum := if h.v6 then h.csum else 65535 - ocSum (ocSum (65535 - h.csum % 65536) (65535 - m)) m1 }

/-- A routed frame leaves with the decision's MAC and EVID, whose VLAN must be VALID (R320, R324). -/
def State.routeOut (s : State) (port sub mac evid cls : Nat) (f : Frame) (h : IpHdr) : State :=
  if s.vlanValid evid then s.egress port sub evid cls { f with dst := mac, src := s.routerMac evid, ip := some (hopOf h) } else s.portDrop port

/-- A HOST or FLOW entry decides a routed frame. -/
def State.routeEntry (s : State) (e : EmSlot) (vid cls : Nat) (f : Frame) (h : IpHdr) : State :=
  let c := entryClass e cls
  let mac := (e.words.getD 6 0).toNat + bitsOf (e.words.getD 7 0) 15 0 * 2 ^ 32
  let fwd := fun (t : State) => t.routeOut e.port e.sub mac (bitsOf (e.words.getD 7 0) 27 16) c f h
  match e.action with
  | 0 => fwd s
  | 2 => s.toHost vid c f
  | 3 => (fwd s).toHost vid c f
  | _ => s

/-- L3_EXCEPT counts an exception, or L3_MISS (R347). -/
def State.l3Except (s : State) : State := s.bump C12.l3Except 15 0 1
def State.l3Miss (s : State) : State := s.bump C12.l3Except 31 16 1

/-- The destination as it is looked up: ::ffff:0:0/96 in the IPv4 tables (R324). -/
def lookupOf (h : IpHdr) : Bool × Nat :=
  if h.v6 && h.dst / 2 ^ 32 == 0xFFFF then (false, h.dst % 2 ^ 32) else (h.v6, h.dst)

/-- The LPM's answer to a routed frame (R324, R341). -/
def State.routeLpm (s : State) (vid cls : Nat) (f : Frame) (h : IpHdr) : State :=
  let a := lookupOf h
  let vrf := s.vlanVrf vid
  let s1 := if s.fwd.lpm.deep a.1 vrf a.2 then s.count C14.passCnt 1 else s
  match s.fwd.lpm.search a.1 vrf a.2 with
  | none => if s.bit C12.fwdCfg 3 then s1.l3Miss.toHost vid cls f else s1.l3Miss
  | some p =>
    let w := s.nextHop p.nh
    let w0 := w.getD 0 0
    match bitsOf w0 1 0 with
    | 1 => if s.bit C12.fwdCfg 4 then s1.toHost vid cls f else s1
    | 2 => s1.routeOut (bitsOf w0 6 2) (bitsOf w0 18 7) ((w.getD 1 0).toNat + bitsOf (w.getD 2 0) 15 0 * 2 ^ 32) (bitsOf w0 30 19) cls f h
    | 3 => s1.toHost vid cls f
    | _ => s1

/-- A routed frame, in the order of R324. -/
def State.route (s : State) (vid cls : Nat) (f : Frame) (h : IpHdr) : State :=
  if !h.v6 && !h.sound then s.count C12.csumBad 1
  else if !h.v6 && 5 < h.ihl && s.bit C12.fwdCfg 1 then s.l3Except.toHost vid cls f
  else if h.v6 && h.hbh && s.bit C12.fwdCfg 2 then s.l3Except.toHost vid cls f
  else if h.ttl ≤ 1 then (if s.bit C12.fwdCfg 0 then s.l3Except.toHost vid cls f else s.l3Except)
  else
    let vrf := s.vlanVrf vid
    let flow := if h.v6 then none else s.emFind (flowKey vrf h)
    match flow with
    | some e => s.routeEntry e vid cls f h
    | none =>
      let a := lookupOf h
      match s.emFind (hostKey a.1 vrf a.2) with
      | some e => s.routeEntry e vid cls f h
      | none => s.routeLpm vid cls f h

/-! ## Step 6: learning (R326, R327) -/

/-- SUB that learning gives a source (R326). -/
def learnSub (q : Nat) (g : Ingress) : Nat := if (accessPort q).isSome then g.sta else if q = 4 then g.origin else 0

/-- A new learn, or a move into a port, finds the port at its limit (R327). -/
def State.learnFull (s : State) (q : Nat) : Bool := decide (s.fld (C12.learnLimit q) 15 0 ≤ s.learnCount q)

/-- LEARN_LIMIT with the port (R327, R351). -/
def State.learnLimit (s : State) (q : Nat) : State := (s.raise C12.page 0).err C12.page 0x0100 (BitVec.ofNat 32 q)

/-- A learn request waits in the queue of 64, or is discarded as LEARN_OVERRUN (R326). -/
def State.learnQueue (s : State) (x : LearnReq) : State :=
  if 64 ≤ s.fwd.em.learnq.length then (s.count C12.learnOverrun 1).raise C12.page 2
  else s.onEm (fun em => { em with learnq := em.learnq ++ [x] })

/-- What learning makes of a bridged frame's source; the flag says that the frame is dropped for the port's limit (R326, R327). -/
def State.learnSource (s : State) (q vid : Nat) (f : Frame) (g : Ingress) : Bool × State :=
  let key := l2Key (s.vlanFid vid) f.src
  let x : LearnReq := { fid := s.vlanFid vid, mac := f.src, port := q, sub := learnSub q g }
  let limited := (!s.bit (C12.portCfg q) 21, s.learnLimit q)
  if !s.bit (C12.portCfg q) 20 then (false, s)
  else match s.emFind key with
    | some e =>
      let w0 := e.words.getD 0 0
      if e.port = q && e.sub = x.sub then (false, s.emUpdate key (fun ws => ws.set 0 (putBit (ws.getD 0 0) 18 true)))
      else if bitOf w0 16 then (false, if e.port = q then s else (s.count C12.staticMove 1).raise C12.page 1)
      else if e.port != q && s.learnFull q then limited
      else (false, s.learnQueue x)
    | none => if s.learnFull q then limited else (false, s.learnQueue x)

/-- LEARN: the oldest request is carried out on the live table (R326, R327, R331). -/
def State.learnOne (s : State) : State :=
  match s.fwd.em.learnq with
  | [] => s
  | x :: rest =>
    let s0 := s.onEm (fun em => { em with learnq := rest })
    let key := l2Key x.fid x.mac
    match s0.emFind key with
    | some e =>
      if bitOf (e.words.getD 0 0) 16 then s0
      else if e.port = x.port && e.sub = x.sub then s0.emUpdate key (fun ws => ws.set 0 (putBit (ws.getD 0 0) 18 true))
      else if e.port != x.port && s0.learnFull x.port then s0.learnLimit x.port
      else
        let s1 := s0.emUpdate key (fun ws => putMark (ws.set 5 (putFld (putFld (ws.getD 5 0) 4 0 x.port) 23 12 x.sub)) s0.fwd.em.mark)
        s1.bump C13.learnCnt 31 16 1
    | none =>
      if s0.learnFull x.port then s0.learnLimit x.port
      else
        let w0 := putBit ((key.getD 0 0)) 17 true
        match s0.emInsert (w0 :: key.drop 1 ++ [BitVec.ofNat 32 (x.port + x.sub % 4096 * 4096), 0, 0]) with
        | (3, _, t) => t
        | (_, _, t) => t.bump C13.learnCnt 15 0 1

/-- LEARN. -/
def execLearn (s : State) : Host.Outcome State Fault Refusal := .next s.learnOne

/-! ## The pipeline (R319) -/

/-- A frame passes the pipeline from an ingress port. -/
def State.ingress (s : State) (q : Nat) (f : Frame) (g : Ingress) : State :=
  if !s.portOn q then s.portDrop q
  else match s.ingressVid q f g with
    | none => s.portDrop q
    | some vid =>
      let cls := s.ingressClass q f g
      match (if s.vlanL3 vid && f.dst == s.routerMac vid then some f.ip else none) with
      | some (some h) => s.route vid cls f h
      | some none => s.toHost vid cls f
      | none =>
        match s.learnSource q vid f g with
        | (true, t) => t.portDrop q
        | (false, t) => t.bridge q vid cls f

/-- FRAME_INGRESS. -/
def execFrameIngress (port : Fin 32) (frame : Frame) (g : Ingress) (s : State) : Host.Outcome State Fault Refusal :=
  if s.cRuns then .next (s.ingress port.val frame g) else .next s

/-! ## Ethernet ports (R447) -/

/-- A 64-bit byte counter in two registers (R447). -/
def State.count64 (s : State) (lo hi n : Nat) : State :=
  let v := (s.rd lo).toNat + (s.rd hi).toNat * 2 ^ 32 + n
  s.wrs [(lo, BitVec.ofNat 32 v), (hi, BitVec.ofNat 32 (v / 2 ^ 32))]

/-- ETH_FRAME_RX: length and FCS checks, and PAUSE (R447); `pause` is the pause time of a PAUSE frame, in ns. Lengths include the
FCS. -/
def execEthFrameRx (q : Fin 3) (frame : Frame) (fcsOk : Bool) (pause : Option Nat) (s : State) : Host.Outcome State Fault Refusal :=
  let n := q.val
  if !s.cRuns || !s.bit (C9.ethCfg n) 31 then .next s
  else if s.fld (C9.ethCfg n) 29 16 < frame.len || frame.len < 64 then .next (s.bump (C9.rxErr n) 31 16 (if frame.len < 64 then 0 else 1))
  else if !fcsOk then .next (s.bump (C9.rxErr n) 15 0 1)
  else
    let s1 := s.count64 (C9.rxBytesLo n) (C9.rxBytesHi n) frame.len
    match pause with
    | some t =>
      if s.bit (C9.ethCfg n) 8 then
        .next { s1 with qm := { s1.qm with paused := (n, s.mono + t) :: s1.qm.paused.filter (fun (x : Nat × Nat) => x.1 != n) } }
      else .next s1
    | none => .next (s1.ingress n { frame with len := frame.len - 4 } { sta := 0, bssid := 0, cls := 0, origin := 0 })

/-- A PAUSE holds an Ethernet port (R447). -/
def State.portPaused (s : State) (q : Nat) : Bool := s.qm.paused.any (fun (x : Nat × Nat) => x.1 == q && decide (s.mono < x.2))

/-- A frame leaves the mesh port: a DATA frame with EXT set, to the mesh address that the decision's SUB names (R181, R323). -/
def State.toMesh (s : State) (x : QFrame) : State :=
  let h : MeshHdr := { mtype := 1, ttl := 15, ext := true, origin := s.meshAddr, dest := x.sub, mseq := 0, payload := x.frame.payload }
  match s.sleepyChild x.sub with
  | some c => match s.indQueue c h none with
    | .ok t => t
    | .error k => s.indRefused k h.payload.length
  | none => match s.routeTo x.sub with
    | some n => s.macQueue (s.freshTx h n 0 none none false)
    | none => s.err E4.page 0x0100 (BitVec.ofNat 32 x.sub)

/-- PORT_DEQUEUE: ports 0 to 4 and 24 to 26 serve their class queues (R345). -/
def execPortDequeue (port : Fin 32) (s : State) : Host.Outcome State Fault Refusal :=
  let q := port.val
  if !(q ≤ 4 || (24 ≤ q && q ≤ 26)) || !s.portOn q || s.portPaused q || !s.cRuns then .next s
  else match s.takePort q with
    | none => .next s
    | some (x, _, t) =>
      if q = 4 then .next (t.toMesh x)
      else if q ≤ 2 then .next ((t.count64 (C9.txBytesLo q) (C9.txBytesHi q) (x.frame.len + 4)).emit (.egress q x.frame))
      else .next (t.emit (.egress q x.frame))

end Sys2Proof.Machine
end

