-- ==== Sys2Proof/Machine/Pipe.lean ====
section
/-!
DEFINITION. The inline cipher pipes of die C: key slots, their commands, packet numbers, and the carriage of a frame (R403 to
R408).
-/
namespace Sys2Proof.Machine

/-- A key slot as it stands; one never installed or erased has generation 0. -/
def State.pipeKey (s : State) (n : Nat) : PipeKey :=
  (s.pipeKeys.find? (fun (k : PipeKey) => k.slot == n)).getD
    { slot := n, valid := false, suite := if 4096 ≤ n then 3 else 0, key := [], gen := 0, eraseGen := 0, pn := 0, exhausted := false }

/-- A key slot replaced. -/
def State.setPipeKey (s : State) (k : PipeKey) : State :=
  { s with pipeKeys := k :: s.pipeKeys.filter (fun (x : PipeKey) => x.slot != k.slot) }

/-- KEY_STAT and KEY_PN of a slot (R405, R408). -/
def State.pipeShow (s : State) (k : PipeKey) (pn : Bool) : State :=
  let s1 := s.wr C6.keyStat (BitVec.ofNat 32 (b2n k.valid + k.suite * 2 + b2n k.exhausted * 8 + k.gen * 2 ^ 8 + k.eraseGen * 2 ^ 16))
  if pn then s1.wrs [(C6.keyPnLo, BitVec.ofNat 32 k.pn), (C6.keyPnHi, BitVec.ofNat 32 (k.pn / 2 ^ 32))] else s1

/-- INSTALL (R405). -/
def State.pipeInstall (s : State) (n : Nat) : State :=
  let old := s.pipeKey n
  let link := decide (4096 ≤ n)
  let k : PipeKey :=
    { slot := n, valid := true, suite := if link then 3 else s.fld C6.keyMeta 1 0, key := s.rdArr (C6.keyData 0) 8,
      gen := nextGen old.gen, eraseGen := old.eraseGen, exhausted := false,
      pn := if link then 0 else (s.rd C6.keyPnLo).toNat + s.fld C6.keyPnHi 15 0 * 2 ^ 32 }
  (s.setPipeKey k).pipeShow k false

/-- ERASE (R405): the new generation is also ERASE_GEN. -/
def State.pipeErase (s : State) (n : Nat) : State :=
  let old := s.pipeKey n
  let k : PipeKey := { old with valid := false, key := [], gen := nextGen old.gen, eraseGen := nextGen old.gen, exhausted := false }
  (s.setPipeKey k).pipeShow k false

/-- A KEY_CMD: its guard, its slot's range, the command, and the end of it (R43, R44, R405). -/
def State.pipeCmd (s : State) (r : Requester) (slot cmd : Nat) (hi : Half) (act : State → State) : State :=
  s.guardWrite r C6.keyCmd (hi ++ BitVec.ofNat 16 (slot + cmd * 8192)) (fun v t =>
    if 4160 ≤ slot then t.guardRange C6.keyCmd 12 0 slot (t.fld C6.keyCmd 12 0)
    else (((act (t.accept C6.keyCmd v)).wrArr (C6.keyData 0) (List.replicate 8 0)).wr C6.keyResult 0x80000000).raise C6.page 0)

/-- PIPE_KEY_INSTALL. -/
def execPipeKeyInstall (r : Requester) (slot : Fin 8192) (hi : Half) (s : State) : Host.Outcome State Fault Refusal :=
  .next (s.pipeCmd r slot.val 1 hi (fun t => t.pipeInstall slot.val))

/-- PIPE_KEY_ERASE. -/
def execPipeKeyErase (r : Requester) (slot : Fin 8192) (hi : Half) (s : State) : Host.Outcome State Fault Refusal :=
  .next (s.pipeCmd r slot.val 2 hi (fun t => t.pipeErase slot.val))

/-- PIPE_KEY_STAT. -/
def execPipeKeyStat (r : Requester) (slot : Fin 8192) (hi : Half) (s : State) : Host.Outcome State Fault Refusal :=
  .next (s.pipeCmd r slot.val 3 hi (fun t => t.pipeShow (t.pipeKey slot.val) true))

/-! ## Carriage (R404, R406, R407) -/

/-- The last packet number is never sent (R407). -/
def pnLimit : Nat := 2 ^ 48 - 1

/-- A retransmission bound to a generation is gone: the slot's ERASE_GEN is later, by signed 8-bit difference (R406). -/
def PipeKey.gone (k : PipeKey) (gen : Nat) : Bool := k.eraseGen != 0 && decide (0 < sdiff 8 k.eraseGen gen)

/-- A slot is exhausted: KEY_STAT.EXHAUSTED and KEY_EXHAUSTED, with the slot (R407). -/
def State.pipeExhaust (s : State) (n : Nat) : State :=
  let k := s.pipeKey n
  ((s.setPipeKey { k with exhausted := true }).raise C6.page 1).err C6.page 0x0101 (BitVec.ofNat 32 n)

/-- KEY_GONE of the pipes, with the slot. -/
def State.pipeGone (s : State) (n : Nat) : State := (s.raise C6.page 2).err C6.page 0x0102 (BitVec.ofNat 32 n)

/-- The entries of the last ms. -/
def State.pipeRecent (s : State) : List (Nat × Nat × Nat) := s.pipeLog.filter (fun x => decide (s.mono < x.2.1 + 1000000))

/-- A pipe carries octets out or in (R404, R408). -/
def State.pipeTx (s : State) (p n : Nat) : State :=
  { s.count (C6.pipeTxBytes p) n with pipeLog := (p, s.mono, n) :: s.pipeRecent }

def State.pipeRx (s : State) (p n : Nat) : State :=
  { s.count (C6.pipeRxBytes p) n with pipeLog := (p, s.mono, n) :: s.pipeRecent }

/-- PIPE_LOAD: percent of both ways' 25 Gb/s over the last ms (R408; the base of the percentage is the model's reading). -/
def State.pipeLoad (s : State) (p : Nat) : Nat :=
  min 100 ((s.pipeRecent.filter (fun x => x.1 == p)).foldl (fun n x => n + x.2.2) 0 * 100 / 6250000)

/-- All slots are lost when die C leaves STANDBY or RUN (R405). -/
def State.pipeLose (s : State) : State := { s with pipeKeys := [], pipeLog := [] }

end Sys2Proof.Machine
end

