-- ==== Sys2Proof/Machine/Sched.lean ====
section
/-!
DEFINITION. The access scheduler: station table, key binding, target wake time, plans and TXOPs, MPDUs and block acknowledgement,
and its actions (R232 to R258).
-/
namespace Sys2Proof.Machine

/-! ## Station entries (R235) -/

/-- An entry that has never been written. -/
def Station.empty (i : Nat) : Station :=
  { idx := i, words := [0, 0, 0x8001, 0x1040, 0, 0, 0, 0], keyCur := 0, keyNext := 0, nextValid := false, airtime := 0,
    vtime := List.replicate 6 0, ps := false, poll := false, heard := 0, sent := 0, rcvd := 0, dropped := 0,
    txSn := List.replicate 8 0, tx := [], rx := [], bar := [], ul := 0, ulAt := none, removing := false }

/-- The entry of an index, written or not. -/
def State.entry (s : State) (i : Nat) : Station := (s.sched.stations.find? (fun (t : Station) => t.idx == i)).getD (Station.empty i)

/-- An entry replaced. -/
def State.setEntry (s : State) (t : Station) : State :=
  { s with sched := { s.sched with stations := t :: s.sched.stations.filter (fun (x : Station) => x.idx != t.idx) } }

/-- Valid stations of a partition, STA_CNT, and of the part, STA_TOTAL (R256). -/
def State.staCount (s : State) (p : Nat) : Nat := (s.sched.stations.filter (fun (t : Station) => t.valid && t.linked p)).length
def State.staTotal (s : State) : Nat := (s.sched.stations.filter Station.valid).length

/-- Words 8 to 15 of an entry (R235). -/
def State.staStatus (s : State) (t : Station) : List Word :=
  let first := ((List.range 6).find? (fun p => t.linked p)).getD 0
  [BitVec.ofNat 32 (t.keyCur + t.keyNext * 2 ^ 16 + b2n t.nextValid * 2 ^ 28), BitVec.ofNat 32 t.airtime,
   BitVec.ofNat 32 (t.airtime / 2 ^ 32), BitVec.ofNat 32 (t.vtime.getD first 0),
   BitVec.ofNat 32 (b2n t.ps + b2n ((List.range 6).any (fun p => t.linked p && s.weightsOk p t.idx)) * 2
     + min ((s.mono - t.heard) / 1000000) 0xFFFF * 2 ^ 16),
   BitVec.ofNat 32 t.sent, BitVec.ofNat 32 t.rcvd, BitVec.ofNat 32 t.dropped]

/-! ## Station commands (R233, R234, R251, R252, R258) -/

/-- A command of STA_CMD: discarded as STA_BUSY while one is in progress (R234). -/
def State.staCmd (s : State) (r : Requester) (cmd : Nat) (act : State → State) : State :=
  s.cmdWrite r C16.staCmd (fun t => if t.bit C16.staResult 31 then act t else t.err C16.page 0x0100 (BitVec.ofNat 32 cmd))

/-- A command ends: STA_RESULT and STA_DONE (R234). -/
def State.staDone (s : State) (status idx : Nat) : State :=
  (s.wr C16.staResult (BitVec.ofNat 32 (status + idx * 2 ^ 16 + 2 ^ 31))).raise C16.page 0

/-- A command fails with its error (R258). -/
def State.staFail (s : State) (status idx code info : Nat) : State := (s.err C16.page code (BitVec.ofNat 32 info)).staDone status idx

/-- WRITE copies words 0 to 7 as one unit; a link to a partition that is not enabled, or a 513th station of a partition, fails
and changes nothing (R233, R234). -/
def State.staWrite (s : State) (i : Nat) : State :=
  let ws := s.rdArr (C16.staData 0) 8
  let old := s.entry i
  let new : Station := { old with words := ws, heard := if old.valid then old.heard else s.mono }
  let ps := (List.range 6).filter (fun p => new.linked p)
  if new.valid && ps.any (fun p => !s.partOn p) then s.staFail 4 i 0x0103 i
  else match (if new.valid then ps.find? (fun p => !(old.valid && old.linked p) && decide (512 ≤ s.staCount p)) else none) with
    | some p => (s.raise C16.page 6).staFail 1 i 0x0101 p
    | none => (s.setEntry new).staDone 0 i

/-- STA_WRITE. -/
def execStaWrite (r : Requester) (idx : Fin 2048) (s : State) : Host.Outcome State Fault Refusal :=
  .next (s.staCmd r 1 (fun t => t.staWrite idx.val))

/-- STA_READ fills all 16 words (R234). -/
def execStaRead (r : Requester) (idx : Fin 2048) (s : State) : Host.Outcome State Fault Refusal :=
  .next (s.staCmd r 2 (fun t =>
    let e := t.entry idx.val
    (t.wrArr (C16.staData 0) (e.words ++ t.staStatus e)).staDone 0 idx.val))

/-- A command on an entry that must be valid, else STA_NOT_VALID. -/
def State.staNeeds (s : State) (i : Nat) (act : State → State) : State :=
  if (s.station i).isSome then act s else s.staFail 2 i 0x0102 i

/-- STA_REMOVE: the entry leaves the candidate lists; STA_RESULT stays not DONE until the end (R251). -/
def execStaRemove (r : Requester) (idx : Fin 2048) (s : State) : Host.Outcome State Fault Refusal :=
  .next (s.staCmd r 3 (fun t => t.staNeeds idx.val (fun u =>
    (u.onStation idx.val (fun e => { e with removing := true })).wr C16.staResult (BitVec.ofNat 32 (idx.val * 2 ^ 16)))))

/-- Queues of a station emptied; the frames count as dropped. -/
def State.staFlush (s : State) (i : Nat) (tids : List Nat) : State :=
  tids.foldl (fun t k =>
    let n := (t.queue (staQueue i k)).length
    (t.setQueue (staQueue i k) []).onStation i (fun e => { e with dropped := e.dropped + n })) s

/-- STA_REMOVE_DONE: once no MPDU of it is in a PPDU under way the entry is cleared, its queues are flushed and its unacknowledged MPDUs discarded (R251). -/
def execStaRemoveDone (idx : Fin 2048) (s : State) : Host.Outcome State Fault Refusal :=
  if (s.entry idx.val).removing && (s.entry idx.val).tx.all (fun (m : Mpdu) => m.air.isNone) then
    let s1 := s.staFlush idx.val (List.range 8)
    .next ({ s1 with sched := { s1.sched with stations := s1.sched.stations.filter (fun (t : Station) => t.idx != idx.val) } }.staDone 0 idx.val)
  else .next s

/-- STA_FLUSH: one TID or all (R257). -/
def execStaFlush (r : Requester) (idx : Fin 2048) (tid : Fin 8) (all : Bool) (s : State) : Host.Outcome State Fault Refusal :=
  .next (s.staCmd r 4 (fun t => t.staNeeds idx.val (fun u =>
    (u.staFlush idx.val (if all then List.range 8 else [tid.val])).staDone 0 idx.val)))

/-- STA_ALLOC: the lowest free index, or STA_FULL of the part (R233). -/
def execStaAlloc (r : Requester) (s : State) : Host.Outcome State Fault Refusal :=
  .next (s.staCmd r 5 (fun t =>
    match (List.range 2048).find? (fun i => (t.station i).isNone) with
    | some i => t.staDone 0 i
    | none => t.staFail 1 0 0x0101 0xFF))

/-- The slot that STA_KEY names is installed (R252). -/
def State.keyNamed (s : State) : Bool := (s.pipeKey (s.fld C16.staKey 11 0)).valid

/-- SET_KEY: the STA_KEY slot becomes KEY_CUR, or KEY_NEXT with NEXT_VALID (R252). -/
def execSetKey (r : Requester) (idx : Fin 2048) (s : State) : Host.Outcome State Fault Refusal :=
  .next (s.staCmd r 6 (fun t => t.staNeeds idx.val (fun u =>
    let k := u.fld C16.staKey 11 0
    if !u.keyNamed then u.staFail 2 idx.val 0x0102 idx.val
    else (u.onStation idx.val (fun e => if u.bit C16.staKey 12 then { e with keyNext := k, nextValid := true } else { e with keyCur := k })).staDone 0 idx.val)))

/-- A group key binding; one never made names slot 0. -/
def State.gkey (s : State) (i : Nat) : GroupKey :=
  (s.sched.gkeys.find? (fun (g : GroupKey) => g.idx == i)).getD { idx := i, cur := 0, next := 0, nextValid := false }

def State.setGkey (s : State) (g : GroupKey) : State :=
  { s with sched := { s.sched with gkeys := g :: s.sched.gkeys.filter (fun (x : GroupKey) => x.idx != g.idx) } }

/-- SET_GKEY: the same for partition × 16 + BSSID (R252, R257). -/
def execSetGkey (r : Requester) (idx : Fin 2048) (s : State) : Host.Outcome State Fault Refusal :=
  .next (s.staCmd r 7 (fun t =>
    let k := t.fld C16.staKey 11 0
    if 96 ≤ idx.val || !t.keyNamed then t.staFail 2 idx.val 0x0102 idx.val
    else
      let g := t.gkey idx.val
      (t.setGkey (if t.bit C16.staKey 12 then { g with next := k, nextValid := true } else { g with cur := k })).staDone 0 idx.val))

/-! ## TSF and target wake time (R249, R250) -/

/-- A TWT entry in use. -/
def State.twt (s : State) (i : Nat) : Option Twt := s.sched.twts.find? (fun (t : Twt) => t.idx == i)

def State.onTwt (s : State) (i : Nat) (f : Twt → Twt) : State :=
  { s with sched := { s.sched with twts := s.sched.twts.map (fun (t : Twt) => if t.idx == i then f t else t) } }

/-- A TWT command ends: TWT_RESULT and TWT_DONE (R257, R258). -/
def State.twtDone (s : State) (status idx : Nat) : State :=
  (s.wr C16.twtResult (BitVec.ofNat 32 (status + idx * 2 ^ 16 + 2 ^ 31))).raise C16.page 1

/-- ADD takes the lowest free entry; a first start less than 2 ms ahead is skipped, with TWT_SHORT (R250). -/
def State.twtAdd (s : State) : State :=
  let ws := s.rdArr (C16.twtData 0) 5
  let w0 := ws.getD 0 0
  let p := bitsOf w0 26 24
  let range := if bitOf w0 31 then (List.range 16).map (fun b => 1024 + 16 * p + b) else List.range 1024
  match range.find? (fun i => (s.twt i).isNone) with
  | none => (s.err C16.page 0x0104 (BitVec.ofNat 32 p)).twtDone 1 0
  | some i =>
    let t : Twt := { idx := i, words := ws, armed := true, opened := none, done := none }
    let first := t.nextStart (s.tsf p)
    let short := decide (first < s.tsf p + 2000)
    let s1 := { s with sched := { s.sched with twts := { t with done := if short then some first else none } :: s.sched.twts } }
    if short then (s1.err C16.page 0x0107 (BitVec.ofNat 32 i)).twtDone 3 i else s1.twtDone 0 i

/-- TWT_ADD. -/
def execTwtAdd (r : Requester) (s : State) : Host.Outcome State Fault Refusal := .next (s.cmdWrite r C16.twtCmd State.twtAdd)

/-- A TWT command on an entry in use, else NOT_VALID. -/
def State.twtNeeds (s : State) (i : Nat) (act : Twt → State → State) : State :=
  match s.twt i with
  | some t => act t s
  | none => (s.err C16.page 0x0102 (BitVec.ofNat 32 i)).twtDone 2 i

/-- TWT_REMOVE. -/
def execTwtRemove (r : Requester) (idx : Fin 2048) (s : State) : Host.Outcome State Fault Refusal :=
  .next (s.cmdWrite r C16.twtCmd (fun t => t.twtNeeds idx.val (fun _ u =>
    { u with sched := { u.sched with twts := u.sched.twts.filter (fun (x : Twt) => x.idx != idx.val) } }.twtDone 0 idx.val)))

/-- TWT_READ. -/
def execTwtRead (r : Requester) (idx : Fin 2048) (s : State) : Host.Outcome State Fault Refusal :=
  .next (s.cmdWrite r C16.twtCmd (fun t => t.twtNeeds idx.val (fun e u => (u.wrArr (C16.twtData 0) e.words).twtDone 0 idx.val)))

/-- An armed entry that may serve a start at `x`: none is open, this start is fresh, the partition runs, no step of time is pending, and
the period has not passed. -/
def State.twtServes (s : State) (t : Twt) (x : Nat) : Bool :=
  t.armed && t.opened.isNone && (match t.done with
    | some y => decide (y < x)
    | none => true) && s.partOn t.part && !s.epochPend && s.time.step.isNone && decide (s.tsf t.part < x + t.dur)

/-- A period starts at `x`, when it can; a trigger-enabled one calls for a trigger to its stations (R250). -/
def State.twtBegin (s : State) (entry : Nat) (t : Twt) : Option Nat → State
  | none => s
  | some x =>
    if s.twtServes t x then
      (s.onTwt entry (fun y => { y with opened := some x, done := some x })).onPs t.part (fun q =>
        { q with plan := { q.plan with bsrp := q.plan.bsrp || bitOf (t.word 0) 28 } })
    else s

/-- TWT_SP_START: an armed entry's start has come and its period has not passed; a start lost to a time step or a frozen epoch
is not served late (R250). -/
def execTwtSpStart (entry : Nat) (s : State) : Host.Outcome State Fault Refusal :=
  match s.twt entry with
  | none => .next s
  | some t => .next (s.twtBegin entry t (t.lastStart (s.tsf t.part)))

/-- TWT_SP_END: the period closes at its start plus its duration (R250). -/
def execTwtSpEnd (entry : Nat) (s : State) : Host.Outcome State Fault Refusal :=
  match s.twt entry with
  | none => .next s
  | some t =>
    match t.opened with
    | some x => if x + t.dur ≤ s.tsf t.part then .next (s.onTwt entry (fun y => { y with opened := none })) else .next s
    | none => .next s

/-! ## Eligibility and the scheduler's state (R237, R240, R248) -/

/-- SCHED_STAT.STATE (R240): 0 STOPPED, 1 IDLE, 2 CONTENDING, 3 TXOP, 4 PAUSED. -/
def State.schedState (s : State) (p : Nat) : Nat :=
  if !s.partOn p then 0
  else if (s.ps p).txop.isSome then 3
  else if !s.serviceOn p then 0
  else if (s.ps p).paused then 4
  else if s.sched.stations.any (fun (t : Station) => !(s.eligible p t).isEmpty || (t.valid && t.linked p && !t.retryable.isEmpty)
      || (t.valid && t.linked p && t.trig && t.ul != 0))
    || s.groupWaits p || s.spOpen p || (s.ps p).plan.bsrp || !(s.soundDue p).isEmpty then 2
  else 1

/-- PAUSE, or a SCHED_PAUSE action: at the end of any TXOP (R240). -/
def State.schedPause (s : State) (p : Nat) : State :=
  if s.schedState p = 0 then s
  else s.onPs p (fun q => if q.txop.isSome then { q with pauseReq := true } else { q with paused := true })

/-- RESUME, or a SCHED_RESUME action (R240). -/
def State.schedResume (s : State) (p : Nat) : State := s.onPs p (fun q => { q with paused := false, pauseReq := false })

/-- SCHED_CFG takes a word: with all service bits 0 the scheduler stops, at the end of any TXOP, and is no longer paused (R240). -/
def State.setSchedCfg (s : State) (p : Nat) (w : Word) : State :=
  let s1 := s.wr (C16.schedCfg p) w
  if s1.serviceOn p || s1.inTxop p then s1 else s1.onPs p (fun q => { q with paused := false, pauseReq := false })

/-- SCHED_CMD_PAUSE. -/
def execSchedCmdPause (r : Requester) (p : Fin 6) (s : State) : Host.Outcome State Fault Refusal :=
  .next (s.cmdWrite r (C16.schedCmd p.val) (fun t => t.schedPause p.val))

/-- SCHED_CMD_RESUME. -/
def execSchedCmdResume (r : Requester) (p : Fin 6) (s : State) : Host.Outcome State Fault Refusal :=
  .next (s.cmdWrite r (C16.schedCmd p.val) (fun t => t.schedResume p.val))

/-- PARTITION_ENABLE: the partition (R202), and its scheduler starts afresh (R240). On a member of another enabled partition it is discarded as
PART_MEMBER, and that is a refused placement too (R201, R202). -/
def execPartitionEnable (r : Requester) (d : Fin 6) (s : State) : Host.Outcome State Fault Refusal :=
  let a := HDR.pageCtrl (D4.page d.val)
  let s0 := if (s.memberOf d.val).isSome then s.cmdWrite r a (fun t => t.err (dWin d.val) 3 (BitVec.ofNat 32 d.val)) else s
  .next (s0.partWrite r d.val a (fun t =>
    if t.partOn d.val then t
    else (t.partEnable d.val).onPs d.val (fun q => { q with txop := none, paused := false, pauseReq := false })))

/-- PARTITION_DISABLE (R202). -/
def execPartitionDisable (r : Requester) (d : Fin 6) (s : State) : Host.Outcome State Fault Refusal :=
  .next (s.partWrite r d.val (HDR.pageCtrl (D4.page d.val)) (fun t => t.partDisable d.val))

/-- REPLAN: SCHED_CMD 3 (R241). -/
def execReplan (r : Requester) (p : Fin 6) (s : State) : Host.Outcome State Fault Refusal :=
  .next (s.cmdWrite r (C16.schedCmd p.val) (fun t => if t.partOn p.val then t.planBuild p.val else t))

/-- PLAN_REBUILD: every PLAN_US (R241). -/
def execPlanRebuild (p : Fin 6) (s : State) : Host.Outcome State Fault Refusal :=
  if s.schedState p.val ≠ 0 && (s.ps p.val).built + s.fld C16.asCfg 9 0 * 1000 ≤ s.mono then .next (s.planBuild p.val) else .next s

/-- BSRP_DUE (R246). -/
def execBsrpDue (p : Fin 6) (s : State) : Host.Outcome State Fault Refusal :=
  if s.schedState p.val ≠ 0 && s.bit (C16.schedCfg p.val) 1 && s.bsrpStale p.val then
    .next (s.onPs p.val (fun q => { q with plan := { q.plan with bsrp := true } }))
  else .next s

/-! ## TXOPs (R240, R241) -/

/-- Steps of a plan, in order: 0 SOUND, 1 DL, 2 UL, 3 ACK. With a TXOP limit of 0 they are one DL or one UL exchange, if either is due. -/
def State.planSteps (s : State) (p : Nat) (q : Plan) : List Nat :=
  let dl := !q.dl.isEmpty || s.groupWaits p
  let ul := !q.ul.isEmpty || q.bsrp
  if q.one && dl then [1]
  else if q.one && ul then (if q.ul.isEmpty then [2] else [2, 3])
  else (if q.sound.isEmpty then [] else [0]) ++ (if q.dl.isEmpty && !s.groupWaits p then [] else [1])
    ++ (if q.ul.isEmpty then (if q.bsrp then [2] else []) else [2, 3])

/-- TXOP_WON: a backoff ends on an idle medium; the standing plan runs (R240, R241). A plan that cannot hold one exchange is not
run (R242). -/
def execTxopWon (p : Fin 6) (s : State) : Host.Outcome State Fault Refusal :=
  let n := p.val
  let q := (s.ps n).plan
  let steps := s.planSteps n q
  if s.schedState n = 2 && decide (0 < s.planRoom n q) && !steps.isEmpty then
    .next (s.onPs n (fun x => { x with txop := some { ac := s.contendAc n, plan := q, steps := steps, prepared := false,
                                                      ends := s.mono + s.planRoom n q * 1000 } }))
  else .next s

/-- The plan that a TXOP runs: the one that was standing when it was won; outside a TXOP the standing plan (R241). -/
def State.txPlan (s : State) (p : Nat) : Plan :=
  match (s.ps p).txop with
  | some x => x.plan
  | none => (s.ps p).plan

/-- TXOP_END: the last step has ended or a step has failed; a pending pause takes effect, and the plan is rebuilt (R240, R241). An UL
step that no TB PPDU followed leaves its stations without reported backlog (R246). -/
def execTxopEnd (p : Fin 6) (s : State) : Host.Outcome State Fault Refusal :=
  let n := p.val
  match (s.ps n).txop with
  | none => .next s
  | some x =>
    let idle := if x.prepared && x.steps.head? = some 2 then x.plan.ul else []
    .next ((idle.foldl (fun t a => t.onStation a.sta (fun e => { e with ul := 0 })) s).txopCut n [])

/-- Frames that fit an allocation: octets it still carries. -/
def State.allocRoom (s : State) (p : Nat) (t : Station) (a : Alloc) : Nat :=
  Config.ruCapacity a.tones t.mcs a.streams (s.txPlan p).dlUs

/-- KEY_GONE with the slot, on the scheduler's page and the pipes' (R252, R406). -/
def State.keyGone (s : State) (slot : Nat) : State := ((s.raise C16.page 3).err C16.page 0x0106 (BitVec.ofNat 32 slot)).pipeGone slot

/-- A packet number is taken from a slot, or the reason it cannot be: the slot is erased, or exhausted (R252, R407). -/
def State.takePn (s : State) (slot : Nat) : Except Bool ((Nat × Nat × Nat) × State) :=
  let k := s.pipeKey slot
  if !k.valid then .error true
  else if k.exhausted || pnLimit ≤ k.pn then .error false
  else
    let s1 := s.setPipeKey { k with pn := k.pn + 1 }
    let s2 := if k.pn + 1 = pnLimit then ((s1.pipeExhaust slot).raise C16.page 2).err C16.page 0x0105 (BitVec.ofNat 32 slot) else s1
    .ok ((slot, k.gen, k.pn), s2)

/-- Deadline and DROP_LATE of a station's TID, as the plan in force read its profile (R238, R239). -/
def State.lateRule (s : State) (p : Nat) (t : Station) (tid : Nat) : Option Nat × Bool :=
  let l := (((s.txPlan p).late.find? (fun x => x.1 == t.idx)).getD (s.lateOf t)).2
  l.getD tid (none, false)

/-- A frame at dequeue: late by its profile (R238); the flag says it is dropped. -/
def State.lateJudge (s : State) (p : Nat) (t : Station) (tid : Nat) (x : QFrame) : Bool × State :=
  match (s.lateRule p t tid).1 with
  | none => (false, s)
  | some d =>
    if x.at_ + d < s.mono then
      if (s.lateRule p t tid).2 then (true, ((s.bump (C16.dropCnt p) 15 0 1).raise C16.page 4).staDrop t.idx)
      else (false, s.bump (C16.dropCnt p) 15 0 1)
    else (false, s)

/-- An MPDU goes into the PPDU of a partition. -/
def State.mpduOut (s : State) (p i : Nat) (m : Mpdu) : State :=
  (s.pipeTx (i % 8) m.frame.len).emit (.mpdu p i m.tid m.sn (m.key.map (fun k => (k.1, k.2.2))) m.frame)

/-- Retries of a station go first, as their stored ciphertext; one whose slot has been erased since is dropped as KEY_GONE
(R252, R253). -/
def State.takeRetries (s : State) (p i room : Nat) : Nat × State :=
  match s.station i with
  | none => (room, s)
  | some t =>
    t.retryable.foldl (fun (acc : Nat × State) m =>
      let gone := match m.key with
        | some k => (acc.2.pipeKey k.1).gone k.2.1
        | none => false
      if gone then (acc.1, ((acc.2.onStation i (fun x => { x with tx := x.tx.filter (fun y => !(y.tid == m.tid && y.sn == m.sn)) })).staDrop i).keyGone
        ((m.key.map (fun k => k.1)).getD 0))
      else if m.frame.len ≤ acc.1 then
        (acc.1 - m.frame.len, (acc.2.onStation i (fun x => { x with tx := x.tx.map (fun y =>
          if y.tid == m.tid && y.sn == m.sn then { y with air := some p } else y) })).mpduOut p i m)
      else acc) (room, s)

/-- One fresh frame of a station's TID is taken; none when the queue gives none now (R238, R252, R253). -/
def State.takeFresh (s : State) (p i tid room : Nat) : Option (Nat × State) :=
  match s.station i, s.head (staQueue i tid) with
  | some t, some x =>
    let q := staQueue i tid
    match s.lateJudge p t tid x with
    | (true, u) => some (room, u.pop q)
    | (false, u) =>
      if room < x.frame.len || t.window ≤ (t.tx.filter (fun (m : Mpdu) => m.tid == tid)).length then none
      else
        let send := fun (key : Option (Nat × Nat × Nat)) (v : State) =>
          let m : Mpdu := { tid := tid, sn := t.txSn.getD tid 0, frame := x.frame, key := key, retries := 0, air := some p }
          let v1 := (v.pop q).onStation i (fun y => { y with
            tx := y.tx ++ [m], txSn := y.txSn.set tid ((t.txSn.getD tid 0 + 1) % 4096), sent := y.sent + 1 })
          (room - x.frame.len, v1.mpduOut p i m)
        if !t.protected_ then some (send none u)
        else match u.takePn t.keyCur with
          | .ok (k, v) => some (send (some k) v)
          | .error true => some (room, ((u.pop q).staDrop i).keyGone t.keyCur)
          | .error false => none
  | _, _ => none

/-- Fresh frames of a station, TID by TID in falling class, as far as the allocation holds them. -/
def State.takeFrames (s : State) (p i : Nat) : Nat → List Nat → Nat → State
  | 0, _, _ => s
  | _, [], _ => s
  | n + 1, tid :: rest, room =>
    match s.takeFresh p i tid room with
    | some (r, t) => t.takeFrames p i n (tid :: rest) r
    | none => s.takeFrames p i n rest room

/-- Group-addressed frames of a partition, encrypted with their BSSID's group key. -/
def State.takeGroup (s : State) (p : Nat) : State :=
  (List.range 128).foldl (fun t k =>
    let q := 16640 + p * 128 + k
    match t.head q with
    | none => t
    | some x =>
      let slot := (t.gkey (p * 16 + k / 8)).cur
      match t.takePn slot with
      | .ok (key, u) => ((u.pop q).pipeTx ((p * 16 + k / 8) % 8) x.frame.len).emit (.group p (k / 8) (some (key.1, key.2.2)) x.frame)
      | .error true =>
        if (t.pipeKey slot).eraseGen ≠ 0 then (t.pop q).keyGone slot else (t.pop q).emit (.group p (k / 8) none x.frame)
      | .error false => t) s

/-- The DL PPDU takes its frames (R238, R241, R252, R253). -/
def State.prepareDl (s : State) (p : Nat) : State :=
  let dl := (s.txPlan p).dl
  let s1 := dl.foldl (fun t a =>
    match t.station a.sta with
    | none => t
    | some e =>
      let t0 := e.bar.foldl (fun u k => u.emit (.bar p a.sta k)) (t.onStation a.sta (fun x => { x with bar := [], poll := false }))
      match t0.takeRetries p a.sta (t0.allocRoom p e a) with
      | (room, u) => u.takeFrames p a.sta 4096 ((s.eligible p e).reverse) room) s
  let s2 := if dl.isEmpty then s1.takeGroup p else s1
  let mu := (dl.filter (fun a => a.mu)).foldl (fun n (a : Alloc) => n + a.streams) 0
  let s3 := (s2.setFld (C16.schedStat p) 15 8 dl.length).setFld (C16.schedStat p) 20 16 mu
  if 1 < dl.length then s3.bump (C16.ppduCnt p) 15 0 1 else s3

/-- A PPDU of `us` µs goes to the sequencer: as a scheduled transmission where the scheduler holds an action slot for it, else without an
ATIME (R213). -/
def State.ppduHand (s : State) (p : Fin 6) (us : Nat) : Option (Fin 8) → State
  | some i => s.ppduScheduled p i us
  | none => s.ppduRequest p.val 1 us

/-- Time of a TXOP that is left for a PPDU, µs: up to the TXOP's end, less the acknowledgement exchange that follows a DL PPDU or a
trigger (R241, R242, R244). -/
def State.stepRoom (s : State) (p : Nat) (x : Txop) : Nat :=
  (x.ends - s.mono) / 1000 - (if x.steps.head? = some 3 then 0 else Config.ackExchange p)

/-- The length of a PPDU of a TXOP, µs: a DL PPDU to stations is as long as its largest backlog needs, and none passes the TXOP's end
(R241, R244). -/
def State.stepUs (s : State) (p : Nat) (x : Txop) (us : Nat) : Nat :=
  min (s.stepRoom p x) (if x.steps.head? = some 1 && !x.plan.dl.isEmpty then min us x.plan.dlUs else us)

/-- The trigger of the UL step: Basic to the stations that the plan gives RUs, or BSRP to every TRIG station of the partition (R241, R246). -/
def State.sendTrigger (s : State) (p : Nat) (q : Plan) : State :=
  let rssi := s.fld (C16.ulCfg p) 7 0
  if q.ul.isEmpty then
    s.emit (.trigger p false ((s.sched.stations.filter (fun (t : Station) => t.valid && t.linked p && !t.removing && t.trig)).map
      (fun t => (t.idx, 0, 0))) rssi)
  else s.emit (.trigger p true (q.ul.map (fun a => (a.sta, a.streams, a.tones))) rssi)

/-- PPDU_PREPARE: at a PPDU's preparation instant its frames are taken, and it is handed to the sequencer. A SOUND step is the sounding
sequence, which SOUNDING_START begins; where the TXOP has no time left for the PPDU its step fails, and the TXOP ends (R213, R240, R241). -/
def execPpduPrepare (p : Fin 6) (us : Nat) (slot : Option (Fin 8)) (s : State) : Host.Outcome State Fault Refusal :=
  let n := p.val
  match (s.ps n).txop with
  | none => .next s
  | some x =>
    let x1 := if x.prepared && x.steps.head? = some 0 && (s.part? n).sounding.isNone then { x with steps := x.steps.tail, prepared := false } else x
    let s0 := s.onPs n (fun q => { q with txop := some { x1 with prepared := true } })
    if x1.prepared then .next s
    else match x1.steps with
      | [] => .next s
      | 0 :: _ => .next (s0.onPs n (fun q => { q with soundAgain := q.soundAgain.filter (fun i => !x1.plan.sound.contains i) }))
      | k :: _ =>
        let len := s.stepUs n x1 us
        if len = 0 then .next (s.txopCut n [])
        else if k = 1 then .next ((s0.prepareDl n).ppduHand p len slot)
        else if k = 2 then
          .next ((((s0.bump (C16.ppduCnt n) 31 16 1).onPs n (fun q => { q with plan := { q.plan with bsrp := false } })).sendTrigger n x1.plan).ppduHand p len slot)
        else .next (s0.ppduHand p len slot)

/-! ## Airtime (R243) -/

/-- A station is charged ns of data airtime on a partition (R243). -/
def State.charge (s : State) (p i ns : Nat) : State :=
  let s1 := s.onStation i (fun t => { t with airtime := (t.airtime + ns) % 2 ^ 64, vtime := t.vtime.set p ((t.vtime.getD p 0 + ns * 256 / max t.weight 1) % 2 ^ 32) })
  let r := (s.ps p).residue + ns
  (s1.count (C16.airtime p) (r / 1000)).onPs p (fun q => { q with residue := r % 1000 })

/-- The charges of a PPDU's users: those of `l` that sent or were sent data, of all the users `all` of its RUs (R243). -/
def State.chargeAll (s : State) (p us : Nat) (all l : List Alloc) : State :=
  let whole := wholeTones (bitsOf (s.partChanOf p) 4 2)
  let mu := (all.filter (fun a => a.mu)).foldl (fun n (a : Alloc) => n + a.streams) 0
  l.foldl (fun t a => t.charge p a.sta (if a.mu then us * 1000 * a.tones * a.streams / (whole * max mu 1) else us * 1000 * a.tones / whole)) s

/-- PPDU_TX_END: the sequencer's end of the PPDU (R206); a DL data PPDU is charged to its stations (R243). -/
def execPpduTxEnd (d : Fin 6) (next : Nat) (expectsResponse : Bool) (levels : List ChainLevel) (s : State) : Host.Outcome State Fault Refusal :=
  let n := d.val
  match (s.part? n).tx with
  | none => .next s
  | some t =>
    let s1 := s.ppduTxEnd d next expectsResponse levels
    match (s.ps n).txop with
    | none => .next s1
    | some x =>
      if (t.kind ≠ 1 && t.kind ≠ 3) || !x.prepared then .next s1
      else match x.steps with
        | 1 :: rest => .next ((s1.chargeAll n t.us x.plan.dl x.plan.dl).onPs n (fun q => { q with txop := q.txop.map (fun y => { y with steps := rest, prepared := false }) }))
        | 3 :: rest => .next (s1.onPs n (fun q => { q with txop := q.txop.map (fun y => { y with steps := rest, prepared := false }) }))
        | _ => .next s1

/-- PPDU_RX_END: the sequencer's end of a reception (R210); in the UL step, TB PPDUs are charged, and a station that sent none
has its reported backlog set to 0 (R243, R246). `tb` are the stations whose TB data PPDUs were received. -/
def execPpduRxEnd (d : Fin 6) (respond : Option Nat) (us : Nat) (tb : List Nat) (levels : List ChainLevel) (s : State) : Host.Outcome State Fault Refusal :=
  let n := d.val
  match (s.part? n).rx with
  | none => .next s
  | some r =>
    if r.tentative then .next s
    else
      let s1 := s.ppduRxEnd n respond levels
      match (s.ps n).txop with
      | none => .next s1
      | some x =>
        if !x.prepared then .next s1
        else match x.steps with
          | 2 :: rest =>
            let ul := x.plan.ul
            let s2 := s1.chargeAll n us ul (ul.filter (fun a => tb.contains a.sta))
            let s3 := (ul.filter (fun a => !tb.contains a.sta)).foldl (fun t a => t.onStation a.sta (fun e => { e with ul := 0 })) s2
            .next (s3.onPs n (fun q => { q with txop := q.txop.map (fun y => { y with steps := rest, prepared := false }) }))
          | _ => .next s1

/-! ## Acknowledgement (R253) -/

/-- BLOCK_ACK_RX. -/
def execBlockAckRx (p : Fin 6) (b : BlockAck) (s : State) : Host.Outcome State Fault Refusal :=
  match s.sched.stations.find? (fun (t : Station) => t.idx == b.sta) with
  | none => .next s
  | some t =>
    let mine := t.tx.filter (fun (m : Mpdu) => m.tid == b.tid && m.air == some p.val)
    .next (mine.foldl (fun u m =>
      if (b.acked.getD []).contains m.sn then u.onStation b.sta (fun x => { x with tx := x.tx.filter (fun y => !(y.tid == m.tid && y.sn == m.sn)) })
      else u.mpduFail p.val b.sta m) s)

/-! ## Reception (R236, R246, R248, R252 to R254) -/

/-- The receive side of a station's TID. -/
def Station.rxOf (t : Station) (tid : Nat) : TidRx :=
  (t.rx.find? (fun (x : TidRx) => x.tid == tid)).getD { tid := tid, start := 0, got := [], held := [], gap := none, lastSn := none, lastPn := 0 }

def State.setRx (s : State) (i : Nat) (x : TidRx) : State :=
  s.onStation i (fun t => { t with rx := x :: t.rx.filter (fun (y : TidRx) => y.tid != x.tid) })

/-- The link whose member 1 is a station entry of a lent partition (R294, R295). -/
def State.lentLink (s : State) (p i : Nat) : Option Nat :=
  (List.range 8).find? (fun l => s.bit (C17.linkCfg l) 31 && s.fld (C17.linkCfg l) 6 4 == p && s.fld (C17.linkCfg l) 26 16 == i)

/-- An accepted frame leaves for forwarding, or for the cross-band link unit (R253, R295). -/
def State.deliver (s : State) (p i tid : Nat) (f : Frame) : State :=
  match s.lentLink p i with
  | some l => s.emit (.partToXbl l f)
  | none => s.ingress (p + 8) f { sta := i, bssid := (s.entry i).bssid, cls := tid, origin := 0 }

/-- The scoreboard moves on over what has been received; frames released, in sequence order (R253). -/
def TidRx.advance (x : TidRx) : Nat → List Frame × TidRx
  | 0 => ([], x)
  | n + 1 =>
    if x.got.contains x.start then
      let out := (x.held.filter (fun h => h.1 == x.start)).map Prod.snd
      let x1 : TidRx := { x with start := (x.start + 1) % 4096, got := x.got.filter (fun k => k != x.start), held := x.held.filter (fun h => h.1 != x.start) }
      match x1.advance n with
      | (l, y) => (out ++ l, y)
    else ([], x)

/-- The scoreboard's window moves up to a start, releasing what lies before it, in order. -/
def TidRx.moveTo (x : TidRx) (start : Nat) : Nat → List Frame × TidRx
  | 0 => ([], x)
  | n + 1 =>
    if x.start = start then ([], x)
    else
      let out := (x.held.filter (fun h => h.1 == x.start)).map Prod.snd
      let x1 : TidRx := { x with start := (x.start + 1) % 4096, got := x.got.filter (fun k => k != x.start), held := x.held.filter (fun h => h.1 != x.start) }
      match x1.moveTo start n with
      | (l, y) => (out ++ l, y)

/-- Frames of a TID are delivered and its receive side is stored; a gap before held frames is timed. -/
def State.release (s : State) (p i : Nat) (x : TidRx) (fs : List Frame) : State :=
  let x1 : TidRx := { x with gap := if x.held.isEmpty then none else (if fs.isEmpty then some (x.gap.getD s.mono) else some s.mono) }
  fs.foldl (fun t f => t.deliver p i x.tid f) (s.setRx i x1)

/-- What the frame says of its station: heard, power save, a poll, a queue size (R246, R248). -/
def State.mpduHear (s : State) (m : MpduRx) : State :=
  s.onStation m.sta (fun t => { t with
    heard := s.mono, ps := m.pm, poll := t.poll || m.poll
    ul := m.queueSize.getD t.ul, ulAt := if m.queueSize.isSome then some s.mono else t.ulAt })

/-- Decryption with the key the Key ID selects, and the packet-number check; none where the MPDU is dropped (R252, R254, R406). -/
def State.mpduOpen (s : State) (p : Nat) (t : Station) (x : TidRx) (m : MpduRx) : Bool × State :=
  if !t.protected_ then (true, s)
  else
    let slot := if m.useNext then t.keyNext else t.keyCur
    let s1 := s.pipeRx (t.idx % 8) ((m.frame.map (fun (f : Frame) => f.len)).getD 0)
    if !(s.pipeKey slot).valid || !m.authOk || (m.useNext && !t.nextValid) then (false, s1.count (C6.pipeAuthFail (t.idx % 8)) 1)
    else if m.pn ≤ x.lastPn then (false, s1.bump (C16.dupCnt p) 31 16 1)
    else (true, s1)

/-- An MPDU under a block acknowledgement agreement with a window of `n` (R253, R254). -/
def State.mpduBa (s : State) (p : Nat) (t : Station) (m : MpduRx) (n : Nat) : State :=
  let x := t.rxOf m.tid
  let ahead := (sdiff 12 m.sn x.start)
  if ahead < 0 || x.got.contains m.sn then s.bump (C16.dupCnt p) 15 0 1
  else
    let moved := if (n : Int) ≤ ahead then x.moveTo ((m.sn + 4096 + 1 - n) % 4096) 4096 else ([], x)
    let y : TidRx := { moved.2 with got := m.sn :: moved.2.got }
    match s.mpduOpen p t x m with
    | (ok, u) =>
      let z : TidRx := if ok then { y with
          held := match m.frame with
            | some f => (m.sn, f) :: y.held
            | none => y.held
          lastPn := if t.protected_ then m.pn else y.lastPn } else y
      let u1 := if ok then u.onStation m.sta (fun e => { e with rcvd := e.rcvd + 1 }) else u
      match z.advance 4096 with
      | (fs, w) => u1.release p m.sta w (moved.1 ++ fs)

/-- An MPDU without an agreement (R254). -/
def State.mpduPlain (s : State) (p : Nat) (t : Station) (m : MpduRx) : State :=
  let x := t.rxOf m.tid
  if m.retry && x.lastSn == some m.sn then s.bump (C16.dupCnt p) 15 0 1
  else
    match s.mpduOpen p t x m with
    | (ok, u) =>
      let y : TidRx := { x with lastSn := some m.sn, lastPn := if ok && t.protected_ then m.pn else x.lastPn }
      let u1 := u.setRx m.sta y
      if !ok then u1
      else
        let u2 := u1.onStation m.sta (fun e => { e with rcvd := e.rcvd + 1 })
        match m.frame with
        | some f => u2.deliver p m.sta m.tid f
        | none => u2

/-- MPDU_RX: judged in the order of R254. -/
def execMpduRx (p : Fin 6) (m : MpduRx) (s : State) : Host.Outcome State Fault Refusal :=
  let n := p.val
  match s.station m.sta with
  | none => .next s
  | some t =>
    if !t.linked n || !s.partOn n then .next s
    else if 8 ≤ m.tid then .next (s.count C16.tidDrop 1)
    else
      let s1 := (s.mpduHear m).emit (.mpduAck n m.sta m.tid m.sn)
      match m.ba with
      | some w => .next (s1.mpduBa n t m (min w 1024))
      | none => .next (s1.mpduPlain n t m)

/-- REORDER_TIMEOUT: a gap open for REORDER_TO is given up (R253). -/
def execReorderTimeout (sta : Nat) (tid : Fin 8) (s : State) : Host.Outcome State Fault Refusal :=
  match s.station sta with
  | none => .next s
  | some t =>
    let x := t.rxOf tid.val
    let p := ((List.range 6).find? (fun k => t.linked k)).getD 0
    match x.gap with
    | none => .next s
    | some g =>
      if s.mono < g + s.fld C16.asCfg 23 16 * 1000000 then .next s
      else
        let nxt := x.held.foldl (fun (b : Option Nat) h => match b with
          | none => some h.1
          | some y => if sdiff 12 h.1 y < 0 then some h.1 else some y) none
        match nxt with
        | none => .next s
        | some k =>
          match (x.moveTo k 4096).2.advance 4096 with
          | (fs, w) => .next (s.release p sta w ((x.moveTo k 4096).1 ++ fs))

/-! ## Actions (R252, R255) -/

/-- Target of an action (R257). -/
def actTarget (a : PendAct) : Nat := bitsOf a.desc 26 16

/-- What a scheduler action does; none where it cannot be carried out (R255). -/
def schedPerform (a : PendAct) (s : State) : Option State :=
  let n := actTarget a
  match bitsOf a.desc 2 0 with
  | 0 =>
    match s.station n with
    | some t => if t.nextValid then some (s.onStation n (fun e => { e with keyCur := e.keyNext, nextValid := false })) else none
    | none => none
  | 1 => let g := s.gkey n; if g.nextValid then some (s.setGkey { g with cur := g.next, nextValid := false }) else none
  | 2 => if (s.twt n).isSome then some (s.onTwt n (fun t => { t with armed := true })) else none
  | 3 => if (s.twt n).isSome then some (s.onTwt n (fun t => { t with armed := false, opened := none })) else none
  | 4 => if n < 6 && s.partOn n then some (s.schedPause n) else none
  | _ => if n < 6 && s.partOn n then some (s.schedResume n) else none

/-- A scheduler action of a kind at its T; its end raises ACT_DONE (R255, R258). -/
def State.schedActAtT (s : State) (i : Fin 8) (k : Nat) : State :=
  match s.pendAct (.sched i) with
  | none => s
  | some a =>
    if bitsOf a.desc 2 0 ≠ k then s
    else s.actAtT (.sched i) schedPerform

/-- STA_KEY_SWITCH (R252). -/
def execStaKeySwitch (i : Fin 8) (s : State) : Host.Outcome State Fault Refusal := .next (s.schedActAtT i 0)
/-- GKEY_SWITCH (R255). -/
def execGkeySwitch (i : Fin 8) (s : State) : Host.Outcome State Fault Refusal := .next (s.schedActAtT i 1)
/-- TWT_ENABLE (R255). -/
def execTwtEnable (i : Fin 8) (s : State) : Host.Outcome State Fault Refusal := .next (s.schedActAtT i 2)
/-- TWT_DISABLE (R255). -/
def execTwtDisable (i : Fin 8) (s : State) : Host.Outcome State Fault Refusal := .next (s.schedActAtT i 3)
/-- SCHED_PAUSE (R255). -/
def execSchedPause (i : Fin 8) (s : State) : Host.Outcome State Fault Refusal := .next (s.schedActAtT i 4)
/-- SCHED_RESUME (R255). -/
def execSchedResume (i : Fin 8) (s : State) : Host.Outcome State Fault Refusal := .next (s.schedActAtT i 5)

end Sys2Proof.Machine
end

