-- ==== Sys2Proof/Machine/Xbl.lean ====
section
/-!
DEFINITION. Cross-band links: enabling, steering, dispatch, receive window and order, acknowledgement and retransmission, member
health and failover, and link keys (R293 to R316).
-/
namespace Sys2Proof.Machine

/-! ## Links and their members -/

/-- Link context `l`. -/
def State.link (s : State) (l : Nat) : XblLink := s.xbl.getD l (XblLink.fresh 0 0)

/-- A link context changed. -/
def State.onLink (s : State) (l : Nat) (f : XblLink → XblLink) : State := { s with xbl := s.xbl.set l (f (s.link l)) }

/-- A class of a link, and a class changed. -/
def XblLink.cls (x : XblLink) (c : Nat) : XblClass := x.classes.getD c { cur := none, wait := none, prev := none, last := none }

def XblLink.onCls (x : XblLink) (c : Nat) (f : XblClass → XblClass) : XblLink := { x with classes := x.classes.set c (f (x.cls c)) }

/-- A member of a link changed. -/
def XblLink.mem (x : XblLink) (m : Nat) : XblMember := x.members.getD m { clear := 0, heard := 0, report := 0 }

def XblLink.onMem (x : XblLink) (m : Nat) (f : XblMember → XblMember) : XblLink := { x with members := x.members.set m (f (x.mem m)) }

/-- The link is enabled (R314, R315). -/
def State.linkOn (s : State) (l : Nat) : Bool := s.cRuns && s.bit (C17.linkCfg l) 31

/-- LINK_CFG.DIR and PART. -/
def State.linkDir (s : State) (l : Nat) : Nat := s.fld (C17.linkCfg l) 3 0

def State.linkPart (s : State) (l : Nat) : Nat := s.fld (C17.linkCfg l) 6 4

/-- The link has the member (R293). -/
def linkHas (cfg : Word) (m : Nat) : Bool := m == 0 || (m == 1 && bitsOf cfg 6 4 != 7) || (m == 2 && bitOf cfg 8)

/-- MEMBER_STAT codes: 0 ABSENT, 1 DOWN, 2 UP, 3 HOLDING (R308). -/
def State.mState (s : State) (l m : Nat) : Nat := s.fld (C17.memberStat l) (2 * m + 1) (2 * m)

/-- A member's state changes; its change is a source event of the Grate (R308, R368). -/
def State.setMState (s : State) (l m v : Nat) : State :=
  if s.mState l m = v then s else (s.setFld (C17.memberStat l) (2 * m + 1) (2 * m) v).sourceEvent (0x68 + l)

/-- The peer's latest MUP shows a member UP. -/
def State.peerUp (s : State) (l m : Nat) : Bool := s.bit (C17.memberStat l) (8 + m)

/-- A member is available for transmission (R308). -/
def State.memAvail (s : State) (l m : Nat) : Bool := s.mState l m == 2 && s.peerUp l m

/-- MUP: the members UP at this end (R297). -/
def State.mup (s : State) (l : Nat) : Nat := (List.range 3).foldl (fun n m => if s.mState l m == 2 then n + 2 ^ m else n) 0

/-- A block event of a link, and its LINK_EVT bit (R314, R316). -/
def State.linkRaise (s : State) (l n : Nat) : State := (s.setBit C17.linkEvt l true).raise C17.page n

/-- The link key slot in use (R312). -/
def State.linkKey (s : State) (l : Nat) : Nat := 4096 + s.fld (C17.keySel l) 5 0

/-! ## Steering (R306, R307) -/

/-- The steering byte of a class. -/
def State.steer (s : State) (l c : Nat) : Nat :=
  if c < 4 then s.fld (C17.steerLo l) (8 * c + 7) (8 * c) else s.fld (C17.steerHi l) (8 * (c - 4) + 7) (8 * (c - 4))

/-- The preference order of a class; a member named twice counts at its first place. -/
def State.order (s : State) (l c : Nat) : List Nat :=
  let b := s.steer l c
  ([b % 4, b / 4 % 4, b / 16 % 4].filter (fun m => m != 3)).eraseDups

/-- The members of its order that are available, best first. -/
def State.choices (s : State) (l c : Nat) : List Nat := (s.order l c).filter (fun m => s.memAvail l m)

/-- The frames of a class sent on a member are all acknowledged. -/
def XblLink.clearOf (x : XblLink) (c m : Nat) : Bool := x.store.all (fun (e : XblSent) => !(e.cls == c && e.member == m))

/-- A class settles on its member: it leaves one that is not available at once; for a move to another it first waits; the loss of
its last member is NO_MEMBER (R306, R307, R310). -/
def State.settleClass (s : State) (l c : Nat) : State :=
  let x := (s.link l).cls c
  let want := (s.choices l c).head?
  match x.cur with
  | some m =>
    if want = some m then s.onLink l (fun y => y.onCls c (fun k => { k with wait := none }))
    else if s.memAvail l m && want.isSome then s.onLink l (fun y => y.onCls c (fun k => { k with wait := some (k.wait.getD s.mono) }))
    else
      let s1 := s.onLink l (fun y => y.onCls c (fun k => { k with cur := want, wait := none }))
      if want.isNone then (s1.linkRaise l 6).err C17.page 0x0103 (BitVec.ofNat 32 (l * 256 + c)) else s1
  | none => s.onLink l (fun y => y.onCls c (fun k => { k with cur := want, wait := none }))

/-- Every class of a link settles. -/
def State.settle (s : State) (l : Nat) : State := (List.range 8).foldl (fun t c => t.settleClass l c) s

/-- A class that waits moves once its frames are acknowledged or RETURN_WAIT is over (R307). -/
def State.returnMove (s : State) (l c : Nat) : State :=
  let x := s.link l
  match (x.cls c).wait, (x.cls c).cur with
  | some t, some m =>
    if x.clearOf c m || decide (t + s.fld (C17.reorder l) 14 8 * 100000 ≤ s.mono) then
      s.onLink l (fun y => y.onCls c (fun k => { k with cur := (s.choices l c).head?, wait := none }))
    else s
  | _, _ => s

/-- RETURN_WAIT_END. -/
def execReturnWaitEnd (l : Fin 8) (c : Fin 8) (s : State) : Host.Outcome State Fault Refusal :=
  if s.linkOn l.val then .next (s.returnMove l.val c.val) else .next s

/-! ## Frames (R297 to R300) -/

/-- The octets of an Ethernet frame. -/
def frameOctets (f : Frame) : List Byte :=
  be 6 f.dst ++ be 6 f.src ++ (match f.tag with
    | some (pcp, vid) => be 2 0x8100 ++ be 2 (pcp * 8192 + vid)
    | none => []) ++ f.payload

/-- Header octets 0 and 1, and 3 to 15 (R297). -/
def xblFixed (type cls : Nat) (phase dup : Bool) (pn prev : Nat) : List Byte × List Byte :=
  (be 1 (1 + type * 4) ++ be 1 (cls + b2n phase * 8 + b2n dup * 16), be 1 0 ++ be 6 pn ++ be 3 prev ++ be 3 0)

/-- A sealed payload: nonce of LINK_ID.OWN and PN, and the header without byte 2 (R298). -/
def State.xblSeal (s : State) (l : Nat) (fixed : List Byte × List Byte) (pn : Nat) (text : List Byte) : List Byte :=
  Config.gcmSeal (s.pipeKey (s.linkKey l)).key (be 2 (s.fld (C17.linkId l) 15 0) ++ be 4 0 ++ be 6 pn) (fixed.1 ++ fixed.2) text

/-- An XBL frame goes to a member's transmitter: on member 0 it waits for its direction's next frame, on member 1 into the peer entry's queue of its class, on member 2 as a mesh frame
of TYPE 0x7 to SUB_PEER (R267, R295, R296). -/
def State.xblPut (s : State) (l m cls : Nat) (octets : List Byte) : State :=
  let s1 := (s.pipeTx l octets.length).emit (.xbl l m octets)
  if m = 1 then
    s1.intakeFrame (staQueue (s.fld (C17.linkCfg l) 26 16) cls) { dst := 0, src := 0, tag := none, ip := none, len := octets.length, payload := octets } 0
  else if m = 2 then
    let peer := s.fld (C17.subPeer l) 15 0
    s1.macQueue (s1.freshTx { mtype := 7, ttl := 1, ext := false, origin := s.meshAddr, dest := peer, mseq := 0, payload := octets } peer 0 none none false)
  else s1.onDir (s.linkDir l) (fun x => { x with outq := x.outq ++ [octets] })

/-- A transmission of a copy: MUTABLE names the members UP, the member, and a retransmission (R297). -/
def State.xblSend (s : State) (l m cls : Nat) (fixed : List Byte × List Byte) (cipher : List Byte) (retx : Bool) : State :=
  s.xblPut l m cls (fixed.1 ++ be 1 (s.mup l + m * 8 + b2n retx * 32) ++ fixed.2 ++ cipher)

/-- The sequence window is closed: the next SEQ lies 32,768 or more beyond the oldest unacknowledged DATA frame (R300). -/
def XblLink.closed (x : XblLink) : Bool := x.store.any (fun (e : XblSent) => decide (32768 ≤ (x.next + 2 ^ 24 - e.seq) % 2 ^ 24))

/-- A sequence can be assigned: the window is open and the key can encrypt (R300, R313). -/
def State.canSeq (s : State) (l : Nat) : Bool :=
  let k := s.pipeKey (s.linkKey l)
  !(s.link l).closed && k.valid && !k.exhausted && decide ((s.link l).wrap * 2 ^ 24 + (s.link l).next < pnLimit)

/-- WIN_STALL is raised when the window is first found closed (R300). -/
def State.stallCheck (s : State) (l : Nat) : State :=
  let shut := (s.link l).closed
  let s1 := s.onLink l (fun x => { x with stall := shut })
  if shut && !(s.link l).stall then s1.linkRaise l 7 else s1

/-- The next sequence and packet number are assigned; the last one of a key exhausts it (R300, R313, R407). -/
def State.takeSeq (s : State) (l : Nat) : (Nat × Nat) × State :=
  let x := s.link l
  let pn := x.wrap * 2 ^ 24 + x.next
  let slot := s.linkKey l
  let s1 := s.onLink l (fun y => { y with next := (y.next + 1) % 2 ^ 24, wrap := if y.next + 1 = 2 ^ 24 then y.wrap + 1 else y.wrap, sends := y.sends + 1 })
  let s2 := s1.setPipeKey { s1.pipeKey slot with pn := pn }
  ((x.next, pn), if pn + 1 = pnLimit then ((s2.pipeExhaust slot).linkRaise l 4).err C17.page 0x0101 (BitVec.ofNat 32 slot) else s2)

/-- A frame that is not kept: ACK, TT or KEEPALIVE, of class 7 (R300, R305). -/
def State.xblControl (s : State) (l m type : Nat) (text : List Byte) : State :=
  if !s.canSeq l then s.stallCheck l
  else
    let phase := (s.link l).phase
    match s.takeSeq l with
    | ((_, pn), s1) =>
      let fixed := xblFixed type 7 phase false pn 0
      s1.xblSend l m 7 fixed (s.xblSeal l fixed pn text) false

/-- A DATA frame receives its SEQ, is encrypted, kept, and sent on a member, and with DUP on a second one (R300, R305, R306). -/
def State.xblData (s : State) (l c m : Nat) (second : Option Nat) (f : Frame) : State :=
  let x := s.link l
  match s.takeSeq l with
  | ((seq, pn), s1) =>
    let fixed := xblFixed 0 c x.phase second.isSome pn ((x.cls c).prev.getD 0)
    let cipher := s.xblSeal l fixed pn (frameOctets f)
    let slot := s.linkKey l
    let e : XblSent := { seq := seq, pn := pn, cls := c, prev := (x.cls c).prev, len := f.len, cipher := cipher, slot := slot,
                         gen := (s.pipeKey slot).gen, phase := x.phase, dup := second.isSome, member := m, order := x.sends,
                         last := s.mono, retx := 0, ready := false }
    let s2 := s1.onLink l (fun y => { y.onCls c (fun k => { k with prev := some seq }) with store := y.store ++ [e] })
    let s3 := s2.xblSend l m c fixed cipher false
    match second with
    | some k => s3.xblSend l k c fixed cipher false
    | none => s3

/-! ## Retransmission (R305, R311, R313) -/

/-- An unacknowledged frame leaves the store undelivered. -/
def State.xblDrop (s : State) (l seq : Nat) : State :=
  (s.onLink l (fun x => { x with store := x.store.filter (fun (e : XblSent) => e.seq != seq) })).bump (C17.txCnt l) 31 16 1

/-- A frame is handed over for retransmission, or dropped after RETX_MAX; one already handed over counts once (R305, R311). -/
def State.handOver (s : State) (l : Nat) (e : XblSent) : State :=
  if e.ready then s
  else if s.fld (C17.reorder l) 19 16 ≤ e.retx then s.xblDrop l e.seq
  else s.onLink l (fun x => { x with store := x.store.map (fun (y : XblSent) => if y.seq = e.seq then { y with ready := true, retx := y.retx + 1 } else y) })

/-- A retransmission goes out on its class's member with the ciphertext it was first sent with, unless its slot has been erased;
one too long for member 2 is dropped where its class has no better member (R299, R305, R313, R406). -/
def State.xblResend (s : State) (l m : Nat) (e : XblSent) : State :=
  if (s.pipeKey e.slot).gone e.gen then
    let s1 := s.onLink l (fun x => { x with store := x.store.filter (fun (y : XblSent) => y.seq != e.seq) })
    ((s1.linkRaise l 5).err C17.page 0x0102 (BitVec.ofNat 32 e.slot)).pipeGone e.slot
  else if m = 2 && decide (1248 < e.len) then
    (s.xblDrop l e.seq).err C17.page 0x0104 (BitVec.ofNat 32 l)
  else
    let n := (s.link l).sends
    let s1 := s.onLink l (fun x => { x with sends := n + 1, store := x.store.map (fun (y : XblSent) =>
      if y.seq = e.seq then { y with ready := false, member := m, order := n, last := s.mono } else y) })
    (s1.bump (C17.txCnt l) 15 0 1).xblSend l m e.cls (xblFixed 0 e.cls e.phase e.dup e.pn (e.prev.getD 0)) e.cipher true

/-- RETX_TO of a member, in ns. -/
def State.retxTo (s : State) (l m : Nat) : Nat :=
  if m = 0 then s.fld (C17.retxTo l) 6 0 * 1000000 else if m = 1 then s.fld (C17.retxTo l) 14 8 * 1000000
  else s.fld (C17.retxTo l) 22 16 * 100000000

/-- XBL_RETX_TIMEOUT: with no member for its class the frame stays in the store until one returns (R305, R311). -/
def execXblRetxTimeout (l : Fin 8) (seq : Nat) (s : State) : Host.Outcome State Fault Refusal :=
  match (s.link l.val).store.find? (fun (e : XblSent) => e.seq == seq) with
  | none => .next s
  | some e =>
    if !s.linkOn l.val || s.mono < e.last + s.retxTo l.val e.member then .next s
    else if s.fld (C17.reorder l.val) 19 16 ≤ e.retx then .next (s.xblDrop l.val seq)
    else if (s.choices l.val e.cls).isEmpty then .next s
    else .next (s.handOver l.val e)

/-! ## Dispatch (R300, R306) -/

/-- The first frame, in SEQ order, of a class that waits for retransmission. -/
def State.waitingRetx (s : State) (l c : Nat) : Option XblSent :=
  ((s.link l).store.filter (fun (e : XblSent) => e.ready && e.cls == c)).foldl (fun best (e : XblSent) =>
    match best with
    | none => some e
    | some b => if sdiff 24 e.seq b.seq < 0 then some e else some b) none

/-- Octets that a class would send on member `m` now: a retransmission first, or a new frame unless the class waits under R307; a
class without a member gives its frames up. -/
def State.classNext (s : State) (l m c : Nat) : Option Nat :=
  let k := (s.link l).cls c
  let new := (s.head (portQueue (16 + l) c)).map (fun (x : QFrame) => x.frame.len)
  match k.cur with
  | none => new
  | some n =>
    if n ≠ m then none
    else match s.waitingRetx l c with
      | some e => some e.len
      | none => if k.wait.isSome then none else new

/-- The class that member `m` serves: 7 before 6 before the round robin of the link's port (R345). -/
def State.xblPick (s : State) (l m : Nat) : Option (Nat × Drr) :=
  let d := s.drrOf (16 + l)
  if (s.classNext l m 7).isSome then some (7, d)
  else if (s.classNext l m 6).isSome then some (6, d)
  else if (List.range 6).all (fun c => (s.classNext l m c).isNone) then none
  else drrPick (s.classNext l m) s.quantum 4096 false d

/-- A new frame of a class is dispatched (R299, R300, R306). -/
def State.xblNew (s : State) (l c : Nat) (x : QFrame) : State :=
  let gone := s.pop (portQueue (16 + l) c)
  let fits := fun (m : Nat) => m != 2 || decide (x.frame.len ≤ 1248)
  let order := s.choices l c
  if order.isEmpty then gone.bump (C17.failCnt l) 31 16 1
  else
    let first := match ((s.link l).cls c).cur with
      | some m => if fits m then some m else (order.filter fits).head?
      | none => (order.filter fits).head?
    match first with
    | none => gone.err C17.page 0x0104 (BitVec.ofNat 32 l)
    | some m =>
      if !s.canSeq l then s.stallCheck l
      else
        let second := if c = 7 && bitOf (BitVec.ofNat 32 (s.steer l 7)) 6 then (order.filter (fun k => fits k && k != m)).head? else none
        (gone.stallCheck l).xblData l c m second x.frame

/-- XBL_DISPATCH: member `m`'s transmitter takes a frame of link `l`. -/
def execXblDispatch (l : Fin 8) (m : Fin 3) (s : State) : Host.Outcome State Fault Refusal :=
  if !s.linkOn l.val then .next s
  else
    let t := s.settle l.val
    match t.xblPick l.val m.val with
    | none => .next t
    | some (c, d) =>
      let t1 := { t with qm := { t.qm with drr := d :: t.qm.drr.filter (fun (e : Drr) => e.port != 16 + l.val) } }
      match (if ((t1.link l.val).cls c).cur.isSome then t1.waitingRetx l.val c else none) with
      | some e => .next (t1.xblResend l.val m.val e)
      | none => match t1.head (portQueue (16 + l.val) c) with
        | some x => .next (t1.xblNew l.val c x)
        | none => .next t

/-! ## Member health and failover (R308 to R311) -/

/-- A member is declared DOWN: classes move, for a loss reason its unacknowledged frames are handed over in SEQ order, and the
declaration is recorded; the time the hand-over takes is free, within 1 ms (R309, R310). -/
def State.memberDown (s : State) (l m reason : Nat) : State :=
  if s.mState l m ≠ 2 && s.mState l m ≠ 3 then s
  else
    let t := s.now .c
    let s1 := ((s.setMState l m 1).setFld (C17.memberStat l) 14 12 reason).setFld (C17.memberStat l) 17 16 m
    let s2 := (s1.wrs [(C17.lastFailS l, BitVec.ofNat 32 (sec32 t)), (C17.lastFailNs l, BitVec.ofNat 32 (nsOf t))]).linkRaise l 0
    let s3 := s2.settle l
    let s4 := if reason = 3 then s3
      else (s3.link l).store.foldl (fun u (e : XblSent) =>
        if e.member = m && !(u.choices l e.cls).isEmpty then u.handOver l e else u) s3
    s4.draw (fun i u => ((u.wr (C17.failTime l) (BitVec.ofNat 32 (Config.freeNat i % 1001))).bump (C17.failCnt l) 15 0 1).linkRaise l 2)

/-- The standing down conditions of a member that the machine itself sees (R309): STATE, MISS and CAPACITY of member 0, and
silence. -/
def State.downReason (s : State) (l m miss cap : Nat) : Option Nat :=
  let silent := fun (ka : Nat) => decide (((s.link l).mem m).heard + 3 * ka ≤ s.mono)
  let quiet := decide (((s.link l).mem m).report + 1000000 ≤ s.mono)
  if m = 0 then
    let n := s.linkDir l
    if !s.dirHere n || s.dirState n ≠ 2 then some 1
    else if s.fld (C17.health0 l) 3 0 ≤ (s.dir n).noGood then some 2
    else if s.fld (D7.dirCap (dirDie n) (dirHead n)) 31 16 < s.fld (C17.health0 l) 12 4 * 100 then some 3
    else if quiet then some 5 else none
  else if m = 1 then
    let p := s.linkPart l
    if !s.partOn p || s.rd (D4.partChan p) ≠ (s.link l).chan then some 1
    else if s.fld (C17.health1 l) 3 0 ≤ miss then some 2
    else if cap < s.fld (C17.health1 l) 11 4 * 100 then some 3
    else if silent (s.fld (C17.health1 l) 22 16 * 1000000) then some 4
    else if quiet then some 5 else none
  else
    if !s.bit E4.meshCfg 31 || !(s.isCoord || s.parentUp) then some 1
    else if s.fld (C17.health2 l) 2 0 ≤ miss then some 2
    else if silent (s.fld (C17.health2 l) 13 8 * 1000000000) then some 4
    else if quiet then some 5 else none

/-- MEMBER_HEALTH_REPORT: a DOWN member whose conditions are clear is HOLDING; any condition takes an UP or HOLDING one DOWN.
`miss` is the count of consecutive lost PPDUs or frames and `cap` the capacity in Mb/s; member 0's come from its direction. -/
def execMemberHealthReport (l : Fin 8) (m : Fin 3) (miss cap : Nat) (s : State) : Host.Outcome State Fault Refusal :=
  if !s.linkOn l.val || !linkHas (s.rd (C17.linkCfg l.val)) m.val then .next s
  else
    let s1 := s.onLink l.val (fun x => x.onMem m.val (fun y => { y with report := s.mono }))
    match s1.downReason l.val m.val miss cap with
    | some r => .next (s1.memberDown l.val m.val r)
    | none =>
      if s1.mState l.val m.val = 1 then
        .next ((s1.onLink l.val (fun x => x.onMem m.val (fun y => { y with clear := s.mono }))).setMState l.val m.val 3)
      else .next s1

/-- MEMBER_SILENT (R309). -/
def execMemberSilent (l : Fin 8) (m : Fin 3) (s : State) : Host.Outcome State Fault Refusal :=
  let ka := if m.val = 1 then s.fld (C17.health1 l.val) 22 16 * 1000000 else s.fld (C17.health2 l.val) 13 8 * 1000000000
  if s.linkOn l.val && m.val ≠ 0 && decide (((s.link l.val).mem m.val).heard + 3 * ka ≤ s.mono)
  then .next (s.memberDown l.val m.val 4) else .next s

/-- MEMBER_NO_REPORT (R309). -/
def execMemberNoReport (l : Fin 8) (m : Fin 3) (s : State) : Host.Outcome State Fault Refusal :=
  if s.linkOn l.val && decide (((s.link l.val).mem m.val).report + 1000000 ≤ s.mono)
  then .next (s.memberDown l.val m.val 5) else .next s

/-- UP_HOLD of a member, in ns. -/
def State.upHold (s : State) (l m : Nat) : Nat :=
  if m = 0 then s.fld (C17.health0 l) 25 16 * 10000000 else if m = 1 then s.fld (C17.health1 l) 31 24 * 10000000
  else s.fld (C17.health2 l) 23 16 * 1000000000

/-- MEMBER_UP: the conditions have stayed clear for UP_HOLD; a down condition at that instant wins (R308). -/
def execMemberUp (l : Fin 8) (m : Fin 3) (s : State) : Host.Outcome State Fault Refusal :=
  if !s.linkOn l.val || s.mState l.val m.val ≠ 3 || s.mono < ((s.link l.val).mem m.val).clear + s.upHold l.val m.val then .next s
  else match s.downReason l.val m.val 0 (2 ^ 32) with
    | some r => .next (s.memberDown l.val m.val r)
    | none => .next (((s.setMState l.val m.val 2).linkRaise l.val 1).settle l.val)

/-- KEEPALIVE_DUE: members 1 and 2, in whatever state (R308). -/
def execKeepaliveDue (l : Fin 8) (m : Fin 3) (s : State) : Host.Outcome State Fault Refusal :=
  if s.linkOn l.val && m.val ≠ 0 && linkHas (s.rd (C17.linkCfg l.val)) m.val then .next (s.xblControl l.val m.val 3 []) else .next s

/-! ## Receive window and order (R301 to R303) -/

/-- A frame of a class goes to forwarding, and L_c becomes its SEQ. -/
def State.xblDeliver (s : State) (l c seq : Nat) (f : Frame) : State :=
  (s.onLink l (fun x => { x.onCls c (fun k => { k with last := some seq }) with held := x.held.filter (fun (h : XblHeld) => !(h.cls == c && h.seq == seq)) })).ingress
    (16 + l) f { sta := 0, bssid := 0, cls := c, origin := 0 }

/-- The held frame of a class that comes first, of those whose PREV equals L_c or lies behind it. -/
def XblLink.releasable (x : XblLink) (c : Nat) : Option XblHeld :=
  match (x.cls c).last with
  | none => none
  | some last =>
    (x.held.filter (fun (h : XblHeld) => h.cls == c && decide (sdiff 24 h.prev last ≤ 0))).foldl (fun best (h : XblHeld) =>
      match best with
      | none => some h
      | some b => if sdiff 24 h.seq b.seq < 0 then some h else some b) none

/-- Held frames of a class are released while their PREV has been reached: XBL_RELEASE (R302). -/
def State.xblRelease (s : State) (l c : Nat) : Nat → State
  | 0 => s
  | n + 1 => match (s.link l).releasable c with
    | some h => (s.xblDeliver l c h.seq h.frame).xblRelease l c n
    | none => s

/-- A held frame is released without waiting: what lies between L_c and it is given up (R302). -/
def State.xblForce (s : State) (l : Nat) (h : XblHeld) : State :=
  let s1 := s.onLink l (fun x => { x with held := x.held.filter (fun (y : XblHeld) => !(y.cls == h.cls && decide (sdiff 24 y.seq h.seq < 0))) })
  ((s1.bump (C17.reordCnt l) 15 0 1).xblDeliver l h.cls h.seq h.frame).xblRelease l h.cls (s.link l).held.length

/-- The held frame that lies furthest behind, of those 32,768 or more behind H. -/
def XblLink.farHeld (x : XblLink) (hi : Nat) : Option XblHeld :=
  (x.held.filter (fun (h : XblHeld) => decide (sdiff 24 h.seq hi ≤ -32768))).foldl (fun best (h : XblHeld) =>
    match best with
    | none => some h
    | some b => if sdiff 24 h.seq b.seq < 0 then some h else some b) none

/-- Held frames 32,768 or more behind H are released without waiting (R302). -/
def State.xblFar (s : State) (l : Nat) : Nat → State
  | 0 => s
  | n + 1 => match (s.link l).high with
    | none => s
    | some hi => match (s.link l).farHeld hi with
      | some h => (s.xblForce l h).xblFar l n
      | none => s

/-- A DATA frame that the scoreboard has not seen (R302, R303). -/
def State.xblHold (s : State) (l : Nat) (f : XblFrame) (seq : Nat) (frame : Frame) : State :=
  let c := f.cls.val
  match ((s.link l).cls c).last with
  | none => s.xblDeliver l c seq frame
  | some last =>
    if sdiff 24 seq last < 0 then
      if c = 7 then (s.bump (C17.reordCnt l) 31 16 1).ingress (16 + l) frame { sta := 0, bssid := 0, cls := c, origin := 0 }
      else s.bump (C17.rxCnt l) 31 16 1
    else
      let h : XblHeld := { seq := seq, cls := c, prev := f.prev, frame := frame, since := s.mono }
      let s1 := s.onLink l (fun x => { x with held := x.held ++ [h] })
      s1.xblRelease l c (s1.link l).held.length

/-- XBL_REORDER_TIMEOUT: the frame has been held for REORDER_TO. -/
def execXblReorderTimeout (l : Fin 8) (seq : Nat) (s : State) : Host.Outcome State Fault Refusal :=
  match (s.link l.val).held.find? (fun (h : XblHeld) => h.seq == seq) with
  | some h => if s.linkOn l.val && decide (h.since + s.fld (C17.reorder l.val) 6 0 * 100000 ≤ s.mono) then .next (s.xblForce l.val h) else .next s
  | none => .next s

/-- What the other KEY_PHASE selects: the previous key within its overlap, else NEXT while it is valid (R313). -/
def State.otherKey (s : State) (l : Nat) : Option (Nat × Nat × Nat) :=
  match (s.link l).prevKey with
  | some (slot, wrap, til) =>
    if s.mono < til then some (slot, wrap, 2)
    else if s.bit (C17.keySel l) 12 then some (4096 + s.fld (C17.keySel l) 11 6, (s.link l).wrapNext, 1) else none
  | none => if s.bit (C17.keySel l) 12 then some (4096 + s.fld (C17.keySel l) 11 6, (s.link l).wrapNext, 1) else none

/-- The key that KEY_PHASE selects: slot, wrap, and which of CUR 0, NEXT 1, previous 2 (R313). -/
def State.rxKey (s : State) (l : Nat) (phase : Bool) : Option (Nat × Nat × Nat) :=
  if phase = (s.link l).phase then some (s.linkKey l, (s.link l).wrapCur, 0) else s.otherKey l

/-- The wrap of a key of a link replaced. -/
def XblLink.setWrap (x : XblLink) (which wrap : Nat) : XblLink :=
  if which = 0 then { x with wrapCur := wrap } else if which = 1 then { x with wrapNext := wrap }
  else { x with prevKey := x.prevKey.map (fun p => (p.1, wrap, p.2.2)) }

/-- Blocks of an ACK mark frames, and show others missing (R304, R305). -/
def inBlocks (acks : List (Nat × BitVec 256)) (seq : Nat) : Option Bool :=
  (acks.find? (fun (b : Nat × BitVec 256) => b.1 == seq - seq % 256)).map (fun b => b.2.getLsbD (seq % 256))

/-- An ACK: frames it marks leave the store; one it shows missing beside a later frame sent on the same member is retransmitted;
classes that wait may move (R305, R307). -/
def State.xblAck (s : State) (l : Nat) (acks : List (Nat × BitVec 256)) : State :=
  let old := (s.link l).store
  let done := old.filter (fun (e : XblSent) => inBlocks acks e.seq == some true)
  let s1 := s.onLink l (fun x => { x with store := x.store.filter (fun (e : XblSent) => inBlocks acks e.seq != some true) })
  let lost := (s1.link l).store.filter (fun (e : XblSent) => inBlocks acks e.seq == some false &&
    done.any (fun (d : XblSent) => d.member == e.member && decide (e.order < d.order)))
  let s2 := lost.foldl (fun t (e : XblSent) => t.handOver l e) s1
  (List.range 8).foldl (fun t c => match ((t.link l).cls c).wait, ((t.link l).cls c).cur with
    | some _, some m => if (t.link l).clearOf c m then t.returnMove l c else t
    | _, _ => t) s2

/-- The peer's MUP of an authenticated frame: a bit that clears takes the member DOWN for PEER (R308, R309). -/
def State.hearMup (s : State) (l : Nat) (mup : BitVec 3) : State :=
  let lost := (List.range 3).filter (fun m => s.peerUp l m && !mup.getLsbD m)
  let s1 := s.setFld (C17.memberStat l) 10 8 mup.toNat
  (lost.foldl (fun t m => t.memberDown l m 6) s1).settle l

/-- STALE and AUTH_FAIL (R301, R316). -/
def State.xblStale (s : State) (l : Nat) : State := s.bump (C17.secCnt l) 31 16 1

def State.xblAuthFail (s : State) (l m : Nat) : State :=
  ((s.bump (C17.secCnt l) 15 0 1).count (C6.pipeAuthFail l) 1).err C17.page 0x0105 (BitVec.ofNat 32 (l * 256 + m))

/-- A sequence enters the scoreboard, which keeps the 65,536 up to H. -/
def XblLink.mark (x : XblLink) (seq : Nat) : XblLink :=
  let hi := match x.high with
    | some h => if 0 < sdiff 24 seq h then seq else h
    | none => seq
  let b := seq - seq % 256
  { x with high := some hi, got := seq :: x.got.filter (fun k => decide (-65536 < sdiff 24 k hi)),
           changed := b :: x.changed.filter (fun k => k != b) }

/-- A repeated frame: its block is acknowledged again, and the member has been heard (R301, R309). -/
def XblLink.again (x : XblLink) (m seq mono : Nat) : XblLink :=
  let b := seq - seq % 256
  { x.onMem m (fun y => { y with heard := mono }) with changed := b :: x.changed.filter (fun k => k != b) }

/-- An authenticated frame that the scoreboard accepts: acted on, or held (R301). -/
def State.xblAct (s : State) (l m : Nat) (f : XblFrame) (which wrap : Nat) : State :=
  let seq := f.pn % 2 ^ 24
  let s1 := s.onLink l (fun x => ((x.mark seq).setWrap which wrap).onMem m (fun y => { y with heard := s.mono }))
  let s2 := s1.hearMup l f.mup
  let s3 := if f.type = 1 then s2.xblAck l f.acks
    else if f.type = 0 then match f.data with
      | some d => s2.xblHold l f seq d
      | none => s2
    else s2
  s3.xblFar l (s3.link l).held.length

/-- XBL_FRAME_RX: the judgement of R301, in its order. -/
def State.xblRx (s : State) (l m : Nat) (f : XblFrame) : State :=
  let x := s.link l
  let seq := f.pn % 2 ^ 24
  let w := f.pn / 2 ^ 24
  match s.rxKey l f.phase with
  | none => s.xblAuthFail l m
  | some (slot, wrap, which) =>
    let good := f.authOk && (s.pipeKey slot).valid
    match x.high with
    | none => if good then s.xblAct l m f which w else s.xblAuthFail l m
    | some h =>
      let d := sdiff 24 seq h
      let expected : Int := if 0 < d && seq < h then wrap + 1 else if d < 0 && h < seq then (wrap : Int) - 1 else wrap
      if (w : Int) ≠ expected then s.xblStale l
      else if !good then s.xblAuthFail l m
      else if d ≤ -65536 then s.xblStale l
      else if x.got.contains seq then ((s.onLink l (fun y => y.again m seq s.mono)).hearMup l f.mup).bump (C17.rxCnt l) 15 0 1
      else s.xblAct l m f which (if 0 < d && seq < h then wrap + 1 else wrap)

/-- XBL_FRAME_RX. -/
def execXblFrameRx (l : Fin 8) (m : Fin 3) (f : XblFrame) (s : State) : Host.Outcome State Fault Refusal :=
  if !s.linkOn l.val || !linkHas (s.rd (C17.linkCfg l.val)) m.val || f.ver ≠ 1 || 3 < f.type || !f.sound then .next s
  else .next ((s.pipeRx l.val (32 + match f.data with
    | some d => d.len
    | none => 0)).xblRx l.val m.val f)

/-! ## Acknowledgements (R304) -/

/-- The bitmap of a block. -/
def XblLink.bitmap (x : XblLink) (start : Nat) : BitVec 256 :=
  BitVec.ofNat 256 ((x.got.filter (fun k => k - k % 256 == start)).foldl (fun n k => n + 2 ^ (k % 256)) 0)

/-- An ACK payload of the blocks given. -/
def XblLink.ackOctets (x : XblLink) (blocks : List Nat) : List Byte :=
  be 1 blocks.length ++ be 3 0 ++ blocks.flatMap (fun b => be 3 b ++ be 1 0 ++
    (List.range 32).map (fun j => (x.bitmap b).extractLsb' (8 * j) 8))

/-- XBL_ACK_DUE: up to 16 changed blocks, newest first, on the best available member at its cadence. -/
def execXblAckDue (l : Fin 8) (s : State) : Host.Outcome State Fault Refusal :=
  let x := s.link l.val
  match [0, 1, 2].find? (fun m => s.memAvail l.val m) with
  | none => .next s
  | some m =>
    let gap := if m = 0 then 0 else if m = 1 then 500000 else 1000000000
    let due := match x.ackAt with
      | some t => decide (t + gap ≤ s.mono)
      | none => true
    if !s.linkOn l.val || x.changed.isEmpty || !due then .next s
    else if !s.canSeq l.val then .next (s.stallCheck l.val)
    else
      let s1 := s.onLink l.val (fun y => { y with changed := y.changed.drop 16, ackAt := some s.mono })
      .next (s1.xblControl l.val m 1 (x.ackOctets (x.changed.take 16)))

/-! ## Enabling (R294, R309, R314) -/

/-- The first condition of R294 that a LINK_CFG word fails. -/
def State.linkFault (s : State) (l : Nat) (w : Word) : Option Nat :=
  let dir := bitsOf w 3 0
  let p := bitsOf w 6 4
  let sta := bitsOf w 26 16
  let others := (List.range 8).filter (fun k => k != l && s.bit (C17.linkCfg k) 31)
  if !s.dirHere dir || others.any (fun k => s.linkDir k == dir) then some 1
  else if p ≠ 7 && (!s.partOn p || s.fld (D4.partChan p) 1 0 ≠ 2 || others.any (fun k => s.linkPart k == p)) then some 2
  else if p ≠ 7 && !(match s.station sta with
      | some t => t.linked p && t.mode == 4 && !t.protected_
      | none => false) then some 3
  else if s.fld (C17.linkId l) 15 0 = s.fld (C17.linkId l) 31 16 then some 4
  else if !(s.pipeKey (s.linkKey l)).valid then some 5
  else none

/-- LINK_EN shows the enabled links. -/
def State.showLinks (s : State) : State :=
  s.wr C17.linkEn (BitVec.ofNat 32 ((List.range 8).foldl (fun n k => if s.bit (C17.linkCfg k) 31 then n + 2 ^ k else n) 0))

/-- A member comes into use, or goes out of it as HOST (R308, R309). -/
def State.memberIn (s : State) (l m : Nat) : State :=
  (s.onLink l (fun x => x.onMem m (fun _ => { clear := s.mono, heard := s.mono, report := s.mono }))).setMState l m 1

def State.memberOut (s : State) (l m : Nat) : State := ((s.memberDown l m 7).setMState l m 0).settle l

/-- The per-link counters, which an enable resets (R294). -/
def linkCounters (l : Nat) : List (Nat × Word) :=
  [(C17.txCnt l, 0), (C17.rxCnt l, 0), (C17.reordCnt l, 0), (C17.failCnt l, 0), (C17.secCnt l, 0)]

/-- A link is enabled under a LINK_CFG word that meets R294. -/
def State.linkStart (s : State) (l : Nat) (w : Word) : State :=
  let p := bitsOf w 6 4
  let s1 := (s.wr (C17.linkCfg l) w).wrs ((C17.memberStat l, 0) :: linkCounters l)
  let s2 := s1.onLink l (fun _ => XblLink.fresh (if p = 7 then 0 else s.rd (D4.partChan p)) s.mono)
  ([0, 1, 2].foldl (fun t m => if linkHas w m then t.memberIn l m else t) s2).showLinks

/-- A link is disabled: its members go ABSENT for HOST (R308, R309). -/
def State.linkStop (s : State) (l : Nat) (w : Word) : State :=
  let s1 := [0, 1, 2].foldl (fun t m => t.memberOut l m) s
  ((s1.wr (C17.linkCfg l) (putBit w 31 false)).onLink l (fun _ => XblLink.fresh 0 s.mono)).showLinks

/-- LINK_INVALID with the link and the failed condition; the write is refused (R294). -/
def State.linkInvalid (s : State) (l r : Nat) : State := s.err C17.page 0x0100 (BitVec.ofNat 32 (l * 256 + r))

/-- The effect of a new LINK_CFG word. On an enabled link a member that the word removes goes out as HOST, and a new or changed one
comes in (R294, R309). -/
def State.setLinkCfg (s : State) (l : Nat) (w : Word) : State :=
  let old := s.rd (C17.linkCfg l)
  if !bitOf w 31 then (if bitOf old 31 then s.linkStop l w else s.wr (C17.linkCfg l) w)
  else match s.linkFault l w with
    | some r => s.linkInvalid l r
    | none =>
      if !bitOf old 31 then s.linkStart l w
      else
        let same := fun (m : Nat) => if m = 0 then bitsOf old 3 0 == bitsOf w 3 0
          else if m = 1 then bitsOf old 6 4 == bitsOf w 6 4 && bitsOf old 26 16 == bitsOf w 26 16 else bitOf old 8 == bitOf w 8
        let s1 := [0, 1, 2].foldl (fun t m => if same m then t else t.memberOut l m) s
        let s2 := (s1.wr (C17.linkCfg l) w).onLink l (fun x => { x with chan := if bitsOf w 6 4 = 7 then 0 else s.rd (D4.partChan (bitsOf w 6 4)) })
        [0, 1, 2].foldl (fun t m => if same m || !linkHas w m then t else t.memberIn l m) s2

/-- Every link is lost when die C leaves STANDBY or RUN (R296). -/
def State.xblLose (s : State) : State := { s with xbl := List.replicate 8 (XblLink.fresh 0 0) }

/-! ## Link keys (R312, R313) -/

/-- A key switch from the slot `old`: KEY_PHASE toggles, WRAP starts at 0, and the old key is kept for KEY_OVERLAP. -/
def State.linkSwitch (s : State) (l old : Nat) (wasNext : Bool) : State :=
  (s.onLink l (fun x => { x with phase := !x.phase, wrap := 0, wrapCur := if wasNext then x.wrapNext else 0, wrapNext := 0,
                                 prevKey := some (4096 + old, x.wrapCur, s.mono + s.fld (C17.keyCfg l) 9 0 * 1000000) })).linkRaise l 3

/-- The effect of a new KEY_SEL value: a new CUR switches keys, a new NEXT starts at wrap 0 (R312). -/
def State.setKeySel (s : State) (l : Nat) (v : Nat) : State :=
  let old := s.rd (C17.keySel l)
  let w := BitVec.ofNat 32 v
  let s1 := s.wr (C17.keySel l) w
  let renew := bitsOf old 11 6 ≠ bitsOf w 11 6 || (bitOf w 12 && !bitOf old 12)
  if bitsOf old 5 0 ≠ bitsOf w 5 0 then s1.linkSwitch l (bitsOf old 5 0) (bitOf old 12 && bitsOf old 11 6 == bitsOf w 5 0)
  else if renew then s1.onLink l (fun x => { x with wrapNext := 0 })
  else s1

/-- XBL_KEY_OVERLAP_END (R313). -/
def execXblKeyOverlapEnd (l : Fin 8) (s : State) : Host.Outcome State Fault Refusal :=
  match (s.link l.val).prevKey with
  | some (_, _, til) => if til ≤ s.mono then .next (s.onLink l.val (fun x => { x with prevKey := none })) else .next s
  | none => .next s

/-! ## Actions (R312, R315) -/

/-- What a link action does at its T; none where it ends with reason STATE. -/
def linkPerform (a : PendAct) (s : State) : Option State :=
  let l := bitsOf a.desc 10 8
  let k := s.rd (C17.keySel l)
  match bitsOf a.desc 1 0 with
  | 0 => if bitOf k 12 then some (s.setKeySel l (bitsOf k 11 6 + bitsOf k 11 6 * 64)) else none
  | 1 =>
    let w := putBit (s.rd (C17.linkCfg l)) 31 true
    match s.linkFault l w with
    | some _ => none
    | none => some (if s.bit (C17.linkCfg l) 31 then s else s.linkStart l w)
  | _ => some (if s.bit (C17.linkCfg l) 31 then s.linkStop l (s.rd (C17.linkCfg l)) else s)

/-- A link action of a kind at its T. -/
def State.linkActAtT (s : State) (i : Fin 8) (k : Nat) : State :=
  match s.pendAct (.link i) with
  | none => s
  | some a => if bitsOf a.desc 1 0 = k then s.actAtT (.link i) linkPerform else s

/-- XBL_KEY_SWITCH. -/
def execXblKeySwitch (i : Fin 8) (s : State) : Host.Outcome State Fault Refusal := .next (s.linkActAtT i 0)

/-- LINK_ON. -/
def execLinkOn (i : Fin 8) (s : State) : Host.Outcome State Fault Refusal := .next (s.linkActAtT i 1)

/-- LINK_OFF. -/
def execLinkOff (i : Fin 8) (s : State) : Host.Outcome State Fault Refusal := .next (s.linkActAtT i 2)

end Sys2Proof.Machine
end

