-- ==== Sys2Proof/Machine/Actions.lean ====
section
/-!
DEFINITION. Arming and disarming any action slot, recovery after a supply warning, the judgement of frozen actions and groups on
a new scale, and the time commands of the NTU page and of die E's page (R83 to R100, R509).
-/
namespace Sys2Proof.Machine

/-! ## Any slot (R90 to R96) -/

/-- What the block of a slot does when the slot's action is carried out. -/
def State.slotPerform (s : State) (x : ActSlot) : PendAct → State → Option State :=
  match x with
  | .rf _ => rfPerform
  | .mesh _ => meshPerform
  | .lamp _ => lampPerform
  | .sched _ => schedPerform
  | .link _ => linkPerform
  | .part d _ => if s.role d = .backhaul then bhPerform else partPerform

/-- An action carried out late while a failsafe cause is active is discarded and recorded as FS_ACTIVE (R470). -/
def State.noteFs (s : State) (a : PendAct) (t : State) : State :=
  match a.slot with
  | .lamp _ =>
    if s.fsActive && t.fld (slotStat a.slot) 3 0 == stMissed && t.fld (slotStat a.slot) 23 16 == rsnState
    then t.fsDiscard (bitsOf a.desc 6 4) else t
  | _ => t

/-- What a block holds ready for a slot's action is let go with it (R152, R228). -/
def State.unprepare (s : State) (x : ActSlot) : State :=
  match x with
  | .rf i => s.letGo i
  | .part d i =>
    let free (y : PartState) : PartState := { y with blocked := y.blocked.filter (fun k => k != i) }
    { s with acc := { s.acc with parts := s.acc.parts.modify d.val free } }
  | _ => s

/-- ACT_LEVEL is range-checked for its output at arming (R477): 0 to 254 on a DALI output. -/
def State.lampArmBad (s : State) (x : ActSlot) : Bool :=
  match x with
  | .lamp _ =>
    let a := s.freshAct x
    !bitOf a.desc 0 && !levelOk (bitsOf a.desc 6 4) (bitsOf a.extra 15 0)
  | _ => false

/-- RF_ACT[6] and RF_ACT[7] belong to the Ember engine while the mesh is enabled, and writes to them are discarded (R167). -/
def State.slotTaken (s : State) (x : ActSlot) : Bool :=
  match x with
  | .rf i => decide (6 ≤ i.val) && s.meshOn
  | _ => false

/-- An arming with a policy: a fresh one, or for an action whose execution has begun one that waits for its end (R96). -/
def State.armSlot (s : State) (x : ActSlot) (policy : Nat) : State :=
  let begun := match s.pendAct x with
    | some a => s.actBegun a
    | none => false
  match x, begun with
  | .rf i, true => s.onSub (fun y => { y with rearm := some (i, policy) })
  | _, _ =>
    if s.lampArmBad x then
      let a := s.freshAct x
      (((s.dropAct x).setActStat x stRejected rsnClamp false false false).guardRange (slotStat x - 8) 15 0 (bitsOf a.extra 15 0)
        (bitsOf a.extra 15 0))
    else
      let s1 := s.unprepare x
      s.noteFs (s.freshAct x) (s1.armAct x policy (s1.slotPerform x))

/-- A disarming: a PENDING, HELD or FROZEN action is CANCELLED; anything else stays (R96). -/
def State.disarmSlot (s : State) (x : ActSlot) : State :=
  let st := s.fld (slotStat x) 3 0
  match s.pendAct x with
  | some a =>
    if s.actBegun a || !(st == stPending || st == stHeld || st == stFrozen) then s
    else (s.unprepare x).endAct x stCancelled 0 false false false
  | none => s

/-- The lead of the partition that a slot's die is a member of: the slots of its sequencer page are the lead's (R201). -/
def State.slotLead (s : State) (x : ActSlot) : Option Nat :=
  match x with
  | .part d _ => s.memberOf d.val
  | _ => none

/-- A write of ACT_ARM: guarded, with bits 15:3 zero (R96). The register reads the last accepted word. -/
def State.armWrite (s : State) (r : Requester) (x : ActSlot) (w : Word) : State :=
  match s.slotLead x with
  | some l => s.cmdWrite r (slotArm x) (fun t => t.err (pageOf (slotArm x)) 0x0100 (BitVec.ofNat 32 l))
  | none => s.guardWrite r (slotArm x) w (fun v t =>
    if t.slotTaken x then t
    else if v / 8 ≠ 0 then t.guardRange (slotArm x) 15 3 (v / 8) (t.fld (slotArm x) 15 3)
    else
      let t1 := t.wr (slotArm x) (guardRead v)
      if v / 4 % 2 = 1 then t1.armSlot x (v % 4) else t1.disarmSlot x)

/-- ACT_ARM (R96). -/
def execActArm (r : Requester) (slot : ActSlot) (w : Word) (s : State) : Host.Outcome State Fault Refusal :=
  .next (s.armWrite r slot w)

/-- ACT_DISARM: the guarded word with ENABLE and POLICY 0 (R96). -/
def execActDisarm (r : Requester) (slot : ActSlot) (hi : Half) (s : State) : Host.Outcome State Fault Refusal :=
  .next (s.armWrite r slot (hi ++ (0 : Half)))

/-- ACTION_SUPPLY_RECOVERY: an action that a supply warning deferred follows its late policy once the warning has cleared (R32,
R94). -/
def execActionSupplyRecovery (slot : ActSlot) (s : State) : Host.Outcome State Fault Refusal :=
  match s.pendAct slot with
  | none => .next s
  | some a =>
    if !s.bit (slotStat slot) 28 || s.fld (slotStat slot) 3 0 ≠ stPending || s.actWarn a then .next s
    else
      let pol := s.fld (slotStat slot) 31 30
      if pol = 1 then .next (s.noteFs a ((s.dropAct slot).performLate a true (s.slotPerform slot)))
      else if pol = 2 then .next (s.setFld (slotStat slot) 3 0 stHeld)
      else .next (s.endAct slot stMissed rsnSupply false false true)

/-- A die leaves the power state in which its actions can run: they are discarded, and the NTU counts them, the armed starts of service
periods among them (R90, R250). -/
def State.discardActs (s : State) (d : Die) : State :=
  let gone := s.actq.filter (fun a => slotDie a.slot == d)
  gone.foldl (fun t a => (((t.unprepare a.slot).dropAct a.slot).setActStat a.slot 0 0 false false false).engEnd a.slot false) (s.count C2.actDiscarded (gone.length + s.twtArmed d))

/-! ## Judging again (R98 to R100) -/

/-- Every die's copy of local time moved by `delta`. -/
def State.onScale (s : State) (delta : Int) : State :=
  { s with time := { s.time with clk := s.time.clk.map (fun (c : Nat) => (Int.ofNat c + delta).toNat) } }

/-- One action judged again, with the policy in force. -/
def State.rejudgeAct (s : State) (a : PendAct) : State :=
  s.noteFs a (s.judgeAct a (s.fld (slotStat a.slot) 31 30) (s.slotPerform a.slot))

/-- One group judged again (R62). -/
def State.rejudgeGroup (s : State) (n : Fin 16) : State :=
  let g := s.group n
  s.judgeGroup n g g.tS g.tNs g.policy

/-- A group judged again as COMMITTED has its T on the scale that lies `delta` ahead of the present one: until the instant of the step it is
timed on that scale (R87, R98). -/
def State.newScale (s : State) (n : Fin 16) (delta : Int) : State :=
  if (s.group n).state = .committed then s.setGroup n { s.group n with shift := -delta } else s

/-- Frozen actions and groups, and with `pending` also the pending ones, are judged again on the scale that lies `delta` ns ahead,
against this instant (R98 to R100); an action that has begun goes on (R96). -/
def State.rejudge (s : State) (delta : Int) (pending : Bool) : State :=
  let acts := s.actq.filter (fun (a : PendAct) =>
    let st := s.fld (slotStat a.slot) 3 0
    st == stFrozen || (pending && st == stPending && !s.actBegun a))
  let groups := (List.finRange 16).filter (fun n =>
    let st := (s.group n).state
    st == .frozen || (pending && (st == .committed || st == .armed)))
  let s1 := groups.foldl (fun t n => t.rejudgeGroup n) (acts.foldl (fun t a => t.rejudgeAct a) (s.onScale delta))
  (groups.foldl (fun (t : State) n => t.newScale n delta) { s1 with time := { s1.time with clk := s.time.clk } })

/-! ## Time commands (R98 to R100, R102, R509) -/

/-- TIME_STEP on a keeper: the step by the offset measured last, a new epoch, ACQUIRING, and everything frozen judged again
(R98). -/
def State.timeStep (s : State) (n : Bool) : State :=
  if !s.bit (timeQualOf n) 12 then s.err (keeperPage n) 0x0101 1
  else
    let delta := -(s.keeper n).lastOfs
    let s1 := (s.setBit (timeQualOf n) 12 false).onKeeper n (fun k => { k with recent := [], prevFar := false, stepRun := 0 })
    ((s1.setQual n qAcquiring).nameStep delta true).rejudge delta false

/-- TIME_KEEP: the stepped source is REFUSED, beside any refused before, and everything frozen is judged again on the unchanged scale (R99). -/
def State.timeKeep (s : State) (n : Bool) : State :=
  if !s.bit (timeQualOf n) 12 then s.err (keeperPage n) 0x0101 2
  else
    let s1 := (s.setBit (timeQualOf n) 12 false).setBit (timeQualOf n) 13 true
    let s2 := s1.onKeeper n (fun k => { k with refused := if k.refused.contains k.stepSrc then k.refused else k.stepSrc :: k.refused,
                                               stepRun := 0 })
    ((if n then s2.reselect else s2).rejudge 0 false).twtLost

/-- The time in the SET registers of a keeper's page, in ns (R100, R101). -/
def State.setTime (s : State) (n : Bool) : Nat :=
  let b := keeperPage n + 0x13C
  ((s.rd b).toNat + s.fld (b + 4) 15 0 * 2 ^ 32) * 1000000000 + (s.rd (b + 8)).toNat

/-- TIME_SET: refused while the quality is ACQUIRING or LOCKED; else the SET registers become local time, with a new epoch, and
everything frozen or pending is judged again (R73, R100). The registers are the time at the command, so that at the instant of the step
local time is 20 µs further (DESIGN CHOICE, log 97). -/
def State.timeSet (s : State) (n : Bool) : State :=
  let q := s.qualOf n
  if q = qAcquiring || q = qLocked then s.err (keeperPage n) 0x0102 (BitVec.ofNat 32 q)
  else
    let delta : Int := (s.setTime n : Int) - s.now (if n then .c else .e)
    let s1 := (s.setBit (timeQualOf n) 12 false).onKeeper n (fun k => { k with recent := [], prevFar := false, stepRun := 0 })
    ((s1.setQual n qAcquiring).nameStep delta true).rejudge delta true

/-- REFUSED_CLEAR: the refused sources may be used again (R99). -/
def State.refusedClear (s : State) (n : Bool) : State :=
  let s1 := (s.setBit (timeQualOf n) 13 false).onKeeper n (fun k => { k with refused := [] })
  if n then s1.reselect else s1.rtcJudge

/-- A TIME_CMD value on a keeper's page: codes 1 to 5 on the NTU page, without 4 on die E's; bits 15:4 zero. A subordinate part
rejects codes 1 to 3 (R459), and die E's page records TIME_OWNED, with the guarded word written, while the NTU keeps time (R509). -/
def State.timeCmd (s : State) (n : Bool) (v : Nat) : State :=
  let a := keeperPage n + 0x118
  if !n && s.cTime then s.err E8.page 0x0105 (BitVec.ofNat 32 ((0xFFFF - v) * 2 ^ 16 + v))
  else if n && !s.cTime then s
  else if v % 16 = 0 || 5 < v % 16 || (!n && v % 16 = 4) || (!s.isMaster && v % 16 ≤ 3) then s.guardRange a 3 0 (v % 16) (s.fld a 3 0)
  else if v / 16 ≠ 0 then s.guardRange a 15 4 (v / 16) 0
  else match v with
    | 1 => (s.accept a v).timeStep n
    | 2 => (s.accept a v).timeKeep n
    | 3 => (s.accept a v).timeSet n
    | 4 => (s.accept a v).reselect
    | _ => (s.accept a v).refusedClear n

/-- A write of TIME_CMD with a command code below a given upper half. -/
def State.timeCmdRow (s : State) (r : Requester) (n : Bool) (hi : Half) (code : Half) : State :=
  s.guardWrite r (keeperPage n + 0x118) (hi ++ code) (fun v t => t.timeCmd n v)

/-- TIME_STEP (R98). -/
def execTimeStep (r : Requester) (hi : Half) (s : State) : Host.Outcome State Fault Refusal := .next (s.timeCmdRow r true hi 1)

/-- TIME_KEEP (R99). -/
def execTimeKeep (r : Requester) (hi : Half) (s : State) : Host.Outcome State Fault Refusal := .next (s.timeCmdRow r true hi 2)

/-- TIME_SET (R100). -/
def execTimeSet (r : Requester) (hi : Half) (s : State) : Host.Outcome State Fault Refusal := .next (s.timeCmdRow r true hi 3)

/-- RESELECT (R76, R102). -/
def execReselect (r : Requester) (hi : Half) (s : State) : Host.Outcome State Fault Refusal := .next (s.timeCmdRow r true hi 4)

/-- REFUSED_CLEAR (R99). -/
def execRefusedClear (r : Requester) (hi : Half) (s : State) : Host.Outcome State Fault Refusal := .next (s.timeCmdRow r true hi 5)

/-- TIME_STEP on die E's page (R509). -/
def execETimeStep (r : Requester) (hi : Half) (s : State) : Host.Outcome State Fault Refusal := .next (s.timeCmdRow r false hi 1)

/-- TIME_KEEP on die E's page (R509). -/
def execETimeKeep (r : Requester) (hi : Half) (s : State) : Host.Outcome State Fault Refusal := .next (s.timeCmdRow r false hi 2)

/-- TIME_SET on die E's page (R509). -/
def execETimeSet (r : Requester) (hi : Half) (s : State) : Host.Outcome State Fault Refusal := .next (s.timeCmdRow r false hi 3)

/-- REFUSED_CLEAR on die E's page (R509). -/
def execERefusedClear (r : Requester) (hi : Half) (s : State) : Host.Outcome State Fault Refusal :=
  .next (s.timeCmdRow r false hi 5)

/-! ## Lanivy time transfer (R83 to R86) -/

/-- The member that carries the exchanges of a link: the first available one (R85). -/
def State.ttMember (s : State) (l : Nat) : Option Nat := (List.range 3).find? (fun m => s.memAvail l m)

/-- The way from a member's stamp point to the antenna, in ps: the head's delay as calibrated and trimmed, the front-end delay of the lead
die's first chain, or the sub-GHz antenna delay (R85, R283, R160). -/
def State.memberDelay (s : State) (l m : Nat) (tx : Bool) : Int :=
  if m = 0 then
    let n := s.linkDir l
    (s.fld (D6B.headDelay (n / 2) (n % 2)) 19 0 : Nat) + sdiff 16 (s.fld (D6B.headDelayOfs (n / 2) (n % 2)) 15 0) 0
  else if m = 1 then (s.fld (D6.feDelay (s.linkPart l) 0) 14 0 : Nat)
  else ((if tx then s.fld E3.antDelay 25 16 else s.fld E3.antDelay 9 0) * 1000 : Nat)

/-- Die C's local time at the antenna of a member: later than at the stamp point for what leaves, earlier for what arrives (R85). -/
def State.memberStamp (s : State) (l m : Nat) (tx : Bool) : Nat :=
  ((s.now .c : Int) + (if tx then s.memberDelay l m tx else -s.memberDelay l m tx) / 1000).toNat

/-- A Lanivy message leaves on a member of a link. -/
def State.ttSend (s : State) (l m type seq t1 t2 t3 : Nat) : State := s.xblControl l m 2 (s.ttPayload type seq t1 t2 t3)

/-- Ns between the exchanges of a link (R83). -/
def State.ttInterval (s : State) (l : Nat) : Nat := 1000000000 / max 1 (s.fld (C2.ttCfg l) 7 1)

/-- An outstanding exchange ends. -/
def State.ttEnd (s : State) (x : TtExchange) : State :=
  { s with time := { s.time with exchanges := s.time.exchanges.filter (fun y => y != x) } }

/-- TT_REQ_SEND: at its exchange rate the client sends TT_REQ with its stamp (R83, R85); TT_MEMBER shows the member (R101). -/
def execTtReqSend (link : Fin 8) (s : State) : Host.Outcome State Fault Refusal :=
  let l := link.val
  match s.ttMember l with
  | none => .next s
  | some m =>
    if !s.linkOn l || !s.bit (C2.ttCfg l) 0 || decide (s.mono < s.time.ttNext[l]) then .next s
    else
      let seq := s.time.ttSeq
      let t1 := s.memberStamp l m true
      let x : TtExchange := { link := l, seq := seq, member := m, t1 := t1, sent := s.mono }
      let s1 := { s with time := { s.time with exchanges := s.time.exchanges ++ [x], ttSeq := (seq + 1) % 65536,
                                               ttNext := s.time.ttNext.set l (s.mono + s.ttInterval l) } }
      .next (((s1.wr (C2.ttMember l) (BitVec.ofNat 32 m)).emit (.ttReq l seq t1)).ttSend l m 1 seq t1 0 0)

/-- TT_REQ of a cross-band link: the server stamps the request as t2 and answers with t3, on the member the request came on (R83, R85). -/
def State.ttServe (s : State) (l m seq t1 : Nat) : State :=
  if !s.linkOn l || !s.memAvail l m then s
  else
    let t2 := s.memberStamp l m false
    let t3 := s.memberStamp l m true
    (s.emit (.ttResp l seq t1 t2 t3 s.ttFlags)).ttSend l m 2 seq t1 t2 t3

/-- TT_REQ: the server stamps the request as t2 and answers with t3 (R83); on the mesh, link 8, by an action of the Ember engine (R172). -/
def execTtReq (link : Fin 9) (member : Fin 3) (seq t1 : Nat) (s : State) : Host.Outcome State Fault Refusal :=
  if link.val < 8 then .next (s.ttServe link.val member.val seq t1)
  else if !s.meshOn then .next s
  else .next (s.ttMeshServe seq t1)

/-- An answered exchange gives its measurement; one that crossed a failover is discarded (R83, R85). -/
def State.ttDone (s : State) (x : TtExchange) (m : TimeMeas) : State :=
  let s1 := s.ttEnd x
  if x.link < 8 then
    if !s.linkOn x.link || s.ttMember x.link ≠ some x.member then s1
    else
      let m1 := { m with t1 := (x.t1 : Int), t4 := (s.memberStamp x.link x.member false : Int) }
      let ofs := s.measuredOffset (3 + x.link) m1
      (s1.noteOffset (3 + x.link) m1 ofs).measure (3 + x.link) ofs m.gmRank m.steps m.locked m.arb m.utc
  else
    let m1 := { m with t1 := (x.t1 : Int), t4 := (((s.mesh.auth.map MeshAuth.stamp).getD (s.now .e) : Nat) : Int) }
    let s2 := s1.onMesh (fun y => { y with auth := none, parent := { y.parent with delay := pathDelay m1, steps := m.steps } })
    s2.measure 11 (s.measuredOffset 11 m1) m.gmRank m.steps m.locked m.arb m.utc

/-- The outstanding exchange of a link that a number names. -/
def State.ttOpen (s : State) (l seq : Nat) : Option TtExchange :=
  s.time.exchanges.find? (fun (x : TtExchange) => x.link == l && x.seq == seq)

/-- TT_RESP: the answer to an outstanding exchange of a link; another exchange number is discarded (R83), and on the mesh a frame that has
not passed its security check (R188). -/
def execTtResp (link : Fin 9) (seq : Nat) (m : TimeMeas) (s : State) : Host.Outcome State Fault Refusal :=
  match s.ttOpen link.val seq with
  | none => .next s
  | some x => if link.val = 8 && s.mesh.auth.isNone then .next s else .next (s.ttDone x m)

/-- TT_LOST: the oldest TT_REQ of a link not answered within 100 ms is counted as lost, on the page of its keeper (R83, R103). -/
def execTtLost (link : Fin 9) (s : State) : Host.Outcome State Fault Refusal :=
  match s.time.exchanges.find? (fun (x : TtExchange) => x.link == link.val) with
  | none => .next s
  | some x =>
    if s.mono < x.sent + 100000000 then .next s
    else .next ((s.ttEnd x).err (keeperPage (decide (link.val < 8))) 0x0104 (BitVec.ofNat 32 link.val))

end Sys2Proof.Machine
end

