-- ==== Sys2Proof/Machine/Ashpit.lean ====
section
/-!
DEFINITION. Ashpit: the intake of trace records, the trace ring in DRAM, and the event log's read and clear (R483 to R488).
-/
namespace Sys2Proof.Machine

/-- An error whose code the spec gives no ERR_INFO for: the word is free. -/
def State.errFree (s : State) (p code : Nat) : State := s.draw (fun i t => t.err p code (Config.freeWord i))

/-! ## Trace ring (R483 to R485) -/

/-- Tracing is enabled, and the DRAM takes records (R485). -/
def State.tracing (s : State) : Bool := s.bit C11.traceCfg 0

def State.dramReady (s : State) : Bool := s.fld C7.dramStat 2 0 == 2

/-- A record is discarded: TRACE_LOST, the sticky bit, and the event at the first loss since TRACE_LOST was read (R488). -/
def State.traceLost (s : State) : State :=
  let first := s.rd C11.traceLost == 0
  let s1 := (s.count C11.traceLost 1).setBit C11.healthSticky 3 true
  if first then s1.raise C11.page 1 else s1

/-- A record enters the intake queue of 256 (R483). -/
def State.traceIn (s : State) (w : List Word) : State :=
  if !s.tracing then s
  else if !s.dramReady || 256 ≤ s.logs.intake.length then s.traceLost
  else { s with logs := { s.logs with intake := s.logs.intake ++ [w] } }

/-- Records the ring holds (R484). -/
def State.ringSize (s : State) : Nat := s.fld C11.traceSize 10 0 * 32768

/-- The oldest record of the intake goes into the ring (R484). -/
def State.ringPut (s : State) (w : List Word) : State :=
  let head := s.fld C11.traceHead 24 0
  let next := if s.ringSize ≤ head + 1 then 0 else head + 1
  let stop := s.bit C11.traceCfg 1
  if stop && next == s.fld C11.traceTail 24 0 then
    let s1 := if s.bit C11.traceStat 0 then s else (s.setBit C11.traceStat 0 true).raise C11.page 0
    s1.traceLost
  else
    let base := s.fld C11.traceBase 13 0 * 1048576
    let s1 := { s with dram := Mem.setWords s.dram (base + head * 32) w }
    let s2 := s1.wr C11.traceHead (BitVec.ofNat 32 next)
    if next = 0 && !stop then s2.setBit C11.traceStat 1 true else s2

/-- TRACE_INTAKE. -/
def execTraceIntake (s : State) : Host.Outcome State Fault Refusal :=
  match s.logs.intake with
  | [] => .next s
  | w :: rest =>
    let s1 := { s with logs := { s.logs with intake := rest } }
    if !s.tracing then .next s
    else if !s.dramReady then .next s1.traceLost
    else .next (s1.ringPut w)

/-! ## Event log (R486) -/

/-- The eight words of an event record. -/
def EvRec.words (r : EvRec) : List Word :=
  [BitVec.ofNat 32 (r.die + r.page * 2 ^ 8 + r.code * 2 ^ 16), r.info] ++ ntime r.time (BitVec.ofNat 8 r.epoch) 0 ++
  [BitVec.ofNat 32 (r.kind + b2n r.replayed * 2 ^ 8 + r.part * 2 ^ 24), BitVec.ofNat 32 r.num]

/-- The record in a slot of the log, if it holds one. -/
def Logs.slot (l : Logs) (k : Nat) : Option EvRec := l.events[(l.head + 4096 - 1 - k % 4096) % 4096]?

/-- EVT_RD_IDX: the slot's words are latched; those of a slot without a record are free. -/
def execEvtRdIdx (r : Requester) (w : Word) (s : State) : Host.Outcome State Fault Refusal :=
  .next (s.cmdWrite r C11.evtRdIdx (fun t =>
    let k := bitsOf w 11 0
    let t1 := t.wr C11.evtRdIdx (BitVec.ofNat 32 k)
    match t1.logs.slot k with
    | some e => t1.wrArr (C11.evtRd 0) e.words
    | none => (List.range 8).foldl (fun u j => u.draw (fun i v => v.wr (C11.evtRd j) (Config.freeWord i))) t1))

/-- EVT_CLR: the log is emptied, its first record to go into slot 0, and EVT_OVERFLOW zeroed; record numbers go on (R486). -/
def execEvtClr (r : Requester) (w : Word) (s : State) : Host.Outcome State Fault Refusal :=
  .next (s.cmdWrite r C11.evtClr (fun t =>
    if bitOf w 0 then { t.wr C11.evtOverflow 0 with logs := { t.logs with events := [], head := 0 } } else t))

end Sys2Proof.Machine
end

