-- ==== Sys2Proof/Machine/Engines.lean ====
section
/-!
DEFINITION. The engines, firmware images, caches and mailboxes, the Grate task scheduler with its trace, and the Ember engine's
image store (R352 to R378).
-/
namespace Sys2Proof.Machine

/-! ## Engines (R353 to R355) -/

/-- ENG_STAT codes (R353). -/
def engOff : Nat := 0
def engHalted : Nat := 1
def engIdle : Nat := 2
def engRunning : Nat := 3
def engFault : Nat := 4

/-- Engine `e`, and an engine changed. -/
def State.eng (s : State) (e : Nat) : Engine := s.engines.getD e Engine.fresh

def State.onEng (s : State) (e : Nat) (f : Engine → Engine) : State := { s with engines := s.engines.set e (f (s.eng e)) }

/-- ENG_STAT.STATE, and the task shown. -/
def State.engState (s : State) (e : Nat) : Nat := s.fld (C4.engStat e) 2 0

def State.engTask (s : State) (e : Nat) : Nat := s.fld (C4.engStat e) 27 16

/-- ENG_BUSY takes in the time RUNNING since it was last brought up to date (R377). -/
def State.engSync (s : State) (e : Nat) : State :=
  if s.engState e = engRunning then
    (s.count (C4.engBusy e) ((s.mono - (s.eng e).busyFrom) / 1000)).onEng e (fun x => { x with busyFrom := s.mono })
  else s

/-- An engine takes a state; entering RUNNING starts its watchdog (R354). -/
def State.setEng (s : State) (e st : Nat) : State :=
  let s1 := s.engSync e
  let s2 := if st = engRunning && s1.engState e ≠ engRunning then s1.onEng e (fun x => { x with since := s.mono, busyFrom := s.mono }) else s1
  s2.setFld (C4.engStat e) 2 0 st

/-- The count of PREEMPTED tasks an engine shows. -/
def State.showHeld (s : State) (e : Nat) : State := s.setFld (C4.engStat e) 30 28 (s.eng e).held.length

/-! ## Firmware images (R356 to R359) -/

/-- A little-endian number of bytes of a memory. -/
def leNum (m : Mem) (a n : Nat) : Nat := (m.bytes a n).foldr (fun b v => b.toNat + 256 * v) 0

/-- The zero fields of an image header (R356). -/
def zeroFields (m : Mem) (a : Nat) : Bool :=
  (m.bytes (a + 7) 1 ++ m.bytes (a + 24) 40 ++ m.bytes (a + 96) 32 ++ m.bytes (a + 192) 64).all (fun b => b == 0)

/-- The first check of an image that fails, as FW_STAT.REASON: magic, format, target, length, zero fields, the end of the SRAM,
digest, signature (R357, R377). -/
def imageFault (m : Mem) (a target maxLen size : Nat) : Option Nat :=
  let len := leNum m (a + 12) 4
  if leNum m a 4 ≠ 0x58465850 then some 1
  else if leNum m (a + 4) 2 ≠ 1 then some 2
  else if leNum m (a + 6) 1 ≠ target then some 3
  else if maxLen < len then some 4
  else if !zeroFields m a then some 5
  else if size < a + 256 + len then some 8
  else if Config.sha256 (m.bytes (a + 256) len) ≠ m.bytes (a + 64) 32 then some 6
  else if !Config.ecdsaOk (Config.sha256 (m.bytes a 128)) (m.bytes (a + 128) 64) then some 7
  else none

/-- FW_STAT.STATE: 0 NONE, 1 VERIFYING, 2 VERIFIED, 3 BAD. -/
def State.fwState (s : State) : Nat := s.fld C4.fwStat 1 0

/-- Start of the die C image in shared SRAM. -/
def State.fwBase (s : State) : Nat := s.fld C4.fwBase 10 0 * 4096

/-- A byte of shared SRAM is write-protected: it is one of a VERIFIED image (R357). -/
def State.fwProtected (s : State) (a : Nat) : Bool :=
  s.fwState == 2 && decide (s.fwBase ≤ a) && decide (a < s.fwBase + 256 + leNum s.shared (s.fwBase + 12) 4)

/-- Bytes written into shared SRAM; those of a verified image are discarded, and FW_PROTECT records the first (R357). -/
def State.sharedWrite (s : State) (a : Nat) (bs : List Byte) : State :=
  let offs := (List.range bs.length).zip bs
  let m := offs.foldl (fun (m : Mem) (x : Nat × Byte) => if s.fwProtected (a + x.1) then m else m.setByte (a + x.1) x.2) s.shared
  let s1 := { s with shared := m }
  match offs.find? (fun (x : Nat × Byte) => s.fwProtected (a + x.1)) with
  | some x => s1.err C4.page 0x0102 (BitVec.ofNat 32 (a + x.1))
  | none => s1

/-- Every engine is HALTED. -/
def State.allHalted (s : State) : Bool := (List.range 16).all (fun e => s.engState e == engHalted)

/-- FW_LOAD. -/
def execFwLoad (r : Requester) (s : State) : Host.Outcome State Fault Refusal :=
  .next (s.cmdWrite r C4.fwCmd (fun t => if t.allHalted then t.wr C4.fwStat 1 else t.errFree C4.page 0x0100))

/-- FW_VERIFY_DONE. -/
def execFwVerifyDone (s : State) : Host.Outcome State Fault Refusal :=
  if !s.cRuns || s.fwState ≠ 1 then .next s
  else match imageFault s.shared s.fwBase 1 6291200 8388608 with
    | some k => .next ((s.wr C4.fwStat (BitVec.ofNat 32 (3 + k * 16))).raise C4.page 17)
    | none => .next (((s.wr C4.fwStat 2).wr C4.fwVer (Mem.word s.shared (s.fwBase + 8))).raise C4.page 17)

/-! ## Caches (R355, R360) -/

/-- A line's bytes go back to memory. -/
def State.lineBack (s : State) (x : CacheLine) : State :=
  if x.dram then { s with dram := Mem.setBytes s.dram x.addr x.bytes } else s.sharedWrite x.addr x.bytes

/-- A line lies in a range. -/
def CacheLine.within (x : CacheLine) (dram : Bool) (addr len : Nat) : Bool :=
  x.dram == dram && decide (x.addr < addr + len) && decide (addr < x.addr + 64)

/-- Dirty lines of an engine that `f` selects are written back, and become clean. -/
def State.cleanLines (s : State) (e : Nat) (f : CacheLine → Bool) : State :=
  let s1 := (s.eng e).dcache.foldl (fun t (x : CacheLine) => if f x && x.dirty then t.lineBack x else t) s
  s1.onEng e (fun y => { y with dcache := y.dcache.map (fun (x : CacheLine) => if f x then { x with dirty := false } else x) })

/-- Lines that `f` selects are dropped. -/
def State.dropLines (s : State) (e : Nat) (f : CacheLine → Bool) : State :=
  s.onEng e (fun y => { y with dcache := y.dcache.filter (fun x => !f x) })

/-- CLEAN. -/
def execClean (e : Fin 16) (dram : Bool) (addr len : Nat) (s : State) : Host.Outcome State Fault Refusal :=
  .next (s.cleanLines e.val (fun x => x.within dram addr len))

/-- INVALIDATE. -/
def execInvalidate (e : Fin 16) (dram : Bool) (addr len : Nat) (s : State) : Host.Outcome State Fault Refusal :=
  .next (s.dropLines e.val (fun x => x.within dram addr len))

/-- CLEAN_INVALIDATE. -/
def execCleanInvalidate (e : Fin 16) (dram : Bool) (addr len : Nat) (s : State) : Host.Outcome State Fault Refusal :=
  .next ((s.cleanLines e.val (fun x => x.within dram addr len)).dropLines e.val (fun x => x.within dram addr len))

/-! ## Task descriptors (R366, R367) and the trace (R373) -/

/-- Descriptor states (R366). -/
def tdFree : Nat := 0
def tdWaiting : Nat := 1
def tdReady : Nat := 2
def tdRunning : Nat := 3
def tdPreempted : Nat := 4
def tdFaulted : Nat := 5

/-- Task `i`; one never written is FREE. -/
def State.task (s : State) (i : Nat) : Task :=
  (s.grate.tasks.find? (fun (t : Task) => t.idx == i)).getD
    { idx := i, words := List.replicate 6 0, state := tdFree, gen := 0, early := 0, engine := 0, place := 0, src := 0 }

/-- A task replaced. -/
def State.setTask (s : State) (t : Task) : State :=
  { s with grate := { s.grate with tasks := t :: s.grate.tasks.filter (fun (x : Task) => x.idx != t.idx) } }

def State.onTask (s : State) (i : Nat) (f : Task → Task) : State := s.setTask (f (s.task i))

/-- Fields of a descriptor (R376). -/
def Task.count (t : Task) : Nat := bitsOf (t.words.getD 0 0) 11 0
def Task.reload (t : Task) : Nat := bitsOf (t.words.getD 0 0) 23 12
def Task.group (t : Task) : Nat := bitsOf (t.words.getD 0 0) 29 24
def Task.cls (t : Task) : Nat := bitsOf (t.words.getD 1 0) 2 0
def Task.preemptible (t : Task) : Bool := bitOf (t.words.getD 1 0) 3
def Task.runMax (t : Task) : Nat := bitsOf (t.words.getD 1 0) 13 4
def Task.affinity (t : Task) (e : Nat) : Bool := bitOf (t.words.getD 1 0) (16 + e)
def Task.entry (t : Task) : Nat := bitsOf (t.words.getD 2 0) 11 0
def Task.setCount (t : Task) (n : Nat) : Task := { t with words := t.words.set 0 (putFld (t.words.getD 0 0) 11 0 n) }

/-- The valid successors of a task, in order. -/
def Task.succs (t : Task) : List Nat :=
  let w := fun k => t.words.getD k 0
  (if bitOf (w 4) 15 then [bitsOf (w 4) 11 0] else []) ++ (if bitOf (w 4) 31 then [bitsOf (w 4) 27 16] else []) ++
  (if bitOf (w 5) 15 then [bitsOf (w 5) 11 0] else []) ++ (if bitOf (w 5) 31 then [bitsOf (w 5) 27 16] else [])

/-- TRACE_RECORD: a record of a type enabled in TRACE_MASK goes to Ashpit (R373). -/
def State.grTrace (s : State) (type : Nat) (eng : Option Nat) (t : Task) (w6 : Nat) : State :=
  if s.bit C3.grCfg 0 && s.bit C3.grCfg (8 + (type - 0x20)) then
    let w : List Word := [BitVec.ofNat 32 (type + (eng.getD 15) * 2 ^ 8 + t.idx * 2 ^ 16),
      BitVec.ofNat 32 (t.cls + t.group * 2 ^ 8 + t.count * 2 ^ 16)] ++ ntime (s.now .c) s.time.epoch s.frac ++
      [BitVec.ofNat 32 w6, BitVec.ofNat 32 s.grate.recNum]
    { s with grate := { s.grate with recNum := (s.grate.recNum + 1) % 2 ^ 32 } }.traceIn w
  else s

/-- GR_STAT: READY and RUNNING tasks (R376). -/
def State.grShow (s : State) : State :=
  let n := fun (k : Nat) => (s.grate.tasks.filter (fun (t : Task) => t.state == k)).length
  s.wr C3.grStat (BitVec.ofNat 32 (n tdReady + n tdRunning * 2 ^ 16))

/-- A task becomes READY, last of its queue; `src` is the code of a READY record (R369, R373). -/
def State.toReady (s : State) (i src : Nat) : State :=
  let s1 := s.onTask i (fun t => { t with state := tdReady, place := s.grate.next, src := src })
  let s2 := { s1 with grate := { s1.grate with next := s.grate.next + 1, skip := s1.grate.skip.filter (fun k => k != i) } }
  (s2.grTrace 0x20 none (s2.task i) src).grShow

/-- A task returns to READY at the head of its group (R355). -/
def State.toHead (s : State) (i : Nat) : State :=
  let s1 := s.onTask i (fun t => { t with state := tdReady, place := s.grate.head })
  let s2 := { s1 with grate := { s1.grate with head := s.grate.head - 1 } }
  (s2.grTrace 0x20 none (s2.task i) (s2.task i).src).grShow

/-- TD_RESULT and TD_BUSY (R367, R376). -/
def State.tdDone (s : State) : State := s.wr C3.tdResult 0x80000000

def State.tdBusy (s : State) (cmd : Nat) : State := (s.wr C3.tdResult 0x80000001).err C3.page 0x0100 (BitVec.ofNat 32 cmd)

/-- TD_WRITE. -/
def State.tdWrite (s : State) (i : Nat) : State :=
  let t := s.task i
  if t.state ≠ tdFree then s.tdBusy 1
  else
    let x : Task := { t with words := s.rdArr (C3.tdData 0) 6, gen := nextGen t.gen, early := 0, state := tdWaiting }
    let s1 := (s.setTask x).tdDone
    if x.count = 0 then s1.toReady i 0 else s1.grShow

def execTdWrite (r : Requester) (t : Fin 4096) (s : State) : Host.Outcome State Fault Refusal :=
  .next (s.cmdWrite r C3.tdCmd (fun u => u.tdWrite t.val))

/-- TD_READ. -/
def execTdRead (r : Requester) (t : Fin 4096) (s : State) : Host.Outcome State Fault Refusal :=
  .next (s.cmdWrite r C3.tdCmd (fun u =>
    let x := u.task t.val
    (u.wrArr (C3.tdData 0) (x.words ++ [BitVec.ofNat 32 (x.state + x.gen * 2 ^ 3 + x.early * 2 ^ 12 + x.engine * 2 ^ 24)])).tdDone))

/-- TD_FREE. -/
def execTdFree (r : Requester) (t : Fin 4096) (s : State) : Host.Outcome State Fault Refusal :=
  .next (s.cmdWrite r C3.tdCmd (fun u =>
    let x := u.task t.val
    if x.state = tdRunning || x.state = tdPreempted then u.tdBusy 3
    else ((u.onTask t.val (fun y => { y with state := tdFree })).tdDone).grShow))

/-- SET_COUNT. -/
def execSetCount (r : Requester) (t : Fin 4096) (s : State) : Host.Outcome State Fault Refusal :=
  .next (s.cmdWrite r C3.tdCmd (fun u =>
    let x := u.task t.val
    let n := u.fld (C3.tdData 0) 11 0
    if x.state ≠ tdWaiting && x.state ≠ tdReady then u.tdBusy 4
    else
      let u1 := (u.onTask t.val (fun y => y.setCount n)).tdDone
      if n = 0 && x.state = tdWaiting then u1.toReady t.val x.src
      else if n ≠ 0 && x.state = tdReady then (u1.onTask t.val (fun y => { y with state := tdWaiting })).grShow
      else u1))

/-! ## Dependence counters (R368, R369) -/

/-- A decrement, or a stale completion, is discarded (R369, R373). -/
def State.grDiscard (s : State) (i : Nat) : State := s.grTrace 0x27 none (s.task i) 0

/-- A decrement of a task from a source (R369). -/
def State.decrement (s : State) (i src : Nat) : State :=
  let t := s.task i
  if t.state = tdFree || t.state = tdFaulted then (s.count C3.grUnderflow 1).grDiscard i
  else if t.state = tdWaiting then
    let s1 := s.onTask i (fun x => { x.setCount (x.count - 1) with src := src })
    if t.count ≤ 1 then s1.toReady i src else s1
  else if 4095 ≤ t.early then (s.raise C3.page 1).err C3.page 0x0101 (BitVec.ofNat 32 i)
  else s.onTask i (fun x => { x with early := x.early + 1, src := src })

/-- An event of a hardware source decrements each task bound to it, once for each entry (R368). -/
def State.sourceDec (s : State) (code : Nat) : State :=
  (List.range 256).foldl (fun t b =>
    if t.bit (C3.bind b) 31 && t.fld (C3.bind b) 7 0 == code then t.decrement (t.fld (C3.bind b) 27 16) code else t) s

/-- GRATE_SOURCE_EVENT: the oldest event that waits is counted. -/
def execGrateSourceEvent (s : State) : Host.Outcome State Fault Refusal :=
  match s.srcq with
  | [] => .next s
  | c :: rest => .next ({ s with srcq := rest }.sourceDec c)

/-- GRATE_TIMER: PERIOD has passed since the last expiry (R368). -/
def execGrateTimer (t : Fin 8) (s : State) : Host.Outcome State Fault Refusal :=
  let p := s.fld (C3.grTimer t.val) 19 0
  if !s.cRuns || p = 0 || s.mono < s.grate.timers.getD t.val 0 + p * 1000 then .next s
  else .next (({ s with grate := { s.grate with timers := s.grate.timers.set t.val s.mono } }.sourceDec (0x70 + t.val)).dmaRequest (lineTimer t.val))

/-- The engine number of a requester. -/
def reqEngine : Requester → Option Nat
  | .engine n => some n.val
  | _ => none

/-- GR_DEC. -/
def execGrDec (r : Requester) (t : Fin 4096) (s : State) : Host.Outcome State Fault Refusal :=
  .next (s.cmdWrite r C3.grDec (fun u => u.decrement t.val (0x100 + (reqEngine r).getD 0)))

/-- What becomes of a task at its completion, after its successors (R369). -/
def State.taskReload (s : State) (i : Nat) : State :=
  let t := s.task i
  if t.reload = 0 then
    let s1 := (List.range t.early).foldl (fun (u : State) _ => u.grDiscard i) (s.count C3.grUnderflow t.early)
    (s1.onTask i (fun x => { x with state := tdFree, early := 0 })).grShow
  else
    let n := t.reload - t.early
    let s1 := s.onTask i (fun x => { x.setCount n with early := 0, state := tdWaiting })
    if n = 0 then s1.toReady i t.src else s1.grShow

/-- GR_DONE: completion by the engine that runs the task, under its generation; the DONE record shows COUNT as the reload leaves it
(R369, R373). The engine then takes a task, or the one
for which it was to be preempted (R372). -/
def State.grDone (s : State) (r : Requester) (i : Nat) (gen : Byte) : State :=
  let t := s.task i
  match reqEngine r with
  | some e =>
    if t.state = tdRunning && t.engine == e && s.engTask e == i && t.gen == gen.toNat then
      let early := t.early + (t.succs.filter (fun k => k == i)).length
      let s1 := s.grTrace 0x24 (some e) (if t.reload = 0 then t else t.setCount (t.reload - early)) 0
      let s2 := t.succs.foldl (fun u k => u.decrement k (0x100 + e)) s1
      (s2.taskReload i).onEng e (fun x => { x with ending := true })
    else ((s.raise C3.page 2).err C3.page 0x0102 (BitVec.ofNat 32 (i + gen.toNat * 2 ^ 12))).grDiscard i
  | none => ((s.raise C3.page 2).err C3.page 0x0102 (BitVec.ofNat 32 (i + gen.toNat * 2 ^ 12))).grDiscard i

def execGrDone (r : Requester) (t : Fin 4096) (gen : Byte) (s : State) : Host.Outcome State Fault Refusal :=
  .next (s.cmdWrite r C3.grDone (fun u => u.grDone r t.val gen))

/-! ## Faults (R354, R372) -/

/-- A task becomes FAULTED. -/
def State.taskFault (s : State) (e i : Nat) : State :=
  let s1 := s.onTask i (fun t => { t with state := tdFaulted })
  (s1.grTrace 0x25 (some e) (s1.task i) 0).grShow

/-- The task that an engine has on it: none in its start-up task or between tasks. -/
def State.onEngine (s : State) (e : Nat) : Option Nat :=
  if s.engState e = engRunning && !(s.eng e).startup && !(s.eng e).ending then some (s.engTask e) else none

/-- An engine enters FAULT: its task, those it holds and one it was to start become FAULTED (R354, R372). -/
def State.engineFault (s : State) (e code addr : Nat) : State :=
  let x := s.eng e
  let gone := (s.onEngine e).toList ++ x.saving.toList ++ x.held
  let s1 := gone.foldl (fun t i => t.taskFault e i) s
  let s2 := (s1.onEng e (fun y => { y with held := [], saving := none, startup := false, ending := false })).setEng e engFault
  let s3 := (s2.showHeld e).wr (C4.engFault e) (BitVec.ofNat 32 (code + addr / 4 % 2 ^ 24 * 2 ^ 8))
  ((s3.raise C4.page 18).err C4.page 0x0105 (BitVec.ofNat 32 e)).logFree C4.page 10

/-- ENGINE_FAULT: codes 1 PROTECT, 2 BUS, 3 UNDEFINED. -/
def execEngineFault (e : Fin 16) (code : Nat) (addr : Nat) (s : State) : Host.Outcome State Fault Refusal :=
  if s.engState e.val = engRunning then .next (s.engineFault e.val code addr) else .next s

/-- ENGINE_WDT_EXPIRY: the address captured with code WDT is free. -/
def execEngineWdtExpiry (e : Fin 16) (s : State) : Host.Outcome State Fault Refusal :=
  let p := s.fld (C4.engWdt e.val) 9 0
  if s.engState e.val = engRunning && p ≠ 0 && (s.eng e.val).since + p * 1000000 ≤ s.mono then
    .next (s.draw (fun i t => t.engineFault e.val 4 (Config.freeWord i).toNat))
  else .next s

/-! ## Commands to the engines (R355, R358) -/

/-- An engine is halted: its tasks return to READY at the head of their groups, its dirty lines go back, its cache empties. -/
def State.haltEngine (s : State) (e : Nat) : State :=
  let x := s.eng e
  let s1 := (x.held.reverse ++ x.saving.toList ++ (s.onEngine e).toList).foldl (fun t i => t.toHead i) s
  let s2 := (s1.cleanLines e (fun _ => true)).dropLines e (fun _ => true)
  ((s2.setEng e engHalted).onEng e (fun y => { y with held := [], saving := none, startup := false, ending := false })).showHeld e

/-- FW_HALT. -/
def execFwHalt (r : Requester) (s : State) : Host.Outcome State Fault Refusal :=
  .next (s.cmdWrite r C4.fwCmd (fun t => (List.range 16).foldl (fun u e => u.haltEngine e) t))

/-- FW_START: engine 0 runs entry 0 as its start-up task (R358). -/
def execFwStart (r : Requester) (s : State) : Host.Outcome State Fault Refusal :=
  .next (s.cmdWrite r C4.fwCmd (fun t =>
    if t.fwState ≠ 2 then t.errFree C4.page 0x0101
    else (List.range 16).foldl (fun u e =>
      if u.bit C4.engEn e && u.engState e == engHalted then
        if e = 0 then (u.setEng e engRunning).onEng e (fun x => { x with startup := true })
        else u.setEng e engIdle
      else u) t))

/-- FW_RESTART. -/
def execFwRestart (r : Requester) (e : Fin 16) (s : State) : Host.Outcome State Fault Refusal :=
  .next (s.cmdWrite r C4.fwCmd (fun t => if t.engState e.val = engFault then t.setEng e.val engIdle else t))

/-- Engines, Grate, image and caches are lost when die C leaves STANDBY or RUN (R359). -/
def State.engLose (s : State) : State :=
  { s with engines := List.replicate 16 Engine.fresh, shared := [], srcq := [], grate := Grate.fresh s.mono }

/-! ## Dispatch and preemption (R370, R371) -/

/-- A task starts, or resumes, on an engine; an entry the image does not have faults the engine (R376). -/
def State.runTask (s : State) (e i type : Nat) : State :=
  let s1 := s.onTask i (fun t => { t with state := tdRunning, engine := e })
  let s2 := ((s1.setEng e engRunning).setFld (C4.engStat e) 27 16 i).onEng e (fun x => { x with startup := false, ending := false, saving := none, taskFrom := s.mono })
  let s3 := (s2.grTrace type (some e) (s2.task i) 0).grShow
  if type = 0x21 && leNum s.shared (s.fwBase + 16) 2 ≤ (s.task i).entry then s3.engineFault e 5 0 else s3

/-- READY tasks of enabled groups. -/
def State.candidates (s : State) : List Task :=
  s.grate.tasks.filter (fun (t : Task) => t.state == tdReady && s.bit (C3.grGroup t.group) 31)

/-- Standing of a group. -/
def State.standing (s : State) (g : Nat) : Int := ((s.grate.wrr.find? (fun (x : Nat × Int) => x.1 == g)).map (fun x => x.2)).getD 0

/-- The group next in the smooth weighted round robin: every group gains its WEIGHT, and the greatest standing is taken, a tie going
to the lower group. -/
def State.nextGroup (s : State) (gs : List Nat) : Option Nat :=
  gs.foldl (fun (best : Option Nat) g =>
    let v := fun (k : Nat) => s.standing k + s.fld (C3.grGroup k) 7 0
    match best with
    | none => some g
    | some b => if v b < v g || (v b == v g && g < b) then some g else some b) none

/-- The standings after a dispatch from group `g`. -/
def State.creditGroups (s : State) (gs : List Nat) (g : Nat) : State :=
  let total := gs.foldl (fun n k => n + s.fld (C3.grGroup k) 7 0) 0
  let up := gs.map (fun k => (k, s.standing k + s.fld (C3.grGroup k) 7 0 - (if k = g then (total : Int) else 0)))
  { s with grate := { s.grate with wrr := up ++ s.grate.wrr.filter (fun (x : Nat × Int) => !gs.contains x.1) } }

/-- The oldest of tasks. -/
def oldestTask (l : List Task) : Option Task :=
  l.foldl (fun (best : Option Task) t =>
    match best with
    | none => some t
    | some b => if t.place < b.place then some t else some b) none

/-- The choice of R370 among READY tasks: highest class, then group, then age; with the groups that took part. -/
def State.choose (s : State) (l : List Task) : Option (Task × List Nat) :=
  let c := l.foldl (fun n (t : Task) => max n t.cls) 0
  let top := l.filter (fun t => t.cls == c)
  let gs := (top.map Task.group).eraseDups
  match s.nextGroup gs with
  | none => none
  | some g => (oldestTask (top.filter (fun t => t.group == g))).map (fun t => (t, gs))

/-- The engine a task would preempt: in its affinity, running a PREEMPTIBLE task of lower class and holding fewer than 4; the one
of lowest class, ties to the lower number (R370, R371). -/
def State.victim (s : State) (t : Task) : Option Nat :=
  (List.range 16).foldl (fun (best : Option Nat) e =>
    match s.onEngine e with
    | none => best
    | some i =>
      let x := s.task i
      if t.affinity e && x.preemptible && x.cls < t.cls && (s.eng e).saving.isNone && (s.eng e).held.length < 4 then
        match best with
        | none => some e
        | some b => if x.cls < (s.task (s.engTask b)).cls then some e else best
      else best) none

/-- GRATE_DISPATCH: one decision. -/
def execGrateDispatch (s : State) : Host.Outcome State Fault Refusal :=
  if !s.cRuns then .next s
  else
    let all := s.candidates
    let left := all.filter (fun (t : Task) => !s.grate.skip.contains t.idx)
    let s0 := if left.isEmpty then { s with grate := { s.grate with skip := [] } } else s
    match s0.choose (if left.isEmpty then all else left) with
    | none => .next s0
    | some (t, gs) =>
      match (List.range 16).find? (fun e => t.affinity e && s0.engState e == engIdle) with
      | some e => .next ({ s0.creditGroups gs t.group with grate := { (s0.creditGroups gs t.group).grate with skip := [] } }.runTask e t.idx 0x21)
      | none => match s0.victim t with
        | some e =>
          let s1 := { s0.creditGroups gs t.group with grate := { (s0.creditGroups gs t.group).grate with skip := [] } }
          let s2 := (s1.onTask t.idx (fun x => { x with state := tdRunning, engine := e })).onEng e (fun x => { x with saving := some t.idx })
          .next (s2.grTrace 0x22 (some e) t (s0.engTask e)).grShow
        | none => .next { s0 with grate := { s0.grate with skip := t.idx :: s0.grate.skip } }

/-- PREEMPT_SAVE_DONE: the stopped task is PREEMPTED and the new one starts; an engine whose task has ended meanwhile takes the new
task as from IDLE (R371, R372). -/
def execPreemptSaveDone (e : Fin 16) (s : State) : Host.Outcome State Fault Refusal :=
  let x := s.eng e.val
  match x.saving with
  | none => .next s
  | some i =>
    if x.ending then .next (s.runTask e.val i 0x21)
    else
      let old := s.engTask e.val
      let s1 := (s.onTask old (fun t => { t with state := tdPreempted })).onEng e.val (fun y => { y with held := old :: y.held })
      .next ((s1.showHeld e.val).runTask e.val i 0x21)

/-- The highest-class PREEMPTED task an engine holds, the last one stopped of equals. -/
def State.heldBest (s : State) (e : Nat) : Option Task :=
  (s.eng e).held.foldl (fun (best : Option Task) i =>
    match best with
    | none => some (s.task i)
    | some b => if b.cls < (s.task i).cls then some (s.task i) else some b) none

/-- TASK_END_RESUME: an engine whose task has ended resumes its best PREEMPTED task, takes a READY one of a higher class, or goes
IDLE (R371); one that was to be preempted takes that task (R372). -/
def execTaskEndResume (e : Fin 16) (s : State) : Host.Outcome State Fault Refusal :=
  let n := e.val
  let x := s.eng n
  if !(s.engState n = engRunning && (x.ending || x.startup)) then .next s
  else match x.saving with
    | some i => .next (s.runTask n i 0x21)
    | none =>
      let ready := s.choose (s.candidates.filter (fun (t : Task) => t.affinity n))
      let idle := ((s.setEng n engIdle).onEng n (fun y => { y with ending := false, startup := false })).setFld (C4.engStat n) 27 16 0
      let resume := fun (t : Task) =>
        ((s.onEng n (fun y => { y with held := y.held.filter (fun k => k != t.idx) })).showHeld n).runTask n t.idx 0x23
      let take := fun (t : Task) (gs : List Nat) => (s.creditGroups gs t.group).runTask n t.idx 0x21
      match s.heldBest n, ready with
      | some h, some (t, gs) => if h.cls < t.cls then .next (take t gs) else .next (resume h)
      | some h, none => .next (resume h)
      | none, some (t, gs) => .next (take t gs)
      | none, none => .next idle

/-- TASK_OVERRUN (R372). -/
def execTaskOverrun (t : Fin 4096) (s : State) : Host.Outcome State Fault Refusal :=
  let x := s.task t.val
  if x.state = tdRunning && x.runMax ≠ 0 && s.onEngine x.engine == some t.val && (s.eng x.engine).taskFrom + x.runMax * 1000 ≤ s.mono then
    .next (((s.raise C3.page 0).err C3.page 0x0103 (BitVec.ofNat 32 t.val)).grTrace 0x26 (some x.engine) x 0)
  else .next s

/-! ## Mailboxes (R363, R364) -/

/-- The side of a requester that sends on a mailbox: the host on 0 to 15, the engines on 16 to 31. -/
def mbSender (r : Requester) (m : Nat) : Bool := (reqEngine r).isSome == decide (16 ≤ m)

/-- MB_STAT.FULL. -/
def State.mbFull (s : State) (m : Nat) : Bool := s.bit (C4.mbStat m) 0

def State.mbSide (s : State) (m : Nat) : State := s.err C4.page 0x0104 (BitVec.ofNat 32 m)

def State.mbBusy (s : State) (m : Nat) : State := s.err C4.page 0x0103 (BitVec.ofNat 32 m)

/-- MB_DOORBELL. -/
def execMbDoorbell (r : Requester) (m : Fin 32) (s : State) : Host.Outcome State Fault Refusal :=
  .next (s.cmdWrite r (C4.mbDoorbell m.val) (fun t =>
    if !mbSender r m.val then t.mbSide m.val
    else if t.mbFull m.val then t.mbBusy m.val
    else
      let t1 := t.wr (C4.mbStat m.val) (BitVec.ofNat 32 (1 + (t.fld (C4.mbStat m.val) 15 8 + 1) % 256 * 2 ^ 8))
      if m.val < 16 then t1.sourceEvent (0x20 + m.val) else t1.raise C4.page (m.val - 16)))

/-- MB_RELEASE: MB_FREE leaves the mailbox in ERR_INFO. -/
def execMbRelease (r : Requester) (m : Fin 32) (s : State) : Host.Outcome State Fault Refusal :=
  .next (s.cmdWrite r (C4.mbRelease m.val) (fun t =>
    if mbSender r m.val then t.mbSide m.val
    else if !t.mbFull m.val then t
    else
      let t1 := t.setBit (C4.mbStat m.val) 0 false
      if m.val < 16 then (t1.wr (HDR.errInfo C4.page) (BitVec.ofNat 32 m.val)).raise C4.page 16 else t1.sourceEvent (0x20 + m.val)))

/-- A write of a mailbox's data word (R363). -/
def State.mbData (s : State) (r : Requester) (m a : Nat) (w : Word) : State :=
  if !mbSender r m then s.mbSide m else if s.mbFull m then s.mbBusy m else s.wr a w

/-! ## The Ember engine's image (R374, R378) -/

/-- Octets that the host has written at the start of Ember SRAM, whose place in the register space the spec does not give (R374, log 124). -/
def State.emberWrite (s : State) (image : List Byte) : State :=
  if s.powered .e then { s with ember := { s.ember with sram := Mem.setBytes s.ember.sram 0 (image.take 262144) } } else s

/-- EMB_LOAD of the image at the start of Ember SRAM; `image` is what the host has written there since the last (R374). -/
def execEmbLoad (r : Requester) (image : List Byte) (s : State) : Host.Outcome State Fault Refusal :=
  .next ((s.emberWrite image).cmdWrite r E5.embCmd (fun t =>
    if t.ember.switching then t.errFree E5.page 0x0100 else (t.setFld E5.embStat 1 0 1).setFld E5.embStat 7 4 0))

/-- EMB_VERIFY_DONE. -/
def execEmbVerifyDone (s : State) : Host.Outcome State Fault Refusal :=
  if s.fld E5.embStat 1 0 ≠ 1 then .next s
  else match imageFault s.ember.sram 0 2 196352 262144 with
    | some k => .next (((s.setFld E5.embStat 1 0 3).setFld E5.embStat 7 4 k).raise E5.page 0)
    | none => .next ((s.setFld E5.embStat 1 0 2).raise E5.page 0)

/-- EMB_SWITCH. -/
def execEmbSwitch (r : Requester) (s : State) : Host.Outcome State Fault Refusal :=
  .next (s.cmdWrite r E5.embCmd (fun t =>
    if t.fld E5.embStat 1 0 = 2 then { t with ember := { t.ember with switching := true } } else t.errFree E5.page 0x0100))

/-- EMB_SWITCH_APPLY: the mesh's state is kept. -/
def execEmbSwitchApply (s : State) : Host.Outcome State Fault Refusal :=
  if s.ember.switching then
    .next ({ (s.setBit E5.embStat 8 false).wr E5.embVer (Mem.word s.ember.sram 8) with ember := { s.ember with switching := false } })
  else .next s

/-- The Ember engine at a release of die E: the ROM image runs (R374). -/
def State.embReset (s : State) : State :=
  { (s.setBit E5.embStat 8 true).wr E5.embVer Config.emberVersion with ember := { sram := [], switching := false } }

end Sys2Proof.Machine
end

