-- ==== Sys2Proof/Machine/Dram.lean ====
section
/-!
DEFINITION. The DRAM controller: states, initialisation and training, set points, refresh, self-refresh, and the freeze (R409 to
R429).
-/
namespace Sys2Proof.Machine

/-! ## States and capacity (R410 to R413) -/

/-- DRAM_STAT.STATE codes (R412). -/
def dmOff : Nat := 0
def dmInit : Nat := 1
def dmReady : Nat := 2
def dmFsp : Nat := 3
def dmFrozen : Nat := 4
def dmSelf : Nat := 5
def dmFailed : Nat := 6

/-- DRAM_STAT.STATE. -/
def State.dm (s : State) : Nat := s.fld C7.dramStat 2 0

/-- The controller's further state changed. -/
def State.onDdr (s : State) (f : DramCtl → DramCtl) : State := { s with ddr := f s.ddr }

/-- Channels configured (R428). -/
def State.channels (s : State) : Nat := if s.bit C7.dramCfg 0 then 2 else 4

/-- Usable capacity of the configuration, MB: seven-eighths of channels × ranks × density (R410). -/
def State.usableMb (s : State) : Nat :=
  s.channels * (if s.bit C7.dramCfg 1 then 2 else 1) * (if s.fld C7.dramCfg 3 2 = 0 then 8 else if s.fld C7.dramCfg 3 2 = 1 then 12 else 16) * 112

/-- The channel of an address (R411). -/
def State.chanOf (s : State) (a : Nat) : Nat := if s.bit C7.dramCfg 0 then a / 4096 % 2 else a / 4096 % 4

/-- The controller takes a state; CAP_MB shows the capacity in READY and FROZEN, and HEALTH follows (R427, R488). -/
def State.setDm (s : State) (st : Nat) : State :=
  s.healthStep ((s.setFld C7.dramStat 2 0 st).wr C7.capMb (BitVec.ofNat 32 (if st = dmReady || st = dmFrozen then s.usableMb else 0)))

/-- CMD_STATE with the command (R429). -/
def State.dmCmdState (s : State) (cmd : Nat) : State := s.err C7.page 0x0104 (BitVec.ofNat 32 cmd)

/-- A training is running (R428). -/
def State.dmTraining (s : State) : Bool := s.bit C7.dramStat 9

/-- FSP_MASK. -/
def State.fspMask (s : State) : BitVec 4 := BitVec.ofNat 4 (s.fld C7.dramCfg 11 8)

/-- The highest data rate of a set of set points (R414). -/
def topRate (m : BitVec 4) : Nat := if m.getLsbD 3 then 3 else if m.getLsbD 2 then 2 else if m.getLsbD 1 then 1 else 0

/-- CH_STAT.TRAINED of every configured channel. -/
def State.showTrained (s : State) (b : Bool) : State :=
  (List.range 4).foldl (fun t n => t.setBit (C7.chStat n) 0 (b && decide (n < s.channels))) s

/-! ## Initialisation and set points (R414 to R416) -/

/-- DRAM_INIT. -/
def execDramInit (r : Requester) (s : State) : Host.Outcome State Fault Refusal :=
  .next (s.cmdWrite r C7.dramCmd (fun t =>
    if t.dm = dmOff || t.dm = dmFailed then (t.setDm dmInit).setBit C7.dramStat 9 true else t.dmCmdState 1))

/-- DRAM_INIT_DONE: a failing channel and step, or none. -/
def execDramInitDone (fail : Option (Nat × Nat)) (s : State) : Host.Outcome State Fault Refusal :=
  if s.dm ≠ dmInit then .next s
  else
    let s1 := s.setBit C7.dramStat 9 false
    match fail with
    | some (ch, step) =>
      .next ((((s1.setDm dmFailed).raise C7.page 1).err C7.page 0x0101 (BitVec.ofNat 32 (ch % 16 + step % 16 * 2 ^ 8))))
    | none =>
      let s2 := (s1.setFld C7.dramStat 5 4 (topRate s.fspMask)).onDdr (fun x => { x with trained := s.fspMask, trainAt := s.mono, trainTemp := sx 8 (s.fld (DC.dieTemp 0x400000) 7 0) })
      .next (((s2.setDm dmReady).showTrained true).raise C7.page 0)

/-- FSP_CHANGE. -/
def execFspChange (r : Requester) (rate : Fin 4) (s : State) : Host.Outcome State Fault Refusal :=
  .next (s.cmdWrite r C7.dramCmd (fun t =>
    if t.ddr.target.isSome || !(t.dm = dmReady || t.dm = dmInit) then t.dmCmdState 2
    else if !(if t.dm = dmInit then t.fspMask else t.ddr.trained).getLsbD rate.val then t.err C7.page 0x0103 (BitVec.ofNat 32 rate.val)
    else (t.onDdr (fun x => { x with target := some rate.val })).setBit C7.dramStat 8 true))

/-- FSP_CHANGE_START: no training or freeze holds it (R416). -/
def execFspChangeStart (s : State) : Host.Outcome State Fault Refusal :=
  if s.ddr.target.isSome && s.dm = dmReady && !s.dmTraining then .next ((s.setDm dmFsp).setBit C7.dramStat 8 false) else .next s

/-- The results of retraining: every set point with `all`, and the current one in either case (R415, R426). -/
def State.retrain (s : State) (all : Bool) : State :=
  s.onDdr (fun x => { x with trained := (if all then s.fspMask else x.trained) ||| BitVec.twoPow 4 (s.fld C7.dramStat 5 4), trainAt := s.mono, trainTemp := sx 8 (s.fld (DC.dieTemp 0x400000) 7 0) })

/-- RETRAIN_NOW. -/
def execRetrainNow (r : Requester) (allFsp : Bool) (s : State) : Host.Outcome State Fault Refusal :=
  .next (s.cmdWrite r C7.dramCmd (fun t => if t.dm = dmReady then t.retrain allFsp else t.dmCmdState 4))

/-- DRAM_RETRAIN: PERIOD has passed, or the temperature has moved by more than TEMP_THR (R415). -/
def execDramRetrain (s : State) : Host.Outcome State Fault Refusal :=
  let moved := sx 8 (s.fld (DC.dieTemp 0x400000) 7 0) - s.ddr.trainTemp
  let due := decide (s.ddr.trainAt + s.fld C7.trainCfg 9 0 * 1000000 ≤ s.mono) || decide ((s.fld C7.trainCfg 20 16 : Int) < moved) ||
    decide (moved < -(s.fld C7.trainCfg 20 16 : Int))
  if s.dm = dmReady && due then .next (s.retrain false) else .next s

/-! ## Refresh (R417, R418) -/

/-- Refreshes a bank owes. -/
def State.owedBy (s : State) (k : Nat) : Nat := ((s.ddr.owed.find? (fun (x : Nat × Nat) => x.1 == k)).map (fun x => x.2)).getD 0

/-- The owed count of a bank replaced, with CH_STAT.OWED_MAX. -/
def State.setOwed (s : State) (ch k n : Nat) : State :=
  let s1 := s.onDdr (fun x => { x with owed := (if n = 0 then [] else [(k, n)]) ++ x.owed.filter (fun (y : Nat × Nat) => y.1 != k) })
  if s.fld (C7.chStat ch) 7 4 < n then s1.setFld (C7.chStat ch) 7 4 n else s1

/-- The controller refreshes in these states; a freeze does not stop it (R422, R425). -/
def State.refreshing (s : State) : Bool := s.dm == dmReady || s.dm == dmFsp || s.dm == dmFrozen

/-- REFRESH_DUE: `rt` says whether the bank holds no real-time burst 0, a queued one 1, or one in progress 2. -/
def execRefreshDue (ch : Fin 4) (bank : Fin 64) (rt : Fin 3) (s : State) : Host.Outcome State Fault Refusal :=
  let k := ch.val * 64 + bank.val
  if !s.refreshing || s.channels ≤ ch.val || rt.val = 0 then .next s
  else if s.owedBy k < 8 then .next (s.setOwed ch.val k (s.owedBy k + 1))
  else if rt.val = 2 then .next (s.count C7.splitCnt 1) else .next s

/-- REFRESH_PAYBACK: owed refreshes are issued back to back. -/
def execRefreshPayback (ch : Fin 4) (bank : Fin 64) (s : State) : Host.Outcome State Fault Refusal :=
  if s.refreshing then .next (s.setOwed ch.val (ch.val * 64 + bank.val) 0) else .next s

/-- MR4_POLL: the die temperature lies above 85 °C or not (R417). -/
def execMr4Poll (ch : Fin 4) (hot : Bool) (s : State) : Host.Outcome State Fault Refusal :=
  if !s.refreshing || s.channels ≤ ch.val || s.bit (C7.chStat ch.val) 1 == hot then .next s
  else .next ((s.setBit (C7.chStat ch.val) 1 hot).raise C7.page 5)

/-! ## Freeze, self-refresh and loss (R412, R422, R425, R426) -/

/-- The controller freezes on an uncorrectable error (R422). -/
def State.dmFreeze (s : State) (kind inst addr : Nat) (lo hi : Word) (extra : Nat) : State :=
  let ch := s.chanOf addr
  let t := s.now .c
  let s1 := (s.onDdr (fun x => { x with failed := addr / 64 })).wrs
    [(C7.frzAddrLo, BitVec.ofNat 32 addr), (C7.frzAddrHi, BitVec.ofNat 32 (addr / 2 ^ 32 % 4 + ch * 2 ^ 8)), (C7.frzSynd, lo), (C7.frzSyndHi, hi),
     (C7.frzReq, BitVec.ofNat 32 (kind + inst * 2 ^ 8)), (C7.frzTimeS, BitVec.ofNat 32 (sec32 t)), (C7.frzTimeNs, BitVec.ofNat 32 (nsOf t))]
  let s2 := (s1.count C7.frzExtra extra).setDm dmFrozen
  ((((s2.raise C7.page 3).err C7.page 0x0102 (BitVec.ofNat 32 ch)).logFree C7.page 9)).freezeHold

/-- A corrected error of a line: counted with its address, and CE_THR when the count reaches the threshold (R421). -/
def State.dmCorrected (s : State) (addr : Nat) : State :=
  let ch := s.chanOf addr
  let s1 := (s.count (C7.ceCnt ch) 1).wr (C7.ceLast ch) (BitVec.ofNat 32 (addr / 64 % 2 ^ 28))
  if (s.rd (C7.ceCnt ch)).toNat + 1 = s.fld C7.ceThr 15 0 then (s1.setBit C11.healthSticky 1 true).raise C7.page 2 else s1

/-- A poisoned line is read: POISON_READ, without a freeze (R424, R488). -/
def State.poisonRead (s : State) (line : Nat) : State :=
  ((s.raise C7.page 6).err C7.page 0x0105 (BitVec.ofNat 32 line)).setBit C11.healthSticky 2 true

/-- POISON_CNT. -/
def State.setPoison (s : State) (l : List Nat) : State :=
  (s.onDdr (fun x => { x with poison := l })).wr C7.poisonCnt (BitVec.ofNat 32 l.length)

/-- Lines that `n` bytes from `addr` touch. -/
def linesOf (addr n : Nat) : List Nat := (List.range ((addr + n + 63) / 64 - addr / 64)).map (fun k => addr / 64 + k)

/-- `n` bytes from `addr` cover a whole line: a write of them takes it off the poison list (R424). -/
def lineCovered (addr n line : Nat) : Bool := decide (addr ≤ line * 64) && decide (line * 64 + 64 ≤ addr + n)

/-- The poisoned line that an access reads; a write that covers only part of a line reads it first (R420, R424). -/
def State.poisonHit (s : State) (addr n : Nat) (write : Bool) : Option Nat :=
  (linesOf addr n).find? (fun l => s.ddr.poison.contains l && (!write || !lineCovered addr n l))

/-- An access ends in error to its requester; for an engine that runs it is a bus fault (R353, R423). -/
def State.dmError (s : State) (q : DramReq) : State :=
  let s1 := s.emit (.dramError q.kind q.inst q.addr)
  if q.kind = 3 && s1.engState (q.inst % 16) = engRunning then s1.engineFault (q.inst % 16) 2 q.addr else s1

/-- Self-refresh is entered, from READY or FROZEN: owed refreshes are paid, held accesses end in error (R425, R426). -/
def State.srEnter (s : State) : State :=
  if s.dm = dmReady || s.dm = dmFrozen then
    let s1 := s.ddr.held.foldl (fun t q => t.dmError q) s
    ((s1.onDdr (fun x => { x with held := [], owed := [] })).setDm dmSelf).setBit GLB.pwrState 22 true
  else s

/-- Self-refresh is left: the current set point is retrained, and READY is raised (R426). -/
def State.srExit (s : State) : State :=
  if s.dm = dmSelf then
    ((((s.setDm dmReady).retrain false).showTrained true).setBit GLB.pwrState 22 false).raise C7.page 0
  else s

/-- Die C is powered down: the controller's state is lost, and the contents too unless they are retained. The configuration is fixed
while data are held, and so is the set point the devices stand at (R413, R426). -/
def State.ddrLose (s : State) (retained : Bool) : State :=
  { s with ddr := { DramCtl.fresh s.mono with kept := if retained then s.ddr.kept.or (some (s.rd C7.dramCfg, s.fld C7.dramStat 5 4)) else none }, dram := if retained then s.dram else [] }

end Sys2Proof.Machine
end

