-- ==== Sys2Proof/Machine/Dma.lean ====
section
/-!
DEFINITION. The DMA controller: descriptors and their checks, streams and bursts, stopping, and the end of a descriptor (R379 to R395).
-/
namespace Sys2Proof.Machine

/-! ## Addresses and spaces (R382) -/

/-- An address of a descriptor: SPACE, SUB and byte address. -/
structure DmaAddr where
  space : Nat
  sub : Nat
  addr : Nat
  /-- Bits 23:16 of the high word are zero. -/
  zero : Bool
  deriving DecidableEq, Repr

/-- The address of two words. -/
def dmaAddr (lo hi : Word) : DmaAddr :=
  { space := bitsOf hi 31 28, sub := bitsOf hi 27 24, addr := lo.toNat + bitsOf hi 15 0 * 2 ^ 32, zero := bitsOf hi 23 16 == 0 }

/-- One side of a descriptor: where it starts, its line length, its line count and its signed stride (R381). -/
structure DmaSide where
  at_ : DmaAddr
  len : Nat
  cnt : Nat
  stride : Int
  deriving DecidableEq, Repr

/-- The side whose words begin at `k`. -/
def sideOf (w : List Word) (k : Nat) : DmaSide :=
  { at_ := dmaAddr (w.getD k 0) (w.getD (k + 1) 0), len := bitsOf (w.getD (k + 2) 0) 15 0 + 1, cnt := bitsOf (w.getD (k + 2) 0) 31 16 + 1,
    stride := (w.getD (k + 3) 0).toInt }

/-- Source and destination, operation, and next descriptor. -/
def srcOf (w : List Word) : DmaSide := sideOf w 2
def dstOf (w : List Word) : DmaSide := sideOf w 6
def opOf (w : List Word) : Nat := bitsOf (w.getD 0 0) 1 0
def nextOf (w : List Word) : DmaAddr := dmaAddr (putFld (w.getD 10 0) 5 0 0) (w.getD 11 0)

/-- Total bytes of a side. -/
def DmaSide.total (x : DmaSide) : Nat := x.len * x.cnt

/-- Bytes the descriptor moves or compares. -/
def totalOf (w : List Word) : Nat := (dstOf w).total

/-- The lowest and highest byte a side touches (R385). -/
def DmaSide.span (x : DmaSide) : Int × Int :=
  let d := x.stride * ((x.cnt : Int) - 1)
  ((x.at_.addr : Int) + min 0 d, (x.at_.addr : Int) + max 0 d + x.len - 1)

/-- Extent of a space in bytes (R382, R410). -/
def State.extent (s : State) (space : Nat) : Nat :=
  match space with
  | 0 => 2 ^ 48
  | 1 => 8388608
  | 2 => s.usableMb * 1048576
  | 3 => 262144
  | 4 => 262144
  | _ => 2097152

/-- SPACE and SUB are ones a channel reaches (R379, R382). -/
def spaceOk (radio : Bool) (a : DmaAddr) : Bool :=
  match a.space with
  | 0 => a.sub == 0
  | 1 => a.sub == 0
  | 2 => a.sub == 0
  | 3 => true
  | 4 => a.sub == 0
  | 5 => radio && decide (a.sub ≤ 5)
  | _ => false

/-- A byte address of a side's stream offset (R384). -/
def DmaSide.byteAt (x : DmaSide) (i : Nat) : Nat := ((x.at_.addr : Int) + x.stride * ((i / x.len : Nat) : Int) + ((i % x.len : Nat) : Int)).toNat

/-- `n` bytes of a space; those of host memory come with the command, in order. -/
def State.spaceRead (s : State) (x : DmaAddr) (addr n : Nat) (host : List Byte) : List Byte :=
  match x.space with
  | 0 => (List.range n).map (fun k => host.getD k 0)
  | 1 => Mem.bytes s.shared addr n
  | 2 => Mem.bytes s.dram addr n
  | 3 => Mem.bytes (s.eng x.sub).sram addr n
  | 4 => Mem.bytes s.esram addr n
  | _ => Mem.bytes (s.radioMem.getD x.sub []) addr n

/-- Bytes written into a space. -/
def State.spaceWrite (s : State) (x : DmaAddr) (addr : Nat) (bs : List Byte) : State :=
  match x.space with
  | 0 => s.emit (.hostWrite addr bs)
  | 1 => s.sharedWrite addr bs
  | 2 => { s with dram := Mem.setBytes s.dram addr bs }
  | 3 => s.onEng x.sub (fun e => { e with sram := Mem.setBytes e.sram addr bs })
  | 4 => { s with esram := Mem.setBytes s.esram addr bs }
  | _ => { s with radioMem := s.radioMem.set x.sub (Mem.setBytes (s.radioMem.getD x.sub []) addr bs) }

/-! ## Descriptors (R381, R383, R385) -/

/-- The words of a descriptor in memory; those in host memory come with the command. -/
def State.fetchDesc (s : State) (x : DmaAddr) (host : List Word) : List Word :=
  match x.space with
  | 0 => (List.range 16).map (fun k => host.getD k 0)
  | 1 => (List.range 16).map (fun k => Mem.word s.shared (x.addr + 4 * k))
  | _ => (List.range 16).map (fun k => Mem.word s.dram (x.addr + 4 * k))

/-- The sides an operation uses. -/
def sidesOf (w : List Word) : List DmaSide := if opOf w = 1 then [dstOf w] else [srcOf w, dstOf w]

/-- A side lies within its space. -/
def State.sideFits (s : State) (x : DmaSide) : Bool :=
  decide (0 ≤ x.span.1) && decide (x.span.2 < (s.extent x.at_.space : Int))

/-- The spans of the two sides overlap in one space (R385). -/
def sidesMeet (w : List Word) : Bool :=
  let a := srcOf w
  let b := dstOf w
  a.at_.space == b.at_.space && a.at_.sub == b.at_.sub && decide (a.span.1 ≤ b.span.2) && decide (b.span.1 ≤ a.span.2)

/-- A destination byte of a verified firmware image that the descriptor would touch (R383). -/
def State.imageHit (s : State) (w : List Word) : Option Nat :=
  let d := dstOf w
  let lo := s.fwBase
  let hi := s.fwBase + 256 + leNum s.shared (s.fwBase + 12) 4
  if opOf w = 2 || d.at_.space ≠ 1 || s.fwState ≠ 2 then none
  else (List.range d.cnt).findSome? (fun (k : Nat) =>
    let a := ((d.at_.addr : Int) + d.stride * k).toNat
    if a < hi && lo < a + d.len then some (max a lo) else none)

/-- The DRAM is in self-refresh or not ready; a set-point change only holds its traffic, and a freeze has its own effect (R383, R391,
R412, R416). -/
def State.dramOff (s : State) : Bool := s.dm != dmReady && s.dm != dmFrozen && s.dm != dmFsp

/-- The reason a descriptor fails its check, in the order of R383's table. -/
def State.descFault (s : State) (n : Nat) (w : List Word) : Option Nat :=
  let sides := sidesOf w
  let nx := nextOf w
  let zero := bitsOf (w.getD 0 0) 31 7 == 0 && sides.all (fun x => x.at_.zero) && (nx.space == 15 || nx.zero)
  let big := sides.any (fun x => decide (0xFFFFFFFF < x.total))
  let okSpace := sides.all (fun x => spaceOk (radioClass n) x.at_)
  let dst := dstOf w
  let self := decide (2 ≤ dst.cnt) && decide (dst.stride.natAbs < dst.len)
  let two := decide (2 ≤ dst.cnt) || decide (2 ≤ (srcOf w).cnt)
  if opOf w = 3 || !zero then some 5
  else if (opOf w ≠ 1 && (srcOf w).total ≠ dst.total) || big then some 2
  else if (sides.any (fun x => spaceOk (radioClass n) x.at_ && !s.sideFits x)) || (s.imageHit w).isSome then some 3
  else if !okSpace then some 4
  else if sides.any (fun x => x.at_.space == 2) && s.dramOff then some 8
  else if self then some 1
  else if opOf w = 0 && two && sidesMeet w then some 1
  else none

/-- The descriptor itself lies in HOST, SHARED or DRAM, and within it (R381, R383). -/
def State.descPlace (s : State) (x : DmaAddr) : Option Nat :=
  if 2 < x.space || x.sub ≠ 0 then some 4
  else if s.extent x.space < x.addr + 64 then some 3
  else if x.space = 2 && s.dramOff then some 8
  else none

/-- Words 12 to 15 go back to a descriptor; one in a DRAM that takes no access gets none (R381, R392, R412). -/
def State.writeBack (s : State) (n : Nat) (x : DmaAddr) (ws : List Word) (all : Bool) : State :=
  let stat := s.rd (C5.chStat n)
  if x.space = 2 && s.dm ≠ dmReady && s.dm ≠ dmFsp then s
  else s.spaceWrite x (x.addr + 48) ((if all then stat :: ws else [stat]).flatMap wordBytes)

/-- WB of a descriptor. -/
def wbOf (w : List Word) : Bool := bitOf (w.getD 0 0) 6

/-- CH_CUR names a descriptor. -/
def State.setCur (s : State) (n : Nat) (x : DmaAddr) : State :=
  s.wrs [(C5.chCurLo n, BitVec.ofNat 32 x.addr), (C5.chCurHi n, BitVec.ofNat 32 (x.addr / 2 ^ 32 % 2 ^ 16 + x.sub * 2 ^ 24 + x.space * 2 ^ 28))]

/-- The descriptor CH_CUR names. -/
def State.curOf (s : State) (n : Nat) : DmaAddr := dmaAddr (s.rd (C5.chCurLo n)) (s.rd (C5.chCurHi n))

/-- CH_RESIDUE follows the position. -/
def State.showResidue (s : State) (n : Nat) : State :=
  let x := s.chan n
  s.wr (C5.chResidue n) (BitVec.ofNat 32 (totalOf x.desc - x.pos))

/-- DESC_FAIL: a descriptor that fails its check ends the channel in ERROR with nothing moved (R383, R395). -/
def State.descFail (s : State) (n reason : Nat) (w : Option (List Word)) : State :=
  let s1 := (s.chFail n reason).err C5.page 0x0102 (BitVec.ofNat 32 (n * 256 + reason))
  let s2 := match w with
    | some d => match s.imageHit d with
      | some a => if reason = 3 then s1.err C4.page 0x0102 (BitVec.ofNat 32 a) else s1
      | none => s1
    | none => s1
  match w with
  | some d => if wbOf d then s2.writeBack n (s2.curOf n) [] false else s2
  | none => s2

/-! ## Pacing (R386, R387) -/

/-- CH_LEVEL_ADJ. -/
def execChLevelAdj (r : Requester) (n : Fin 32) (w : Word) (s : State) : Host.Outcome State Fault Refusal :=
  .next (s.cmdWrite r (C5.chLevelAdj n.val) (fun t =>
    (t.wr (C5.chLevel n.val) (BitVec.ofInt 32 (clampI 0 16777215 ((t.level n.val : Int) + w.toInt)))).pace n.val))

/-- DMA_REQUEST: a pulse of a request line by a producer outside the model, such as a capture (R386); a channel-state record and a Grate timer
pulse theirs themselves (log 123). -/
def execDmaRequest (line : Nat) (s : State) : Host.Outcome State Fault Refusal :=
  .next (s.dmaRequest line)

/-- The PCI Express link is in L0: accesses to HOST complete (R438). -/
def State.hostUp (s : State) : Bool := s.bit C8.hpStat 0

/-- A DRAM access refused by a freeze: PAUSED with FROZEN, or ERROR as DRAM_FROZEN (R391). -/
def State.chFrozen (s : State) (n : Nat) : State :=
  if radioClass n then (((s.setCh n chPaused).setBit (C5.chStat n) 12 true).showResidue n).raise C5.page 2
  else (s.showResidue n).chFail n 7

/-! ## Start (R388) -/

/-- A descriptor is taken up: its place and its words are checked whole (R383); a freeze refuses one in the DRAM (R391). -/
def State.takeDesc (s : State) (n : Nat) (x : DmaAddr) (host : List Word) : State :=
  let s0 := s.setCur n x
  match s0.descPlace x with
  | some r => s0.descFail n r none
  | none =>
    if x.space = 0 && !s.hostUp then s0.chFail n 6
    else if x.space = 2 && s.dm = dmFrozen then (s0.onChan n (fun c => { c with desc := [], pos := 0, tail := false, unread := true })).chFrozen n
    else
    let w := s0.fetchDesc x host
    let s1 := (s0.onChan n (fun c => { c with desc := w.take 12, pos := 0, tail := false, unread := false })).showResidue n
    match s1.descFault n w with
    | some r => s1.descFail n r (some w)
    | none =>
      let down := opOf w == 0 && (srcOf w).cnt == 1 && (dstOf w).cnt == 1 && sidesMeet w && decide ((srcOf w).at_.addr < (dstOf w).at_.addr)
      ((s1.setBit (C5.chStat n) 11 down).setCh n chRunning).pace n

/-- CH_START. -/
def execChStart (r : Requester) (n : Fin 32) (host : List Word) (s : State) : Host.Outcome State Fault Refusal :=
  .next (s.cmdWrite r (C5.chCmd n.val) (fun t =>
    let k := n.val
    if radioClass k && t.pstate == 4 then t.chCmdClass k 1
    else if t.ch k ≠ chIdle && t.ch k < 5 then t.chCmdState k 1
    else
      let t1 := (t.wr (C5.chStat k) 0).wr (C5.chMismatch k) 0xFFFFFFFF
      let t2 := t1.onChan k (fun _ => DmaChan.fresh)
      t2.takeDesc k (dmaAddr (putFld (t.rd (C5.chDescLo k)) 5 0 0) (t.rd (C5.chDescHi k))) host))

/-! ## Stopping (R388 to R390) -/

/-- The descriptor in progress is the last of its chain. -/
def DmaChan.last (x : DmaChan) : Bool := (nextOf x.desc).space == 15

/-- CH_PAUSE: after the last write of the chain it stops nothing (R389). -/
def execChPause (r : Requester) (n : Fin 32) (s : State) : Host.Outcome State Fault Refusal :=
  .next (s.cmdWrite r (C5.chCmd n.val) (fun t =>
    let k := n.val
    if !radioClass k then t.chCmdClass k 2
    else if t.ch k ≠ chRunning && t.ch k ≠ chWaiting then t.chCmdState k 2
    else if (t.chan k).tail && (t.chan k).last then t.setBit (C5.chStat k) 9 true
    else t.setCh k chPausing))

/-- DMA_PAUSED. -/
def execDmaPaused (n : Fin 32) (s : State) : Host.Outcome State Fault Refusal :=
  if s.ch n.val = chPausing then .next (((s.setCh n.val chPaused).showResidue n.val).raise C5.page 2) else .next s

/-- CH_RESUME: from the next byte, or with the descriptor that a freeze kept it from reading (R389, R391). -/
def execChResume (r : Requester) (n : Fin 32) (s : State) : Host.Outcome State Fault Refusal :=
  .next (s.cmdWrite r (C5.chCmd n.val) (fun t =>
    let k := n.val
    if !radioClass k then t.chCmdClass k 3
    else if t.ch k ≠ chPaused then t.chCmdState k 3
    else
      let t1 := t.setBit (C5.chStat k) 12 false
      if (t.chan k).unread then t1.takeDesc k (t1.curOf k) [] else (t1.setCh k chRunning).pace k))

/-- CH_STOP. -/
def execChStop (r : Requester) (n : Fin 32) (s : State) : Host.Outcome State Fault Refusal :=
  .next (s.cmdWrite r (C5.chCmd n.val) (fun t =>
    let k := n.val
    if !radioClass k then t.chCmdClass k 4 else if t.ch k ≠ chPaused then t.chCmdState k 4 else t.chAbort k 10))

/-- CH_ABORT: at once within a descriptor, at its boundary when its bytes have all moved; completion wins (R388, R390). -/
def execChAbort (r : Requester) (n : Fin 32) (s : State) : Host.Outcome State Fault Refusal :=
  .next (s.cmdWrite r (C5.chCmd n.val) (fun t =>
    let k := n.val
    let x := t.chan k
    if radioClass k then t.chCmdClass k 5
    else if 5 ≤ t.ch k then (t.setCh k chComplete).setBit (C5.chStat k) 8 true
    else if t.ch k ≠ chRunning && t.ch k ≠ chWaiting then t.chCmdState k 5
    else if x.tail && x.last then t.setBit (C5.chStat k) 8 true
    else if x.tail then t.onChan k (fun y => { y with abort := true })
    else
      let t1 := (t.showResidue k).chAbort k 9
      if wbOf x.desc then t1.writeBack k (t1.curOf k) [] false else t1))

/-! ## Bursts (R380, R384) -/

/-- Bytes to the next 4 KB boundary upwards, and to the last one downwards. -/
def roomUp (a : Nat) : Nat := 4096 - a % 4096
def roomDown (a : Nat) : Nat := if a % 4096 = 0 then 4096 else a % 4096

/-- Bytes of the next burst: within CH_PACE.BURST, a 4 KB boundary and the end of a line, on both sides (R380). -/
def burstLen (limit pos total : Nat) (down : Bool) (sides : List DmaSide) : Nat :=
  sides.foldl (fun n x =>
    if down then min n (roomDown (x.at_.addr + total - pos))
    else min n (min (x.len - pos % x.len) (roomUp (x.byteAt pos)))) (min limit (total - pos))

/-- Index of the first unequal byte of two lists. -/
def firstDiff : List Byte → List Byte → Option Nat
  | a :: s, b :: t => if a = b then (firstDiff s t).map (· + 1) else some 0
  | _, _ => none

/-- The descriptor in progress has a side in the DRAM. -/
def State.dramSide (s : State) (n : Nat) : Bool := (sidesOf (s.chan n).desc).any (fun x => x.at_.space == 2)

/-- A channel ready for an issue slot (R380); a set-point change of the DRAM holds those that move its bytes (R416). -/
def State.chReady (s : State) (n : Nat) : Bool :=
  s.ch n == chRunning && !(s.chan n).tail && !(s.dm == dmFsp && s.dramSide n)

/-- Channels of a class in round robin order after the one served last. -/
def rrOrder (base last : Nat) : List Nat := (List.range 16).map (fun k => base + (last + 1 + k) % 16)

/-- The channel of the next issue slot: the radio class before the host class, each round robin (R380). -/
def State.nextChan (s : State) : Option Nat :=
  match (rrOrder 0 s.dma.lastRadio).find? (fun n => s.chReady n) with
  | some n => some n
  | none => (rrOrder 16 s.dma.lastHost).find? (fun n => s.chReady n)

/-- The level after a burst of `k` bytes (R387). -/
def State.levelBurst (s : State) (n k : Nat) : State :=
  match s.fld (C5.chPace n) 13 12 with
  | 1 => s.wr (C5.chLevel n) (BitVec.ofNat 32 (s.level n - k))
  | 2 => s.wr (C5.chLevel n) (BitVec.ofNat 32 (min 16777215 (s.level n + k)))
  | _ => s

/-- The poisoned line of the DRAM that a burst of `k` bytes at stream offset `off` reads (R424). -/
def State.burstPoison (s : State) (w : List Word) (off k : Nat) : Option Nat :=
  (sidesOf w).zipIdx.findSome? (fun x =>
    let last := decide (x.2 + 1 = (sidesOf w).length)
    if x.1.at_.space = 2 then s.poisonHit (x.1.byteAt off) k (last && opOf w != 2) else none)

/-- A channel moves one burst; data read from host memory come with the command (R380, R384). -/
def State.burst (s : State) (n : Nat) (host : List Byte) : State :=
  let x := s.chan n
  let w := x.desc
  let total := totalOf w
  let down := s.bit (C5.chStat n) 11
  let k := burstLen (64 * 2 ^ s.fld (C5.chPace n) 9 8) x.pos total down (sidesOf w)
  let src := srcOf w
  let dst := dstOf w
  let off := if down then total - x.pos - k else x.pos
  let fill := (List.range k).map (fun i => (w.getD 1 0).extractLsb' (8 * ((off + i) % 4)) 8)
  let data := if opOf w = 1 then fill else s.spaceRead src.at_ (src.byteAt off) k host
  let other := if opOf w = 2 then s.spaceRead dst.at_ (dst.byteAt off) k (if src.at_.space = 0 then host.drop k else host) else []
  let diff := if opOf w = 2 then firstDiff data other else none
  let moved := match diff with
    | some i => i + 1
    | none => k
  match s.burstPoison w off k with
  | some l => ((s.poisonRead l).showResidue n).chFail n 7
  | none =>
  let s0 := if opOf w != 2 && dst.at_.space == 2 then s.setPoison (s.ddr.poison.filter (fun l => !lineCovered (dst.byteAt off) k l)) else s
  let s1 := if opOf w = 2 then s else s0.spaceWrite dst.at_ (dst.byteAt off) data
  let s2 := s1.onChan n (fun y => { y with pos := y.pos + moved, tail := diff.isSome || decide (total ≤ y.pos + moved), reqs := y.reqs - 1 })
  let s3 := match diff with
    | some i => (s2.wr (C5.chMismatch n) (BitVec.ofNat 32 (off + i))).setBit (C5.chStat n) 10 true
    | none => s2
  (((s3.count (C5.chBytes n) moved).levelBurst n moved).showResidue n).pace n

/-- The descriptor in progress has a side in host memory. -/
def State.hostSide (s : State) (n : Nat) : Bool := (sidesOf (s.chan n).desc).any (fun x => x.at_.space == 0)

/-- DMA_BURST: an access to HOST without a PCI Express link ends the channel in ERROR, and so does one to a DRAM that is neither
READY nor FROZEN (R412, R438). -/
def execDmaBurst (host : List Byte) (s : State) : Host.Outcome State Fault Refusal :=
  match s.nextChan with
  | none => .next s
  | some n =>
    let s1 := { s with dma := if radioClass n then { s.dma with lastRadio := n } else { s.dma with lastHost := n - 16 } }
    if s.hostSide n && !s.hostUp then .next ((s1.showResidue n).chFail n 6)
    else if s.dramSide n && s.dm = dmFrozen then .next (s1.chFrozen n)
    else if s.dramSide n && s.dm ≠ dmReady then .next ((s1.showResidue n).chFail n 8)
    else .next (s1.burst n host)

/-- DMA_HOST_ERROR: the exact residue stays (R391). -/
def execDmaHostError (n : Fin 32) (s : State) : Host.Outcome State Fault Refusal :=
  let st := s.ch n.val
  if 1 ≤ st && st ≤ 4 && s.hostSide n.val then .next ((s.showResidue n.val).chFail n.val 6) else .next s

/-! ## The end of a descriptor (R392) -/

/-- A descriptor's end: write-back, then IRQ and NOTIFY, then the next descriptor or the end of the chain; a mismatch ends the channel
COMPLETE at its descriptor (R384, R390, R392). -/
def State.descEnd (s : State) (k : Nat) (host : List Word) : State :=
  let x := s.chan k
  let stop := x.last || s.bit (C5.chStat k) 10
  let s1 := s.setFld (C5.chStat k) 23 16 (s.fld (C5.chStat k) 23 16 + 1)
  let s2 := if stop then s1.setCh k chComplete else s1
  let s3 := if wbOf x.desc then s2.writeBack k (s.curOf k) [s2.rd (C5.chResidue k), s2.rd (C5.chMismatch k), BitVec.ofNat 32 x.pos] true else s2
  let s4 := if stop || bitOf (x.desc.getD 0 0) 4 then s3.chEnd k else s3
  let s5 := if stop || bitOf (x.desc.getD 0 0) 5 then s4.sourceEvent k else s4
  let s6 := s5.onChan k (fun y => { y with tail := false, abort := false })
  if stop then s6
  else if x.abort then
    let nx := nextOf x.desc
    let s7 := s6.setCur k nx
    (s7.wr (C5.chResidue k) (BitVec.ofNat 32 (totalOf (s7.fetchDesc nx host)))).chAbort k 9
  else s6.takeDesc k (nextOf x.desc) host

/-- DESCRIPTOR_END of a channel whose bytes have all moved. A write-back to the DRAM meets a freeze, a set-point change or a DRAM out of
service as any access does (R391, R412, R416). -/
def execDescriptorEnd (n : Fin 32) (host : List Word) (s : State) : Host.Outcome State Fault Refusal :=
  let k := n.val
  let wb := wbOf (s.chan k).desc && (s.curOf k).space == 2
  if !(s.chan k).tail || !(s.ch k = chRunning || s.ch k = chWaiting) then .next s
  else if wb && s.dm = dmFrozen then .next (s.chFrozen k)
  else if wb && s.dm = dmFsp then .next s
  else if wb && s.dm ≠ dmReady then .next ((s.showResidue k).chFail k 8)
  else .next (s.descEnd k host)

/-- The host port is reset: a channel with a HOST access in flight ends in ERROR with reason HOST_ERR (R438). -/
def State.dmaHostLost (s : State) : State :=
  (List.range 32).foldl (fun t n => if 1 ≤ t.ch n && t.ch n ≤ 3 && t.hostSide n then (t.showResidue n).chFail n 6 else t) s

/-- All channel state is lost when die C leaves STANDBY or RUN (R379). -/
def State.dmaLose (s : State) : State := { s with dma := Dma.fresh }

end Sys2Proof.Machine
end

