-- ==== Sys2Proof/Machine/DramAccess.lean ====
section
/-!
DEFINITION. Accesses to the DRAM by their requesters, ECC, the patrol scrubber, and the commands that end a freeze (R412, R416,
R420 to R424).
-/
namespace Sys2Proof.Machine

/-- Requester kinds (R428): 0 queue manager, 1 beamformer, 2 DMA, 3 engine, 4 host, 5 scrubber. -/
def dkEngine : Nat := 3
def dkDma : Nat := 2

/-- An access ends in error to its requester: an engine takes a bus fault, and a DMA channel stops by its class under a freeze, as
DRAM_FROZEN at a poisoned line, and as DRAM_OFF otherwise (R391, R412, R423, R424). -/
def State.accessError (s : State) (q : DramReq) : State :=
  let s1 := s.dmError q
  if q.kind = dkDma && (s1.ch q.inst = chRunning || s1.ch q.inst = chWaiting || s1.ch q.inst = chPausing) then
    if s1.dm = dmFrozen then s1.chFrozen q.inst else (s1.showResidue q.inst).chFail q.inst (if s1.dm = dmReady then 7 else 8)
  else s1

/-- An access is issued: a write takes effect, a read returns its data, and a poisoned line ends it in error (R420, R424). -/
def State.dmIssue (s : State) (q : DramReq) : State :=
  match s.poisonHit q.addr q.len q.write.isSome with
  | some l => (s.poisonRead l).accessError q
  | none =>
    match q.write with
    | some bs =>
      let s1 := { s with dram := Mem.setBytes s.dram q.addr bs }
      s1.setPoison (s.ddr.poison.filter (fun l => !lineCovered q.addr q.len l))
    | none => s.emit (.dramData q.kind q.inst (Mem.bytes s.dram q.addr q.len))

/-- Held accesses are issued in order once the controller is READY (R416, R424). -/
def State.dmDrain (s : State) : State :=
  let l := s.ddr.held
  l.foldl (fun t q => t.dmIssue q) (s.onDdr (fun x => { x with held := [] }))

/-- What the ECC found: corrected lines are counted, and an uncorrectable error freezes the controller and fails the access
(R421, R422). -/
def State.eccIssue (s : State) (q : DramReq) (ecc : EccFound) : State :=
  match ecc.failed with
  | some (addr, lo, hi) => (s.dmFreeze q.kind q.inst addr lo hi ecc.extra).accessError q
  | none => (ecc.corrected.foldl (fun t a => t.dmCorrected a) s).dmIssue q

/-- DRAM_ACCESS: `len` bytes at `addr`, written with `write` or read; `untracked` says that the row-match table was full. Outside
READY it is held while the controller is FROZEN or changes its set point, as R423 lets its requester wait, or fails (R412). -/
def execDramAccess (kind : Fin 6) (inst : Fin 32) (addr len : Nat) (write : Option (List Byte)) (untracked : Bool) (ecc : EccFound)
    (s : State) : Host.Outcome State Fault Refusal :=
  let n := match write with
    | some bs => bs.length
    | none => len
  let q : DramReq := { since := s.mono, kind := kind.val, inst := inst.val, addr := addr, len := n, write := write }
  if !s.powered .c then .next s
  else if s.dm = dmReady then
    if s.usableMb * 1048576 < addr + q.len then .next (s.accessError q)
    else .next ((if untracked && write.isSome then s.count C7.untrackedCnt 1 else s).eccIssue q ecc)
  else if s.dm = dmFsp || (s.dm = dmFrozen && (kind.val = 3 || kind.val = 4 || kind.val = 5)) then
    .next (s.onDdr (fun x => { x with held := x.held ++ [q] }))
  else if kind.val = 4 && write.isSome then .next s
  else .next (s.accessError q)

/-- PATROL_SCRUB: one pass over every usable line; poisoned lines end their reads in error (R421, R424). -/
def execPatrolScrub (ecc : EccFound) (s : State) : Host.Outcome State Fault Refusal :=
  let p := s.fld C7.scrubCfg 15 0
  if s.dm ≠ dmReady || p = 0 || s.mono < s.ddr.scrubAt + p * 60000000000 then .next s
  else
    let s1 := s.ddr.poison.foldl (fun t l => t.poisonRead l) (s.onDdr (fun x => { x with scrubAt := s.mono }))
    let s2 := ecc.corrected.foldl (fun t a => t.dmCorrected a) s1
    match ecc.failed with
    | some (addr, lo, hi) => .next (s2.dmFreeze 5 0 addr lo hi ecc.extra)
    | none => .next s2

/-- A set-point change in progress ends: the set point is switched, and traffic goes on (R416). -/
def State.fspEnd (s : State) : State :=
  match s.ddr.target with
  | some t =>
    if s.dm = dmFsp then ((((s.setFld C7.dramStat 5 4 t).onDdr (fun x => { x with target := none })).setDm dmReady).raise C7.page 4).dmDrain else s
  | none => s

/-- FSP_DONE. -/
def execFspDone (s : State) : Host.Outcome State Fault Refusal := .next s.fspEnd

/-- UNFREEZE_RESUME. -/
def execUnfreezeResume (r : Requester) (s : State) : Host.Outcome State Fault Refusal :=
  .next (s.cmdWrite r C7.dramCmd (fun t =>
    if t.dm ≠ dmFrozen then t.dmCmdState 3
    else if 16 ≤ t.ddr.poison.length && !t.ddr.poison.contains t.ddr.failed then t.err C7.page 0x0106 16
    else
      let l := if t.ddr.poison.contains t.ddr.failed then t.ddr.poison else t.ddr.poison ++ [t.ddr.failed]
      (((t.setPoison l).setDm dmReady).raise C7.page 0).dmDrain))

/-- UNFREEZE_REINIT: every queued access ends in error, and the contents are lost (R424). -/
def execUnfreezeReinit (r : Requester) (s : State) : Host.Outcome State Fault Refusal :=
  .next (s.cmdWrite r C7.dramCmd (fun t =>
    if t.dm ≠ dmFrozen then t.dmCmdState 3
    else
      let t1 := t.ddr.held.foldl (fun u q => u.accessError q) t
      let t2 := (t1.onDdr (fun x => { x with held := [], trained := 0 })).setPoison []
      { t2.setDm dmOff with dram := [] }.showTrained false))

end Sys2Proof.Machine
end

