-- ==== Sys2Proof/Machine/HostPort.lean ====
section
/-!
DEFINITION. The PCI Express host port, the ring and local ports with the bypass holds and their watchdog, and the Korub links of a
cascade (R430 to R438, R446 to R464).
-/
namespace Sys2Proof.Machine

/-! ## The host port (R434 to R438) -/

/-- Messages fall due where signalling becomes possible while a vector's pages interrupt (R50). -/
def State.fireAll (s : State) : State :=
  if s.canSignal then (List.range 64).foldl (fun t v => if t.vecActive v then t.fireVector v else t) s else s

/-- A reset of the host port: MSI-X is disabled with every vector masked, the PCI Express requester's TXN_TAG copies and table
command registers return to 0, and its DMA accesses to HOST end in error (R438). -/
def State.hpReset (s : State) : State :=
  ({ s with msix := { enabled := false, mask := BitVec.allOnes 64, pend := 0 }
            tags := s.tags.filter (fun (t : TagCopy) => t.req != Requester.pcie)
            perReq := s.perReq.filter (fun p => decide (2 ^ 32 ≤ p.1))
            regs := s.regs.filter (fun p => decide (p.1 < 0x20000000)) }.setBit C8.hpStat 8 false).dmaHostLost

/-- The data link layer is lost: LINK_DOWN, counted, and WAKE_CAUSE.LINK_DOWN, with a reset of the host port (R438, R445). -/
def State.hostLinkDown (s : State) : State :=
  if !s.powered .c || !s.bit C8.hpStat 0 then s
  else (((((s.wr C8.hpStat 0).count C8.hpLinkdownCnt 1).raise C8.page 1).setBit E9.wakeCause 2 true).hpReset)

/-- PERST_DEASSERT: link training may start (R437). -/
def execPerstDeassert (s : State) : Host.Outcome State Fault Refusal := .next { s with hport := { s.hport with perst := false } }

/-- PERST_ASSERT: the host port is held in reset, which takes its link down (R437, R438). -/
def execPerstAssert (s : State) : Host.Outcome State Fault Refusal :=
  let s1 := s.hostLinkDown
  .next { (if s1.powered .c then s1.hpReset else s1) with hport := { s1.hport with perst := true } }

/-- PCIE_LINK_UP: the link reaches L0 at a speed and width; the port must be ready and out of reset (R437, R464). Messages due
are signalled (R50). -/
def execPcieLinkUp (speed : Fin 8) (width : Fin 16) (s : State) : Host.Outcome State Fault Refusal :=
  if !s.powered .c || !s.hport.ready || s.hport.perst || s.bit C8.hpStat 0 then .next s
  else .next (((s.wr C8.hpStat (BitVec.ofNat 32 (1 + speed.val * 2 + width.val * 16))).raise C8.page 0).fireAll)

/-- HOT_RESET (R438). -/
def execHotReset (s : State) : Host.Outcome State Fault Refusal := .next (if s.powered .c then s.hpReset else s)

/-- FUNCTION_LEVEL_RESET (R438). -/
def execFunctionLevelReset (s : State) : Host.Outcome State Fault Refusal := .next (if s.powered .c then s.hpReset else s)

/-- LINK_DOWN (R438). -/
def execLinkDown (s : State) : Host.Outcome State Fault Refusal := .next s.hostLinkDown

/-- MSIX_ENABLE: the host enables MSI-X; messages due are signalled, or their Pending Bits set (R50). Where it is enabled already,
nothing changes. -/
def execMsixEnable (s : State) : Host.Outcome State Fault Refusal :=
  if !s.powered .c || !s.bit C8.hpStat 0 || s.msix.enabled then .next s
  else .next { s with msix := { s.msix with enabled := true } }.fireAll

/-- MSIX_VECTOR_UNMASK: a vector whose Pending Bit is set sends its message (R436). -/
def execMsixVectorUnmask (v : Fin 64) (s : State) : Host.Outcome State Fault Refusal :=
  if !s.powered .c || !s.bit C8.hpStat 0 then .next s
  else
    let due := s.msix.pend.getLsbD v.val && s.msix.enabled
    let bit := BitVec.ofNat 64 (2 ^ v.val)
    let s1 := { s with msix := { s.msix with mask := s.msix.mask &&& ~~~ bit } }
    if due then .next ({ s1 with msix := { s1.msix with pend := s1.msix.pend &&& ~~~ bit } }.emit (.msix v.val)) else .next s1

/-- The DRAM address that a BAR2 offset of the DRAM window shows (R432, R464). -/
def State.dramWinAddr (s : State) (a : Nat) : Nat := s.fld C8.dramWin 6 0 * 0x8000000 + (a - 0x8000000)

/-- The host's access that the DRAM controller holds for a BAR2 offset (R423, R434). -/
def State.hostHeld (s : State) (a : Nat) (bar2 write : Bool) (q : DramReq) : Bool :=
  bar2 && decide (0x8000000 ≤ a) && q.kind == 4 && q.addr == s.dramWinAddr a && q.write.isSome == write

/-- A held access has not yet been held for HOLD_MAX (R434). -/
def State.holdRuns (s : State) (q : DramReq) : Bool := decide (s.mono < q.since + s.fld C8.hpCfg 5 0 * 1000000)

/-- HOLD_ABORT: a request held for HOLD_MAX ends; a read completes with Completer Abort, a write is discarded. An access that the DRAM
controller holds leaves its queue, once HOLD_MAX has passed since it came (R423, R434, R464). -/
def execHoldAbort (a : Nat) (bar2 write : Bool) (s : State) : Host.Outcome State Fault Refusal :=
  let q := s.ddr.held.find? (s.hostHeld a bar2 write)
  if !s.powered .c || !s.bit C8.hpStat 0 || q.any s.holdRuns then .next s
  else
    let s0 := s.onDdr (fun x => { x with held := x.held.eraseP (s.hostHeld a bar2 write) })
    let s1 := ((s0.count C8.hpAbortCnt 1).raise C8.page 2).err C8.page 0x0101 (BitVec.ofNat 32 (a + b2n bar2 * 2 ^ 31))
    .next (if write then s1 else s1.emit (.completerAbort a))

/-! ## Ring and local ports (R447, R448) -/

/-- A write of ETH_CFG changes MODE, FEC or AN while the port is enabled: it is refused (R447). -/
def State.ethLocked (s : State) (q : Nat) (v : Word) : Bool :=
  let old := s.rd (C9.ethCfg q)
  bitOf old 31 && (bitsOf old 2 0 != bitsOf v 2 0 || bitsOf old 5 4 != bitsOf v 5 4 || bitOf old 9 != bitOf v 9)

/-- ETH_LINK_CHANGE: the port's status changes, with LINK_CHANGE when its link comes or goes (R446, R454). -/
def execEthLinkChange (q : Fin 3) (stat : Byte) (s : State) : Host.Outcome State Fault Refusal :=
  if !s.powered .c then .next s
  else
    let was := s.bit (C9.ethStat q.val) 0
    let s1 := s.wr (C9.ethStat q.val) (stat.setWidth 32)
    .next (if was != s1.bit (C9.ethStat q.val) 0 then s1.raise C9.page (4 + q.val) else s1)

/-- A write of SFP_I2C starts an access to the module (R448, R454). -/
def State.sfpStart (s : State) (q : Nat) : State :=
  let w := s.rd (C9.sfpI2c q)
  ((s.setBit (C9.sfpI2c q) 31 true).setBit (C9.sfpI2c q) 30 false).emit
    (.sfpI2c q (bitsOf w 15 8) (bitsOf w 22 16) (bitsOf w 7 0) (bitOf w 23))

/-- SFP_I2C_DONE: the byte read, or NACK (R448). -/
def execSfpI2cDone (q : Fin 2) (nack : Bool) (data : Byte) (s : State) : Host.Outcome State Fault Refusal :=
  let a := C9.sfpI2c q.val
  if !s.powered .c || !s.bit a 31 then .next s
  else
    let s1 := (s.setBit a 31 false).setBit a 30 nack
    if nack then .next (s1.err C9.page 0x0102 (BitVec.ofNat 32 q.val))
    else .next (if s.bit a 23 then s1.setFld a 7 0 data.toNat else s1)

/-! ## Bypass holds (R449 to R452) -/

/-- The conditions under which a hold is high (R449). -/
def State.bypWant (s : State) (q : Nat) : Bool :=
  s.cRuns && s.bit (C9.ethCfg q) 31 && s.bit C9.bypOpen q && s.bit C9.bypStat 2

/-- Cause of a hold's fall: 1 WATCHDOG, 2 PORT_OFF, 3 NOT_OPEN (R454). -/
def State.bypCause (s : State) (q : Nat) : Nat :=
  if !s.bit C9.bypStat 2 then 1 else if !s.bit (C9.ethCfg q) 31 then 2 else 3

/-- One hold follows its conditions; a fall has a cause and an event (R449, R454). -/
def State.bypSettleOne (s : State) (q : Nat) : State :=
  let want := s.bypWant q
  if s.bit C9.bypStat q = want then s
  else if want then s.setBit C9.bypStat q true
  else ((s.setBit C9.bypStat q false).setFld C9.bypStat (6 + 4 * q) (4 + 4 * q) (s.bypCause q)).raise C9.page (1 + q)

/-- Both holds follow their conditions, and HEALTH.BYP_LOW with them (R488). -/
def State.bypSettle (s0 s : State) : State := s0.healthStep ((s.bypSettleOne 0).bypSettleOne 1)

/-- The watchdog's deadline has come. -/
def State.bypDue (s : State) : Bool :=
  s.bit C9.bypStat 2 && (match s.byp.serviced with
    | some t => decide (t + s.byp.period ≤ s.mono)
    | none => true)

/-- Expiry: both BYP_OPEN bits clear, both holds fall, BYP_WDT_EXP and an event record (R450). -/
def State.bypExpire (s : State) : State :=
  let s1 := ((s.setBit C9.bypStat 2 false).bypSettleOne 0).bypSettleOne 1
  let s2 := ({ s1 with byp := { s1.byp with first := true } }.wr C9.bypOpen (guardRead 0)).raise C9.page 0
  s.healthStep (s2.logFree C9.page 8)

/-- BYPASS_WDT_EXPIRY (R450). -/
def execBypassWdtExpiry (s : State) : Host.Outcome State Fault Refusal := .next (if s.bypDue then s.bypExpire else s)

/-- Ms since the last servicing kick, saturating (R454). -/
def State.bypSince (s : State) : Nat :=
  match s.byp.serviced with
  | some t => min ((s.mono - t) / 1000000) 65535
  | none => 0

/-- A host port over which BYP_OPEN and BYP_KICK are accepted (R451). -/
def isHost (r : Requester) : Bool := r == .pcie || r == .spi

/-- A write of BYP_OPEN or BYP_KICK: only from the host; any other is recorded as BYP_REQUESTER (R451). -/
def State.bypWrite (s : State) (r : Requester) (a : Nat) (w : Word) (act : Nat → State → State) : State :=
  if isHost r then s.guardWrite r a w act
  else s.cmdWrite r a (fun t => t.err C9.page 0x0101 (BitVec.ofNat 32 (a % 0x10000)))

/-- BYP_OPEN_WRITE (R449, R451). -/
def execBypOpenWrite (r : Requester) (w : Word) (s : State) : Host.Outcome State Fault Refusal :=
  .next (s.bypWrite r C9.bypOpen w (fun v t =>
    if v / 4 ≠ 0 then t.guardRange C9.bypOpen 15 2 (v / 4) 0
    else t.bypSettle (t.wr C9.bypOpen (guardRead v))))

/-- An accepted kick services the watchdog when it differs from the one before, or is the first since a reset or an expiry (R450);
an expiry due applies first (R452). -/
def State.bypKicked (s : State) (v : Nat) : State :=
  let s0 := if s.bypDue then s.bypExpire else s
  let s1 := s0.wr C9.bypKick (guardRead v)
  if s0.byp.first || s0.fld C9.bypKick 15 0 ≠ v then
    let s2 := { s1 with byp := { serviced := some s.mono, period := s.fld C9.bypWdt 8 0 * 1000000, first := false } }
    s0.bypSettle ((s2.setBit C9.bypStat 2 true).setBit C9.bypStat 3 false)
  else s1.setBit C9.bypStat 3 true

/-- BYP_KICK (R450). -/
def execBypKick (r : Requester) (w : Word) (s : State) : Host.Outcome State Fault Refusal :=
  .next (s.bypWrite r C9.bypKick w (fun v t =>
    if v = 0x5A ∨ v = 0xA5 then t.bypKicked v else t.guardRange C9.bypKick 15 0 v (t.fld C9.bypKick 15 0)))

/-! ## Korub links (R455 to R463) -/

/-- Link states of R463. -/
def korOff : Nat := 0
def korTraining : Nat := 1
def korIsUp : Nat := 2
def korIsDown : Nat := 3
def korMiswired : Nat := 4

def State.kor (s : State) (k : Nat) : Nat := s.fld (C10.korStat k) 2 0

/-- A subordinate strapped as part 0 keeps its links OFF (R455). -/
def State.badStraps (s : State) : Bool := !s.straps.master && s.straps.part == 0

/-- The part that link `k` reaches (R456). -/
def State.korPart (s : State) (k : Nat) : Nat := (s.ownPart + k + 1) % 4

/-- The link to a part is UP. -/
def State.reach (s : State) (part : Nat) : Bool := (List.range 3).any (fun k => s.kor k == korIsUp && s.korPart k == part)

/-- CASC_STAT (R463). -/
def State.cascStat (s : State) : Word :=
  let r := (List.range 4).foldl (fun n i => if i = s.ownPart || s.reach i then n + 2 ^ i else n) 0
  BitVec.ofNat 32 (r + s.ownPart * 2 ^ 4 + b2n s.straps.master * 2 ^ 8)

/-- KOR_CFG.ENABLE is set or cleared: training with die C up, or OFF; bad straps are recorded (R455, R457). -/
def State.korEnable (s : State) (k : Nat) : State :=
  if s.bit (C10.korCfg k) 31 then
    if s.badStraps then s.err C10.page 0x0100 (BitVec.ofNat 32 (s.straps.part * 2 + b2n s.straps.master))
    else if s.kor k = korOff then s.wr (C10.korStat k) (BitVec.ofNat 32 korTraining) else s
  else s.wr (C10.korStat k) 0

/-- KOR_UP: at training the ends exchange part, link and CASC_MST; a link that breaks R456 stays MISWIRED. -/
def execKorUp (k : Fin 3) (peerPart peerLink : Fin 4) (peerMaster : Bool) (s : State) : Host.Outcome State Fault Refusal :=
  let a := C10.korStat k.val
  if !s.powered .c || !(s.kor k.val = korTraining || s.kor k.val = korIsDown) then .next s
  else
    let ok := peerPart.val == s.korPart k.val && peerLink.val == 2 - k.val && !(peerMaster && s.straps.master)
    let w := fun st => BitVec.ofNat 32 (st + 2 * 2 ^ 4 + peerPart.val * 2 ^ 8 + peerLink.val * 2 ^ 12)
    if ok then .next ((s.wr a (w korIsUp)).raise C10.page (4 + k.val))
    else .next ((s.wr a (w korMiswired)).err C10.page 0x0101 (BitVec.ofNat 32 (k.val * 256 + peerPart.val * 16 + peerLink.val)))

/-- A subordinate has lost its time from the master: HOLDOVER (R461). -/
def State.masterLost (s : State) : State :=
  let s1 := (s.onKeeper true (fun t => { t with sources := t.sources.filter (fun x => x.num != 12) })).reselect
  if s1.qualOf true = qAcquiring || s1.qualOf true = qLocked then s1.setQual true qHoldover else s1

/-- A Korub link is declared down (R457, R461): groups with a participant beyond it abort as DIE_LOST before their close, naming
die C and page 10; the loss of the link to the master wakes the host and loses its time. -/
def State.korLose (s : State) (k : Nat) : State :=
  if s.kor k ≠ korIsUp then s
  else
    let s1 := ((s.setFld (C10.korStat k) 5 0 korIsDown).bump (C10.korErr k) 31 16 1).raise C10.page k
    let s2 := s1.groupsLose (s.korPart k) none (txnInfo 1 10 0)
    if !s.straps.master && s.korPart k == 0 then (s2.setBit E9.wakeCause 3 true).masterLost else s2

/-- KOR_DOWN (R457, R461). -/
def execKorDown (k : Fin 3) (s : State) : Host.Outcome State Fault Refusal := .next (if s.powered .c then s.korLose k.val else s)

/-- KOR_DEGRADED: one lane fails; the link runs on the other where ALLOW_1LANE is 1, and is declared down otherwise (R457). -/
def execKorDegraded (k : Fin 3) (s : State) : Host.Outcome State Fault Refusal :=
  if !s.powered .c || s.kor k.val ≠ korIsUp then .next s
  else if s.bit (C10.korCfg k.val) 0 then .next ((s.setFld (C10.korStat k.val) 5 4 1).raise C10.page 8)
  else .next (s.korLose k.val)

/-- KORUB_TIME_EXCHANGE: a two-way exchange of a subordinate with the master, source 12 (R459). The subordinate is LOCKED only
while the master is, and reports HOLDOVER while the master is in HOLDOVER. -/
def execKorubTimeExchange (k : Fin 3) (m : TimeMeas) (masterHold : Bool) (s : State) : Host.Outcome State Fault Refusal :=
  if !s.cRuns || s.straps.master || s.kor k.val ≠ korIsUp || s.korPart k.val ≠ 0 then .next s
  else
    let ofs := s.measuredOffset 12 m
    let s1 := s.wr (C10.korTimeNs k.val) (satI32 ofs)
    let s2 := if m.locked then s1
      else (if s1.qualOf true = qLocked then s1.setQual true qAcquiring else s1).onKeeper true (fun t => { t with lockRun := 0 })
    let s3 := s2.measure 12 ofs m.gmRank m.steps m.locked m.arb m.utc
    .next (if masterHold && (s3.qualOf true = qAcquiring || s3.qualOf true = qLocked) then s3.setQual true qHoldover else s3)

/-! ## The cascade window (R458) -/

/-- A value staged in an OPEN group for a register, of this part or by a subordinate's offset: a register that another live group
has staged is a conflict, a second write replaces the first, and the limit is 4,096 writes (R58, R60). -/
def State.stageValue (s : State) (n : Fin 16) (a : Nat) (v : Word) (clamped : Bool) : State :=
  let g := s.group n
  if (List.finRange 16).any (fun m => m != n && (s.group m).state.live && (s.group m).writes.any (fun w => w.addr == a)) then
    s.refuseStaged n rsnConflict a
  else if g.writes.any (fun w => w.addr == a) then
    s.setGroup n { g with writes := g.writes.map (fun (w : StagedWrite) => if w.addr = a then { w with value := v } else w),
                          clamped := g.clamped || clamped }
  else if 4096 ≤ g.writes.length then s.refuseStaged n rsnLimit a
  else s.setGroup n { g with writes := g.writes ++ [{ addr := a, value := v }], clamped := g.clamped || clamped }

/-- What a subordinate part finds for a window write whose command does not say: free. -/
def freeFound (i : Nat) (w : Word) : CascFound :=
  match Config.freeNat i % 5 with
  | 0 => .plain 0
  | 1 => .staged w false
  | 2 => .staged (Config.freeWord i) true
  | 3 => .failed rsnClamp
  | _ => .failed rsnGuard

/-- A window write under a tag, as the subordinate part has checked it; a clamp is staged under ALLOW_CLAMP only (R57). -/
def State.cascStaged (s : State) (tag part a : Nat) (found : CascFound) (w : Word) : State :=
  match found with
  | .plain _ => s.emit (.cascWrite part a w)
  | .staged v c =>
    match s.tagGroup tag with
    | some n =>
      if (s.group n).state ≠ .opened then s
      else if c && !(s.group n).allowClamp then s.abortGroup n rsnClamp (infoAt a)
      else s.stageValue n (part * partSpan + a) v c
    | none => s
  | .failed reason =>
    match s.tagGroup tag with
    | some n => if (s.group n).state = .opened then s.abortGroup n reason (infoAt a) else s
    | none => s

/-- A window write reaches part `part` at offset `a`: TXN_TAG copies of the cascade requester name the master's groups; under a
tag the write is staged, else it is written on the part. -/
def State.cascWriteTo (s : State) (part a : Nat) (w : Word) (found : CascFound) : State :=
  let page := part * partSpan + pageOf a
  if a % 0x10000 = 0x40 then
    let tag := bitsOf w 11 0
    let known : Bool := match s.tagGroup tag with
      | some n => (s.group n).state == .opened
      | none => false
    (s.setTag .casc page (if known then tag else 0)).emit (.cascWrite part a w)
  else if s.tagOf .casc page = 0 then s.emit (.cascWrite part a w)
  else s.cascStaged (s.tagOf .casc page) part a found w

/-- CASC_WINDOW_ACCESS: an access through the master's cascade window, at `off` within its 16 MB; `w` is the word of a write, and
`found` what the subordinate part finds (R458). -/
def State.cascAccess (s : State) (off : Nat) (w : Option Word) (found : CascFound) : State :=
  let part := s.fld GLB.cascWinPart 1 0
  let a := (s.rd GLB.cascWinBase).toNat + off
  let none0 (t : State) : State := match w with
    | some _ => t
    | none => t.answer [0]
  if !s.straps.master || part = 0 then none0 s
  else if !s.powered .c || !s.reach part then none0 (if s.powered .c then s.err C10.page 0x0102 (BitVec.ofNat 32 part) else s)
  else if 0x3000000 ≤ a then none0 s
  else match w with
    | some v => s.cascWriteTo part a v found
    | none => s.answer [match found with
      | .plain v => v
      | _ => 0]

/-- A write through the cascade window by a row that does not carry what the subordinate finds. -/
def State.cascWrite (s : State) (off : Nat) (w : Word) : State :=
  s.draw (fun i t => t.cascAccess off (some w) (freeFound i w))

/-- CASC_WINDOW_ACCESS (R458). -/
def execCascWindowAccess (_r : Requester) (off : Nat) (w : Option Word) (found : CascFound) (s : State) : Host.Outcome State Fault Refusal :=
  .next (s.cascAccess off w found)

end Sys2Proof.Machine
end

