-- ==== Sys2Proof/Machine/Power.lean ====
section
/-!
DEFINITION. Power states and their transitions, Kindle and radio start, resets, self-test and BANKED, supply monitors, junction
temperatures, the crystals, general-purpose pins, and the Flue links (R14 to R17, R104 to R129, R496, R505).
-/
namespace Sys2Proof.Machine

/-! ## The progress of a transition (R109, R112, R114) -/

/-- The DRAM is in self-refresh, or can enter it now (R412, R425). -/
def State.srKeeps (s : State) : Bool := s.dm == dmReady || s.dm == dmFrozen || s.dm == dmSelf || s.dm == dmFsp

/-- Self-refresh is entered; a set-point change in progress ends first (R412, R426). -/
def State.srIn (s : State) : State := s.fspEnd.srEnter

/-- PWR_STATE.STATE, with no transition in progress. -/
def State.setPstate (s : State) (st : Nat) : State :=
  { (s.setFld GLB.pwrState 3 0 st).setFld GLB.pwrState 9 4 0 with power := { s.power with trans := none } }.oscSync

/-- A transition whose parts have all ended reaches its state: TRANS_DONE and TRANS_TIME (R109, R126). -/
def State.transCheck (s : State) : State :=
  match s.power.trans with
  | some t =>
    if t.kindle || t.adding != 0 || t.sr.isSome || t.down then s
    else ((s.setPstate t.target).wr E1.transTime (satU32 ((s.mono - t.start) / 1000))).raise E1.page 2
  | none => s

/-- A change of the transition in progress. -/
def State.onTrans (s : State) (f : Transition → Transition) : State := { s with power := { s.power with trans := s.power.trans.map f } }

/-- A supply warning is in progress on any monitor (R114). -/
def State.warned (s : State) : Bool := s.rd E1.supWarnAct != 0

/-- The self-refresh entry or exit of the transition ends. -/
def State.srEnd (s : State) : State :=
  match s.power.trans with
  | some t =>
    ((match t.sr with
      | some true => s.srIn
      | some false => s.srExit
      | none => s)).onTrans (fun x => { x with sr := none, srEnded := false })
  | none => s

/-- A radio die's start ends: RADIO_PWR (R112). -/
def State.startOver (s : State) (d : Fin 6) : State :=
  ((s.setBit GLB.pwrState (16 + d.val) true).onTrans (fun x => { x with adding := x.adding &&& ~~~ BitVec.ofNat 6 (2 ^ d.val) })).transCheck

/-- A radio die's start-up calibration begins: in access role the partition page shows CAL, and the CW probes of steps 4 and 5 go out (R112, R211,
R217). -/
def State.startCal (s : State) (d : Fin 6) : State :=
  if s.role d == .access then (((s.setPa d.val paCal).emit (.feProbe d.val 4)).emit (.feProbe d.val 5)) else s

/-- A power-up transition pauses, unless it is paused already (R114). -/
def State.pauseNow (s : State) : State :=
  match s.power.trans with
  | some t =>
    if (t.kindle || t.adding != 0 || t.sr == some false) && t.paused.isNone && s.warned then
      { s.setBit GLB.pwrState 9 true with power := { s.power with trans := some { t with paused := some s.mono } } }
    else s
  | none => s

/-- A radio die's start reaches its end, which is a step boundary: under a supply warning the pause holds it there (R112, R114). -/
def State.startEnd (s : State) (d : Fin 6) : State :=
  if s.warned then (s.pauseNow).onTrans (fun x => { x with ended := x.ended ||| BitVec.ofNat 6 (2 ^ d.val) }) else s.startOver d

/-- A power-up transition that a supply warning paused resumes once no warning is in progress: what the pause held at a boundary goes
on from it (R114). -/
def State.resumeTrans (s : State) : State :=
  match s.power.trans with
  | some t =>
    if t.paused.isSome && !s.warned then
      let s1 := { s.setBit GLB.pwrState 9 false with power := { s.power with trans := some { t with paused := none, wait := 0, ended := 0 } } }
      let s2 := (List.finRange 6).foldl (fun u n =>
        if t.ended.getLsbD n.val then u.startOver n else if t.wait.getLsbD n.val then u.startCal n else u) s1
      if t.srEnded then s2.srEnd.transCheck else s2
    else s
  | none => s

/-- The supply ramp of a transition ends, at a step boundary (R111, R112, R114). -/
def State.rampEnd (s : State) : State :=
  match s.power.trans with
  | some t => if t.ramp = some s.mono then (s.onTrans (fun x => { x with ramp := none })).pauseNow else s
  | none => s

/-! ## Supply monitors (R124, R125) -/

/-- A warning in progress ends without SUPPLY_OK, in a reset or at a power-down: its bits clear, and its duration and minimum up to
then are recorded (R125). -/
def State.monEndAt (s : State) (m : Nat) (reset : Bool) (us mv : Nat) : State :=
  if !s.bit E1.supWarnAct m then s
  else
    (((s.setBit E1.supWarnAct m false).wr (E1.supMonStat m) (putBit (putBit (s.rd (E1.supMonStat m)) 31 false) 30 reset)).wrs
      [(E1.supLastDur m, satU32 us), (E1.supLastMin m, satU32 mv)]).resumeTrans

/-- The highest warning level of a monitor with its tolerance, in mV (R124). -/
def warnLevel (m : Nat) : Nat := if m = 0 then 2065 else 1635

/-- As `monEndAt`, at a command that does not give what the supply was. The duration is free between 1 µs, after which the warning was
declared, and 1 µs more than the time since; the minimum is free below the warning level (R124, R125). -/
def State.monEnd (s : State) (m : Nat) (reset : Bool) : State :=
  if !s.bit E1.supWarnAct m then s
  else s.draw (fun i t => t.draw (fun j u =>
    let span := (u.mono - u.power.warnAt.toList.getD m 0) / 1000
    u.monEndAt m reset ((Config.freeWord i).toNat % (span + 1) + 1) ((Config.freeWord j).toNat % warnLevel m)))

/-- A monitor runs with its die (R125). -/
def State.monOn (s : State) (m : Fin 8) : Bool :=
  match monDie m with
  | .e => s.power.phase == .testing || s.power.phase == .done
  | .c => s.power.cUp
  | .d n => s.power.released.getLsbD n.val

/-- A die's self-test is running. -/
def State.testing (s : State) (d : Die) : Bool := s.power.tests.any (fun (x : Die × Nat) => x.1 == d)

/-- Every part of a power-up transition is within a step whose end the model sees: the supply ramp, a self-test, a radio die's
calibration, or the exit from self-refresh (R109, R111, R112). Boundaries that nothing marks are taken as reached. -/
def State.withinStep (s : State) (t : Transition) : Bool :=
  t.ramp.isSome || (if t.kindle then s.testing .c else t.adding &&& ~~~ s.power.released == 0)

/-- A power-up transition pauses for a supply warning at its next step boundary (R114). -/
def State.pauseTrans (s : State) : State :=
  match s.power.trans with
  | some t => if s.withinStep t then s else s.pauseNow
  | none => s

/-- The end of a self-test is a step boundary: a radio die that a pause holds there does not begin its calibration (R112, R114). -/
def State.testBoundary (s : State) (die : Die) : State :=
  let u := s.pauseNow
  match die, u.power.trans with
  | .d n, some t =>
    if t.adding.getLsbD n.val && t.paused.isSome then
      { u with power := { u.power with trans := some { t with wait := t.wait ||| BitVec.ofNat 6 (2 ^ n.val) } } }
    else u
  | _, _ => u

/-- A warning begins: SUP_WARN_ACT, the monitor's status and count, the instant of its declaration, the event and its record (R125). -/
def State.warnMark (s : State) (m : Fin 8) : State :=
  let s1 := { s with power := { s.power with warnAt := s.power.warnAt.set m.val s.mono } }
  let s2 := ((s1.setBit E1.supWarnAct m.val true).bump (E1.supMonStat m.val) 15 0 1).setBit (E1.supMonStat m.val) 31 true
  (s2.raise E1.page 0).logEvent E1.page 2 0 (BitVec.ofNat 32 m.val)

/-- A radio die's transmissions stop for a warning of their die (R125), and the sub-GHz radio's external PA for one of any die (R33). -/
def State.warnStops (s : State) : Die → State
  | .e => s.sgSupplyWarn
  | .c => s.sgSupplyWarn
  | .d n => ((s.accSupplyWarn n).bhSupplyWarn n).sgSupplyWarn

/-- A transmission of the die that waited for the end of its warning starts (R125). -/
def State.okStarts (s : State) : Die → State
  | .e => s.sgSupplyOk
  | .c => s.sgSupplyOk
  | .d n => (s.accSupplyOk n).sgSupplyOk

/-- The effects of a declaration on the monitor's die (R125): transmissions stop, the groups in GO that the die takes part in are
cancelled (R28), and a power-up transition pauses. -/
def State.warnDeclare (s : State) (m : Fin 8) : State :=
  if s.bit E1.supWarnAct m.val then s
  else s.healthStep ((((s.warnMark m).warnStops (monDie m)).supplyCancel (monDie m)).pauseTrans)

/-- SUPPLY_WARNING (R125). -/
def execSupplyWarning (m : Fin 8) (s : State) : Host.Outcome State Fault Refusal := .next (if s.monOn m then s.warnDeclare m else s)

/-- A warning ends with its duration in µs and its minimum in mV, and its event and record (R125). -/
def State.warnClear (s : State) (m : Fin 8) (us mv : Nat) : State :=
  let a := E1.supMonStat m.val
  let s1 := ((s.setBit E1.supWarnAct m.val false).wr a (putBit (putBit (s.rd a) 31 false) 30 false)).wrs
    [(E1.supLastDur m.val, satU32 us), (E1.supLastMin m.val, satU32 mv)]
  (s1.raise E1.page 1).logEvent E1.page 3 0 (satU32 us)

/-- SUPPLY_OK: the warning clears; a transmission that waited starts, and a paused transition resumes (R114, R125). -/
def execSupplyOk (m : Fin 8) (us mv : Nat) (s : State) : Host.Outcome State Fault Refusal :=
  if !s.monOn m || !s.bit E1.supWarnAct m.val then .next s
  else .next (s.healthStep (((s.warnClear m us mv).okStarts (monDie m)).resumeTrans))

/-! ## Dies going down -/

/-- A board enable EN_Dn rises or falls (R105, R112). -/
def State.setEnD (s : State) (bits : BitVec 6) (on : Bool) : State :=
  { s with power := { s.power with en := if on then s.power.en ||| bits else s.power.en &&& ~~~ bits } }

/-- A radio die loses its power, by command or by a loss: its groups and actions go as R66 and R90 say, its partition as R202 says,
and all it held with it. -/
def State.radioDown (s : State) (n : Fin 6) : State :=
  let bit6 : BitVec 6 := BitVec.ofNat 6 (2 ^ n.val)
  let s0 := s.setEnD bit6 false
  if !s.powered (.d n) then s0
  else
    let w := 3 + n.val
    let s1 := (s0.groupsLose 0 (some (.d n)) (txnInfo (dieCode (.d n)) 0 0)).discardActs (.d n)
    let s2 := (s1.partDieLost n.val).monEnd (n.val + 2) false
    let s3 := { s2 with
      acc := { parts := s2.acc.parts.set n.val PartState.empty, fw := s2.acc.fw &&& ~~~ bit6, band := s2.acc.band &&& ~~~ bit6,
               tileFails := s2.acc.tileFails.filter (fun (f : TileFail) => f.die != n.val) }
      bh := (s2.bh.set (2 * n.val) BhDir.off).set (2 * n.val + 1) BhDir.off
      radioMem := s2.radioMem.set n.val []
      tags := s2.tags.filter (fun (t : TagCopy) => winOf t.page != w)
      power := { s2.power with released := s2.power.released &&& ~~~ bit6, role := s2.power.role.set n.val .off,
                               tests := s2.power.tests.filter (fun (x : Die × Nat) => x.1 != Die.d n),
                               flueRetry := s2.power.flueRetry.set (n.val + 1) 0,
                               hot := s2.power.hot &&& ~~~ BitVec.ofNat 8 (2 ^ (n.val + 2)) } }
    ((s3.clearRegs (dWin n.val) (dWin n.val + 0x400000)).setBit GLB.diePower (n.val + 2) false).setBit GLB.pwrState (16 + n.val) false

/-- Die E takes over time keeping, with the time it shared with die C, a step that awaits the host, and a refused mesh source; it
judges its quality at once (R19, R88, R97). -/
def State.timeToE (s : State) : State :=
  let k := s.time.ntu
  let taught := s.fld C2.timeQual 3 0 != qFreerun
  let refused := k.refused.filter (fun x => x == 11)
  let s1 := s.onKeeper false (fun x => { x with taught := x.taught || taught, refused := refused, stepSrc := k.stepSrc,
                                                lastOfs := k.lastOfs })
  let s2 := (s1.setBit E8.timeQual 12 (s.bit C2.timeQual 12)).setBit E8.timeQual 13 (!refused.isEmpty)
  let s3 := s2.wrs [(E8.stepOfsS, s.rd C2.stepOfsS), (E8.stepOfsNs, s.rd C2.stepOfsNs)]
  { s3 with time := { s3.time with ntu := Keeper.fresh, slew := 0, exchanges := s3.time.exchanges.filter (fun (x : TtExchange) => x.link == 8) } }.rtcJudge

/-- Both bypass holds fall with die C (R33, R449). -/
def State.bypLow (s : State) : State := s.healthStep (s.setFld C9.bypStat 1 0 0)

/-- Die C leaves STANDBY or RUN, which PWR_STATE or the transition already shows: groups and actions are discarded (R66, R90), the
radio dies but `stay` go down, and both holds fall, which are steps 1 to 4 of R110. -/
def State.quitC (s : State) (stay : BitVec 6) : State :=
  let s1 := s.discardGroups.discardActs .c
  ((List.finRange 6).foldl (fun t n => if stay.getLsbD n.val then t else t.radioDown n) s1).bypLow

/-- Blocks of die C that hold nothing once they are held in reset or unpowered. -/
def State.blocksLost (s : State) : State :=
  { s.xblLose.engLose.pipeLose with
    qm := Qm.fresh, fwd := Fwd.fresh s.mono, sched := Sched.fresh
    txu := { s.txu with groups := List.replicate 16 Group.empty, ports := [] }
    byp := { serviced := none, period := 0, first := true } }

/-- EN_C and REFCLK_EN, which rise and fall together; OSC_STAT.REFCLK_EN shows them (R105, R110, R111, R126). -/
def State.setEnC (s : State) (on : Bool) : State := s.setBit E1.oscStat 3 on

/-- EN_C falls: die C loses its power and everything it held; the DRAM keeps its contents when it is `retained` (R110, R117). The copies of
TXN_TAG that PCI Express holds and those of die C's pages go with it; those that SPI holds on other pages stay (DESIGN CHOICE, log 95). -/
def State.cOff (s : State) (retained : Bool) : State :=
  let s1 := (((s.blocksLost.dmaLose).ddrLose retained).monEnd 1 false).setEnC false
  let s2 := { s1 with
    msix := { enabled := false, mask := BitVec.allOnes 64, pend := 0 }
    hport := { s1.hport with ready := false, high := [] }
    perReq := []
    tags := s1.tags.filter (fun (t : TagCopy) => winOf t.page != 1 && t.req != Requester.pcie)
    logs := { s1.logs with events := [], nextNum := 0, head := 0, intake := [],
                           freezes := s1.logs.freezes.filter (fun (f : ClampFreeze) => winOf f.page != 1) }
    power := { s1.power with cUp := false, retained := retained, tests := s1.power.tests.filter (fun (x : Die × Nat) => x.1 != Die.c),
                             flueRetry := s1.power.flueRetry.set 0 0, hot := s1.power.hot &&& 0xFE } }
  (((s2.clearRegs 0x400000 0x800000).setBit GLB.diePower 0 false).setBit GLB.pwrState 22 retained).oscSync

/-! ## Transitions (R109 to R115) -/

/-- A transition begins: BUSY and TARGET; a power-up pauses under a warning at its next step boundary (R108, R114). -/
def State.beginTrans (s : State) (t : Transition) : State :=
  ({ ((s.setFld GLB.pwrState 7 4 t.target).setBit GLB.pwrState 8 true) with power := { s.power with trans := some t } }.oscSync).pauseTrans

/-- The code of a power state that PWR_CMD.CMD names: 1 EMBER, 2 STANDBY, 3 RUN, 4 OFF. -/
def cmdTarget (cmd : Nat) : Nat := if cmd = 4 then 0 else cmd

/-- Power-down to EMBER or OFF is accepted: steps 1 to 4 of R110. Its end is TRANS_DONE, with steps 5 to 7. -/
def State.powerDown (s : State) (v : Nat) : State :=
  let was := s.cRuns
  let t : Transition := { target := cmdTarget (v % 16), origin := s.pstate, cmd := BitVec.ofNat 32 v, start := s.mono, kindle := false, adding := 0,
                          sr := if v / 1024 % 2 = 1 then some true else none, down := true, paused := none, wait := 0,
                          ramp := none, ended := 0, srEnded := false }
  let s1 := ((s.setBit GLB.pwrState 9 false).setFld GLB.pwrState 7 4 t.target).setBit GLB.pwrState 8 true
  let s2 := { s1 with power := { s1.power with trans := some t } }.oscSync
  if was then s2.quitC 0 else s2

/-- Kindle, for STANDBY or RUN (R111). -/
def State.kindleStart (s : State) (v : Nat) : State :=
  let t : Transition := { target := v % 16, origin := 1, cmd := BitVec.ofNat 32 v, start := s.mono, kindle := true, adding := 0,
                          sr := none, down := false, paused := none, wait := 0, ramp := some (s.mono + 6000000), ended := 0, srEnded := false }
  (s.setEnC true).beginTrans t

/-- STANDBY or RUN commanded in STANDBY or RUN: radio starts and stops, and a self-refresh entry or exit; the state in force, with
nothing to change, is accepted without action (R109). -/
def State.runChange (s : State) (v : Nat) : State :=
  let want : BitVec 6 := if v % 16 = 3 then BitVec.ofNat 6 (v / 16) else 0
  let cur : BitVec 6 := BitVec.ofNat 6 (s.fld GLB.pwrState 21 16)
  let sr := v / 1024 % 2 == 1
  let gone := cur &&& ~~~ want
  let more := want &&& ~~~ cur
  let t : Transition := { target := v % 16, origin := s.pstate, cmd := BitVec.ofNat 32 v, start := s.mono, kindle := false, adding := more,
                          sr := if sr == s.bit GLB.pwrState 22 then none else some sr,
                          down := gone != 0 || (s.pstate == 3 && v % 16 == 2), paused := none, wait := 0,
                          ramp := if more = 0 then none else some (s.mono + 4000000), ended := 0, srEnded := false }
  if t.target = s.pstate && t.adding = 0 && !t.down && t.sr.isNone then s
  else ((List.finRange 6).foldl (fun u n => if gone.getLsbD n.val then u.radioDown n else u) ((s.setEnD more true).beginTrans t)).transCheck

/-- The dies a transition in progress was powering lose their power (R114, R121). -/
def State.dropAdded (s : State) (t : Transition) (stay : BitVec 6) : State :=
  (List.finRange 6).foldl (fun u n => if t.adding.getLsbD n.val && !stay.getLsbD n.val then u.radioDown n else u) s

/-- The lowest field of a PWR_CMD value at fault: its place and contents (R107, R48). -/
def State.pwrBad (s : State) (v : Nat) : Option (Nat × Nat × Nat) :=
  let cmd := v % 16
  let en := v / 16 % 64
  if cmd = 0 || 5 < cmd then some (3, 0, cmd)
  else if en ≠ 0 && (cmd ≠ 3 || 2 ^ radioDies s.part ≤ en) then some (9, 4, en)
  else if v / 1024 % 2 = 1 && 4 ≤ cmd then some (10, 10, 1)
  else if v / 2048 ≠ 0 then some (15, 11, v / 2048)
  else none

/-! ## Device reset (R53, R116) -/

/-- Registers that survive every device reset but a power-on reset: RST_CAUSE, the monitors' records, ST_RUNS, and the global page's
ERR_CODE and ERR_INFO (R53, R116, R126, R127). -/
def survives (a : Nat) : Bool :=
  a == E1.rstCause || (0x810200 ≤ a && a < 0x810280) || (0x820200 ≤ a && a < 0x820280 && a % 16 == 0xC) ||
    a == HDR.errCode GLB.page || a == HDR.errInfo GLB.page

/-- Die E stops: every die loses its power, and only what survives a device reset and the persistent record store is left. A
warning in progress ends in the `reset`, or at the power-down to OFF (R116, R125). -/
def State.stopAll (s : State) (reset : Bool) : State :=
  let s1 := (List.range 8).foldl (fun t m => t.monEnd m reset) { s with power := { s.power with trans := none } }
  let z := State.held s.part s.straps (s.lamp.outs.map LampOut.stored)
  { z with pending := s.pending, resp := s.resp, outbox := s.outbox, fresh := s1.fresh, mono := s.mono
           regs := s1.regs.filter (fun p => survives p.1)
           mesh := { z.mesh with addrs := s.mesh.addrs, counters := s.mesh.counters }
           hport := { z.hport with perst := s.hport.perst } }

/-- A PWR_CMD accepted in the cycle of a reset or a self-test failure is discarded as PWR_PREEMPTED (R118). -/
def State.preempted (s : State) (cmd : Option Word) : State :=
  match cmd with
  | some w => s.err GLB.page 0x0103 (BitVec.ofNat 32 (bitsOf w 15 0))
  | none => s

/-- A device reset other than a power-on reset: die E is held, RST_CAUSE names the source and counts (R116). -/
def State.deviceReset (s : State) (cause : Nat) (cmd : Option Word) : State :=
  ((((s.stopAll true).setFld E1.rstCause 3 0 cause).bump E1.rstCause 31 16 1).preempted cmd)

/-- A PWR_CMD value that has passed its guard is judged (R107, R109, R114, R115). -/
def State.pwrCmd (s : State) (r : Requester) (v : Nat) : State :=
  let take := s.wr GLB.pwrCmd (BitVec.ofNat 32 v)
  match s.pwrBad v, r with
  | some (hi, lo, x), _ => s.guardRange GLB.pwrCmd hi lo x (s.fld GLB.pwrCmd hi lo)
  | none, .engine n => s.err GLB.page 0x0105 (BitVec.ofNat 32 n.val)
  | none, _ =>
    if v % 16 = 5 then s.deviceReset (match r with | .pcie => 4 | .spi => 5 | _ => 6) none
    else if v % 16 = 4 then
      (match s.power.trans with
        | some t => { take with power := { take.power with trans := none } }.dropAdded t 0
        | none => take).powerDown v
    else if s.pstate = 4 then s.err GLB.page 0x0101 (BitVec.ofNat 32 v)
    else if s.power.trans.isSome then s.err GLB.page 0x0100 (BitVec.ofNat 32 v)
    else if s.pstate = 1 then (if v % 16 = 1 then take else take.kindleStart v)
    else if v % 16 = 1 then take.powerDown v
    else take.runChange v

/-- PWR_EMBER (R110). -/
def execPwrEmber (r : Requester) (hi : Half) (sr : Bool) (s : State) : Host.Outcome State Fault Refusal :=
  .next (s.guardWrite r GLB.pwrCmd (hi ++ BitVec.ofNat 16 (1 + b2n sr * 1024)) (fun v t => t.pwrCmd r v))

/-- PWR_STANDBY (R109). -/
def execPwrStandby (r : Requester) (hi : Half) (sr : Bool) (s : State) : Host.Outcome State Fault Refusal :=
  .next (s.guardWrite r GLB.pwrCmd (hi ++ BitVec.ofNat 16 (2 + b2n sr * 1024)) (fun v t => t.pwrCmd r v))

/-- PWR_RUN (R109). -/
def execPwrRun (r : Requester) (hi : Half) (radioEn : BitVec 6) (sr : Bool) (s : State) : Host.Outcome State Fault Refusal :=
  .next (s.guardWrite r GLB.pwrCmd (hi ++ BitVec.ofNat 16 (3 + radioEn.toNat * 16 + b2n sr * 1024)) (fun v t => t.pwrCmd r v))

/-- PWR_OFF (R110). -/
def execPwrOff (r : Requester) (hi : Half) (s : State) : Host.Outcome State Fault Refusal :=
  .next (s.guardWrite r GLB.pwrCmd (hi ++ (4 : Half)) (fun v t => t.pwrCmd r v))

/-- PWR_RESET (R116). -/
def execPwrReset (r : Requester) (hi : Half) (s : State) : Host.Outcome State Fault Refusal :=
  .next (s.guardWrite r GLB.pwrCmd (hi ++ (5 : Half)) (fun v t => t.pwrCmd r v))

/-- TRANS_DONE: the power-down, radio stop, or self-refresh entry or exit of the transition ends. At the end of a power-down the DRAM
enters self-refresh or is abandoned, die E keeps time, and EN_C and REFCLK_EN fall, in that order (R109, R110). A self-refresh exit
that is paused does not end, and under a warning its end is a boundary at which it pauses (R114). -/
def execTransDone (s : State) : Host.Outcome State Fault Refusal :=
  match s.power.trans with
  | none => .next s
  | some t =>
    if (!t.down && t.sr.isNone) || (t.sr == some false && t.paused.isSome) then .next s
    else
      let s1 := s.onTrans (fun x => { x with down := false })
      if t.target = 0 then
        let off := s.stopAll false
        .next { (off.setFld GLB.pwrState 3 0 0).wr GLB.diePower 0 with power := { off.power with phase := .off } }
      else if t.target = 1 then
        let kept := t.sr == some true && s.srKeeps
        .next (((s1.srEnd.setFld GLB.pwrState 3 0 1).timeToE).cOff kept).transCheck
      else if t.sr == some false && s.warned then .next ((s1.pauseNow).onTrans (fun x => { x with srEnded := true }))
      else .next s1.srEnd.transCheck

/-! ## Kindle and radio start (R111, R112) -/

/-- A die leaves reset and begins its self-test (R119, R127). -/
def State.beginTest (s : State) (d : Die) : State :=
  { s with power := { s.power with tests := s.power.tests.filter (fun (x : Die × Nat) => x.1 != d) ++ [(d, s.mono)] } }.count (E2.stRuns (dieIdx d).val) 1

/-- DIE_C_RELEASE: at the step boundary it stands at, a supply warning pauses the transition (R111, R114). -/
def execDieCRelease (s : State) : Host.Outcome State Fault Refusal :=
  match s.power.trans with
  | some t =>
    if !t.kindle || s.power.cUp || t.paused.isSome then .next s
    else
      let s1 := s.onTrans (fun x => { x with ramp := none })
      .next (if s.warned then s1.pauseNow else { s1 with power := { s1.power with cUp := true } }.beginTest .c)
  | none => .next s

/-- Die C takes die E's time, quality and epoch: ACQUIRING with the mesh as its source if die E was LOCKED, else FREERUN; a step that
awaits the host still does (R89). -/
def State.timeToC (s : State) : State :=
  let locked := s.fld E8.timeQual 3 0 == qLocked
  let k := s.time.rtc
  let src : SrcRec := { num := 11, last := k.lastCorr.getD s.mono, gmRank := 0, steps := s.mesh.parent.steps, locked := true }
  let ntu := { Keeper.fresh with sources := if locked then [src] else [], sel := if locked then some 11 else none, newSel := locked,
                                 lastSel := if locked then some 11 else none,
                                 refused := k.refused, stepSrc := k.stepSrc, lastOfs := k.lastOfs }
  let s1 := { s with time := { s.time with ntu := ntu, clk := s.time.clk.set 0 (s.now .e) } }
  let s2 := (if locked then (s1.setFld C2.timeQual 3 0 qAcquiring).setFld C2.timeQual 11 8 11 else s1.setFld C2.timeQual 3 0 qFreerun)
  ((s2.setBit C2.timeQual 12 (s.bit E8.timeQual 12)).setBit C2.timeQual 13 (s.bit E8.timeQual 13)).wrs
    [(C2.stepOfsS, s.rd E8.stepOfsS), (C2.stepOfsNs, s.rd E8.stepOfsNs)]

/-- Die E's buffered events enter the event log, oldest first, with REPLAYED set (R487). -/
def State.replay (s : State) : State :=
  let n := s.logs.nextNum
  let rs := s.logs.eBuf.zipIdx.map (fun (x : EvRec × Nat) => { x.1 with replayed := true, num := (n + x.2) % 2 ^ 32 })
  { s with logs := { s.logs with events := (rs.reverse ++ s.logs.events).take 4096, eBuf := [], nextNum := (n + rs.length) % 2 ^ 32,
                                 head := (s.logs.head + rs.length) % 4096 } }

/-- The host-loss watchdog restarts from a full period at the end of Kindle where it had stopped (R471). -/
def State.wdtRestart (s : State) : State :=
  if s.fld E7.hostWdt 11 0 != 0 && !s.bit E7.hostWdt 16 then { s with lamp := { s.lamp with kick := some s.mono } } else s

/-- Die C runs: its register fabric is reachable and its host port ready (R111, R437). -/
def State.cReady (s : State) : State := { (s.setBit GLB.diePower 0 true) with hport := { s.hport with ready := true } }

/-- A retained DRAM comes back in self-refresh, at the configuration and the set point it was left at (R413, R426). -/
def State.dramBack (s : State) : State :=
  let s1 := match s.ddr.kept with
    | some (cfg, rate) => ((s.wr C7.dramCfg cfg).setFld C7.dramStat 5 4 rate).onDdr (fun x => { x with kept := none })
    | none => s
  s1.setDm dmSelf

/-- A retained DRAM stays in self-refresh, or leaves it and retrains when the command's DRAM_SR is 0; one not retained is OFF
(R111, R412). -/
def State.dramKindle (s : State) (sr : Bool) : State :=
  let s1 := { s with power := { s.power with retained := false } }
  if !s.power.retained then s1.setBit GLB.pwrState 22 false
  else if sr then s1.dramBack.setBit GLB.pwrState 22 true else s1.dramBack.srExit

/-- KINDLE_DONE: STANDBY, and radio start where RUN was commanded (R109, R111). -/
def execKindleDone (s : State) : Host.Outcome State Fault Refusal :=
  match s.power.trans with
  | none => .next s
  | some t =>
    if !t.kindle || !s.power.cUp || s.testing .c || s.fld GLB.selftestSum 1 0 ≠ 1 || t.paused.isSome then .next s
    else
      let s1 := ((s.timeToC).cReady).replay
      let s2 := (List.range 16).foldl (fun u e => u.setEng e engHalted) { s1 with grate := Grate.fresh s.mono, fwd := Fwd.fresh s.mono }
      let s3 := (((s2.setFld GLB.pwrState 3 0 2).fsClear 1).wdtRestart).dramKindle (bitOf t.cmd 10)
      let en : BitVec 6 := if t.target = 3 then BitVec.ofNat 6 (bitsOf t.cmd 9 4) else 0
      let ramp := if en = 0 then none else some (s.mono + 4000000)
      .next ((((s3.setEnD en true).onTrans (fun x => { x with kindle := false, adding := en, ramp := ramp })).pauseTrans).transCheck)

/-- The role of a field of DIE_ROLE (R23). -/
def roleOf (n : Nat) : Role := if n = 1 then .access else if n = 2 then .backhaul else .off

/-- RADIO_DIE_RELEASE: the die's role is copied from DIE_ROLE; a third backhaul role is refused; at the step
boundary it stands at, a supply warning pauses the transition (R25, R112, R114). -/
def execRadioDieRelease (d : Fin 6) (s : State) : Host.Outcome State Fault Refusal :=
  match s.power.trans with
  | none => .next s
  | some t =>
    if t.kindle || !t.adding.getLsbD d.val || s.power.released.getLsbD d.val || t.paused.isSome then .next s
    else
      let s0 := s.onTrans (fun x => { x with ramp := none })
      if s.warned then .next s0.pauseNow
      else
        let want := roleOf (s.fld E1.dieRole (2 * d.val + 1) (2 * d.val))
        let third := want == .backhaul && decide (2 ≤ (s.power.role.toList.filter (fun x => x == Role.backhaul)).length)
        let s1 := { s0 with power := { s0.power with released := s.power.released ||| BitVec.ofNat 6 (2 ^ d.val),
                                                     role := s.power.role.set d.val (if third then .off else want) }
                            time := { s.time with clk := s.time.clk.set (d.val + 2) (s.now .c) } }
        let s2 := (s1.setBit GLB.diePower (d.val + 2) true).beginTest (.d d)
        .next (if third then s2.err (dieWin (.d d)) 3 (BitVec.ofNat 32 (0x100 + d.val)) else s2)

/-- Steps of a radio start in the order of TileFail.steps: those that CAL_CMD also runs, then the others (R217, R218, R284, R285). -/
def startOrder (bh : Bool) : List Nat := if bh then [3, 2, 5, 6, 0, 1, 4] else [3, 2, 6, 4, 0, 1, 5]

/-- Failed steps of a radio start as TileFail.steps holds them. -/
def startBits (bh : Bool) (steps : BitVec 7) : BitVec 7 :=
  BitVec.ofNat 7 ((List.range 7).foldl (fun n k => n + b2n (steps.getLsbD ((startOrder bh).getD k 0)) * 2 ^ k) 0)

/-- A start-up step fails on slices of a tile: the tile leaves service, and CAL_FAIL is recorded (R219). -/
def State.startFail (s : State) (n : Nat) (bh : Bool) (f : StartFail) : State :=
  if f.steps = 0 then s
  else
    let rest := s.acc.tileFails.filter (fun (x : TileFail) => !(x.die == n && x.tile == f.tile))
    let s1 := { s with acc := { s.acc with tileFails := { die := n, tile := f.tile, steps := startBits bh f.steps } :: rest } }
    (s1.tileOut n f.tile (some 8)).err (D3.page n) 0x0100 (BitVec.ofNat 32 (f.steps.toNat + f.tile * 256))

/-- What the start found of a head: its identity, with the delay measured on its tiles' loopback; an absent one is HEAD_ABSENT
(R261, R284). -/
def State.headFound (s : State) (n h : Nat) (id : Option Half) (looped : Bool) : State :=
  match id with
  | none => s.err (D6B.page n) 0x0100 (BitVec.ofNat 32 h)
  | some i =>
    let s1 := s.wr (D6B.headStat n h) (i ++ (1 : Half))
    if looped then s1.draw (fun k t => t.wr (D6B.headDelay n h) (BitVec.ofNat 32 (bitsOf (Config.freeWord k) 19 0))) else s1

/-- RADIO_START_DONE: the start-up calibration ends at the die's present temperature, with the steps that failed; in backhaul role the
synthesisers are locked and the heads that answered are there, and in access role the inter-chain phase of the current channel is stored
and the radio is in IDLE (R112, R211, R217 to R219, R227, R261, R284). -/
def execRadioStartDone (d : Fin 6) (rep : StartReport) (s : State) : Host.Outcome State Fault Refusal :=
  match s.power.trans with
  | none => .next s
  | some t =>
    if !t.adding.getLsbD d.val || !s.power.released.getLsbD d.val || s.testing (.d d) || s.role d == .off || t.wait.getLsbD d.val ||
        t.ended.getLsbD d.val then .next s
    else
      let bh := s.role d == .backhaul
      let s1 := s.setFld (D3.calStat d.val) 31 24 (s.fld (DC.dieTemp (dWin d.val)) 7 0)
      let s2 := s1.wr (D3.suFail d.val) (BitVec.ofNat 32 (rep.fails.foldl (fun (b : BitVec 7) f => b ||| f.steps) 0).toNat)
      let s3 := rep.fails.foldl (fun (u : State) f => u.startFail d.val bh f) s2
      let one := fun (u : State) (h : Nat) (id : Option Half) =>
        u.headFound d.val h id (!rep.fails.any (fun f => f.tile / 2 == h && f.steps.getLsbD 5))
      let failed := fun (k : Nat) => rep.fails.any (fun f => f.steps.getLsbD k)
      let s4 := if bh then (one (one s3 0 rep.head0) 1 rep.head1).setBit (D2.synStat d.val) 0 (!failed 0)
        else
          let u := s3.setPa d.val paIdle
          if failed 6 then u else u.phaseUse d.val
      .next (s4.startEnd d)

/-! ## Forced exits (R16, R117) -/

/-- A change the host did not command is recorded: LAST_FORCED, FORCED_EXIT, WAKE_CAUSE and an event record (R117, R445, R486). -/
def State.forced (s : State) (code : Nat) : State :=
  (((s.setFld GLB.pwrState 15 12 code).raise E1.page 4).setBit E9.wakeCause 0 true).logFree E1.page 4

/-- DIE_LOST with the die's identity (R16, R486, R488). -/
def State.dieLost (s : State) (d : Die) : State := s.healthStep (s.setBit GLB.dieLost (dieIdx d).val true)

/-- Die C is lost, by its supply or by its Ember link: EMBER from STANDBY or RUN, the abandonment of Kindle, or BANKED without
die C; a power-down to OFF goes on (R117). -/
def State.loseC (s : State) (code : Nat) : State :=
  let kept := s.dm == dmSelf
  let gone := { s with power := { s.power with trans := none } }.setFld GLB.pwrState 3 0 1
  if s.pstate = 4 then (s.cOff kept).forced code
  else match s.power.trans with
    | some t =>
      if t.kindle then ((s.cOff s.power.retained).setPstate 1).forced code
      else if t.target = 0 then ({ s with power := { s.power with cUp := false } }.timeToE.cOff false).forced code
      else ((((if t.target = 1 then gone else gone.quitC 0).timeToE).cOff kept).setPstate 1).forced code |>.fsBegin 1
    | none => ((((gone.quitC 0).timeToE).cOff kept).setPstate 1).forced code |>.fsBegin 1

/-- A radio die is lost, by its supply or by its core link (R112, R117). -/
def State.loseD (s : State) (n : Fin 6) (code : Nat) : State :=
  let s1 := ((s.radioDown n).dieLost (.d n)).forced code
  (s1.onTrans (fun x => { x with adding := x.adding &&& ~~~ BitVec.ofNat 6 (2 ^ n.val) })).transCheck

/-- SUPPLY_C: the supply has fallen through its reset level; its warning is declared, and ends in the reset with the µs below the
warning level and the minimum in mV. A PWR_CMD of the same cycle is discarded (R117, R118, R125). -/
def execSupplyC (us mv : Nat) (cmd : Option Word) (s : State) : Host.Outcome State Fault Refusal :=
  if !s.power.cUp then .next s else .next ((((s.warnDeclare 1).monEndAt 1 true us mv).loseC 1).preempted cmd)

/-- SUPPLY_D: as SUPPLY_C, for a radio die (R117, R118, R125). -/
def execSupplyD (d : Fin 6) (us mv : Nat) (cmd : Option Word) (s : State) : Host.Outcome State Fault Refusal :=
  if !s.power.released.getLsbD d.val then .next s
  else
    let m : Fin 8 := ⟨d.val + 2, by omega⟩
    .next ((((s.warnDeclare m).monEndAt m.val true us mv).loseD d 3).preempted cmd)

/-- A Flue link is declared down: the die at its far end is lost (R16, R117). -/
def State.linkLost (s : State) (far : Die) : State :=
  match far with
  | .d n => if s.power.released.getLsbD n.val then s.loseD n 4 else s
  | _ => if s.power.cUp && !s.leaving then (s.loseC 2).dieLost .c else s

/-- FLUE_SILENCE_TIMEOUT (R16). -/
def execFlueSilenceTimeout (far : Die) (s : State) : Host.Outcome State Fault Refusal := .next (s.linkLost far)

/-- The index of a link's retry count: the Ember link, then the core links. -/
def linkIdx (far : Die) : Fin 7 := ⟨(dieIdx far).val - 1, by have := (dieIdx far).isLt; omega⟩

/-- FLUE_FLIT_RETRY: after 16 consecutive failed retries the link is declared down (R16). -/
def execFlueFlitRetry (far : Die) (ok : Bool) (s : State) : Host.Outcome State Fault Refusal :=
  let k := linkIdx far
  let up := match far with
    | .d n => s.power.released.getLsbD n.val
    | _ => s.power.cUp
  let n := if ok || !up then 0 else s.power.flueRetry[k.val] + 1
  if n = 16 then .next ({ s with power := { s.power with flueRetry := s.power.flueRetry.set k.val 0 } }.linkLost far)
  else .next { s with power := { s.power with flueRetry := s.power.flueRetry.set k.val n } }

/-- Flue messages in the order of their classes, each class in the order sent (R14). -/
def flueOrder (msgs : List FlueMsg) : List FlueMsg :=
  [FlueClass.time, FlueClass.critical, FlueClass.register, FlueClass.frame].flatMap (fun c => msgs.filter (fun m => m.cls == c))

/-- One message arrives: a critical value whose halves disagree is discarded and recorded in GUARD_FAIL of its page (R17); any other
is delivered. -/
def State.flueIn (s : State) (dst : Die) (m : FlueMsg) : State :=
  if m.cls == .critical && !guardOk m.word then s.guardFail m.addr true false else s.emit (.flue dst m.cls m.addr m.word)

/-- The Flue links that carry the message classes: the core links of die C with each radio die, and the Ember link. The partition links
carry combining data alone, and no other two dies are joined (R13). -/
def flueLink (x y : Die) : Bool := (x == .c) != (y == .c)

/-- FLUE_MESSAGE: what a link has queued arrives, highest class first (R14, R17); without a link between the two dies nothing does. -/
def execFlueMessage (src dst : Die) (msgs : List FlueMsg) (s : State) : Host.Outcome State Fault Refusal :=
  if flueLink src dst && s.powered src && s.powered dst then .next ((flueOrder msgs).foldl (fun t m => t.flueIn dst m) s) else .next s

/-! ## Resets (R116) -/

/-- POR: the power-on reset. Only the persistent record store is left, and no reset has been counted (R116). -/
def execPor (s : State) : Host.Outcome State Fault Refusal :=
  let s1 := s.stopAll true
  .next ({ s1 with regs := [] }.setFld E1.rstCause 3 0 1)

/-- RESET_N: held low for at least 10 µs (R116). -/
def execResetN (lowNs : Nat) (cmd : Option Word) (s : State) : Host.Outcome State Fault Refusal :=
  if lowNs < 10000 then .next s else .next (s.deviceReset 2 cmd)

/-- SUPPLY_E: the supply has fallen through the reset level of die E and stays at or above 1.0 V; its warning is declared, and ends in
the reset with its duration and minimum (R116, R118, R125). -/
def execSupplyE (us mv : Nat) (cmd : Option Word) (s : State) : Host.Outcome State Fault Refusal :=
  if !s.monOn 0 then .next s else .next (((s.warnDeclare 0).monEndAt 0 true us mv).deviceReset 3 cmd)

/-- DIE_E_RELEASE: die E samples its straps, loads the failsafe levels and frame counters of its record store, runs the ROM image of
the Ember engine, starts the 40 MHz crystal and tests itself (R116, R189, R374, R455, R468). -/
def execDieERelease (s : State) : Host.Outcome State Fault Refusal :=
  if s.power.phase ≠ .held then .next s
  else
    let s1 := { s with power := { s.power with phase := .testing, x40Usable := true } }.embReset
    let s2 := (List.range 6).foldl (fun t o => t.wr (E7.failsafe o) (BitVec.ofNat 32 (t.lampOut o).stored)) s1
    let s3 := (s2.onMesh (fun m => { m with counters := m.counters.map resumeCounter })).meshShow
    .next ((s3.oscSync.setFld E8.timeQual 11 8 11).beginTest .e)

/-! ## Self-test and BANKED (R119 to R123) -/

/-- BANKED is entered (R121, R122): the transition in progress is abandoned, every die but those still testing and a die C that is
`keep`-worthy loses its power, the lamps take the failsafe level, and the mesh discards its indirect queue (R194). -/
def State.bank (s : State) : State :=
  let still : BitVec 6 := (List.finRange 6).foldl (fun b n => if s.testing (.d n) then b ||| BitVec.ofNat 6 (2 ^ n.val) else b) 0
  let ran := s.cTime
  let s1 := { s with power := { s.power with trans := none } }
  let s2 := (s1.setFld GLB.pwrState 3 0 4).setFld GLB.pwrState 9 4 0
  let s3 := if ran then (s2.quitC still).timeToE
    else ((List.finRange 6).foldl (fun t n => if still.getLsbD n.val then t else t.radioDown n) s2).rtcJudge
  let s4 := (s3.setBit GLB.selftestSum 24 true).forced 5
  let s5 := ((s4.setBit E9.wakeCause 1 true).logFree GLB.page 5).fsBegin 3
  (s5.onMesh (fun m => { m with indq := [], rebro := [] })).meshShow.oscSync

/-- Die C in BANKED after its own test, or when another die fails: it is kept while its essential set is intact, with only the host
port, the register fabric, Ashpit, the host-class DMA channels and the DRAM controller running (R120 to R122, R437). -/
def State.bankC (s : State) : State :=
  if s.testing .c then s
  else if !s.power.cUp then s.setEnC false
  else if s.bit (E2.stResult 0) 10 then s.cOff (s.power.retained || s.dm == dmSelf)
  else
    let s1 := { s.blocksLost with dma := { s.dma with chans := List.replicate 16 DmaChan.fresh ++ s.dma.chans.drop 16 } }
    let s2 := (((s1.clearRegs 0x410000 0x450000).clearRegs 0x450200 0x450600).clearRegs 0x460000 0x470000).clearRegs 0x490000 0x4B0000
    let s3 := (s2.clearRegs 0x4C0000 0x800000).cReady
    if s.powered .c then s3 else s3.dramKindle true

/-- A verdict in SELFTEST_SUM (R123). -/
def State.setVerdict (s : State) (d : Die) (v : Nat) : State :=
  let k := (dieIdx d).val
  let s1 := s.setFld GLB.selftestSum (2 * k + 1) (2 * k) v
  if v = 3 && s1.fld GLB.selftestSum 23 16 = 0 then s1.setFld GLB.selftestSum 23 16 (dieCode d) else s1

/-- ST_DETAIL.TEST of the first of some tests (R127). -/
def testCode (d : Die) (tests : BitVec 4) : Nat :=
  if tests.getLsbD 0 then 1 else if tests.getLsbD 1 then 2 else if tests.getLsbD 2 then 3
  else if tests.getLsbD 3 then (match d with | .e => 5 | _ => 4) else 0

/-- The verdict of a report (R120). -/
def State.verdictOf (s : State) (d : Die) (standing : BitVec 4) : Nat :=
  if standing = 0 then 1
  else match d with
    | .d _ => if standing = 8 && s.bit E2.stCfg 0 then 2 else 3
    | _ => 3

/-- A verdict takes effect: FAIL enters BANKED; in BANKED a die that has finished its test loses its power unless it is die C with its
essential set intact; otherwise die E ends the reset sequence, a degraded die loses the tiles of its failed slices, one that an
enabled partition lost does not rejoin it with its tiles, and a die of disabled role ends its start where another begins to calibrate
(R113, R116, R120, R121, R202, R217). -/
def State.verdictActs (s : State) (d : Die) (v : Nat) (slices : Half) : State :=
  let banked := s.pstate == 4
  if v = 3 then
    let s1 := if s.power.phase = .testing then { s with power := { s.power with phase := .done } } else s
    let s2 := if banked then s1 else s1.bank
    match d with
    | .d n => (s2.radioDown n).bankC
    | _ => s2.bankC
  else match d with
    | .e => (({ s with power := { s.power with phase := .done } }.fsBegin 0).fsClear 0).oscSync
    | .c => if banked then s.bankC else s
    | .d n =>
      if banked then s.radioDown n
      else
        let bad := if v = 2 then (List.range 4).filter (fun t => slices.toNat / 2 ^ (4 * t) % 16 != 0) else []
        let s0 := if (s.memberOf n.val).isSome then (s.setFld (D1.tileStat n.val) 3 0 0).setFld (D1.chainEn n.val) 15 0 0
          else s.setFld (D1.tileStat n.val) 3 0 0xF
        let s1 := bad.foldl (fun t q => t.tileOut n.val q (some 4)) s0
        if s.role n == .off then s1.startEnd n else if s1.warned then s1 else s1.startCal n

/-- SELFTEST_DONE: a die reports, with failures repeated once (R119, R120, R127). -/
def execSelftestDone (die : Die) (rep : TestReport) (cmd : Option Word) (s : State) : Host.Outcome State Fault Refusal :=
  if !s.testing die then .next s
  else
    let k := (dieIdx die).val
    let standing := rep.standing
    let v := s.verdictOf die standing
    let ess := die == .c && standing != 0 && rep.essential
    let first := if standing = 0 then rep.first else standing
    let res := v + standing.toNat * 16 + b2n (rep.first ||| standing != 0) * 256 + b2n ess * 1024 + min rep.dur 65535 * 65536
    let det := if first = 0 then 0 else testCode die first + rep.inst % 256 * 256 + rep.location % 65536 * 65536
    let s1 := { s with power := { s.power with tests := s.power.tests.filter (fun (x : Die × Nat) => x.1 != die) } }
    let s2 := (s1.wrs [(E2.stResult k, BitVec.ofNat 32 res), (E2.stDetail k, BitVec.ofNat 32 det),
      (E2.stSliceFail k, if standing.getLsbD 3 then rep.slices.setWidth 32 else 0)]).setVerdict die v
    .next (((s2.verdictActs die v rep.slices).testBoundary die).preempted (if v = 3 then cmd else none))

/-- SELFTEST_TIMEOUT: no report within 180 ms of the release fails the die, and a PWR_CMD of the same cycle is discarded (R118 to R120). -/
def execSelftestTimeout (die : Die) (cmd : Option Word) (s : State) : Host.Outcome State Fault Refusal :=
  match s.power.tests.find? (fun (x : Die × Nat) => x.1 == die) with
  | none => .next s
  | some x =>
    if s.mono < x.2 + 180000000 then .next s
    else
      let k := (dieIdx die).val
      let s1 := { s with power := { s.power with tests := s.power.tests.filter (fun (y : Die × Nat) => y.1 != die) } }
      let s2 := (s1.wrs [(E2.stResult k, BitVec.ofNat 32 (3 + 512 + b2n (die == .c) * 1024 + 18000 * 65536)), (E2.stDetail k, 0),
        (E2.stSliceFail k, 0)]).setVerdict die 3
      .next (((s2.verdictActs die 3 0).testBoundary die).preempted cmd)

/-- TRANSITION_PAUSE_TIMEOUT: a pause longer than PAUSE_MAX abandons the transition; the dies it was powering lose their power and the
device returns to the state the transition began from (R114, R115). -/
def execTransitionPauseTimeout (s : State) : Host.Outcome State Fault Refusal :=
  match s.power.trans with
  | none => .next s
  | some t =>
    match t.paused with
    | none => .next s
    | some t0 =>
      if s.mono ≤ t0 + s.fld E1.pmCfg 15 12 * 100000000 then .next s
      else
        let s1 := { s with power := { s.power with trans := none } }.dropAdded t 0
        let s2 := if t.kindle then (s1.cOff s.power.retained).setPstate 1
          else if t.origin = 1 then
            ((((s1.setFld GLB.pwrState 3 0 1).quitC 0).timeToE).cOff (s.dm == dmSelf)).setPstate 1
          else s1.setPstate t.origin
        .next ((s2.err GLB.page 0x0102 t.cmd).raise E1.page 3)

/-- RETENTION_LOST (R496). -/
def execRetentionLost (mv : Nat) (s : State) : Host.Outcome State Fault Refusal :=
  if !s.power.retained then .next s
  else
    let s1 := { s with power := { s.power with retained := false }, dram := [], ddr := { s.ddr with kept := none } }.setBit GLB.pwrState 22 false
    .next ((s1.err GLB.page 0x0104 (satU32 mv)).setBit E9.wakeCause 4 true)

/-! ## Temperatures (R505) -/

/-- A die's temperature reading as the signed octet of its registers. -/
def State.tempOf (s : State) (a : Nat) : Int := sx 8 (s.fld a 7 0)

/-- TEMP_UPDATE: the present and highest temperature, TEMP_HIGH with 5 °C of hysteresis, and the staleness of a
calibration (R154, R218, R285, R505). -/
def execTempUpdate (die : Die) (reading : Int) (s : State) : Host.Outcome State Fault Refusal :=
  if !s.powered die || s.power.phase == .off || s.power.phase == .held then .next s
  else
    let base := dieWin die
    let temp := clampI (-128) 127 reading
    let hi : Int := s.fld (DC.tempCfg base) 7 0
    let k := (dieIdx die).val
    let was := s.power.hot.getLsbD k
    let now := decide (hi ≤ temp)
    let top := if s.bit (DC.tempMax base) 31 then max temp (s.tempOf (DC.tempMax base)) else temp
    let bit8 : BitVec 8 := BitVec.ofNat 8 (2 ^ k)
    let hot := if now then s.power.hot ||| bit8 else if temp ≤ hi - 5 then s.power.hot &&& ~~~ bit8 else s.power.hot
    let s2 := { s with power := { s.power with hot := hot } }.wrs
      [(DC.dieTemp base, BitVec.ofNat 32 (ux 8 temp + b2n now * 256)), (DC.tempMax base, BitVec.ofNat 32 (ux 8 top + 2 ^ 31))]
    let s3 := if now && !was then s2.raise base 0 else s2
    match die with
    | .d n => .next (if s.role n == .access then s3.accStale n.val temp else if s.role n == .backhaul then s3.bhStale n.val temp else s3)
    | .e => .next (s3.sgStale temp)
    | .c => .next s3

/-! ## Crystals (R106) -/

/-- X32K_STARTED. -/
def execX32kStarted (s : State) : Host.Outcome State Fault Refusal :=
  if s.power.phase == .off || s.power.phase == .held then .next s else .next ((s.setBit E1.oscStat 0 true).oscSync)

/-- X32K_FAIL: die E counts time from the 40 MHz crystal, and keeps it running. -/
def execX32kFail (s : State) : Host.Outcome State Fault Refusal :=
  if !s.bit E1.oscStat 0 then .next s else .next (((s.setBit E1.oscStat 0 false).oscSync).raise E1.page 5)

/-- XTAL40_START: 0 sub-GHz radio, 1 AES engine, 2 Ember engine, 3 a die E action. The Ember engine's start ahead of a predicted parent
beacon opens the window for it (R174). -/
def execXtal40Start (user : Fin 4) (s : State) : Host.Outcome State Fault Refusal :=
  if s.power.phase == .off || s.power.phase == .held then .next s
  else .next (if user = 2 then (s.oscUser user.val true).windowOpen else s.oscUser user.val true)

/-- XTAL40_STOP: a user no longer needs the crystal, which stops in EMBER when none is left. -/
def execXtal40Stop (user : Fin 4) (s : State) : Host.Outcome State Fault Refusal := .next (s.oscUser user.val false)

/-- X40M_USABLE: AES blocks that waited for the crystal start. -/
def execX40mUsable (s : State) : Host.Outcome State Fault Refusal :=
  if !s.bit E1.oscStat 1 then .next s else .next { s with power := { s.power with x40Usable := true } }.aesKick

/-- X40M_SETTLED. -/
def execX40mSettled (s : State) : Host.Outcome State Fault Refusal :=
  if !s.bit E1.oscStat 1 then .next s else .next ({ s with power := { s.power with x40Usable := true } }.setBit E1.oscStat 2 true)

/-! ## General-purpose pins (R128, R129) -/

/-- A pin. -/
def State.pin (s : State) (n : Nat) : Pin := s.power.pins.getD n { counted := false, since := none }

/-- A pin changed. -/
def State.setPin (s : State) (n : Nat) (p : Pin) : State := { s with power := { s.power with pins := s.power.pins.set n p } }

/-- GPIO_CFG.MODE of a pin. -/
def State.gpioMode (s : State) (n : Nat) : Nat := s.fld (E10.gpioCfg n) 2 0

/-- Level events keep their bits of INT_RAW set while the level holds. -/
def State.gpioLevels (s : State) : State :=
  let w := (List.range 12).foldl (fun b n =>
    if (s.gpioMode n == 4 && (s.pin n).counted) || (s.gpioMode n == 5 && !(s.pin n).counted) then b + 2 ^ n else b) 0
  if w = 0 || s.power.phase != .done then s else s.raiseBits E10.page (BitVec.ofNat 32 w)

/-- GPIO_LEVEL_CHANGE: the sampled level shows in GPIO_IN; its first sample is stamped and its debounce begins, and a return to the
level counted last ends it. -/
def execGpioLevelChange (pin : Fin 12) (level : Bool) (s : State) : Host.Outcome State Fault Refusal :=
  if s.power.phase == .off || s.power.phase == .held then .next s
  else
    let p := s.pin pin.val
    let since := if level == p.counted then none else match p.since with
      | some x => some x
      | none => some (s.mono, s.now .e)
    .next ((s.setBit E10.gpioIn pin.val level).setPin pin.val { p with since := since })

/-- GPIO_EVENT: a level held for DEBOUNCE ms counts: its stamp, and the pin's event. -/
def execGpioEvent (pin : Fin 12) (s : State) : Host.Outcome State Fault Refusal :=
  let n := pin.val
  match (s.pin n).since with
  | none => .next s
  | some (t0, stamp) =>
    if s.mono < t0 + s.fld (E10.gpioCfg n) 15 8 * 1000000 then .next s
    else
      let level := !(s.pin n).counted
      let s1 := (s.setPin n { counted := level, since := none }).wrs
        [(E10.gpioTsS n, BitVec.ofNat 32 (sec32 stamp)), (E10.gpioTsNs n, BitVec.ofNat 32 (nsOf stamp))]
      let m := s.gpioMode n
      .next ((if (m = 1 && level) || (m = 2 && !level) || m = 3 then s1.raise E10.page n else s1).gpioLevels)

end Sys2Proof.Machine
end

