-- ==== Sys2Proof/Machine/Legal.lean ====
section
/-!
DEFINITION. The legal range of every configuration field, and what a write outside it becomes: clamped field by field, or
rejected (R45 to R48), with the ranges that depend on other fields judged by R46.
-/
namespace Sys2Proof.Machine

/-- The element of a register array that `a` is: base, stride and count. -/
def elemOf (base stride n a : Nat) : Option Nat :=
  if base ≤ a ∧ (a - base) % stride = 0 ∧ (a - base) / stride < n then some ((a - base) / stride) else none

/-- The number of bits set. -/
def popCount (w n : Nat) : Nat := ((List.range w).filter (fun k => n / 2 ^ k % 2 == 1)).length

/-- Puncturing patterns of a channel above 40 MHz, as sets of punctured 20 MHz subchannels: those of IEEE 802.11be for
non-OFDMA transmission (R204). PRESUMED, log 55: the standard's table, which the spec takes by reference. -/
def punctPatterns (bw : Nat) : List Nat :=
  if bw = 2 then (List.range 4).map (fun k => 2 ^ k)
  else if bw = 3 then (List.range 8).map (fun k => 2 ^ k) ++ (List.range 4).map (fun k => 3 * 2 ^ (2 * k))
  else if bw = 4 then
    let forty := fun (k : Nat) => 3 * 2 ^ (2 * k)
    (List.range 8).map forty ++ (List.range 4).map (fun k => 15 * 2 ^ (4 * k))
      ++ (List.range 6).map (fun k => 0x000F + forty (k + 2)) ++ (List.range 6).map (fun k => 0xF000 + forty k)
  else []

/-- FSP_MASK: at most three bits, excess ones cleared from the lowest; a mask of 0 takes a free legal one (R45, R427). -/
def fspLegal (v : Nat) : Nat :=
  if v % 16 = 0 then 1 + Config.fspPick % 14 else if v % 16 = 15 then 14 else v % 16

/-- LINKS of a station: enabled partitions, at most three; which three of more are kept is free (R235, R45). -/
def linksLegal (on v : Nat) : Nat :=
  let u := ((List.range 6).filter (fun k => (on / 2 ^ k) % 2 == 1 && (v / 2 ^ k) % 2 == 1)).foldl (fun n k => n + 2 ^ k) 0
  if popCount 6 u ≤ 3 then u
  else
    let subs := (List.range 64).filter (fun x => popCount 6 x == 3 && (List.range 6).all (fun k => x / 2 ^ k % 2 ≤ u / 2 ^ k % 2))
    subs.getD (Config.linksPick u % subs.length) 0

/-- DRAM_CFG.BOOT: the nearest code set in a mask; a tie goes to the lower (R45). -/
def bootLegal (mask v : Nat) : Nat :=
  ((List.range 4).filter (fun k => mask / 2 ^ k % 2 == 1)).foldl (fun (b k : Nat) =>
    if mask / 2 ^ b % 2 == 0 || (k : Int) - v < (v : Int) - b then k else b) 0

/-- Enabled partitions, as a bitmap (R202). -/
def State.enabledParts (s : State) : Nat := ((List.range 6).filter s.partOn).foldl (fun n k => n + 2 ^ k) 0

/-- The largest channel number on a channel 0 frequency and spacing (R131). -/
def chanLimit (chan0 spacing : Nat) : Nat := (960000 - chan0) / spacingKhz spacing

/-- A request line of R386 that a channel may name. -/
def reqLineOk (n v : Nat) : Bool :=
  v == 0 || (decide (0x40 ≤ v) && decide (v < 0x48)) ||
    (radioClass n && decide (0x10 ≤ v) && decide (v < 0x28) && decide (v % 4 < 3))

/-- A hardware source code of R368. -/
def sourceOk (v : Nat) : Bool :=
  decide (v < 0x58) || (decide (0x60 ≤ v) && decide (v < 0x66)) || (decide (0x68 ≤ v) && decide (v < 0x78))

/-- A DALI target: a short address, a group or broadcast (R479). -/
def daliTargetOk (v : Nat) : Bool := v == 0xFE || (v % 2 == 0 && (decide (v ≤ 0x7E) || (decide (0x80 ≤ v) && decide (v ≤ 0x9E))))

/-- The highest base, in bytes, that keeps a region of `n` bytes inside the usable DRAM (R229, R488). -/
def State.topBase (s : State) (n : Nat) : Nat := s.usableMb * 1048576 - n

/-- The reserve of the classes other than the one at `a` (R344). -/
def otherReserve (view : Nat → Word) (a : Nat) : Nat :=
  (List.range 8).foldl (fun n c => if C15.classCfg c = a then n else n + bitsOf (view (C15.classCfg c)) 13 0) 0

/-- The class of a STEER field, and class 7's wider ranges (R303, R315). -/
def steerClass (a lo : Nat) : Nat := (if (elemOf (C17.steerHi 0) 0x80 8 a).isSome then 4 else 0) + lo / 8

/-- Radio die of a BAR0 offset. -/
def dieOfWin (a : Nat) : Nat := winOf a - 3

/-- What a value becomes under a range that depends on other fields: itself when it is legal (R45, R46). `view` reads another
register, live or staged; `w` is the word as legalised so far; the field is `hi:lo` of the register at `a`. -/
def State.depVal (s : State) (view : Nat → Word) (a : Nat) (w : Word) (lo v : Nat) : Dep → Nat
  | .unlockThr => clampN (max 20 (bitsOf w 9 0)) 5000 v
  | .tunerProtect => clampN 2 (min 9 (bitsOf w 12 8 - 1)) v
  | .feProtect => clampN 2 (bitsOf w 12 8 - 1) v
  | .chanNum =>
    min v (chanLimit (bitsOf (view E3.chan0Khz) 19 0) (if a = E3.chanSel then bitsOf w 13 12 else bitsOf (view E3.chanSel) 13 12))
  | .scanLast =>
    clampN (bitsOf w 19 10) (chanLimit (bitsOf (view E3.chan0Khz) 19 0) (bitsOf (view E3.chanSel) 13 12)) v
  | .txPower => if bitOf w 0 then clampN 20 80 v else min v 60
  | .rxRingBase => min v (8192 - bitsOf (view E3.rxRingSize) 10 0)
  | .meshRingBase => min v (16384 - bitsOf (view (a + 4)) 10 0)
  | .ringIndex =>
    let size := if a = E3.rxRingTail then E3.rxRingSize else if a = E4.txrHead then E4.txrSize else E4.rxrSize
    min v (bitsOf (view size) 10 0 - 1)
  | .modeMod => if a = E3.modeCfg 0 && s.meshOn then 0 else v
  | .modeRate =>
    if a = E3.modeCfg 0 && s.meshOn then 0
    else
      let u := if v ≤ 4 then v else 0
      if bitOf w 3 && (u = 0 || u = 2) then 1 else u
  | .bcnPhase => min v (bitsOf w 12 0 - 1)
  | .meshRole => if v = 3 then 0 else if v = 1 && !s.isMaster then 2 else v
  | .minBe => min v (bitsOf w 7 4)
  | .keyNext =>
    let same := if a = E4.keySel then bitOf w 8 && bitsOf w 3 0 == v else bitOf w 12 && bitsOf w 5 0 == v
    if same then v + 1 else v
  | .keyIndex => v
  | .radioEn => v
  | .chainEn =>
    ((List.range 16).filter (fun c => v / 2 ^ c % 2 == 1 && s.bit (D1.tileStat (dieOfWin a)) (c / 4))).foldl (fun n c => n + 2 ^ c) 0
  | .partSize =>
    if s.partOn (dieOfWin a) then s.fld a 1 0 else if v = 3 then 0 else v
  | .chanPlan =>
    if lo = 0 then (if v = 3 then 0 else v)
    else if lo = 2 then min v (maxBw (bitsOf w 1 0))
    else if lo = 8 then nearest (centres (bitsOf w 1 0) (bitsOf w 4 2)) v
    else min v (2 ^ bitsOf w 4 2 - 1)
  | .partPunct =>
    let c := view (D4.partChan (dieOfWin a))
    if (punctPatterns (bitsOf c 4 2)).contains v && v / 2 ^ bitsOf c 19 16 % 2 == 0 then v else 0
  | .csrBase =>
    let top := s.topBase 8388608
    let d := dieOfWin a
    if lo = 12 then min v ((top - bitsOf (view (D5.csrBaseHi d)) 1 0 * 2 ^ 32) / 4096)
    else min v ((top - bitsOf (view (D5.csrBaseLo d)) 31 12 * 4096) / 2 ^ 32)
  | .beamLast => max v (if lo = 6 then bitsOf w 5 0 else bitsOf w 17 12)
  | .dirSplit => clampN 1 (1135 - 2 * bitsOf w 4 1) v
  | .maxUsers =>
    match elemOf (C16.schedCfg 0) 0x40 6 a with
    | some p => clampN 1 (userLimit (bitsOf (view (D4.partChan p)) 4 2)) v
    | none => v
  | .ecwMax => max v (bitsOf w 7 4)
  | .staLinks => linksLegal s.enabledParts v
  | .twtPart => if s.enabledParts / 2 ^ v % 2 = 1 then v else 0
  | .affinity => if v = 0 then 0xFFFF else v
  | .bindEn => if sourceOk (bitsOf w 7 0) then v else 0
  | .reqSel => match elemOf (C5.chPace 0) 0x40 32 a with
    | some n => if reqLineOk n v then v else 0
    | none => v
  | .chLow => min v (bitsOf (view (a - 4)) 23 0)
  | .keyPn =>
    let other := if a = C6.keyPnLo then bitsOf (view C6.keyPnHi) 15 0 else (view C6.keyPnLo).toNat
    if a = C6.keyPnLo then (if other = 0 then max v 1 else if other = 0xFFFF then min v 0xFFFFFFFE else v)
    else if other = 0 then max v 1 else if other = 0xFFFFFFFF then min v 0xFFFE else v
  | .dramBoot => bootLegal (fspLegal (bitsOf w 11 8)) v
  | .fspMask => fspLegal v
  | .scrubPass => if v = 0 then 0 else if v ≤ 30 then 0 else clampN 60 10080 v
  | .dramWin => min v (s.usableMb / 128 - 1)
  | .ethMode => if a = C9.ethCfg 2 then (if 1 ≤ v && v ≤ 3 then v else 1) else if v ≤ 1 then v else 1
  | .ethFec => if v ≤ (if bitsOf w 2 0 = 0 then 2 else 1) then v else 0
  | .ethAn => if bitsOf w 2 0 ≤ 1 then 0 else v
  | .traceBase => min v (s.usableMb - bitsOf (view C11.traceSize) 10 0)
  | .traceTail => min v (bitsOf (view C11.traceSize) 10 0 * 32768 - 1)
  | .portFlood => if a = C12.portCfg 4 then 0 else v
  | .spillSize =>
    min v (min 4096 (s.usableMb - (bitsOf (view C15.spillBaseHi) 1 0 * 4096 + bitsOf (view C15.spillBaseLo) 31 20)))
  | .classReserve => min v (min 12288 (32768 - otherReserve view a))
  | .steerPref => if steerClass a lo = 7 then (if v = 3 then 0 else v) else if 2 ≤ v then 0 else v
  | .steerFb => if steerClass a lo ≠ 7 && v = 2 then 3 else v
  | .steerDup => if steerClass a lo = 7 then v else 0
  | .wakeEn => v
  | .cascBase => min ((v + 0x1FFFFF) / 0x400000) 8 * 0x400000
  | .dieRole =>
    let lower := ((List.range 6).filter (fun k => decide (2 * k < lo) && bitsOf w (2 * k + 1) (2 * k) == 2)).length
    if v = 3 then 0 else if v = 2 && 2 ≤ lower then 0 else v
  | .lampLevel => v
  | .daliTarget => if daliTargetOk v then v else 0xFE
  | .actOutput => min v (if bitOf w 0 then 1 else 5)
  | .actTarget => min v ([2047, 95, 1119, 1119, 5, 5].getD (bitsOf w 2 0) 2047)

/-- A range whose other codes fall back to a default code: its clamps set ENUM (R45, R48). -/
def Dep.isEnum (d : Dep) (lo v : Nat) : Bool :=
  match d with
  | .modeRate => decide (4 < v)
  | .modeMod => true
  | .meshRole => true
  | .partSize => v == 3
  | .chanPlan => lo == 0
  | .partPunct => true
  | .twtPart => true
  | .affinity => true
  | .reqSel => true
  | .ethMode => true
  | .ethFec => true
  | .steerPref => true
  | .steerFb => true
  | .daliTarget => true
  | .dieRole => v == 3
  | _ => false

/-- What a field's value becomes: itself when it is legal (R45). -/
def State.fieldVal (s : State) (view : Nat → Word) (a : Nat) (w : Word) (f : Field) : Nat :=
  let v := bitsOf w f.hi f.lo
  let n := f.hi + 1 - f.lo
  match f.legal with
  | .any => v
  | .rng lo hi => clampN lo hi v
  | .srng lo hi => ux n (clampI lo hi (sx n v))
  | .enum hi dflt => if v ≤ hi then v else dflt
  | .enumOf codes dflt => if codes.contains v then v else dflt
  | .bits mask => (BitVec.ofNat 32 v &&& BitVec.ofNat 32 mask).toNat
  | .zero => 0
  | .timeNs => v
  | .dep d => s.depVal view a w f.lo v d

/-- The field's clamp sets ENUM. -/
def Field.isEnum (f : Field) (v : Nat) : Bool :=
  match f.legal with
  | .enum _ _ => true
  | .enumOf _ _ => true
  | .dep d => d.isEnum f.lo v
  | _ => false

/-- The range depends on other fields. -/
def Field.isDep (f : Field) : Bool :=
  match f.legal with
  | .dep _ => true
  | _ => false

/-- The LEVEL or FAILSAFE of a DALI output, whose range is 0 to 254 (R467, R468). -/
def daliLevelReg (a : Nat) : Bool := (List.range 2).any (fun o => a == E7.level o || a == E7.failsafe o)

/-- The writable fields of the register at `a`: those of its map, but fields of absent dies in DIE_ROLE (R126), and WAKE_EN of a die
other than E (R52). -/
def State.fieldsOf (s : State) (a : Nat) (g : RegSpec) : List Field :=
  if a = E1.dieRole then g.fields.filter (fun f => decide (f.lo / 2 < radioDies s.part))
  else if a % 0x10000 = 0x108 && pageNo a = 0 && winOf a ≠ 2 && winOf a ≠ 0 then []
  else if daliLevelReg a then g.fields.map (fun f => { f with legal := Legal.rng 0 254 })
  else g.fields

/-- The stored word with every writable field taken from `w`. -/
def mergeFields (old w : Word) (fs : List Field) : Word := fs.foldl (fun x f => putFld x f.hi f.lo (bitsOf w f.hi f.lo)) old

/-- A written word made legal: fields of a fixed range first, then those that depend on others, each by the values already applied
(R45, R46). -/
def State.legalise (s : State) (view : Nat → Word) (a : Nat) (fs : List Field) (w : Word) : Word :=
  let one := fun (x : Word) (f : Field) => putFld x f.hi f.lo (s.fieldVal view a x f)
  (fs.filter Field.isDep).foldl one ((fs.filter (fun f => !f.isDep)).foldl one w)

/-- The clamps of a write, in ascending order of bit position (R48). -/
def clampsOf (fs : List Field) (w x : Word) (staged : Bool) : List ClampRec :=
  (fs.filter (fun f => bitsOf w f.hi f.lo != bitsOf x f.hi f.lo)).map (fun f =>
    { msb := f.hi, lsb := f.lo, isEnum := f.isEnum (bitsOf w f.hi f.lo), rejected := false, staged := staged,
      wrote := bitsOf w f.hi f.lo, applied := bitsOf x f.hi f.lo })

/-- A time field outside its format (R47, R70). -/
def timeBad (fs : List Field) (w : Word) : Option Field :=
  fs.find? (fun f => f.legal == .timeNs && decide (1000000000 ≤ bitsOf w f.hi f.lo))

/-- PAGE_CTRL.STRICT of the register's page (R47). -/
def State.strict (s : State) (a : Nat) : Bool := s.bit (HDR.pageCtrl (pageOf a)) 8

end Sys2Proof.Machine
end

