-- ==== Sys2Proof/Machine/Commands.lean ====
section
/-!
DEFINITION. The command registers: what a write of each one's word does. A word that spells a command has the effect of the
command's own row; the others are refused as the field tables say (R8, R54 and each block's page).
-/
namespace Sys2Proof.Machine

/-- What a write of the registers of an array does: base, stride and count of its elements, and the effect of a word on
element `i`. -/
structure Hook where
  base : Nat
  stride : Nat
  count : Nat
  act : Requester → Nat → Word → State → State

/-- The effect of the hook of a register, if it has one. -/
def hookFor (l : List Hook) (a : Nat) : Option (Requester → Word → State → State) :=
  l.findSome? (fun (h : Hook) => (elemOf h.base h.stride h.count a).map (fun i r w s => h.act r i w s))

/-- The next state a row's meaning answers. -/
def run (s : State) (o : Host.Outcome State Fault Refusal) : State :=
  match o with
  | .next t => t
  | _ => s

/-- A bit field as an index. -/
def fin (n v : Nat) (h : 0 < n := by decide) : Fin n := ⟨v % n, Nat.mod_lt _ h⟩

/-- A command code that the spec gives no effect: the write does nothing. -/
def State.noCommand (s : State) (r : Requester) (a : Nat) : State := s.cmdWrite r a (fun t => t)

/-- The upper half of a guarded word. -/
def upper (w : Word) : Half := BitVec.ofNat 16 (bitsOf w 31 16)

/-- The lower half of a guarded word. -/
def lower (w : Word) : Half := BitVec.ofNat 16 (bitsOf w 15 0)

/-! ## Die C -/

/-- TD_CMD (R367, R376). -/
def tdCmd (r : Requester) (_i : Nat) (w : Word) (s : State) : State :=
  let t : Fin 4096 := fin 4096 (bitsOf w 11 0)
  match bitsOf w 18 16 with
  | 1 => run s (execTdWrite r t s)
  | 2 => run s (execTdRead r t s)
  | 3 => run s (execTdFree r t s)
  | 4 => run s (execSetCount r t s)
  | _ => s.noCommand r C3.tdCmd

/-- FW_CMD (R377). -/
def fwCmd (r : Requester) (_i : Nat) (w : Word) (s : State) : State :=
  match bitsOf w 3 0 with
  | 1 => run s (execFwLoad r s)
  | 2 => run s (execFwHalt r s)
  | 3 => run s (execFwStart r s)
  | 4 => run s (execFwRestart r (fin 16 (bitsOf w 11 8)) s)
  | _ => s.noCommand r C4.fwCmd

/-- CH_CMD (R388, R394). The words of a descriptor in host memory are the host's: free here. -/
def chCmd (r : Requester) (i : Nat) (w : Word) (s : State) : State :=
  let n : Fin 32 := fin 32 i
  match bitsOf w 2 0 with
  | 1 => run s (execChStart r n ((List.range 16).map (fun k => Config.freeWord (s.fresh + k))) { s with fresh := s.fresh + 16 })
  | 2 => run s (execChPause r n s)
  | 3 => run s (execChResume r n s)
  | 4 => run s (execChStop r n s)
  | 5 => run s (execChAbort r n s)
  | c => s.cmdWrite r (C5.chCmd i) (fun t => t.chCmdState i c)

/-- KEY_CMD of the cipher pipes (R405, R408). -/
def pipeKeyCmd (r : Requester) (_i : Nat) (w : Word) (s : State) : State :=
  let slot : Fin 8192 := fin 8192 (bitsOf w 12 0)
  let c := bitsOf w 14 13
  if c = 0 ∨ bitOf w 15 then
    s.guardWrite r C6.keyCmd w (fun _ t =>
      if 4160 ≤ slot.val then t.guardRange C6.keyCmd 12 0 slot.val (t.fld C6.keyCmd 12 0)
      else if c = 0 then t.guardRange C6.keyCmd 14 13 0 (t.fld C6.keyCmd 14 13)
      else t.guardRange C6.keyCmd 15 15 1 0)
  else if c = 1 then run s (execPipeKeyInstall r slot (upper w) s)
  else if c = 2 then run s (execPipeKeyErase r slot (upper w) s)
  else run s (execPipeKeyStat r slot (upper w) s)

/-- DRAM_CMD (R427): code 5 is reserved, and discarded. -/
def dramCmd (r : Requester) (_i : Nat) (w : Word) (s : State) : State :=
  match bitsOf w 3 0 with
  | 1 => run s (execDramInit r s)
  | 2 => run s (execFspChange r (fin 4 (bitsOf w 5 4)) s)
  | 3 =>
    if bitsOf w 9 8 = 1 then run s (execUnfreezeResume r s)
    else if bitsOf w 9 8 = 2 then run s (execUnfreezeReinit r s)
    else s.cmdWrite r C7.dramCmd (fun t => t.dmCmdState 3)
  | 4 => run s (execRetrainNow r (bitOf w 12) s)
  | 5 => s.noCommand r C7.dramCmd
  | c => s.cmdWrite r C7.dramCmd (fun t => t.dmCmdState c)

/-- VLAN_CMD (R347). -/
def vlanCmd (r : Requester) (_i : Nat) (w : Word) (s : State) : State :=
  match bitsOf w 17 16 with
  | 1 => run s (execVlanWrite r (fin 4096 (bitsOf w 11 0)) s)
  | 2 => run s (execVlanRead r (fin 4096 (bitsOf w 11 0)) s)
  | _ => s.noCommand r C12.vlanCmd

/-- TBL_CMD (R332, R348): other codes are refused as BUSY. -/
def tblCmd (r : Requester) (_i : Nat) (w : Word) (s : State) : State :=
  let type : Fin 16 := fin 16 (bitsOf w 19 16)
  match bitsOf w 3 0 with
  | 1 => run s (execTblInsert r s)
  | 2 => run s (execTblDelete r s)
  | 3 => run s (execTblSearch r s)
  | 4 => run s (execTblNext r type (bitOf w 20) s)
  | 5 => run s (execFlushPort r (fin 32 (bitsOf w 12 8)) (bitOf w 13) type s)
  | 6 => run s (execAgeSweep r type s)
  | 7 => run s (execWalkClose r s)
  | _ => s.tableNow C13.tblCmd (fun t => t.tblStatus r 5 false false)

/-- LPM_CMD (R349): other codes are refused as BUSY. -/
def lpmCmd (r : Requester) (_i : Nat) (w : Word) (s : State) : State :=
  match bitsOf w 2 0 with
  | 1 => run s (execLpmInsert r w s)
  | 2 => run s (execLpmDelete r w s)
  | 3 => run s (execLpmSearch r w s)
  | 4 => run s (execLpmNext r w s)
  | 5 => run s (execLpmWalkClose r s)
  | _ => s.tableNow C14.lpmCmd (fun t => t.lpmStatus r 6 0)

/-- NH_CMD (R349). -/
def nhCmd (r : Requester) (_i : Nat) (w : Word) (s : State) : State :=
  match bitsOf w 17 16 with
  | 1 => run s (execNhWrite r (fin 4096 (bitsOf w 11 0)) s)
  | 2 => run s (execNhRead r (fin 4096 (bitsOf w 11 0)) s)
  | _ => s.noCommand r C14.nhCmd

/-- STA_CMD (R234, R257): other codes are discarded as STA_BUSY. -/
def staCmdWord (r : Requester) (_i : Nat) (w : Word) (s : State) : State :=
  let idx : Fin 2048 := fin 2048 (bitsOf w 26 16)
  match bitsOf w 3 0 with
  | 1 => run s (execStaWrite r idx s)
  | 2 => run s (execStaRead r idx s)
  | 3 => run s (execStaRemove r idx s)
  | 4 => run s (execStaFlush r idx (fin 8 (bitsOf w 6 4)) (bitOf w 7) s)
  | 5 => run s (execStaAlloc r s)
  | 6 => run s (execSetKey r idx s)
  | 7 => run s (execSetGkey r idx s)
  | c => s.cmdWrite r C16.staCmd (fun t => t.err C16.page 0x0100 (BitVec.ofNat 32 c))

/-- TWT_CMD (R250, R257). -/
def twtCmd (r : Requester) (_i : Nat) (w : Word) (s : State) : State :=
  match bitsOf w 3 0 with
  | 1 => run s (execTwtAdd r s)
  | 2 => run s (execTwtRemove r (fin 2048 (bitsOf w 26 16)) s)
  | 3 => run s (execTwtRead r (fin 2048 (bitsOf w 26 16)) s)
  | _ => s.noCommand r C16.twtCmd

/-- SCHED_CMD (R240, R256). -/
def schedCmd (r : Requester) (i : Nat) (w : Word) (s : State) : State :=
  let p : Fin 6 := fin 6 i
  if w = 1 then run s (execSchedCmdPause r p s)
  else if w = 2 then run s (execSchedCmdResume r p s)
  else if w = 3 then run s (execReplan r p s)
  else s.noCommand r (C16.schedCmd i)

/-! ## Die E -/

/-- RF_CMD (R149, R160): other codes are discarded as CMD_BUSY. Whether an ABORT meets the end of its frame is the air's: free
here. -/
def rfCmdWord (r : Requester) (_i : Nat) (w : Word) (s : State) : State :=
  match bitsOf w 3 0 with
  | 1 => run s (execRfCmdSleep r s)
  | 2 => run s (execRfCmdIdle r s)
  | 3 => run s (execRfCmdListen r s)
  | 4 => run s (execTxNow r s)
  | 5 => run s (execRfCal r (BitVec.ofNat 7 (bitsOf w 14 8)) s)
  | 6 => run s (execRfRetune r s)
  | 7 => run s (execRfEd r s)
  | 8 => s.draw (fun i t => run t (execRfAbort r (Config.freeNat i % 2 == 1) t))
  | 9 => run s (execTrimClear r s)
  | c => s.rfCmd r c (fun _ => false) (fun t => t)

/-- EMB_CMD (R378). -/
def embCmd (r : Requester) (_i : Nat) (w : Word) (s : State) : State :=
  match bitsOf w 3 0 with
  | 1 => run s (execEmbLoad r [] s)
  | 2 => run s (execEmbSwitch r s)
  | _ => s.noCommand r E5.embCmd

/-- KEY_CMD of the byte-serial engine (R399, R402). -/
def aesKeyCmd (r : Requester) (_i : Nat) (w : Word) (s : State) : State :=
  let c := bitsOf w 5 4
  if c = 0 ∨ c = 3 ∨ bitOf w 7 then
    s.guardWrite r E6.keyCmd w (fun _ t =>
      if c = 0 ∨ c = 3 then t.guardRange E6.keyCmd 5 4 c (t.fld E6.keyCmd 5 4) else t.guardRange E6.keyCmd 7 7 1 0)
  else if c = 1 then
    run s (execAesKeyInstall (some r) (fin 16 (bitsOf w 3 0)) (bitOf w 6) (BitVec.ofNat 8 (bitsOf w 15 8)) (upper w) s)
  else run s (execAesKeyErase (some r) (fin 16 (bitsOf w 3 0)) (bitOf w 6) (BitVec.ofNat 8 (bitsOf w 15 8)) (upper w) s)

/-- CTX_CMD of context `k` (R397, R402); SLOT and PRIO say nothing in a CLOSE. -/
def ctxCmd (r : Requester) (k : Nat) (w : Word) (s : State) : State :=
  s.ctxWrite (some r) k (E6.ctxCmd k) (fun t =>
    if !guardOk w then t.guardFail (E6.ctxCmd k) false false
    else if bitsOf w 1 0 = 0 ∨ bitsOf w 1 0 = 3 then t.guardRange (E6.ctxCmd k) 1 0 (bitsOf w 1 0) (t.fld (E6.ctxCmd k) 1 0)
    else if bitsOf w 15 8 ≠ 0 then t.guardRange (E6.ctxCmd k) 15 8 (bitsOf w 15 8) 0
    else if bitsOf w 1 0 = 1 then (t.accept (E6.ctxCmd k) (bitsOf w 15 0)).ctxOpen k (bitsOf w 5 2) (bitsOf w 7 6)
    else (t.accept (E6.ctxCmd k) (bitsOf w 15 0)).ctxClose k)

/-! ## Radio dies -/

/-- CAL_CMD: of a partition's lead, or of a backhaul die (R218, R285). -/
def calCmd (r : Requester) (d : Nat) (w : Word) (s : State) : State :=
  if s.roleN d = .backhaul then run s (execBhCal r (fin 6 d) w s) else s.partCal r d w

/-- SEQ_CMD (R211, R230): other codes are discarded as CMD_BUSY; the timing of an ABORT is free here as for RF_CMD. -/
def seqCmdWord (r : Requester) (d : Nat) (w : Word) (s : State) : State :=
  match bitsOf w 2 0 with
  | 1 => run s (execSeqSleep r (fin 6 d) s)
  | 2 => run s (execSeqIdle r (fin 6 d) s)
  | 3 => run s (execSeqListen r (fin 6 d) s)
  | 4 => s.draw (fun i t => t.seqAbort r (fin 6 d) (Config.freeNat i % 2 == 1))
  | c => s.seqCmd r d c (fun _ => false) (fun t => t)

/-- HEAD_CMD of head `h` (R289, R291); what the head answers is free here. -/
def headCmdWord (d : Nat) (r : Requester) (h : Nat) (w : Word) (s : State) : State :=
  if bitOf w 23 then s.draw (fun i t => run t (execHeadRead r (fin 6 d) (fin 2 h) w (BitVec.ofNat 16 (Config.freeWord i).toNat) t))
  else run s (execHeadWrite r (fin 6 d) (fin 2 h) w s)

/-! ## The command registers -/

/-- CLAMP_LOG_CLR: bit 0 empties the global clamp log and zeroes CLAMP_LOG_LOST (R49, R53). -/
def execClampLogClr (r : Requester) (w : Word) (s : State) : Host.Outcome State Fault Refusal :=
  .next (s.cmdWrite r GLB.clampLogClr (fun t =>
    if bitOf w 0 then { t.wr GLB.clampLogLost 0 with logs := { t.logs with clamps := [] } } else t))

/-- Command registers of the global page and of die C. -/
def commandsC : List Hook :=
  [⟨GLB.pwrCmd, 4, 1, fun r _ w s => s.guardWrite r GLB.pwrCmd w (fun v t => t.pwrCmd r v)⟩,
   ⟨GLB.clampLogClr, 4, 1, fun r _ w s => run s (execClampLogClr r w s)⟩,
   ⟨C1.txnOpen, 4, 1, fun r _ w s => run s (execTxnOpen r w s)⟩,
   ⟨C1.txnCommit, 4, 1, fun r _ w s => run s (execTxnCommit r w s)⟩,
   ⟨C1.txnAbort, 4, 1, fun r _ w s => run s (execTxnAbort r w s)⟩,
   ⟨C1.txnRelease, 4, 1, fun r _ w s => run s (execTxnRelease r w s)⟩,
   ⟨C2.timeSnap, 4, 1, fun r _ w s => run s (execTimeSnap r w s)⟩,
   ⟨C2.timeCmd, 4, 1, fun r _ w s => s.timeCmdRow r true (upper w) (lower w)⟩,
   ⟨C3.tdCmd, 4, 1, tdCmd⟩,
   ⟨C3.grDec, 4, 1, fun r _ w s => run s (execGrDec r (fin 4096 (bitsOf w 11 0)) s)⟩,
   ⟨C3.grDone, 4, 1, fun r _ w s => run s (execGrDone r (fin 4096 (bitsOf w 11 0)) (BitVec.ofNat 8 (bitsOf w 19 12)) s)⟩,
   ⟨C4.fwCmd, 4, 1, fwCmd⟩,
   ⟨C4.mbDoorbell 0, 0x80, 32, fun r i _ s => run s (execMbDoorbell r (fin 32 i) s)⟩,
   ⟨C4.mbRelease 0, 0x80, 32, fun r i _ s => run s (execMbRelease r (fin 32 i) s)⟩,
   ⟨C5.chCmd 0, 0x40, 32, chCmd⟩,
   ⟨C5.chLevelAdj 0, 0x40, 32, fun r i w s => run s (execChLevelAdj r (fin 32 i) w s)⟩,
   ⟨C6.keyCmd, 4, 1, pipeKeyCmd⟩,
   ⟨C7.dramCmd, 4, 1, dramCmd⟩,
   ⟨C9.bypOpen, 4, 1, fun r _ w s => run s (execBypOpenWrite r w s)⟩,
   ⟨C9.bypKick, 4, 1, fun r _ w s => run s (execBypKick r w s)⟩,
   ⟨C11.evtClr, 4, 1, fun r _ w s => run s (execEvtClr r w s)⟩,
   ⟨C11.evtRdIdx, 4, 1, fun r _ w s => run s (execEvtRdIdx r w s)⟩,
   ⟨C12.vlanCmd, 4, 1, vlanCmd⟩,
   ⟨C13.tblCmd, 4, 1, tblCmd⟩,
   ⟨C13.hashSeed 0, 4, 2, fun r i w s => run s (execHashSeedWrite r (fin 2 i) w s)⟩,
   ⟨C14.lpmCmd, 4, 1, lpmCmd⟩,
   ⟨C14.nhCmd, 4, 1, nhCmd⟩,
   ⟨C15.qmCmd, 4, 1, fun r _ w s => if w = 1 then run s (execDiscardSpill r s) else s.noCommand r C15.qmCmd⟩,
   ⟨C16.staCmd, 4, 1, staCmdWord⟩,
   ⟨C16.twtCmd, 4, 1, twtCmd⟩,
   ⟨C16.schedCmd 0, 0x40, 6, schedCmd⟩,
   ⟨C16.actArm 0, 0x20, 8, fun r i w s => s.armWrite r (.sched (fin 8 i)) w⟩,
   ⟨C17.actArm 0, 0x20, 8, fun r i w s => s.armWrite r (.link (fin 8 i)) w⟩]

/-- Command registers of die E. -/
def commandsE : List Hook :=
  [⟨E3.rfCmd, 4, 1, rfCmdWord⟩,
   ⟨E3.actArm 0, 0x20, 8, fun r i w s => s.armWrite r (.rf (fin 8 i)) w⟩,
   ⟨E4.addrCmd, 4, 1, fun r _ w s => s.addrCmd r w⟩,
   ⟨E4.actArm 0, 0x20, 2, fun r i w s => s.armWrite r (.mesh (fin 2 i)) w⟩,
   ⟨E5.embCmd, 4, 1, embCmd⟩,
   ⟨E6.keyCmd, 4, 1, aesKeyCmd⟩,
   ⟨E6.ctxCmd 0, 0x40, 8, ctxCmd⟩,
   ⟨E6.ctxGo 0, 0x40, 8, fun r i w s => run s (execCtxGo (some r) (fin 8 i) (bitOf w 0) s)⟩,
   ⟨E7.lampKick, 4, 1, fun r _ w s => s.lampKick r w⟩,
   ⟨E7.failsafe 0, 0x10, 6, fun r i w s => s.failsafeWrite r i w⟩,
   ⟨E7.dqPush 0, 0x20, 2, fun r i w s => s.dqPush r i w⟩,
   ⟨E7.dqFlush 0, 0x20, 2, fun r i _ s => s.dqFlush r i⟩,
   ⟨E7.actArm 0, 0x20, 8, fun r i w s => s.armWrite r (.lamp (fin 8 i)) w⟩,
   ⟨E8.timeSnap, 4, 1, fun r _ w s => run s (execETimeSnap r w s)⟩,
   ⟨E8.timeCmd, 4, 1, fun r _ w s => s.timeCmdRow r false (upper w) (lower w)⟩]

/-- Command registers of radio die `d`. -/
def commandsD (d : Nat) : List Hook :=
  [⟨D3.calCmd d, 4, 1, fun r _ w s => calCmd r d w s⟩,
   ⟨D4.seqCmd d, 4, 1, fun r _ w s => seqCmdWord r d w s⟩,
   ⟨D4.actArm d 0, 0x20, 8, fun r i w s => s.armWrite r (.part (fin 6 d) (fin 8 i)) w⟩,
   ⟨D6B.headCmd d 0, 0x40, 2, headCmdWord d⟩,
   ⟨D7.tmCmd d, 4, 1, fun r _ w s => run s (execTmSend r (fin 6 d) w s)⟩]

/-- The command a register takes, with the effect of its words; HEAD_CMD exists in the backhaul role only. -/
def State.commandAt (s : State) (a : Nat) : Option (Requester → Word → State → State) :=
  let w := winOf a
  if w ≤ 1 then hookFor commandsC a
  else if w = 2 then hookFor commandsE a
  else if (s.spec a).isSome then hookFor (commandsD (w - 3)) a else none

end Sys2Proof.Machine
end

