-- ==== Sys2Proof/Machine/RegWrite.lean ====
section
/-!
DEFINITION. A register write by any requester: what storing a legal word does, the registers whose writes have rules of their
own, direct and staged writes, the page header, soft reset, and the memory windows (R8, R39 to R59, R431 to R434).
-/
namespace Sys2Proof.Machine

/-! ## What storing a word does -/

/-- TRACE_TAIL moves on: a ring that was full is full no more (R484). -/
def State.setTraceTail (s : State) (w : Word) : State := (s.wr C11.traceTail w).setBit C11.traceStat 0 false

/-- HOST_WDT: the watchdog counts from the instant at which it comes to count (R471). -/
def State.setHostWdt (s : State) (w : Word) : State :=
  let s1 := s.wr E7.hostWdt w
  if !s1.hostWdtCounts then { s1 with lamp := { s1.lamp with kick := none } }
  else if s.hostWdtCounts then s1
  else { s1 with lamp := { s1.lamp with kick := some s.mono } }

/-- DIR_CFG of direction `n`: setting ENABLE needs the die's firmware (R375); a cleared ENABLE acts at the next cycle start. -/
def State.setDirCfg (s : State) (n : Nat) (w : Word) : State :=
  let a := dCfg n
  if bitOf w 31 && !s.bit a 31 then
    let s1 := s.wr a (putBit w 31 false)
    (s1.dirEnable n).getD (s1.dirNoFw n)
  else s.wr a w

/-- Registers of die C whose stored word acts on something beside itself. -/
def effectsC : List Hook :=
  [⟨C2.srcMode, 4, 3, fun _ i w s => (s.wr (C2.srcMode + 4 * i) w).reselect⟩,
   ⟨C2.ptpCfg 0, 0x40, 3, fun _ p w s => (s.wr (C2.ptpCfg p) w).reselect⟩,
   ⟨C2.ttCfg 0, C2.ttCfg 1 - C2.ttCfg 0, 8, fun _ l w s => (s.wr (C2.ttCfg l) w).reselect⟩,
   ⟨C3.grTimer 0, 4, 8, fun _ t w s =>
      { s.wr (C3.grTimer t) w with grate := { s.grate with timers := s.grate.timers.set t s.mono } }⟩,
   ⟨C5.chPace 0, 0x40, 32, fun _ n w s => (s.wr (C5.chPace n) w).pace n⟩,
   ⟨C5.chHigh 0, 0x40, 32, fun _ n w s => (s.wr (C5.chHigh n) w).pace n⟩,
   ⟨C5.chLow 0, 0x40, 32, fun _ n w s => (s.wr (C5.chLow n) w).pace n⟩,
   ⟨C9.ethCfg 0, 0x40, 3, fun _ q w s => s.bypSettle (s.wr (C9.ethCfg q) w)⟩,
   ⟨C10.korCfg 0, 0x40, 3, fun _ k w s => (s.wr (C10.korCfg k) w).korEnable k⟩,
   ⟨C11.traceTail, 4, 1, fun _ _ w s => s.setTraceTail w⟩,
   ⟨C16.schedCfg 0, 0x40, 6, fun _ p w s => s.setSchedCfg p w⟩,
   ⟨C17.linkCfg 0, 0x80, 8, fun _ l w s => s.setLinkCfg l w⟩,
   ⟨C17.keySel 0, 0x80, 8, fun _ l w s => s.setKeySel l (bitsOf w 15 0)⟩]

/-- Registers of die E whose stored word acts on something beside itself. -/
def effectsE : List Hook :=
  [⟨E3.chan0Khz, 4, 1, fun _ _ w s => (s.wr E3.chan0Khz w).sgRetuneChan⟩,
   ⟨E3.chanSel, 4, 1, fun _ _ w s => (s.wr E3.chanSel w).sgRetuneChan⟩,
   ⟨E4.meshCfg, 4, 1, fun _ _ w s => s.setMeshCfg w⟩,
   ⟨E4.bcnCfg, 4, 1, fun _ _ w s => s.setBcnCfg w⟩,
   ⟨E4.keySel, 4, 1, fun _ _ w s => (s.wr E4.keySel w).meshShow⟩,
   ⟨E7.lampCfg, 4, 1, fun _ _ w s => s.setLampCfg w⟩,
   ⟨E7.hostWdt, 4, 1, fun _ _ w s => s.setHostWdt w⟩,
   ⟨E7.level 0, 0x10, 6, fun _ o w s => s.levelOrDiscard o (bitsOf w 15 0)⟩,
   ⟨E10.gpioCfg 0, 4, 12, fun _ n w s => (s.wr (E10.gpioCfg n) w).gpioLevels⟩]

/-- Registers of radio die `d` whose stored word acts on something beside itself. -/
def effectsD (d : Nat) : List Hook :=
  [⟨D4.partChan d, 4, 1, fun _ _ w s => s.setPartChan d w⟩,
   ⟨D7.dirCfg d 0, 0x100, 2, fun _ h w s => s.setDirCfg (2 * d + h) w⟩,
   ⟨D7.dirChan d 0, 0x100, 2, fun _ h w s => s.setDirChan (2 * d + h) w⟩]

/-- A register takes a legal word: by a direct write, as its share of a group, or at a soft reset. -/
def State.store (s : State) (a : Nat) (w : Word) : State :=
  let k := winOf a
  let l := if k = 1 then effectsC else if k = 2 then effectsE else if 3 ≤ k ∧ k ≤ 8 then effectsD (k - 3) else []
  match hookFor l a with
  | some f => f .casc w s
  | none => s.wr a w

/-! ## Registers whose writes have rules of their own -/

/-- ROLE_LOCKED of each powered radio die whose field a write of DIE_ROLE has changed from `old`, with the word written (R113). -/
def State.roleLocked (s : State) (old w : Word) : State :=
  (List.finRange 6).foldl (fun (t : State) (d : Fin 6) =>
    if t.powered (.d d) && bitsOf old (2 * d.val + 1) (2 * d.val) != t.fld E1.dieRole (2 * d.val + 1) (2 * d.val)
    then t.err (dWin d.val) 2 w else t) s

/-- TRACE_CFG: MODE is locked while tracing, and EN needs a ring and a DRAM that is READY (R485). -/
def State.setTraceCfg (s : State) (w : Word) : State :=
  let a := C11.traceCfg
  if s.tracing then
    let keep := putBit w 1 (s.bit a 1)
    if bitOf w 1 == s.bit a 1 then s.wr a w else (s.wr a keep).err C11.page 0x0100 w
  else if bitOf w 0 && (s.fld C11.traceSize 10 0 == 0 || !s.dramReady) then
    (s.wr a (putBit w 0 false)).err C11.page 0x0101 (s.rd C11.traceSize)
  else s.wr a w

/-- A channel with a descriptor in progress keeps its CH_DESC and CH_PACE (R388). -/
def State.chLocked (s : State) (n : Nat) : Bool := decide (1 ≤ s.ch n) && decide (s.ch n ≤ 4)

/-- A requester's own copy of TXN_ATIME (R56). -/
def State.setAtime (s : State) (r : Requester) (ns : Bool) (w : Word) : State :=
  if !s.isMaster then s
  else if ns then s.setTxuPort { s.txuPort r with atimeNs := w } else s.setTxuPort { s.txuPort r with atimeS := w }

/-- RF_ACT[6] and RF_ACT[7] are the Ember engine's while the mesh is enabled (R167). -/
def State.sgSlotWord (s : State) (a : Nat) (w : Word) : State :=
  if s.meshOn && decide (E3.actS 6 ≤ a) then s else s.wr a w

/-- A direct write that is discarded whole, before any check, because of the state of what it would configure, with its record:
FW_BASE (R377), CH_DESC and CH_PACE (R388), DRAM_CFG (R413), and TRACE_BASE and TRACE_SIZE (R485). -/
def State.writeLock (s : State) (a : Nat) (w : Word) : Option State :=
  if a = C4.fwBase then (if s.fwState = 1 ∨ s.fwState = 2 then some (s.errFree C4.page 0x0100) else none)
  else if a = C7.dramCfg then (if s.dm = dmOff ∨ s.dm = dmFailed then none else some (s.err C7.page 0x0100 w))
  else if a = C11.traceBase ∨ a = C11.traceBase + 4 then (if s.tracing then some (s.err C11.page 0x0100 w) else none)
  else match (elemOf (C5.chDescLo 0) 0x40 32 a).or ((elemOf (C5.chDescHi 0) 0x40 32 a).or (elemOf (C5.chPace 0) 0x40 32 a)) with
    | some n => if s.chLocked n then some s else none
    | none => none

/-- Registers of die C whose direct writes are refused in some states, or go to a requester's own copy. -/
def gatesC : List Hook :=
  [⟨C1.txnAtimeS, 4, 2, fun r i w s => s.setAtime r (i == 1) w⟩,
   ⟨C9.ethCfg 0, 0x40, 3, fun _ q w s => if s.ethLocked q w then s.err C9.page 0x0100 (BitVec.ofNat 32 q) else s.store (C9.ethCfg q) w⟩,
   ⟨C9.sfpI2c 0, 0x40, 2, fun _ q w s => (s.wr (C9.sfpI2c q) w).sfpStart q⟩,
   ⟨C11.traceCfg, 4, 1, fun _ _ w s => s.setTraceCfg w⟩,
   ⟨C13.tblCursor, 4, 9, fun r i w s => s.wrReq r (C13.tblCursor + 4 * i) w⟩,
   ⟨C14.lpmAddr 0, 4, 5, fun r i w s => s.wrReq r (C14.lpmAddr i) w⟩]

/-- Mailbox data words: sixteen of each mailbox (R363). -/
def mbWord (a : Nat) : Option Nat :=
  if C4.mbData 0 0 ≤ a ∧ a < C4.mbData 32 0 ∧ (a - C4.mbData 0 0) % 0x80 < 0x40 then some ((a - C4.mbData 0 0) / 0x80) else none

/-- Input words of a context of the byte-serial engine (R397). -/
def ctxInWord (a : Nat) : Option Nat :=
  if E6.ctxIn 0 0 ≤ a ∧ a < E6.ctxIn 8 0 ∧ (a - E6.ctxIn 0 0) % 0x40 < 0x10 then some ((a - E6.ctxIn 0 0) / 0x40) else none

/-- A direct write of a legal word that has passed its checks. -/
def State.directStore (s : State) (r : Requester) (a : Nat) (w : Word) : State :=
  if winOf a = 1 then
    match mbWord a with
    | some m => s.mbData r m a w
    | none => match hookFor gatesC a with
      | some f => f r w s
      | none => s.store a w
  else if winOf a = 2 then
    match ctxInWord a with
      | some k => if k < 6 then s.err E6.page 0x0100 (BitVec.ofNat 32 k) else s.wr a w
      | none => if E3.actS 0 ≤ a ∧ a < E3.actS 8 then s.sgSlotWord a w else s.store a w
  else s.store a w

/-! ## Direct writes (R8, R43 to R48, R59) -/

/-- A live group has staged the register (R59). -/
def State.stagedAt (s : State) (a : Nat) : Bool :=
  s.txuRuns && s.txu.groups.any (fun g => g.state.live && g.writes.any (fun w => w.addr == a))

/-- The record of a rejected field, whose value stays (R48). -/
def rejection (live : Word) (hi lo wrote : Nat) (isEnum staged : Bool) : ClampRec :=
  { msb := hi, lsb := lo, isEnum := isEnum, rejected := true, staged := staged, wrote := wrote, applied := bitsOf live hi lo }

/-- The value a requester's write would replace: its own copy of a register that is held per requester, else the live one (R56, R332). -/
def State.ownCopy (s : State) (r : Requester) (a : Nat) : Word :=
  if a = C1.txnAtimeS then (s.txuPort r).atimeS
  else if a = C1.txnAtimeNs then (s.txuPort r).atimeNs
  else if (C13.tblCursor ≤ a ∧ a < C13.tblCursor + 36) ∨ (C14.lpmAddr 0 ≤ a ∧ a < C14.lpmAddr 5) then s.rdReq r a
  else s.rd a

/-- A direct write is checked against its legal ranges: rejected whole, or clamped field by field and applied (R44 to R48). -/
def State.checkedWrite (s : State) (r : Requester) (a : Nat) (g : RegSpec) (w : Word) (guarded : Bool) : State :=
  let fs := s.fieldsOf a g
  let old : Word := if guarded then BitVec.ofNat 32 (s.fld a 15 0) else s.rd a
  let live : Word := if guarded then old else s.ownCopy r a
  let w0 := mergeFields old w fs
  let x := s.legalise s.rd a fs w0
  match timeBad fs w0, clampsOf fs w0 x false with
  | some f, _ => s.reject a (rejection live f.hi f.lo (bitsOf w0 f.hi f.lo) false false) 4
  | none, [] => let t := s.directStore r a x
                if s.stagedAt a then t.err (pageOf a) 8 (BitVec.ofNat 32 (a % 0x10000)) else t
  | none, c :: cs =>
    if guarded || s.strict a then s.reject a (rejection live c.msb c.lsb c.wrote c.isEnum false) 5
    else
      let t := ((c :: cs).foldl (fun (u : State) k => u.clampRec a k) s).directStore r a x
      if s.stagedAt a then t.err (pageOf a) 8 (BitVec.ofNat 32 (a % 0x10000)) else t

/-- Bits of a W1C register are cleared (R8). -/
def State.clearBits (s : State) (a : Nat) (w : Word) : State := s.healthStep (s.wr a (s.rd a &&& ~~~ w))

/-- A direct write of a block register that is no command register. -/
def State.directWrite (s : State) (r : Requester) (a : Nat) (g : RegSpec) (w : Word) : State :=
  match g.acc with
  | .ro => s
  | .rc => s
  | .w1c => s.clearBits a w
  | .wo => s.wr a w
  | .rw => match s.writeLock a w with
    | some t => t
    | none => if a = E1.dieRole then (s.checkedWrite r a g w false).roleLocked (s.rd a) w else s.checkedWrite r a g w false
  | .wg => if guardOk w then s.checkedWrite r a g (BitVec.ofNat 32 (bitsOf w 15 0)) true else s.guardFail a false false

/-! ## Staged writes (R57, R58, R60) -/

/-- A register as a group's staged write sees it: the value staged, else the live one (R46). -/
def State.groupView (s : State) (n : Fin 16) (a : Nat) : Word :=
  match (s.group n).writes.find? (fun w => w.addr == a) with
  | some w => w.value
  | none => s.rd a

/-- What the check of a staged write finds. -/
inductive StageCheck where
  | guard
  | time (f : Field) (w0 : Word)
  | value (x : Word) (clamps : List ClampRec)

/-- The check of a staged write against its guard and ranges (R57). -/
def State.stageCheck (s : State) (view : Nat → Word) (a : Nat) (g : RegSpec) (w : Word) : StageCheck :=
  if g.acc = .wg ∧ !guardOk w then .guard
  else
    let half := fun (x : Word) => if g.acc = .wg then BitVec.ofNat 32 (bitsOf x 15 0) else x
    let fs := s.fieldsOf a g
    let w0 := mergeFields (half (view a)) (half w) fs
    let x := s.legalise view a fs w0
    match timeBad fs w0 with
    | some f => .time f w0
    | none => .value x (clampsOf fs w0 x true)

/-- The records a failed check leaves on the page; `stop` says that a clamp fails it (R48, R57). A range failure that aborts its group
stages no value: its one record has REJECTED set and the live value as the value applied, and ERR_CODE takes RANGE_REJECT only where the
field is guarded or the page STRICT (DESIGN CHOICE, log 93). -/
def State.stageRecords (s : State) (a : Nat) (g : RegSpec) (stop : Bool) (c : StageCheck) : State :=
  match c with
  | .guard => s.guardFail a false true
  | .time f w0 => s.reject a (rejection (s.rd a) f.hi f.lo (bitsOf w0 f.hi f.lo) false true) 4
  | .value _ [] => s
  | .value _ (c :: cs) =>
    if !stop then (c :: cs).foldl (fun (u : State) k => u.clampRec a k) s
    else
      let rec0 := rejection (s.rd a) c.msb c.lsb c.wrote c.isEnum true
      if g.acc = .wg ∨ s.strict a then s.reject a rec0 5 else s.clampRec a rec0

/-- A write under a tag (R57). On a subordinate part, where the tag and the group's ALLOW_CLAMP are the master's, only the checks are made
here (R458); ALLOW_CLAMP is free. -/
def State.stageWrite (s : State) (r : Requester) (a : Nat) (g : RegSpec) (w : Word) : State :=
  let tag := s.tagOf r (pageOf a)
  if !s.isMaster then
    s.draw (fun i t => t.stageRecords a g (Config.freeNat i % 2 == 0 || g.acc == .wg || t.strict a) (t.stageCheck t.rd a g w))
  else match s.tagGroup tag with
    | none => s.err (pageOf a) 6 (BitVec.ofNat 32 tag)
    | some n =>
      let gr := s.group n
      if gr.state ≠ .opened then s.err (pageOf a) 6 (BitVec.ofNat 32 tag)
      else
        let c := s.stageCheck (s.groupView n) a g w
        let stop := !gr.allowClamp || g.acc == .wg || s.strict a
        let t := s.stageRecords a g stop c
        match c with
        | .guard => t.refuseStaged n rsnGuard a
        | .time _ _ => t.refuseStaged n rsnClamp a
        | .value x [] => t.stageValue n a x false
        | .value x _ => if stop then t.refuseStaged n rsnClamp a else t.stageValue n a x true

/-! ## Soft reset (R40) -/

/-- Read-only registers that hold the record of a past command, measurement or event, which a soft reset returns to their reset values. The
other read-only registers show what the block does and holds; what they show stands after the reset as before it. -/
def recordNames : List String :=
  ["SNAP_S_LO", "SNAP_S_HI", "SNAP_NS", "SNAP_FRAC", "OFFSET_NS", "PTP_OFFSET_NS", "TT_OFFSET_NS", "TD_RESULT", "TD_DATA", "ENG_FAULT",
   "CH_MISMATCH", "KEY_RESULT", "CE_LAST", "STA_RESULT", "STA_DATA", "TWT_RESULT", "SWEEP_RESULT", "LAST_FAIL_S", "LAST_FAIL_NS", "FAIL_TIME",
   "TRANS_TIME", "SUP_LAST_DUR", "SUP_LAST_MIN", "TX_STAT", "ED_RESULT", "CTX_OUT", "SPI_STAT", "GPIO_TS_S", "GPIO_TS_NS", "CH_RSSI", "FE_DET",
   "FE_PWR", "HEAD_RDATA", "CLAMP_LOG_LOST"]

/-- A register of a page that the block's reset returns: every one but the read-only registers that show what the block does and holds.
ACT_STAT's slots become EMPTY. -/
def State.softWord (s : State) (a : Nat) : State :=
  match s.spec a with
  | none => s
  | some g =>
    let v := BitVec.ofNat 32 g.reset
    match g.acc with
    | .ro => if recordNames.contains g.name then s.wr a v else s
    | .rw =>
      if a = C7.dramCfg ∨ a = E1.dieRole then s.wr a v
      else s.store a (s.legalise s.rd a (s.fieldsOf a g) v)
    | .w1c => s.healthStep (s.wr a v)
    | .rc => s.healthStep (s.wr a v)
    | .wo => s.wr a v
    | .wg => if a = E4.keySel ∨ (g.trans ∧ winOf a = 1) then s.store a v else s.wr a v

/-- Slots of a page's actions. -/
def pageSlots (p : Nat) : List ActSlot :=
  if p = E3.page then (List.finRange 8).map ActSlot.rf
  else if p = E4.page then (List.finRange 2).map ActSlot.mesh
  else if p = E7.page then (List.finRange 8).map ActSlot.lamp
  else if p = C16.page then (List.finRange 8).map ActSlot.sched
  else if p = C17.page then (List.finRange 8).map ActSlot.link
  else (List.finRange 6).flatMap (fun d => if p = D4.page d.val then (List.finRange 8).map (ActSlot.part d) else [])

/-- A page's slots become EMPTY, and what was armed in them is withdrawn. -/
def State.blankSlots (s : State) (p : Nat) : State :=
  (pageSlots p).foldl (fun (t : State) x => ((t.unprepare x).dropAct x).wr (slotStat x) 0) s

/-- The lamp registers after a soft reset: FAILSAFE returns to the level stored, and LEVEL to its reset value, which is the applied
level of an output outside failsafe (R467, R468, R479). -/
def State.softLamps (s : State) : State :=
  (List.range 6).foldl (fun (t : State) o =>
    let x := t.lampOut o
    let u := t.wr (E7.failsafe o) (BitVec.ofNat 32 x.stored)
    if x.fs then u else u.setLampOut o { x with level := some (u.fld (E7.level o) 15 0) }) s

/-- PAGE_CTRL.SOFT_RESET: the page's registers from 0x100 upwards return to their reset values, each with the effect of a write of
that value; a requester's own copies go with them. -/
def State.softReset (s : State) (p : Nat) : State :=
  let listed := (s.regs.filter (fun x => decide (p + 0x100 ≤ x.1) && decide (x.1 < p + 0x10000))).map Prod.fst
  let s1 := listed.foldl State.softWord (s.blankSlots p)
  let s2 := { s1 with perReq := s1.perReq.filter (fun x => pageOf (x.1 % 2 ^ 32) != p) }
  let s3 := if p = C1.page then { s2 with txu := { s2.txu with ports := [] } } else s2
  if p = E7.page then s3.softLamps
  else if p = C9.page then s.bypSettle s3
  else if p = E10.page then s3.gpioLevels
  else s3

/-! ## The page header (R40, R41) -/

/-- Effect of a change of PAGE_CTRL.ENABLE from `was`, where the block's chapter gives one: the sub-GHz radio (R149), the mesh
(R197), and a partition (R202, R240). -/
def State.setEnable (s : State) (p : Nat) (on : Bool) : State :=
  let a := HDR.pageCtrl p
  let was := s.bit a 0
  if on = was then s
  else if p = E3.page then (s.setBit a 0 on).sgEnableChange on
  else if p = E4.page then (s.setBit a 0 on).meshEnableChange s.meshOn
  else match (List.finRange 6).find? (fun d => p == D4.page d.val) with
    | some d =>
      if on then (s.partEnable d.val).onPs d.val (fun q => { q with txop := none, paused := false, pauseReq := false })
      else s.partDisable d.val
    | none => s.setBit a 0 on

/-- A write of PAGE_CTRL. -/
def State.pageCtrl (s : State) (p : Nat) (w : Word) : State :=
  let s1 := (s.setBit (HDR.pageCtrl p) 8 (bitOf w 8)).setEnable p (bitOf w 0)
  if bitOf w 1 then s1.softReset p else s1

/-- A W1C write of INT_STAT: the INT_RAW bits named are cleared, but an event that coincides wins (R40, R41). A level event stays
set while its level holds (R128). -/
def State.intClear (s : State) (p : Nat) (w coincide : Word) : State :=
  let a := HDR.intRaw p
  let t := s.signal (s.wr a ((s.rd a &&& ~~~ w) ||| coincide)) p
  if p = E10.page then t.gpioLevels else t

/-- A write of a header register other than TXN_TAG. -/
def State.headerStore (s : State) (p o : Nat) (w : Word) : State :=
  if o = 0x0C then s.pageCtrl p w
  else if o = 0x14 then s.signal (s.wr (HDR.intEn p) w) p
  else if o = 0x18 then s.intClear p w 0
  else if o = 0x1C then s.raiseBits p w
  else s

/-- A record that a write under a tag changes no staged value (R56). -/
def State.nonTrans (s : State) (r : Requester) (a : Nat) : State :=
  if s.tagOf r (pageOf a) = 0 then s else s.err (pageOf a) 7 (BitVec.ofNat 32 (a % 0x10000))

/-! ## Any write to BAR0 (R8, R9, R37, R39) -/

/-- The lead of the partition that the die of a page 2 to 5 is a member of (R201). -/
def State.memberPage (s : State) (a : Nat) : Option Nat :=
  if 3 ≤ winOf a && winOf a ≤ 8 && 2 ≤ pageNo a && pageNo a ≤ 5 then s.memberOf (winOf a - 3) else none

/-- A write of a block register. On pages 2 to 5 of a member die a writable register is the lead's: the write is discarded and recorded,
under a tag too; a read-only one takes no write (R8, R201). -/
def State.blockWrite (s : State) (r : Requester) (a : Nat) (g : RegSpec) (w : Word) : State :=
  match s.memberPage a, s.commandAt a with
  | some l, _ =>
    if g.acc = .ro ∨ g.acc = .rc then s.nonTrans r a
    else (if g.trans then s else s.nonTrans r a).err (D4.page (winOf a - 3)) 0x0100 (BitVec.ofNat 32 l)
  | none, some f => f r w s
  | none, none =>
    if s.tagOf r (pageOf a) ≠ 0 ∧ g.trans then s.stageWrite r a g w else (s.nonTrans r a).directWrite r a g w

/-- A write that has reached its page. -/
def State.pageWrite (s : State) (r : Requester) (a : Nat) (w : Word) : State :=
  let o := a % 0x10000
  if o = 0x40 then s.writeTag r (pageOf a) w
  else match s.spec a with
    | none => s
    | some g => if o < 0x100 then (s.nonTrans r a).headerStore (pageOf a) o w else s.blockWrite r a g w

/-- A write of one word at a BAR0 offset. -/
def State.writeReg (s : State) (r : Requester) (a : Nat) (w : Word) : State :=
  if 0x3000000 ≤ a then (if r = .casc then s else s.cascWrite (a - 0x3000000) w)
  else if 0x2400000 ≤ a then s
  else if !s.reachable a then s.accessOff a
  else if !s.pathOk r a then s
  else s.pageWrite r a w

/-! ## Memory windows and engine stores (R352, R360, R432, R434) -/

/-- Model offsets of BAR2, of BAR4, and of the DRAM as an engine addresses it. -/
def bar2 : Nat := 0x10000000
def bar4 : Nat := 0x20000000
def engDram : Nat := 0x400000000

/-- The bytes of a word that its byte enables select, as (offset, byte). -/
def lanes (w : Word) (be : BitVec 4) : List (Nat × Byte) :=
  ((List.range 4).filter (fun k => be.getLsbD k)).map (fun k => (k, BitVec.ofNat 8 (bitsOf w (8 * k + 7) (8 * k))))

/-- An engine's store to cached memory goes into its D-cache, write-allocate; a full cache gives up a line, which one is free, and
writes it back when dirty (R352, R360). -/
def State.cacheStore (s : State) (e : Nat) (dram : Bool) (a : Nat) (w : Word) (be : BitVec 4) : State :=
  let l := a - a % 64
  let put := fun (x : CacheLine) => { x with dirty := true, bytes := (lanes w be).foldl (fun bs y => bs.set (a % 64 + y.1) y.2) x.bytes }
  if (s.eng e).dcache.any (fun x => x.dram == dram && x.addr == l) then
    s.onEng e (fun y => { y with dcache := y.dcache.map (fun (x : CacheLine) => if x.dram == dram && x.addr == l then put x else x) })
  else
    let s1 := if (s.eng e).dcache.length < 512 then s
      else s.draw (fun i t =>
        match (t.eng e).dcache[Config.freeNat i % 512]? with
        | some x => (if x.dirty then t.lineBack x else t).dropLines e (fun y => y == x)
        | none => t)
    let bytes := if dram then Mem.bytes s1.dram l 64 else Mem.bytes s1.shared l 64
    s1.onEng e (fun y => { y with dcache := y.dcache ++ [put { dram := dram, addr := l, dirty := true, bytes := bytes }] })

/-- The PCI Express requester's command registers behind an offset of the table command window (R433). -/
def windowReg (o : Nat) : Option Nat :=
  if o < 0x14 then some (C13.tblKey (o / 4))
  else if o < 0x20 then some (C13.tblRes ((o - 0x14) / 4))
  else if o = 0x20 then some C13.tblCursor
  else if o = 0x3C then some C13.tblCmd
  else if 0x40 ≤ o ∧ o < 0x50 then some (C14.lpmAddr ((o - 0x40) / 4))
  else if o = 0x50 then some C14.lpmNh
  else if o = 0x7C then some C14.lpmCmd
  else none

/-- A dword with partial byte enables is discarded and recorded (R434). -/
def State.hpPartial (s : State) (a : Nat) : State := s.err C8.page 0x0100 (BitVec.ofNat 32 a)

/-- A write of a word into BAR2 (R432). The DRAM window's write is a DRAM access of the host, in which the ECC finds nothing. -/
def State.bar2Write (s : State) (o : Nat) (w : Word) (be : BitVec 4) : State :=
  if o < 0x800000 then (lanes w be).foldl (fun (t : State) y => t.sharedWrite (o + y.1) [y.2]) s
  else if o < 0xC00000 then
    let e := (o - 0x800000) / 0x40000
    s.onEng e (fun x => { x with sram := (lanes w be).foldl (fun (m : Mem) y => m.setByte (o % 0x40000 + y.1) y.2) x.sram })
  else if o < 0xC40000 then
    { s with esram := (lanes w be).foldl (fun (m : Mem) y => m.setByte (o - 0xC00000 + y.1) y.2) s.esram }
  else if o < 0x1000000 then s
  else if o < 0x1001000 then
    if be ≠ 0xF then s.hpPartial (2 ^ 31 + o)
    else match windowReg (o - 0x1000000) with
      | some a => s.writeReg .pcie a w
      | none => s
  else if 0x8000000 ≤ o then
    let a := s.fld C8.dramWin 6 0 * 0x8000000 + (o - 0x8000000)
    let one := fun (t : State) (x : Nat) (bs : List Byte) =>
      run t (execDramAccess 4 0 x bs.length (some bs) false { corrected := [], failed := none, extra := 0 } t)
    if be = 0xF then one s a ((lanes w be).map Prod.snd) else (lanes w be).foldl (fun t y => one t (a + y.1) [y.2]) s
  else s

/-- A write of a word of the MSI-X table in BAR4 (R431, R436): message address, data and vector control. Bit 0 of vector control
masks the vector; unmasking it sends a message that is pending. -/
def State.bar4Write (s : State) (o : Nat) (w : Word) : State :=
  if 0x400 ≤ o then s
  else if o % 16 = 12 then
    let v : Fin 64 := fin 64 (o / 16)
    if bitOf w 0 then { s with msix := { s.msix with mask := s.msix.mask ||| BitVec.ofNat 64 (2 ^ v.val) } }
    else run s (execMsixVectorUnmask v s)
  else s.wr (bar4 + o) w

/-- An engine's store to a memory: shared SRAM and DRAM through its D-cache, its own local SRAM directly (R352). -/
def State.engineStore (s : State) (e : Nat) (a : Nat) (w : Word) (be : BitVec 4) : State :=
  if engDram ≤ a then s.cacheStore e true (a - engDram) w be
  else if a - bar2 < 0x800000 then s.cacheStore e false (a - bar2) w be
  else if (a - bar2 - 0x800000) / 0x40000 = e then s.bar2Write (a - bar2) w be
  else s

/-- A write at a model offset beyond BAR0, by the host over PCI Express or by an engine; others reach none of them. -/
def State.memWrite (s : State) (r : Requester) (a : Nat) (w : Word) (be : BitVec 4) : State :=
  if !s.powered .c then s
  else match r with
    | .pcie => if a < bar4 then s.bar2Write (a - bar2) w be else if a < bar4 + 0x4000 then s.bar4Write (a - bar4) w else s
    | .engine n => if bar4 ≤ a ∧ a < engDram then s else s.engineStore n.val a w be
    | _ => s

/-! ## The rows -/

/-- The word an offset lies in; a read returns the whole of it (R434). -/
def wordAt (a : Nat) : Nat := a - a % 4

/-- BAR0 takes only whole, aligned dwords (R434). Any other write is discarded; over PCI Express, where it is a dword with partial byte
enables, it is recorded as HP_PARTIAL wherever in BAR0 it falls, a reserved offset and an absent die's window not excepted
(DESIGN CHOICE, log 91). -/
def State.partialWrite (s : State) (r : Requester) (a : Nat) : State :=
  if r = .pcie ∧ s.powered .c = true then s.hpPartial a else s

/-- REGISTER_WRITE: a write by its access code, legal range and staging state (R8); a dword that is not whole is discarded (R434). -/
def execRegisterWrite (r : Requester) (a : Nat) (w : Word) (be : BitVec 4) (s : State) : Host.Outcome State Fault Refusal :=
  if bar2 ≤ a then .next (s.memWrite r (wordAt a) w be)
  else if 0x4000000 ≤ a then .fault .badOffset
  else if a % 4 ≠ 0 ∨ (r = .pcie ∧ be ≠ 0xF) then .next (s.partialWrite r a)
  else .next (s.writeReg r a w)

/-- STAGED_WRITE: a write under a non-zero tag; it is the write of the register, staged by R57. -/
def execStagedWrite (r : Requester) (a : Nat) (w : Word) (s : State) : Host.Outcome State Fault Refusal :=
  if 0x4000000 ≤ a then .fault .badOffset else .next (if a % 4 = 0 then s.writeReg r a w else s.partialWrite r a)

/-- A write of a header register reaches its page, or ends as R39 and R443 say. -/
def State.headerCmd (s : State) (r : Requester) (a : Nat) (act : State → State) : State :=
  if !s.reachable a then s.accessOff a else if !s.pathOk r a then s else act s

/-- INT_STAT_CLEAR (R40, R41). -/
def execIntStatClear (r : Requester) (page : Nat) (w coincide : Word) (s : State) : Host.Outcome State Fault Refusal :=
  .next (s.headerCmd r (HDR.intStat page) (fun t => (t.nonTrans r (HDR.intStat page)).intClear page w coincide))

/-- INT_SET (R40). -/
def execIntSet (r : Requester) (page : Nat) (w : Word) (s : State) : Host.Outcome State Fault Refusal :=
  .next (s.headerCmd r (HDR.intSet page) (fun t => (t.nonTrans r (HDR.intSet page)).raiseBits page w))

/-- SOFT_RESET: a write of PAGE_CTRL with bit 1 set; its other bits are written with it (R40). -/
def execSoftReset (r : Requester) (page : Nat) (w : Word) (s : State) : Host.Outcome State Fault Refusal :=
  .next (s.headerCmd r (HDR.pageCtrl page) (fun t => (t.nonTrans r (HDR.pageCtrl page)).pageCtrl page (putBit w 1 true)))

/-- DIE_ROLE_WRITE (R113, R126). -/
def execDieRoleWrite (r : Requester) (w : Word) (s : State) : Host.Outcome State Fault Refusal := .next (s.writeReg r E1.dieRole w)

/-- SG_CHAN_WRITE: CHAN_SEL, or CHAN0_KHZ (R151). -/
def execSgChanWrite (r : Requester) (sel : Bool) (w : Word) (s : State) : Host.Outcome State Fault Refusal :=
  .next (s.writeReg r (if sel then E3.chanSel else E3.chan0Khz) w)

/-- PART_CHAN_WRITE (R209). -/
def execPartChanWrite (r : Requester) (d : Fin 6) (w : Word) (s : State) : Host.Outcome State Fault Refusal :=
  .next (s.writeReg r (D4.partChan d.val) w)

/-- LINK_CFG_ENABLE (R294). -/
def execLinkCfgEnable (r : Requester) (l : Fin 8) (w : Word) (s : State) : Host.Outcome State Fault Refusal :=
  .next (s.writeReg r (C17.linkCfg l.val) (putBit w 31 true))

/-- XBL_KEY_SEL_WRITE (R312). -/
def execXblKeySelWrite (r : Requester) (l : Fin 8) (w : Word) (s : State) : Host.Outcome State Fault Refusal :=
  .next (s.writeReg r (C17.keySel l.val) w)

/-- SFP_I2C_ACCESS (R448). -/
def execSfpI2cAccess (r : Requester) (q : Fin 2) (w : Word) (s : State) : Host.Outcome State Fault Refusal :=
  .next (s.writeReg r (C9.sfpI2c q.val) w)

/-- LEVEL_WRITE: a guarded LEVEL write applies a lamp level, or is discarded as FS_ACTIVE (R467, R470). -/
def execLevelWrite (r : Requester) (o : Fin 6) (w : Word) (s : State) : Host.Outcome State Fault Refusal :=
  .next (s.writeReg r (E7.level o.val) w)

end Sys2Proof.Machine
end

