-- ==== Sys2Proof/Machine/RegRead.lean ====
section
/-!
DEFINITION. A register read by any requester: what it returns, the values that are formed at the read, what a read clears, and the
rows that are reads (R8, R39 to R42, R48 to R53, R63, R67, R482).
-/
namespace Sys2Proof.Machine

/-! ## The page header (R40, R48, R56, R63) -/

/-- A clamp record that a requester has frozen on a page by its read of CLAMP_FIELD. -/
def State.frozen (s : State) (r : Requester) (p : Nat) : Option ClampFreeze :=
  s.logs.freezes.find? (fun (f : ClampFreeze) => f.req == r && f.page == p)

/-- PAGE_STAT but for READY and BUSY: FAULT, POWERED, CLAMP_PEND, GUARD_PEND. -/
def State.pageStat (s : State) (p : Nat) : Word :=
  BitVec.ofNat 32 (b2n (s.fld (HDR.errCode p) 23 16 != 0) * 4 + 8 + b2n (s.rd (HDR.clampCount p) != 0) * 16 + b2n (s.bit (HDR.guardFail p) 31) * 32)

/-- The header TXN_STAT: the status of the group that TXN_TAG names. A tag of an earlier generation of its slot names none (R55, R63). -/
def State.tagStat (s : State) (tag : Nat) : Word :=
  let n := tagSlot tag
  if tag ≠ 0 ∧ (s.group n).gen = tag % 256 then (s.group n).stat n else 0

/-- A page that reads 0 throughout, its header too: page 7 of a radio die that is not in the backhaul role, and a subordinate's TXU
page (R38, R67). -/
def State.zeroPage (s : State) (a : Nat) : Bool :=
  (decide (3 ≤ winOf a) && decide (winOf a ≤ 8) && pageNo a == 7 && s.roleN (winOf a - 3) != .backhaul) ||
    (pageOf a == C1.page && !s.isMaster)

/-- A register of the common header as a requester reads it. -/
def State.headerView (s : State) (r : Requester) (p o : Nat) : Word :=
  if o = 0x00 then BitVec.ofNat 32 (s.ownPart * 2 ^ 24 + winCode (winOf p) * 2 ^ 16 + pageNo p * 2 ^ 8)
  else if o = 0x08 then s.pageStat p
  else if o = 0x18 then s.intStat p
  else if o = 0x1C then 0
  else if o = 0x2C then (match s.frozen r p with
    | some f => f.wrote
    | none => s.rd (HDR.clampWrote p))
  else if o = 0x30 then (match s.frozen r p with
    | some f => f.applied
    | none => s.rd (HDR.clampApplied p))
  else if o = 0x40 then BitVec.ofNat 32 (s.tagOf r p)
  else if o = 0x44 then s.tagStat (s.tagOf r p)
  else s.rd (p + o)

/-! ## Registers that show what the device holds -/

/-- Registers of one stride whose value is formed at the read. -/
structure View where
  base : Nat
  stride : Nat
  count : Nat
  val : State → Requester → Nat → Word

/-- The view of an offset. -/
def viewFor (l : List View) (a : Nat) : Option (State → Requester → Word) :=
  (l.find? (fun v => decide (v.base ≤ a) && decide (a < v.base + v.stride * v.count) && (a - v.base) % v.stride == 0)).map
    (fun v s r => v.val s r ((a - v.base) / v.stride))

/-- DEV_ID of a part (R1, R53). -/
def Part.id : Part → Nat
  | .px9602 => 0x9602 | .px9604 => 0x9604 | .px9606 => 0x9606 | .px9608 => 0x9608

/-- Pages of a window, 0 to 31 or 32 to 63, with an interrupt (R52). -/
def State.dieInt (s : State) (w k : Nat) : Word :=
  BitVec.ofNat 32 (((winPages w).filter (fun p => pageNo p / 32 == k && s.intStat p != 0)).foldl (fun n p => n + 2 ^ (pageNo p % 32)) 0)

/-- GLB_INT: bit 8 the global page, the others by die (R50, R53). -/
def State.glbInt (s : State) : Word :=
  BitVec.ofNat 32 ((List.range 8).foldl (fun n w =>
    if s.winOn (w + 1) && (winPages (w + 1)).any (fun p => s.intStat p != 0) then n + 2 ^ w else n)
    (if s.intStat GLB.page = 0 then 0 else 256))

/-- The part's summary interrupt (R53). -/
def State.summaryInt (s : State) : Bool := s.glbInt &&& s.rd GLB.glbIntEn != 0

/-- WAKE_N is asserted: an interrupt of a die E page enabled in WAKE_EN, or a WAKE_CAUSE (R444). -/
def State.wakeN (s : State) : Bool :=
  s.power.phase == .done && (s.rd E9.wakeCause != 0 || s.dieInt 2 0 &&& s.rd (DC.wakeEn 0x800000) != 0)

/-- Global registers whose value is formed at the read (R49, R53, R455). -/
def viewsG : List View :=
  [⟨GLB.devId, 4, 1, fun s _ _ => BitVec.ofNat 32 s.part.id⟩,
   ⟨GLB.diePresent, 4, 1, fun s _ _ => BitVec.ofNat 32 (allDies.foldl (fun n d => if s.fitted d then n + 2 ^ (dieIdx d).val else n) 0)⟩,
   ⟨GLB.glbInt, 4, 1, fun s _ _ => s.glbInt⟩,
   ⟨GLB.clampLogCnt, 4, 1, fun s _ _ => BitVec.ofNat 32 s.logs.clamps.length⟩,
   ⟨GLB.straps, 4, 1, fun s _ _ => BitVec.ofNat 32 (b2n s.straps.master + s.straps.part % 4 * 2)⟩,
   ⟨GLB.clampLog 0 0, 4, 256, fun s _ i => (s.logs.clamps.getD (i / 4) []).getD (i % 4) 0⟩]

/-- The registers of a group slot (R63, R68). -/
def State.slotView (s : State) (i : Nat) : Word :=
  let n := tagSlot (i / 8 * 256)
  let g := s.group n
  match i % 8 with
  | 0 => g.stat n
  | 1 => g.info
  | 2 => g.counts
  | 3 => BitVec.ofNat 32 g.tS
  | 4 => BitVec.ofNat 32 g.tNs
  | 5 => BitVec.ofNat 32 g.appS
  | 6 => BitVec.ofNat 32 g.appNs
  | _ => 0

/-- Registers of die C whose value is formed at the read. -/
def viewsC : List View :=
  [⟨C1.txnOpened, 4, 1, fun s r _ => (s.txuPort r).opened⟩,
   ⟨C1.txnAtimeS, 4, 1, fun s r _ => (s.txuPort r).atimeS⟩,
   ⟨C1.txnAtimeNs, 4, 1, fun s r _ => (s.txuPort r).atimeNs⟩,
   ⟨C1.txnOpenCnt, 4, 1, fun s _ _ => BitVec.ofNat 32 s.openCount⟩,
   ⟨C1.txnStat 0, 4, 128, fun s _ i => s.slotView i⟩,
   ⟨C2.freqAdj, 4, 1, fun s _ _ => BitVec.ofInt 32 s.freqAdj⟩,
   ⟨C2.holdAge, 4, 1, fun s _ _ => BitVec.ofNat 32 (s.holdAge true)⟩,
   ⟨C6.pipeLoad 0, 0x10, 8, fun s _ p => BitVec.ofNat 32 (s.pipeLoad p)⟩,
   ⟨C9.bypStat, 4, 1, fun s _ _ => BitVec.ofNat 32 (putFld (s.rd C9.bypStat) 31 16 s.bypSince).toNat⟩,
   ⟨C9.rxBytesHi 0, 0x40, 3, fun s _ q => (Sparse.find s.hport.high (C9.rxBytesHi q)).getD 0⟩,
   ⟨C9.txBytesHi 0, 0x40, 3, fun s _ q => (Sparse.find s.hport.high (C9.txBytesHi q)).getD 0⟩,
   ⟨C10.cascStat, 4, 1, fun s _ _ => s.cascStat⟩,
   ⟨C11.evtHead, 4, 1, fun s _ _ => BitVec.ofNat 32 (s.logs.head + s.logs.events.length * 2 ^ 16)⟩,
   ⟨C11.health, 4, 1, fun s _ _ => s.health⟩,
   ⟨C12.learnCount 0, 0x10, 27, fun s _ q => BitVec.ofNat 32 (s.learnCount q)⟩,
   ⟨C13.tblStatus, 4, 11, fun s r i => s.rdReq r (C13.tblStatus + 4 * i)⟩,
   ⟨C13.tblUse, 4, 1, fun s _ _ => s.tblUse⟩,
   ⟨C14.lpmStatus, 4, 6, fun s r i => s.rdReq r (C14.lpmStatus + 4 * i)⟩,
   ⟨C14.lpmUse, 4, 1, fun s _ _ => BitVec.ofNat 32 s.fwd.lpm.prefixes.length⟩,
   ⟨C14.nodeUse 0, 4, 6, fun s _ k => s.nodeUseReg k⟩,
   ⟨C15.cellFree, 4, 1, fun s _ _ => BitVec.ofNat 32 s.cellFree⟩,
   ⟨C15.spillUse, 4, 1, fun s _ _ => BitVec.ofNat 32 s.spillUse⟩,
   ⟨C16.staTotal, 4, 1, fun s _ _ => BitVec.ofNat 32 s.staTotal⟩,
   ⟨C16.staCnt 0, 0x40, 6, fun s _ p => BitVec.ofNat 32 (s.staCount p)⟩,
   ⟨C16.schedStat 0, 0x40, 6, fun s _ p => putFld (s.rd (C16.schedStat p)) 2 0 (s.schedState p)⟩,
   ⟨C17.seqStat 0, 0x80, 8, fun s _ l => putFld (s.rd (C17.seqStat l)) 23 0 (s.link l).next⟩,
   ⟨C17.inflight 0, 0x80, 8, fun s _ l => BitVec.ofNat 32 (s.link l).store.length⟩]

/-- Registers of die E whose value is formed at the read. While die C runs, die E's time registers show the NTU's (R509). -/
def viewsE : List View :=
  [⟨E4.graceLeft, 4, 1, fun s _ _ => BitVec.ofNat 32 s.graceLeft⟩,
   ⟨E7.wdtLeft, 4, 1, fun s _ _ => BitVec.ofNat 32 s.wdtLeft⟩,
   ⟨E7.dqStat 0, 0x20, 2, fun s _ c => BitVec.ofNat 32 ((s.dali c).queue.length + (s.dali c).results.length * 256)⟩,
   ⟨E7.dqRes 0, 0x20, 2, fun s _ c => (s.dali c).results.headD 0⟩,
   ⟨E8.timeQual, 4, 1, fun s _ _ => if s.cTime then s.rd C2.timeQual else s.rd E8.timeQual⟩,
   ⟨E8.stepOfsS, 4, 1, fun s _ _ => if s.cTime then s.rd C2.stepOfsS else s.rd E8.stepOfsS⟩,
   ⟨E8.stepOfsNs, 4, 1, fun s _ _ => if s.cTime then s.rd C2.stepOfsNs else s.rd E8.stepOfsNs⟩,
   ⟨E8.holdAge, 4, 1, fun s _ _ => BitVec.ofNat 32 (s.holdAge s.cTime)⟩,
   ⟨E9.wakeStat, 4, 1, fun s _ _ => BitVec.ofNat 32 (b2n s.wakeN)⟩]

/-- The views of a window; DIE_INT stands on every die control page (R52). -/
def viewsOf (w : Nat) : List View :=
  let own := if w = 0 then viewsG else if w = 1 then viewsC else if w = 2 then viewsE else []
  if w = 0 then own else ⟨DC.dieIntLo (w * 0x400000), 4, 2, fun s _ k => s.dieInt w k⟩ :: own

/-- PART_STAT: on a member die the partition's status, which its lead die shows, and MEMBER (R202, R230). -/
def State.partStatView (s : State) (a : Nat) : Word :=
  match s.memberPage a with
  | some l => putBit (s.rd (D4.partStat l)) 7 true
  | none => s.rd a

/-- What a block register holds for a requester, whatever its access code. -/
def State.blockValue (s : State) (r : Requester) (a : Nat) : Word :=
  match viewFor (viewsOf (winOf a)) a with
  | some f => f s r
  | none => if a % 0x400000 = D4.partStat 0 % 0x400000 then s.partStatView a else s.rd a

/-- The page that answers for a register: a writable register of pages 2 to 5 of a member die shows the lead's (R201). -/
def State.shownAt (s : State) (a : Nat) : Nat :=
  match s.memberPage a, s.spec a with
  | some l, some g => if g.acc = .ro ∨ g.acc = .rc then a else dWin l + a % 0x400000
  | _, _ => a

/-- A block register as a requester reads it (R8). -/
def State.blockView (s : State) (r : Requester) (a : Nat) : Word :=
  match s.spec a with
  | none => 0
  | some g =>
    match g.acc with
    | .wo => 0
    | .wg => guardRead (bitsOf (s.blockValue r (s.shownAt a)) 15 0)
    | _ => s.blockValue r (s.shownAt a)

/-- Bits of a register that show what the block does or measures at the read, which no rule fixes: READY and BUSY of PAGE_STAT, a
subordinate's summary interrupt, a PTP port's state, a measured level, a detector, and a part of a register the spec leaves open. -/
def State.openBits (s : State) (a : Nat) : Nat :=
  if s.zeroPage a then 0
  else if a % 0x10000 = 8 then 3
  else if a = C10.cascInt then
    (if s.isMaster then (List.range 4).foldl (fun n i => if i ≠ 0 ∧ s.reach i = true then n + 2 ^ i else n) 0 else 0)
  else if C2.ptpPstate 0 ≤ a ∧ a < C2.ptpPstate 3 ∧ (a - C2.ptpPstate 0) % 0x40 = 0 then
    (if s.cRuns && s.fld (C2.ptpCfg ((a - C2.ptpPstate 0) / 0x40)) 1 0 != 0 then 0xF else 0)
  else if a = E3.rssiNow then (if s.fld E3.rfState 3 0 = 0 then 0 else 2 ^ 32 - 1)
  else if 3 ≤ winOf a && winOf a ≤ 8 && s.roleN (winOf a - 3) == .backhaul && decide (D6B.headDet (winOf a - 3) 0 ≤ a) &&
      decide (a < D6B.headDet (winOf a - 3) 16) then 0xFFFF
  else 0

/-! ## One read -/

/-- The word a reachable read finds, before what is open in it. -/
def State.viewAt (s : State) (r : Requester) (a : Nat) : Word :=
  if s.zeroPage a then 0
  else if a % 0x10000 < 0x100 then s.headerView r (pageOf a) (a % 0x10000) else s.blockView r a

/-- A read of CLAMP_FIELD freezes the record beside it for the requester (R48). -/
def State.freezeClamp (s : State) (r : Requester) (p : Nat) : State :=
  let f : ClampFreeze := { req := r, page := p, wrote := s.rd (HDR.clampWrote p), applied := s.rd (HDR.clampApplied p) }
  { s with logs := { s.logs with freezes := f :: s.logs.freezes.filter (fun (x : ClampFreeze) => !(x.req == r && x.page == p)) } }

/-- The engine whose ENG_BUSY stands at an offset. -/
def busyReg (a : Nat) : Option Nat :=
  if C4.engBusy 0 ≤ a ∧ a < C4.engBusy 16 ∧ (a - C4.engBusy 0) % 0x10 = 0 then some ((a - C4.engBusy 0) / 0x10) else none

/-- The low word of a byte counter at an offset, with its high word (R447). -/
def byteReg (a : Nat) : Option Nat :=
  if C9.rxBytesLo 0 ≤ a ∧ a < C9.rxBytesLo 3 ∧ (a - C9.rxBytesLo 0) % 0x40 = 0 then some (a + 4)
  else if C9.txBytesLo 0 ≤ a ∧ a < C9.txBytesLo 3 ∧ (a - C9.txBytesLo 0) % 0x40 = 0 then some (a + 4)
  else none

/-- What every read of a register does beside returning it: ENG_BUSY is brought up to date, CLAMP_FIELD freezes its record, and the low
word of a byte counter latches its high word (R48, R377, R447). -/
def State.readTouch (s : State) (r : Requester) (a : Nat) : State :=
  if a % 0x10000 = 0x28 then s.freezeClamp r (pageOf a)
  else match busyReg a, byteReg a with
    | some e, _ => s.engSync e
    | none, some h => { s with hport := { s.hport with high := Sparse.put 0 s.hport.high h (s.rd h) } }
    | none, none => s

/-- A read that has reached its page: the word, and the state after what the read itself does. -/
def State.pageRead (s : State) (r : Requester) (a : Nat) : Word × State :=
  let t := s.readTouch r a
  let v := t.viewAt r a
  if t.openBits a = 0 then (v, t)
  else
    let m : Word := BitVec.ofNat 32 (t.openBits a)
    ((v &&& ~~~ m) ||| (Config.freeWord t.fresh &&& m), { t with fresh := t.fresh + 1 })

/-- A read of one word at a BAR0 offset (R4, R37, R39, R122, R443, R458). A read through the cascade window finds `far` on the
subordinate part. -/
def State.readWord (s : State) (r : Requester) (a : Nat) (far : Word) : Word × State :=
  if 0x3000000 ≤ a then
    (if r = .casc then (0, s)
     else
       let t := s.cascAccess (a - 0x3000000) none (.plain far)
       (t.resp.headD 0, { t with resp := s.resp }))
  else if 0x2400000 ≤ a then (0, s)
  else if !s.reachable a then (0, s.accessOff a)
  else if !s.pathOk r a then (0, s)
  else s.pageRead r a

/-! ## What a read clears (R8, R42, R48, R55, R475) -/

/-- A read of ERR_CODE clears ERR_CODE and ERR_INFO together (R42), and HEALTH.FAULT with the last of them (R488). -/
def State.clearErr (s : State) (p : Nat) : State := s.healthStep (s.wrs [(HDR.errCode p, 0), (HDR.errInfo p, 0)])

/-- A read of CLAMP_COUNT clears it and CLAMP_FIELD.VALID, and releases the requester's frozen record (R40, R48). -/
def State.clearClamp (s : State) (r : Requester) (p : Nat) : State :=
  let s1 := (s.wr (HDR.clampCount p) 0).setBit (HDR.clampField p) 31 false
  { s1 with logs := { s1.logs with freezes := s1.logs.freezes.filter (fun (x : ClampFreeze) => !(x.req == r && x.page == p)) } }

/-- The DALI channel whose DQ_RES stands at an offset. -/
def dqResReg (a : Nat) : Option Nat := if a = E7.dqRes 0 then some 0 else if a = E7.dqRes 1 then some 1 else none

/-- A block register that a read clears: to its reset value, or by its own rule. -/
def State.clearBlock (s : State) (r : Requester) (a : Nat) : State :=
  if a = C1.txnOpened then s.setTxuPort { s.txuPort r with opened := 0 }
  else if C7.chStat 0 ≤ a ∧ a < C7.chStat 4 ∧ (a - C7.chStat 0) % 0x10 = 0 then s.setFld a 7 4 0
  else match dqResReg a with
    | some c => { s.dqResRead c with resp := s.resp }
    | none => match s.spec a with
      | some g => if g.acc = .rc then s.healthStep (s.wr a (BitVec.ofNat 32 g.reset)) else s
      | none => s

/-- What the read of a reachable register clears. -/
def State.clearAt (s : State) (r : Requester) (a : Nat) : State :=
  let o := a % 0x10000
  if o = 0x20 then s.clearErr (pageOf a)
  else if o = 0x34 then s.clearClamp r (pageOf a)
  else if o = 0x38 then s.wr a 0
  else if o < 0x100 then s
  else s.clearBlock r a

/-- What a read clears, where it reaches a register. -/
def State.readClear (s : State) (r : Requester) (a : Nat) : State :=
  if a < 0x2400000 && s.reachable a && s.pathOk r a then s.clearAt r a else s

/-- A read of one word that clears what it reads. What a subordinate part holds behind the cascade window is free here. -/
def State.readFull (s : State) (r : Requester) (a : Nat) : State :=
  if 0x3000000 ≤ a then
    s.draw (fun i t => (t.readWord r a (Config.freeWord i)).2.answer [(t.readWord r a (Config.freeWord i)).1])
  else
    let x := s.readWord r a 0
    (x.2.readClear r a).answer [x.1]

/-! ## The rows -/

/-- ACCESS_OFF: a read of an unpowered window returns 0, a write is discarded; the error names the offset (R39). A window that can be
reached is not touched by this command, nor one of no die: a read of it returns 0 (R9). -/
def execAccessOff (_r : Requester) (a : Nat) (write : Bool) (s : State) : Host.Outcome State Fault Refusal :=
  if 0x4000000 ≤ a then .fault .badOffset
  else if 0x2400000 ≤ a then .next (if write then s else s.answer [0])
  else if s.reachable a then .next s
  else .next (if write then s.accessOff a else (s.accessOff a).answer [0])

/-- ERR_CODE_READ (R42). -/
def execErrCodeRead (r : Requester) (page : Nat) (s : State) : Host.Outcome State Fault Refusal := .next (s.readFull r (HDR.errCode page))

/-- CLAMP_FIELD_READ (R48). -/
def execClampFieldRead (r : Requester) (page : Nat) (s : State) : Host.Outcome State Fault Refusal := .next (s.readFull r (HDR.clampField page))

/-- CLAMP_COUNT_READ (R48). -/
def execClampCountRead (r : Requester) (page : Nat) (s : State) : Host.Outcome State Fault Refusal := .next (s.readFull r (HDR.clampCount page))

/-- GUARD_FAIL_READ (R40). -/
def execGuardFailRead (r : Requester) (page : Nat) (s : State) : Host.Outcome State Fault Refusal := .next (s.readFull r (HDR.guardFail page))

/-- A read-clear register that holds a count or event bits, as against one that a requester or a queue feeds. -/
def State.countsAt (s : State) (a : Nat) : Bool :=
  a % 0x10000 ≥ 0x100 && a != C1.txnOpened && (dqResReg a).isNone && (match s.spec a with
    | some g => g.acc == .rc
    | none => false)

/-- RC_COUNTER_READ: the value is returned and cleared to its reset value; what the events of the same cycle count, `coincide`, is the
value that follows the read (R482). -/
def execRcCounterRead (r : Requester) (a : Nat) (coincide : Word) (s : State) : Host.Outcome State Fault Refusal :=
  if 0x4000000 ≤ a then .fault .badOffset
  else
    let o := wordAt a
    let t := s.readFull r o
    if s.countsAt o && s.reachable o && s.pathOk r o then .next (if coincide = 0 then t else t.wr o coincide) else .next t

end Sys2Proof.Machine
end

