-- ==== Sys2Proof/Machine/Serial.lean ====
section
/-!
DEFINITION. The SPI target port on die E: its transactions, their CRC and status, and what they read, clear and write (R439 to R443,
R465).
-/
namespace Sys2Proof.Machine

/-- One bit of the CRC-16, most significant first (R439). -/
def crc16Bit (c : Nat) (b : Bool) : Nat :=
  let x := c * 2 % 65536
  if xor (decide (32768 ≤ c)) b then (BitVec.ofNat 16 x ^^^ (0x1021 : BitVec 16)).toNat else x

/-- One byte of the CRC-16. -/
def crc16Byte (c : Nat) (b : Byte) : Nat := [7, 6, 5, 4, 3, 2, 1, 0].foldl (fun c k => crc16Bit c (b.getLsbD k)) c

/-- CRC-16 with polynomial 0x1021 and initial value 0xFFFF (R439). -/
def crc16 (bs : List Byte) : Nat := bs.foldl crc16Byte 0xFFFF

/-- A 32-bit value, most significant byte first. -/
def spiWordBytes (v : Nat) : List Byte := [24, 16, 8, 0].map (fun k => BitVec.ofNat 8 (v / 2 ^ k))

/-- The bytes before the host's CRC: OP, offset, word count minus 1, and a WRITE's words (R440). -/
def spiHeader (op : Byte) (a n : Nat) (ws : List Word) : List Byte :=
  op :: spiWordBytes a ++ [BitVec.ofNat 8 (n - 1)] ++ ws.flatMap (fun w => spiWordBytes w.toNat)

/-- STATUS of a transaction of `n` words (R440): 0 OK, 1 CRC_BAD, 2 FORMAT. -/
def spiStatus (opOk : Bool) (bytes : List Byte) (crc : Half) (a n : Nat) : Nat :=
  if crc16 bytes ≠ crc.toNat then 1
  else if !opOk || a % 4 ≠ 0 || decide (0x10000 < a % 0x10000 + 4 * n) then 2
  else 0

/-- The reset sequence has ended, so that the port answers; until then SPI_MISO stays high-impedance (R108, R439, R465). -/
def State.spiUp (s : State) : Bool := s.power.phase == .done

/-- The end of a transaction: SPI_STAT, SPI_ERR, and the answer (R440, R465). -/
def State.spiEnd (s : State) (status : Nat) (ws : List Word) : State :=
  let s1 := if status = 1 then s.bump E9.spiErr 15 0 1 else if status = 2 then s.bump E9.spiErr 31 16 1 else s
  let head : List Byte := [BitVec.ofNat 8 status, BitVec.ofNat 8 (255 - status)]
  let body := head ++ ws.flatMap (fun w => spiWordBytes w.toNat)
  let c := crc16 body
  let out := if ws.isEmpty then head else body ++ [BitVec.ofNat 8 (c / 256), BitVec.ofNat 8 c]
  ((s1.wr E9.spiStat (BitVec.ofNat 32 status)).answer ws).emit (.spi out)

/-- Words read at ascending offsets. A word shown by a subordinate part through the cascade window is free. -/
def State.spiWords (s : State) (a : Nat) : Nat → List Word × State
  | 0 => ([], s)
  | n + 1 =>
    let x := if 0x4000000 ≤ a then ((0 : Word), s)
      else if 0x3000000 ≤ a then ({ s with fresh := s.fresh + 1 }).readWord .spi a (Config.freeWord s.fresh)
      else s.readWord .spi a 0
    let y := x.2.spiWords (a + 4) n
    (x.1 :: y.1, y.2)

/-- Registers cleared after a READ_CLR of `n` words (R442). -/
def State.spiClears (s : State) (a : Nat) : Nat → State
  | 0 => s
  | n + 1 => (s.readClear .spi a).spiClears (a + 4) n

/-- Words written at ascending offsets (R440). -/
def State.spiWrites (s : State) (a : Nat) : List Word → State
  | [] => s
  | w :: t => (if 0x4000000 ≤ a then s else s.writeReg .spi a w).spiWrites (a + 4) t

/-- SPI_WRITE: the words are written once the CRC has passed (R440, R442). -/
def execSpiWrite (a : Nat) (ws : List Word) (crc : Half) (s : State) : Host.Outcome State Fault Refusal :=
  if !s.spiUp then .next s
  else
    let st := spiStatus true (spiHeader 0x02 a ws.length ws) crc a ws.length
    .next ((if st = 0 then s.spiWrites a ws else s).spiEnd st [])

/-- SPI_READ: `n + 1` words as they stand; an undefined OP is a FORMAT error (R440, R442). -/
def execSpiRead (op : Byte) (a : Nat) (n : Fin 64) (crc : Half) (s : State) : Host.Outcome State Fault Refusal :=
  if !s.spiUp then .next s
  else
    let st := spiStatus (op == 0x03) (spiHeader op a (n.val + 1) []) crc a (n.val + 1)
    if st = 0 then
      let x := s.spiWords a (n.val + 1)
      .next (x.2.spiEnd st x.1)
    else .next (s.spiEnd st [])

/-- SPI_READ_CLR: as READ, and what is read-clear is cleared when the host has clocked out every data byte and the final CRC (R442). -/
def execSpiReadClr (a : Nat) (n : Fin 64) (crc : Half) (complete : Bool) (s : State) : Host.Outcome State Fault Refusal :=
  if !s.spiUp then .next s
  else
    let st := spiStatus true (spiHeader 0x0B a (n.val + 1) []) crc a (n.val + 1)
    if st = 0 then
      let x := s.spiWords a (n.val + 1)
      .next ((if complete then x.2.spiClears a (n.val + 1) else x.2).spiEnd st x.1)
    else .next (s.spiEnd st [])

end Sys2Proof.Machine
end

