-- ==== Sys2Proof/Machine/Txn.lean ====
section
/-!
DEFINITION. The commit of a group across its dies: PREP, ARMED, the vote, CANCEL, the close, and the application at T (R27 to R32,
R57, R62, R65, R66, R335, R460, R470). On a subordinate part of a cascade a slot holds the share of a group of the master's.
-/
namespace Sys2Proof.Machine

/-! ## Shares -/

/-- A share of a subordinate is withdrawn: INT_RAW.TXN on its pages, and its shadows freed (R40, R458). -/
def State.dropShare (s : State) (n : Fin 16) : State :=
  let g := s.group n
  (g.pages.foldl (fun (t : State) p => if t.reachable p then t.raise p 29 else t) s).setGroup n { Group.empty with gen := g.gen }

/-- A group fails: it aborts at the master's TXU; a subordinate withdraws its share. -/
def State.failGroup (s : State) (n : Fin 16) (reason : Nat) (info : Word) : State :=
  if s.isMaster then s.abortGroup n reason info else s.dropShare n

/-- The writes of a share on one die of this part. -/
def Group.share (g : Group) (d : Die) : List StagedWrite := g.writes.filter (fun w => w.owner == (0, d))

/-- The states of a live group whose dies may hold shadows. -/
def GState.committing : GState → Bool
  | .committed => true
  | .armed => true
  | _ => false

/-! ## PREP (R17, R29, R57, R335) -/

/-- A participant of this part keeps what it found at PREP, for the vote (R29, R31). -/
def State.note (s : State) (n : Fin 16) (reason a : Nat) : State :=
  s.setGroup n { s.group n with found := (s.group n).found ++ [⟨reason, winCode (winOf a), pageNo a, a % 0x10000⟩] }

/-- One staged value is checked again, against ranges that depend on other fields (R46, R57): a failure is kept for the vote, and under
ALLOW_CLAMP the clamped value is taken. -/
def State.prepWrite (s : State) (n : Fin 16) (w : StagedWrite) : State :=
  if !(s.group n).state.committing then s
  else match s.spec w.addr with
    | none => s
    | some g =>
      let fs := s.fieldsOf w.addr g
      let x := s.legalise (s.groupView n) w.addr fs w.value
      match clampsOf fs w.value x true with
      | [] => s
      | c :: cs =>
        let gr := s.group n
        let stop := !gr.allowClamp || g.acc == .wg || s.strict w.addr
        let t := s.stageRecords w.addr g stop (.value x (c :: cs))
        if stop then t.note n rsnClamp w.addr
        else t.setGroup n { t.group n with clamped := true, writes := (t.group n).writes.map (fun (y : StagedWrite) =>
          if y.addr = w.addr then { y with value := x } else y) }

/-- One staged table operation is prepared: an INSERT without room aborts the group as TABLE_FULL (R63, R335). -/
def State.prepTable (s : State) (n : Fin 16) (o : StagedTable) : State :=
  if !(s.group n).state.committing then s
  else match s.tablePrep n o with
    | some t => t
    | none => s.failGroup n rsnTableFull (infoAt o.reg)

/-- One staged value arrives with PREP: one whose complement is found bad on the Flue is discarded and recorded (R17); any other is
checked. -/
def State.prepValue (s : State) (n : Fin 16) (bad : Option Nat) (w : StagedWrite) : State :=
  if bad = some w.addr then (s.guardFail w.addr true true).note n rsnGuard w.addr else s.prepWrite n w

/-- A die of this part receives PREP: every value of its share is checked, each page recording its own findings, and its comparator
armed (R17, R29, R31). A share already in shadows stays. -/
def State.prepDie (s : State) (n : Fin 16) (d : Die) (bad : Option Nat) : State :=
  let g := s.group n
  if !g.state.committing || !g.has 0 d || !s.powered d || g.shadowed.contains d then s
  else
    let t := (g.share d).foldl (fun (u : State) w => u.prepValue n bad w) s
    let t1 := if d = .c then g.tables.foldl (fun (u : State) o => u.prepTable n o) t else t
    if (t1.group n).state.committing then t1.setGroup n { t1.group n with shadowed := (t1.group n).shadowed ++ [d] } else t1

/-- A subordinate takes up the share that the master's PREP brings it for a die (R460). -/
def State.takeShare (s : State) (n : Fin 16) (d : Die) (x : GroupShare) : State :=
  let g := s.group n
  let ws := (x.writes.filter (fun y => dieOf y.1 == d)).map (fun y => ({ addr := y.1, value := y.2 } : StagedWrite))
  let base : Group := if g.state.committing && g.gen == x.tag % 256 then g
    else { Group.empty with gen := x.tag % 256, state := .committed, allowClamp := x.allowClamp, tS := x.tS, tNs := x.tNs }
  s.setGroup n { base with writes := base.writes.filter (fun w => dieOf w.addr != d) ++ ws }

/-- PREP (R29): a participant places its share in shadows. `bad` is the register whose complement fails on the way; `share` is what the
message brings to a subordinate part, where the groups are the master's. -/
def execPrep (slot : Fin 16) (die : Die) (bad : Option Nat) (share : Option GroupShare) (s : State) : Host.Outcome State Fault Refusal :=
  if !s.cRuns then .next s
  else if s.isMaster then .next (s.prepDie slot die bad)
  else match share with
    | some x => .next ((s.takeShare slot die x).prepDie slot die bad)
    | none => .next s

/-! ## ARMED (R29, R62) -/

/-- ARMED: the TXU has a participant's answer; a die of this part answers once its share is in shadows. With the last one the group is
ARMED. -/
def execArmed (slot : Fin 16) (part : Fin 4) (die : Die) (s : State) : Host.Outcome State Fault Refusal :=
  let g := s.group slot
  if !s.txuRuns || g.state ≠ .committed || !g.has part.val die || (part.val == 0 && !g.shadowed.contains die) then .next s
  else
    let by1 := if g.armedBy.contains (part.val, die) then g.armedBy else g.armedBy ++ [(part.val, die)]
    .next (s.setGroup slot { g with armedBy := by1, state := if g.participants.all (fun p => by1.contains p) then .armed else .committed })

/-! ## The vote (R27 to R32, R460, R470) -/

/-- The order in which R31 chooses among the conditions that fail. -/
def reasonOrder : List Nat := [rsnDieLost, rsnParticipant, rsnState, rsnGuard, rsnClamp, rsnSupply]

/-- A finding stands before another: the lower die code, then page, then offset (R31). -/
def Finding.before (x y : Finding) : Bool :=
  if x.die = y.die then (if x.page = y.page then decide (x.off ≤ y.off) else decide (x.page ≤ y.page)) else decide (x.die ≤ y.die)

/-- The finding reported, if any. -/
def chosen (fs : List Finding) : Option Finding :=
  match reasonOrder.find? (fun r => fs.any (fun f => f.reason == r)) with
  | none => none
  | some r => (fs.filter (fun f => f.reason == r)).foldl (fun (b : Option Finding) f => match b with
      | none => some f
      | some y => if y.before f then some y else some f) none

/-- Lamp level registers (R467). -/
def levelReg (a : Nat) : Bool := (List.range 6).any (fun o => a == E7.level o)

/-- The lowest staged lamp level of a group on this part, while a failsafe cause is active (R470). -/
def State.lampFault (s : State) (g : Group) : Option Nat :=
  if s.fsActive then (List.range 6).find? (fun o => g.writes.any (fun w => w.addr == E7.level o)) else none

/-- What this part's participants report at the vote: a share not armed, the guard and clamp failures found at PREP, and their supply and
state (R29). -/
def State.localFindings (s : State) (g : Group) : List Finding :=
  (allDies.filter (fun d => g.has 0 d)).flatMap (fun d =>
    (if g.armedBy.contains (0, d) then [] else [⟨rsnParticipant, dieCode d, 0, 0⟩])
    ++ (if s.supplyWarn d then [⟨rsnSupply, dieCode d, 0, 0⟩] else []))
  ++ (match s.lampFault g with
    | some o => [⟨rsnState, 2, 7, E7.level o % 0x10000⟩]
    | none => [])
  ++ g.found

/-- What the participants on other parts report. -/
def remoteFindings (g : Group) (remote : List RemoteVote) : List Finding :=
  (g.participants.filter (fun p => p.1 != 0 && !g.armedBy.contains p)).map (fun p => ⟨rsnParticipant, dieCode p.2, 0, 0⟩)
  ++ (remote.filter (fun v => v.part.val != 0 && g.has v.part.val v.die)).map (fun v => ⟨v.reason, dieCode v.die, v.page, v.off⟩)

/-- The vote of a group: GO, or a CANCEL with the reason R31 chooses; a supply warning alone leads to the late policy (R32). -/
def State.voteGroup (s : State) (n : Fin 16) (remote : List RemoteVote) : State :=
  let g := s.group n
  match chosen (s.localFindings g ++ remoteFindings g remote) with
  | none => (s.setGroup n { g with state := .go, unlocked := g.unlocked || !s.locked, closed := false }).emit (.commit 3 n.val)
  | some f =>
    if f.reason = rsnSupply then (s.emit (.commit 4 n.val)).supplyStop n (txnInfo f.die f.page f.off)
    else s.abortGroup n f.reason (txnInfo f.die f.page f.off)

/-- VOTE: at T minus 50 µs, or 60 µs with a subordinate participant, the TXU votes (R29, R460). On a subordinate part the row is the
master's broadcast: GO, or CANCEL. -/
def execVote (slot : Fin 16) (go : Bool) (remote : List RemoteVote) (s : State) : Host.Outcome State Fault Refusal :=
  let g := s.group slot
  if !s.cRuns || !g.state.committing then .next s
  else if s.isMaster then
    if s.groupDiff g ≤ (if g.remote then 60000 else 50000) then .next ((s.emit (.commit 2 slot.val)).voteGroup slot remote) else .next s
  else if go && g.participants.all (fun p => g.shadowed.contains p.2) then .next (s.setGroup slot { g with state := .go, closed := false })
  else .next (s.dropShare slot)

/-- CANCEL from a participant between GO and the close: a supply warning leads to the late policy, any other fault aborts the group
(R29, R32, R62). On a subordinate part it withdraws the share, wherever the group then stands. -/
def execCancel (slot : Fin 16) (part : Fin 4) (die : Die) (reason : Nat) (s : State) : Host.Outcome State Fault Refusal :=
  let g := s.group slot
  if !s.cRuns || s.groupClosed g then .next s
  else if !s.isMaster then .next (if g.state.committing || g.state == .go then s.dropShare slot else s)
  else if g.state ≠ .go || !g.has part.val die then .next s
  else if reason = rsnSupply then .next ((s.emit (.commit 4 slot.val)).supplyStop slot (txnInfo (dieCode die) 0 0))
  else .next (s.abortGroup slot reason (txnInfo (dieCode die) 0 0))

/-- COMMIT_CLOSE: at T minus 2 µs a group in GO is committed; a lamp share whose failsafe cause began since the vote fails it as STATE
(R29, R470). -/
def execCommitClose (slot : Fin 16) (s : State) : Host.Outcome State Fault Refusal :=
  let g := s.group slot
  if !s.cRuns || g.state ≠ .go || g.closed || decide (2000 < s.groupDiff g) then .next s
  else match s.lampFault g with
    | some o => .next (s.failGroup slot rsnState (txnInfo 2 7 (E7.level o % 0x10000)))
    | none => .next (s.setGroup slot { g with closed := true })

/-! ## Application at T (R59, R65, R66, R335, R470) -/

/-- A register whose stored word acts on something beside itself. -/
def hookedAt (a : Nat) : Bool :=
  (hookFor (if winOf a = 1 then effectsC else if winOf a = 2 then effectsE else if 3 ≤ winOf a ∧ winOf a ≤ 8 then effectsD (winOf a - 3)
    else []) a).isSome

/-- One shadow is copied to its live register; fields that no write sets keep their live values. -/
def State.applyWrite (s : State) (w : StagedWrite) : State :=
  match s.spec w.addr with
  | none => s
  | some g => s.store w.addr (mergeFields (if g.acc = .wg then BitVec.ofNat 32 (s.fld w.addr 15 0) else s.rd w.addr) w.value (s.fieldsOf w.addr g))

/-- A share becomes live in one tick: the registers that only hold their word first, then those that act. -/
def State.applyWrites (s : State) (ws : List StagedWrite) : State :=
  (ws.filter (fun w => hookedAt w.addr)).foldl State.applyWrite ((ws.filter (fun w => !hookedAt w.addr)).foldl State.applyWrite s)

/-- The share of this part at T: the dies still powered apply theirs, and die C its table operations. -/
def State.applyShares (s : State) (n : Fin 16) (g : Group) : State :=
  let t := s.applyWrites (g.writes.filter (fun w => w.owner.1 == 0 && s.powered w.owner.2))
  g.tables.foldl (fun (u : State) o => u.tableApply n o) t

/-- Die E's kept share of a group whose T has come on die E's own time (R66). -/
def State.keptDue (s : State) (n : Fin 16) : Option KeptShare :=
  s.txu.kept.find? (fun (k : KeptShare) => k.slot == n && decide (atimeDiff k.tS k.tNs (s.now .e) ≤ 0))

/-- Die E applies a share that it kept when die C left. -/
def State.applyKept (s : State) (k : KeptShare) : State :=
  { s with txu := { s.txu with kept := s.txu.kept.filter (fun (x : KeptShare) => x != k) } }.applyWrites k.writes

/-- A group in GO reaches its T: COMPLETE, with the local time of application; DIE_LOST stays its reason where a participant was lost
after the close (R62, R66). -/
def State.completeGroup (s : State) (n : Fin 16) (g : Group) : State :=
  let t := s.applyShares n g
  if s.isMaster then
    t.groupEnd n { g with state := .complete, appS := sec32 (s.now .c), appNs := nsOf (s.now .c) }
  else t.setGroup n { Group.empty with gen := g.gen }

/-- GROUP_APPLY: at T every participant's shadows become live (R29, R65), after the single actions of that T (R95). -/
def execGroupApply (slot : Fin 16) (s : State) : Host.Outcome State Fault Refusal :=
  match s.keptDue slot with
  | some k => .next (if s.actFirst (k.writes.map (fun (w : StagedWrite) => pageOf w.addr)) k.tS k.tNs then s else s.applyKept k)
  | none =>
    let g := s.group slot
    if s.cRuns && g.state == .go && decide (s.groupDiff g ≤ 0) && !s.actFirst g.pages g.tS g.tNs then .next (s.completeGroup slot g)
    else .next s

/-- WAIT_SUPPLY_RECOVERY: with no participant of this part in warning, the group is voted again at this instant, for T 50 µs later,
flagged LATE and SUPPLY (R32, R62). -/
def execWaitSupplyRecovery (slot : Fin 16) (s : State) : Host.Outcome State Fault Refusal :=
  let g := s.group slot
  if !s.txuRuns || g.state ≠ .waitSupply || allDies.any (fun d => g.has 0 d && s.supplyWarn d) then .next s
  else
    let t := s.now .c + 50000
    let g1 : Group := { g with state := .armed, tS := sec32 t, tNs := nsOf t, shift := 0, late := true, supply := true, reason := 0, info := 0 }
    .next ((s.setGroup slot g1).voteGroup slot [])

end Sys2Proof.Machine
end

