-- ==== Sys2Proof/Machine/Dispatch.lean ====
section
/-!
DEFINITION. The meaning of every command: one arm per constructor of Instr, each a direct call of its meaning.
-/
namespace Sys2Proof.Machine

/-- The command's effect on everything but the queue. -/
def exec (i : Instr) (s : State) : Host.Outcome State Fault Refusal :=
  match i with
  | .registerWrite r a w be => Sys2Proof.Machine.execRegisterWrite r a w be s
  | .accessOff r a write => Sys2Proof.Machine.execAccessOff r a write s
  | .errCodeRead r page => Sys2Proof.Machine.execErrCodeRead r page s
  | .clampFieldRead r page => Sys2Proof.Machine.execClampFieldRead r page s
  | .clampCountRead r page => Sys2Proof.Machine.execClampCountRead r page s
  | .guardFailRead r page => Sys2Proof.Machine.execGuardFailRead r page s
  | .rcCounterRead r a coincide => Sys2Proof.Machine.execRcCounterRead r a coincide s
  | .intStatClear r page w coincide => Sys2Proof.Machine.execIntStatClear r page w coincide s
  | .intSet r page w => Sys2Proof.Machine.execIntSet r page w s
  | .softReset r page w => Sys2Proof.Machine.execSoftReset r page w s
  | .msixVectorUnmask v => Sys2Proof.Machine.execMsixVectorUnmask v s
  | .msixEnable => Sys2Proof.Machine.execMsixEnable s
  | .clampLogClr r w => Sys2Proof.Machine.execClampLogClr r w s
  | .txnOpen r w => Sys2Proof.Machine.execTxnOpen r w s
  | .txnOpened r => Sys2Proof.Machine.execTxnOpened r s
  | .txnTagWrite r page w => Sys2Proof.Machine.execTxnTagWrite r page w s
  | .stagedWrite r a w => Sys2Proof.Machine.execStagedWrite r a w s
  | .txnCommit r w => Sys2Proof.Machine.execTxnCommit r w s
  | .prep slot die bad share => Sys2Proof.Machine.execPrep slot die bad share s
  | .armed slot part die => Sys2Proof.Machine.execArmed slot part die s
  | .vote slot go remote => Sys2Proof.Machine.execVote slot go remote s
  | .cancel slot part die reason => Sys2Proof.Machine.execCancel slot part die reason s
  | .commitClose slot => Sys2Proof.Machine.execCommitClose slot s
  | .groupApply slot => Sys2Proof.Machine.execGroupApply slot s
  | .waitSupplyRecovery slot => Sys2Proof.Machine.execWaitSupplyRecovery slot s
  | .txnAbort r w => Sys2Proof.Machine.execTxnAbort r w s
  | .txnRelease r w => Sys2Proof.Machine.execTxnRelease r w s
  | .flueMessage src dst msgs => Sys2Proof.Machine.execFlueMessage src dst msgs s
  | .flueFlitRetry far ok => Sys2Proof.Machine.execFlueFlitRetry far ok s
  | .flueSilenceTimeout far => Sys2Proof.Machine.execFlueSilenceTimeout far s
  | .dieTimeCorrection die => Sys2Proof.Machine.execDieTimeCorrection die s
  | .timeMeasurement src m => Sys2Proof.Machine.execTimeMeasurement src m s
  | .srcLost src => Sys2Proof.Machine.execSrcLost src s
  | .stepInstant => Sys2Proof.Machine.execStepInstant s
  | .timeSnap r w => Sys2Proof.Machine.execTimeSnap r w s
  | .timeStep r hi => Sys2Proof.Machine.execTimeStep r hi s
  | .timeKeep r hi => Sys2Proof.Machine.execTimeKeep r hi s
  | .timeSet r hi => Sys2Proof.Machine.execTimeSet r hi s
  | .reselect r hi => Sys2Proof.Machine.execReselect r hi s
  | .refusedClear r hi => Sys2Proof.Machine.execRefusedClear r hi s
  | .eTimeSnap r w => Sys2Proof.Machine.execETimeSnap r w s
  | .eTimeStep r hi => Sys2Proof.Machine.execETimeStep r hi s
  | .eTimeKeep r hi => Sys2Proof.Machine.execETimeKeep r hi s
  | .eTimeSet r hi => Sys2Proof.Machine.execETimeSet r hi s
  | .eRefusedClear r hi => Sys2Proof.Machine.execERefusedClear r hi s
  | .ptpFrameRx port ptp wellFormed => Sys2Proof.Machine.execPtpFrameRx port ptp wellFormed s
  | .ptpEventTx port sync => Sys2Proof.Machine.execPtpEventTx port sync s
  | .ttReqSend link => Sys2Proof.Machine.execTtReqSend link s
  | .ttReq link member seq t1 => Sys2Proof.Machine.execTtReq link member seq t1 s
  | .ttResp link seq m => Sys2Proof.Machine.execTtResp link seq m s
  | .ttLost link => Sys2Proof.Machine.execTtLost link s
  | .ttSubExchange => Sys2Proof.Machine.execTtSubExchange s
  | .actArm r slot w => Sys2Proof.Machine.execActArm r slot w s
  | .actDisarm r slot hi => Sys2Proof.Machine.execActDisarm r slot hi s
  | .actionSupplyRecovery slot => Sys2Proof.Machine.execActionSupplyRecovery slot s
  | .x32kStarted => Sys2Proof.Machine.execX32kStarted s
  | .x32kFail => Sys2Proof.Machine.execX32kFail s
  | .xtal40Start user => Sys2Proof.Machine.execXtal40Start user s
  | .x40mSettled => Sys2Proof.Machine.execX40mSettled s
  | .xtal40Stop user => Sys2Proof.Machine.execXtal40Stop user s
  | .pwrEmber r hi sr => Sys2Proof.Machine.execPwrEmber r hi sr s
  | .pwrStandby r hi sr => Sys2Proof.Machine.execPwrStandby r hi sr s
  | .pwrRun r hi radioEn sr => Sys2Proof.Machine.execPwrRun r hi radioEn sr s
  | .pwrOff r hi => Sys2Proof.Machine.execPwrOff r hi s
  | .pwrReset r hi => Sys2Proof.Machine.execPwrReset r hi s
  | .dieCRelease => Sys2Proof.Machine.execDieCRelease s
  | .kindleDone => Sys2Proof.Machine.execKindleDone s
  | .radioDieRelease d => Sys2Proof.Machine.execRadioDieRelease d s
  | .radioStartDone d rep => Sys2Proof.Machine.execRadioStartDone d rep s
  | .dieRoleWrite r w => Sys2Proof.Machine.execDieRoleWrite r w s
  | .transitionPauseTimeout => Sys2Proof.Machine.execTransitionPauseTimeout s
  | .por => Sys2Proof.Machine.execPor s
  | .resetN lowNs cmd => Sys2Proof.Machine.execResetN lowNs cmd s
  | .supplyE us mv cmd => Sys2Proof.Machine.execSupplyE us mv cmd s
  | .dieERelease => Sys2Proof.Machine.execDieERelease s
  | .supplyC us mv cmd => Sys2Proof.Machine.execSupplyC us mv cmd s
  | .supplyD d us mv cmd => Sys2Proof.Machine.execSupplyD d us mv cmd s
  | .selftestDone die rep cmd => Sys2Proof.Machine.execSelftestDone die rep cmd s
  | .selftestTimeout die cmd => Sys2Proof.Machine.execSelftestTimeout die cmd s
  | .supplyWarning m => Sys2Proof.Machine.execSupplyWarning m s
  | .supplyOk m us mv => Sys2Proof.Machine.execSupplyOk m us mv s
  | .retentionLost mv => Sys2Proof.Machine.execRetentionLost mv s
  | .tempUpdate die temp => Sys2Proof.Machine.execTempUpdate die temp s
  | .gpioLevelChange pin level => Sys2Proof.Machine.execGpioLevelChange pin level s
  | .gpioEvent pin => Sys2Proof.Machine.execGpioEvent pin s
  | .rfCmdSleep r => Sys2Proof.Machine.execRfCmdSleep r s
  | .rfCmdIdle r => Sys2Proof.Machine.execRfCmdIdle r s
  | .rfCmdListen r => Sys2Proof.Machine.execRfCmdListen r s
  | .txNow r => Sys2Proof.Machine.execTxNow r s
  | .rfCal r set => Sys2Proof.Machine.execRfCal r set s
  | .rfRetune r => Sys2Proof.Machine.execRfRetune r s
  | .rfEd r => Sys2Proof.Machine.execRfEd r s
  | .rfAbort r completing => Sys2Proof.Machine.execRfAbort r completing s
  | .trimClear r => Sys2Proof.Machine.execTrimClear r s
  | .preambleDetect k => Sys2Proof.Machine.execPreambleDetect k s
  | .syncDetect k rssi ch1 => Sys2Proof.Machine.execSyncDetect k rssi ch1 s
  | .rxHeader h => Sys2Proof.Machine.execRxHeader h s
  | .capture k rssi ch1 octets => Sys2Proof.Machine.execCapture k rssi ch1 octets s
  | .rxFrameEnd e => Sys2Proof.Machine.execRxFrameEnd e s
  | .sgTxEnd rl => Sys2Proof.Machine.execSgTxEnd rl s
  | .paProtect rl => Sys2Proof.Machine.execPaProtect rl s
  | .sgSynthLock => Sys2Proof.Machine.execSgSynthLock s
  | .synthUnlock => Sys2Proof.Machine.execSynthUnlock s
  | .txNoLock => Sys2Proof.Machine.execTxNoLock s
  | .txSupply => Sys2Proof.Machine.execTxSupply s
  | .sgCalDone fail limit rl => Sys2Proof.Machine.execSgCalDone fail limit rl s
  | .sgCalDeferredStart => Sys2Proof.Machine.execSgCalDeferredStart s
  | .autoRetune => Sys2Proof.Machine.execAutoRetune s
  | .edDone level => Sys2Proof.Machine.execEdDone level s
  | .sgChanWrite r sel w => Sys2Proof.Machine.execSgChanWrite r sel w s
  | .afcTrimUpdate => Sys2Proof.Machine.execAfcTrimUpdate s
  | .actPrepare slot => Sys2Proof.Machine.execActPrepare slot s
  | .rfActTx slot => Sys2Proof.Machine.execRfActTx slot s
  | .rfActListen slot => Sys2Proof.Machine.execRfActListen slot s
  | .rfActIdle slot => Sys2Proof.Machine.execRfActIdle slot s
  | .rfActSleep slot => Sys2Proof.Machine.execRfActSleep slot s
  | .rfActChannel slot => Sys2Proof.Machine.execRfActChannel slot s
  | .macAckTx => Sys2Proof.Machine.execMacAckTx s
  | .csmaBackoffEnd energy => Sys2Proof.Machine.execCsmaBackoffEnd energy s
  | .macAckRx dsn => Sys2Proof.Machine.execMacAckRx dsn s
  | .ackTimeout => Sys2Proof.Machine.execAckTimeout s
  | .meshFrameRx f => Sys2Proof.Machine.execMeshFrameRx f s
  | .meshDataRx h rssi => Sys2Proof.Machine.execMeshDataRx h rssi s
  | .beaconTx => Sys2Proof.Machine.execBeaconTx s
  | .extraBeacon => Sys2Proof.Machine.execExtraBeacon s
  | .beaconRx b => Sys2Proof.Machine.execBeaconRx b s
  | .beaconWindowEnd => Sys2Proof.Machine.execBeaconWindowEnd s
  | .addrLost => Sys2Proof.Machine.execAddrLost s
  | .scanDwellEnd => Sys2Proof.Machine.execScanDwellEnd s
  | .joinReq j => Sys2Proof.Machine.execJoinReq j s
  | .joinResp j => Sys2Proof.Machine.execJoinResp j s
  | .joinTimeout => Sys2Proof.Machine.execJoinTimeout s
  | .pendingChildExpiry eui => Sys2Proof.Machine.execPendingChildExpiry eui s
  | .parentExcludeExpiry short => Sys2Proof.Machine.execParentExcludeExpiry short s
  | .leave j => Sys2Proof.Machine.execLeave j s
  | .poll => Sys2Proof.Machine.execPoll s
  | .indirectSend => Sys2Proof.Machine.execIndirectSend s
  | .childTimeout short => Sys2Proof.Machine.execChildTimeout short s
  | .indirectExpiry id => Sys2Proof.Machine.execIndirectExpiry id s
  | .floodEntryExpiry id => Sys2Proof.Machine.execFloodEntryExpiry id s
  | .floodRx h rssi => Sys2Proof.Machine.execFloodRx h rssi s
  | .floodRebroadcast origin mseq => Sys2Proof.Machine.execFloodRebroadcast origin mseq s
  | .txDescriptor => Sys2Proof.Machine.execTxDescriptor s
  | .fcSaveDone slot => Sys2Proof.Machine.execFcSaveDone slot s
  | .meshKeyOverlapEnd => Sys2Proof.Machine.execMeshKeyOverlapEnd s
  | .meshKeySwitch slot => Sys2Proof.Machine.execMeshKeySwitch slot s
  | .permitOn slot => Sys2Proof.Machine.execPermitOn slot s
  | .permitOff slot => Sys2Proof.Machine.execPermitOff slot s
  | .beaconNow slot => Sys2Proof.Machine.execBeaconNow slot s
  | .addrFree r w => Sys2Proof.Machine.execAddrFree r w s
  | .bankedBeacon => Sys2Proof.Machine.execBankedBeacon s
  | .partitionEnable r d => Sys2Proof.Machine.execPartitionEnable r d s
  | .partitionDisable r d => Sys2Proof.Machine.execPartitionDisable r d s
  | .partChanWrite r d w => Sys2Proof.Machine.execPartChanWrite r d w s
  | .accessSynthLock d lost => Sys2Proof.Machine.execAccessSynthLock d lost s
  | .seqSleep r d => Sys2Proof.Machine.execSeqSleep r d s
  | .seqIdle r d => Sys2Proof.Machine.execSeqIdle r d s
  | .seqListen r d => Sys2Proof.Machine.execSeqListen r d s
  | .seqAbort r d completing => Sys2Proof.Machine.execSeqAbort r d completing s
  | .ppduImmediate d us => Sys2Proof.Machine.execPpduImmediate d us s
  | .accessTxWaitExpiry d => Sys2Proof.Machine.execAccessTxWaitExpiry d s
  | .ppduTxEnd d next expectsResponse levels => Sys2Proof.Machine.execPpduTxEnd d next expectsResponse levels s
  | .chainProtect d c rl => Sys2Proof.Machine.execChainProtect d c rl s
  | .ppduSync d power => Sys2Proof.Machine.execPpduSync d power s
  | .ppduHeader d ok => Sys2Proof.Machine.execPpduHeader d ok s
  | .ppduCapture d power half => Sys2Proof.Machine.execPpduCapture d power half s
  | .ppduRxEnd d respond us tb levels => Sys2Proof.Machine.execPpduRxEnd d respond us tb levels s
  | .partCal r d w => Sys2Proof.Machine.execPartCal r d w s
  | .partCalDone d fails => Sys2Proof.Machine.execPartCalDone d fails s
  | .partCalDeferredStart d => Sys2Proof.Machine.execPartCalDeferredStart d s
  | .partActChannel d slot => Sys2Proof.Machine.execPartActChannel d slot s
  | .partActListen d slot => Sys2Proof.Machine.execPartActListen d slot s
  | .partActIdle d slot => Sys2Proof.Machine.execPartActIdle d slot s
  | .partActSleep d slot => Sys2Proof.Machine.execPartActSleep d slot s
  | .soundingStart d stations us => Sys2Proof.Machine.execSoundingStart d stations us s
  | .soundingFeedback d sta report => Sys2Proof.Machine.execSoundingFeedback d sta report s
  | .soundDone d => Sys2Proof.Machine.execSoundDone d s
  | .weightsReady d stations => Sys2Proof.Machine.execWeightsReady d stations s
  | .weightAgeExpiry d => Sys2Proof.Machine.execWeightAgeExpiry d s
  | .staWrite r idx => Sys2Proof.Machine.execStaWrite r idx s
  | .staRead r idx => Sys2Proof.Machine.execStaRead r idx s
  | .staRemove r idx => Sys2Proof.Machine.execStaRemove r idx s
  | .staRemoveDone idx => Sys2Proof.Machine.execStaRemoveDone idx s
  | .staFlush r idx tid all => Sys2Proof.Machine.execStaFlush r idx tid all s
  | .staAlloc r => Sys2Proof.Machine.execStaAlloc r s
  | .setKey r idx => Sys2Proof.Machine.execSetKey r idx s
  | .setGkey r idx => Sys2Proof.Machine.execSetGkey r idx s
  | .twtAdd r => Sys2Proof.Machine.execTwtAdd r s
  | .twtRemove r idx => Sys2Proof.Machine.execTwtRemove r idx s
  | .twtRead r idx => Sys2Proof.Machine.execTwtRead r idx s
  | .schedCmdPause r p => Sys2Proof.Machine.execSchedCmdPause r p s
  | .schedCmdResume r p => Sys2Proof.Machine.execSchedCmdResume r p s
  | .replan r p => Sys2Proof.Machine.execReplan r p s
  | .planRebuild p => Sys2Proof.Machine.execPlanRebuild p s
  | .txopWon p => Sys2Proof.Machine.execTxopWon p s
  | .ppduPrepare p us slot => Sys2Proof.Machine.execPpduPrepare p us slot s
  | .txopEnd p => Sys2Proof.Machine.execTxopEnd p s
  | .bsrpDue p => Sys2Proof.Machine.execBsrpDue p s
  | .twtSpStart entry => Sys2Proof.Machine.execTwtSpStart entry s
  | .twtSpEnd entry => Sys2Proof.Machine.execTwtSpEnd entry s
  | .mpduRx p m => Sys2Proof.Machine.execMpduRx p m s
  | .blockAckRx p b => Sys2Proof.Machine.execBlockAckRx p b s
  | .reorderTimeout sta tid => Sys2Proof.Machine.execReorderTimeout sta tid s
  | .staKeySwitch slot => Sys2Proof.Machine.execStaKeySwitch slot s
  | .gkeySwitch slot => Sys2Proof.Machine.execGkeySwitch slot s
  | .twtEnable slot => Sys2Proof.Machine.execTwtEnable slot s
  | .twtDisable slot => Sys2Proof.Machine.execTwtDisable slot s
  | .schedPause slot => Sys2Proof.Machine.execSchedPause slot s
  | .schedResume slot => Sys2Proof.Machine.execSchedResume slot s
  | .bhCycleStart dir => Sys2Proof.Machine.execBhCycleStart dir s
  | .bhFrameRx dir f => Sys2Proof.Machine.execBhFrameRx dir f s
  | .bhHealthReport dir => Sys2Proof.Machine.execBhHealthReport dir s
  | .noiseWindowDone dir snr0 snr1 late0 late1 => Sys2Proof.Machine.execNoiseWindowDone dir snr0 snr1 late0 late1 s
  | .tmSend r d w => Sys2Proof.Machine.execTmSend r d w s
  | .tmUpdateRx dir stream id k design entries => Sys2Proof.Machine.execTmUpdateRx dir stream id k design entries s
  | .bhLinkLost dir => Sys2Proof.Machine.execBhLinkLost dir s
  | .bhSearchRestart dir => Sys2Proof.Machine.execBhSearchRestart dir s
  | .searchComplete dir => Sys2Proof.Machine.execSearchComplete dir s
  | .headWrite r d h w => Sys2Proof.Machine.execHeadWrite r d h w s
  | .headRead r d h w data => Sys2Proof.Machine.execHeadRead r d h w data s
  | .headAlert dir => Sys2Proof.Machine.execHeadAlert dir s
  | .bhCal r d w => Sys2Proof.Machine.execBhCal r d w s
  | .bhActChannel d slot => Sys2Proof.Machine.execBhActChannel d slot s
  | .dirOn d slot => Sys2Proof.Machine.execDirOn d slot s
  | .dirOff d slot => Sys2Proof.Machine.execDirOff d slot s
  | .linkCfgEnable r l w => Sys2Proof.Machine.execLinkCfgEnable r l w s
  | .xblDispatch l m => Sys2Proof.Machine.execXblDispatch l m s
  | .xblFrameRx l m f => Sys2Proof.Machine.execXblFrameRx l m f s
  | .xblReorderTimeout l seq => Sys2Proof.Machine.execXblReorderTimeout l seq s
  | .xblAckDue l => Sys2Proof.Machine.execXblAckDue l s
  | .xblRetxTimeout l seq => Sys2Proof.Machine.execXblRetxTimeout l seq s
  | .keepaliveDue l m => Sys2Proof.Machine.execKeepaliveDue l m s
  | .memberHealthReport l m miss cap => Sys2Proof.Machine.execMemberHealthReport l m miss cap s
  | .memberSilent l m => Sys2Proof.Machine.execMemberSilent l m s
  | .memberNoReport l m => Sys2Proof.Machine.execMemberNoReport l m s
  | .memberUp l m => Sys2Proof.Machine.execMemberUp l m s
  | .returnWaitEnd l c => Sys2Proof.Machine.execReturnWaitEnd l c s
  | .xblKeySwitch slot => Sys2Proof.Machine.execXblKeySwitch slot s
  | .xblKeySelWrite r l w => Sys2Proof.Machine.execXblKeySelWrite r l w s
  | .linkOn slot => Sys2Proof.Machine.execLinkOn slot s
  | .linkOff slot => Sys2Proof.Machine.execLinkOff slot s
  | .ethFrameRx q frame fcsOk pause => Sys2Proof.Machine.execEthFrameRx q frame fcsOk pause s
  | .frameIngress port frame g => Sys2Proof.Machine.execFrameIngress port frame g s
  | .learn => Sys2Proof.Machine.execLearn s
  | .portDequeue port => Sys2Proof.Machine.execPortDequeue port s
  | .spillFetch q => Sys2Proof.Machine.execSpillFetch q s
  | .discardSpill r => Sys2Proof.Machine.execDiscardSpill r s
  | .tblInsert r => Sys2Proof.Machine.execTblInsert r s
  | .tblDelete r => Sys2Proof.Machine.execTblDelete r s
  | .tblSearch r => Sys2Proof.Machine.execTblSearch r s
  | .tblNext r type restart => Sys2Proof.Machine.execTblNext r type restart s
  | .flushPort r port inclStatic type => Sys2Proof.Machine.execFlushPort r port inclStatic type s
  | .ageSweep r type => Sys2Proof.Machine.execAgeSweep r type s
  | .walkClose r => Sys2Proof.Machine.execWalkClose r s
  | .sweepDone => Sys2Proof.Machine.execSweepDone s
  | .autoAge => Sys2Proof.Machine.execAutoAge s
  | .walkTimeout r => Sys2Proof.Machine.execWalkTimeout r s
  | .parityRemove pos => Sys2Proof.Machine.execParityRemove pos s
  | .scrubPass bad => Sys2Proof.Machine.execScrubPass bad s
  | .hashSeedWrite r n w => Sys2Proof.Machine.execHashSeedWrite r n w s
  | .lpmInsert r w => Sys2Proof.Machine.execLpmInsert r w s
  | .lpmDelete r w => Sys2Proof.Machine.execLpmDelete r w s
  | .lpmSearch r w => Sys2Proof.Machine.execLpmSearch r w s
  | .lpmNext r w => Sys2Proof.Machine.execLpmNext r w s
  | .lpmWalkClose r => Sys2Proof.Machine.execLpmWalkClose r s
  | .lpmRepair stage node lost => Sys2Proof.Machine.execLpmRepair stage node lost s
  | .nhWrite r idx => Sys2Proof.Machine.execNhWrite r idx s
  | .nhRead r idx => Sys2Proof.Machine.execNhRead r idx s
  | .vlanWrite r vid => Sys2Proof.Machine.execVlanWrite r vid s
  | .vlanRead r vid => Sys2Proof.Machine.execVlanRead r vid s
  | .fwLoad r => Sys2Proof.Machine.execFwLoad r s
  | .fwVerifyDone => Sys2Proof.Machine.execFwVerifyDone s
  | .fwHalt r => Sys2Proof.Machine.execFwHalt r s
  | .fwStart r => Sys2Proof.Machine.execFwStart r s
  | .fwRestart r e => Sys2Proof.Machine.execFwRestart r e s
  | .engineWdtExpiry e => Sys2Proof.Machine.execEngineWdtExpiry e s
  | .engineFault e code addr => Sys2Proof.Machine.execEngineFault e code addr s
  | .clean e dram addr len => Sys2Proof.Machine.execClean e dram addr len s
  | .invalidate e dram addr len => Sys2Proof.Machine.execInvalidate e dram addr len s
  | .cleanInvalidate e dram addr len => Sys2Proof.Machine.execCleanInvalidate e dram addr len s
  | .mbDoorbell r m => Sys2Proof.Machine.execMbDoorbell r m s
  | .mbRelease r m => Sys2Proof.Machine.execMbRelease r m s
  | .tdWrite r t => Sys2Proof.Machine.execTdWrite r t s
  | .tdRead r t => Sys2Proof.Machine.execTdRead r t s
  | .tdFree r t => Sys2Proof.Machine.execTdFree r t s
  | .setCount r t => Sys2Proof.Machine.execSetCount r t s
  | .grDec r t => Sys2Proof.Machine.execGrDec r t s
  | .grDone r t gen => Sys2Proof.Machine.execGrDone r t gen s
  | .grateSourceEvent => Sys2Proof.Machine.execGrateSourceEvent s
  | .grateTimer t => Sys2Proof.Machine.execGrateTimer t s
  | .grateDispatch => Sys2Proof.Machine.execGrateDispatch s
  | .preemptSaveDone e => Sys2Proof.Machine.execPreemptSaveDone e s
  | .taskEndResume e => Sys2Proof.Machine.execTaskEndResume e s
  | .taskOverrun t => Sys2Proof.Machine.execTaskOverrun t s
  | .embLoad r image => Sys2Proof.Machine.execEmbLoad r image s
  | .embSwitch r => Sys2Proof.Machine.execEmbSwitch r s
  | .embSwitchApply => Sys2Proof.Machine.execEmbSwitchApply s
  | .chStart r n host => Sys2Proof.Machine.execChStart r n host s
  | .chPause r n => Sys2Proof.Machine.execChPause r n s
  | .dmaPaused n => Sys2Proof.Machine.execDmaPaused n s
  | .chResume r n => Sys2Proof.Machine.execChResume r n s
  | .chStop r n => Sys2Proof.Machine.execChStop r n s
  | .chAbort r n => Sys2Proof.Machine.execChAbort r n s
  | .dmaBurst host => Sys2Proof.Machine.execDmaBurst host s
  | .dmaRequest line => Sys2Proof.Machine.execDmaRequest line s
  | .chLevelAdj r n w => Sys2Proof.Machine.execChLevelAdj r n w s
  | .descriptorEnd n host => Sys2Proof.Machine.execDescriptorEnd n host s
  | .dmaHostError n => Sys2Proof.Machine.execDmaHostError n s
  | .aesKeyInstall r slot long index hi => Sys2Proof.Machine.execAesKeyInstall r slot long index hi s
  | .aesKeyErase r slot long index hi => Sys2Proof.Machine.execAesKeyErase r slot long index hi s
  | .ctxOpen r k slot prio hi => Sys2Proof.Machine.execCtxOpen r k slot prio hi s
  | .ctxClose r k hi => Sys2Proof.Machine.execCtxClose r k hi s
  | .ctxGo r k decrypt => Sys2Proof.Machine.execCtxGo r k decrypt s
  | .aesBlockDone => Sys2Proof.Machine.execAesBlockDone s
  | .pipeKeyInstall r slot hi => Sys2Proof.Machine.execPipeKeyInstall r slot hi s
  | .pipeKeyErase r slot hi => Sys2Proof.Machine.execPipeKeyErase r slot hi s
  | .pipeKeyStat r slot hi => Sys2Proof.Machine.execPipeKeyStat r slot hi s
  | .dramInit r => Sys2Proof.Machine.execDramInit r s
  | .dramInitDone fail => Sys2Proof.Machine.execDramInitDone fail s
  | .fspChange r rate => Sys2Proof.Machine.execFspChange r rate s
  | .fspChangeStart => Sys2Proof.Machine.execFspChangeStart s
  | .fspDone => Sys2Proof.Machine.execFspDone s
  | .retrainNow r allFsp => Sys2Proof.Machine.execRetrainNow r allFsp s
  | .unfreezeResume r => Sys2Proof.Machine.execUnfreezeResume r s
  | .unfreezeReinit r => Sys2Proof.Machine.execUnfreezeReinit r s
  | .dramRetrain => Sys2Proof.Machine.execDramRetrain s
  | .refreshDue ch bank rt => Sys2Proof.Machine.execRefreshDue ch bank rt s
  | .refreshPayback ch bank => Sys2Proof.Machine.execRefreshPayback ch bank s
  | .mr4Poll ch hot => Sys2Proof.Machine.execMr4Poll ch hot s
  | .dramAccess kind inst addr len write untracked ecc => Sys2Proof.Machine.execDramAccess kind inst addr len write untracked ecc s
  | .patrolScrub ecc => Sys2Proof.Machine.execPatrolScrub ecc s
  | .perstDeassert => Sys2Proof.Machine.execPerstDeassert s
  | .pcieLinkUp speed width => Sys2Proof.Machine.execPcieLinkUp speed width s
  | .hotReset => Sys2Proof.Machine.execHotReset s
  | .functionLevelReset => Sys2Proof.Machine.execFunctionLevelReset s
  | .linkDown => Sys2Proof.Machine.execLinkDown s
  | .holdAbort a bar2 write => Sys2Proof.Machine.execHoldAbort a bar2 write s
  | .spiWrite a ws crc => Sys2Proof.Machine.execSpiWrite a ws crc s
  | .spiRead op a n crc => Sys2Proof.Machine.execSpiRead op a n crc s
  | .spiReadClr a n crc complete => Sys2Proof.Machine.execSpiReadClr a n crc complete s
  | .cascWindowAccess r off w found => Sys2Proof.Machine.execCascWindowAccess r off w found s
  | .ethLinkChange q stat => Sys2Proof.Machine.execEthLinkChange q stat s
  | .sfpI2cAccess r q w => Sys2Proof.Machine.execSfpI2cAccess r q w s
  | .sfpI2cDone q nack data => Sys2Proof.Machine.execSfpI2cDone q nack data s
  | .bypOpenWrite r w => Sys2Proof.Machine.execBypOpenWrite r w s
  | .bypKick r w => Sys2Proof.Machine.execBypKick r w s
  | .bypassWdtExpiry => Sys2Proof.Machine.execBypassWdtExpiry s
  | .korUp k peerPart peerLink peerMaster => Sys2Proof.Machine.execKorUp k peerPart peerLink peerMaster s
  | .korDegraded k => Sys2Proof.Machine.execKorDegraded k s
  | .korDown k => Sys2Proof.Machine.execKorDown k s
  | .korubTimeExchange k m masterHold => Sys2Proof.Machine.execKorubTimeExchange k m masterHold s
  | .levelWrite r o w => Sys2Proof.Machine.execLevelWrite r o w s
  | .failsafeWrite r o w => Sys2Proof.Machine.execFailsafeWrite r o w s
  | .failsafeStoreDone o => Sys2Proof.Machine.execFailsafeStoreDone o s
  | .lampKick r w => Sys2Proof.Machine.execLampKick r w s
  | .hostWdtExpiry => Sys2Proof.Machine.execHostWdtExpiry s
  | .pwmBoundary n => Sys2Proof.Machine.execPwmBoundary n s
  | .daliLevelFrame c delayed => Sys2Proof.Machine.execDaliLevelFrame c delayed s
  | .daliCollision c => Sys2Proof.Machine.execDaliCollision c s
  | .daliFrameDone c ans => Sys2Proof.Machine.execDaliFrameDone c ans s
  | .dqPush r c w => Sys2Proof.Machine.execDqPush r c w s
  | .dqFlush r c w => Sys2Proof.Machine.execDqFlush r c w s
  | .dqResRead r c => Sys2Proof.Machine.execDqResRead r c s
  | .busDown c => Sys2Proof.Machine.execBusDown c s
  | .busUp c => Sys2Proof.Machine.execBusUp c s
  | .lampActLevel slot => Sys2Proof.Machine.execLampActLevel slot s
  | .lampActScene slot => Sys2Proof.Machine.execLampActScene slot s
  | .evtRdIdx r w => Sys2Proof.Machine.execEvtRdIdx r w s
  | .evtClr r w => Sys2Proof.Machine.execEvtClr r w s
  | .traceIntake => Sys2Proof.Machine.execTraceIntake s
  | .transDone => Sys2Proof.Machine.execTransDone s
  | .x40mUsable => Sys2Proof.Machine.execX40mUsable s
  | .eLockAgeExpiry => Sys2Proof.Machine.execELockAgeExpiry s
  | .xblKeyOverlapEnd l => Sys2Proof.Machine.execXblKeyOverlapEnd l s
  | .aesHoldExpiry => Sys2Proof.Machine.execAesHoldExpiry s
  | .embVerifyDone => Sys2Proof.Machine.execEmbVerifyDone s
  | .perstAssert => Sys2Proof.Machine.execPerstAssert s
  | .headAlertRelease dir => Sys2Proof.Machine.execHeadAlertRelease dir s
  | .addressTableWriteDone eui => Sys2Proof.Machine.execAddressTableWriteDone eui s

end Sys2Proof.Machine
end

