-- ==== Sys2Proof/Machine/Tick.lean ====
section
/-!
DEFINITION. The passage of one nanosecond of time, which is what a step does while no command waits (R18, R69, R77, R114).
-/
namespace Sys2Proof.Machine

/-- Every die's copy of local time moved by a count of ns. -/
def State.moveClocks (s : State) (n : Nat) : State := { s with time := { s.time with clk := s.time.clk.map (fun t => t + n) } }

/-- One ns of the reference moves local time by a ns and the frequency adjustment in force: what it adds to the phase carries into the
ns, so that local time moves by 0, 1 or 2 ns and never backward (R75, R77). -/
def State.advance (s : State) : State :=
  let p : Int := s.time.phase + s.freqAdj
  let s1 := { s with time := { s.time with phase := (p % nsUnits).toNat, slew := s.time.slew - s.slewRate } }
  s1.moveClocks (1 + p / nsUnits).toNat

/-- One nanosecond passes: elapsed time, and while die E runs every die's copy of local time; the supply ramp of a power transition may
end (R114). -/
def State.tick (s : State) : State :=
  let s1 := { s with mono := s.mono + 1 }
  if s.power.phase = .off ∨ s.power.phase = .held then s1 else s1.advance.rampEnd

end Sys2Proof.Machine
end

