-- ==== Sys2Proof/Machine/FrontEnd.lean ====
section
/-!
DEFINITION. The front-end signals of each chain of a radio die, as State and elapsed time determine them: TXEN, RXEN, PAEN, VRAMP, BAND
and CPLREV (R205 to R208, R260). All are low while the die is unpowered or in reset, and with its role disabled.
-/
namespace Sys2Proof.Machine

/-- A window of transmission of a chain: `mono` at its first sample, and after its last, where its ramp down begins; with the chain's RAMP and
the TX_LEAD, in ns. -/
structure FeWindow where
  start : Nat
  stop : Nat
  ramp : Nat
  lead : Nat
  deriving DecidableEq, Repr

/-- The lead die of a radio die's partition: itself where it is a member of none (R201). -/
def State.leadOf (s : State) (n : Nat) : Nat := (s.memberOf n).getD n

/-- The part of a transmission that a chain takes: to its end, or to the instant at which protection muted it (R206, R208). -/
def PartTx.windowOf (t : PartTx) (n c ramp lead : Nat) : List FeWindow :=
  (if t.sends n c then [{ start := t.start, stop := t.stop, ramp := ramp, lead := lead }] else [])
    ++ (t.muted.filter (fun x => x.1 == n && x.2.1 == c)).map (fun x => { start := t.start, stop := min x.2.2 t.stop, ramp := ramp, lead := lead })

/-- The transmissions of a chain whose signals may still run: the PPDU in progress and the last one, or the frame of a backhaul cycle, whose
signals a head's alert holds low (R206, R260, R283). -/
def State.feWindows (s : State) (n c : Nat) : List FeWindow :=
  match s.roleN n with
  | .access =>
    let d := s.leadOf n
    let p := s.part? d
    (p.tx.toList ++ p.last.toList).flatMap (fun t => t.windowOf n c (s.feRampNs n c) (s.feLeadNs d))
  | .backhaul =>
    let a := D6B.headTiming n (c / 8)
    match (s.dir (2 * n + c / 8)).txSpan with
    | some (x, y) => if s.bit (D1.chainEn n) c && !s.bit (D6B.headStat n (c / 8)) 1 then [{ start := x, stop := y, ramp := s.fld a 3 0 * 10, lead := s.fld a 11 8 * 10 }] else []
    | none => []
  | .off => []

/-- The die is powered and out of reset, so that its outputs may be high (R205). -/
def State.feLive (s : State) (n : Nat) : Bool := s.powered (dieN n)

/-- TXEN: from RAMP and TX_LEAD before the first sample to 0.1 µs after the ramp down (R206). -/
def State.feTxen (s : State) (n c : Nat) : Bool :=
  s.feLive n && (s.feWindows n c).any (fun w => decide (w.start ≤ s.mono + w.ramp + w.lead) && decide (s.mono < w.stop + w.ramp + 100))

/-- PAEN: from RAMP before the first sample to the end of the ramp down (R206). -/
def State.fePaen (s : State) (n c : Nat) : Bool :=
  s.feLive n && (s.feWindows n c).any (fun w => decide (w.start ≤ s.mono + w.ramp) && decide (s.mono < w.stop + w.ramp))

/-- The receiver of a chain is on. In access role it is in IDLE, LISTEN, RX and TX of an enabled partition, in which the spec's tables leave the
antenna with the receiver outside a transmission; in backhaul role while the direction is enabled (R206, R211, R226, R278). -/
def State.feReceives (s : State) (n c : Nat) : Bool :=
  match s.roleN n with
  | .access =>
    let d := s.leadOf n
    s.partOn d && (s.liveDies d).contains n && (s.pa d == paIdle || s.pa d == paListen || s.pa d == paRx || s.pa d == paTx)
  | .backhaul => s.dirOn (2 * n + c / 8)
  | .off => false

/-- RXEN: the receiver is on, and TXEN low (R206). -/
def State.feRxen (s : State) (n c : Nat) : Bool := s.feLive n && s.feReceives n c && s.bit (D1.chainEn n) c && !s.feTxen n c

/-- VRAMP: the ns of its raised-cosine ramp that the chain's PA bias has reached, RAMP at its top; none at 0 V (R205, R206). -/
def State.feVramp (s : State) (n c : Nat) : Option Nat :=
  if s.feLive n then
    ((s.feWindows n c).find? (fun w => decide (w.start ≤ s.mono + w.ramp) && decide (s.mono < w.stop + w.ramp))).map
      (fun w => min w.ramp (min (s.mono + w.ramp - w.start) (w.stop + w.ramp - s.mono)))
  else none

/-- BAND: high on the 5 and 6 GHz path of an access-role die, low in backhaul role (R205, R260). -/
def State.feBand (s : State) (n : Nat) : Bool := s.feLive n && s.roleN n == .access && s.acc.band.getLsbD n

/-- CPLREV: high over the second half of a PPDU of 20 µs or longer that the chain sends; low in backhaul role (R207, R260). -/
def State.feCplrev (s : State) (n c : Nat) : Bool :=
  s.feLive n && s.roleN n == .access && match (s.part? (s.leadOf n)).tx with
    | some t => t.sends n c && decide (20 ≤ t.us) && decide (t.start + t.us * 500 ≤ s.mono) && decide (s.mono < t.stop)
    | none => false

end Sys2Proof.Machine
end

