-- ==== Sys2Proof/Machine/Pins.lean ====
section
/-!
DEFINITION. The signals of die C and die E towards the board, as State and elapsed time determine them: the bypass holds, SFPq_TXDIS, the
GPIO and PWM outputs, and SPI_MISO (R128, R439, R448, R449, R472, R495).
-/
namespace Sys2Proof.Machine

/-- BYP_E_HOLD (0) or BYP_W_HOLD (1): low with die C unpowered (R449, R495). -/
def State.bypHold (s : State) (q : Nat) : Bool := s.powered .c && s.bit C9.bypStat q

/-- SFPq_TXDIS: high while the ring port is disabled, while TX_DIS is 1, and while die C is in reset or unpowered (R448, R495). -/
def State.sfpTxdis (s : State) (q : Nat) : Bool := !s.powered .c || !s.bit (C9.ethCfg q) 31 || s.bit (C9.sfpCtrl q) 0

/-- The level that GPIO pin `n` drives; none where it is an input (R128). -/
def State.gpioDrive (s : State) (n : Nat) : Option Bool :=
  if s.powered .e && s.bit E10.gpioDir n then some (s.bit E10.gpioOut n) else none

/-- SPI_MISO is driven: die E answers, and SPI_CS_N is low (R439, R500). -/
def State.misoDriven (s : State) (selected : Bool) : Bool := selected && s.power.phase == .done

/-- The inactive level of PWM output `n`: high where it is active low (R466, R472). -/
def State.pwmIdle (s : State) (n : Nat) : Bool := s.bit (E7.outCfgPwm n) 16

/-- Ticks of 25 ns in `k` periods of PWM output `n` for which it is active, rounded to the nearest: the remainder of each period is dithered
over its successors, so that the mean over 64 periods lies within 1 LSB of the duty (R472, log 125). -/
def State.pwmTicks (s : State) (n k : Nat) : Nat :=
  let d := s.fld (E7.outNow (n + 2)) 15 0
  let f := s.fld (E7.outCfgPwm n) 15 0
  (2 * k * d * 40000000 + 65535 * f) / (2 * 65535 * f)

/-- The active ticks of period `k` of PWM output `n`; none while it is disabled (R466, R472). -/
def State.pwmActive (s : State) (n k : Nat) : Nat :=
  if s.bit E7.lampCfg (n + 2) then s.pwmTicks n (k % 64 + 1) - s.pwmTicks n (k % 64) else 0

/-- Ns since the boundary at which the present period of PWM output `n` began. -/
def State.pwmInto (s : State) (n : Nat) : Nat :=
  s.now .e - (s.pwmPeriod n * 1000000000 + s.fld (E7.outCfgPwm n) 15 0 - 1) / s.fld (E7.outCfgPwm n) 15 0

/-- PWMn: active from the boundary for the active time, and at its inactive level for the rest of the period and while disabled (R466,
R472). -/
def State.pwmLevel (s : State) (n : Nat) : Bool :=
  xor (s.pwmIdle n) (decide (s.pwmInto n < 25 * s.pwmActive n (s.pwmPeriod n)))

end Sys2Proof.Machine
end

