-- ==== Sys2Proof/WellFormed.lean ====
section
/-!
DEFINITION. Which commands are well formed: the operands lie in the ranges their rules give.
-/
namespace Sys2Proof

/-- A BAR0 offset: within 64 MB and on a 32-bit boundary (R8, R37). -/
def offsetOk (a : Nat) : Bool := decide (a < 0x4000000) && a % 4 == 0

/-- The base of a page in the global window or a die window (R37, R38). -/
def pageOk (p : Nat) : Bool := decide (p < 0x2400000) && p % 0x10000 == 0

/-- An offset that a register or memory write can have: in BAR0, or the model's offset of BAR2, BAR4 or the DRAM (R37, R431). -/
def accessOk (a : Nat) : Bool :=
  a % 4 == 0 && (decide (a < 0x4000000) || (decide (0x10000000 ≤ a) && decide (a < 0x20004000)) ||
    (decide (0x400000000 ≤ a) && decide (a < 0x1400000000)))

/-- A radio start's report names tiles of a die, and no head answers identity 0 (R261). -/
def startOk (rep : StartReport) : Bool := rep.fails.all (fun f => decide (f.tile < 4)) && rep.head0 != some 0 && rep.head1 != some 0

/-- The operands of a command are values its rule gives them. -/
def Instr.wellFormed : Instr → Bool
  | .registerWrite _ a _ _ => accessOk a
  | .accessOff _ a _ => offsetOk a
  | .errCodeRead _ page => pageOk page
  | .clampFieldRead _ page => pageOk page
  | .clampCountRead _ page => pageOk page
  | .guardFailRead _ page => pageOk page
  | .rcCounterRead _ a _ => offsetOk a
  | .intStatClear _ page _ _ => pageOk page
  | .intSet _ page _ => pageOk page
  | .softReset _ page _ => pageOk page
  | .msixVectorUnmask _ => true
  | .msixEnable => true
  | .clampLogClr _ _ => true
  | .txnOpen _ _ => true
  | .txnOpened _ => true
  | .txnTagWrite _ page _ => pageOk page
  | .stagedWrite _ a _ => offsetOk a
  | .txnCommit _ _ => true
  | .prep _ _ _ _ => true
  | .armed _ _ _ => true
  | .vote _ _ _ => true
  | .cancel _ _ _ reason => decide (reason < 0xF)
  | .commitClose _ => true
  | .groupApply _ => true
  | .waitSupplyRecovery _ => true
  | .txnAbort _ _ => true
  | .txnRelease _ _ => true
  | .flueMessage src dst _ => decide (src ≠ dst)
  | .flueFlitRetry far _ => decide (far ≠ .c)
  | .flueSilenceTimeout far => decide (far ≠ .c)
  | .dieTimeCorrection _ => true
  | .timeMeasurement _ _ => true
  | .srcLost _ => true
  | .stepInstant => true
  | .timeSnap _ _ => true
  | .timeStep _ _ => true
  | .timeKeep _ _ => true
  | .timeSet _ _ => true
  | .reselect _ _ => true
  | .refusedClear _ _ => true
  | .eTimeSnap _ _ => true
  | .eTimeStep _ _ => true
  | .eTimeKeep _ _ => true
  | .eTimeSet _ _ => true
  | .eRefusedClear _ _ => true
  | .ptpFrameRx _ _ _ => true
  | .ptpEventTx _ _ => true
  | .ttReqSend _ => true
  | .ttReq _ _ seq _ => decide (seq < 2 ^ 16)
  | .ttResp _ seq _ => decide (seq < 2 ^ 16)
  | .ttLost _ => true
  | .ttSubExchange => true
  | .actArm _ _ _ => true
  | .actDisarm _ _ _ => true
  | .actionSupplyRecovery _ => true
  | .x32kStarted => true
  | .x32kFail => true
  | .xtal40Start _ => true
  | .x40mSettled => true
  | .xtal40Stop _ => true
  | .pwrEmber _ _ _ => true
  | .pwrStandby _ _ _ => true
  | .pwrRun _ _ _ _ => true
  | .pwrOff _ _ => true
  | .pwrReset _ _ => true
  | .dieCRelease => true
  | .kindleDone => true
  | .radioDieRelease _ => true
  | .radioStartDone _ rep => startOk rep
  | .dieRoleWrite _ _ => true
  | .transitionPauseTimeout => true
  | .por => true
  | .resetN _ _ => true
  | .supplyE _ _ _ => true
  | .dieERelease => true
  | .supplyC _ _ _ => true
  | .supplyD _ _ _ _ => true
  | .selftestDone _ _ _ => true
  | .selftestTimeout _ _ => true
  | .supplyWarning _ => true
  | .supplyOk _ _ _ => true
  | .retentionLost _ => true
  | .tempUpdate _ temp => decide (-128 ≤ temp ∧ temp < 128)
  | .gpioLevelChange _ _ => true
  | .gpioEvent _ => true
  | .rfCmdSleep _ => true
  | .rfCmdIdle _ => true
  | .rfCmdListen _ => true
  | .txNow _ => true
  | .rfCal _ _ => true
  | .rfRetune _ => true
  | .rfEd _ => true
  | .rfAbort _ _ => true
  | .trimClear _ => true
  | .preambleDetect _ => true
  | .syncDetect _ _ _ => true
  | .rxHeader _ => true
  | .capture _ _ _ _ => true
  | .rxFrameEnd _ => true
  | .sgTxEnd _ => true
  | .paProtect _ => true
  | .sgSynthLock => true
  | .synthUnlock => true
  | .txNoLock => true
  | .txSupply => true
  | .sgCalDone _ _ _ => true
  | .sgCalDeferredStart => true
  | .autoRetune => true
  | .edDone _ => true
  | .sgChanWrite _ _ _ => true
  | .afcTrimUpdate => true
  | .actPrepare _ => true
  | .rfActTx _ => true
  | .rfActListen _ => true
  | .rfActIdle _ => true
  | .rfActSleep _ => true
  | .rfActChannel _ => true
  | .macAckTx => true
  | .csmaBackoffEnd _ => true
  | .macAckRx _ => true
  | .ackTimeout => true
  | .meshFrameRx _ => true
  | .meshDataRx _ _ => true
  | .beaconTx => true
  | .extraBeacon => true
  | .beaconRx _ => true
  | .beaconWindowEnd => true
  | .addrLost => true
  | .scanDwellEnd => true
  | .joinReq _ => true
  | .joinResp _ => true
  | .joinTimeout => true
  | .pendingChildExpiry _ => true
  | .parentExcludeExpiry _ => true
  | .leave _ => true
  | .poll => true
  | .indirectSend => true
  | .childTimeout _ => true
  | .indirectExpiry _ => true
  | .floodEntryExpiry _ => true
  | .floodRx _ _ => true
  | .floodRebroadcast _ _ => true
  | .txDescriptor => true
  | .fcSaveDone _ => true
  | .meshKeyOverlapEnd => true
  | .meshKeySwitch _ => true
  | .permitOn _ => true
  | .permitOff _ => true
  | .beaconNow _ => true
  | .addrFree _ _ => true
  | .bankedBeacon => true
  | .partitionEnable _ _ => true
  | .partitionDisable _ _ => true
  | .partChanWrite _ _ _ => true
  | .accessSynthLock _ _ => true
  | .seqSleep _ _ => true
  | .seqIdle _ _ => true
  | .seqListen _ _ => true
  | .seqAbort _ _ _ => true
  | .ppduImmediate _ _ => true
  | .accessTxWaitExpiry _ => true
  | .ppduTxEnd _ _ _ _ => true
  | .chainProtect _ _ _ => true
  | .ppduSync _ _ => true
  | .ppduHeader _ _ => true
  | .ppduCapture _ _ _ => true
  | .ppduRxEnd _ _ _ _ _ => true
  | .partCal _ _ _ => true
  | .partCalDone _ _ => true
  | .partCalDeferredStart _ => true
  | .partActChannel _ _ => true
  | .partActListen _ _ => true
  | .partActIdle _ _ => true
  | .partActSleep _ _ => true
  | .soundingStart _ _ _ => true
  | .soundingFeedback _ _ _ => true
  | .soundDone _ => true
  | .weightsReady _ _ => true
  | .weightAgeExpiry _ => true
  | .staWrite _ _ => true
  | .staRead _ _ => true
  | .staRemove _ _ => true
  | .staRemoveDone _ => true
  | .staFlush _ _ _ _ => true
  | .staAlloc _ => true
  | .setKey _ _ => true
  | .setGkey _ _ => true
  | .twtAdd _ => true
  | .twtRemove _ _ => true
  | .twtRead _ _ => true
  | .schedCmdPause _ _ => true
  | .schedCmdResume _ _ => true
  | .replan _ _ => true
  | .planRebuild _ => true
  | .txopWon _ => true
  | .ppduPrepare _ _ _ => true
  | .txopEnd _ => true
  | .bsrpDue _ => true
  | .twtSpStart _ => true
  | .twtSpEnd _ => true
  | .mpduRx _ _ => true
  | .blockAckRx _ _ => true
  | .reorderTimeout _ _ => true
  | .staKeySwitch _ => true
  | .gkeySwitch _ => true
  | .twtEnable _ => true
  | .twtDisable _ => true
  | .schedPause _ => true
  | .schedResume _ => true
  | .bhCycleStart _ => true
  | .bhFrameRx _ _ => true
  | .bhHealthReport _ => true
  | .noiseWindowDone _ _ _ _ _ => true
  | .tmSend _ _ _ => true
  | .tmUpdateRx _ _ _ k _ _ => decide (k ≤ 12)
  | .bhLinkLost _ => true
  | .bhSearchRestart _ => true
  | .searchComplete _ => true
  | .headWrite _ _ _ _ => true
  | .headRead _ _ _ _ _ => true
  | .headAlert _ => true
  | .bhCal _ _ _ => true
  | .bhActChannel _ _ => true
  | .dirOn _ _ => true
  | .dirOff _ _ => true
  | .linkCfgEnable _ _ _ => true
  | .xblDispatch _ _ => true
  | .xblFrameRx _ _ _ => true
  | .xblReorderTimeout _ _ => true
  | .xblAckDue _ => true
  | .xblRetxTimeout _ _ => true
  | .keepaliveDue _ _ => true
  | .memberHealthReport _ _ _ _ => true
  | .memberSilent _ _ => true
  | .memberNoReport _ _ => true
  | .memberUp _ _ => true
  | .returnWaitEnd _ _ => true
  | .xblKeySwitch _ => true
  | .xblKeySelWrite _ _ _ => true
  | .linkOn _ => true
  | .linkOff _ => true
  | .ethFrameRx _ _ _ _ => true
  | .frameIngress _ _ _ => true
  | .learn => true
  | .portDequeue _ => true
  | .spillFetch _ => true
  | .discardSpill _ => true
  | .tblInsert _ => true
  | .tblDelete _ => true
  | .tblSearch _ => true
  | .tblNext _ _ _ => true
  | .flushPort _ _ _ _ => true
  | .ageSweep _ _ => true
  | .walkClose _ => true
  | .sweepDone => true
  | .autoAge => true
  | .walkTimeout _ => true
  | .parityRemove _ => true
  | .scrubPass _ => true
  | .hashSeedWrite _ _ _ => true
  | .lpmInsert _ _ => true
  | .lpmDelete _ _ => true
  | .lpmSearch _ _ => true
  | .lpmNext _ _ => true
  | .lpmWalkClose _ => true
  | .lpmRepair _ _ _ => true
  | .nhWrite _ _ => true
  | .nhRead _ _ => true
  | .vlanWrite _ _ => true
  | .vlanRead _ _ => true
  | .fwLoad _ => true
  | .fwVerifyDone => true
  | .fwHalt _ => true
  | .fwStart _ => true
  | .fwRestart _ _ => true
  | .engineWdtExpiry _ => true
  | .engineFault _ code _ => decide (1 ≤ code ∧ code ≤ 3)
  | .clean _ _ _ _ => true
  | .invalidate _ _ _ _ => true
  | .cleanInvalidate _ _ _ _ => true
  | .mbDoorbell _ _ => true
  | .mbRelease _ _ => true
  | .tdWrite _ _ => true
  | .tdRead _ _ => true
  | .tdFree _ _ => true
  | .setCount _ _ => true
  | .grDec _ _ => true
  | .grDone _ _ _ => true
  | .grateSourceEvent => true
  | .grateTimer _ => true
  | .grateDispatch => true
  | .preemptSaveDone _ => true
  | .taskEndResume _ => true
  | .taskOverrun _ => true
  | .embLoad _ _ => true
  | .embSwitch _ => true
  | .embSwitchApply => true
  | .chStart _ _ _ => true
  | .chPause _ _ => true
  | .dmaPaused _ => true
  | .chResume _ _ => true
  | .chStop _ _ => true
  | .chAbort _ _ => true
  | .dmaBurst _ => true
  | .dmaRequest _ => true
  | .chLevelAdj _ _ _ => true
  | .descriptorEnd _ _ => true
  | .dmaHostError _ => true
  | .aesKeyInstall _ _ _ _ _ => true
  | .aesKeyErase _ _ _ _ _ => true
  | .ctxOpen _ _ _ _ _ => true
  | .ctxClose _ _ _ => true
  | .ctxGo _ _ _ => true
  | .aesBlockDone => true
  | .pipeKeyInstall _ _ _ => true
  | .pipeKeyErase _ _ _ => true
  | .pipeKeyStat _ _ _ => true
  | .dramInit _ => true
  | .dramInitDone _ => true
  | .fspChange _ _ => true
  | .fspChangeStart => true
  | .fspDone => true
  | .retrainNow _ _ => true
  | .unfreezeResume _ => true
  | .unfreezeReinit _ => true
  | .dramRetrain => true
  | .refreshDue _ _ _ => true
  | .refreshPayback _ _ => true
  | .mr4Poll _ _ => true
  | .dramAccess _ _ _ _ _ _ _ => true
  | .patrolScrub _ => true
  | .perstDeassert => true
  | .pcieLinkUp _ _ => true
  | .hotReset => true
  | .functionLevelReset => true
  | .linkDown => true
  | .holdAbort _ _ _ => true
  | .spiWrite a ws _ => decide (1 ≤ ws.length ∧ ws.length ≤ 64 ∧ a < 4294967296)
  | .spiRead op a _ _ => decide (op ≠ 0x02 ∧ op ≠ 0x0B ∧ a < 4294967296)
  | .spiReadClr a _ _ _ => decide (a < 4294967296)
  | .cascWindowAccess _ off _ _ => decide (off < 0x1000000 ∧ off % 4 = 0)
  | .ethLinkChange _ _ => true
  | .sfpI2cAccess _ _ _ => true
  | .sfpI2cDone _ _ _ => true
  | .bypOpenWrite _ _ => true
  | .bypKick _ _ => true
  | .bypassWdtExpiry => true
  | .korUp _ _ _ _ => true
  | .korDegraded _ => true
  | .korDown _ => true
  | .korubTimeExchange _ _ _ => true
  | .levelWrite _ _ _ => true
  | .failsafeWrite _ _ _ => true
  | .failsafeStoreDone _ => true
  | .lampKick _ _ => true
  | .hostWdtExpiry => true
  | .pwmBoundary _ => true
  | .daliLevelFrame _ _ => true
  | .daliCollision _ => true
  | .daliFrameDone _ _ => true
  | .dqPush _ _ _ => true
  | .dqFlush _ _ _ => true
  | .dqResRead _ _ => true
  | .busDown _ => true
  | .busUp _ => true
  | .lampActLevel _ => true
  | .lampActScene _ => true
  | .evtRdIdx _ _ => true
  | .evtClr _ _ => true
  | .traceIntake => true
  | .transDone => true
  | .x40mUsable => true
  | .eLockAgeExpiry => true
  | .xblKeyOverlapEnd _ => true
  | .aesHoldExpiry => true
  | .embVerifyDone => true
  | .perstAssert => true
  | .headAlertRelease _ => true
  | .addressTableWriteDone _ => true

end Sys2Proof
end

