-- ==== Sys2Proof/Safety.lean ====
section
/-!
DEFINITION. What counts as a safe state and a safe step: the canonical forms of the register file and the memories, legal straps, and
a command completing.
-/
namespace Sys2Proof

open Sys2Proof.Machine

/-- The register overlay is in canonical form: offsets rise, and none is listed at its reset value. -/
def regsCanon (s : State) : Bool := Sparse.sorted s.regs && s.regs.all (fun p => p.2 != s.resetOf p.1)

/-- Every memory of the device is in canonical form. -/
def memsCanon (s : State) : Bool :=
  Mem.wf s.shared && Mem.wf s.dram && Mem.wf s.esram && Mem.wf s.ember.sram && s.radioMem.all Mem.wf && s.engines.all (fun e => Mem.wf e.sram)

/-- The register overlay is in offset order and every memory is in canonical form. -/
def Machine.State.canon (s : State) : Bool := Sparse.sorted s.regs && memsCanon s

/-- Commands run one after another, each completing, lead from `s` to `t`. -/
def runs : List Instr → State → State → Prop
  | [], s, t => s = t
  | c :: cs, s, t => ∃ u, exec c s = .next u ∧ runs cs u t

/-- The straps name a part of a cascade (R455). -/
def strapsOk (s : State) : Bool := decide (s.straps.part < 4)

/-- Registers of Ashpit that any record may change: its counters, the sticky bits, and its page's events (R486, R488). -/
def Machine.ashpitRegs : List Nat := [C11.evtOverflow, C11.evtELost, C11.healthSticky, HDR.intRaw C11.page]

/-- The command answers a next state of which `P` holds. -/
def gives (c : Instr) (s : State) (P : State → Prop) : Prop := ∃ t, exec c s = .next t ∧ P t

/-- A requester's write of the register at `a` is direct: the register's window can be reached, and the requester has no tag on its page
(R39, R56, R443). -/
def Machine.State.direct (s : State) (r : Requester) (a : Nat) : Bool := s.reachable a && s.pathOk r a && s.tagOf r (pageOf a) == 0

/-- A direct write of `w` by `r` at a block register that is no command register leaves `x`: the register takes writes, a guarded word's
halves agree, no field is out of its legal range, no live group has staged it, and no state of its block locks it (R43 to R47, R59). -/
def Machine.State.takes (s : State) (r : Requester) (a : Nat) (w x : Word) : Bool :=
  s.direct r a && decide (0x100 ≤ a % 0x10000) && (s.commandAt a).isNone && (s.memberPage a).isNone && !s.stagedAt a && (s.writeLock a w).isNone &&
    match s.spec a with
    | some g =>
      let wg := g.acc == .wg
      let w0 := mergeFields (if wg then BitVec.ofNat 32 (s.fld a 15 0) else s.rd a) (if wg then BitVec.ofNat 32 (bitsOf w 15 0) else w)
        (s.fieldsOf a g)
      (g.acc == .rw || wg && guardOk w) && (timeBad (s.fieldsOf a g) w0).isNone && x == s.legalise s.rd a (s.fieldsOf a g) w0 &&
        (clampsOf (s.fieldsOf a g) w0 x false).isEmpty
    | none => false

end Sys2Proof
end

