-- ==== Sys2Proof/Certificates/Slice0/Obligations.lean ====
section
/-!
DEFINITION. The statements for the provers. `gives c s P` says that the command c, executed in s, answers a next state of which P
holds; `s.direct r a` that a write by r of the register at a reaches it, with no tag on its page. Where a statement gives the next state
whole, it gives the frame with it: what the state it names does not change is unchanged.
-/
open Sys2Proof Sys2Proof.Machine

/-- A step runs the command at the front of the queue on the state with the queue's rest. The queue is the model's form of a block that takes commands from outside (log entry 6). -/
def Obligations.StepRunsFront : Prop :=
  ∀ (c : Instr) (rest : List Instr) (s : State),
      step { s with pending := c :: rest } = exec c { s with pending := rest }

/-- The model's choice for an empty queue (log entry 5): one nanosecond passes; of the registers only the pause bit of PWR_STATE can change, where a supply ramp ends under a supply warning (R114). -/
def Obligations.IdleStepPassesTime : Prop :=
  ∀ (s : State), s.pending = [] →
      ∃ t, step s = .next t ∧ t.mono = s.mono + 1 ∧ (∀ a, a ≠ GLB.pwrState → t.rd a = s.rd a) ∧ (∀ n, n < 32 → n ≠ 9 → t.bit GLB.pwrState
        n = s.bit GLB.pwrState n) ∧ ((∀ x, s.power.trans = some x → x.ramp ≠ some (s.mono + 1)) → t.rd GLB.pwrState = s.rd GLB.pwrState) ∧
        t.dram = s.dram ∧ t.shared = s.shared ∧ t.esram = s.esram ∧ t.txu = s.txu ∧ t.qm = s.qm ∧ t.fwd = s.fwd ∧ t.lamp = s.lamp ∧
        t.pending = []

/-- State.reset at the values the spec gives. -/
def Obligations.ResetValues : Prop :=
      State.reset.pstate = 1 ∧ State.reset.rd E1.rstCause = 1 ∧ State.reset.powered .e = true ∧ State.reset.powered .c = false ∧ (∀ d :
        Fin 6, State.reset.powered (.d d) = false) ∧ State.reset.time.epoch = 0 ∧ State.reset.openCount = 0 ∧ State.reset.actq = [] ∧
        State.reset.pending = [] ∧ State.reset.dram = [] ∧ State.reset.shared = [] ∧ State.reset.esram = [] ∧ State.reset.rd C2.servoCfg =
        0x1407D064 ∧ State.reset.rd E1.pmCfg = 0x503C ∧ State.reset.rd E7.hostWdt = 0x12C

/-- Writes by access code: RO and RC discard, W1C clears the bits written as 1. -/
def Obligations.AccessCodes : Prop :=
  (∀ (r : Requester) (a : Nat) (w : Word) (g : RegSpec) (s : State), a % 4 = 0 → 0x100 ≤ a % 0x10000 → s.direct r a = true →
     s.spec a = some g → s.commandAt a = none → s.memberPage a = none → (g.acc = .ro ∨ g.acc = .rc) →
       exec (.registerWrite r a w 0xF) s = .next s) ∧
  (∀ (r : Requester) (a : Nat) (w : Word) (g : RegSpec) (s : State), a % 4 = 0 → 0x100 ≤ a % 0x10000 → s.direct r a = true →
     s.spec a = some g → s.commandAt a = none → s.memberPage a = none → g.acc = .w1c →
       exec (.registerWrite r a w 0xF) s = .next (s.healthStep (s.wr a (s.rd a &&& ~~~ w)))) ∧
  (∀ (a : Nat) (w : Word) (be : BitVec 4) (s : State), a < 0x4000000 → (a % 4 ≠ 0 ∨ be ≠ 0xF) → s.powered .c = true →
       exec (.registerWrite .pcie a w be) s = .next (s.err C8.page 0x0100 (BitVec.ofNat 32 a))) ∧
  (∀ (r : Requester) (a : Nat) (w : Word) (be : BitVec 4) (s : State), a < 0x4000000 → a % 4 ≠ 0 → r ≠ .pcie →
       exec (.registerWrite r a w be) s = .next s) ∧
  (∀ (r : Requester) (a : Nat) (w : Word) (be : BitVec 4) (s : State), 0x4000000 ≤ a → a < bar2 →
       exec (.registerWrite r a w be) s = .fault .badOffset)

/-- Reads of a page header's read-clear registers, and ACCESS_OFF. -/
def Obligations.HeaderReads : Prop :=
  (∀ (r : Requester) (p : Nat) (s : State), p % 0x10000 = 0 → p < 0x2400000 → s.reachable (HDR.errCode p) = true →
     s.pathOk r (HDR.errCode p) = true →
       exec (.errCodeRead r p) s = .next ((s.healthStep (s.wrs [(HDR.errCode p, 0), (HDR.errInfo p, 0)])).answer [if s.zeroPage
         (HDR.errCode p) then 0 else s.rd (HDR.errCode p)])) ∧
  (∀ (r : Requester) (p : Nat) (s : State), p % 0x10000 = 0 → p < 0x2400000 → s.reachable (HDR.clampField p) = true →
     s.pathOk r (HDR.clampField p) = true →
       exec (.clampFieldRead r p) s = .next ((s.freezeClamp r p).answer [if s.zeroPage (HDR.clampField p) then 0 else s.rd (HDR.clampField
         p)])) ∧
  (∀ (r : Requester) (p : Nat) (s : State) (t : State), p % 0x10000 = 0 → p < 0x2400000 → s.reachable (HDR.clampCount p) = true →
     s.pathOk r (HDR.clampCount p) = true → t = (s.wr (HDR.clampCount p) 0).setBit (HDR.clampField p) 31 false →
       exec (.clampCountRead r p) s = .next
         ({ t with logs := { t.logs with freezes := t.logs.freezes.filter (fun (x : ClampFreeze) => !(x.req == r && x.page == p)) } }.answer
         [if s.zeroPage (HDR.clampCount p) then 0 else s.rd (HDR.clampCount p)])) ∧
  (∀ (r : Requester) (p : Nat) (s : State), p % 0x10000 = 0 → p < 0x2400000 → s.reachable (HDR.guardFail p) = true →
     s.pathOk r (HDR.guardFail p) = true →
       exec (.guardFailRead r p) s = .next ((s.wr (HDR.guardFail p) 0).answer [if s.zeroPage (HDR.guardFail p) then 0 else s.rd
         (HDR.guardFail p)])) ∧
  (∀ (r : Requester) (a : Nat) (write : Bool) (s : State), 0x400000 ≤ a → a < 0x2400000 → s.power.phase = .done →
     s.fitted (dieOf a) = true → s.powered (dieOf a) = false →
       exec (.accessOff r a write) s = .next (if write then s.err GLB.page 1 (BitVec.ofNat 32 a) else (s.err GLB.page 1 (BitVec.ofNat 32
         a)).answer [0])) ∧
  (∀ (r : Requester) (a : Nat) (write : Bool) (s : State), 0x2400000 ≤ a → a < 0x4000000 →
       exec (.accessOff r a write) s = .next (if write then s else s.answer [0]))

/-- INT_STAT, INT_SET and soft reset of a page. -/
def Obligations.InterruptBits : Prop :=
  (∀ (r : Requester) (p : Nat) (w coincide : Word) (s : State), p % 0x10000 = 0 → p ≠ E10.page → s.direct r (HDR.intStat p) = true →
       exec (.intStatClear r p w coincide) s = .next (s.signal (s.wr (HDR.intRaw p) ((s.rd (HDR.intRaw p) &&& ~~~ w) ||| coincide)) p)) ∧
  (∀ (r : Requester) (p : Nat) (w : Word) (s : State), p % 0x10000 = 0 → s.direct r (HDR.intSet p) = true →
       exec (.intSet r p w) s = .next (s.signal (s.wr (HDR.intRaw p) (s.rd (HDR.intRaw p) ||| w)) p)) ∧
  (∀ (r : Requester) (p : Nat) (w : Word) (s : State), p % 0x10000 = 0 → s.direct r (HDR.pageCtrl p) = true →
     s.bit (HDR.pageCtrl p) 0 = bitOf w 0 →
       exec (.softReset r p w) s = .next ((s.setBit (HDR.pageCtrl p) 8 (bitOf w 8)).softReset p))

/-- An event that coincides with the write that clears it stays set. -/
def Obligations.EventWinsOverClear : Prop :=
  ∀ (r : Requester) (p : Nat) (w coincide : Word) (s : State) (n : Nat), p % 0x10000 = 0 → n < 32 → s.reachable (HDR.intStat p) = true →
    s.pathOk r (HDR.intStat p) = true → bitOf coincide n = true →
      gives (.intStatClear r p w coincide) s (fun t => t.bit (HDR.intRaw p) n = true)

/-- MSI-X enable and unmask, the clamp log's clear, and read-clear counters. -/
def Obligations.MsixAndClampLog : Prop :=
  (∀ (s : State), s.powered .c = true → s.bit C8.hpStat 0 = true → s.msix.enabled = true →
       exec .msixEnable s = .next s) ∧
  (∀ (s : State), s.powered .c = true → s.bit C8.hpStat 0 = true → s.msix.enabled = false →
       exec .msixEnable s = .next { s with msix := { s.msix with enabled := true } }.fireAll) ∧
  (∀ (v : Fin 64) (s t : State), s.powered .c = true → s.bit C8.hpStat 0 = true →
     t = { s with msix := { s.msix with mask := s.msix.mask &&& ~~~ BitVec.ofNat 64 (2 ^ v.val) } } →
       exec (.msixVectorUnmask v) s = .next (if s.msix.pend.getLsbD v.val && s.msix.enabled then
         { t with msix := { t.msix with pend := t.msix.pend &&& ~~~ BitVec.ofNat 64 (2 ^ v.val) } }.emit (.msix v.val) else t)) ∧
  (∀ (r : Requester) (w : Word) (s : State), s.direct r GLB.clampLogClr = true →
       exec (.clampLogClr r w) s = .next (if bitOf w 0 then { s.wr GLB.clampLogLost 0 with logs := { s.logs with clamps := [] } } else s)) ∧
  (∀ (r : Requester) (a : Nat) (coincide : Word) (s : State), a % 4 = 0 → a < 0x2400000 → s.countsAt a = true → s.reachable a = true →
     s.pathOk r a = true →
       exec (.rcCounterRead r a coincide) s = .next (if coincide = 0 then s.readFull r a else (s.readFull r a).wr a coincide))

/-- Opening a group, reading its tag, and naming it on a page. -/
def Obligations.GroupOpening : Prop :=
  (∀ (r : Requester) (w : Word) (n : Fin 16) (s : State), s.direct r C1.txnOpen = true → s.txuRuns = true →
     (List.finRange 16).find? (fun m => (s.group m).state == .free) = some n →
       exec (.txnOpen r w) s = .next ((s.setGroup n
         { Group.empty with gen := nextGen (s.group n).gen, state := .opened, allowClamp := bitOf w 0, notify := bitOf w 1 }).setTxuPort
         { s.txuPort r with opened := BitVec.ofNat 32 (2 ^ 31 + n.val * 256 + nextGen (s.group n).gen) })) ∧
  (∀ (r : Requester) (s : State), s.reachable C1.page = true → s.isMaster = true →
       exec (.txnOpened r) s = .next ((s.setTxuPort { s.txuPort r with opened := 0 }).answer [(s.txuPort r).opened])) ∧
  (∀ (r : Requester) (page : Nat) (w : Word) (n : Fin 16) (s : State), s.reachable page = true → s.isMaster = true → bitsOf w 11 0 ≠ 0 →
     s.tagGroup (bitsOf w 11 0) = some n → (s.group n).state = .opened →
       exec (.txnTagWrite r page w) s = .next (s.setTag r page (bitsOf w 11 0)))

/-- Committing, aborting and releasing a group. -/
def Obligations.GroupCommit : Prop :=
  (∀ (r : Requester) (w : Word) (n : Fin 16) (s : State), s.direct r C1.txnCommit = true → guardOk w = true → s.txuRuns = true →
     bitsOf w 15 0 / 4096 % 4 ≠ 3 → bitsOf w 15 0 < 16384 → s.tagGroup (bitsOf w 15 0 % 4096) = some n → (s.group n).state = .opened →
     judge (atimeDiff (s.txuPort r).atimeS.toNat (s.txuPort r).atimeNs.toNat (s.now .c)) 1000000 = .ahead → s.epochPend = false →
       exec (.txnCommit r w) s = .next (((s.accept C1.txnCommit (bitsOf w 15 0)).setGroup n
         { s.group n with state := .committed, policy := bitsOf w 15 0 / 4096 % 4, tS := (s.txuPort r).atimeS.toNat, tNs := (s.txuPort r).atimeNs.toNat, reason := 0, info := 0, shift := 0, closed := false }).emit
         (.commit 1 n.val))) ∧
  (∀ (r : Requester) (w : Word) (n : Fin 16) (s : State), s.direct r C1.txnAbort = true → guardOk w = true → s.txuRuns = true →
     bitsOf w 15 0 < 4096 → s.tagGroup (bitsOf w 15 0) = some n → (s.group n).state = .opened →
       exec (.txnAbort r w) s = .next ((s.accept C1.txnAbort (bitsOf w 15 0)).abortGroup n rsnHost 0)) ∧
  (∀ (r : Requester) (w : Word) (n : Fin 16) (s : State), s.direct r C1.txnRelease = true → s.txuRuns = true →
     s.tagGroup (bitsOf w 11 0) = some n → (s.group n).state = .complete →
       exec (.txnRelease r w) s = .next (s.setGroup n { Group.empty with gen := (s.group n).gen }))

/-- Staging a write, placing a share in shadows, and ARMED. -/
def Obligations.GroupStaging : Prop :=
  (∀ (r : Requester) (a : Nat) (w x : Word) (g : RegSpec) (n : Fin 16) (s : State), a % 4 = 0 → 0x100 ≤ a % 0x10000 → a < 0x2400000 →
     s.reachable a = true → s.pathOk r a = true → s.spec a = some g → s.commandAt a = none → s.memberPage a = none →
     s.tagOf r (pageOf a) ≠ 0 → g.trans = true → s.isMaster = true → s.tagGroup (s.tagOf r (pageOf a)) = some n →
     (s.group n).state = .opened → s.stageCheck (s.groupView n) a g w = .value x [] →
       exec (.stagedWrite r a w) s = .next (s.stageValue n a x false)) ∧
  (∀ (n : Fin 16) (d : Die) (share : Option GroupShare) (s : State), s.cRuns = true → s.isMaster = true → d ≠ .c →
     (s.group n).state = .committed → (s.group n).has 0 d = true → s.powered d = true → (s.group n).shadowed.contains d = false →
     ((s.group n).share d).all (fun y => match s.spec y.addr with | some g => (clampsOf (s.fieldsOf y.addr g) y.value (s.legalise (s.groupView n) y.addr (s.fieldsOf y.addr g) y.value) true).isEmpty | none => true) = true →
       exec (.prep n d none share) s = .next (s.setGroup n { s.group n with shadowed := (s.group n).shadowed ++ [d] })) ∧
  (∀ (n : Fin 16) (p : Fin 4) (d : Die) (s : State), s.txuRuns = true → (s.group n).state = .committed → (s.group n).has p.val d = true →
     (p ≠ 0 ∨ (s.group n).shadowed.contains d = true) → (s.group n).armedBy.contains (p.val, d) = false →
     ((s.group n).participants.all (fun q => ((s.group n).armedBy ++ [(p.val, d)]).contains q)) = true →
       exec (.armed n p d) s = .next (s.setGroup n { s.group n with armedBy := (s.group n).armedBy ++ [(p.val, d)], state := .armed }))

/-- The vote, CANCEL, the close and the application of a group. -/
def Obligations.GroupVote : Prop :=
  (∀ (n : Fin 16) (go : Bool) (remote : List RemoteVote) (s : State), s.cRuns = true → s.isMaster = true → (s.group n).state = .armed →
     s.groupDiff (s.group n) ≤ (if (s.group n).remote then 60000 else 50000) →
     chosen (s.localFindings (s.group n) ++ remoteFindings (s.group n) remote) = none →
       exec (.vote n go remote) s = .next (((s.emit (.commit 2 n.val)).setGroup n
         { s.group n with state := .go, unlocked := (s.group n).unlocked || !s.locked, closed := false }).emit (.commit 3 n.val))) ∧
  (∀ (n : Fin 16) (p : Fin 4) (d : Die) (reason : Nat) (s : State), s.cRuns = true → s.isMaster = true → (s.group n).state = .go →
     s.groupClosed (s.group n) = false → (s.group n).has p.val d = true → reason ≠ rsnSupply →
       exec (.cancel n p d reason) s = .next (s.abortGroup n reason (txnInfo (dieCode d) 0 0))) ∧
  (∀ (n : Fin 16) (s : State), s.cRuns = true → (s.group n).state = .go → (s.group n).closed = false → s.groupDiff (s.group n) ≤ 2000 →
     s.lampFault (s.group n) = none →
       exec (.commitClose n) s = .next (s.setGroup n { s.group n with closed := true })) ∧
  (∀ (n : Fin 16) (s : State), s.keptDue n = none → s.cRuns = true → s.isMaster = true → (s.group n).state = .go →
     s.groupDiff (s.group n) ≤ 0 → s.actFirst (s.group n).pages (s.group n).tS (s.group n).tNs = false →
       exec (.groupApply n) s = .next ((s.applyShares n (s.group n)).groupEnd n
         { s.group n with state := .complete, appS := sec32 (s.now .c), appNs := nsOf (s.now .c) })) ∧
  (∀ (n : Fin 16) (s : State), s.txuRuns = true → (s.group n).state = .waitSupply →
     (allDies.any (fun d => (s.group n).has 0 d && s.supplyWarn d)) = false →
     chosen (s.localFindings (s.group n) ++ remoteFindings (s.group n) []) = none → s.txu.groups.length = 16 →
       gives (.waitSupplyRecovery n) s (fun t => (t.group n).state = .go ∧ (t.group n).tS = sec32 (s.now .c + 50000) ∧ (t.group n).tNs =
         nsOf (s.now .c + 50000) ∧ (t.group n).late = true ∧ (t.group n).supply = true ∧ t.regs = s.regs))

/-- TIME_STEP, TIME_KEEP, TIME_SET, RESELECT and REFUSED_CLEAR on the NTU page and on die E's. -/
def Obligations.TimeCommands : Prop :=
  (∀ (r : Requester) (hi : Half) (s u : State), s.direct r C2.timeCmd = true → guardOk (hi ++ (1 : Half)) = true → s.cTime = true →
     s.isMaster = true → s.bit C2.timeQual 12 = true → u = s.accept C2.timeCmd 1 →
       exec (.timeStep r hi) s = .next (((((u.setBit C2.timeQual 12 false).onKeeper true (fun k =>
         { k with recent := [], prevFar := false, stepRun := 0 })).setQual true qAcquiring).nameStep (-s.time.ntu.lastOfs) true).rejudge
         (-s.time.ntu.lastOfs) false)) ∧
  (∀ (r : Requester) (hi : Half) (s u : State), s.direct r C2.timeCmd = true → guardOk (hi ++ (2 : Half)) = true → s.cTime = true →
     s.isMaster = true → s.bit C2.timeQual 12 = true → u = s.accept C2.timeCmd 2 →
       exec (.timeKeep r hi) s = .next (((((u.setBit C2.timeQual 12 false).setBit C2.timeQual 13 true).onKeeper true (fun k =>
         { k with refused := if k.refused.contains k.stepSrc then k.refused else k.stepSrc :: k.refused, stepRun := 0 })).reselect.rejudge
         0 false).twtLost)) ∧
  (∀ (r : Requester) (hi : Half) (s u : State), s.direct r C2.timeCmd = true → guardOk (hi ++ (3 : Half)) = true → s.cTime = true →
     s.isMaster = true → s.qualOf true ≠ qAcquiring → s.qualOf true ≠ qLocked → u = s.accept C2.timeCmd 3 →
       exec (.timeSet r hi) s = .next (((((u.setBit C2.timeQual 12 false).onKeeper true (fun k =>
         { k with recent := [], prevFar := false, stepRun := 0 })).setQual true qAcquiring).nameStep ((u.setTime true : Int) - u.now .c)
         true).rejudge ((u.setTime true : Int) - u.now .c) true)) ∧
  (∀ (r : Requester) (hi : Half) (s u : State), s.direct r C2.timeCmd = true → guardOk (hi ++ (4 : Half)) = true → s.cTime = true →
     u = s.accept C2.timeCmd 4 →
       exec (.reselect r hi) s = .next u.reselect) ∧
  (∀ (r : Requester) (hi : Half) (s u : State), s.direct r C2.timeCmd = true → guardOk (hi ++ (5 : Half)) = true → s.cTime = true →
     u = s.accept C2.timeCmd 5 →
       exec (.refusedClear r hi) s = .next (((u.setBit C2.timeQual 13 false).onKeeper true (fun k => { k with refused := [] })).reselect)) ∧
  (∀ (r : Requester) (hi : Half) (s u : State), s.direct r E8.timeCmd = true → guardOk (hi ++ (1 : Half)) = true → s.cTime = false →
     s.isMaster = true → s.bit E8.timeQual 12 = true → u = s.accept E8.timeCmd 1 →
       exec (.eTimeStep r hi) s = .next (((((u.setBit E8.timeQual 12 false).onKeeper false (fun k =>
         { k with recent := [], prevFar := false, stepRun := 0 })).setQual false qAcquiring).nameStep (-s.time.rtc.lastOfs) true).rejudge
         (-s.time.rtc.lastOfs) false)) ∧
  (∀ (r : Requester) (hi : Half) (s u : State), s.direct r E8.timeCmd = true → guardOk (hi ++ (2 : Half)) = true → s.cTime = false →
     s.isMaster = true → s.bit E8.timeQual 12 = true → u = s.accept E8.timeCmd 2 →
       exec (.eTimeKeep r hi) s = .next (((((u.setBit E8.timeQual 12 false).setBit E8.timeQual 13 true).onKeeper false (fun k =>
         { k with refused := if k.refused.contains k.stepSrc then k.refused else k.stepSrc :: k.refused, stepRun := 0 })).rejudge 0
         false).twtLost)) ∧
  (∀ (r : Requester) (hi : Half) (s u : State), s.direct r E8.timeCmd = true → guardOk (hi ++ (3 : Half)) = true → s.cTime = false →
     s.isMaster = true → s.qualOf false ≠ qAcquiring → s.qualOf false ≠ qLocked → u = s.accept E8.timeCmd 3 →
       exec (.eTimeSet r hi) s = .next (((((u.setBit E8.timeQual 12 false).onKeeper false (fun k =>
         { k with recent := [], prevFar := false, stepRun := 0 })).setQual false qAcquiring).nameStep ((u.setTime false : Int) - u.now .e)
         true).rejudge ((u.setTime false : Int) - u.now .e) true)) ∧
  (∀ (r : Requester) (hi : Half) (s u : State), s.direct r E8.timeCmd = true → guardOk (hi ++ (5 : Half)) = true → s.cTime = false →
     u = s.accept E8.timeCmd 5 →
       exec (.eRefusedClear r hi) s = .next (((u.setBit E8.timeQual 13 false).onKeeper false (fun k =>
         { k with refused := [] })).rtcJudge))

/-- Snapshots, the correction of a die's time, the instant of a step, and die E's own judgement. -/
def Obligations.TimeKeeping : Prop :=
  (∀ (r : Requester) (w : Word) (s : State), s.direct r C2.timeSnap = true →
       exec (.timeSnap r w) s = .next (if bitOf w 0 then s.wrArr (keeperPage true + 0x104) (ntime (s.now .c) s.time.epoch s.frac) else s)) ∧
  (∀ (r : Requester) (w : Word) (s : State), s.direct r E8.timeSnap = true →
       exec (.eTimeSnap r w) s = .next (if bitOf w 0 then s.wrArr (keeperPage false + 0x104) (ntime (s.now .e) s.time.epoch s.frac) else
         s)) ∧
  (∀ (d : Die) (s : State), s.cTime = true → s.powered d = true →
       exec (.dieTimeCorrection d) s = .next
         { s with time := { s.time with clk := s.time.clk.set (dieIdx d).val (s.now .c) (by have := (dieIdx d).isLt; omega) } }) ∧
  (∀ (m : StepMsg) (s : State), s.time.step = some m → m.instant ≤ s.now (if s.cTime then .c else .e) →
       exec .stepInstant s = .next
         (({ s with time := { s.time with clk := s.time.clk.map (fun (c : Nat) => (Int.ofNat c + m.delta).toNat), epoch := if m.advance then s.time.epoch + 1 else s.time.epoch, step := none } }.onGroups
         (fun (g : Group) => if g.state = GState.go ∨ g.shift ≠ 0 then { g with shift := g.shift + m.delta } else g)).raise (keeperPage
         s.cTime) 5).twtLost) ∧
  (∀ (m : StepMsg) (s : State), s.time.step = some m → s.now (if s.cTime then .c else .e) < m.instant →
       exec .stepInstant s = .next s) ∧
  (∀ (s : State), s.cTime = false →
       exec .eLockAgeExpiry s = .next ((s.setFld E8.timeQual 11 8 11).setQual false s.rtcQuality))

/-- Measurements, lost sources, PTP stamps, and Lanivy time transfer. -/
def Obligations.TimeMeasurements : Prop :=
  (∀ (src : Fin 14) (m : TimeMeas) (s : State), src.val ≠ 13 → (s.cTime = true ∨ src.val = 11) →
     (src.val < 3 → s.ptpSlave src.val = true) →
       exec (.timeMeasurement src m) s = .next ((s.noteOffset src.val m (s.measuredOffset src.val m)).measure src.val (s.measuredOffset
         src.val m) m.gmRank m.steps m.locked m.arb m.utc)) ∧
  (∀ (src : Fin 14) (x : SrcRec) (s u : State), s.time.ntu.sources.find? (fun y => y.num == src.val) = some x → s.cTime = true →
     x.last + s.fld C2.srcMode 13 8 * 1000000000 ≤ s.mono →
     u = ((s.onKeeper true (fun k => { k with sources := k.sources.filter (fun y => y.num != src.val) })).raise C2.page 4).reselect →
       exec (.srcLost src) s = .next (if s.time.ntu.sel = some src.val ∧ u.time.ntu.sel = none then u.err C2.page 0x0100 (BitVec.ofNat 32
         src.val) else u)) ∧
  (∀ (port : Fin 3) (ptp wellFormed : Bool) (s u : State), s.cTime = true → (ptp = true ∨ s.bit (C2.ptpCfg port.val) 4 = true) →
     u = s.emit (.ptpRx port.val (ntime (movedStamp (s.now .c) s.frac.toNat (-((s.rd (C2.ptpRxlatPs port.val)).toNat : Int))).1 s.time.epoch (BitVec.ofNat 16 (movedStamp (s.now .c) s.frac.toNat (-((s.rd (C2.ptpRxlatPs port.val)).toNat : Int))).2))) →
       exec (.ptpFrameRx port ptp wellFormed) s = .next (if ptp && !wellFormed then u.err C2.page 0x0103 (BitVec.ofNat 32 port.val) else
         u)) ∧
  (∀ (port : Fin 3) (wellFormed : Bool) (s : State), s.cTime = true → s.bit (C2.ptpCfg port.val) 4 = false →
       exec (.ptpFrameRx port false wellFormed) s = .next s) ∧
  (∀ (port : Fin 3) (sync : Bool) (s : State), s.cTime = true → s.ptpMaster port.val = true →
       exec (.ptpEventTx port sync) s = .next (s.emit (.ptpTx port.val (s.fld C2.ptpDomain 7 0) sync (movedStamp (s.now .c) s.frac.toNat
         ((s.rd (C2.ptpTxlatPs port.val)).toNat : Int)).1 (movedStamp (s.now .c) s.frac.toNat ((s.rd (C2.ptpTxlatPs port.val)).toNat :
         Int)).2 (s.fld (C2.ptpCfg port.val) 3 2)))) ∧
  (∀ (l : Fin 8) (m : Nat) (s : State), s.ttMember l.val = some m → s.linkOn l.val = true → s.bit (C2.ttCfg l.val) 0 = true →
     s.time.ttNext[l.val] ≤ s.mono →
       exec (.ttReqSend l) s = .next
         (((({ s with time := { s.time with exchanges := s.time.exchanges ++ [({ link := l.val, seq := s.time.ttSeq, member := m, t1 := s.memberStamp l.val m true, sent := s.mono } : TtExchange)], ttSeq := (s.time.ttSeq + 1) % 65536, ttNext := s.time.ttNext.set l.val (s.mono + s.ttInterval l.val) } }).wr
         (C2.ttMember l.val) (BitVec.ofNat 32 m)).emit (.ttReq l.val s.time.ttSeq (s.memberStamp l.val m true))).ttSend l.val m 1
         s.time.ttSeq (s.memberStamp l.val m true) 0 0)) ∧
  (∀ (l : Fin 9) (m : Fin 3) (seq t1 : Nat) (s : State), l.val < 8 → s.linkOn l.val = true → s.memAvail l.val m.val = true →
       exec (.ttReq l m seq t1) s = .next ((s.emit (.ttResp l.val seq t1 (s.memberStamp l.val m.val false) (s.memberStamp l.val m.val
         true) s.ttFlags)).ttSend l.val m.val 2 seq t1 (s.memberStamp l.val m.val false) (s.memberStamp l.val m.val true))) ∧
  (∀ (m : Fin 3) (seq t1 : Nat) (x : MeshAuth) (s : State), s.meshOn = true → s.mesh.auth = some x → s.pendAct (.rf 7) = none →
       exec (.ttReq 8 m seq t1) s = .next (((s.onMesh (fun y => { y with auth := none })).oscUser 2 true).engArm 7 6 (x.stamp + 10000000 -
         s.sfdNs) (s.psduLen 64 0) (.ttResp x.src seq t1 x.stamp))) ∧
  (∀ (l : Fin 9) (seq : Nat) (m : TimeMeas) (x : TtExchange) (s : State), s.ttOpen l.val seq = some x →
     (l.val ≠ 8 ∨ s.mesh.auth.isSome = true) →
       exec (.ttResp l seq m) s = .next (s.ttDone x m)) ∧
  (∀ (l : Fin 9) (x : TtExchange) (s : State), s.time.exchanges.find? (fun (y : TtExchange) => y.link == l.val) = some x →
     x.sent + 100000000 ≤ s.mono →
       exec (.ttLost l) s = .next ({ s with time := { s.time with exchanges := s.time.exchanges.filter (fun y => y != x) } }.err
         (keeperPage (decide (l.val < 8))) 0x0104 (BitVec.ofNat 32 l.val))) ∧
  (∀ (s : State), s.meshOn = true → s.parentUp = true → s.mesh.lastTt + secNs (s.fld E8.eTimeCfg 27 16) ≤ s.mono →
       exec .ttSubExchange s = .next ({ s with time := { s.time with ttSeq := (s.time.ttSeq + 1) % 65536 } }.draw (fun i u => (u.engArm 7
         6 (u.now .e + (u.leadNs (.rf 7)).toNat + Config.freeNat i % secNs 1) (u.psduLen 64 0) (.ttReq s.time.ttSeq)).onMesh (fun m =>
         { m with lastTt := s.mono }))))

/-- Arming and disarming a slot, recovery from a supply warning, and the Flue. -/
def Obligations.ActionsAndFlue : Prop :=
  (∀ (r : Requester) (x : ActSlot) (w : Word) (s t : State), s.direct r (slotArm x) = true → guardOk w = true → bitsOf w 15 0 / 8 = 0 →
     bitOf w 2 = true → s.slotLead x = none → s.slotTaken x = false → t = s.wr (slotArm x) (guardRead (bitsOf w 15 0)) →
     t.lampArmBad x = false → t.pendAct x = none →
       exec (.actArm r x w) s = .next (t.noteFs (t.freshAct x) ((t.unprepare x).armAct x (bitsOf w 15 0 % 4) ((t.unprepare x).slotPerform
         x)))) ∧
  (∀ (r : Requester) (x : ActSlot) (hi : Half) (a : PendAct) (s t : State), s.direct r (slotArm x) = true →
     guardOk (hi ++ (0 : Half)) = true → s.slotLead x = none → s.slotTaken x = false → t = s.wr (slotArm x) (guardRead 0) →
     s.pendAct x = some a → t.actBegun a = false → t.fld (slotStat x) 3 0 = stPending →
       exec (.actDisarm r x hi) s = .next ((t.unprepare x).endAct x stCancelled 0 false false false)) ∧
  (∀ (x : ActSlot) (a : PendAct) (s : State), s.pendAct x = some a → s.bit (slotStat x) 28 = true → s.fld (slotStat x) 3 0 = stPending →
     s.actWarn a = false → s.fld (slotStat x) 31 30 = 0 →
       exec (.actionSupplyRecovery x) s = .next (s.endAct x stMissed rsnSupply false false true)) ∧
  (∀ (src dst : Die) (m : FlueMsg) (s : State), flueLink src dst = true → s.powered src = true → s.powered dst = true →
     guardOk m.word = true →
       exec (.flueMessage src dst [m]) s = .next (s.emit (.flue dst m.cls m.addr m.word))) ∧
  (∀ (src dst : Die) (ms : List FlueMsg) (s : State), flueLink src dst = false →
       exec (.flueMessage src dst ms) s = .next s) ∧
  (∀ (n : Fin 6) (s : State), s.power.released.getLsbD n.val = true → s.power.flueRetry[(linkIdx (.d n)).val] ≠ 15 →
       exec (.flueFlitRetry (.d n) false) s = .next
         { s with power := { s.power with flueRetry := s.power.flueRetry.set (linkIdx (.d n)).val (s.power.flueRetry[(linkIdx (.d n)).val] + 1) } }) ∧
  (∀ (n : Fin 6) (s : State), s.power.released.getLsbD n.val = true →
       exec (.flueSilenceTimeout (.d n)) s = .next (s.loseD n 4))

/-- The 32.768 kHz and 40 MHz crystals. -/
def Obligations.Crystals : Prop :=
  (∀ (s : State), s.power.phase = .done →
       exec .x32kStarted s = .next (s.setBit E1.oscStat 0 true).oscSync) ∧
  (∀ (s : State), s.bit E1.oscStat 0 = true →
       exec .x32kFail s = .next (((s.setBit E1.oscStat 0 false).oscSync).raise E1.page 5)) ∧
  (∀ (u : Fin 4) (s t : State), s.power.phase = .done →
     t = ({ s with power := { s.power with oscUsers := s.power.oscUsers ||| BitVec.ofNat 4 (2 ^ u.val) } }).oscSync →
       exec (.xtal40Start u) s = .next (if u = 2 then t.windowOpen else t)) ∧
  (∀ (u : Fin 4) (s : State),
       exec (.xtal40Stop u) s = .next
         ({ s with power := { s.power with oscUsers := s.power.oscUsers &&& ~~~ BitVec.ofNat 4 (2 ^ u.val) } }).oscSync) ∧
  (∀ (s : State), s.bit E1.oscStat 1 = true →
       exec .x40mUsable s = .next ({ s with power := { s.power with x40Usable := true } }).aesKick) ∧
  (∀ (s : State), s.bit E1.oscStat 1 = true →
       exec .x40mSettled s = .next (({ s with power := { s.power with x40Usable := true } }).setBit E1.oscStat 2 true)) ∧
  (∀ (s : State), s.x40On = true →
       (s.oscSync).bit E1.oscStat 1 = true)

/-- PWR_CMD by the host: EMBER, STANDBY, RUN, OFF and RESET. -/
def Obligations.PowerCommands : Prop :=
  (∀ (r : Requester) (hi : Half) (s : State), s.direct r GLB.pwrCmd = true → guardOk (hi ++ (1 : Half)) = true → (∀ n, r ≠ .engine n) →
     s.pstate = 1 → s.power.trans = none →
       exec (.pwrEmber r hi false) s = .next (s.wr GLB.pwrCmd 1)) ∧
  (∀ (r : Requester) (hi : Half) (sr : Bool) (s : State), s.direct r GLB.pwrCmd = true →
     guardOk (hi ++ BitVec.ofNat 16 (1 + b2n sr * 1024)) = true → (∀ n, r ≠ .engine n) → (s.pstate = 2 ∨ s.pstate = 3) →
     s.power.trans = none →
       exec (.pwrEmber r hi sr) s = .next ((s.wr GLB.pwrCmd (BitVec.ofNat 32 (1 + b2n sr * 1024))).powerDown (1 + b2n sr * 1024))) ∧
  (∀ (r : Requester) (hi : Half) (s : State), s.direct r GLB.pwrCmd = true →
     guardOk (hi ++ BitVec.ofNat 16 (2 + b2n false * 1024)) = true → (∀ n, r ≠ .engine n) → s.pstate = 1 → s.power.trans = none →
       exec (.pwrStandby r hi false) s = .next (((s.wr GLB.pwrCmd 2).setEnC true).beginTrans
         { target := 2, origin := 1, cmd := 2, start := s.mono, kindle := true, adding := 0, sr := none, down := false, paused := none, wait := 0, ramp := some (s.mono + 6000000), ended := 0, srEnded := false })) ∧
  (∀ (r : Requester) (hi : Half) (en : BitVec 6) (s : State), s.direct r GLB.pwrCmd = true →
     guardOk (hi ++ BitVec.ofNat 16 (3 + en.toNat * 16 + b2n false * 1024)) = true → (∀ n, r ≠ .engine n) →
     en.toNat < 2 ^ radioDies s.part → s.pstate = 1 → s.power.trans = none →
       exec (.pwrRun r hi en false) s = .next (((s.wr GLB.pwrCmd (BitVec.ofNat 32 (3 + en.toNat * 16))).setEnC true).beginTrans
         { target := 3, origin := 1, cmd := BitVec.ofNat 32 (3 + en.toNat * 16), start := s.mono, kindle := true, adding := 0, sr := none, down := false, paused := none, wait := 0, ramp := some (s.mono + 6000000), ended := 0, srEnded := false })) ∧
  (∀ (r : Requester) (hi : Half) (sr : Bool) (s : State), s.direct r GLB.pwrCmd = true →
     guardOk (hi ++ BitVec.ofNat 16 (2 + b2n sr * 1024)) = true → (∀ n, r ≠ .engine n) → (s.pstate = 2 ∨ s.pstate = 3) →
     s.power.trans = none →
       exec (.pwrStandby r hi sr) s = .next ((s.wr GLB.pwrCmd (BitVec.ofNat 32 (2 + b2n sr * 1024))).runChange (2 + b2n sr * 1024))) ∧
  (∀ (r : Requester) (hi : Half) (en : BitVec 6) (sr : Bool) (s : State), s.direct r GLB.pwrCmd = true →
     guardOk (hi ++ BitVec.ofNat 16 (3 + en.toNat * 16 + b2n sr * 1024)) = true → (∀ n, r ≠ .engine n) → en.toNat < 2 ^ radioDies s.part →
     (s.pstate = 2 ∨ s.pstate = 3) → s.power.trans = none →
       exec (.pwrRun r hi en sr) s = .next ((s.wr GLB.pwrCmd (BitVec.ofNat 32 (3 + en.toNat * 16 + b2n sr * 1024))).runChange (3 +
         en.toNat * 16 + b2n sr * 1024))) ∧
  (∀ (n : Fin 16) (hi : Half) (s : State), s.direct (.engine n) GLB.pwrCmd = true → guardOk (hi ++ (5 : Half)) = true →
       exec (.pwrReset (.engine n) hi) s = .next (s.err GLB.page 0x0105 (BitVec.ofNat 32 n.val))) ∧
  (∀ (r : Requester) (hi : Half) (s : State), s.direct r GLB.pwrCmd = true → guardOk (hi ++ (4 : Half)) = true → (∀ n, r ≠ .engine n) →
     s.power.trans = none →
       exec (.pwrOff r hi) s = .next ((s.wr GLB.pwrCmd 4).powerDown 4)) ∧
  (∀ (r : Requester) (hi : Half) (s : State), s.direct r GLB.pwrCmd = true → guardOk (hi ++ (5 : Half)) = true → (∀ n, r ≠ .engine n) →
       exec (.pwrReset r hi) s = .next (s.deviceReset (match r with | .pcie => 4 | .spi => 5 | _ => 6) none))

/-- Kindle, radio start, the end of a transition, and a pause that lasts too long. -/
def Obligations.PowerTransitions : Prop :=
  (∀ (t : Transition) (s : State), s.power.trans = some t → t.kindle = true → s.power.cUp = false → t.paused = none → s.warned = false →
       exec .dieCRelease s = .next (({ s with power := { s.power with cUp := true, trans := some { t with ramp := none } } }).beginTest
         .c)) ∧
  (∀ (t : Transition) (s : State), s.power.trans = some t → t.kindle = true → s.power.cUp = false → t.paused = none → s.warned = true →
       exec .dieCRelease s = .next (s.onTrans (fun x => { x with ramp := none })).pauseNow) ∧
  (∀ (t : Transition) (s : State) (en : BitVec 6), s.power.trans = some t → t.kindle = true → s.power.cUp = true → s.testing .c = false →
     s.fld GLB.selftestSum 1 0 = 1 → t.paused = none → (en = if t.target = 3 then BitVec.ofNat 6 (bitsOf t.cmd 9 4) else 0) →
       exec .kindleDone s = .next ((((((((List.range 16).foldl (fun (u : State) e => u.setEng e engHalted)
         { ((s.timeToC).cReady).replay with grate := Grate.fresh s.mono, fwd := Fwd.fresh s.mono }).setFld GLB.pwrState 3 0 2).fsClear
         1).wdtRestart).dramKindle (bitOf t.cmd 10)).setEnD en true).onTrans (fun x =>
         { x with kindle := false, adding := en, ramp := if en = 0 then none else some (s.mono + 4000000) })).pauseTrans.transCheck) ∧
  (∀ (t : Transition) (d : Fin 6) (s : State), s.power.trans = some t → t.kindle = false → t.adding.getLsbD d.val = true →
     s.power.released.getLsbD d.val = false → t.paused = none → s.warned = false → s.fld E1.dieRole (2 * d.val + 1) (2 * d.val) = 1 →
       exec (.radioDieRelease d) s = .next
         ((({ s with power := { s.power with released := s.power.released ||| BitVec.ofNat 6 (2 ^ d.val), role := s.power.role.set d.val .access, trans := some { t with ramp := none } }, time := { s.time with clk := s.time.clk.set (d.val + 2) (s.now .c) } }).setBit
         GLB.diePower (d.val + 2) true).beginTest (.d d))) ∧
  (∀ (t : Transition) (d : Fin 6) (s : State), s.power.trans = some t → t.kindle = false → t.adding.getLsbD d.val = true →
     s.power.released.getLsbD d.val = false → t.paused = none → s.warned = true →
       exec (.radioDieRelease d) s = .next (s.onTrans (fun x => { x with ramp := none })).pauseNow) ∧
  (∀ (t : Transition) (d : Fin 6) (rep : StartReport) (s : State), s.power.trans = some t → t.adding.getLsbD d.val = true →
     s.power.released.getLsbD d.val = true → s.testing (.d d) = false → s.role d = .access → rep.fails = [] →
     t.wait.getLsbD d.val = false → t.ended.getLsbD d.val = false →
       exec (.radioStartDone d rep) s = .next (((((s.setFld (D3.calStat d.val) 31 24 (s.fld (DC.dieTemp (dWin d.val)) 7 0)).wr (D3.suFail
         d.val) 0).setPa d.val paIdle).phaseUse d.val).startEnd d)) ∧
  (∀ (t : Transition) (s : State), s.power.trans = some t → t.down = true → t.sr = none → t.target = 1 →
       exec .transDone s = .next ((((s.onTrans (fun x => { x with down := false, srEnded := false })).setFld GLB.pwrState 3 0
         1).timeToE).cOff false).transCheck) ∧
  (∀ (t : Transition) (s : State), s.power.trans = some t → t.down = true → t.target = 0 → t.sr ≠ some false →
       exec .transDone s = .next
         { (((s.stopAll false).setFld GLB.pwrState 3 0 0).wr GLB.diePower 0) with power := { (s.stopAll false).power with phase := .off } }) ∧
  (∀ (t : Transition) (s : State), s.power.trans = some t → (t.down = true ∨ t.sr = some true) → 1 < t.target → t.sr ≠ some false →
       exec .transDone s = .next ((s.onTrans (fun x => { x with down := false })).srEnd).transCheck) ∧
  (∀ (t : Transition) (t0 : Nat) (s : State), s.power.trans = some t → t.paused = some t0 →
     t0 + s.fld E1.pmCfg 15 12 * 100000000 < s.mono → t.kindle = false → t.origin = 2 →
       exec .transitionPauseTimeout s = .next (((({ s with power := { s.power with trans := none } }.dropAdded t 0).setPstate 2).err
         GLB.page 0x0102 t.cmd).raise E1.page 3)) ∧
  (∀ (t : Transition) (s : State), s.power.trans = some t → (t.ramp.isSome = true ∨ t.kindle = true ∧ s.testing .c = true) →
       s.pauseTrans = s) ∧
  (∀ (t : Transition) (s : State), s.power.trans = some t → t.kindle = true → t.ramp = none → s.testing .c = false → t.paused = none →
     s.warned = true →
       s.pauseTrans = { s.setBit GLB.pwrState 9 true with power := { s.power with trans := some { t with paused := some s.mono } } } ∧
         s.testBoundary .c = s.pauseTrans)

/-- Power-on and device resets, the release of die E, lost supplies, and self-test. -/
def Obligations.ResetsAndSelfTest : Prop :=
  (∀ (s : State),
       exec .por s = .next ({ s.stopAll true with regs := [] }.setFld E1.rstCause 3 0 1)) ∧
  (∀ (lowNs : Nat) (cmd : Option Word) (s : State), 10000 ≤ lowNs →
       exec (.resetN lowNs cmd) s = .next ((((s.stopAll true).setFld E1.rstCause 3 0 2).bump E1.rstCause 31 16 1).preempted cmd)) ∧
  (∀ (us mv : Nat) (cmd : Option Word) (s : State), s.monOn 0 = true →
       exec (.supplyE us mv cmd) s = .next (((((((s.warnDeclare 0).monEndAt 0 true us mv).stopAll true).setFld E1.rstCause 3 0 3).bump
         E1.rstCause 31 16 1)).preempted cmd)) ∧
  (∀ (s t : State), s.power.phase = .held →
     t = (List.range 6).foldl (fun (u : State) o => u.wr (E7.failsafe o) (BitVec.ofNat 32 (u.lampOut o).stored)) ({ s with power := { s.power with phase := .testing, x40Usable := true } }).embReset →
       exec .dieERelease s = .next (((((t.onMesh (fun m => { m with counters := m.counters.map resumeCounter })).meshShow).oscSync).setFld
         E8.timeQual 11 8 11).beginTest .e)) ∧
  (∀ (us mv : Nat) (cmd : Option Word) (s : State), s.power.cUp = true →
       exec (.supplyC us mv cmd) s = .next ((((s.warnDeclare 1).monEndAt 1 true us mv).loseC 1).preempted cmd)) ∧
  (∀ (d : Fin 6) (m : Fin 8) (us mv : Nat) (cmd : Option Word) (s : State), s.power.released.getLsbD d.val = true → m.val = d.val + 2 →
       exec (.supplyD d us mv cmd) s = .next ((((s.warnDeclare m).monEndAt m.val true us mv).loseD d 3).preempted cmd)) ∧
  (∀ (us mv : Nat) (cmd : Option Word) (d : Fin 6) (s : State), s.monOn 0 = false → s.power.cUp = false →
     s.power.released.getLsbD d.val = false →
       exec (.supplyE us mv cmd) s = .next s ∧ exec (.supplyC us mv cmd) s = .next s ∧ exec (.supplyD d us mv cmd) s = .next s) ∧
  (∀ (die : Die) (rep : TestReport) (cmd : Option Word) (s : State), s.testing die = true → rep.standing = 0 → rep.first ≠ 0 →
       exec (.selftestDone die rep cmd) s = .next
         ((((({ s with power := { s.power with tests := s.power.tests.filter (fun (x : Die × Nat) => x.1 != die) } }).wrs [(E2.stResult
         (dieIdx die).val, BitVec.ofNat 32 (1 + 256 + min rep.dur 65535 * 65536)), (E2.stDetail (dieIdx die).val, BitVec.ofNat 32
         (testCode die rep.first + rep.inst % 256 * 256 + rep.location % 65536 * 65536)), (E2.stSliceFail (dieIdx die).val,
         0)]).setVerdict die 1).verdictActs die 1 rep.slices).testBoundary die)) ∧
  (∀ (die : Die) (rep : TestReport) (cmd : Option Word) (s : State), s.testing die = true → rep.standing ≠ 0 →
       exec (.selftestDone die rep cmd) s = .next
         (((((({ s with power := { s.power with tests := s.power.tests.filter (fun (x : Die × Nat) => x.1 != die) } }).wrs [(E2.stResult
         (dieIdx die).val, BitVec.ofNat 32 (s.verdictOf die rep.standing + rep.standing.toNat * 16 + 256 + b2n (die == Die.c &&
         rep.essential) * 1024 + min rep.dur 65535 * 65536)), (E2.stDetail (dieIdx die).val, BitVec.ofNat 32 (testCode die rep.standing +
         rep.inst % 256 * 256 + rep.location % 65536 * 65536)), (E2.stSliceFail (dieIdx die).val, if rep.standing.getLsbD 3 then
         rep.slices.setWidth 32 else 0)]).setVerdict die (s.verdictOf die rep.standing)).verdictActs die (s.verdictOf die rep.standing)
         rep.slices).testBoundary die).preempted (if s.verdictOf die rep.standing = 3 then cmd else none))) ∧
  (∀ (die : Die) (rep : TestReport) (cmd : Option Word) (s : State), s.testing die = true → rep.standing = 0 → rep.first = 0 →
       exec (.selftestDone die rep cmd) s = .next
         ((((({ s with power := { s.power with tests := s.power.tests.filter (fun (x : Die × Nat) => x.1 != die) } }).wrs [(E2.stResult
         (dieIdx die).val, BitVec.ofNat 32 (1 + min rep.dur 65535 * 65536)), (E2.stDetail (dieIdx die).val, 0), (E2.stSliceFail (dieIdx
         die).val, 0)]).setVerdict die 1).verdictActs die 1 rep.slices).testBoundary die)) ∧
  (∀ (die : Die) (x : Die × Nat) (cmd : Option Word) (s : State), s.power.tests.find? (fun (y : Die × Nat) => y.1 == die) = some x →
     x.2 + 180000000 ≤ s.mono →
       exec (.selftestTimeout die cmd) s = .next
         (((((({ s with power := { s.power with tests := s.power.tests.filter (fun (y : Die × Nat) => y.1 != die) } }).wrs [(E2.stResult
         (dieIdx die).val, BitVec.ofNat 32 (3 + 512 + b2n (die == Die.c) * 1024 + 18000 * 65536)), (E2.stDetail (dieIdx die).val, 0),
         (E2.stSliceFail (dieIdx die).val, 0)]).setVerdict die 3).verdictActs die 3 0).testBoundary die).preempted cmd))

/-- Supply monitors, retention, temperatures, and general-purpose pins. -/
def Obligations.MonitorsAndPins : Prop :=
  (∀ (m : Fin 8) (s : State), s.monOn m = true → s.bit E1.supWarnAct m.val = false →
       exec (.supplyWarning m) s = .next (s.healthStep ((((s.warnMark m).warnStops (monDie m)).supplyCancel (monDie m)).pauseTrans)) ∧
         (s.warnMark m).bit E1.supWarnAct m.val = true ∧ (s.warnMark m).bit (E1.supMonStat m.val) 31 = true ∧ (s.warnMark
         m).power.warnAt[m.val] = s.mono) ∧
  (∀ (m : Fin 8) (us mv : Nat) (s : State), s.monOn m = true → s.bit E1.supWarnAct m.val = true →
       exec (.supplyOk m us mv) s = .next (s.healthStep ((((((((s.setBit E1.supWarnAct m.val false).wr (E1.supMonStat m.val) (putBit
         (putBit (s.rd (E1.supMonStat m.val)) 31 false) 30 false)).wrs [(E1.supLastDur m.val, satU32 us), (E1.supLastMin m.val, satU32
         mv)]).raise E1.page 1).logEvent E1.page 3 0 (satU32 us))).okStarts (monDie m)).resumeTrans))) ∧
  (∀ (mv : Nat) (s : State), s.power.retained = true →
       exec (.retentionLost mv) s = .next
         (((({ s with power := { s.power with retained := false }, dram := [], ddr := { s.ddr with kept := none } }).setBit GLB.pwrState
         22 false).err GLB.page 0x0104 (satU32 mv)).setBit E9.wakeCause 4 true)) ∧
  (∀ (temp : Int) (s : State), s.power.phase = .done → s.powered .e = true → s.power.hot.getLsbD 1 = false → -128 ≤ temp → temp ≤ 127 →
     temp < (s.fld (DC.tempCfg (dieWin .e)) 7 0 : Nat) → s.bit (DC.tempMax (dieWin .e)) 31 = false →
       exec (.tempUpdate .e temp) s = .next
         ((({ s with power := { s.power with hot := if temp ≤ (s.fld (DC.tempCfg (dieWin .e)) 7 0 : Nat) - 5 then s.power.hot &&& ~~~ 2 else s.power.hot } }).wrs
         [(DC.dieTemp (dieWin .e), BitVec.ofNat 32 (ux 8 temp)), (DC.tempMax (dieWin .e), BitVec.ofNat 32 (ux 8 temp + 2 ^ 31))]).sgStale
         temp)) ∧
  (∀ (temp : Int) (s : State), s.sub.calRef = true → s.bit E3.calStat 17 = false → 20 < (temp - sx 8 (s.fld E3.calStat 31 24)).natAbs →
       s.sgStale temp = (s.setBit E3.calStat 17 true).raise E3.page 7) ∧
  (∀ (pin : Fin 12) (level : Bool) (s : State), s.power.phase = .done → level ≠ (s.pin pin.val).counted → (s.pin pin.val).since = none →
       exec (.gpioLevelChange pin level) s = .next ((s.setBit E10.gpioIn pin.val level).setPin pin.val
         { s.pin pin.val with since := some (s.mono, s.now .e) })) ∧
  (∀ (pin : Fin 12) (t0 stamp : Nat) (s : State), (s.pin pin.val).since = some (t0, stamp) →
     t0 + s.fld (E10.gpioCfg pin.val) 15 8 * 1000000 ≤ s.mono → (s.pin pin.val).counted = false → s.gpioMode pin.val = 1 →
       exec (.gpioEvent pin) s = .next ((((s.setPin pin.val { counted := true, since := none }).wrs [(E10.gpioTsS pin.val, BitVec.ofNat 32
         (sec32 stamp)), (E10.gpioTsNs pin.val, BitVec.ofNat 32 (nsOf stamp))]).raise E10.page pin.val).gpioLevels))

/-- Direct writes of registers by their own rows. -/
def Obligations.RegisterRows : Prop :=
  (∀ (r : Requester) (a : Nat) (w x : Word) (s : State), s.takes r a w x = true → a % 4 = 0 → winOf a = 2 → a ≠ E1.dieRole →
     ctxInWord a = none → (a < E3.actS 0 ∨ E3.actS 8 ≤ a) → hookedAt a = false →
       exec (.registerWrite r a w 0xF) s = .next (s.wr a x)) ∧
  (∀ (r : Requester) (w x : Word) (s : State), s.takes r E1.dieRole w x = true →
       exec (.dieRoleWrite r w) s = .next ((s.wr E1.dieRole x).roleLocked (s.rd E1.dieRole) w)) ∧
  (∀ (r : Requester) (w x : Word) (s : State), s.takes r E3.chan0Khz w x = true →
       exec (.sgChanWrite r false w) s = .next ((s.wr E3.chan0Khz x).sgRetuneChan)) ∧
  (∀ (r : Requester) (w x : Word) (s : State), s.takes r E3.chanSel w x = true →
       exec (.sgChanWrite r true w) s = .next ((s.wr E3.chanSel x).sgRetuneChan)) ∧
  (∀ (r : Requester) (d : Fin 6) (w x : Word) (s : State), s.takes r (D4.partChan d.val) w x = true →
       exec (.partChanWrite r d w) s = .next (s.setPartChan d.val x)) ∧
  (∀ (r : Requester) (l : Fin 8) (w x : Word) (s : State), s.takes r (C17.linkCfg l.val) (putBit w 31 true) x = true →
       exec (.linkCfgEnable r l w) s = .next (s.setLinkCfg l.val x)) ∧
  (∀ (r : Requester) (l : Fin 8) (w x : Word) (s : State), s.takes r (C17.keySel l.val) w x = true →
       exec (.xblKeySelWrite r l w) s = .next (s.setKeySel l.val (bitsOf x 15 0))) ∧
  (∀ (r : Requester) (q : Fin 2) (w x : Word) (s : State), s.takes r (C9.sfpI2c q.val) w x = true →
       exec (.sfpI2cAccess r q w) s = .next ((s.wr (C9.sfpI2c q.val) x).sfpStart q.val)) ∧
  (∀ (r : Requester) (o : Fin 6) (w x : Word) (s : State), s.takes r (E7.level o.val) w x = true →
       exec (.levelWrite r o w) s = .next (s.levelOrDiscard o.val (bitsOf x 15 0)))

/-- RF_CMD: SLEEP, IDLE, LISTEN, TX_NOW, CAL, RETUNE, ED, ABORT and TRIM_CLEAR. -/
def Obligations.RadioCommands : Prop :=
  (∀ (r : Requester) (s : State), s.direct r E3.rfCmd = true → s.sgEnabled = true → s.sg ≤ 3 →
       exec (.rfCmdSleep r) s = .next (((s.setSg sgSleep).setSgLocked false).oscUser 0 false)) ∧
  (∀ (r : Requester) (s : State), s.direct r E3.rfCmd = true → s.sgEnabled = true → s.sg ≤ 3 →
       exec (.rfCmdIdle r) s = .next ((s.setSg sgIdle).oscUser 0 true)) ∧
  (∀ (r : Requester) (s : State), s.direct r E3.rfCmd = true → s.sgEnabled = true → s.sg ≤ 3 →
       exec (.rfCmdListen r) s = .next (if s.sgLocked then s.setSg sgListen else s.sgSettleTo .listen)) ∧
  (∀ (r : Requester) (s : State), s.direct r E3.rfCmd = true → s.sgEnabled = true → s.sg ≤ 3 →
       exec (.txNow r) s = .next ((s.wr E3.txStat 0).sgTxRequest s.txNowFrame)) ∧
  (∀ (r : Requester) (set k : BitVec 7) (s : State), s.direct r E3.rfCmd = true → s.sgEnabled = true →
     (s.sg = sgIdle ∨ s.sg = sgListen ∨ s.sg = sgSleep) → k = (if set = 0 then 0x7F else set) → s.sgActWithin (sgCalNs k) = false →
       exec (.rfCal r set) s = .next (s.sgCalStart k)) ∧
  (∀ (r : Requester) (s : State), s.direct r E3.rfCmd = true → s.sgEnabled = true → (s.sg = sgIdle ∨ s.sg = sgListen ∨ s.sg = sgSleep) →
     s.sgActWithin (sgCalNs 0x40) = false →
       exec (.rfRetune r) s = .next (s.sgCalStart 0x40)) ∧
  (∀ (r : Requester) (s : State), s.direct r E3.rfCmd = true → s.sgEnabled = true → (s.sg = sgIdle ∨ s.sg = sgListen ∨ s.sg = sgSleep) →
       exec (.rfEd r) s = .next ((((s.setSg sgEdSt).setBit E3.edResult 31 false).oscUser 0 true).onSub (fun x =>
         { x with edAt := s.mono, edFor := sgSymbolsNs (s.sgMode 0) (s.fld E3.edCfg 10 0) }))) ∧
  (∀ (r : Requester) (done : Bool) (s : State), s.direct r E3.rfCmd = true → s.sgEnabled = true → s.sg = sgListen →
       exec (.rfAbort r done) s = .next ((s.setSg sgIdle).oscUser 0 true)) ∧
  (∀ (r : Requester) (s : State), s.direct r E3.rfCmd = true → s.sgEnabled = true → s.sgTrimmable = true →
       exec (.trimClear r) s = .next ((s.wr E3.afcTrim 0).onSub (fun x => { x with trim := none, trimClr := false }))) ∧
  (∀ (r : Requester) (s : State), s.direct r E3.rfCmd = true → s.sgEnabled = true → s.sgTrimmable = false →
       exec (.trimClear r) s = .next (s.onSub (fun x => { x with trim := none, trimClr := true }))) ∧
  (∀ (r : Requester) (s : State), s.direct r E3.rfCmd = true → s.sgEnabled = true → s.sg = sgRxSt → s.sub.ackDue = false →
       exec (.rfAbort r false) s = .next ((s.sgDropRx 4).sgToIdle).sgTxWaiting) ∧
  (∀ (r : Requester) (done : Bool) (s : State), s.direct r E3.rfCmd = true → s.sgEnabled = true → s.sg = sgTxSt →
       exec (.rfAbort r done) s = .next (if done then s.setBit E3.txStat 8 true else s.sgTxFinish 5 0)) ∧
  (∀ (r : Requester) (done : Bool) (s : State), s.direct r E3.rfCmd = true → s.sgEnabled = true → s.sg = sgCalSt →
       exec (.rfAbort r done) s = .next s.sgDropWait.sgCalCut) ∧
  (∀ (r : Requester) (set : BitVec 7) (s : State), s.direct r E3.rfCmd = true → s.sgEnabled = true → 4 ≤ s.sg →
       exec (.rfCmdSleep r) s = .next (s.err E3.page 0x0105 1) ∧ exec (.rfCmdIdle r) s = .next (s.err E3.page 0x0105 2) ∧ exec
         (.rfCmdListen r) s = .next (s.err E3.page 0x0105 3) ∧ exec (.rfCal r set) s = .next (s.err E3.page 0x0105 5) ∧ exec (.rfRetune r)
         s = .next (s.err E3.page 0x0105 6)) ∧
  (∀ (r : Requester) (s : State), s.direct r E3.rfCmd = true → s.sgEnabled = false →
       exec (.rfCmdIdle r) s = .next (s.err E3.page 0x0105 2))

/-- Preamble, sync, header, capture, the end of a frame, measurement and frequency trim. -/
def Obligations.RadioReception : Prop :=
  (∀ (k : Fin 4) (s : State), s.sg = sgListen → s.sgSearches k.val = true →
       exec (.preambleDetect k) s = .next (s.sgNewRx k.val (s.sgMode k.val) false 0 false)) ∧
  (∀ (k : Fin 4) (rssi : Int) (c : Bool) (s : State), s.sg = sgListen → s.sgSearches k.val = true →
       exec (.syncDetect k rssi c) s = .next (s.sgNewRx k.val (s.sgMode k.val) true rssi c)) ∧
  (∀ (k : Fin 4) (rssi : Int) (c : Bool) (x : SgRx) (s : State), s.sg = sgRxSt → s.sub.rx = some x → x.confirmed = false →
     x.corr = k.val → x.synced = false →
       exec (.syncDetect k rssi c) s = .next (s.onSub (fun y =>
         { y with rx := some { x with synced := true, rssi := rssi, stamp := s.sgStamp, chain1 := c && s.fld E3.rxCfg 1 0 == 3 } }))) ∧
  (∀ (h : SgPhr) (x : SgRx) (s : State), s.sub.rx = some x → x.confirmed = false → s.sgHeaderOk x h = true →
       exec (.rxHeader h) s = .next (s.onSub (fun y =>
         { y with rx := some { x with confirmed := true, len := h.len, whiten := h.dw, fcs4 := h.fcs4 } }))) ∧
  (∀ (k : Fin 4) (rssi : Int) (c : Bool) (octets : Nat) (x : SgRx) (s : State), s.sub.rx = some x → x.confirmed = true →
     (x.corr = k.val ∨ s.sgSearches k.val = true) → s.bit E3.rxCfg 2 = true → x.rssi + 2 * (s.fld E3.rxCfg 8 4 : Nat) ≤ rssi →
     2 * octets < x.len →
       exec (.capture k rssi c octets) s = .next ((((s.sgDropRx 2).bump E3.captureCnt 15 0 1).raise E3.page 3).sgNewRx k.val (s.sgSyncMode
         x k.val) true rssi c)) ∧
  (∀ (e : SgRxEnd) (x : SgRx) (s : State), s.sub.rx = some x → x.confirmed = true → (e.fcsOk = false ∨ s.macTakes e.mac = false) →
       exec (.rxFrameEnd e) s = .next ((s.sgRxDone x e).sgReturn (s.fld E3.rfCtrl 1 0)).sgTxWaiting) ∧
  (∀ (e : SgRxEnd) (x : SgRx) (s t : State), s.sub.rx = some x → x.confirmed = true → e.fcsOk = true → s.macTakes e.mac = true →
     t = ((s.sgRxDone x e).hear e.mac.src).onMesh (fun m => { m with rxd := some { mac := e.mac, stamp := x.stamp - s.fld E3.antDelay 9 0 } }) →
       exec (.rxFrameEnd e) s = .next (if e.mac.ackReq then (t.onSub (fun y => { y with ackDue := true })).onMesh (fun m =>
         { m with ackTo := some (s.ackFor e.mac) }) else (t.sgReturn (s.fld E3.rfCtrl 1 0)).sgTxWaiting)) ∧
  (∀ (e : SgRxEnd) (x : SgRx) (s : State), s.bit E3.afcCfg 0 = false →
     (s.fld E3.rxRingHead 9 0 + 1) % s.fld E3.rxRingSize 10 0 ≠ s.fld E3.rxRingTail 9 0 →
       s.sgRxDone x e = (((s.onSub (fun y => { y with rx := none })).setFld E3.rfState 11 8 0).sgRecord x (if e.fcsOk then 0 else 1) (some
         e)).raise E3.page 0) ∧
  (∀ (level : Int) (s : State), s.sg = sgEdSt → s.sub.edAt + s.sub.edFor ≤ s.mono →
       exec (.edDone level) s = .next (((s.wr E3.edResult (BitVec.ofNat 32 (ux 16 level + s.fld E3.chanSel 9 0 * 2 ^ 16 + 2 ^ 31))).raise
         E3.page 9).sgToIdle.sgTxWaiting)) ∧
  (∀ (m : Int) (s : State), s.sub.trim = some m → s.sub.trimClr = false → s.sgTrimmable = true →
       exec .afcTrimUpdate s = .next ((s.wr E3.afcTrim (BitVec.ofInt 32 (clampI (-((s.fld E3.afcCfg 12 8 * 256 : Nat) : Int)) ((s.fld
         E3.afcCfg 12 8 * 256 : Nat) : Int) ((s.rd E3.afcTrim).toInt + m)))).onSub (fun x => { x with trim := none }))) ∧
  (∀ (s : State), s.sub.trim = none → s.sub.trimClr = true → s.sgTrimmable = true →
       exec .afcTrimUpdate s = .next ((s.wr E3.afcTrim 0).onSub (fun x => { x with trimClr := false }))) ∧
  (∀ (s : State), s.sgTrimmable = false →
       exec .afcTrimUpdate s = .next s) ∧
  (∀ (s : State), s.sg = sgTxSt →
       exec .synthUnlock s = .next ((((s.setSgLocked false).raise E3.page 8).err E3.page 0x0101 (BitVec.ofNat 32 sgTxSt)).sgTxFinish 5
         (s.fld E3.rfCtrl 3 2))) ∧
  (∀ (s : State), s.sg = sgRxSt →
       exec .synthUnlock s = .next (((((s.setSgLocked false).raise E3.page 8).err E3.page 0x0101 (BitVec.ofNat 32 sgRxSt)).sgDropRx
         4).sgReturn (s.fld E3.rfCtrl 1 0)))

/-- Transmission, lock, calibration and the actions of the sub-GHz radio. -/
def Obligations.RadioTransmission : Prop :=
  (∀ (rl : Nat) (t : SgTx) (s : State), s.sub.tx = some t → s.sub.txTo + s.rampNs ≤ s.mono →
       exec (.sgTxEnd rl) s = .next (if t.kind = .mac then (s.sgTxEnd rl).macTxEnd else s.sgTxEnd rl)) ∧
  (∀ (rl : Nat) (s : State), s.mono < s.sub.txTo + s.rampNs →
       exec (.sgTxEnd rl) s = .next s) ∧
  (∀ (rl ret : Nat) (t : SgTx) (s : State), s.sub.tx = some t →
     (ret = if t.kind = .ack then s.fld E3.rfCtrl 1 0 else s.fld E3.rfCtrl 3 2) → s.sub.txTo < s.sub.txFrom + 100000 →
       s.sgTxEnd rl = s.sgTxFinish 1 ret) ∧
  (∀ (rl ret : Nat) (t : SgTx) (s : State), s.sub.tx = some t →
     (ret = if t.kind = .ack then s.fld E3.rfCtrl 1 0 else s.fld E3.rfCtrl 3 2) → s.sub.txFrom + 100000 ≤ s.sub.txTo →
     4 * s.fld E3.tunerCfg 12 8 ≤ rl →
       s.sgTxEnd rl = (((s.setFld E3.tunerStat 7 0 (min rl 255)).setBit E3.tunerStat 30 s.sub.txExt).onSub (fun x =>
         { x with lowRl := 0 })).sgTxFinish 1 ret) ∧
  (∀ (rl ret : Nat) (t : SgTx) (s : State), s.sub.tx = some t →
     (ret = if t.kind = .ack then s.fld E3.rfCtrl 1 0 else s.fld E3.rfCtrl 3 2) → s.sub.txFrom + 100000 ≤ s.sub.txTo →
     rl < 4 * s.fld E3.tunerCfg 12 8 → s.sub.lowRl = 3 →
       s.sgTxEnd rl = ((((s.setFld E3.tunerStat 7 0 (min rl 255)).setBit E3.tunerStat 30 s.sub.txExt).onSub (fun x =>
         { x with lowRl := 0, retune := x.retune || (s.bit E3.tunerCfg 0 && !s.sgExt) })).raise E3.page 4).sgTxFinish 1 ret) ∧
  (∀ (rl : Nat) (s : State), s.sg = sgTxSt → rl < 4 * s.fld E3.tunerCfg 20 16 → s.sub.protect = false → s.sub.txExt = false →
       exec (.paProtect rl) s = .next ((s.onSub (fun x => { x with protect := true })).raise E3.page 11)) ∧
  (∀ (rl : Nat) (s : State), s.sg = sgTxSt → rl < 4 * s.fld E3.tunerCfg 20 16 → s.sub.protect = false → s.sub.txExt = true →
       exec (.paProtect rl) s = .next (((s.onSub (fun x => { x with protect := true })).raise E3.page 11).sgTxFinish 4 (s.fld E3.rfCtrl 3
         2))) ∧
  (∀ (s : State), s.sg = sgSettle → s.power.x40Usable = true → s.sub.goal = .listen →
       exec .sgSynthLock s = .next (s.sgLock.setSg sgListen).sgTxWaiting) ∧
  (∀ (t : SgTx) (t0 : Nat) (s : State), s.sub.wait = some (t, t0) → s.sgHeld = false → t0 + s.fld E3.txCfg 25 16 * 1000 ≤ s.mono →
       exec .txNoLock s = .next (s.sgTxFail 2 0x0103)) ∧
  (∀ (t : SgTx) (t0 : Nat) (s : State), s.sub.wait = some (t, t0) → s.sgHeld = true → t0 + s.fld E3.txCfg 25 16 * 1000 ≤ s.mono →
       exec .txSupply s = .next (s.sgTxFail 3 0x0104)) ∧
  (∀ (set : BitVec 7) (limit : Bool) (rl : Nat) (s : State), s.sub.cal = some set → set.getLsbD 0 = false → set.getLsbD 3 = false →
     set.getLsbD 6 = false →
       exec (.sgCalDone 0 limit rl) s = .next ((((s.onSub (fun x => { x with cal := none })).wr E3.calStat (putFld (putFld (s.rd
         E3.calStat) 6 0 set.toNat) 14 8 0)).raise E3.page 6).sgToIdle.sgTxWaiting)) ∧
  (∀ (set : BitVec 7) (s : State), s.sub.calDefer = some set → s.sgTrimmable = true → s.sgActWithin (sgCalNs set) = false →
       exec .sgCalDeferredStart s = .next (s.sgCalStart set)) ∧
  (∀ (s : State), s.sub.retune = true → s.bit E3.tunerCfg 0 = true → s.sgExt = false → (s.sg = sgIdle ∨ s.sg = sgListen) →
     s.sgActWithin (sgCalNs 0x40) = false →
       exec .autoRetune s = .next ((s.onSub (fun x => { x with retune := false })).sgCalStart 0x40)) ∧
  (∀ (i : Fin 8) (a : PendAct) (s : State), s.pendAct (.rf i) = some a → s.fld (slotStat (.rf i)) 3 0 = stPending →
     s.bit (slotStat (.rf i)) 28 = false → s.actDiff a ≤ s.sgPrepNs a.desc → s.sub.prepared ≠ some i → s.sub.blocked.contains i = false →
       exec (.actPrepare i) s = .next (if (s.sgPrepare i a).sub.prepared = some i then (s.sgPrepare i a).engSecure i else s.sgPrepare i a)) ∧
  (∀ (i : Fin 8) (a : PendAct) (s t : State), s.pendAct (.rf i) = some a → bitsOf a.desc 2 0 = 0 → s.actDue a = true →
     s.bit (slotStat (.rf i)) 28 = false → s.sub.blocked.contains i = false → a.began = false → s.actWarned a = false →
     s.sgEnabled = true → s.sub.prepared = some i → s.sub.prepPsdu.isEmpty = false → s.sgLockedFor a = true →
     t = (s.onSub (fun x => { x with prepared := none })).setBit (slotStat (.rf i)) 25 (!s.locked) →
       exec (.rfActTx i) s = .next
         ({ t with actq := t.actq.map (fun (b : PendAct) => if b.slot = ActSlot.rf i then { b with began := true } else b) }.sgTxLead 0
         { actTx a i with psdu := some s.sub.prepPsdu })) ∧
  (∀ (i : Fin 8) (a : PendAct) (s : State), s.pendAct (.rf i) = some a → bitsOf a.desc 2 0 = 0 → s.actDue a = true →
     s.bit (slotStat (.rf i)) 28 = false → s.sub.blocked.contains i = false → a.began = false → s.actWarned a = true →
       exec (.rfActTx i) s = .next ((s.onSub (fun x => { x with prepared := none })).setBit (slotStat (.rf i)) 28 true).sgTxWaiting) ∧
  (∀ (i : Fin 8) (a : PendAct) (s : State), s.pendAct (.rf i) = some a → bitsOf a.desc 2 0 = 0 → s.actDue a = true →
     s.bit (slotStat (.rf i)) 28 = false → s.sub.blocked.contains i = false → a.began = false → s.actWarned a = false →
     s.sgEnabled = true → s.sub.prepared = some i → s.sub.prepPsdu.isEmpty = false → s.sgLockedFor a = false →
       exec (.rfActTx i) s = .next (((s.onSub (fun x => { x with prepared := none })).endAct (.rf i) stMissed 0x0F false false
         false).sgRearm i).sgTxWaiting) ∧
  (∀ (i : Fin 8) (a : PendAct) (s t : State), s.pendAct (.rf i) = some a → bitsOf a.desc 2 0 = 1 → s.actDue a = true →
     s.bit (slotStat (.rf i)) 28 = false → s.sub.blocked.contains i = false → s.actWarned a = false → a.slot = .rf i →
     s.sgEnabled = true → s.sg ≠ sgTxSt → s.sub.ackDue = false → t = (s.sgYield.sgActChan a.desc).sgToListen →
       exec (.rfActListen i) s = .next ((t.endAct (.rf i) stDone 0 false (!s.locked) false).onSub (fun x =>
         { x with prepared := if x.prepared = some i then none else x.prepared }))) ∧
  (∀ (i : Fin 8) (a : PendAct) (s t : State), s.pendAct (.rf i) = some a → bitsOf a.desc 2 0 = 2 → s.actDue a = true →
     s.bit (slotStat (.rf i)) 28 = false → s.sub.blocked.contains i = false → s.actWarned a = false → a.slot = .rf i →
     s.sgEnabled = true → s.sg ≠ sgTxSt → s.sub.ackDue = false → t = s.sgYield.sgToIdle →
       exec (.rfActIdle i) s = .next ((t.endAct (.rf i) stDone 0 false (!s.locked) false).onSub (fun x =>
         { x with prepared := if x.prepared = some i then none else x.prepared }))) ∧
  (∀ (i : Fin 8) (a : PendAct) (s t : State), s.pendAct (.rf i) = some a → bitsOf a.desc 2 0 = 3 → s.actDue a = true →
     s.bit (slotStat (.rf i)) 28 = false → s.sub.blocked.contains i = false → s.actWarned a = false → a.slot = .rf i →
     s.sgEnabled = true → s.sg ≠ sgTxSt → s.sub.ackDue = false → t = s.sgYield.sgToSleep →
       exec (.rfActSleep i) s = .next ((t.endAct (.rf i) stDone 0 false (!s.locked) false).onSub (fun x =>
         { x with prepared := if x.prepared = some i then none else x.prepared }))) ∧
  (∀ (i : Fin 8) (a : PendAct) (s t : State), s.pendAct (.rf i) = some a → bitsOf a.desc 2 0 = 4 → s.actDue a = true →
     s.bit (slotStat (.rf i)) 28 = false → s.sub.blocked.contains i = false → s.actWarned a = false → a.slot = .rf i →
     s.sgEnabled = true → s.sg ≠ sgTxSt → s.sub.ackDue = false →
     t = (if bitOf a.desc 3 then s else s.setFld E3.chanSel 9 0 (bitsOf a.desc 17 8)).sgRetuneChan →
       exec (.rfActChannel i) s = .next ((t.endAct (.rf i) stDone 0 false (!s.locked) false).onSub (fun x =>
         { x with prepared := if x.prepared = some i then none else x.prepared })))

/-- Acknowledgements, CSMA-CA, retries and the frame counter of the mesh. -/
def Obligations.MeshMac : Prop :=
  (∀ (k : AckDue) (s t : State), s.mesh.ackTo = some k → s.sub.ackDue = true →
     (t = (s.onSub (fun x => { x with ackDue := false })).onMesh (fun m => { m with ackTo := none, owed := if k.pend && (s.sleepyChild k.dest).isSome then some k.dest else m.owed })) →
       exec .macAckTx s = .next ((t.emit (.immAck k.dest k.pend)).sgToIdle.sgTxRequest
         { kind := .ack, addr := 0, len := 7, mode := 0, psdu := some (ackPsdu k.dsn k.pend) })) ∧
  (∀ (m : MacHdr) (c : MeshChild) (s : State), s.sleepyChild m.src = some c → s.banked = false →
       s.ackFor m = { dest := m.src, dsn := m.dsn, pend := !(s.indFor m.src).isEmpty }) ∧
  (∀ (m : MacHdr) (s : State), s.child m.src = none → s.sleepyChild m.src = none → s.banked = false →
       s.ackFor m = { dest := m.src, dsn := m.dsn, pend := m.ftype == 3 }) ∧
  (∀ (m : MacHdr) (s : State), s.banked = true →
       (s.ackFor m).pend = false) ∧
  (∀ (energy : Int) (t : MacTx) (q : List MacTx) (s : State), s.mesh.txq = t :: q → t.phase = .backoff →
     sx 8 (s.fld E4.csmaCfg 23 16) ≤ energy → t.backoffs + 1 ≤ s.fld E4.csmaCfg 10 8 →
       exec (.csmaBackoffEnd energy) s = .next (s.onMesh (fun m =>
         { m with txq := { t with backoffs := t.backoffs + 1, be := min (t.be + 1) (s.fld E4.csmaCfg 7 4) } :: q }))) ∧
  (∀ (energy : Int) (t : MacTx) (q : List MacTx) (s : State), s.mesh.txq = t :: q → t.phase = .backoff →
     energy < sx 8 (s.fld E4.csmaCfg 23 16) → s.sg ≠ sgRxSt → s.sg ≠ sgTxSt →
       exec (.csmaBackoffEnd energy) s = .next s.macSend) ∧
  (∀ (dsn a b c : Nat) (t : MacTx) (q : List MacTx) (s : State), s.mesh.txq = t :: q → t.phase = .ackWait →
     t.sealed = some (a, b, c, dsn) →
       exec (.macAckRx dsn) s = .next (s.macEnd 1)) ∧
  (∀ (t : MacTx) (q : List MacTx) (s : State), s.mesh.txq = t :: q → t.phase = .ackWait → t.since + s.ackWaitNs ≤ s.mono →
     t.retries < s.fld E4.csmaCfg 14 12 → t.gone = false →
       exec .ackTimeout s = .next (s.onMesh (fun m =>
         { m with txq := { t with phase := .backoff, retries := t.retries + 1, backoffs := 0, be := s.fld E4.csmaCfg 3 0 } :: q }))) ∧
  (∀ (t : MacTx) (q : List MacTx) (s : State), s.mesh.txq = t :: q → t.phase = .ackWait → t.since + s.ackWaitNs ≤ s.mono →
     s.fld E4.csmaCfg 14 12 ≤ t.retries →
       exec .ackTimeout s = .next (s.macEnd 3)) ∧
  (∀ (t : MacTx) (q : List MacTx) (a b c d : Nat) (s : State), s.mesh.txq = t :: q → t.phase = .ackWait → t.since + s.ackWaitNs ≤ s.mono →
     t.sealed = some (a, b, c, d) → t.retries < s.fld E4.csmaCfg 14 12 → t.gone = true →
       exec .ackTimeout s = .next ((s.err E4.page 0x0102 (BitVec.ofNat 32 a)).macEnd 7)) ∧
  (∀ (t : MacTx) (q : List MacTx) (s : State), s.mesh.txq = t :: q → t.phase = .ackWait → s.mono < t.since + s.ackWaitNs →
       exec .ackTimeout s = .next s) ∧
  (∀ (slot : Fin 16) (v : Nat) (s : State), (s.counterOf slot.val).saving = some v → s.supplyWarn .e = false → s.sub.prepared = none →
     s.mesh.txq = [] →
       exec (.fcSaveDone slot) s = .next (s.setCounter { s.counterOf slot.val with saved := v, saving := none }))

/-- Mesh frames: security, data, floods, the indirect queue and the host's descriptors. -/
def Obligations.MeshFrames : Prop :=
  (∀ (f : MeshSec) (x : MacRxd) (eui : Nat) (s s0 : State), s.mesh.rxd = some x → s.meshOn = true →
     x.mac.srcEui.or ((s.nbrEui x.mac.src).or f.learnt) = some eui →
     s.keySlots.any (fun k => s.fld (E6.keyStat k) 23 16 == x.mac.keyIndex) = true → f.micOk = true →
     judgeReplay (((s.mesh.replay.find? (fun e => e.eui == eui)).map ReplayEntry.sets).getD []) x.mac.keyIndex x.mac.counter x.mac.dsn = .accept →
     (x.mac.ftype ≠ 1 ∨ (f.ttl ≠ 0 ∧ f.rsvZero = true ∧ f.mtype ≠ 0 ∧ f.mtype ≤ 7)) →
     s0 = s.onMesh (fun m => { m with rxd := none, auth := none }) →
       exec (.meshFrameRx f) s = .next ((s0.replayStore x.mac eui).onMesh (fun m =>
         { m with auth := some { src := x.mac.src, eui := eui, pan := x.mac.panId, stamp := x.stamp } }))) ∧
  (∀ (f : MeshSec) (x : MacRxd) (eui : Nat) (s s0 : State), s.mesh.rxd = some x → s.meshOn = true →
     x.mac.srcEui.or ((s.nbrEui x.mac.src).or f.learnt) = some eui →
     s.keySlots.any (fun k => s.fld (E6.keyStat k) 23 16 == x.mac.keyIndex) = true →
     s0 = s.onMesh (fun m => { m with rxd := none, auth := none }) →
       (f.micOk = false → exec (.meshFrameRx f) s = .next (s0.bump E4.secCnt 15 0 1)) ∧ (f.micOk = true → judgeReplay
         (((s.mesh.replay.find? (fun e => e.eui == eui)).map ReplayEntry.sets).getD []) x.mac.keyIndex x.mac.counter x.mac.dsn =
         .duplicate → exec (.meshFrameRx f) s = .next (s0.bump E4.dupCnt 15 0 1)) ∧ (f.micOk = true → judgeReplay (((s.mesh.replay.find?
         (fun e => e.eui == eui)).map ReplayEntry.sets).getD []) x.mac.keyIndex x.mac.counter x.mac.dsn = .replay → exec (.meshFrameRx f)
         s = .next (s0.bump E4.dupCnt 31 16 1))) ∧
  (∀ (h : MeshHdr) (rssi : Int) (x : MeshAuth) (t s : State), s.takeAuth = some (x, t) → s.child x.src = none → h.mtype = 1 →
     h.dest = s.meshAddr → reservedAddr h.dest = false → h.ext = false →
       exec (.meshDataRx h rssi) s = .next (t.hostFrame h x.src rssi)) ∧
  (∀ (h : MeshHdr) (rssi : Int) (c : MeshChild) (x : MeshAuth) (t s : State), s.takeAuth = some (x, t) → s.child x.src = some c →
     h.mtype = 1 → h.dest ≠ s.meshAddr → reservedAddr h.dest = false → s.banked = false → s.sleepyChild h.dest = none →
       exec (.meshDataRx h rssi) s = .next ((t.routeSet h.origin x.src).forward h)) ∧
  (∀ (h : MeshHdr) (rssi : Int) (x : MeshAuth) (t s : State), s.takeAuth = some (x, t) →
     (seenFresh s.mesh.seen x.stamp).find? (fun e => e.origin == h.origin && e.mseq == h.mseq) = none → 1 < h.ttl →
     s.bit E4.meshCfg 3 = true → (s.isRouter = true ∨ s.isCoord = true) → s.banked = false →
       exec (.floodRx h rssi) s = .next ((((t.seenInsert h.origin h.mseq x.stamp).hostFrame h x.src rssi).indFlood h).draw (fun i u =>
         u.onMesh (fun m => { m with rebro := m.rebro ++ [(h, s.mono + Config.freeNat i % (s.fld E4.floodCfg 15 8 * 1000000 + 1))] })))) ∧
  (∀ (origin mseq at0 : Nat) (h : MeshHdr) (s t : State),
     s.mesh.rebro.find? (fun r => r.1.origin == origin && r.1.mseq == mseq && decide (r.2 ≤ s.mono)) = some (h, at0) →
     t = s.onMesh (fun m => { m with rebro := m.rebro.filter (fun r => !(r.1.origin == origin && r.1.mseq == mseq)) }) →
       exec (.floodRebroadcast origin mseq) s = .next ((t.bump E4.floodCnt 15 0 1).macQueue (t.freshTx { h with ttl := h.ttl - 1 } 0xFFFF
         0 none none false))) ∧
  (∀ (c : Nat) (e : IndEntry) (more : List IndEntry) (s t : State), s.mesh.owed = some c →
     t = s.onMesh (fun m => { m with owed := none }) → t.indFor c = e :: more →
       exec .indirectSend s = .next (t.macQueueFirst (t.freshTx e.frame c 0 e.desc (some e.id) (!more.isEmpty)))) ∧
  (∀ (id : Nat) (e : IndEntry) (s : State), s.mesh.indq.find? (fun e => e.id == id && !e.flood) = some e → e.expires ≤ s.mono →
       exec (.indirectExpiry id) s = .next (s.indExpire e)) ∧
  (∀ (id : Nat) (e : IndEntry) (s : State), s.mesh.indq.find? (fun e => e.id == id && e.flood) = some e → e.expires ≤ s.mono →
       exec (.floodEntryExpiry id) s = .next (s.onMesh (fun m => { m with indq := m.indq.filter (fun x => x.id != id) })).meshShow) ∧
  (∀ (d a : Nat) (s : State), s.meshOn = true → d = s.fld E4.txrTail 9 0 → a = (s.fld E4.txrBase 13 0 + d) * 16 →
     d ≠ s.fld E4.txrHead 9 0 → bitsOf (Mem.word s.esram a) 3 0 ≠ 1 → bitsOf (Mem.word s.esram a) 3 0 ≠ 2 →
       exec .txDescriptor s = .next ((s.setFld E4.txrTail 9 0 ((d + 1) % s.fld E4.txrSize 10 0)).txrComplete d 12 0)) ∧
  (∀ (short : Nat) (c : MeshChild) (s : State), s.sleepyChild short = some c → c.heard + s.fld E4.pollCfg 3 0 * secNs c.poll ≤ s.mono →
       exec (.childTimeout short) s = .next ((s.dropChild short).raise E4.page 5))

/-- Scanning, joining, leaving and polling on the mesh. -/
def Obligations.MeshJoining : Prop :=
  (∀ (s : State), s.parentState = psScanning → s.mesh.join.dwell + secNs (s.fld E4.scanCfg 9 0) ≤ s.mono →
     s.mesh.join.chan < s.fld E4.scanCfg 29 20 →
       exec .scanDwellEnd s = .next (s.scanOn (s.mesh.join.chan + 1))) ∧
  (∀ (h : ScanHit) (s : State), s.parentState = psScanning → s.mesh.join.dwell + secNs (s.fld E4.scanCfg 9 0) ≤ s.mono →
     s.fld E4.scanCfg 29 20 ≤ s.mesh.join.chan → s.scanBest = some h →
       exec .scanDwellEnd s = .next (s.joinTo h)) ∧
  (∀ (j : JoinInfo) (x : MeshAuth) (t s : State), s.takeAuth = some (x, t) → s.banked = false → j.parent = 0xFFFE →
     s.parentFull j.code = true →
       exec (.joinReq j) s = .next (t.sendJoin 4 s.meshAddr 0xFFFE 0xFFFE j.eui
         { eui := j.eui, short := 0xFFFE, code := 3, poll := legalPoll j.poll, parent := s.meshAddr })) ∧
  (∀ (j : JoinInfo) (x : MeshAuth) (t u s : State), s.takeAuth = some (x, t) → s.banked = false → j.parent = 0xFFFE →
     s.parentFull j.code = false → s.isCoord = false → s.parentUp = true →
     u = t.onMesh (fun m => { m with pendKids := { eui := j.eui, caps := j.code, poll := legalPoll j.poll, since := s.mono } :: m.pendKids.filter (fun x => x.eui != j.eui) }) →
       exec (.joinReq j) s = .next (u.sendJoin 3 s.meshAddr 0x0001 s.parentAddr 0 j)) ∧
  (∀ (j : JoinInfo) (h : ScanHit) (t0 : Nat) (x : MeshAuth) (t s : State), s.takeAuth = some (x, t) → j.eui = ownEui →
     s.mesh.join.target = some (h, t0) → j.code = 0 →
       exec (.joinResp j) s = .next (t.joined h j.short s.mesh.parent.steps)) ∧
  (∀ (h : ScanHit) (t0 : Nat) (s : State), s.mesh.join.target = some (h, t0) → t0 + secNs 2 ≤ s.mono →
       exec .joinTimeout s = .next (s.joinFail 0xFF)) ∧
  (∀ (eui : Nat) (s : State),
       exec (.pendingChildExpiry eui) s = .next (s.onMesh (fun m =>
         { m with pendKids := m.pendKids.filter (fun p => p.eui != eui || s.mono < p.since + secNs 2) }))) ∧
  (∀ (short : Nat) (s : State),
       exec (.parentExcludeExpiry short) s = .next (s.onMesh (fun m =>
         { m with join := { m.join with excluded := s.mesh.join.excluded.filter (fun x => x.1 != short || s.mono < x.2 + secNs 60) } }))) ∧
  (∀ (j : JoinInfo) (c : MeshChild) (x : MeshAuth) (t u s : State), s.takeAuth = some (x, t) → j.code ≠ 1 →
     (u = if (s.child x.src).isSome then t.routeSet j.short x.src else t) → s.child j.short = some c → s.isCoord = false →
     s.banked = false → s.parentUp = true →
       exec (.leave j) s = .next ((u.dropChild j.short).sendJoin 5 j.short 0x0001 s.parentAddr 0 j)) ∧
  (∀ (j : JoinInfo) (x : MeshAuth) (t s : State), s.takeAuth = some (x, t) → j.code = 1 → s.isRouter = true → x.src = s.parentAddr →
       exec (.leave j) s = .next t.scanStart) ∧
  (∀ (x : MeshAuth) (c : MeshChild) (t s : State), s.takeAuth = some (x, t) → s.child x.src = some c →
       exec .poll s = .next (t.hear x.src)) ∧
  (∀ (x : MeshAuth) (t s : State), s.takeAuth = some (x, t) → s.child x.src = none → s.banked = false →
       exec .poll s = .next (t.sendJoin 5 s.meshAddr x.src x.src 0 { eui := x.eui, short := x.src, code := 1, poll := 0, parent := 0 })) ∧
  (∀ (eui : Nat) (j : JoinInfo) (s t : State), s.mesh.addrWait.find? (fun w => w.eui == eui) = some j → s.supplyWarn .e = false →
     t = s.onMesh (fun m => { m with addrs := (j.eui, j.short) :: m.addrs.filter (fun u => u.1 != eui), addrWait := m.addrWait.filter (fun w => w.eui != eui) }) →
       exec (.addressTableWriteDone eui) s = .next (if j.parent = s.meshAddr then t.respAtParent j else t.sendResp j)) ∧
  (∀ (r : Requester) (w : Word) (s : State), s.direct r E4.addrCmd = true → s.isCoord = true → bitsOf w 19 16 = 1 →
       exec (.addrFree r w) s = .next (s.onMesh (fun m => { m with addrs := m.addrs.filter (fun u => u.2 != bitsOf w 15 0) })))

/-- Beacons, the loss of the parent, keys and the actions of the mesh. -/
def Obligations.MeshParent : Prop :=
  (∀ (t : Nat) (s : State), s.beacons = true → ((s.nextBeacon :: s.beaconsAsked).filter (fun t => !s.beaconArmed t)).min? = some t →
       exec .beaconTx s = .next (s.engArm 6 7 t s.beaconLen .beacon)) ∧
  (∀ (s : State), 0 < s.fld E4.bcnCfg 12 0 →
       s.nextBeacon % 100000000 = 0 ∧ (s.nextBeacon / 100000000) % s.fld E4.bcnCfg 12 0 = s.fld E4.bcnCfg 28 16 % s.fld E4.bcnCfg 12 0 ∧
         s.now .e + (s.leadNs (.rf 6)).toNat ≤ s.nextBeacon) ∧
  (∀ (t0 room : Nat) (s : State), s.mesh.extraBcn = some t0 → s.beacons = true →
     (s.pendAct (.rf 6)).isNone = true ∨ (s.pendAct (.rf 7)).isNone = true → room = t0 + 100000000 - (s.mono + (s.leadNs (.rf 6)).toNat) →
       exec .extraBeacon s = .next (s.draw (fun i u => (u.engArm 6 7 (u.now .e + (s.leadNs (.rf 6)).toNat + Config.freeNat i % (room + 1))
         u.beaconLen .beacon).onMesh (fun m => { m with extraBcn := none })))) ∧
  (∀ (t : Nat) (s : State), s.banked = true → s.meshOn = true → s.pendAct (.rf 6) = none → s.mesh.bankBcn ≤ s.now .e →
     t = max (s.mesh.bankBcn + secNs (s.fld E1.pmCfg 9 0)) (s.now .e + (s.leadNs (.rf 6)).toNat) →
       exec .bankedBeacon s = .next ((s.engArm 6 7 t s.beaconLen .beacon).onMesh (fun m => { m with bankBcn := t }))) ∧
  (∀ (b : BeaconRx) (x : MeshAuth) (t s : State), s.takeAuth = some (x, t) → (b.proto ≠ 0xB7 ∨ x.pan ≠ s.fld E4.panId 15 0) →
       exec (.beaconRx b) s = .next t) ∧
  (∀ (b : BeaconRx) (x : MeshAuth) (t s u : State), s.takeAuth = some (x, t) → b.proto = 0xB7 → x.pan = s.fld E4.panId 15 0 →
     s.isRouter = true → s.parentState = psJoined → x.src = s.parentAddr →
     u = (((t.onMesh (fun m => { m with parent := { m.parent with pred := b.ntime + b.bcnInt * 100000000, heard := x.stamp, bcnInt := b.bcnInt, cost := min (b.cost + linkCost b.rssi) 0xFFFE, widened := 0, grace := none } })).setFld E4.parentStat 23 20 0).setFld E4.parentStat 27 24 ((b.depth + 1) % 16)).setParentState psJoined →
       exec (.beaconRx b) s = .next (u.measure 11 ((x.stamp : Int) - ((b.ntime : Int) + s.mesh.parent.delay)) 0 s.mesh.parent.steps
         (b.flags.getLsbD 1) false (s.rd C2.utcOffset).toInt)) ∧
  (∀ (s : State), s.mesh.window = none →
       s.windowClose = s) ∧
  (∀ (u s t : State), u = s.windowClose → u.parentState = psJoined → u.mesh.parent.pred + u.bcnWindow ≤ u.now .e →
     u.mesh.parent.widened = 0 →
     t = (u.bump E4.bcnCnt 31 16 1).onMesh (fun m => { m with parent := { m.parent with pred := u.mesh.parent.pred + u.mesh.parent.bcnInt * 100000000 } }) →
     u.fld E4.parentStat 23 20 + 1 ≠ 3 →
       exec .beaconWindowEnd s = .next (t.setFld E4.parentStat 23 20 (u.fld E4.parentStat 23 20 + 1))) ∧
  (∀ (u s t : State), u = s.windowClose → u.parentState = psJoined → u.mesh.parent.pred + u.bcnWindow ≤ u.now .e →
     u.mesh.parent.widened = 0 →
     t = (u.bump E4.bcnCnt 31 16 1).onMesh (fun m => { m with parent := { m.parent with pred := u.mesh.parent.pred + u.mesh.parent.bcnInt * 100000000 } }) →
     u.fld E4.parentStat 23 20 = 2 →
       exec .beaconWindowEnd s = .next ((((t.setFld E4.parentStat 23 20 3).onMesh (fun m =>
         { m with parent := { m.parent with widened := 3, grace := some (u.mono + secNs 600) } })).setParentState psWidened).raise E4.page
         1)) ∧
  (∀ (g : Nat) (s : State), s.mesh.parent.grace = some g → s.meshOn = true → g ≤ s.mono → s.parentState ≠ psJoined →
       exec .addrLost s = .next (((((s.wr E4.meshAddr 0xFFFE).onMesh (fun m =>
         { m with children := [], indq := [], pendKids := [], owed := none, parent := { m.parent with grace := none, widened := 0 } })).engCancel
         false).scanStart.raise E4.page 3).meshShow)) ∧
  (∀ (p : Nat × Nat) (s : State), s.mesh.prevKey = some p → p.2 ≤ s.mono →
       exec .meshKeyOverlapEnd s = .next (s.onMesh (fun m => { m with prevKey := none }))) ∧
  (∀ (i : Fin 2) (a : PendAct) (s : State), s.pendAct (.mesh i) = some a → bitsOf a.desc 2 0 = 0 → s.actDue a = true →
     s.bit (slotStat (.mesh i)) 28 = false → s.actWarned a = false → s.meshOn = true → s.bit E4.keySel 8 = true →
       exec (.meshKeySwitch i) s = .next ((s.meshKeySwitch).endAct (.mesh i) stDone 0 false (!s.locked) false)) ∧
  (∀ (i : Fin 2) (a : PendAct) (s : State), s.pendAct (.mesh i) = some a → bitsOf a.desc 2 0 = 1 → s.actDue a = true →
     s.bit (slotStat (.mesh i)) 28 = false → s.actWarned a = false → s.meshOn = true →
       exec (.permitOn i) s = .next ((s.setBit E4.meshCfg 2 true).endAct (.mesh i) stDone 0 false (!s.locked) false)) ∧
  (∀ (i : Fin 2) (a : PendAct) (s : State), s.pendAct (.mesh i) = some a → bitsOf a.desc 2 0 = 2 → s.actDue a = true →
     s.bit (slotStat (.mesh i)) 28 = false → s.actWarned a = false → s.meshOn = true →
       exec (.permitOff i) s = .next ((s.setBit E4.meshCfg 2 false).endAct (.mesh i) stDone 0 false (!s.locked) false)) ∧
  (∀ (i : Fin 2) (a : PendAct) (s : State), s.pendAct (.mesh i) = some a → bitsOf a.desc 2 0 = 3 → s.actDue a = true →
     s.bit (slotStat (.mesh i)) 28 = false → s.actWarned a = false → s.meshOn = true →
     (s.beaconArmed (s.actTime a) = true ∨ s.mesh.lastBcn = some (s.actTime a)) →
       exec (.beaconNow i) s = .next ((s).endAct (.mesh i) stDone 0 false (!s.locked) false))

/-- Enabling and disabling a partition, and the sequencer's commands. -/
def Obligations.Partitions : Prop :=
  (∀ (r : Requester) (d : Fin 6) (s : State), s.direct r (HDR.pageCtrl (D4.page d.val)) = true → s.memberOf d.val = none →
     s.partOn d.val = false → (s.roleN d.val ≠ .access ∨ ((s.partDies d.val).foldl State.tilesBack s).placementOk d.val = false) →
       exec (.partitionEnable r d) s = .next ((s.err (dWin d.val) 3 (BitVec.ofNat 32 d.val)).onPs d.val (fun q =>
         { q with txop := none, paused := false, pauseReq := false }))) ∧
  (∀ (r : Requester) (d : Fin 6) (b s t u : State), s.direct r (HDR.pageCtrl (D4.page d.val)) = true → s.memberOf d.val = none →
     s.partOn d.val = false → s.roleN d.val = .access → b = (s.partDies d.val).foldl State.tilesBack s → b.placementOk d.val = true →
     (s.partDies d.val).all (fun n => s.acc.fw.getLsbD n) = true ∨ s.fld C4.fwStat 1 0 = 2 → (s.part? d.val).cal = none →
     t = (b.setBit (HDR.pageCtrl (D4.page d.val)) 0 true).onPart d.val (fun p => { PartState.empty with phaseLru := p.phaseLru, cal := p.cal, calAt := p.calAt, chanPend := p.cal.isSome, goal := .state (s.paRetState d.val) }) →
     u = { t with acc := { t.acc with fw := (s.partDies d.val).foldl (fun g k => g ||| BitVec.ofNat 6 (2 ^ k)) t.acc.fw } } →
       exec (.partitionEnable r d) s = .next ((((u.setFld (D4.partStat d.val) 6 4 d.val).showChains d.val).paSettleTo d.val (.state
         (s.paRetState d.val))).onPs d.val (fun q => { q with txop := none, paused := false, pauseReq := false }))) ∧
  (∀ (r : Requester) (d : Fin 6) (l : Nat) (s : State), s.direct r (HDR.pageCtrl (D4.page d.val)) = true → s.memberOf d.val = some l →
       exec (.partitionDisable r d) s = .next (s.err (D4.page d.val) 0x0100 (BitVec.ofNat 32 l))) ∧
  (∀ (r : Requester) (d : Fin 6) (s : State), s.direct r (HDR.pageCtrl (D4.page d.val)) = true → s.memberOf d.val = none →
     s.partOn d.val = true → s.pa d.val ≠ paTx → s.pa d.val ≠ paRx →
       exec (.partitionDisable r d) s = .next (s.partEnd d.val)) ∧
  (∀ (r : Requester) (d : Fin 6) (s : State), s.direct r (HDR.pageCtrl (D4.page d.val)) = true → s.memberOf d.val = none →
     s.partOn d.val = true → (s.pa d.val = paTx ∨ s.pa d.val = paRx) →
       exec (.partitionDisable r d) s = .next (s.onPart d.val (fun p => { p with stopPend := true }))) ∧
  (∀ (r : Requester) (d : Fin 6) (s : State), s.direct r (D4.seqCmd d.val) = true → s.memberOf d.val = none → s.partOn d.val = true →
     paFree (s.pa d.val) = true →
       exec (.seqSleep r d) s = .next (s.paGo d.val paSleep)) ∧
  (∀ (r : Requester) (d : Fin 6) (s : State), s.direct r (D4.seqCmd d.val) = true → s.memberOf d.val = none → s.partOn d.val = true →
     paFree (s.pa d.val) = true →
       exec (.seqIdle r d) s = .next (s.paGo d.val paIdle)) ∧
  (∀ (r : Requester) (d : Fin 6) (s : State), s.direct r (D4.seqCmd d.val) = true → s.memberOf d.val = none → s.partOn d.val = true →
     paFree (s.pa d.val) = true →
       exec (.seqListen r d) s = .next (s.paGo d.val paListen)) ∧
  (∀ (r : Requester) (d : Fin 6) (s : State), s.direct r (D4.seqCmd d.val) = true → s.memberOf d.val = none → s.partOn d.val = false →
       exec (.seqListen r d) s = .next (s.err (D4.page d.val) 0x0103 3)) ∧
  (∀ (r : Requester) (d : Fin 6) (s : State), s.direct r (D4.seqCmd d.val) = true → s.memberOf d.val = none → s.partOn d.val = true →
     s.pa d.val = paTx → (s.part? d.val).sounding = none → (s.part? d.val).stopPend = false →
       exec (.seqAbort r d false) s = .next ((s.ppduCut d 4).paGo d.val paIdle)) ∧
  (∀ (r : Requester) (d : Fin 6) (s : State), s.direct r (D4.seqCmd d.val) = true → s.memberOf d.val = none → s.partOn d.val = true →
     (s.pa d.val = paTx ∨ s.pa d.val = paRx) →
       exec (.seqAbort r d true) s = .next ((s.setFld (D4.seqStat d.val) 3 0 1).setBit (D4.seqStat d.val) 8 true)) ∧
  (∀ (r : Requester) (d : Fin 6) (b : Bool) (s : State), s.direct r (D4.seqCmd d.val) = true → s.memberOf d.val = none →
     s.partOn d.val = true → s.pa d.val = paCal → (s.part? d.val).sounding = none →
       exec (.seqAbort r d b) s = .next ((s.ppduDropWait d.val 4).partCalStop d.val))

/-- Transmissions and receptions of a partition, and its synthesisers. -/
def Obligations.PartitionTraffic : Prop :=
  (∀ (d : Fin 6) (us : Nat) (s : State), s.partOn d.val = true → paRests (s.pa d.val) = true → s.paLocked d.val = true →
     s.paHeld d.val = false →
       exec (.ppduImmediate d us) s = .next (s.ppduStart d.val 0 us none)) ∧
  (∀ (d : Fin 6) (w : PartWait) (s : State), (s.part? d.val).wait = some w → w.since + s.fld (D4.partTx d.val) 9 0 * 1000 ≤ s.mono →
     (s.paLocked d.val = false ∨ s.paHeld d.val = false) →
       exec (.accessTxWaitExpiry d) s = .next (s.ppduFail d.val 2 0x0101)) ∧
  (∀ (d : Fin 6) (w : PartWait) (s : State), (s.part? d.val).wait = some w → w.since + s.fld (D4.partTx d.val) 9 0 * 1000 ≤ s.mono →
     s.paLocked d.val = true → s.paHeld d.val = true →
       exec (.accessTxWaitExpiry d) s = .next (s.ppduFail d.val 3 0x0102)) ∧
  (∀ (d : Fin 6) (next : Nat) (ex : Bool) (l : List ChainLevel) (t : PartTx) (s : State), (s.part? d.val).tx = some t →
     (s.ps d.val).txop = none →
       exec (.ppduTxEnd d next ex l) s = .next (s.ppduTxEnd d next ex l)) ∧
  (∀ (d : Fin 6) (next : Nat) (ex : Bool) (l : List ChainLevel) (t : PartTx) (s u : State), (s.part? d.val).tx = some t →
     (u = if 20 ≤ t.us then (l.filter (fun y => t.sends y.die y.chain && y.chain < 16)).foldl State.chainReading s else s) →
     (u.ppduOver d t 1).soundSends d.val = false →
       s.ppduTxEnd d next ex l = (u.ppduOver d t 1).ppduNext d ex) ∧
  (∀ (d : Fin 6) (c : Fin 16) (rl : Nat) (t : PartTx) (s u : State), s.memberOf d.val = none → (s.part? d.val).tx = some t →
     t.sends d.val c.val = true → rl < 4 * s.fld (D6.feCfg d.val) 20 16 → s.bit (D1.chainMute d.val) c.val = false →
     u = (s.setBit (D1.chainMute d.val) c.val true).onPart d.val (fun p => { p with tx := p.tx.map (fun x => { x with protect := true, muted := (d.val, c.val, s.mono) :: x.muted, chains := x.chains.map (fun y => if y.1 = d.val then (y.1, y.2 &&& ~~~ BitVec.ofNat 16 (2 ^ c.val)) else y) }) }) →
       exec (.chainProtect d c rl) s = .next (((u.raise (D1.page d.val) 1).raise (D6.page d.val) 1).err (D6.page d.val) 0x0100
         (BitVec.ofNat 32 c.val))) ∧
  (∀ (d : Fin 6) (power : Int) (s : State), s.partOn d.val = true → s.pa d.val = paListen →
       exec (.ppduSync d power) s = .next ((s.setPa d.val paRx).onPart d.val (fun p =>
         { p with rx := some { tentative := true, power := power } }))) ∧
  (∀ (d : Fin 6) (x : PartRx) (s : State), (s.part? d.val).rx = some x → x.tentative = true →
       exec (.ppduHeader d true) s = .next (s.onPart d.val (fun p => { p with rx := some { x with tentative := false } }))) ∧
  (∀ (d : Fin 6) (x : PartRx) (s : State), (s.part? d.val).rx = some x → x.tentative = true → s.pa d.val = paRx →
     (s.part? d.val).stopPend = false →
       exec (.ppduHeader d false) s = .next ((((s.onPart d.val (fun p => { p with rx := none })).bump (D4.rxCnt d.val) 15 0 1).paGo d.val
         paListen).ppduWaiting d.val)) ∧
  (∀ (d : Fin 6) (power : Int) (x : PartRx) (s : State), (s.part? d.val).rx = some x → x.tentative = false →
     s.bit (D4.partTx d.val) 24 = true → x.power + 2 * (s.fld (D4.partTx d.val) 20 16 : Nat) ≤ power →
       exec (.ppduCapture d power false) s = .next (((s.onPart d.val (fun p =>
         { p with rx := some { tentative := true, power := power } })).bump (D4.captureCnt d.val) 15 0 1).raise (D4.page d.val) 2)) ∧
  (∀ (d : Fin 6) (resp : Option Nat) (us : Nat) (tb : List Nat) (l : List ChainLevel) (x : PartRx) (s : State),
     (s.part? d.val).rx = some x → x.tentative = false → (s.ps d.val).txop = none →
       exec (.ppduRxEnd d resp us tb l) s = .next (s.ppduRxEnd d.val resp l)) ∧
  (∀ (d : Nat) (resp : Option Nat) (l : List ChainLevel) (x : PartRx) (s u : State), (s.part? d).rx = some x → x.tentative = false →
     u = (s.wrs ((l.filter (fun y => (s.liveDies d).contains y.die && y.chain < 16 && s.bit (D1.chainEn y.die) y.chain)).map (fun y => (D1.chRssi y.die y.chain, BitVec.ofNat 32 (ux 16 y.level))))).onPart d (fun p => { p with rx := none }) →
     (s.part? d).sounding = none →
       s.ppduRxEnd d none l = s.paStopped d (u.paReturn d) ∧ ∀ us, s.ppduRxEnd d (some us) l = if s.paHeld d then s.paStopped d
         (u.paReturn d) else u.ppduStart d 2 us none) ∧
  (∀ (d : Fin 6) (st : Nat) (s t : State), s.role d = .access → s.paTuning d.val = true → s.pa d.val = paSettle →
     (s.part? d.val).goal = .state st → t = (s.phaseUse d.val).synShow d.val true false →
       exec (.accessSynthLock d false) s = .next ((((t.liveDies d.val).foldl (fun u k => u.raise (D2.page k) 0) t).setPa d.val
         st).ppduWaiting d.val)) ∧
  (∀ (d : Fin 6) (l : Nat) (s : State), s.powered (.d d) = true → s.bit (D2.synStat d.val) 0 = true → l = (s.memberOf d.val).getD d.val →
       exec (.accessSynthLock d true) s = .next (s.synthLost d.val l)) ∧
  (∀ (n lead : Nat) (s : State), s.partOn lead = false →
       s.synthLost n lead = (((s.count (D2.unlockCnt n) 1).raise (D2.page n) 1).err (D2.page n) 0x0100 (BitVec.ofNat 32 (s.pa lead))).wr
         (D2.synStat n) 2)

/-- Calibration, sounding, weights and the actions of a partition. -/
def Obligations.PartitionCalibration : Prop :=
  (∀ (r : Requester) (d : Fin 6) (w : Word) (set : BitVec 4) (s : State), s.direct r (D3.calCmd d.val) = true → s.memberOf d.val = none →
     s.roleN d.val = .access → (s.pa d.val = paIdle ∨ s.pa d.val = paListen ∨ s.pa d.val = paSleep) →
     set = (if bitsOf w 3 0 = 0 then 0xF else BitVec.ofNat 4 (bitsOf w 3 0)) → s.paActWithin d.val (paCalNs set) = false →
       exec (.partCal r d w) s = .next (s.paCalStart d.val set)) ∧
  (∀ (r : Requester) (d : Fin 6) (w : Word) (s : State), s.direct r (D3.calCmd d.val) = true → s.memberOf d.val = none →
     (s.pa d.val = paRx ∨ s.pa d.val = paTx) →
       exec (.partCal r d w) s = .next (s.err (D3.page d.val) 0x0101 w)) ∧
  (∀ (d : Fin 6) (set : BitVec 4) (s : State), (s.part? d.val).calDefer = some set → s.paCalFree d.val set = true →
       exec (.partCalDeferredStart d) s = .next (s.paCalStart d.val set)) ∧
  (∀ (d : Fin 6) (fails : List CalFail) (set : BitVec 4) (s u : State), s.role d ≠ .backhaul → (s.part? d.val).cal = some set →
     u = (s.partCalRecord d.val set fails).raise (D3.page d.val) 0 → (u.part? d.val).chanPend = false → (u.part? d.val).wait = none →
       exec (.partCalDone d fails) s = .next u) ∧
  (∀ (d : Nat) (s t : State),
     t = ((s.onPart d (fun p => { p with cal := none })).setPa d paIdle).wr (D3.calStat d) (putBit (putFld (putFld (s.rd (D3.calStat d)) 3 0 2) 7 4 0) 10 false) →
       s.partCalRecord d 2 [] = ((s.calDies d).foldl (fun a k => (List.range 4).foldl (fun b q => b.calTile 2 k q 0) a) t).showChains d) ∧
  (∀ (d : Fin 6) (us : Nat) (l : List Nat) (s : State), s.partOn d.val = true → s.paLocked d.val = true → paRests (s.pa d.val) = true →
     (s.part? d.val).wait = none → (s.part? d.val).sounding = none → l ≠ [] → l.length ≤ 32 →
       exec (.soundingStart d l us) s = .next ((((s.onPart d.val (fun p =>
         { p with sounding := some { stations := l, reports := [] } })).wr (D5.soundStat d.val) (BitVec.ofNat 32 (1 + l.length * 2 ^
         8))).emit (.ndpa d.val l)).ppduRequest d.val 1 us)) ∧
  (∀ (d next : Nat) (q : Sounding) (s : State), (s.part? d).sounding = some q →
       (s.fld (D5.soundStat d) 2 0 = 1 → s.soundNext d next = ((s.setFld (D5.soundStat d) 2 0 2).emit (.ndp d (s.fld (D5.bfCfg d) 3
         0))).ppduStart d 2 next none) ∧ (s.fld (D5.soundStat d) 2 0 ≠ 1 → s.soundNext d next = ((s.setFld (D5.soundStat d) 2 0 3).emit
         (.bfrp d (q.stations.filter (fun x => !q.reports.contains x)) (s.bit (D5.bfCfg d) 4) (s.bit (D5.bfCfg d) 5))).ppduStart d 2 next
         none)) ∧
  (∀ (d : Fin 6) (sta : Nat) (rep : List Byte) (q : Sounding) (s : State), (s.part? d.val).sounding = some q →
     q.stations.contains sta = true →
       exec (.soundingFeedback d sta rep) s = .next
         ((({ s with dram := Mem.setBytes s.dram (s.csrBase d.val + sta % 512 * 16384) (rep.take 16384) }.onPart d.val (fun p =>
         { p with sounding := some { q with reports := sta :: q.reports.filter (fun x => x != sta) }, csr := sta :: p.csr.filter (fun x => x != sta) })).setFld
         (D5.soundStat d.val) 2 0 3).dmaRequest (0x12 + 4 * d.val))) ∧
  (∀ (d : Fin 6) (q : Sounding) (s : State), (s.part? d.val).sounding = some q →
       exec (.soundDone d) s = .next (((((s.onPart d.val (fun p => { p with sounding := none })).setFld (D5.soundStat d.val) 2 0 4).bump
         (D5.soundCnt d.val) 15 0 1).raise (D5.page d.val) 0).sourceEvent (0x60 + d.val))) ∧
  (∀ (d : Fin 6) (l : List Nat) (s t : State), s.partOn d.val = true → l ≠ [] → l.all (fun x => (s.part? d.val).csr.contains x) = true →
     t = s.onPart d.val (fun p => { p with weights := { stations := l, born := s.mono, value := Config.rzfWeights (s.fld (D5.bfCfg d.val) 23 18) (s.csrBase d.val) l s.dram } :: p.weights.filter (fun w => w.stations != l) }) →
       exec (.weightsReady d l) s = .next ((if s.fld (D5.soundStat d.val) 2 0 = 4 then t.wr (D5.soundStat d.val) 0 else t).showWeights
         d.val)) ∧
  (∀ (d : Fin 6) (s : State),
       exec (.weightAgeExpiry d) s = .next ((s.onPart d.val (fun p =>
         { p with weights := p.weights.filter (fun w => s.mono ≤ w.born + s.fld (D5.bfCfg d.val) 17 8 * 1000000) })).showWeights d.val)) ∧
  (∀ (d : Fin 6) (i : Fin 8) (a : PendAct) (s t : State), s.pendAct (.part d i) = some a → a.slot = .part d i → bitsOf a.desc 1 0 = 0 →
     bitOf a.desc 31 = false → s.role d = .access → s.partOn d.val = true → s.pa d.val ≠ paTx → s.pa d.val ≠ paCal → s.actDue a = true →
     s.bit (slotStat (.part d i)) 28 = false → s.actWarned a = false → t = s.setPartChan d.val (clampChan a.extra) →
       exec (.partActChannel d i) s = .next (t.endAct (.part d i) stDone 0 false (!s.locked) false)) ∧
  (∀ (d : Fin 6) (i : Fin 8) (a : PendAct) (s t : State), s.pendAct (.part d i) = some a → a.slot = .part d i → bitsOf a.desc 1 0 = 1 →
     bitOf a.desc 31 = false → s.role d = .access → s.partOn d.val = true → s.pa d.val ≠ paTx → s.pa d.val ≠ paCal → s.actDue a = true →
     s.bit (slotStat (.part d i)) 28 = false → s.actWarned a = false →
     t = s.paStopped d.val (((s.paPreempt d.val).ppduDropWait d.val 5).paGo d.val paListen) →
       exec (.partActListen d i) s = .next (t.endAct (.part d i) stDone 0 false (!s.locked) false)) ∧
  (∀ (d : Fin 6) (i : Fin 8) (a : PendAct) (s t : State), s.pendAct (.part d i) = some a → a.slot = .part d i → bitsOf a.desc 1 0 = 2 →
     bitOf a.desc 31 = false → s.role d = .access → s.partOn d.val = true → s.pa d.val ≠ paTx → s.pa d.val ≠ paCal → s.actDue a = true →
     s.bit (slotStat (.part d i)) 28 = false → s.actWarned a = false →
     t = s.paStopped d.val (((s.paPreempt d.val).ppduDropWait d.val 5).paGo d.val paIdle) →
       exec (.partActIdle d i) s = .next (t.endAct (.part d i) stDone 0 false (!s.locked) false)) ∧
  (∀ (d : Fin 6) (i : Fin 8) (a : PendAct) (s t : State), s.pendAct (.part d i) = some a → a.slot = .part d i → bitsOf a.desc 1 0 = 3 →
     bitOf a.desc 31 = false → s.role d = .access → s.partOn d.val = true → s.pa d.val ≠ paTx → s.pa d.val ≠ paCal → s.actDue a = true →
     s.bit (slotStat (.part d i)) 28 = false → s.actWarned a = false →
     t = s.paStopped d.val (((s.paPreempt d.val).ppduDropWait d.val 5).paGo d.val paSleep) →
       exec (.partActSleep d i) s = .next (t.endAct (.part d i) stDone 0 false (!s.locked) false)) ∧
  (∀ (d : Fin 6) (i : Fin 8) (a : PendAct) (s : State), s.pendAct (.part d i) = some a → bitsOf a.desc 1 0 = 1 → bitOf a.desc 31 = false →
     s.role d = .access → s.partOn d.val = true → s.pa d.val = paTx → s.actDue a = true →
       exec (.partActListen d i) s = .next (s.onPart d.val (fun p => { p with blocked := addOnce p.blocked i })))

/-- STA_CMD: WRITE, READ, REMOVE, FLUSH, ALLOC, SET_KEY and SET_GKEY. -/
def Obligations.StationCommands : Prop :=
  (∀ (r : Requester) (i : Fin 2048) (n : Station) (s : State), s.direct r C16.staCmd = true → s.bit C16.staResult 31 = true →
     n = { s.entry i.val with words := s.rdArr (C16.staData 0) 8, heard := if (s.entry i.val).valid then (s.entry i.val).heard else s.mono } →
     n.valid = false →
       exec (.staWrite r i) s = .next ((s.setEntry n).staDone 0 i.val)) ∧
  (∀ (r : Requester) (i : Fin 2048) (s : State), s.direct r C16.staCmd = true → s.bit C16.staResult 31 = true →
       exec (.staRead r i) s = .next ((s.wrArr (C16.staData 0) ((s.entry i.val).words ++ s.staStatus (s.entry i.val))).staDone 0 i.val)) ∧
  (∀ (r : Requester) (i : Fin 2048) (e : Station) (s : State), s.direct r C16.staCmd = true → s.bit C16.staResult 31 = true →
     s.station i.val = some e →
       exec (.staRemove r i) s = .next ((s.onStation i.val (fun x => { x with removing := true })).wr C16.staResult (BitVec.ofNat 32
         (i.val * 2 ^ 16)))) ∧
  (∀ (r : Requester) (i : Fin 2048) (s : State), s.direct r C16.staCmd = true → s.bit C16.staResult 31 = true → s.station i.val = none →
       exec (.staRemove r i) s = .next (s.staFail 2 i.val 0x0102 i.val)) ∧
  (∀ (r : Requester) (i : Fin 2048) (s : State), s.direct r C16.staCmd = true → s.bit C16.staResult 31 = false →
       exec (.staRemove r i) s = .next (s.err C16.page 0x0100 3)) ∧
  (∀ (i : Fin 2048) (s t : State), (s.entry i.val).removing = true → (s.entry i.val).tx.all (fun (m : Mpdu) => m.air.isNone) = true →
     t = s.staFlush i.val (List.range 8) →
       exec (.staRemoveDone i) s = .next
         ({ t with sched := { t.sched with stations := t.sched.stations.filter (fun (x : Station) => x.idx != i.val) } }.staDone 0 i.val)) ∧
  (∀ (r : Requester) (i : Fin 2048) (tid : Fin 8) (all : Bool) (e : Station) (s : State), s.direct r C16.staCmd = true →
     s.bit C16.staResult 31 = true → s.station i.val = some e →
       exec (.staFlush r i tid all) s = .next ((s.staFlush i.val (if all then List.range 8 else [tid.val])).staDone 0 i.val)) ∧
  (∀ (r : Requester) (k : Nat) (s : State), s.direct r C16.staCmd = true → s.bit C16.staResult 31 = true →
     (List.range 2048).find? (fun i => (s.station i).isNone) = some k →
       exec (.staAlloc r) s = .next (s.staDone 0 k)) ∧
  (∀ (r : Requester) (i : Fin 2048) (e : Station) (s : State), s.direct r C16.staCmd = true → s.bit C16.staResult 31 = true →
     s.station i.val = some e → s.keyNamed = true → s.bit C16.staKey 12 = false →
       exec (.setKey r i) s = .next ((s.onStation i.val (fun x => { x with keyCur := s.fld C16.staKey 11 0 })).staDone 0 i.val)) ∧
  (∀ (r : Requester) (i : Fin 2048) (e : Station) (s : State), s.direct r C16.staCmd = true → s.bit C16.staResult 31 = true →
     s.station i.val = some e → s.keyNamed = true → s.bit C16.staKey 12 = true →
       exec (.setKey r i) s = .next ((s.onStation i.val (fun x => { x with keyNext := s.fld C16.staKey 11 0, nextValid := true })).staDone
         0 i.val)) ∧
  (∀ (r : Requester) (i : Fin 2048) (s : State), s.direct r C16.staCmd = true → s.bit C16.staResult 31 = true → i.val < 96 →
     s.keyNamed = true → s.bit C16.staKey 12 = false →
       exec (.setGkey r i) s = .next ((s.setGkey { s.gkey i.val with cur := s.fld C16.staKey 11 0 }).staDone 0 i.val))

/-- TWT_CMD, service periods, SCHED_CMD and the plans of the access scheduler. -/
def Obligations.TargetWakeAndScheduler : Prop :=
  (∀ (r : Requester) (k : Nat) (ws : List Word) (t : Twt) (s : State), s.direct r C16.twtCmd = true → ws = s.rdArr (C16.twtData 0) 5 →
     bitOf (ws.getD 0 0) 31 = false → (List.range 1024).find? (fun i => (s.twt i).isNone) = some k →
     t = { idx := k, words := ws, armed := true, opened := none, done := none } →
     s.tsf (bitsOf (ws.getD 0 0) 26 24) + 2000 ≤ t.nextStart (s.tsf (bitsOf (ws.getD 0 0) 26 24)) →
       exec (.twtAdd r) s = .next ({ s with sched := { s.sched with twts := t :: s.sched.twts } }.twtDone 0 k)) ∧
  (∀ (r : Requester) (i : Fin 2048) (t : Twt) (s : State), s.direct r C16.twtCmd = true → s.twt i.val = some t →
       exec (.twtRemove r i) s = .next
         ({ s with sched := { s.sched with twts := s.sched.twts.filter (fun (x : Twt) => x.idx != i.val) } }.twtDone 0 i.val)) ∧
  (∀ (r : Requester) (i : Fin 2048) (t : Twt) (s : State), s.direct r C16.twtCmd = true → s.twt i.val = some t →
       exec (.twtRead r i) s = .next ((s.wrArr (C16.twtData 0) t.words).twtDone 0 i.val)) ∧
  (∀ (r : Requester) (i : Fin 2048) (s : State), s.direct r C16.twtCmd = true → s.twt i.val = none →
       exec (.twtRead r i) s = .next ((s.err C16.page 0x0102 (BitVec.ofNat 32 i.val)).twtDone 2 i.val)) ∧
  (∀ (k x : Nat) (t : Twt) (s : State), s.twt k = some t → t.lastStart (s.tsf t.part) = some x → s.twtServes t x = true →
       exec (.twtSpStart k) s = .next ((s.onTwt k (fun y => { y with opened := some x, done := some x })).onPs t.part (fun q =>
         { q with plan := { q.plan with bsrp := q.plan.bsrp || bitOf (t.word 0) 28 } }))) ∧
  (∀ (k x : Nat) (t : Twt) (s : State), s.twt k = some t → t.opened = some x → x + t.dur ≤ s.tsf t.part →
       exec (.twtSpEnd k) s = .next (s.onTwt k (fun y => { y with opened := none }))) ∧
  (∀ (r : Requester) (p : Fin 6) (s : State), s.direct r (C16.schedCmd p.val) = true → s.schedState p.val ≠ 0 → (s.ps p.val).txop = none →
       exec (.schedCmdPause r p) s = .next (s.onPs p.val (fun q => if q.txop.isSome then { q with pauseReq := true } else
         { q with paused := true }))) ∧
  (∀ (r : Requester) (p : Fin 6) (s : State), s.direct r (C16.schedCmd p.val) = true →
       exec (.schedCmdResume r p) s = .next (s.onPs p.val (fun q => { q with paused := false, pauseReq := false }))) ∧
  (∀ (r : Requester) (p : Fin 6) (s : State), s.direct r (C16.schedCmd p.val) = true → s.partOn p.val = true →
       exec (.replan r p) s = .next (s.planBuild p.val)) ∧
  (∀ (p : Fin 6) (s : State), s.schedState p.val ≠ 0 → (s.ps p.val).built + s.fld C16.asCfg 9 0 * 1000 ≤ s.mono →
       exec (.planRebuild p) s = .next (s.planBuild p.val)) ∧
  (∀ (p : Fin 6) (s : State), s.schedState p.val ≠ 0 → s.bit (C16.schedCfg p.val) 1 = true → s.bsrpStale p.val = true →
       exec (.bsrpDue p) s = .next (s.onPs p.val (fun q => { q with plan := { q.plan with bsrp := true } })))

/-- TXOPs, MPDUs, block acknowledgement, reordering and the scheduler's actions. -/
def Obligations.ExchangesAndKeys : Prop :=
  (∀ (p : Fin 6) (s : State), s.schedState p.val = 2 → 0 < s.planRoom p.val (s.ps p.val).plan → s.planSteps p.val (s.ps p.val).plan ≠ [] →
       exec (.txopWon p) s = .next (s.onPs p.val (fun x =>
         { x with txop := some { ac := s.contendAc p.val, plan := (s.ps p.val).plan, steps := s.planSteps p.val (s.ps p.val).plan, prepared := false, ends := s.mono + s.planRoom p.val (s.ps p.val).plan * 1000 } }))) ∧
  (∀ (p : Fin 6) (us len : Nat) (slot : Option (Fin 8)) (x : Txop) (rest : List Nat) (s t : State), (s.ps p.val).txop = some x →
     x.prepared = false → len = s.stepUs p.val x us → len ≠ 0 →
     t = s.onPs p.val (fun q => { q with txop := some { x with prepared := true } }) →
       (x.steps = 1 :: rest → exec (.ppduPrepare p us slot) s = .next ((t.prepareDl p.val).ppduHand p len slot)) ∧ (x.steps = 2 :: rest →
         exec (.ppduPrepare p us slot) s = .next ((((t.bump (C16.ppduCnt p.val) 31 16 1).onPs p.val (fun q =>
         { q with plan := { q.plan with bsrp := false } })).sendTrigger p.val x.plan).ppduHand p len slot)) ∧ (x.steps = 3 :: rest → exec
         (.ppduPrepare p us slot) s = .next (t.ppduHand p len slot))) ∧
  (∀ (p : Fin 6) (us : Nat) (slot : Option (Fin 8)) (k : Nat) (x : Txop) (rest : List Nat) (s : State), (s.ps p.val).txop = some x →
     x.prepared = false → x.steps = k :: rest → k ≠ 0 → s.stepUs p.val x us = 0 →
       exec (.ppduPrepare p us slot) s = .next (s.txopCut p.val [])) ∧
  (∀ (p : Fin 6) (us : Nat) (i : Fin 8) (s : State),
       s.ppduHand p us none = s.ppduRequest p.val 1 us ∧ s.ppduHand p us (some i) = s.ppduScheduled p i us) ∧
  (∀ (p : Fin 6) (x : Txop) (s t : State), (s.ps p.val).txop = some x →
     (t = (if x.prepared && x.steps.head? = some 2 then x.plan.ul else []).foldl (fun u a => u.onStation a.sta (fun e => { e with ul := 0 })) s) →
       exec (.txopEnd p) s = .next (t.txopCut p.val [])) ∧
  (∀ (d : Nat) (again : List Nat) (s t : State), s.inTxop d = true →
     t = ((s.airClear d).onPs d (fun q => { q with txop := none, paused := s.serviceOn d && (q.paused || q.pauseReq), pauseReq := false, soundAgain := q.soundAgain ++ again })).paChanDue d →
       s.txopCut d again = t.planBuild d) ∧
  (∀ (p : Fin 6) (m : MpduRx) (t : Station) (s : State), s.station m.sta = some t → t.linked p.val = true → s.partOn p.val = true →
     8 ≤ m.tid →
       exec (.mpduRx p m) s = .next (s.count C16.tidDrop 1)) ∧
  (∀ (p : Fin 6) (m : MpduRx) (t : Station) (s : State), s.station m.sta = some t → t.linked p.val = true → s.partOn p.val = true →
     m.tid < 8 → m.ba = none →
       exec (.mpduRx p m) s = .next (((s.mpduHear m).emit (.mpduAck p.val m.sta m.tid m.sn)).mpduPlain p.val t m)) ∧
  (∀ (p : Fin 6) (b : BlockAck) (t : Station) (s : State), s.sched.stations.find? (fun (x : Station) => x.idx == b.sta) = some t →
       exec (.blockAckRx p b) s = .next ((t.tx.filter (fun (m : Mpdu) => m.tid == b.tid && m.air == some p.val)).foldl (fun u m => if
         (b.acked.getD []).contains m.sn then u.onStation b.sta (fun x =>
         { x with tx := x.tx.filter (fun y => !(y.tid == m.tid && y.sn == m.sn)) }) else u.mpduFail p.val b.sta m) s)) ∧
  (∀ (sta : Nat) (tid : Fin 8) (g k : Nat) (t : Station) (x : TidRx) (f : Frame) (s : State), s.station sta = some t →
     x = t.rxOf tid.val → x.gap = some g → g + s.fld C16.asCfg 23 16 * 1000000 ≤ s.mono → x.held = [(k, f)] →
       exec (.reorderTimeout sta tid) s = .next (s.release (((List.range 6).find? (fun j => t.linked j)).getD 0) sta ((x.moveTo k
         4096).2.advance 4096).2 ((x.moveTo k 4096).1 ++ ((x.moveTo k 4096).2.advance 4096).1))) ∧
  (∀ (i : Fin 8) (a : PendAct) (s t u : State), s.pendAct (.sched i) = some a → bitsOf a.desc 2 0 = 1 → s.actDue a = true →
     s.bit (slotStat (.sched i)) 28 = false → s.actWarned a = false → (s.gkey (actTarget a)).nextValid = true →
     t = s.setGkey { s.gkey (actTarget a) with cur := (s.gkey (actTarget a)).next, nextValid := false } →
     u = t.endAct (.sched i) stDone 0 false (!s.locked) false →
       exec (.gkeySwitch i) s = .next u) ∧
  (∀ (i : Fin 8) (a : PendAct) (s t u : State), s.pendAct (.sched i) = some a → bitsOf a.desc 2 0 = 2 → s.actDue a = true →
     s.bit (slotStat (.sched i)) 28 = false → s.actWarned a = false → (s.twt (actTarget a)).isSome = true →
     t = s.onTwt (actTarget a) (fun x => { x with armed := true }) → u = t.endAct (.sched i) stDone 0 false (!s.locked) false →
       exec (.twtEnable i) s = .next u) ∧
  (∀ (i : Fin 8) (a : PendAct) (s t u : State), s.pendAct (.sched i) = some a → bitsOf a.desc 2 0 = 3 → s.actDue a = true →
     s.bit (slotStat (.sched i)) 28 = false → s.actWarned a = false → (s.twt (actTarget a)).isSome = true →
     t = s.onTwt (actTarget a) (fun x => { x with armed := false, opened := none }) →
     u = t.endAct (.sched i) stDone 0 false (!s.locked) false →
       exec (.twtDisable i) s = .next u) ∧
  (∀ (i : Fin 8) (a : PendAct) (s t u : State), s.pendAct (.sched i) = some a → bitsOf a.desc 2 0 = 4 → s.actDue a = true →
     s.bit (slotStat (.sched i)) 28 = false → s.actWarned a = false → actTarget a < 6 → s.partOn (actTarget a) = true →
     t = s.schedPause (actTarget a) → u = t.endAct (.sched i) stDone 0 false (!s.locked) false →
       exec (.schedPause i) s = .next u) ∧
  (∀ (i : Fin 8) (a : PendAct) (s t u : State), s.pendAct (.sched i) = some a → bitsOf a.desc 2 0 = 5 → s.actDue a = true →
     s.bit (slotStat (.sched i)) 28 = false → s.actWarned a = false → actTarget a < 6 → s.partOn (actTarget a) = true →
     t = s.schedResume (actTarget a) → u = t.endAct (.sched i) stDone 0 false (!s.locked) false →
       exec (.schedResume i) s = .next u) ∧
  (∀ (i : Fin 8) (a : PendAct) (x : Station) (s t u : State), s.pendAct (.sched i) = some a → bitsOf a.desc 2 0 = 0 → s.actDue a = true →
     s.bit (slotStat (.sched i)) 28 = false → s.actWarned a = false → s.station (actTarget a) = some x → x.nextValid = true →
     t = s.onStation (actTarget a) (fun e => { e with keyCur := e.keyNext, nextValid := false }) →
     u = t.endAct (.sched i) stDone 0 false (!s.locked) false →
       exec (.staKeySwitch i) s = .next u)

/-- Backhaul cycles, frames, health, loss, search and tone maps. -/
def Obligations.BackhaulLink : Prop :=
  (∀ (d : Fin 12) (s u t : State), s.dirHere d.val = true → s.gridNew d.val = true → u = s.gridMark d.val → u.dirOn d.val = true →
     u.dirState d.val = 0 → t = u.cycleSettle d.val → t.dirState d.val = 1 →
       exec (.bhCycleStart d) s = .next (((t.bhCalBegin d.val).searchCycle d.val).dirShow d.val)) ∧
  (∀ (d : Fin 12) (s u : State), s.dirHere d.val = true → s.gridNew d.val = true → u = s.gridMark d.val → u.dirOn d.val = false →
     u.dirState d.val ≠ 0 →
       exec (.bhCycleStart d) s = .next ((((u.onDir d.val BhDir.toOff).wr (dStat d.val) 0).dirShow d.val).bhCalBegin d.val)) ∧
  (∀ (d : Fin 12) (s : State), s.dirHere d.val = true → s.gridNew d.val = false →
       exec (.bhCycleStart d) s = .next s) ∧
  (∀ (d : Fin 12) (why : Nat) (s u t : State), s.dirHere d.val = true → s.gridNew d.val = true → u = s.gridMark d.val →
     u.dirOn d.val = true → t = u.cycleSettle d.val → t.dirState d.val ≠ 1 → (t.dir d.val).calNext = none →
     t.skipReason d.val = some why →
       exec (.bhCycleStart d) s = .next ((((t.frameSkip d.val why).bhCalBegin d.val).dirCap d.val).dirShow d.val)) ∧
  (∀ (d : Fin 12) (f : BhFrame) (s : State), s.dirHere d.val = true → s.dirState d.val ≠ 0 → f.crcOk = false →
       exec (.bhFrameRx d f) s = .next (s.bump (D7.frameCnt (dirDie d.val) (dirHead d.val)) 31 16 1)) ∧
  (∀ (d : Fin 12) (f : BhFrame) (s t : State), s.dirHere d.val = true → s.dirState d.val = 1 → f.crcOk = true →
     (f.endB == s.bit (dCfg d.val) 0) = false → f.ver = 1 → f.sender = s.fld (D7.dirId (dirDie d.val) (dirHead d.val)) 31 16 →
     f.consistent = true →
     t = (s.bump (D7.frameCnt (dirDie d.val) (dirHead d.val)) 15 0 1).onDir d.val (fun z => { z with good := true, noGood := 0, lost := 0, peerSkip := f.skip, advance := if s.bit (dCfg d.val) 0 then z.advance + f.ta else 0, arrival := if s.bit (dCfg d.val) 0 then 0 else f.arrival }) →
       exec (.bhFrameRx d f) s = .next ((t.cfo d.val f.offset).searchHeard d.val f)) ∧
  (∀ (d : Fin 12) (s : State), s.dirHere d.val = true → s.dirState d.val ≠ 0 → (s.dir d.val).good = false → (s.dir d.val).peerSkip = 0 →
     ((s.dir d.val).stream 0).snrs = [] → ((s.dir d.val).stream 1).snrs = [] →
       exec (.bhHealthReport d) s = .next ((s.onDir d.val (fun z => { z with noGood := (s.dir d.val).noGood + 1, peerSkip := 0 })).wr
         (D7.dirHealth (dirDie d.val) (dirHead d.val)) (BitVec.ofNat 32 (min ((s.dir d.val).noGood + 1) 255 * 2 ^ 8)))) ∧
  (∀ (d : Fin 12) (s : State), s.dirHere d.val = true → s.dirState d.val = 2 → 8 ≤ (s.dir d.val).noGood →
       exec (.bhLinkLost d) s = .next ((s.setDirState d.val 3).dirEvent d.val 1)) ∧
  (∀ (d : Fin 12) (s : State), s.dirHere d.val = true → s.dirState d.val = 3 → 64 ≤ (s.dir d.val).lost →
       exec (.bhSearchRestart d) s = .next (s.enterSearch d.val)) ∧
  (∀ (d : Fin 12) (s : State), s.dirHere d.val = true → s.dirState d.val = 1 → (s.dir d.val).search.found = true →
       exec (.searchComplete d) s = .next ((((s.onDir d.val (fun z =>
         { BhDir.off with cycle := z.cycle, good := z.good, advance := z.advance, arrival := z.arrival, grid := z.grid, outq := z.outq })).setDirState
         d.val 2).dirEvent d.val 0).dirShow d.val)) ∧
  (∀ (d : Fin 12) (a b : List Int) (x y : Bool) (s : State), s.dirHere d.val = true → s.dirState d.val = 2 →
     (s.dir d.val).window = false →
       exec (.noiseWindowDone d a b x y) s = .next (s.onDir d.val (fun z => { z with window := true }))) ∧
  (∀ (r : Requester) (d : Fin 6) (w : Word) (s : State), s.direct r (D7.tmCmd d.val) = true → bitOf w 31 = true →
     s.bit (dTm (2 * d.val + bitsOf w 0 0)) 16 = true → (∀ e, r ≠ .engine e) →
     ((s.dir (2 * d.val + bitsOf w 0 0)).stream (bitsOf w 1 1)).rxPend = none →
     s.tmWorth (2 * d.val + bitsOf w 0 0) (bitsOf w 1 1) = true →
       exec (.tmSend r d w) s = .next (s.tmSend (2 * d.val + bitsOf w 0 0) (bitsOf w 1 1) (bitsOf w 15 8) (min (bitsOf w 19 16) 12))) ∧
  (∀ (d : Fin 12) (k : Fin 2) (id kAt design : Nat) (es : List Nat) (m : BhMap) (s : State), s.dirHere d.val = true →
     s.dirState d.val = 2 → ((s.dir d.val).stream k.val).tx.letter ≠ 1 → m = { letter := 1, id := id % 256, design := design } →
       exec (.tmUpdateRx d k id kAt design es) s = .next ((s.putTab (tabOf d.val 1 k.val 1) es).onDir d.val (fun x => x.onStream k.val
         (fun z => { z with txNext := some (m, kAt), ackId := id % 256, txIds := z.txIds.set 0 (id % 256) }))))

/-- Backhaul heads, calibration and the actions of a direction. -/
def Obligations.BackhaulHeads : Prop :=
  (∀ (r : Requester) (d : Fin 6) (h : Fin 2) (w : Word) (s : State), s.direct r (D6B.headCmd d.val h.val) = true →
     s.roleN d.val = .backhaul → 0x10 ≤ bitsOf w 22 16 →
       exec (.headWrite r d h w) s = .next (s.emit (.headWrite (2 * d.val + h.val) (bitsOf w 22 16) (bitsOf w 15 0)))) ∧
  (∀ (r : Requester) (d : Fin 6) (h : Fin 2) (w : Word) (data : Half) (s : State), s.direct r (D6B.headCmd d.val h.val) = true →
     s.roleN d.val = .backhaul → 0x10 ≤ bitsOf w 22 16 →
       exec (.headRead r d h w data) s = .next (s.wr (D6B.headRdata d.val h.val) (BitVec.ofNat 32 (data.toNat + 2 ^ 31)))) ∧
  (∀ (r : Requester) (d : Fin 6) (h : Fin 2) (w : Word) (s : State), s.direct r (D6B.headCmd d.val h.val) = true →
     s.roleN d.val = .backhaul → bitsOf w 22 16 < 0x10 →
       exec (.headWrite r d h w) s = .next (s.err (D6B.page d.val) 0x0101 (BitVec.ofNat 32 (bitsOf w 22 16)))) ∧
  (∀ (d : Fin 12) (s : State), s.dirHere d.val = true → s.bit (D6B.headStat (dirDie d.val) (dirHead d.val)) 1 = false →
       exec (.headAlert d) s = .next (((s.setBit (D6B.headStat (dirDie d.val) (dirHead d.val)) 1 true).raise (D6B.page (dirDie d.val))
         (dirHead d.val)).err (D6B.page (dirDie d.val)) 0x0102 (BitVec.ofNat 32 (dirHead d.val)))) ∧
  (∀ (d : Fin 12) (s : State), s.dirHere d.val = true →
       exec (.headAlertRelease d) s = .next (s.setBit (D6B.headStat (dirDie d.val) (dirHead d.val)) 1 false)) ∧
  (∀ (r : Requester) (d : Fin 6) (w : Word) (s : State), s.direct r (D3.calCmd d.val) = true → s.roleN d.val = .backhaul →
     bitsOf w 3 0 = 0 → bitsOf w 9 8 = 1 →
       exec (.bhCal r d w) s = .next (s.onDir (2 * d.val) (fun z => { z with calNext := some 0xF }))) ∧
  (∀ (d : Fin 6) (i : Fin 8) (a : PendAct) (n : Nat) (s t u : State), s.pendAct (.part d i) = some a → bitsOf a.desc 1 0 = 0 →
     s.role d = .backhaul → s.actDue a = true → s.bit (slotStat (.part d i)) 28 = false → s.actWarned a = false → a.slot = .part d i →
     n = 2 * d.val + bitsOf a.desc 4 4 → s.dirHere n = true →
     t = s.setDirChan n (putFld (s.rd (D7.dirChan d.val (dirHead n))) 2 0 (clampN 1 6 (bitsOf a.desc 10 8))) →
     u = t.endAct (.part d i) stDone 0 false (!s.locked) false →
       exec (.bhActChannel d i) s = .next u) ∧
  (∀ (d : Fin 6) (i : Fin 8) (a : PendAct) (n : Nat) (s t u : State), s.pendAct (.part d i) = some a → bitsOf a.desc 1 0 = 1 →
     s.role d = .backhaul → s.actDue a = true → s.bit (slotStat (.part d i)) 28 = false → s.actWarned a = false → a.slot = .part d i →
     n = 2 * d.val + bitsOf a.desc 4 4 → s.dirHere n = true → s.acc.fw.getLsbD (dirDie n) = true →
     t = { s.setBit (dCfg n) 31 true with acc := { s.acc with fw := s.acc.fw ||| BitVec.ofNat 6 (2 ^ dirDie n) } } →
     u = t.endAct (.part d i) stDone 0 false (!s.locked) false →
       exec (.dirOn d i) s = .next u) ∧
  (∀ (d : Fin 6) (i : Fin 8) (a : PendAct) (n : Nat) (s t u : State), s.pendAct (.part d i) = some a → bitsOf a.desc 1 0 = 2 →
     s.role d = .backhaul → s.actDue a = true → s.bit (slotStat (.part d i)) 28 = false → s.actWarned a = false → a.slot = .part d i →
     n = 2 * d.val + bitsOf a.desc 4 4 → s.dirHere n = true → t = s.setBit (dCfg n) 31 false →
     u = t.endAct (.part d i) stDone 0 false (!s.locked) false →
       exec (.dirOff d i) s = .next u)

/-- Dispatch, reception, order, acknowledgement and retransmission of a cross-band link. -/
def Obligations.LinkTraffic : Prop :=
  (∀ (l : Fin 8) (m : Fin 3) (c : Nat) (d : Drr) (x : QFrame) (s t u : State), s.linkOn l.val = true → t = s.settle l.val →
     t.xblPick l.val m.val = some (c, d) →
     u = { t with qm := { t.qm with drr := d :: t.qm.drr.filter (fun (e : Drr) => e.port != 16 + l.val) } } →
     u.waitingRetx l.val c = none → u.head (portQueue (16 + l.val) c) = some x →
       exec (.xblDispatch l m) s = .next (u.xblNew l.val c x)) ∧
  (∀ (l : Fin 8) (m : Fin 3) (f : XblFrame) (slot wrap which : Nat) (s t : State), s.linkOn l.val = true →
     linkHas (s.rd (C17.linkCfg l.val)) m.val = true → f.ver = 1 → f.type ≤ 3 → f.sound = true → f.data = none → t = s.pipeRx l.val 32 →
     t.rxKey l.val f.phase = some (slot, wrap, which) → (t.link l.val).high = none → f.authOk = true → (t.pipeKey slot).valid = true →
       exec (.xblFrameRx l m f) s = .next (t.xblAct l.val m.val f which (f.pn / 2 ^ 24))) ∧
  (∀ (l : Fin 8) (seq : Nat) (h : XblHeld) (s : State), s.linkOn l.val = true →
     (s.link l.val).held.find? (fun (x : XblHeld) => x.seq == seq) = some h → h.since + s.fld (C17.reorder l.val) 6 0 * 100000 ≤ s.mono →
       exec (.xblReorderTimeout l seq) s = .next (s.xblForce l.val h)) ∧
  (∀ (l : Fin 8) (x : XblLink) (s : State), s.linkOn l.val = true → s.memAvail l.val 0 = true → x = s.link l.val → x.changed ≠ [] →
     x.ackAt = none → s.canSeq l.val = true →
       exec (.xblAckDue l) s = .next ((s.onLink l.val (fun y => { y with changed := y.changed.drop 16, ackAt := some s.mono })).xblControl
         l.val 0 1 (x.ackOctets (x.changed.take 16)))) ∧
  (∀ (l : Fin 8) (seq : Nat) (e : XblSent) (s : State), s.linkOn l.val = true →
     (s.link l.val).store.find? (fun (x : XblSent) => x.seq == seq) = some e → e.last + s.retxTo l.val e.member ≤ s.mono →
     e.retx < s.fld (C17.reorder l.val) 19 16 → s.choices l.val e.cls ≠ [] →
       exec (.xblRetxTimeout l seq) s = .next (s.handOver l.val e)) ∧
  (∀ (l : Fin 8) (seq : Nat) (e : XblSent) (s : State), s.linkOn l.val = true →
     (s.link l.val).store.find? (fun (x : XblSent) => x.seq == seq) = some e → e.last + s.retxTo l.val e.member ≤ s.mono →
     s.fld (C17.reorder l.val) 19 16 ≤ e.retx →
       exec (.xblRetxTimeout l seq) s = .next (s.xblDrop l.val seq)) ∧
  (∀ (l c : Fin 8) (t0 m : Nat) (s : State), s.linkOn l.val = true → ((s.link l.val).cls c.val).wait = some t0 →
     ((s.link l.val).cls c.val).cur = some m → t0 + s.fld (C17.reorder l.val) 14 8 * 100000 ≤ s.mono →
       exec (.returnWaitEnd l c) s = .next (s.onLink l.val (fun y => y.onCls c.val (fun k =>
         { k with cur := (s.choices l.val c.val).head?, wait := none })))) ∧
  (∀ (l : Fin 8) (p : Nat × Nat × Nat) (s : State), (s.link l.val).prevKey = some p → p.2.2 ≤ s.mono →
       exec (.xblKeyOverlapEnd l) s = .next (s.onLink l.val (fun x => { x with prevKey := none })))

/-- Keepalives, health and failover of a link's members, and the link actions. -/
def Obligations.LinkMembers : Prop :=
  (∀ (l : Fin 8) (m : Fin 3) (s : State), s.linkOn l.val = true → m.val ≠ 0 → linkHas (s.rd (C17.linkCfg l.val)) m.val = true →
       exec (.keepaliveDue l m) s = .next (s.xblControl l.val m.val 3 [])) ∧
  (∀ (l : Fin 8) (m : Fin 3) (miss cap : Nat) (s t : State), s.linkOn l.val = true → linkHas (s.rd (C17.linkCfg l.val)) m.val = true →
     t = s.onLink l.val (fun x => x.onMem m.val (fun y => { y with report := s.mono })) → t.downReason l.val m.val miss cap = none →
     t.mState l.val m.val = 1 →
       exec (.memberHealthReport l m miss cap) s = .next ((t.onLink l.val (fun x => x.onMem m.val (fun y =>
         { y with clear := s.mono }))).setMState l.val m.val 3)) ∧
  (∀ (l : Fin 8) (m : Fin 3) (miss cap n : Nat) (s t : State), s.linkOn l.val = true → linkHas (s.rd (C17.linkCfg l.val)) m.val = true →
     t = s.onLink l.val (fun x => x.onMem m.val (fun y => { y with report := s.mono })) → t.downReason l.val m.val miss cap = some n →
       exec (.memberHealthReport l m miss cap) s = .next (t.memberDown l.val m.val n)) ∧
  (∀ (l : Fin 8) (s : State), s.linkOn l.val = true →
     ((s.link l.val).mem 1).heard + 3 * (s.fld (C17.health1 l.val) 22 16 * 1000000) ≤ s.mono →
       exec (.memberSilent l 1) s = .next (s.memberDown l.val 1 4)) ∧
  (∀ (l : Fin 8) (m : Fin 3) (s : State), s.linkOn l.val = true → ((s.link l.val).mem m.val).report + 1000000 ≤ s.mono →
       exec (.memberNoReport l m) s = .next (s.memberDown l.val m.val 5)) ∧
  (∀ (l : Fin 8) (m : Fin 3) (s : State), s.linkOn l.val = true → s.mState l.val m.val = 3 →
     ((s.link l.val).mem m.val).clear + s.upHold l.val m.val ≤ s.mono → s.downReason l.val m.val 0 (2 ^ 32) = none →
       exec (.memberUp l m) s = .next (((s.setMState l.val m.val 2).linkRaise l.val 1).settle l.val)) ∧
  (∀ (i : Fin 8) (a : PendAct) (l : Nat) (s : State), s.pendAct (.link i) = some a → bitsOf a.desc 1 0 = 0 → s.actDue a = true →
     s.bit (slotStat (.link i)) 28 = false → s.actWarned a = false → l = bitsOf a.desc 10 8 → bitOf (s.rd (C17.keySel l)) 12 = true →
       exec (.xblKeySwitch i) s = .next ((s.setKeySel l (bitsOf (s.rd (C17.keySel l)) 11 6 + bitsOf (s.rd (C17.keySel l)) 11 6 *
         64)).endAct (.link i) stDone 0 false (!s.locked) false)) ∧
  (∀ (i : Fin 8) (a : PendAct) (l : Nat) (s : State), s.pendAct (.link i) = some a → bitsOf a.desc 1 0 = 1 → s.actDue a = true →
     s.bit (slotStat (.link i)) 28 = false → s.actWarned a = false → l = bitsOf a.desc 10 8 →
     s.linkFault l (putBit (s.rd (C17.linkCfg l)) 31 true) = none → s.bit (C17.linkCfg l) 31 = false →
       exec (.linkOn i) s = .next ((s.linkStart l (putBit (s.rd (C17.linkCfg l)) 31 true)).endAct (.link i) stDone 0 false (!s.locked)
         false)) ∧
  (∀ (i : Fin 8) (a : PendAct) (l : Nat) (s : State), s.pendAct (.link i) = some a → bitsOf a.desc 1 0 = 2 → s.actDue a = true →
     s.bit (slotStat (.link i)) 28 = false → s.actWarned a = false → l = bitsOf a.desc 10 8 → s.bit (C17.linkCfg l) 31 = true →
       exec (.linkOff i) s = .next ((s.linkStop l (s.rd (C17.linkCfg l))).endAct (.link i) stDone 0 false (!s.locked) false))

/-- Commands of the exact-match table, its walks, sweeps and parity. -/
def Obligations.ForwardingTable : Prop :=
  (∀ (r : Requester) (st p : Nat) (s t : State), s.reachable C13.tblCmd = true → s.tagOf r (pageOf C13.tblCmd) = 0 →
     emKeyOk (s.tblEntry r) = true → s.emInsert (s.tblEntry r) = (st, p, t) → st ≠ 3 →
       exec (.tblInsert r) s = .next ((t.wrReq r C13.tblLoc (emLoc p)).tblStatus r st false (decide (65536 ≤ p)))) ∧
  (∀ (r : Requester) (s : State), s.reachable C13.tblCmd = true → s.tagOf r (pageOf C13.tblCmd) = 0 → emKeyOk (s.tblEntry r) = false →
       exec (.tblInsert r) s = .next (s.tblStatus r 6 false false)) ∧
  (∀ (r : Requester) (e : EmSlot) (s : State), s.reachable C13.tblCmd = true → s.tagOf r (pageOf C13.tblCmd) = 0 →
     emKeyOk (s.tblEntry r) = true → s.emFind (emKey (s.tblEntry r)) = some e →
       exec (.tblDelete r) s = .next (((s.emDelete (emKey (s.tblEntry r))).wrReq r C13.tblLoc (emLoc e.pos)).tblStatus r 0 false (decide
         (65536 ≤ e.pos)))) ∧
  (∀ (r : Requester) (e : EmSlot) (s : State), s.reachable C13.tblCmd = true → emKeyOk (s.tblEntry r) = true →
     s.emFind (emKey (s.tblEntry r)) = some e →
       exec (.tblSearch r) s = .next ((s.tblShow r e).tblStatus r 1 false (decide (65536 ≤ e.pos)))) ∧
  (∀ (r : Requester) (s : State), s.reachable C13.tblCmd = true → emKeyOk (s.tblEntry r) = true → s.emFind (emKey (s.tblEntry r)) = none →
       exec (.tblSearch r) s = .next (s.tblStatus r 2 false false)) ∧
  (∀ (r : Requester) (ty : Fin 16) (s : State), s.reachable C13.tblCmd = true → s.fwd.em.walk r = none →
       exec (.tblNext r ty false) s = .next (s.tblStatus r 7 false false)) ∧
  (∀ (r : Requester) (s : State), s.reachable C13.tblCmd = true →
       exec (.walkClose r) s = .next ((s.onEm (fun em => em.closeWalk r)).tblStatus r 0 false false)) ∧
  (∀ (r : Requester) (w : EmWalk) (s : State), s.fwd.em.walk r = some w → w.last + 100000000 ≤ s.mono →
       exec (.walkTimeout r) s = .next (s.onEm (fun em => em.closeWalk r))) ∧
  (∀ (r : Requester) (q : Fin 32) (b : Bool) (ty : Fin 16) (s : State), s.reachable C13.tblCmd = true →
     s.tagOf r (pageOf C13.tblCmd) = 0 → portLegal q.val = true → s.fwd.em.sweep = none →
       exec (.flushPort r q b ty) s = .next ((s.sweepStart { flush := some (q.val, b), type := ty.val, removed := 0 }).tblStatus r 0 false
         false)) ∧
  (∀ (r : Requester) (ty : Fin 16) (s : State), s.reachable C13.tblCmd = true → s.tagOf r (pageOf C13.tblCmd) = 0 →
     s.fwd.em.sweep = none →
       exec (.ageSweep r ty) s = .next ((s.sweepStart { flush := none, type := ty.val, removed := 0 }).tblStatus r 0 false false)) ∧
  (∀ (n : Nat) (w : EmSweep) (s t : State), s.fwd.em.sweep = some w → s.sweepAct w (!s.fwd.em.mark) = (n, t) →
       exec .sweepDone s = .next (((t.onEm (fun em => { em with sweep := none })).wr C13.sweepResult (BitVec.ofNat 32 ((n + w.removed) % 2
         ^ 17))).raise C13.page 1)) ∧
  (∀ (s : State), s.cRuns = true → s.fld C13.ageCfg 15 0 ≠ 0 → s.fwd.em.lastAge + s.fld C13.ageCfg 15 0 * 1000000000 ≤ s.mono →
     s.fwd.em.sweep = none →
       exec .autoAge s = .next ((s.sweepStart { flush := none, type := 0, removed := 0 }).onEm (fun em => { em with lastAge := s.mono }))) ∧
  (∀ (pos : Nat) (e : EmSlot) (s : State), emAt s.fwd.em.slots pos = some e →
       exec (.parityRemove pos) s = .next ((((s.err C13.page 0x0100 (emLoc pos)).count C13.parityCnt 1).raise C13.page 2).onEm (fun em =>
         { em with slots := em.slots.filter (fun (x : EmSlot) => !(x.pos == pos && x.solid)) }))) ∧
  (∀ (bad : List Nat) (s : State), s.cRuns = true → s.fwd.em.lastScrub + s.fld C13.scrubCfg 13 0 * 1000000 ≤ s.mono →
       exec (.scrubPass bad) s = .next (((bad.foldl State.parityRemove s).onEm (fun em => { em with lastScrub := s.mono })).emDrain 8)) ∧
  (∀ (r : Requester) (n : Fin 2) (w : Word) (s : State), s.direct r (C13.hashSeed n.val) = true → s.fwd.em.slots = [] →
       exec (.hashSeedWrite r n w) s = .next (s.wr (C13.hashSeed n.val) w)) ∧
  (∀ (r : Requester) (n : Fin 2) (w : Word) (s : State), s.direct r (C13.hashSeed n.val) = true → s.fwd.em.slots ≠ [] →
       exec (.hashSeedWrite r n w) s = .next (s.err C13.page 0x0101 (BitVec.ofNat 32 (C13.hashSeed n.val % 65536))))

/-- Commands of the LPM table, next hops and VLANs. -/
def Obligations.RoutesAndVlans : Prop :=
  (∀ (r : Requester) (w : Word) (st k : Nat) (s : State), s.reachable C14.lpmCmd = true → s.tagOf r (pageOf C14.lpmCmd) = 0 →
     (s.lpmNamed r w).ok = true → s.fwd.lpm.judge (s.lpmNamed r w) = (st, k) → st ≤ 1 →
       exec (.lpmInsert r w) s = .next ((s.onLpm (fun l => { l with prefixes := prefixInsert (s.lpmNamed r w) l.prefixes })).lpmStatus r
         st 0)) ∧
  (∀ (r : Requester) (w : Word) (s : State), s.reachable C14.lpmCmd = true → s.tagOf r (pageOf C14.lpmCmd) = 0 →
     (s.lpmNamed r w).ok = true → s.fwd.lpm.prefixes.any (s.lpmNamed r w).same = true →
       exec (.lpmDelete r w) s = .next ((s.onLpm (fun l =>
         { l with prefixes := l.prefixes.filter (fun x => !(s.lpmNamed r w).same x) })).lpmStatus r 0 0)) ∧
  (∀ (r : Requester) (w : Word) (p q : Prefix) (s : State), s.reachable C14.lpmCmd = true →
     p = s.lpmNamed r (putFld w 14 8 (famBits (bitOf w 4))) → s.fwd.lpm.search p.v6 p.vrf p.addr = some q →
       exec (.lpmSearch r w) s = .next ((s.wrReq r C14.lpmNh (BitVec.ofNat 32 q.nh)).lpmStatus r 1 0)) ∧
  (∀ (r : Requester) (w : Word) (p : Prefix) (s : State), s.reachable C14.lpmCmd = true →
     p = s.lpmNamed r (putFld w 14 8 (famBits (bitOf w 4))) → s.fwd.lpm.search p.v6 p.vrf p.addr = none →
       exec (.lpmSearch r w) s = .next (s.lpmStatus r 2 0)) ∧
  (∀ (r : Requester) (w : Word) (p : Prefix) (rest : List Prefix) (s : State), s.reachable C14.lpmCmd = true → bitOf w 15 = true →
     s.fwd.lpm.prefixes = p :: rest →
       exec (.lpmNext r w) s = .next ((((s.onLpm (fun l =>
         { l with walks := (r, some p) :: l.walks.filter (fun x => x.1 != r) })).wrArrReq r (C14.lpmAddr 0) p.addrWords).wrReq r C14.lpmNh
         (BitVec.ofNat 32 p.nh)).lpmStatus r 0 0)) ∧
  (∀ (r : Requester) (w : Word) (s : State), s.reachable C14.lpmCmd = true → bitOf w 15 = false →
     s.fwd.lpm.walks.find? (fun x => x.1 == r) = none →
       exec (.lpmNext r w) s = .next (s.lpmStatus r 5 0)) ∧
  (∀ (r : Requester) (s : State), s.reachable C14.lpmCmd = true →
       exec (.lpmWalkClose r) s = .next ((s.onLpm (fun l => { l with walks := l.walks.filter (fun x => x.1 != r) })).lpmStatus r 0 0)) ∧
  (∀ (stage node : Nat) (s : State),
       exec (.lpmRepair stage node none) s = .next ((s.err C14.page 0x0101 (BitVec.ofNat 32 (stage * 65536 + node % 65536))).raise
         C14.page 1)) ∧
  (∀ (stage node i : Nat) (s t : State), t = (s.err C14.page 0x0101 (BitVec.ofNat 32 (stage * 65536 + node % 65536))).raise C14.page 1 →
       exec (.lpmRepair stage node (some i)) s = .next (((t.onLpm (fun l => { l with prefixes := l.prefixes.eraseIdx i })).wr (HDR.errInfo
         C14.page) (BitVec.ofNat 32 i)).raise C14.page 2)) ∧
  (∀ (r : Requester) (i : Fin 4096) (s : State), s.direct r C14.nhCmd = true →
       exec (.nhWrite r i) s = .next (s.onLpm (fun l =>
         { l with nextHops := Sparse.put [0, 0, 0] l.nextHops i.val (s.rdArr (C14.nhData 0) 3) }))) ∧
  (∀ (r : Requester) (i : Fin 4096) (s : State), s.direct r C14.nhCmd = true →
       exec (.nhRead r i) s = .next (s.wrArr (C14.nhData 0) (s.nextHop i.val))) ∧
  (∀ (r : Requester) (v : Fin 4096) (s : State), s.direct r C12.vlanCmd = true →
       exec (.vlanWrite r v) s = .next
         { s with fwd := { s.fwd with vlans := Sparse.put [0, 0, 0] s.fwd.vlans v.val (s.rdArr (C12.vlanData 0) 3) } }) ∧
  (∀ (r : Requester) (v : Fin 4096) (s : State), s.direct r C12.vlanCmd = true →
       exec (.vlanRead r v) s = .next (s.wrArr (C12.vlanData 0) (s.vlan v.val)))

/-- Ethernet reception, the forwarding pipeline, learning and the queues. -/
def Obligations.FramesAndQueues : Prop :=
  (∀ (q : Fin 3) (f : Frame) (b : Bool) (p : Option Nat) (s : State), s.cRuns = true → s.bit (C9.ethCfg q.val) 31 = true →
     s.fld (C9.ethCfg q.val) 29 16 < f.len → 64 ≤ f.len →
       exec (.ethFrameRx q f b p) s = .next (s.bump (C9.rxErr q.val) 31 16 1)) ∧
  (∀ (q : Fin 3) (f : Frame) (p : Option Nat) (s : State), s.cRuns = true → s.bit (C9.ethCfg q.val) 31 = true →
     f.len ≤ s.fld (C9.ethCfg q.val) 29 16 → 64 ≤ f.len →
       exec (.ethFrameRx q f false p) s = .next (s.bump (C9.rxErr q.val) 15 0 1)) ∧
  (∀ (q : Fin 3) (f : Frame) (s : State), s.cRuns = true → s.bit (C9.ethCfg q.val) 31 = true → f.len ≤ s.fld (C9.ethCfg q.val) 29 16 →
     64 ≤ f.len →
       exec (.ethFrameRx q f true none) s = .next ((s.count64 (C9.rxBytesLo q.val) (C9.rxBytesHi q.val) f.len).ingress q.val
         { f with len := f.len - 4 } { sta := 0, bssid := 0, cls := 0, origin := 0 })) ∧
  (∀ (q : Fin 32) (f : Frame) (g : Ingress) (s : State), s.cRuns = true → s.portOn q.val = true → s.ingressVid q.val f g = none →
       exec (.frameIngress q f g) s = .next (s.portDrop q.val)) ∧
  (∀ (x : LearnReq) (rest : List LearnReq) (e : EmSlot) (key : List Word) (s t : State), s.fwd.em.learnq = x :: rest →
     t = s.onEm (fun em => { em with learnq := rest }) → key = l2Key x.fid x.mac → t.emFind key = some e →
     bitOf (e.words.getD 0 0) 16 = false → e.port = x.port → e.sub = x.sub →
       exec .learn s = .next (t.emUpdate key (fun ws => ws.set 0 (putBit (ws.getD 0 0) 18 true)))) ∧
  (∀ (c : Nat) (x : QFrame) (s t : State), s.cRuns = true → s.portOn 3 = true → s.portPaused 3 = false → s.takePort 3 = some (x, c, t) →
       exec (.portDequeue 3) s = .next (t.emit (.egress 3 x.frame))) ∧
  (∀ (q : Nat) (x : QFrame) (s : State), (s.queue q).find? (fun (y : QFrame) => y.pool == .dram) = some x → s.dramTakes = true →
     s.cellsIn .reserve (some (q % 8)) + cellsOf x.frame ≤ s.reserveOf (q % 8) →
       exec (.spillFetch q) s = .next (s.setQueue q ((s.queue q).map (fun (y : QFrame) => if y.num = x.num then
         { y with pool := .reserve } else y)))) ∧
  (∀ (r : Requester) (s : State), s.direct r C15.qmCmd = true →
       exec (.discardSpill r) s = .next s.dropSpilled)

/-- Firmware images, engine commands, faults, caches and mailboxes. -/
def Obligations.EnginesAndImages : Prop :=
  (∀ (r : Requester) (s : State), s.direct r C4.fwCmd = true → s.allHalted = true →
       exec (.fwLoad r) s = .next (s.wr C4.fwStat 1)) ∧
  (∀ (s : State), s.cRuns = true → s.fwState = 1 →
       exec .fwVerifyDone s = .next ((imageFault s.shared s.fwBase 1 6291200 8388608).elim (((s.wr C4.fwStat 2).wr C4.fwVer (Mem.word
         s.shared (s.fwBase + 8))).raise C4.page 17) (fun k => (s.wr C4.fwStat (BitVec.ofNat 32 (3 + k * 16))).raise C4.page 17))) ∧
  (∀ (r : Requester) (s : State), s.direct r C4.fwCmd = true →
       exec (.fwHalt r) s = .next ((List.range 16).foldl (fun u e => u.haltEngine e) s)) ∧
  (∀ (r : Requester) (s : State), s.direct r C4.fwCmd = true → s.fwState = 2 →
       exec (.fwStart r) s = .next ((List.range 16).foldl (fun u e => if u.bit C4.engEn e && u.engState e == engHalted then if e = 0 then
         (u.setEng e engRunning).onEng e (fun x => { x with startup := true }) else u.setEng e engIdle else u) s)) ∧
  (∀ (r : Requester) (e : Fin 16) (s : State), s.direct r C4.fwCmd = true → s.engState e.val = engFault →
       exec (.fwRestart r e) s = .next (s.setEng e.val engIdle)) ∧
  (∀ (e : Fin 16) (code addr : Nat) (s : State), s.engState e.val = engRunning →
       exec (.engineFault e code addr) s = .next (s.engineFault e.val code addr)) ∧
  (∀ (e : Fin 16) (s : State), s.engState e.val = engRunning → s.fld (C4.engWdt e.val) 9 0 ≠ 0 →
     (s.eng e.val).since + s.fld (C4.engWdt e.val) 9 0 * 1000000 ≤ s.mono →
       exec (.engineWdtExpiry e) s = .next (s.draw (fun i t => t.engineFault e.val 4 (Config.freeWord i).toNat))) ∧
  (∀ (e : Fin 16) (dram : Bool) (a len : Nat) (s : State),
       exec (.clean e dram a len) s = .next (s.cleanLines e.val (fun x => x.within dram a len)) ∧ exec (.invalidate e dram a len) s =
         .next (s.dropLines e.val (fun x => x.within dram a len)) ∧ exec (.cleanInvalidate e dram a len) s = .next ((s.cleanLines e.val
         (fun x => x.within dram a len)).dropLines e.val (fun x => x.within dram a len))) ∧
  (∀ (r : Requester) (m : Fin 32) (s : State), s.direct r (C4.mbDoorbell m.val) = true → m.val < 16 → mbSender r m.val = true →
     s.mbFull m.val = false →
       exec (.mbDoorbell r m) s = .next ((s.wr (C4.mbStat m.val) (BitVec.ofNat 32 (1 + (s.fld (C4.mbStat m.val) 15 8 + 1) % 256 * 2 ^
         8))).sourceEvent (0x20 + m.val))) ∧
  (∀ (r : Requester) (m : Fin 32) (s : State), s.direct r (C4.mbRelease m.val) = true → 16 ≤ m.val → mbSender r m.val = false →
     s.mbFull m.val = true →
       exec (.mbRelease r m) s = .next ((s.setBit (C4.mbStat m.val) 0 false).sourceEvent (0x20 + m.val))) ∧
  (∀ (r : Requester) (image : List Byte) (s t : State), t = s.emberWrite image → t.direct r E5.embCmd = true → t.ember.switching = false →
       exec (.embLoad r image) s = .next ((t.setFld E5.embStat 1 0 1).setFld E5.embStat 7 4 0)) ∧
  (∀ (image : List Byte) (s : State), s.powered .e = true →
       (s.emberWrite image).ember.sram = Mem.setBytes s.ember.sram 0 (image.take 262144) ∧ (s.emberWrite image).ember.switching =
         s.ember.switching) ∧
  (∀ (s : State), s.fld E5.embStat 1 0 = 1 →
       exec .embVerifyDone s = .next ((imageFault s.ember.sram 0 2 196352 262144).elim ((s.setFld E5.embStat 1 0 2).raise E5.page 0) (fun
         k => ((s.setFld E5.embStat 1 0 3).setFld E5.embStat 7 4 k).raise E5.page 0))) ∧
  (∀ (r : Requester) (s : State), s.direct r E5.embCmd = true → s.fld E5.embStat 1 0 = 2 →
       exec (.embSwitch r) s = .next { s with ember := { s.ember with switching := true } }) ∧
  (∀ (s : State), s.ember.switching = true →
       exec .embSwitchApply s = .next
         { (s.setBit E5.embStat 8 false).wr E5.embVer (Mem.word s.ember.sram 8) with ember := { s.ember with switching := false } })

/-- Task descriptors, dependence counters, dispatch, preemption and the timers of the Grate. -/
def Obligations.Grate : Prop :=
  (∀ (r : Requester) (i : Fin 4096) (x : Task) (s : State), s.direct r C3.tdCmd = true → (s.task i.val).state = tdFree →
     x = { s.task i.val with words := s.rdArr (C3.tdData 0) 6, gen := nextGen (s.task i.val).gen, early := 0, state := tdWaiting } →
     x.count = 0 →
       exec (.tdWrite r i) s = .next (((s.setTask x).tdDone).toReady i.val 0)) ∧
  (∀ (r : Requester) (i : Fin 4096) (s : State), s.direct r C3.tdCmd = true → (s.task i.val).state ≠ tdFree →
       exec (.tdWrite r i) s = .next (s.tdBusy 1)) ∧
  (∀ (r : Requester) (i : Fin 4096) (x : Task) (s : State), s.direct r C3.tdCmd = true → x = s.task i.val →
       exec (.tdRead r i) s = .next (s.wrArr (C3.tdData 0) (x.words ++ [BitVec.ofNat 32 (x.state + x.gen * 2 ^ 3 + x.early * 2 ^ 12 +
         x.engine * 2 ^ 24)])).tdDone) ∧
  (∀ (r : Requester) (i : Fin 4096) (s : State), s.direct r C3.tdCmd = true → (s.task i.val).state ≠ tdRunning →
     (s.task i.val).state ≠ tdPreempted →
       exec (.tdFree r i) s = .next ((s.onTask i.val (fun y => { y with state := tdFree })).tdDone).grShow) ∧
  (∀ (r : Requester) (i : Fin 4096) (n : Nat) (s : State), s.direct r C3.tdCmd = true → (s.task i.val).state = tdWaiting →
     n = s.fld (C3.tdData 0) 11 0 → n ≠ 0 →
       exec (.setCount r i) s = .next (s.onTask i.val (fun y => y.setCount n)).tdDone) ∧
  (∀ (r : Requester) (i : Fin 4096) (s t : State), s.direct r C3.grDec = true → (s.task i.val).state = tdWaiting →
     (s.task i.val).count ≤ 1 → t = s.onTask i.val (fun x => { x.setCount (x.count - 1) with src := 0x100 + (reqEngine r).getD 0 }) →
       exec (.grDec r i) s = .next (t.toReady i.val (0x100 + (reqEngine r).getD 0))) ∧
  (∀ (e : Fin 16) (i : Fin 4096) (g : Byte) (s t : State), s.direct (.engine e) C3.grDone = true → (s.task i.val).state = tdRunning →
     (s.task i.val).engine = e.val → s.engTask e.val = i.val → (s.task i.val).gen = g.toNat →
     t = (s.task i.val).succs.foldl (fun u k => u.decrement k (0x100 + e.val)) (s.grTrace 0x24 (some e.val) (if (s.task i.val).reload = 0 then s.task i.val else (s.task i.val).setCount ((s.task i.val).reload - ((s.task i.val).early + ((s.task i.val).succs.filter (fun k => k == i.val)).length))) 0) →
       exec (.grDone (.engine e) i g) s = .next ((t.taskReload i.val).onEng e.val (fun x => { x with ending := true }))) ∧
  (∀ (c : Nat) (rest : List Nat) (s : State), s.srcq = c :: rest →
       exec .grateSourceEvent s = .next ({ s with srcq := rest }.sourceDec c)) ∧
  (∀ (k : Fin 8) (s : State), s.cRuns = true → s.fld (C3.grTimer k.val) 19 0 ≠ 0 →
     s.grate.timers.getD k.val 0 + s.fld (C3.grTimer k.val) 19 0 * 1000 ≤ s.mono →
       exec (.grateTimer k) s = .next (({ s with grate := { s.grate with timers := s.grate.timers.set k.val s.mono } }.sourceDec (0x70 +
         k.val)).dmaRequest (0x40 + k.val))) ∧
  (∀ (e : Nat) (x : Task) (gs : List Nat) (s t : State), s.cRuns = true → s.grate.skip = [] → s.candidates ≠ [] →
     s.choose s.candidates = some (x, gs) → (List.range 16).find? (fun n => x.affinity n && s.engState n == engIdle) = some e →
     t = s.creditGroups gs x.group →
       exec .grateDispatch s = .next ({ t with grate := { t.grate with skip := [] } }.runTask e x.idx 0x21)) ∧
  (∀ (e : Fin 16) (i old : Nat) (s t : State), (s.eng e.val).saving = some i → (s.eng e.val).ending = false → old = s.engTask e.val →
     t = (s.onTask old (fun x => { x with state := tdPreempted })).onEng e.val (fun y => { y with held := old :: y.held }) →
       exec (.preemptSaveDone e) s = .next ((t.showHeld e.val).runTask e.val i 0x21)) ∧
  (∀ (e : Fin 16) (s : State), s.engState e.val = engRunning → (s.eng e.val).ending = true → (s.eng e.val).saving = none →
     s.heldBest e.val = none → s.choose (s.candidates.filter (fun (t : Task) => t.affinity e.val)) = none →
       exec (.taskEndResume e) s = .next (((s.setEng e.val engIdle).onEng e.val (fun y =>
         { y with ending := false, startup := false })).setFld (C4.engStat e.val) 27 16 0)) ∧
  (∀ (i : Fin 4096) (x : Task) (s : State), x = s.task i.val → x.state = tdRunning → x.runMax ≠ 0 → s.onEngine x.engine = some i.val →
     (s.eng x.engine).taskFrom + x.runMax * 1000 ≤ s.mono →
       exec (.taskOverrun i) s = .next (((s.raise C3.page 0).err C3.page 0x0103 (BitVec.ofNat 32 i.val)).grTrace 0x26 (some x.engine) x 0))

/-- Commands of the DMA channels, requests, levels, bursts and the end of a descriptor. -/
def Obligations.DmaChannels : Prop :=
  (∀ (r : Requester) (n : Fin 32) (host : List Word) (s t : State), s.direct r (C5.chCmd n.val) = true → s.pstate ≠ 4 →
     (s.ch n.val = chIdle ∨ 5 ≤ s.ch n.val) →
     t = (((s.wr (C5.chStat n.val) 0).wr (C5.chMismatch n.val) 0xFFFFFFFF).onChan n.val (fun _ => DmaChan.fresh)) →
       exec (.chStart r n host) s = .next (t.takeDesc n.val (dmaAddr (putFld (s.rd (C5.chDescLo n.val)) 5 0 0) (s.rd (C5.chDescHi n.val)))
         host)) ∧
  (∀ (r : Requester) (n : Fin 32) (host : List Word) (s : State), s.direct r (C5.chCmd n.val) = true → n.val < 16 → s.pstate = 4 →
       exec (.chStart r n host) s = .next (s.chCmdClass n.val 1)) ∧
  (∀ (r : Requester) (n : Fin 32) (host : List Word) (s : State), s.direct r (C5.chCmd n.val) = true → s.pstate ≠ 4 →
     s.ch n.val ≠ chIdle → s.ch n.val < 5 →
       exec (.chStart r n host) s = .next (s.chCmdState n.val 1)) ∧
  (∀ (n reason : Nat) (x : DmaAddr) (host : List Word) (s t u : State) (w : List Word), t = s.setCur n x → t.descPlace x = none →
     x.space ≠ 0 → (x.space ≠ 2 ∨ s.dm ≠ dmFrozen) → w = t.fetchDesc x host →
     u = (t.onChan n (fun c => { c with desc := w.take 12, pos := 0, tail := false, unread := false })).showResidue n →
     u.descFault n w = some reason → reason ≠ 3 → wbOf w = false →
       s.takeDesc n x host = ((u.chFail n reason).err C5.page 0x0102 (BitVec.ofNat 32 (n * 256 + reason)))) ∧
  (∀ (r : Requester) (n : Fin 32) (s : State), s.direct r (C5.chCmd n.val) = true → n.val < 16 → s.ch n.val = chRunning →
     (s.chan n.val).tail = false →
       exec (.chPause r n) s = .next (s.setCh n.val chPausing)) ∧
  (∀ (r : Requester) (n : Fin 32) (s : State), s.direct r (C5.chCmd n.val) = true → 16 ≤ n.val →
       exec (.chPause r n) s = .next (s.chCmdClass n.val 2) ∧ exec (.chResume r n) s = .next (s.chCmdClass n.val 3) ∧ exec (.chStop r n) s
         = .next (s.chCmdClass n.val 4)) ∧
  (∀ (n : Fin 32) (s : State), s.ch n.val = chPausing →
       exec (.dmaPaused n) s = .next (((s.setCh n.val chPaused).showResidue n.val).raise C5.page 2)) ∧
  (∀ (r : Requester) (n : Fin 32) (s : State), s.direct r (C5.chCmd n.val) = true → n.val < 16 → s.ch n.val = chPaused →
     (s.chan n.val).unread = false →
       exec (.chResume r n) s = .next (((s.setBit (C5.chStat n.val) 12 false).setCh n.val chRunning).pace n.val) ∧ exec (.chStop r n) s =
         .next (s.chAbort n.val 10)) ∧
  (∀ (r : Requester) (n : Fin 32) (s t : State), s.direct r (C5.chCmd n.val) = true → n.val < 16 → s.ch n.val = chPaused →
     (s.chan n.val).unread = true → t = s.setBit (C5.chStat n.val) 12 false →
       exec (.chResume r n) s = .next (t.takeDesc n.val (t.curOf n.val) [])) ∧
  (∀ (r : Requester) (n : Fin 32) (s : State), s.direct r (C5.chCmd n.val) = true → n.val < 16 → s.ch n.val ≠ chPaused →
       exec (.chResume r n) s = .next (s.chCmdState n.val 3) ∧ exec (.chStop r n) s = .next (s.chCmdState n.val 4)) ∧
  (∀ (r : Requester) (n : Fin 32) (s : State), s.direct r (C5.chCmd n.val) = true → 16 ≤ n.val → s.ch n.val = chRunning →
     (s.chan n.val).tail = false → wbOf (s.chan n.val).desc = false →
       exec (.chAbort r n) s = .next ((s.showResidue n.val).chAbort n.val 9)) ∧
  (∀ (r : Requester) (n : Fin 32) (s : State), s.direct r (C5.chCmd n.val) = true → 16 ≤ n.val → 5 ≤ s.ch n.val →
       exec (.chAbort r n) s = .next ((s.setCh n.val chComplete).setBit (C5.chStat n.val) 8 true)) ∧
  (∀ (r : Requester) (n : Fin 32) (s : State), s.direct r (C5.chCmd n.val) = true → n.val < 16 →
       exec (.chAbort r n) s = .next (s.chCmdClass n.val 5)) ∧
  (∀ (host : List Byte) (n : Nat) (s t : State), s.nextChan = some n →
     t = { s with dma := if radioClass n then { s.dma with lastRadio := n } else { s.dma with lastHost := n - 16 } } →
     s.hostSide n = false → ((sidesOf (s.chan n).desc).any (fun x => x.at_.space == 2) = false ∨ s.dm = dmReady) →
       exec (.dmaBurst host) s = .next (t.burst n host)) ∧
  (∀ (host : List Byte) (n : Nat) (s t : State), s.nextChan = some n →
     t = { s with dma := if radioClass n then { s.dma with lastRadio := n } else { s.dma with lastHost := n - 16 } } →
     s.hostSide n = true → s.hostUp = false →
       exec (.dmaBurst host) s = .next ((t.showResidue n).chFail n 6)) ∧
  (∀ (host : List Byte) (n : Nat) (s t : State), s.nextChan = some n →
     t = { s with dma := if radioClass n then { s.dma with lastRadio := n } else { s.dma with lastHost := n - 16 } } →
     s.hostSide n = false → (sidesOf (s.chan n).desc).any (fun x => x.at_.space == 2) = true → s.dm = dmFrozen →
       exec (.dmaBurst host) s = .next (t.chFrozen n)) ∧
  (∀ (host : List Byte) (n : Nat) (s t : State), s.nextChan = some n →
     t = { s with dma := if radioClass n then { s.dma with lastRadio := n } else { s.dma with lastHost := n - 16 } } →
     s.hostSide n = false → (sidesOf (s.chan n).desc).any (fun x => x.at_.space == 2) = true → s.dm ≠ dmFrozen → s.dm ≠ dmReady →
       exec (.dmaBurst host) s = .next ((t.showResidue n).chFail n 8)) ∧
  (∀ (n : Fin 32) (line : Nat) (s : State), line ≠ 0 → s.fld (C5.chPace n.val) 7 0 = line → s.ch n.val ≠ chIdle → s.ch n.val < 5 →
     (s.chan n.val).reqs < 16 → (∀ k < 32, k ≠ n.val → s.fld (C5.chPace k) 7 0 ≠ line) →
       exec (.dmaRequest line) s = .next ((s.onChan n.val (fun x => { x with reqs := x.reqs + 1 })).pace n.val)) ∧
  (∀ (r : Requester) (n : Fin 32) (w : Word) (s : State), s.direct r (C5.chLevelAdj n.val) = true →
       exec (.chLevelAdj r n w) s = .next ((s.wr (C5.chLevel n.val) (BitVec.ofInt 32 (clampI 0 16777215 ((s.level n.val : Int) +
         w.toInt)))).pace n.val)) ∧
  (∀ (n : Fin 32) (s : State), 1 ≤ s.ch n.val → s.ch n.val ≤ 4 → s.hostSide n.val = true →
       exec (.dmaHostError n) s = .next ((s.showResidue n.val).chFail n.val 6)) ∧
  (∀ (n : Fin 32) (host : List Word) (s t : State), s.ch n.val = chRunning → (s.chan n.val).tail = true → (s.chan n.val).last = true →
     wbOf (s.chan n.val).desc = false →
     t = (((s.setFld (C5.chStat n.val) 23 16 (s.fld (C5.chStat n.val) 23 16 + 1)).setCh n.val chComplete).chEnd n.val).sourceEvent n.val →
       exec (.descriptorEnd n host) s = .next (t.onChan n.val (fun y => { y with tail := false, abort := false })))

/-- Contexts, blocks and key slots of the AES engine, and the key slots of the cipher pipes. -/
def Obligations.Ciphers : Prop :=
  (∀ (r : Option Requester) (k : Fin 8) (slot : Fin 16) (prio : Fin 4) (hi : Half) (s u : State),
     r.all (fun q => s.direct q (E6.ctxCmd k.val)) = true → r.isSome = decide (6 ≤ k.val) →
     guardOk (hi ++ BitVec.ofNat 16 (1 + slot.val * 4 + prio.val * 64)) = true → u.ctxState k.val = 0 →
     u.bit (E6.keyStat slot.val) 0 = true → u = s.accept (E6.ctxCmd k.val) (1 + slot.val * 4 + prio.val * 64) →
       exec (.ctxOpen r k slot prio hi) s = .next ((((u.wr (E6.ctxStat k.val) (BitVec.ofNat 32 (1 + u.aesGen slot.val * 2 ^ 16 + prio.val
         * 2 ^ 24 + slot.val * 2 ^ 28))).setAesCtx k.val AesCtx.fresh).aesShow slot.val).oscSync)) ∧
  (∀ (r : Option Requester) (k : Fin 8) (slot : Fin 16) (prio : Fin 4) (hi : Half) (s u : State),
     r.all (fun q => s.direct q (E6.ctxCmd k.val)) = true → r.isSome = decide (6 ≤ k.val) →
     guardOk (hi ++ BitVec.ofNat 16 (1 + slot.val * 4 + prio.val * 64)) = true → u.ctxState k.val = 0 →
     u.bit (E6.keyStat slot.val) 0 = false → u = s.accept (E6.ctxCmd k.val) (1 + slot.val * 4 + prio.val * 64) →
       exec (.ctxOpen r k slot prio hi) s = .next ((u.setFld (E6.ctxStat k.val) 7 4 1).err E6.page 0x0101 (BitVec.ofNat 32 k.val))) ∧
  (∀ (r : Option Requester) (k : Fin 8) (slot : Fin 16) (prio : Fin 4) (hi : Half) (s u : State),
     r.all (fun q => s.direct q (E6.ctxCmd k.val)) = true → r.isSome = decide (6 ≤ k.val) →
     guardOk (hi ++ BitVec.ofNat 16 (1 + slot.val * 4 + prio.val * 64)) = true → u.ctxState k.val ≠ 0 →
     u = s.accept (E6.ctxCmd k.val) (1 + slot.val * 4 + prio.val * 64) →
       exec (.ctxOpen r k slot prio hi) s = .next (u.ctxBusy k.val)) ∧
  (∀ (r : Option Requester) (k : Fin 8) (slot : Fin 16) (prio : Fin 4) (hi : Half) (s : State),
     r.all (fun q => s.direct q (E6.ctxCmd k.val)) = true → r.isSome ≠ decide (6 ≤ k.val) →
       exec (.ctxOpen r k slot prio hi) s = .next (s.err E6.page 0x0100 (BitVec.ofNat 32 k.val)) ∧ exec (.ctxClose r k hi) s = .next
         (s.err E6.page 0x0100 (BitVec.ofNat 32 k.val))) ∧
  (∀ (r : Option Requester) (k : Fin 8) (hi : Half) (s u t : State), r.all (fun q => s.direct q (E6.ctxCmd k.val)) = true →
     r.isSome = decide (6 ≤ k.val) → guardOk (hi ++ BitVec.ofNat 16 (2)) = true → u.ctxState k.val ≠ 0 → u.ctxState k.val ≠ 2 →
     u.aes.hold = none → u = s.accept (E6.ctxCmd k.val) 2 → t = u.setFld (E6.ctxStat k.val) 2 0 0 →
       exec (.ctxClose r k hi) s = .next
         ((({ t with aes := { t.aes with hold := none, run := t.aes.run.map (fun (x : AesRun) => if x.ctx = k.val then { x with live := false } else x) } }.aesShow
         (u.ctxSlot k.val)).oscSync).aesKick)) ∧
  (∀ (r : Option Requester) (k : Fin 8) (hi : Half) (s u : State), r.all (fun q => s.direct q (E6.ctxCmd k.val)) = true →
     r.isSome = decide (6 ≤ k.val) → guardOk (hi ++ BitVec.ofNat 16 (2)) = true → u.ctxState k.val = 0 →
     u = s.accept (E6.ctxCmd k.val) 2 →
       exec (.ctxClose r k hi) s = .next u) ∧
  (∀ (r : Option Requester) (k : Fin 8) (d : Bool) (s t : State), r.all (fun q => s.direct q (E6.ctxGo k.val)) = true →
     r.isSome = decide (6 ≤ k.val) → s.ctxState k.val = 1 → s.aes.hold = none →
     t = ((s.setFld (E6.ctxStat k.val) 2 0 2).setBit (E6.ctxStat k.val) 8 false).setAesCtx k.val { s.aesCtx k.val with order := s.aes.order, decrypt := d } →
       exec (.ctxGo r k d) s = .next ({ t with aes := { t.aes with order := s.aes.order + 1, hold := none } }.aesKick)) ∧
  (∀ (r : Option Requester) (k : Fin 8) (d : Bool) (s : State), r.all (fun q => s.direct q (E6.ctxGo k.val)) = true →
     r.isSome = decide (6 ≤ k.val) → 2 ≤ s.ctxState k.val →
       exec (.ctxGo r k d) s = .next (s.ctxBusy k.val)) ∧
  (∀ (k : Nat) (s t : State), s.aes.run = none → s.aesClock = true → s.aesNext = some k →
     t = (s.setAesCtx k { s.aesCtx k with started := true }).setFld (E6.ctxStat k) 2 0 3 →
       s.aesKick =
         { t with aes := { t.aes with run := some { ctx := k, key := s.boundKey k, input := s.rdArr (E6.ctxIn k 0) 4, decrypt := (s.aesCtx k).decrypt, prio := s.ctxPrio k, live := true }, hold := none } }) ∧
  (∀ (x : AesRun) (s t u : State) (out : List Word), s.aes.run = some x → x.live = true →
     out = (if x.decrypt then Config.aesDecrypt x.key x.input else Config.aesEncrypt x.key x.input) →
     t = { s.count E6.aesBlocks 1 with aes := { s.aes with run := none, hold := none } } →
     u = (((t.wrArr (E6.ctxOut x.ctx 0) ((List.range 4).map (fun i => out.getD i 0))).setFld (E6.ctxStat x.ctx) 2 0 1).setBit (E6.ctxStat x.ctx) 8 true).raise E6.page x.ctx →
       exec .aesBlockDone s = .next
         ({ u with aes := { u.aes with hold := some (x.prio, x.ctx, s.mono + s.fld E6.aesCfg 3 0 * 1000) } }.aesKick)) ∧
  (∀ (x : AesRun) (s t : State), s.aes.run = some x → x.live = false →
     t = { s.count E6.aesBlocks 1 with aes := { s.aes with run := none, hold := none } } →
       exec .aesBlockDone s = .next t.aesKick) ∧
  (∀ (p c til : Nat) (s : State), s.aes.hold = some (p, c, til) → til ≤ s.mono →
       exec .aesHoldExpiry s = .next ({ s with aes := { s.aes with hold := none } }.aesKick)) ∧
  (∀ (r : Option Requester) (slot : Fin 16) (long : Bool) (index : Byte) (hi : Half) (s u : State),
     r.all (fun q => s.direct q E6.keyCmd) = true →
     guardOk (hi ++ BitVec.ofNat 16 (slot.val + 1 * 16 + b2n long * 64 + index.toNat * 256)) = true → index ≠ 0 →
     (u.aesSlot slot.val).retired = none → u.ctxsOf slot.val (u.aesGen slot.val) = [] →
     u = s.accept E6.keyCmd (slot.val + 1 * 16 + b2n long * 64 + index.toNat * 256) →
       exec (.aesKeyInstall r slot long index hi) s = .next (((((u.setAesSlot slot.val
         { key := u.rdArr (E6.keyData 0) 8, retired := none }).wr (E6.keyStat slot.val) (BitVec.ofNat 32 (1 + b2n long * 2 + nextGen
         (u.aesGen slot.val) * 2 ^ 8 + index.toNat * 2 ^ 16))).aesShow slot.val).aesCmdEnd 0))) ∧
  (∀ (r : Option Requester) (slot : Fin 16) (long : Bool) (index : Byte) (hi : Half) (s : State),
     r.all (fun q => s.direct q E6.keyCmd) = true →
     guardOk (hi ++ BitVec.ofNat 16 (slot.val + 1 * 16 + b2n long * 64 + index.toNat * 256)) = true → index = 0 →
       exec (.aesKeyInstall r slot long index hi) s = .next (s.guardRange E6.keyCmd 15 8 0 (s.fld E6.keyCmd 15 8))) ∧
  (∀ (r : Option Requester) (slot : Fin 16) (long : Bool) (index : Byte) (hi : Half) (s u : State),
     r.all (fun q => s.direct q E6.keyCmd) = true →
     guardOk (hi ++ BitVec.ofNat 16 (slot.val + 1 * 16 + b2n long * 64 + index.toNat * 256)) = true → index ≠ 0 →
     (u.aesSlot slot.val).retired.isSome = true → u = s.accept E6.keyCmd (slot.val + 1 * 16 + b2n long * 64 + index.toNat * 256) →
       exec (.aesKeyInstall r slot long index hi) s = .next (u.aesSlotBusy slot.val)) ∧
  (∀ (r : Option Requester) (slot : Fin 16) (long : Bool) (index : Byte) (hi : Half) (s u t : State),
     r.all (fun q => s.direct q E6.keyCmd) = true →
     guardOk (hi ++ BitVec.ofNat 16 (slot.val + 2 * 16 + b2n long * 64 + index.toNat * 256)) = true → index = 0 →
     (u.aesSlot slot.val).retired = none → u.ctxsOf slot.val (u.aesGen slot.val) = [] →
     u = s.accept E6.keyCmd (slot.val + 2 * 16 + b2n long * 64 + index.toNat * 256) →
     t = (u.setAesSlot slot.val { key := [], retired := none }).wr (E6.keyStat slot.val) (BitVec.ofNat 32 (nextGen (u.aesGen slot.val) * 2 ^ 8)) →
       exec (.aesKeyErase r slot long index hi) s = .next
         (({ t with mesh := { t.mesh with txq := t.mesh.txq.map (fun (x : MacTx) => if x.sealed.any (fun (b : Nat × Nat × Nat × Nat) => b.1 == slot.val) then { x with gone := true } else x) } }.aesShow
         slot.val).oscSync.aesCmdEnd 0)) ∧
  (∀ (r : Requester) (slot : Fin 8192) (hi : Half) (s u : State), s.direct r C6.keyCmd = true →
     guardOk (hi ++ BitVec.ofNat 16 (slot.val + 1 * 8192)) = true → slot.val < 4160 →
     u = s.accept C6.keyCmd (bitsOf (hi ++ BitVec.ofNat 16 (slot.val + 1 * 8192)) 15 0) →
       exec (.pipeKeyInstall r slot hi) s = .next ((((u.pipeInstall slot.val).wrArr (C6.keyData 0) (List.replicate 8 0)).wr C6.keyResult
         0x80000000).raise C6.page 0)) ∧
  (∀ (r : Requester) (slot : Fin 8192) (hi : Half) (k : PipeKey) (s u : State), s.direct r C6.keyCmd = true →
     guardOk (hi ++ BitVec.ofNat 16 (slot.val + 2 * 8192)) = true → slot.val < 4160 →
     u = s.accept C6.keyCmd (bitsOf (hi ++ BitVec.ofNat 16 (slot.val + 2 * 8192)) 15 0) →
     k = { u.pipeKey slot.val with valid := false, key := [], gen := nextGen (u.pipeKey slot.val).gen, eraseGen := nextGen (u.pipeKey slot.val).gen, exhausted := false } →
       exec (.pipeKeyErase r slot hi) s = .next (((((u.setPipeKey k).pipeShow k false).wrArr (C6.keyData 0) (List.replicate 8 0)).wr
         C6.keyResult 0x80000000).raise C6.page 0)) ∧
  (∀ (r : Requester) (slot : Fin 8192) (hi : Half) (s u : State), s.direct r C6.keyCmd = true →
     guardOk (hi ++ BitVec.ofNat 16 (slot.val + 3 * 8192)) = true → slot.val < 4160 →
     u = s.accept C6.keyCmd (bitsOf (hi ++ BitVec.ofNat 16 (slot.val + 3 * 8192)) 15 0) →
       exec (.pipeKeyStat r slot hi) s = .next ((((u.pipeShow (u.pipeKey slot.val) true).wrArr (C6.keyData 0) (List.replicate 8 0)).wr
         C6.keyResult 0x80000000).raise C6.page 0)) ∧
  (∀ (r : Requester) (slot : Fin 8192) (hi : Half) (s : State), s.direct r C6.keyCmd = true → 4160 ≤ slot.val →
     guardOk (hi ++ BitVec.ofNat 16 (slot.val + 8192)) = true →
       exec (.pipeKeyInstall r slot hi) s = .next (s.guardRange C6.keyCmd 12 0 slot.val (s.fld C6.keyCmd 12 0)))

/-- The DRAM controller's commands, refresh, accesses, freezes, set points and scrubbing. -/
def Obligations.DramController : Prop :=
  (∀ (r : Requester) (s : State), s.direct r C7.dramCmd = true → (s.dm = dmOff ∨ s.dm = dmFailed) →
       exec (.dramInit r) s = .next ((s.setDm dmInit).setBit C7.dramStat 9 true)) ∧
  (∀ (r : Requester) (s : State), s.direct r C7.dramCmd = true → s.dm ≠ dmOff → s.dm ≠ dmFailed →
       exec (.dramInit r) s = .next (s.dmCmdState 1)) ∧
  (∀ (ch step : Nat) (s : State), s.dm = dmInit →
       exec (.dramInitDone (some (ch, step))) s = .next (((((s.setBit C7.dramStat 9 false).setDm dmFailed).raise C7.page 1).err C7.page
         0x0101 (BitVec.ofNat 32 (ch % 16 + step % 16 * 2 ^ 8))))) ∧
  (∀ (s t : State), s.dm = dmInit → t = s.setBit C7.dramStat 9 false →
       exec (.dramInitDone none) s = .next (((((t.setFld C7.dramStat 5 4 (topRate s.fspMask)).onDdr (fun x =>
         { x with trained := s.fspMask, trainAt := s.mono, trainTemp := sx 8 (s.fld (DC.dieTemp 0x400000) 7 0) })).setDm
         dmReady).showTrained true).raise C7.page 0)) ∧
  (∀ (r : Requester) (rate : Fin 4) (s : State), s.direct r C7.dramCmd = true → s.ddr.target = none → s.dm = dmReady →
     s.ddr.trained.getLsbD rate.val = true →
       exec (.fspChange r rate) s = .next ((s.onDdr (fun x => { x with target := some rate.val })).setBit C7.dramStat 8 true)) ∧
  (∀ (r : Requester) (rate : Fin 4) (s : State), s.direct r C7.dramCmd = true → s.ddr.target = none → s.dm = dmReady →
     s.ddr.trained.getLsbD rate.val = false →
       exec (.fspChange r rate) s = .next (s.err C7.page 0x0103 (BitVec.ofNat 32 rate.val))) ∧
  (∀ (s : State), s.ddr.target.isSome = true → s.dm = dmReady → s.dmTraining = false →
       exec .fspChangeStart s = .next ((s.setDm dmFsp).setBit C7.dramStat 8 false)) ∧
  (∀ (n : Nat) (s : State), s.ddr.target = some n → s.dm = dmFsp →
       exec .fspDone s = .next (((((s.setFld C7.dramStat 5 4 n).onDdr (fun x => { x with target := none })).setDm dmReady).raise C7.page
         4).dmDrain)) ∧
  (∀ (r : Requester) (all : Bool) (s : State), s.direct r C7.dramCmd = true → s.dm = dmReady →
       exec (.retrainNow r all) s = .next (s.onDdr (fun x =>
         { x with trained := (if all then s.fspMask else x.trained) ||| BitVec.twoPow 4 (s.fld C7.dramStat 5 4), trainAt := s.mono, trainTemp := sx 8 (s.fld (DC.dieTemp 0x400000) 7 0) }))) ∧
  (∀ (r : Requester) (all : Bool) (s : State), s.direct r C7.dramCmd = true → s.dm ≠ dmReady →
       exec (.retrainNow r all) s = .next (s.dmCmdState 4)) ∧
  (∀ (s : State), s.dm = dmReady → s.ddr.trainAt + s.fld C7.trainCfg 9 0 * 1000000 ≤ s.mono →
       exec .dramRetrain s = .next (s.onDdr (fun x =>
         { x with trained := x.trained ||| BitVec.twoPow 4 (s.fld C7.dramStat 5 4), trainAt := s.mono, trainTemp := sx 8 (s.fld (DC.dieTemp 0x400000) 7 0) }))) ∧
  (∀ (ch : Fin 4) (bank : Fin 64) (rt : Fin 3) (s : State), s.refreshing = true → ch.val < s.channels → rt.val ≠ 0 →
     s.owedBy (ch.val * 64 + bank.val) < 8 →
       exec (.refreshDue ch bank rt) s = .next (s.setOwed ch.val (ch.val * 64 + bank.val) (s.owedBy (ch.val * 64 + bank.val) + 1))) ∧
  (∀ (ch : Fin 4) (bank : Fin 64) (rt : Fin 3) (s : State), s.refreshing = true → ch.val < s.channels → rt.val = 2 →
     8 ≤ s.owedBy (ch.val * 64 + bank.val) →
       exec (.refreshDue ch bank rt) s = .next (s.count C7.splitCnt 1)) ∧
  (∀ (ch : Fin 4) (bank : Fin 64) (s : State), s.refreshing = true →
       exec (.refreshPayback ch bank) s = .next (s.setOwed ch.val (ch.val * 64 + bank.val) 0)) ∧
  (∀ (ch : Fin 4) (hot : Bool) (s : State), s.refreshing = true → ch.val < s.channels → s.bit (C7.chStat ch.val) 1 ≠ hot →
       exec (.mr4Poll ch hot) s = .next ((s.setBit (C7.chStat ch.val) 1 hot).raise C7.page 5)) ∧
  (∀ (kind : Fin 6) (inst : Fin 32) (addr len : Nat) (write : Option (List Byte)) (untracked : Bool) (ecc : EccFound) (q : DramReq) (s : State),
     q = { since := s.mono, kind := kind.val, inst := inst.val, addr := addr, len := write.elim len List.length, write := write } →
     s.powered .c = true → s.dm = dmReady → addr + q.len ≤ s.usableMb * 1048576 →
       exec (.dramAccess kind inst addr len write untracked ecc) s = .next ((if untracked && write.isSome then s.count C7.untrackedCnt 1
         else s).eccIssue q ecc)) ∧
  (∀ (kind : Fin 6) (inst : Fin 32) (addr len : Nat) (write : Option (List Byte)) (untracked : Bool) (ecc : EccFound) (q : DramReq) (s : State),
     q = { since := s.mono, kind := kind.val, inst := inst.val, addr := addr, len := write.elim len List.length, write := write } →
     s.powered .c = true → s.dm = dmReady → s.usableMb * 1048576 < addr + q.len →
       exec (.dramAccess kind inst addr len write untracked ecc) s = .next (s.accessError q)) ∧
  (∀ (kind : Fin 6) (inst : Fin 32) (addr len : Nat) (write : Option (List Byte)) (untracked : Bool) (ecc : EccFound) (q : DramReq) (s : State),
     q = { since := s.mono, kind := kind.val, inst := inst.val, addr := addr, len := write.elim len List.length, write := write } →
     s.powered .c = true → (s.dm = dmFsp ∨ s.dm = dmFrozen ∧ 3 ≤ kind.val) →
       exec (.dramAccess kind inst addr len write untracked ecc) s = .next (s.onDdr (fun x => { x with held := x.held ++ [q] }))) ∧
  (∀ (q : DramReq) (ecc : EccFound) (s : State), ecc.failed = none → ecc.corrected = [] → s.poisonHit q.addr q.len q.write.isSome = none →
     q.write = none →
       s.eccIssue q ecc = s.emit (.dramData q.kind q.inst (Mem.bytes s.dram q.addr q.len))) ∧
  (∀ (q : DramReq) (ecc : EccFound) (addr : Nat) (lo hi : Word) (s : State), ecc.failed = some (addr, lo, hi) →
       s.eccIssue q ecc = (s.dmFreeze q.kind q.inst addr lo hi ecc.extra).accessError q) ∧
  (∀ (r : Requester) (s : State), s.direct r C7.dramCmd = true → s.dm = dmFrozen → s.ddr.poison.contains s.ddr.failed = false →
     s.ddr.poison.length < 16 →
       exec (.unfreezeResume r) s = .next ((((s.setPoison (s.ddr.poison ++ [s.ddr.failed])).setDm dmReady).raise C7.page 0).dmDrain)) ∧
  (∀ (r : Requester) (s t u : State), s.direct r C7.dramCmd = true → s.dm = dmFrozen →
     t = s.ddr.held.foldl (fun u q => u.accessError q) s → u = (t.onDdr (fun x => { x with held := [], trained := 0 })).setPoison [] →
       exec (.unfreezeReinit r) s = .next ({ u.setDm dmOff with dram := [] }.showTrained false)) ∧
  (∀ (r : Requester) (s : State), s.direct r C7.dramCmd = true → s.dm ≠ dmFrozen →
       exec (.unfreezeResume r) s = .next (s.dmCmdState 3) ∧ exec (.unfreezeReinit r) s = .next (s.dmCmdState 3)) ∧
  (∀ (ecc : EccFound) (s : State), s.dm = dmReady → s.fld C7.scrubCfg 15 0 ≠ 0 →
     s.ddr.scrubAt + s.fld C7.scrubCfg 15 0 * 60000000000 ≤ s.mono → s.ddr.poison = [] → ecc.failed = none →
       exec (.patrolScrub ecc) s = .next (ecc.corrected.foldl (fun t a => t.dmCorrected a) (s.onDdr (fun x =>
         { x with scrubAt := s.mono }))))

/-- The PCI Express port, its resets and holds, the SPI port, the ring ports and the cascade window. -/
def Obligations.HostPortAndSerial : Prop :=
  (∀ (s : State),
       exec .perstDeassert s = .next { s with hport := { s.hport with perst := false } }) ∧
  (∀ (s : State), s.powered .c = true → s.bit C8.hpStat 0 = false →
       exec .perstAssert s = .next { s.hpReset with hport := { s.hport with perst := true } }) ∧
  (∀ (speed : Fin 8) (width : Fin 16) (s : State), s.powered .c = true → s.hport.ready = true → s.hport.perst = false →
     s.bit C8.hpStat 0 = false →
       exec (.pcieLinkUp speed width) s = .next (((s.wr C8.hpStat (BitVec.ofNat 32 (1 + speed.val * 2 + width.val * 16))).raise C8.page
         0).fireAll)) ∧
  (∀ (s : State), s.powered .c = true →
       exec .hotReset s = .next s.hpReset ∧ exec .functionLevelReset s = .next s.hpReset) ∧
  (∀ (s t : State),
     t = { s with msix := { enabled := false, mask := BitVec.allOnes 64, pend := 0 }, tags := s.tags.filter (fun (x : TagCopy) => x.req != Requester.pcie), perReq := s.perReq.filter (fun p => decide (2 ^ 32 ≤ p.1)), regs := s.regs.filter (fun p => decide (p.1 < 0x20000000)) } →
       s.hpReset = (t.setBit C8.hpStat 8 false).dmaHostLost) ∧
  (∀ (s : State), s.powered .c = true → s.bit C8.hpStat 0 = true →
       exec .linkDown s = .next (((((s.wr C8.hpStat 0).count C8.hpLinkdownCnt 1).raise C8.page 1).setBit E9.wakeCause 2 true).hpReset)) ∧
  (∀ (a : Nat) (bar2 write : Bool) (s t : State), s.powered .c = true → s.bit C8.hpStat 0 = true →
     (∀ q, s.ddr.held.find? (s.hostHeld a bar2 write) = some q → q.since + s.fld C8.hpCfg 5 0 * 1000000 ≤ s.mono) →
     t = (((s.onDdr (fun x => { x with held := x.held.eraseP (s.hostHeld a bar2 write) })).count C8.hpAbortCnt 1).raise C8.page 2).err C8.page 0x0101 (BitVec.ofNat 32 (a + b2n bar2 * 2 ^ 31)) →
       exec (.holdAbort a bar2 write) s = .next (if write then t else t.emit (.completerAbort a))) ∧
  (∀ (a : Nat) (write : Bool) (q : DramReq) (rest : List DramReq) (s : State), s.powered .c = true → s.bit C8.hpStat 0 = true →
     s.ddr.held = q :: rest → q.kind = 4 → q.write.isSome = write → 0x8000000 ≤ a → q.addr = s.dramWinAddr a →
     s.mono < q.since + s.fld C8.hpCfg 5 0 * 1000000 →
       exec (.holdAbort a true write) s = .next s) ∧
  (∀ (a : Nat) (ws : List Word) (crc : Half) (s : State), s.spiUp = true → crc16 (spiHeader 0x02 a ws.length ws) = crc.toNat → a % 4 = 0 →
     a % 0x10000 + 4 * ws.length ≤ 0x10000 →
       exec (.spiWrite a ws crc) s = .next ((s.spiWrites a ws).spiEnd 0 [])) ∧
  (∀ (a : Nat) (ws : List Word) (crc : Half) (s : State), s.spiUp = true → crc16 (spiHeader 0x02 a ws.length ws) ≠ crc.toNat →
       exec (.spiWrite a ws crc) s = .next (s.spiEnd 1 [])) ∧
  (∀ (a : Nat) (n : Fin 64) (crc : Half) (ws : List Word) (s t : State), s.spiUp = true →
     crc16 (spiHeader 0x03 a (n.val + 1) []) = crc.toNat → a % 4 = 0 → a % 0x10000 + 4 * (n.val + 1) ≤ 0x10000 →
     s.spiWords a (n.val + 1) = (ws, t) →
       exec (.spiRead 0x03 a n crc) s = .next (t.spiEnd 0 ws)) ∧
  (∀ (op : Byte) (a : Nat) (n : Fin 64) (crc : Half) (s : State), s.spiUp = true → op ≠ 0x03 →
     crc16 (spiHeader op a (n.val + 1) []) = crc.toNat →
       exec (.spiRead op a n crc) s = .next (s.spiEnd 2 [])) ∧
  (∀ (a : Nat) (n : Fin 64) (crc : Half) (complete : Bool) (ws : List Word) (s t : State), s.spiUp = true →
     crc16 (spiHeader 0x0B a (n.val + 1) []) = crc.toNat → a % 4 = 0 → a % 0x10000 + 4 * (n.val + 1) ≤ 0x10000 →
     s.spiWords a (n.val + 1) = (ws, t) →
       exec (.spiReadClr a n crc complete) s = .next ((if complete then t.spiClears a (n.val + 1) else t).spiEnd 0 ws)) ∧
  (∀ (status : Nat) (s t : State),
     t = (if status = 1 then s.bump E9.spiErr 15 0 1 else if status = 2 then s.bump E9.spiErr 31 16 1 else s) →
       s.spiEnd status [] = ((t.wr E9.spiStat (BitVec.ofNat 32 status)).answer []).emit (.spi [BitVec.ofNat 8 status, BitVec.ofNat 8 (255
         - status)])) ∧
  (∀ (q : Fin 3) (stat : Byte) (s : State), s.powered .c = true →
     s.bit (C9.ethStat q.val) 0 = (s.wr (C9.ethStat q.val) (stat.setWidth 32)).bit (C9.ethStat q.val) 0 →
       exec (.ethLinkChange q stat) s = .next (s.wr (C9.ethStat q.val) (stat.setWidth 32))) ∧
  (∀ (q : Fin 3) (stat : Byte) (s : State), s.powered .c = true →
     s.bit (C9.ethStat q.val) 0 ≠ (s.wr (C9.ethStat q.val) (stat.setWidth 32)).bit (C9.ethStat q.val) 0 →
       exec (.ethLinkChange q stat) s = .next ((s.wr (C9.ethStat q.val) (stat.setWidth 32)).raise C9.page (4 + q.val))) ∧
  (∀ (q : Fin 2) (data : Byte) (s t : State), s.powered .c = true → s.bit (C9.sfpI2c q.val) 31 = true →
     t = (s.setBit (C9.sfpI2c q.val) 31 false).setBit (C9.sfpI2c q.val) 30 false →
       exec (.sfpI2cDone q false data) s = .next (if s.bit (C9.sfpI2c q.val) 23 then t.setFld (C9.sfpI2c q.val) 7 0 data.toNat else t)) ∧
  (∀ (q : Fin 2) (data : Byte) (s t : State), s.powered .c = true → s.bit (C9.sfpI2c q.val) 31 = true →
     t = (s.setBit (C9.sfpI2c q.val) 31 false).setBit (C9.sfpI2c q.val) 30 true →
       exec (.sfpI2cDone q true data) s = .next (t.err C9.page 0x0102 (BitVec.ofNat 32 q.val))) ∧
  (∀ (r : Requester) (off p : Nat) (v : Word) (f : CascFound) (s : State), s.straps.master = true → p = s.fld GLB.cascWinPart 1 0 →
     p ≠ 0 → s.powered .c = true → s.reach p = true → (s.rd GLB.cascWinBase).toNat + off < 0x3000000 →
       exec (.cascWindowAccess r off (some v) f) s = .next (s.cascWriteTo p ((s.rd GLB.cascWinBase).toNat + off) v f) ∧ exec
         (.cascWindowAccess r off none (.plain v)) s = .next (s.answer [v])) ∧
  (∀ (r : Requester) (off : Nat) (f : CascFound) (s : State), s.straps.master = false →
       exec (.cascWindowAccess r off none f) s = .next (s.answer [0]))

/-- The bypass holds and their watchdog, and the links of a cascade. -/
def Obligations.BypassAndKorub : Prop :=
  (∀ (r : Requester) (w : Word) (s : State), isHost r = false → s.direct r C9.bypOpen = true →
       exec (.bypOpenWrite r w) s = .next (s.err C9.page 0x0101 (BitVec.ofNat 32 (C9.bypOpen % 0x10000)))) ∧
  (∀ (r : Requester) (w : Word) (s : State), isHost r = false → s.direct r C9.bypKick = true →
       exec (.bypKick r w) s = .next (s.err C9.page 0x0101 (BitVec.ofNat 32 (C9.bypKick % 0x10000)))) ∧
  (∀ (r : Requester) (w : Word) (s : State), isHost r = true → s.direct r C9.bypOpen = true → guardOk w = true → bitsOf w 15 0 < 4 →
       exec (.bypOpenWrite r w) s = .next (s.bypSettle (s.wr C9.bypOpen (guardRead (bitsOf w 15 0))))) ∧
  (∀ (r : Requester) (w : Word) (s : State), isHost r = true → s.direct r C9.bypOpen = true → guardOk w = true → 4 ≤ bitsOf w 15 0 →
       exec (.bypOpenWrite r w) s = .next (s.guardRange C9.bypOpen 15 2 (bitsOf w 15 0 / 4) 0)) ∧
  (∀ (r : Requester) (w : Word) (s t : State), isHost r = true → s.direct r C9.bypKick = true → guardOk w = true →
     (bitsOf w 15 0 = 0x5A ∨ bitsOf w 15 0 = 0xA5) → s.bypDue = false → (s.byp.first = true ∨ s.fld C9.bypKick 15 0 ≠ bitsOf w 15 0) →
     t = { s.wr C9.bypKick (guardRead (bitsOf w 15 0)) with byp := { serviced := some s.mono, period := s.fld C9.bypWdt 8 0 * 1000000, first := false } } →
       exec (.bypKick r w) s = .next (s.bypSettle ((t.setBit C9.bypStat 2 true).setBit C9.bypStat 3 false))) ∧
  (∀ (r : Requester) (w : Word) (s : State), isHost r = true → s.direct r C9.bypKick = true → guardOk w = true →
     (bitsOf w 15 0 = 0x5A ∨ bitsOf w 15 0 = 0xA5) → s.bypDue = false → s.byp.first = false → s.fld C9.bypKick 15 0 = bitsOf w 15 0 →
       exec (.bypKick r w) s = .next ((s.wr C9.bypKick (guardRead (bitsOf w 15 0))).setBit C9.bypStat 3 true)) ∧
  (∀ (r : Requester) (w : Word) (s : State), isHost r = true → s.direct r C9.bypKick = true → guardOk w = true → bitsOf w 15 0 ≠ 0x5A →
     bitsOf w 15 0 ≠ 0xA5 →
       exec (.bypKick r w) s = .next (s.guardRange C9.bypKick 15 0 (bitsOf w 15 0) (s.fld C9.bypKick 15 0))) ∧
  (∀ (s t : State), s.bypDue = true → t = ((s.setBit C9.bypStat 2 false).bypSettleOne 0).bypSettleOne 1 →
       exec .bypassWdtExpiry s = .next (s.healthStep ((({ t with byp := { t.byp with first := true } }.wr C9.bypOpen (guardRead 0)).raise
         C9.page 0).logFree C9.page 8))) ∧
  (∀ (q : Nat) (s : State), s.bit C9.bypStat q = true → s.bypWant q = false →
       s.bypSettleOne q = ((s.setBit C9.bypStat q false).setFld C9.bypStat (6 + 4 * q) (4 + 4 * q) (s.bypCause q)).raise C9.page (1 + q)) ∧
  (∀ (k : Fin 3) (pp pl : Fin 4) (m : Bool) (s : State), s.powered .c = true → (s.kor k.val = korTraining ∨ s.kor k.val = korIsDown) →
     pp.val = s.korPart k.val → pl.val = 2 - k.val → (m && s.straps.master) = false →
       exec (.korUp k pp pl m) s = .next ((s.wr (C10.korStat k.val) (BitVec.ofNat 32 (korIsUp + 2 * 2 ^ 4 + pp.val * 2 ^ 8 + pl.val * 2 ^
         12))).raise C10.page (4 + k.val))) ∧
  (∀ (k : Fin 3) (pp pl : Fin 4) (m : Bool) (s : State), s.powered .c = true → (s.kor k.val = korTraining ∨ s.kor k.val = korIsDown) →
     (pp.val ≠ s.korPart k.val ∨ pl.val ≠ 2 - k.val ∨ (m && s.straps.master) = true) →
       exec (.korUp k pp pl m) s = .next ((s.wr (C10.korStat k.val) (BitVec.ofNat 32 (korMiswired + 2 * 2 ^ 4 + pp.val * 2 ^ 8 + pl.val *
         2 ^ 12))).err C10.page 0x0101 (BitVec.ofNat 32 (k.val * 256 + pp.val * 16 + pl.val)))) ∧
  (∀ (k : Fin 3) (s : State), s.powered .c = true → s.kor k.val = korIsUp → s.bit (C10.korCfg k.val) 0 = true →
       exec (.korDegraded k) s = .next ((s.setFld (C10.korStat k.val) 5 4 1).raise C10.page 8)) ∧
  (∀ (k : Fin 3) (s t u : State), s.powered .c = true → s.kor k.val = korIsUp →
     t = ((s.setFld (C10.korStat k.val) 5 0 korIsDown).bump (C10.korErr k.val) 31 16 1).raise C10.page k.val →
     u = t.groupsLose (s.korPart k.val) none (txnInfo 1 10 0) →
       exec (.korDown k) s = .next (if !s.straps.master && s.korPart k.val == 0 then (u.setBit E9.wakeCause 3 true).masterLost else u)) ∧
  (∀ (k : Fin 3) (s : State), s.powered .c = true → s.kor k.val = korIsUp → s.bit (C10.korCfg k.val) 0 = false →
       exec (.korDegraded k) s = exec (.korDown k) s) ∧
  (∀ (k : Fin 3) (m : TimeMeas) (s t u : State), s.cRuns = true → s.straps.master = false → s.kor k.val = korIsUp → s.korPart k.val = 0 →
     m.locked = true → t = s.wr (C10.korTimeNs k.val) (satI32 (s.measuredOffset 12 m)) →
     u = t.measure 12 (s.measuredOffset 12 m) m.gmRank m.steps true m.arb m.utc →
       exec (.korubTimeExchange k m false) s = .next u)

/-- Failsafe levels, the host-loss watchdog, PWM periods and the lamp actions. -/
def Obligations.LampOutputs : Prop :=
  (∀ (r : Requester) (o : Fin 6) (w : Word) (s : State), s.direct r (E7.failsafe o.val) = true → guardOk w = true →
     levelOk o.val (bitsOf w 15 0) = true →
       exec (.failsafeWrite r o w) s = .next (((s.wr (E7.failsafe o.val) (BitVec.ofNat 32 (bitsOf w 15 0))).setLampOut o.val
         { s.lampOut o.val with storing := true }).setBit E7.lampStat 24 true)) ∧
  (∀ (r : Requester) (o : Fin 6) (w : Word) (s : State), s.direct r (E7.failsafe o.val) = true → guardOk w = true →
     levelOk o.val (bitsOf w 15 0) = false →
       exec (.failsafeWrite r o w) s = .next (s.guardRange (E7.failsafe o.val) 15 0 (bitsOf w 15 0) (s.fld (E7.failsafe o.val) 15 0))) ∧
  (∀ (o : Fin 6) (s t : State), (s.lampOut o.val).storing = true → s.supplyWarn .e = false →
     t = s.setLampOut o.val { s.lampOut o.val with storing := false, stored := s.fld (E7.failsafe o.val) 15 0 } →
       exec (.failsafeStoreDone o) s = .next ((t.setBit E7.lampStat 24 (t.lamp.outs.any LampOut.storing)).raise E7.page 7)) ∧
  (∀ (e : Fin 16) (w : Word) (s : State), s.direct (.engine e) E7.lampKick = true →
       exec (.lampKick (.engine e) w) s = .next (s.err E7.page 0x0101 (BitVec.ofNat 32 (E7.lampKick % 0x10000)))) ∧
  (∀ (r : Requester) (w : Word) (s t : State), (∀ e, r ≠ .engine e) → s.direct r E7.lampKick = true → guardOk w = true →
     t = s.wr E7.lampKick (BitVec.ofNat 32 (bitsOf w 15 0)) →
       exec (.lampKick r w) s = .next ({ t with lamp := { t.lamp with kick := if s.hostWdtCounts then some s.mono else none } }.fsClear 2)) ∧
  (∀ (k : Nat) (s : State), s.lamp.kick = some k → s.hostWdtCounts = true → k + s.fld E7.hostWdt 11 0 * 1000000000 ≤ s.mono →
       exec .hostWdtExpiry s = .next (({ s with lamp := { s.lamp with kick := none } }.raise E7.page 2).fsBegin 2)) ∧
  (∀ (n : Fin 4) (s u : State), s.lampOn (n.val + 2) = true → s.pwmNew n.val = true → u = s.pwmMark n.val →
     (u.lampOut (n.val + 2)).change = some false ∨ (u.lampOut (n.val + 2)).change = some true ∧ u.fadeSteps (n.val + 2) = 0 →
       exec (.pwmBoundary n) s = .next (((u.setLampOut (n.val + 2) { u.lampOut (n.val + 2) with change := none, fade := none }).wr
         (E7.outNow (n.val + 2)) (BitVec.ofNat 32 ((u.lampOut (n.val + 2)).level.getD 0))).setBit E7.lampStat (16 + (n.val + 2))
         false).oscSync) ∧
  (∀ (n : Fin 4) (s u : State), s.lampOn (n.val + 2) = true → s.pwmNew n.val = true → u = s.pwmMark n.val →
     (u.lampOut (n.val + 2)).change = some true → u.fadeSteps (n.val + 2) ≠ 0 →
       exec (.pwmBoundary n) s = .next ((u.setLampOut (n.val + 2)
         { u.lampOut (n.val + 2) with change := none, fade := some { start := u.fld (E7.outNow (n.val + 2)) 15 0, goal := (u.lampOut (n.val + 2)).level.getD 0, steps := u.fadeSteps (n.val + 2), done := 0 } }).setBit
         E7.lampStat (16 + (n.val + 2)) true).oscSync) ∧
  (∀ (n : Fin 4) (f : Fade) (s u t : State), s.lampOn (n.val + 2) = true → s.pwmNew n.val = true → u = s.pwmMark n.val →
     (u.lampOut (n.val + 2)).change = none → (u.lampOut (n.val + 2)).fade = some f → f.done + 1 < f.steps →
     t = { u.wr (E7.outNow (n.val + 2)) (BitVec.ofNat 32 (u.fadeLevel { f with done := f.done + 1 })) with fresh := u.fresh + 1 } →
       exec (.pwmBoundary n) s = .next (t.setLampOut (n.val + 2)
         { t.lampOut (n.val + 2) with fade := some { f with done := f.done + 1 } }).oscSync) ∧
  (∀ (n : Fin 4) (s : State), s.lampOn (n.val + 2) = true → s.pwmNew n.val = false →
       exec (.pwmBoundary n) s = .next s) ∧
  (∀ (i : Fin 8) (a : PendAct) (s t : State), s.pendAct (.lamp i) = some a → s.actDue a = true → s.bit (slotStat (.lamp i)) 28 = false →
     s.actWarned a = false → bitOf a.desc 0 = false → s.fsActive = false →
     s.applyLevel (bitsOf a.desc 6 4) (bitsOf a.extra 15 0) = some t →
       exec (.lampActLevel i) s = .next (((t.endAct (.lamp i) stDone 0 false (!s.locked) false).daliLevelStart (bitsOf a.desc 6
         4)).daliNext (bitsOf a.desc 6 4))) ∧
  (∀ (i : Fin 8) (a : PendAct) (s : State), s.pendAct (.lamp i) = some a → s.actDue a = true → s.bit (slotStat (.lamp i)) 28 = false →
     s.actWarned a = false → bitOf a.desc 0 = false → s.fsActive = true →
       exec (.lampActLevel i) s = .next ((((s.fsDiscard (bitsOf a.desc 6 4)).actAtT (.lamp i) lampPerform).daliLevelStart (bitsOf a.desc 6
         4)).daliNext (bitsOf a.desc 6 4))) ∧
  (∀ (i : Fin 8) (a : PendAct) (o : Nat) (s t u v : State), s.pendAct (.lamp i) = some a → s.actDue a = true →
     s.bit (slotStat (.lamp i)) 28 = false → s.actWarned a = false → bitOf a.desc 0 = true → s.fsActive = false → o = bitsOf a.desc 6 4 →
     t = s.setLampOut o { s.lampOut o with level := none, fs := false } →
     (u = if s.lampOn o then t.setDali o { t.dali o with waiting := some (s.sceneFrame o (bitsOf a.desc 11 8), none) } else t) →
     (v = if (s.lampOut o).fs then s.healthStep (u.showFs.raise E7.page 1) else u) →
       exec (.lampActScene i) s = .next (((v.endAct (.lamp i) stDone 0 false (!s.locked) false).daliLevelStart o).daliNext o)) ∧
  (∀ (o v : Nat) (s : State), s.fsActive = true →
       s.levelOrDiscard o v = s.err E7.page 0x0100 (BitVec.ofNat 32 o))

/-- The DALI channels and their queues, and the event log and trace ring. -/
def Obligations.DaliAndLogs : Prop :=
  (∀ (c : Fin 2) (delayed : Bool) (f : Nat) (v : Option Nat) (s t : State), (s.dali c.val).waiting = some (f, v) →
     (s.dali c.val).bus = .idle → s.busDown c.val = false → s.lampOn c.val = true →
     t = ((s.setDali c.val { s.dali c.val with waiting := none, bus := .level f }).wr (E7.outNow c.val) (BitVec.ofNat 32 (v.getD 0xFFFF))).emit (.dali c.val f false) →
     (t.dali c.val).waiting = none →
       exec (.daliLevelFrame c delayed) s = .next (if delayed then t.bump (E7.daliCnt c.val) 31 16 1 else t)) ∧
  (∀ (c : Fin 2) (f : Nat) (s : State), (s.dali c.val).bus = .level f →
       exec (.daliCollision c) s = .next ((s.bump (E7.daliCnt c.val) 15 0 1).setDali c.val
         { s.dali c.val with bus := .idle, waiting := some ((s.dali c.val).waiting.getD (f, (s.lampOut c.val).level)) })) ∧
  (∀ (c : Fin 2) (f : DaliFrame) (s : State), (s.dali c.val).bus = .queued f → f.collisions + 1 < 10 →
       exec (.daliCollision c) s = .next (((s.bump (E7.daliCnt c.val) 15 0 1).setDali c.val
         { s.dali c.val with bus := .idle, queue := { f with collisions := f.collisions + 1 } :: (s.dali c.val).queue }).daliNext c.val)) ∧
  (∀ (c : Fin 2) (f : DaliFrame) (s : State), (s.dali c.val).bus = .queued f → 10 ≤ f.collisions + 1 →
       exec (.daliCollision c) s = .next ((((s.bump (E7.daliCnt c.val) 15 0 1).daliResult c.val 3 0).err E7.page 0x0103 (BitVec.ofNat 32
         c.val)).daliNext c.val)) ∧
  (∀ (c : Fin 2) (ans : DaliAnswer) (f : Nat) (s : State), (s.dali c.val).bus = .level f →
       exec (.daliFrameDone c ans) s = .next ((s.setDali c.val { s.dali c.val with bus := .idle }).daliNext c.val)) ∧
  (∀ (c : Fin 2) (delayed : Bool) (s : State), (s.dali c.val).waiting = none →
       exec (.daliLevelFrame c delayed) s = .next (s.daliNext c.val)) ∧
  (∀ (c : Fin 2) (ans : DaliAnswer) (f : DaliFrame) (s t : State), (s.dali c.val).bus = .queued f → f.answer = false →
     (t = if f.twice then s.emit (.dali c.val f.frame f.long) else s) →
       exec (.daliFrameDone c ans) s = .next ((t.daliResult c.val 0 0).daliNext c.val)) ∧
  (∀ (c : Fin 2) (b : Byte) (f : DaliFrame) (s t : State), (s.dali c.val).bus = .queued f → f.answer = true →
     (t = if f.twice then s.emit (.dali c.val f.frame f.long) else s) →
       exec (.daliFrameDone c (.byte b)) s = .next ((t.daliResult c.val 1 b.toNat).daliNext c.val) ∧ exec (.daliFrameDone c .none) s =
         .next ((t.daliResult c.val 2 0).daliNext c.val) ∧ exec (.daliFrameDone c .framing) s = .next ((t.daliResult c.val 4 0).daliNext
         c.val)) ∧
  (∀ (r : Requester) (c : Fin 2) (w : Word) (s : State), s.direct r (E7.dqPush c.val) = true → (s.dali c.val).queue.length < 32 →
       exec (.dqPush r c w) s = .next ((s.setDali c.val
         { s.dali c.val with queue := (s.dali c.val).queue ++ [DaliFrame.mk (bitsOf w 23 0) (bitOf w 24) (bitOf w 25) (bitOf w 26) 0] }).daliNext
         c.val)) ∧
  (∀ (r : Requester) (c : Fin 2) (w : Word) (s : State), s.direct r (E7.dqPush c.val) = true → 32 ≤ (s.dali c.val).queue.length →
       exec (.dqPush r c w) s = .next (s.err E7.page 0x0102 (BitVec.ofNat 32 c.val))) ∧
  (∀ (r : Requester) (c : Fin 2) (w : Word) (s : State), s.direct r (E7.dqFlush c.val) = true → (s.dali c.val).queue ≠ [] →
       exec (.dqFlush r c w) s = .next ((s.setDali c.val
         { s.dali c.val with queue := [], results := (s.dali c.val).results ++ (s.dali c.val).queue.map (fun _ => BitVec.ofNat 32 (2 ^ 31 + 5 * 2 ^ 8)) }).raise
         E7.page 3)) ∧
  (∀ (r : Requester) (c : Fin 2) (w : Word) (s : State), s.direct r (E7.dqFlush c.val) = true → (s.dali c.val).queue = [] →
       exec (.dqFlush r c w) s = .next (s.setDali c.val { s.dali c.val with queue := [], results := (s.dali c.val).results })) ∧
  (∀ (r : Requester) (c : Fin 2) (w : Word) (l : List Word) (s : State), s.reachable (E7.dqRes c.val) = true →
     (s.dali c.val).results = w :: l →
       exec (.dqResRead r c) s = .next (((s.setDali c.val { s.dali c.val with results := l }).answer [w]).daliNext c.val)) ∧
  (∀ (r : Requester) (c : Fin 2) (s : State), s.reachable (E7.dqRes c.val) = true → (s.dali c.val).results = [] →
       exec (.dqResRead r c) s = .next (s.answer [0])) ∧
  (∀ (c : Fin 2) (s : State),
       exec (.busDown c) s = .next ((s.setBit E7.lampStat (8 + c.val) true).raise E7.page 4) ∧ exec (.busUp c) s = .next ((((s.setBit
         E7.lampStat (8 + c.val) false).raise E7.page 5).daliLevelStart c.val).daliNext c.val)) ∧
  (∀ (r : Requester) (w : Word) (e : EvRec) (s t : State), s.direct r C11.evtRdIdx = true →
     t = s.wr C11.evtRdIdx (BitVec.ofNat 32 (bitsOf w 11 0)) → s.logs.slot (bitsOf w 11 0) = some e →
       exec (.evtRdIdx r w) s = .next (t.wrArr (C11.evtRd 0) e.words)) ∧
  (∀ (r : Requester) (w : Word) (s : State), s.direct r C11.evtClr = true → bitOf w 0 = true →
       exec (.evtClr r w) s = .next { s.wr C11.evtOverflow 0 with logs := { s.logs with events := [], head := 0 } }) ∧
  (∀ (r : Requester) (w : Word) (s : State), s.direct r C11.evtClr = true → bitOf w 0 = false →
       exec (.evtClr r w) s = .next s) ∧
  (∀ (w : List Word) (rest : List (List Word)) (s t : State), s.logs.intake = w :: rest → s.tracing = true → s.dramReady = true →
     t = { s with logs := { s.logs with intake := rest } } →
       exec .traceIntake s = .next (t.ringPut w)) ∧
  (∀ (w : List Word) (s t : State), (s.bit C11.traceCfg 1 && s.fld C11.traceHead 24 0 + 1 == s.fld C11.traceTail 24 0) = false →
     s.fld C11.traceHead 24 0 + 1 < s.ringSize →
     t = { s with dram := Mem.setWords s.dram (s.fld C11.traceBase 13 0 * 1048576 + s.fld C11.traceHead 24 0 * 32) w } →
       s.ringPut w = t.wr C11.traceHead (BitVec.ofNat 32 (s.fld C11.traceHead 24 0 + 1))) ∧
  (∀ (w : List Word) (rest : List (List Word)) (s t : State), s.logs.intake = w :: rest → s.tracing = true → s.dramReady = false →
     t = { s with logs := { s.logs with intake := rest } } →
       exec .traceIntake s = .next t.traceLost)

/-- The state after reset is in canonical form (the form of the memories is the model's own, log 4). -/
def Obligations.ResetIsCanonical : Prop :=
      State.reset.canon = true

/-- Every step from a canonical state leads to a canonical state (the form of the memories is the model's own, log 4). -/
def Obligations.StepKeepsCanonical : Prop :=
  ∀ (s t : State), s.canon = true → step s = .next t →
      t.canon = true

/-- No command of any row lets time pass, touches the queue, or changes the part or its straps; that a command takes no time, and that an idle step is a nanosecond, is the model's choice (log 5). -/
def Obligations.CommandsLeaveTimeAndQueue : Prop :=
  ∀ (c : Instr) (s t : State), s.canon = true → exec c s = .next t →
      t.mono = s.mono ∧ t.pending = s.pending ∧ t.part = s.part ∧ t.straps = s.straps

/-- An SPI WRITE that passes its checks is the REGISTER_WRITEs of its words in ascending order. -/
def Obligations.SerialWriteIsWrites : Prop :=
  ∀ (ws : List Word) (a : Nat) (crc : Half) (s t : State), s.spiUp = true → crc16 (spiHeader 0x02 a ws.length ws) = crc.toNat →
    a % 4 = 0 → a % 0x10000 + 4 * ws.length ≤ 0x10000 → a + 4 * ws.length ≤ 0x3000000 →
    runs (ws.mapIdx (fun i (w : Word) => Instr.registerWrite .spi (a + 4 * i) w 0xF)) s t →
      exec (.spiWrite a ws crc) s = .next (t.spiEnd 0 [])

/-- DRAM_CFG takes a write only in OFF and FAILED. -/
def Obligations.DramCfgLocked : Prop :=
  (∀ (r : Requester) (w : Word) (s : State), s.direct r C7.dramCfg = true → s.dm ≠ dmOff → s.dm ≠ dmFailed →
       exec (.registerWrite r C7.dramCfg w 0xF) s = .next (s.err C7.page 0x100 w) ∧ (s.err C7.page 0x100 w).rd C7.dramCfg = s.rd
         C7.dramCfg ∧ (s.err C7.page 0x100 w).fld (HDR.errCode C7.page) 15 0 = 0x100 ∧ (s.err C7.page 0x100 w).rd (HDR.errInfo C7.page) =
         w) ∧
  (∀ (r : Requester) (w : Word) (s : State), s.takes r C7.dramCfg w w = true → (s.dm = dmOff ∨ s.dm = dmFailed) →
       exec (.registerWrite r C7.dramCfg w 0xF) s = .next (s.wr C7.dramCfg w))

/-- Only the host writes BYP_OPEN and BYP_KICK. -/
def Obligations.BypRequester : Prop :=
  (∀ (r : Requester) (w : Word) (s : State), isHost r = false → s.reachable C9.bypOpen = true → s.pathOk r C9.bypOpen = true →
       gives (.bypOpenWrite r w) s (fun t => t.byp = s.byp ∧ t.rd C9.bypOpen = s.rd C9.bypOpen ∧ t.rd C9.bypKick = s.rd C9.bypKick ∧ t.rd
         C9.bypStat = s.rd C9.bypStat ∧ t.fld (HDR.errCode C9.page) 15 0 = 0x101 ∧ t.rd (HDR.errInfo C9.page) = 0x100)) ∧
  (∀ (r : Requester) (w : Word) (s : State), isHost r = false → s.reachable C9.bypKick = true → s.pathOk r C9.bypKick = true →
       gives (.bypKick r w) s (fun t => t.byp = s.byp ∧ t.rd C9.bypOpen = s.rd C9.bypOpen ∧ t.rd C9.bypKick = s.rd C9.bypKick ∧ t.rd
         C9.bypStat = s.rd C9.bypStat ∧ t.fld (HDR.errCode C9.page) 15 0 = 0x101 ∧ t.rd (HDR.errInfo C9.page) = 0x104)) ∧
  (∀ (r : Requester) (w : Word) (s : State), isHost r = true → s.direct r C9.bypOpen = true → guardOk w = true → bitsOf w 15 0 < 4 →
       exec (.bypOpenWrite r w) s = .next (s.bypSettle (s.wr C9.bypOpen (guardRead (bitsOf w 15 0))))) ∧
  (∀ (r : Requester) (w : Word) (s t : State), isHost r = true → s.direct r C9.bypKick = true → guardOk w = true →
     (bitsOf w 15 0 = 0x5A ∨ bitsOf w 15 0 = 0xA5) → s.bypDue = false → (s.byp.first = true ∨ s.fld C9.bypKick 15 0 ≠ bitsOf w 15 0) →
     t = { s.wr C9.bypKick (guardRead (bitsOf w 15 0)) with byp := { serviced := some s.mono, period := s.fld C9.bypWdt 8 0 * 1000000, first := false } } →
       exec (.bypKick r w) s = .next (s.bypSettle ((t.setBit C9.bypStat 2 true).setBit C9.bypStat 3 false)))

/-- The board signals: TXEN, RXEN, PAEN, BAND, CPLREV and VRAMP of a chain, SG_XPA_EN and SG_TRSW, bypass holds, SFPq_TXDIS, GPIO and PWM outputs. -/
def Obligations.FrontEndSignals : Prop :=
  (∀ (s : State) (n c : Nat), s.powered (dieN n) = false →
       s.feTxen n c = false ∧ s.fePaen n c = false ∧ s.feRxen n c = false ∧ s.feVramp n c = none ∧ s.feBand n = false ∧ s.feCplrev n c =
         false) ∧
  (∀ (s : State) (n c : Nat),
       (s.feTxen n c = true → s.feRxen n c = false) ∧ (s.fePaen n c = true → s.feTxen n c = true)) ∧
  (∀ (s : State) (n c : Nat), s.roleN n = .backhaul →
       s.feBand n = false ∧ s.feCplrev n c = false) ∧
  (∀ (n c : Nat) (t : PartTx) (s : State), s.roleN n = .access → s.powered (dieN n) = true → (s.part? (s.leadOf n)).tx = some t →
     (s.part? (s.leadOf n)).last = none → t.muted = [] → t.sends n c = true →
       s.feTxen n c = (decide (t.start ≤ s.mono + s.feRampNs n c + s.feLeadNs (s.leadOf n)) && decide (s.mono < t.stop + s.feRampNs n c +
         100)) ∧ s.fePaen n c = (decide (t.start ≤ s.mono + s.feRampNs n c) && decide (s.mono < t.stop + s.feRampNs n c))) ∧
  (∀ (n c : Nat) (t : PartTx) (s : State), s.roleN n = .access → s.powered (dieN n) = true → (s.part? (s.leadOf n)).tx = some t →
     (s.part? (s.leadOf n)).last = none → t.muted = [] → t.sends n c = true → s.fePaen n c = true →
       s.feVramp n c = some (min (s.feRampNs n c) (min (s.mono + s.feRampNs n c - t.start) (t.stop + s.feRampNs n c - s.mono)))) ∧
  (∀ (n c : Nat) (t : PartTx) (s : State), s.roleN n = .access → s.powered (dieN n) = true → (s.part? (s.leadOf n)).tx = some t →
     t.sends n c = true →
       s.feCplrev n c = (decide (20 ≤ t.us) && decide (t.start + t.us * 500 ≤ s.mono) && decide (s.mono < t.stop))) ∧
  (∀ (n c : Nat) (t : PartTx) (s : State), s.roleN n = .access → s.powered (dieN n) = true → (s.part? (s.leadOf n)).tx = some t →
     (s.part? (s.leadOf n)).last = none → t.muted = [] → t.sends n c = false →
       s.feTxen n c = false ∧ s.fePaen n c = false ∧ s.feVramp n c = none ∧ s.feCplrev n c = false) ∧
  (∀ (s : State) (q : Nat), s.powered .c = false →
       s.bypHold q = false ∧ s.sfpTxdis q = true) ∧
  (∀ (s : State) (q : Nat), s.powered .c = true →
       s.bypHold q = s.bit C9.bypStat q ∧ s.sfpTxdis q = (!s.bit (C9.ethCfg q) 31 || s.bit (C9.sfpCtrl q) 0)) ∧
  (∀ (s : State) (n : Nat), s.powered .e = true →
       (s.bit E10.gpioDir n = true → s.gpioDrive n = some (s.bit E10.gpioOut n)) ∧ (s.bit E10.gpioDir n = false → s.gpioDrive n = none)) ∧
  (∀ (s : State) (n : Nat), s.bit E7.lampCfg (n + 2) = false →
       s.pwmLevel n = s.pwmIdle n) ∧
  (∀ (s : State) (n f t : Nat), s.bit E7.lampCfg (n + 2) = true → f = s.fld (E7.outCfgPwm n) 15 0 → 0 < f → f ≤ 40000 →
     t = (List.range 64).foldl (fun a k => a + s.pwmActive n k) 0 →
       65535 * f * t ≤ 64 * (s.fld (E7.outNow (n + 2)) 15 0 + 1) * 40000000 ∧ 64 * s.fld (E7.outNow (n + 2)) 15 0 * 40000000 ≤ 65535 * f *
         t + 64 * 40000000) ∧
  (∀ (s : State), s.sgXpaEn = true →
       s.sgTrsw = true)
end

