-- ==== Sys2Proof/Laws/Bits.lean ====
section
/-!
SUPPORT. Fields of register words: what a field or a bit reads after a field or a bit was replaced.
-/
namespace Sys2Proof.Machine

theorem bitsOf_lt (w : Word) (hi lo : Nat) : bitsOf w hi lo < 2 ^ (hi + 1 - lo) := Nat.mod_lt _ (Nat.two_pow_pos _)

/-- A number in three parts: above, in and below a field. -/
theorem split_field (w hi lo : Nat) (h : lo ≤ hi) :
    w = w / 2 ^ (hi + 1) * 2 ^ (hi + 1) + w / 2 ^ lo % 2 ^ (hi + 1 - lo) * 2 ^ lo + w % 2 ^ lo := by
  have e : 2 ^ (hi + 1) = 2 ^ lo * 2 ^ (hi + 1 - lo) := by rw [← Nat.pow_add]; congr 1; omega
  have h1 := Nat.div_add_mod w (2 ^ lo)
  have h2 := Nat.div_add_mod (w / 2 ^ lo) (2 ^ (hi + 1 - lo))
  rw [Nat.div_div_eq_div_mul, ← e] at h2
  calc w = 2 ^ lo * (w / 2 ^ lo) + w % 2 ^ lo := h1.symm
    _ = 2 ^ lo * (2 ^ (hi + 1 - lo) * (w / 2 ^ (hi + 1)) + w / 2 ^ lo % 2 ^ (hi + 1 - lo)) + w % 2 ^ lo := by rw [h2]
    _ = _ := by rw [Nat.mul_add, ← Nat.mul_assoc, ← e]; simp [Nat.mul_comm]

/-- What a replaced field makes of a word, in three parts. -/
theorem putFld_toNat (w : Word) (hi lo v : Nat) (h : lo ≤ hi) (h32 : hi < 32) :
    (putFld w hi lo v).toNat
      = w.toNat / 2 ^ (hi + 1) * 2 ^ (hi + 1) + v % 2 ^ (hi + 1 - lo) * 2 ^ lo + w.toNat % 2 ^ lo := by
  have hw := split_field w.toNat hi lo h
  have hlt : w.toNat < 2 ^ 32 := w.isLt
  have e : 2 ^ (hi + 1) = 2 ^ (hi + 1 - lo) * 2 ^ lo := by rw [← Nat.pow_add]; congr 1; omega
  have hv : v % 2 ^ (hi + 1 - lo) * 2 ^ lo + w.toNat % 2 ^ lo < 2 ^ (hi + 1) := by
    have h1 : v % 2 ^ (hi + 1 - lo) + 1 ≤ 2 ^ (hi + 1 - lo) := Nat.mod_lt _ (Nat.two_pow_pos _)
    have h2 : w.toNat % 2 ^ lo < 2 ^ lo := Nat.mod_lt _ (Nat.two_pow_pos _)
    calc _ < v % 2 ^ (hi + 1 - lo) * 2 ^ lo + 2 ^ lo := by omega
      _ = (v % 2 ^ (hi + 1 - lo) + 1) * 2 ^ lo := by rw [Nat.add_mul, Nat.one_mul]
      _ ≤ 2 ^ (hi + 1 - lo) * 2 ^ lo := Nat.mul_le_mul_right _ h1
      _ = 2 ^ (hi + 1) := e.symm
  have hq : w.toNat / 2 ^ (hi + 1) * 2 ^ (hi + 1) + 2 ^ (hi + 1) ≤ 2 ^ 32 := by
    have e32 : 2 ^ 32 = 2 ^ (31 - hi) * 2 ^ (hi + 1) := by rw [← Nat.pow_add]; congr 1; omega
    have h3 : w.toNat / 2 ^ (hi + 1) < 2 ^ (31 - hi) := by
      rw [Nat.div_lt_iff_lt_mul (Nat.two_pow_pos _), ← e32]; exact hlt
    calc _ = (w.toNat / 2 ^ (hi + 1) + 1) * 2 ^ (hi + 1) := by rw [Nat.add_mul, Nat.one_mul]
      _ ≤ 2 ^ (31 - hi) * 2 ^ (hi + 1) := Nat.mul_le_mul_right _ h3
      _ = 2 ^ 32 := e32.symm
  unfold putFld bitsOf
  rw [BitVec.toNat_ofNat, Nat.mod_eq_of_lt (by omega)]
  omega

theorem bitsOf_putFld (w : Word) (hi lo v : Nat) (h : lo ≤ hi) (h32 : hi < 32) :
    bitsOf (putFld w hi lo v) hi lo = v % 2 ^ (hi + 1 - lo) := by
  have e : 2 ^ (hi + 1) = 2 ^ (hi + 1 - lo) * 2 ^ lo := by rw [← Nat.pow_add]; congr 1; omega
  have h2 : w.toNat % 2 ^ lo < 2 ^ lo := Nat.mod_lt _ (Nat.two_pow_pos _)
  unfold bitsOf
  rw [putFld_toNat w hi lo v h h32, e, ← Nat.mul_assoc, ← Nat.add_mul, Nat.add_comm, Nat.add_mul_div_right _ _ (Nat.two_pow_pos _),
    Nat.div_eq_of_lt h2, Nat.zero_add, Nat.mul_add_mod_self_right, Nat.mod_mod]

/-- A field above the one replaced reads as before. -/
theorem bitsOf_putFld_above (w : Word) (hi lo v hi2 lo2 : Nat) (h : lo ≤ hi) (h32 : hi < 32) (ha : hi < lo2) :
    bitsOf (putFld w hi lo v) hi2 lo2 = bitsOf w hi2 lo2 := by
  have e : 2 ^ (hi + 1) = 2 ^ (hi + 1 - lo) * 2 ^ lo := by rw [← Nat.pow_add]; congr 1; omega
  have hv : v % 2 ^ (hi + 1 - lo) * 2 ^ lo + w.toNat % 2 ^ lo < 2 ^ (hi + 1) := by
    have h1 : v % 2 ^ (hi + 1 - lo) + 1 ≤ 2 ^ (hi + 1 - lo) := Nat.mod_lt _ (Nat.two_pow_pos _)
    have h2 : w.toNat % 2 ^ lo < 2 ^ lo := Nat.mod_lt _ (Nat.two_pow_pos _)
    calc _ < v % 2 ^ (hi + 1 - lo) * 2 ^ lo + 2 ^ lo := by omega
      _ = (v % 2 ^ (hi + 1 - lo) + 1) * 2 ^ lo := by rw [Nat.add_mul, Nat.one_mul]
      _ ≤ 2 ^ (hi + 1 - lo) * 2 ^ lo := Nat.mul_le_mul_right _ h1
      _ = 2 ^ (hi + 1) := e.symm
  have e2 : 2 ^ lo2 = 2 ^ (hi + 1) * 2 ^ (lo2 - (hi + 1)) := by rw [← Nat.pow_add]; congr 1; omega
  unfold bitsOf
  rw [putFld_toNat w hi lo v h h32, e2, ← Nat.div_div_eq_div_mul, ← Nat.div_div_eq_div_mul, Nat.add_assoc, Nat.add_comm,
    Nat.add_mul_div_right _ _ (Nat.two_pow_pos _), Nat.div_eq_of_lt hv, Nat.zero_add]

/-- A field below the one replaced reads as before. -/
theorem bitsOf_putFld_below (w : Word) (hi lo v hi2 lo2 : Nat) (h : lo ≤ hi) (h32 : hi < 32) (hb : hi2 < lo) (hl : lo2 ≤ hi2) :
    bitsOf (putFld w hi lo v) hi2 lo2 = bitsOf w hi2 lo2 := by
  have key : ∀ x y : Nat, x % 2 ^ lo = y % 2 ^ lo → x / 2 ^ lo2 % 2 ^ (hi2 + 1 - lo2) = y / 2 ^ lo2 % 2 ^ (hi2 + 1 - lo2) := by
    intro x y hxy
    have f : ∀ z : Nat, z / 2 ^ lo2 % 2 ^ (hi2 + 1 - lo2) = z % 2 ^ lo % 2 ^ (hi2 + 1) / 2 ^ lo2 := by
      intro z
      rw [Nat.mod_mod_of_dvd _ (Nat.pow_dvd_pow 2 (by omega : hi2 + 1 ≤ lo)),
        show 2 ^ (hi2 + 1) = 2 ^ lo2 * 2 ^ (hi2 + 1 - lo2) by rw [← Nat.pow_add]; congr 1; omega, Nat.mod_mul_right_div_self]
    rw [f x, f y, hxy]
  unfold bitsOf
  apply key
  have e : 2 ^ (hi + 1) = 2 ^ (hi + 1 - lo) * 2 ^ lo := by rw [← Nat.pow_add]; congr 1; omega
  rw [putFld_toNat w hi lo v h h32, e, ← Nat.mul_assoc, ← Nat.add_mul, Nat.mul_add_mod_self_right, Nat.mod_mod]

theorem bitOf_eq (w : Word) (n : Nat) : bitOf w n = (bitsOf w n n == 1) := by simp [bitOf, bitsOf]

theorem bitOf_putBit (w : Word) (n : Nat) (b : Bool) (h : n < 32) : bitOf (putBit w n b) n = b := by
  rw [bitOf_eq, putBit, bitsOf_putFld _ _ _ _ (Nat.le_refl _) h]
  cases b <;> simp

theorem bitOf_putFld_other (w : Word) (hi lo v n : Nat) (h : lo ≤ hi) (h32 : hi < 32) (hn : n < lo ∨ hi < n) :
    bitOf (putFld w hi lo v) n = bitOf w n := by
  rw [bitOf_eq, bitOf_eq]
  rcases hn with hn | hn
  · rw [bitsOf_putFld_below _ _ _ _ _ _ h h32 hn (Nat.le_refl _)]
  · rw [bitsOf_putFld_above _ _ _ _ _ _ h h32 hn]

theorem bitOf_putBit_other (w : Word) (m n : Nat) (b : Bool) (h : m < 32) (hn : n ≠ m) : bitOf (putBit w m b) n = bitOf w n :=
  bitOf_putFld_other _ _ _ _ _ (Nat.le_refl _) h (by omega)

/-- A bit as a number's bit, and as a bit vector's. -/
theorem bitOf_getLsbD (w : Word) (n : Nat) : bitOf w n = w.getLsbD n := by
  rw [bitOf, BitVec.getLsbD, Nat.testBit_eq_decide_div_mod_eq]
  rfl

theorem bitOf_or (v w : Word) (n : Nat) : bitOf (v ||| w) n = (bitOf v n || bitOf w n) := by
  rw [bitOf_getLsbD, bitOf_getLsbD, bitOf_getLsbD, BitVec.getLsbD_or]

/-- The low half of a word made of two halves. -/
theorem bitsOf_append (hi lo : Half) : bitsOf (hi ++ lo) 15 0 = lo.toNat := by
  have h := lo.isLt
  simp only [bitsOf, BitVec.toNat_append, Nat.pow_zero, Nat.div_one]
  have e : hi.toNat <<< 16 ||| lo.toNat = hi.toNat * 2 ^ 16 + lo.toNat := by
    rw [Nat.shiftLeft_eq, Nat.mul_comm, Nat.two_pow_add_eq_or_of_lt h]
  rw [e]; omega

end Sys2Proof.Machine
end

