-- ==== Sys2Proof/Laws/Sparse.lean ====
section
/-!
SUPPORT. Sparse lists: a read after a write, and the canonical form that every write keeps; then the same for byte memories.
-/
namespace Sys2Proof.Machine

variable {α : Type}

@[simp] theorem Sparse.find_nil (k : Nat) : Sparse.find ([] : List (Nat × α)) k = none := rfl

theorem Sparse.find_erase (l : List (Nat × α)) (k j : Nat) :
    Sparse.find (Sparse.erase l k) j = if j = k then none else Sparse.find l j := by
  induction l with
  | nil => simp [Sparse.erase]
  | cons p t ih =>
    obtain ⟨a, v⟩ := p
    simp only [Sparse.erase] at ih
    by_cases hak : a = k
    · subst hak
      by_cases hj : j = a
      · subst hj; simpa [Sparse.erase] using ih
      · have : ¬ a = j := fun h => hj h.symm
        simpa [Sparse.erase, Sparse.find, this, hj] using ih
    · simp only [Sparse.erase, List.filter_cons, bne_iff_ne, ne_eq, hak, not_false_eq_true, if_true, Sparse.find]
      by_cases hj : a = j
      · subst hj; simp [hak]
      · simp only [hj, if_false]; exact ih

theorem Sparse.find_insert (l : List (Nat × α)) (k j : Nat) (v : α) :
    Sparse.find (Sparse.insert l k v) j = if j = k then some v else Sparse.find l j := by
  induction l with
  | nil =>
    by_cases h : j = k
    · subst h; simp [Sparse.insert, Sparse.find]
    · simp [Sparse.insert, Sparse.find, h, Ne.symm h]
  | cons p t ih =>
    obtain ⟨a, w⟩ := p
    unfold Sparse.insert
    split
    · subst_vars
      by_cases h : a = j
      · subst h; simp [Sparse.find]
      · simp [Sparse.find, h, Ne.symm h]
    · split
      · by_cases h : k = j
        · subst h; simp [Sparse.find]
        · simp [Sparse.find, h, Ne.symm h]
      · simp only [Sparse.find, ih]
        by_cases h : a = j
        · subst h; simp [*]
        · simp [h]

/-- A read after a write. -/
theorem Sparse.find_put [DecidableEq α] (d v : α) (l : List (Nat × α)) (k j : Nat) :
    (Sparse.find (Sparse.put d l k v) j).getD d = if j = k then v else (Sparse.find l j).getD d := by
  unfold Sparse.put
  split
  · rw [Sparse.find_erase]; split <;> simp_all
  · rw [Sparse.find_insert]; split <;> simp

/-! ## The canonical form -/

/-- Every listed address lies above `a`. -/
def Sparse.above (a : Nat) (l : List (Nat × α)) : Prop := ∀ p ∈ l, a < p.1

theorem Sparse.sorted_cons (a : Nat) (v : α) (l : List (Nat × α)) :
    Sparse.sorted ((a, v) :: l) = true ↔ Sparse.above a l ∧ Sparse.sorted l = true := by
  induction l generalizing a v with
  | nil => simp [Sparse.sorted, Sparse.above]
  | cons p t ih =>
    obtain ⟨b, w⟩ := p
    simp only [Sparse.sorted, Bool.and_eq_true, decide_eq_true_eq]
    constructor
    · rintro ⟨hab, hs⟩
      refine ⟨?_, hs⟩
      intro q hq
      rcases List.mem_cons.mp hq with rfl | hq
      · exact hab
      · exact Nat.lt_trans hab (((ih b w).mp hs).1 q hq)
    · rintro ⟨ha, hs⟩
      exact ⟨ha _ (List.mem_cons_self ..), hs⟩

theorem Sparse.filter_sorted (l : List (Nat × α)) (f : Nat × α → Bool) (h : Sparse.sorted l = true) :
    Sparse.sorted (l.filter f) = true := by
  induction l with
  | nil => rfl
  | cons p t ih =>
    obtain ⟨a, v⟩ := p
    obtain ⟨ha, ht⟩ := (Sparse.sorted_cons a v t).mp h
    rw [List.filter_cons]
    split
    · exact (Sparse.sorted_cons a v _).mpr ⟨fun q hq => ha q (List.mem_filter.mp hq).1, ih ht⟩
    · exact ih ht

theorem Sparse.mem_insert (l : List (Nat × α)) (k : Nat) (v : α) (p : Nat × α) (h : p ∈ Sparse.insert l k v) :
    p = (k, v) ∨ p ∈ l := by
  induction l with
  | nil => simpa [Sparse.insert] using h
  | cons q t ih =>
    obtain ⟨a, w⟩ := q
    unfold Sparse.insert at h
    split at h
    · rcases List.mem_cons.mp h with h | h
      · exact .inl h
      · exact .inr (List.mem_cons_of_mem _ h)
    · split at h
      · rcases List.mem_cons.mp h with h | h
        · exact .inl h
        · exact .inr h
      · rcases List.mem_cons.mp h with h | h
        · exact .inr (h ▸ List.mem_cons_self ..)
        · rcases ih h with h | h
          · exact .inl h
          · exact .inr (List.mem_cons_of_mem _ h)

theorem Sparse.insert_sorted (l : List (Nat × α)) (k : Nat) (v : α) (h : Sparse.sorted l = true) :
    Sparse.sorted (Sparse.insert l k v) = true := by
  induction l with
  | nil => rfl
  | cons p t ih =>
    obtain ⟨a, w⟩ := p
    obtain ⟨ha, ht⟩ := (Sparse.sorted_cons a w t).mp h
    unfold Sparse.insert
    split
    · subst_vars
      exact (Sparse.sorted_cons _ v t).mpr ⟨ha, ht⟩
    · split
      · rename_i hk
        refine (Sparse.sorted_cons k v _).mpr ⟨?_, h⟩
        intro q hq
        rcases List.mem_cons.mp hq with rfl | hq
        · exact hk
        · exact Nat.lt_trans hk (ha q hq)
      · rename_i hne hk
        refine (Sparse.sorted_cons a w _).mpr ⟨?_, ih ht⟩
        intro q hq
        rcases Sparse.mem_insert t k v q hq with rfl | hq
        · show a < k; omega
        · exact ha q hq

/-- A write keeps addresses rising. -/
theorem Sparse.put_sorted [DecidableEq α] (d v : α) (l : List (Nat × α)) (k : Nat) (h : Sparse.sorted l = true) :
    Sparse.sorted (Sparse.put d l k v) = true := by
  unfold Sparse.put
  split
  · exact Sparse.filter_sorted l _ h
  · exact Sparse.insert_sorted l k v h

/-- A write lists no entry that equals the default. -/
theorem Sparse.put_noDefault [DecidableEq α] (d v : α) (l : List (Nat × α)) (k : Nat) (h : ∀ p ∈ l, p.2 ≠ d) :
    ∀ p ∈ Sparse.put d l k v, p.2 ≠ d := by
  intro p hp
  unfold Sparse.put at hp
  split at hp
  · exact h p (List.mem_filter.mp hp).1
  · rename_i hv
    rcases Sparse.mem_insert l k v p hp with rfl | hp
    · exact hv
    · exact h p hp

/-! ## Byte memories -/

theorem Mem.wf_iff (m : Mem) : Mem.wf m = true ↔ Sparse.sorted m = true ∧ ∀ p ∈ m, p.2 ≠ 0 := by
  simp [Mem.wf, List.all_eq_true]

theorem Mem.wf_nil : Mem.wf [] = true := rfl

/-- The byte written is read back, and every other byte reads as before. -/
theorem Mem.byte_setByte (m : Mem) (a c : Nat) (b : Byte) : (m.setByte a b).byte c = if c = a then b else m.byte c := by
  simp only [Mem.byte, Mem.setByte]
  exact Sparse.find_put 0 b m a c

theorem Mem.wf_setByte (m : Mem) (a : Nat) (b : Byte) (h : Mem.wf m = true) : Mem.wf (m.setByte a b) = true := by
  rw [Mem.wf_iff] at h ⊢
  exact ⟨Sparse.put_sorted 0 b m a h.1, Sparse.put_noDefault 0 b m a h.2⟩

theorem Mem.wf_setBytes (m : Mem) (a : Nat) (bs : List Byte) (h : Mem.wf m = true) : Mem.wf (m.setBytes a bs) = true := by
  induction bs generalizing m a with
  | nil => exact h
  | cons b t ih => exact ih _ _ (Mem.wf_setByte m a b h)

theorem Mem.wf_setWord (m : Mem) (a : Nat) (w : Word) (h : Mem.wf m = true) : Mem.wf (m.setWord a w) = true :=
  Mem.wf_setBytes m a _ h

theorem Mem.wf_setWords (m : Mem) (a : Nat) (ws : List Word) (h : Mem.wf m = true) : Mem.wf (m.setWords a ws) = true :=
  Mem.wf_setBytes m a _ h

theorem Mem.wf_filter (m : Mem) (f : Nat × Byte → Bool) (h : Mem.wf m = true) : Mem.wf (m.filter f) = true := by
  rw [Mem.wf_iff] at h ⊢
  exact ⟨Sparse.filter_sorted m f h.1, fun p hp => h.2 p (List.mem_filter.mp hp).1⟩

/-- Bytes written leave every byte outside them as it was. -/
theorem Mem.byte_setBytes_outside (m : Mem) (a c : Nat) (bs : List Byte) (h : c < a ∨ a + bs.length ≤ c) :
    (m.setBytes a bs).byte c = m.byte c := by
  induction bs generalizing m a with
  | nil => rfl
  | cons b t ih =>
    have h2 : c < a + 1 ∨ a + 1 + t.length ≤ c := by simp only [List.length_cons] at h; omega
    have h3 : c ≠ a := by simp only [List.length_cons] at h; omega
    show ((m.setByte a b).setBytes (a + 1) t).byte c = _
    rw [ih _ _ h2, Mem.byte_setByte, if_neg h3]

/-- Bytes written are read back. -/
theorem Mem.byte_setBytes (m : Mem) (a : Nat) (bs : List Byte) (k : Nat) (h : k < bs.length) :
    (m.setBytes a bs).byte (a + k) = bs[k] := by
  induction bs generalizing m a k with
  | nil => simp at h
  | cons b t ih =>
    show ((m.setByte a b).setBytes (a + 1) t).byte (a + k) = _
    cases k with
    | zero =>
      rw [Mem.byte_setBytes_outside _ _ _ _ (.inl (by omega))]
      simp [Mem.byte_setByte]
    | succ j =>
      have := ih (m.setByte a b) (a + 1) j (by simpa using h)
      simpa [Nat.add_assoc, Nat.add_comm 1 j] using this

end Sys2Proof.Machine
end

