-- ==== Sys2Proof/Laws/Kept.lean ====
section
/-!
SUPPORT. What every operation and every command keeps: the order of the register overlay, the canonical form of every memory, and the
part, its straps, the queue and the elapsed time. `_kept` lemmas are of operations, `_keeps` lemmas of the meanings of commands, and
`_eq` lemmas of operations that answer a state with something else.
-/
namespace Sys2Proof.Machine

structure State.Kept (κ : Part × Straps × List Instr × Nat) (s : State) : Prop where
  id : (s.part, s.straps, s.pending, s.mono) = κ
  regs : Sparse.sorted s.regs = true
  shared : Mem.wf s.shared = true
  dram : Mem.wf s.dram = true
  esram : Mem.wf s.esram = true
  ember : Mem.wf s.ember.sram = true
  radioMem : ∀ m ∈ s.radioMem, Mem.wf m = true
  engines : ∀ e ∈ s.engines, Mem.wf e.sram = true

variable {κ : Part × Straps × List Instr × Nat}

theorem Kept.upd {s : State} {x_resp x_outbox x_fresh x_tags x_txu x_logs x_msix x_time x_power x_actq x_lamp x_sub x_mesh x_acc x_qm
    x_fwd x_sched x_bh x_xbl x_grate x_ember x_dma x_aes x_ddr x_hport x_byp x_srcq x_pipeKeys x_pipeLog x_perReq} (h : s.Kept κ) (he :
    x_ember.sram = s.ember.sram) : (State.mk s.part s.straps s.pending x_resp x_outbox x_fresh s.mono s.regs x_tags x_txu x_logs x_msix
    x_time x_power x_actq x_lamp x_sub x_mesh x_acc x_qm x_fwd x_sched x_bh x_xbl s.engines x_grate x_ember s.shared x_dma s.radioMem
    x_aes x_ddr x_hport x_byp x_srcq x_pipeKeys x_pipeLog x_perReq s.dram s.esram).Kept κ :=
  ⟨h.id, h.regs, h.shared, h.dram, h.esram, he ▸ h.ember, h.radioMem, h.engines⟩

theorem Kept.upd_iff (s : State) {x_resp x_outbox x_fresh x_tags x_txu x_logs x_msix x_time x_power x_actq x_lamp x_sub x_mesh x_acc x_qm
    x_fwd x_sched x_bh x_xbl x_grate x_dma x_aes x_ddr x_hport x_byp x_srcq x_pipeKeys x_pipeLog x_perReq} : (State.mk s.part s.straps
    s.pending x_resp x_outbox x_fresh s.mono s.regs x_tags x_txu x_logs x_msix x_time x_power x_actq x_lamp x_sub x_mesh x_acc x_qm x_fwd
    x_sched x_bh x_xbl s.engines x_grate s.ember s.shared x_dma s.radioMem x_aes x_ddr x_hport x_byp x_srcq x_pipeKeys x_pipeLog x_perReq
    s.dram s.esram).Kept κ ↔ s.Kept κ :=
  ⟨fun h => ⟨h.id, h.regs, h.shared, h.dram, h.esram, h.ember, h.radioMem, h.engines⟩, fun h => ⟨h.id, h.regs, h.shared, h.dram, h.esram,
      h.ember, h.radioMem, h.engines⟩⟩

theorem Kept.updRegs {s : State} {x_resp x_outbox x_fresh x_tags x_txu x_logs x_msix x_time x_power x_actq x_lamp x_sub x_mesh x_acc x_qm
    x_fwd x_sched x_bh x_xbl x_grate x_ember x_dma x_aes x_ddr x_hport x_byp x_srcq x_pipeKeys x_pipeLog x_perReq} {r} (hr : Sparse.sorted
    r = true) (h : s.Kept κ) (he : x_ember.sram = s.ember.sram) : (State.mk s.part s.straps s.pending x_resp x_outbox x_fresh s.mono r
    x_tags x_txu x_logs x_msix x_time x_power x_actq x_lamp x_sub x_mesh x_acc x_qm x_fwd x_sched x_bh x_xbl s.engines x_grate x_ember
    s.shared x_dma s.radioMem x_aes x_ddr x_hport x_byp x_srcq x_pipeKeys x_pipeLog x_perReq s.dram s.esram).Kept κ :=
  ⟨h.id, hr, h.shared, h.dram, h.esram, he ▸ h.ember, h.radioMem, h.engines⟩

theorem Kept.updShared {s : State} {x_resp x_outbox x_fresh x_tags x_txu x_logs x_msix x_time x_power x_actq x_lamp x_sub x_mesh x_acc
    x_qm x_fwd x_sched x_bh x_xbl x_grate x_ember x_dma x_aes x_ddr x_hport x_byp x_srcq x_pipeKeys x_pipeLog x_perReq} {r} (hr : Mem.wf r
    = true) (h : s.Kept κ) (he : x_ember.sram = s.ember.sram) : (State.mk s.part s.straps s.pending x_resp x_outbox x_fresh s.mono s.regs
    x_tags x_txu x_logs x_msix x_time x_power x_actq x_lamp x_sub x_mesh x_acc x_qm x_fwd x_sched x_bh x_xbl s.engines x_grate x_ember r
    x_dma s.radioMem x_aes x_ddr x_hport x_byp x_srcq x_pipeKeys x_pipeLog x_perReq s.dram s.esram).Kept κ :=
  ⟨h.id, h.regs, hr, h.dram, h.esram, he ▸ h.ember, h.radioMem, h.engines⟩

theorem Kept.updDram {s : State} {x_resp x_outbox x_fresh x_tags x_txu x_logs x_msix x_time x_power x_actq x_lamp x_sub x_mesh x_acc x_qm
    x_fwd x_sched x_bh x_xbl x_grate x_ember x_dma x_aes x_ddr x_hport x_byp x_srcq x_pipeKeys x_pipeLog x_perReq} {r} (hr : Mem.wf r =
    true) (h : s.Kept κ) (he : x_ember.sram = s.ember.sram) : (State.mk s.part s.straps s.pending x_resp x_outbox x_fresh s.mono s.regs
    x_tags x_txu x_logs x_msix x_time x_power x_actq x_lamp x_sub x_mesh x_acc x_qm x_fwd x_sched x_bh x_xbl s.engines x_grate x_ember
    s.shared x_dma s.radioMem x_aes x_ddr x_hport x_byp x_srcq x_pipeKeys x_pipeLog x_perReq r s.esram).Kept κ :=
  ⟨h.id, h.regs, h.shared, hr, h.esram, he ▸ h.ember, h.radioMem, h.engines⟩

theorem Kept.updEsram {s : State} {x_resp x_outbox x_fresh x_tags x_txu x_logs x_msix x_time x_power x_actq x_lamp x_sub x_mesh x_acc x_qm
    x_fwd x_sched x_bh x_xbl x_grate x_ember x_dma x_aes x_ddr x_hport x_byp x_srcq x_pipeKeys x_pipeLog x_perReq} {r} (hr : Mem.wf r =
    true) (h : s.Kept κ) (he : x_ember.sram = s.ember.sram) : (State.mk s.part s.straps s.pending x_resp x_outbox x_fresh s.mono s.regs
    x_tags x_txu x_logs x_msix x_time x_power x_actq x_lamp x_sub x_mesh x_acc x_qm x_fwd x_sched x_bh x_xbl s.engines x_grate x_ember
    s.shared x_dma s.radioMem x_aes x_ddr x_hport x_byp x_srcq x_pipeKeys x_pipeLog x_perReq s.dram r).Kept κ :=
  ⟨h.id, h.regs, h.shared, h.dram, hr, he ▸ h.ember, h.radioMem, h.engines⟩

theorem Kept.updRadio {s : State} {x_resp x_outbox x_fresh x_tags x_txu x_logs x_msix x_time x_power x_actq x_lamp x_sub x_mesh x_acc x_qm
    x_fwd x_sched x_bh x_xbl x_grate x_ember x_dma x_aes x_ddr x_hport x_byp x_srcq x_pipeKeys x_pipeLog x_perReq} {r} (hr : ∀ m ∈ r,
    Mem.wf m = true) (h : s.Kept κ) (he : x_ember.sram = s.ember.sram) : (State.mk s.part s.straps s.pending x_resp x_outbox x_fresh
    s.mono s.regs x_tags x_txu x_logs x_msix x_time x_power x_actq x_lamp x_sub x_mesh x_acc x_qm x_fwd x_sched x_bh x_xbl s.engines
    x_grate x_ember s.shared x_dma r x_aes x_ddr x_hport x_byp x_srcq x_pipeKeys x_pipeLog x_perReq s.dram s.esram).Kept κ :=
  ⟨h.id, h.regs, h.shared, h.dram, h.esram, he ▸ h.ember, hr, h.engines⟩

theorem Kept.updEng {s : State} {x_resp x_outbox x_fresh x_tags x_txu x_logs x_msix x_time x_power x_actq x_lamp x_sub x_mesh x_acc x_qm
    x_fwd x_sched x_bh x_xbl x_grate x_ember x_dma x_aes x_ddr x_hport x_byp x_srcq x_pipeKeys x_pipeLog x_perReq} {r} (hr : ∀ e ∈ r,
    Mem.wf e.sram = true) (h : s.Kept κ) (he : x_ember.sram = s.ember.sram) : (State.mk s.part s.straps s.pending x_resp x_outbox x_fresh
    s.mono s.regs x_tags x_txu x_logs x_msix x_time x_power x_actq x_lamp x_sub x_mesh x_acc x_qm x_fwd x_sched x_bh x_xbl r x_grate
    x_ember s.shared x_dma s.radioMem x_aes x_ddr x_hport x_byp x_srcq x_pipeKeys x_pipeLog x_perReq s.dram s.esram).Kept κ :=
  ⟨h.id, h.regs, h.shared, h.dram, h.esram, he ▸ h.ember, h.radioMem, hr⟩

structure OutKept (κ : Part × Straps × List Instr × Nat) (o : Host.Outcome State Fault Refusal) : Prop where
  next : ∀ t, o = .next t → t.Kept κ

theorem Kept.next {s : State} (h : s.Kept κ) : OutKept κ (.next s) := ⟨fun t e => by cases e; exact h⟩

theorem Kept.fault {x : Fault} : OutKept κ (.fault x) := ⟨fun t e => by cases e⟩

theorem Kept.ite {c : Prop} [Decidable c] {s t : State} (h1 : s.Kept κ) (h2 : t.Kept κ) : (if c then s else t).Kept κ := by split <;>
    assumption

theorem Kept.iteO {c : Prop} [Decidable c] {s t : Host.Outcome State Fault Refusal} (h1 : OutKept κ s) (h2 : OutKept κ t) : OutKept κ (if
    c then s else t) := by split <;> assumption

theorem Kept.foldl {α} {f : State → α → State} {l : List α} {s : State} (h : s.Kept κ) (hf : ∀ t x, t.Kept κ → (f t x).Kept κ) : (l.foldl
    f s).Kept κ := by
  induction l generalizing s with
  | nil => exact h
  | cons a t ih => exact ih (hf _ _ h)

theorem Mem.wf_foldl {α} {f : Mem → α → Mem} {l : List α} {m : Mem} (h : Mem.wf m = true) (hf : ∀ t x, Mem.wf t = true → Mem.wf (f t x) =
    true) : Mem.wf (l.foldl f m) = true := by
  induction l generalizing m with
  | nil => exact h
  | cons a t ih => exact ih (hf _ _ h)

theorem Kept.setShared {s : State} {m : Mem} (hr : Mem.wf m = true) (h : s.Kept κ) : State.Kept κ { s with shared := m } :=
  ⟨h.id, h.regs, hr, h.dram, h.esram, h.ember, h.radioMem, h.engines⟩

theorem Kept.setDram {s : State} {m : Mem} (hr : Mem.wf m = true) (h : s.Kept κ) : State.Kept κ { s with dram := m } :=
  ⟨h.id, h.regs, h.shared, hr, h.esram, h.ember, h.radioMem, h.engines⟩

theorem Kept.setEsram {s : State} {m : Mem} (hr : Mem.wf m = true) (h : s.Kept κ) : State.Kept κ { s with esram := m } :=
  ⟨h.id, h.regs, h.shared, h.dram, hr, h.ember, h.radioMem, h.engines⟩

theorem Kept.setRadioMem {s : State} {m : List Mem} (hr : ∀ x ∈ m, Mem.wf x = true) (h : s.Kept κ) : State.Kept κ { s with radioMem := m }
    :=
  ⟨h.id, h.regs, h.shared, h.dram, h.esram, h.ember, hr, h.engines⟩

end Sys2Proof.Machine
end

