-- ==== Sys2Proof/Laws/KeptOps.lean ====
section
/-!
SUPPORT. What the operations and meanings of Machine/Ops.lean keep (see Kept.lean).
-/
namespace Sys2Proof.Machine

variable {κ : Part × Straps × List Instr × Nat}

theorem State.wr_kept (s : State) (a : Nat) (v : Word) (h : s.Kept κ) : (State.wr s a v).Kept κ :=
  Kept.updRegs (Sparse.put_sorted _ _ _ _ h.regs) h rfl

theorem State.setFld_kept (s : State) (a hi lo v : Nat) (hk : s.Kept κ) : (State.setFld s a hi lo v).Kept κ := by
  unfold State.setFld
  with_reducible repeat' first | assumption | apply State.wr_kept

theorem State.setBit_kept (s : State) (a n : Nat) (b : Bool) (hk : s.Kept κ) : (State.setBit s a n b).Kept κ := by
  unfold State.setBit
  with_reducible repeat' first | assumption | apply State.wr_kept

theorem State.bump_kept (s : State) (a hi lo n : Nat) (hk : s.Kept κ) : (State.bump s a hi lo n).Kept κ := by
  unfold State.bump
  with_reducible repeat' first | assumption | apply State.setFld_kept

theorem State.count_kept (s : State) (a n : Nat) (hk : s.Kept κ) : (State.count s a n).Kept κ := by
  unfold State.count
  with_reducible repeat' first | assumption | apply State.bump_kept

theorem State.wrs_kept (s : State) (l : List (Nat × Word)) (h : s.Kept κ) : (State.wrs s l).Kept κ := by
  induction l generalizing s with
  | nil => exact h
  | cons a t ih => exact ih _ (State.wr_kept _ _ _ h)

theorem State.wrArr_kept (s : State) (a : Nat) (l : List Word) (h : s.Kept κ) : (State.wrArr s a l).Kept κ := by
  induction l generalizing s a with
  | nil => exact h
  | cons x t ih => exact ih _ _ (State.wr_kept _ _ _ h)

theorem State.clearRegs_kept (s : State) (lo hi : Nat) (h : s.Kept κ) : (State.clearRegs s lo hi).Kept κ :=
  Kept.updRegs (Sparse.filter_sorted _ _ h.regs) h rfl

theorem State.answer_kept (s : State) (ws : List Word) (hk : s.Kept κ) : (State.answer s ws).Kept κ := by
  unfold State.answer
  with_reducible repeat' first | assumption | simp only [Kept.upd_iff]

theorem State.emit_kept (s : State) (o : Out) (hk : s.Kept κ) : (State.emit s o).Kept κ := by
  unfold State.emit
  with_reducible repeat' first | assumption | simp only [Kept.upd_iff]

theorem State.sourceEvent_kept (s : State) (code : Nat) (hk : s.Kept κ) : (State.sourceEvent s code).Kept κ := by
  unfold State.sourceEvent
  with_reducible repeat' first | assumption | simp only [Kept.upd_iff]

theorem State.draw_kept (s : State) (f : Nat → State → State) (h : s.Kept κ) (hf : ∀ i t, t.Kept κ → (f i t).Kept κ) : (State.draw s
    f).Kept κ :=
  hf _ _ (Kept.upd h rfl)

theorem State.fireVector_kept (s : State) (v : Nat) (hk : s.Kept κ) : (State.fireVector s v).Kept κ := by
  unfold State.fireVector
  with_reducible repeat' first | assumption | simp only [Kept.upd_iff] | apply State.emit_kept | split

theorem State.signal_kept (s t : State) (p : Nat) (h : t.Kept κ) : (State.signal s t p).Kept κ := by
  unfold State.signal
  try dsimp only
  repeat' first
       | with_reducible assumption | intro _ | with_reducible apply Kept.next | with_reducible apply Kept.ite
       | with_reducible apply Kept.iteO | simp only [Kept.upd_iff] | with_reducible exact Kept.fault
       | with_reducible apply State.fireVector_kept | with_reducible apply Kept.foldl | with_reducible rfl
       | split

theorem State.raiseBits_kept (s : State) (p : Nat) (w : Word) (hk : s.Kept κ) : (State.raiseBits s p w).Kept κ := by
  unfold State.raiseBits
  with_reducible repeat' first | assumption | apply State.signal_kept | apply State.wr_kept

theorem State.raise_kept (s : State) (p n : Nat) (hk : s.Kept κ) : (State.raise s p n).Kept κ := by
  unfold State.raise
  with_reducible repeat' first | assumption | apply State.raiseBits_kept

theorem State.logEvent_kept (s : State) (p kind code : Nat) (info : Word) (hk : s.Kept κ) : (State.logEvent s p kind code info).Kept κ := by
  unfold State.logEvent
  with_reducible repeat' first
       | assumption | simp only [Kept.upd_iff] | apply State.count_kept | apply State.raise_kept
       | apply State.setBit_kept | split

theorem State.logFree_kept (s : State) (p kind : Nat) (hk : s.Kept κ) : (State.logFree s p kind).Kept κ := by
  unfold State.logFree
  with_reducible repeat' first | assumption | intro _ | apply State.draw_kept | apply State.logEvent_kept

theorem State.healthStep_kept (s t : State) (h : t.Kept κ) : (State.healthStep s t).Kept κ := by
  unfold State.healthStep
  try dsimp only
  repeat' first
       | with_reducible assumption | intro _ | with_reducible apply Kept.next | with_reducible apply Kept.ite
       | with_reducible apply Kept.iteO | simp only [Kept.upd_iff] | with_reducible exact Kept.fault
       | with_reducible apply State.raise_kept | with_reducible apply State.wr_kept
       | with_reducible apply Kept.foldl | with_reducible rfl | split

theorem State.err_kept (s : State) (p code : Nat) (info : Word) (hk : s.Kept κ) : (State.err s p code info).Kept κ := by
  unfold State.err
  with_reducible repeat' first
       | assumption | apply State.bump_kept | apply State.healthStep_kept | apply State.logEvent_kept
       | apply State.raise_kept | apply State.setFld_kept | apply State.wr_kept

theorem State.guardFail_kept (s : State) (a : Nat) (flue staged : Bool) (hk : s.Kept κ) : (State.guardFail s a flue staged).Kept κ := by
  unfold State.guardFail
  with_reducible repeat' first
       | assumption | apply State.bump_kept | apply State.logEvent_kept | apply State.raise_kept
       | apply State.setBit_kept | apply State.setFld_kept

theorem State.clampRec_kept (s : State) (a : Nat) (c : ClampRec) (hk : s.Kept κ) : (State.clampRec s a c).Kept κ := by
  unfold State.clampRec
  with_reducible repeat' first
       | assumption | simp only [Kept.upd_iff] | apply State.count_kept | apply State.raise_kept
       | apply State.setBit_kept | apply State.wr_kept | apply State.wrs_kept | split

theorem State.reject_kept (s : State) (a : Nat) (c : ClampRec) (code : Nat) (hk : s.Kept κ) : (State.reject s a c code).Kept κ := by
  unfold State.reject
  with_reducible repeat' first | assumption | apply State.clampRec_kept | apply State.err_kept

theorem State.setTag_kept (s : State) (r : Requester) (p tag : Nat) (hk : s.Kept κ) : (State.setTag s r p tag).Kept κ := by
  unfold State.setTag
  with_reducible repeat' first | assumption | simp only [Kept.upd_iff]

theorem State.accessOff_kept (s : State) (a : Nat) (hk : s.Kept κ) : (State.accessOff s a).Kept κ := by
  unfold State.accessOff
  with_reducible repeat' first | assumption | apply State.err_kept | split

theorem State.cmdWrite_kept (s : State) (r : Requester) (a : Nat) (act : State → State) (h : s.Kept κ) (hf : ∀ t, t.Kept κ → (act t).Kept
    κ) : (State.cmdWrite s r a act).Kept κ := by
  unfold State.cmdWrite
  split
  · exact State.accessOff_kept _ _ h
  · split
    · exact h
    · apply hf; split
      · exact h
      · exact State.err_kept _ _ _ _ h

theorem State.guardWrite_kept (s : State) (r : Requester) (a : Nat) (w : Word) (act : Nat → State → State) (h : s.Kept κ) (hf : ∀ n t,
    t.Kept κ → (act n t).Kept κ) : (State.guardWrite s r a w act).Kept κ := by
  unfold State.guardWrite
  apply State.cmdWrite_kept _ _ _ _ h
  intro t ht
  split
  · exact hf _ _ ht
  · exact State.guardFail_kept _ _ _ _ ht

theorem State.guardRange_kept (s : State) (a msb lsb v live : Nat) (hk : s.Kept κ) : (State.guardRange s a msb lsb v live).Kept κ := by
  unfold State.guardRange
  with_reducible repeat' first | assumption | apply State.reject_kept

theorem State.accept_kept (s : State) (a v : Nat) (hk : s.Kept κ) : (State.accept s a v).Kept κ := by
  unfold State.accept
  with_reducible repeat' first | assumption | apply State.wr_kept

theorem State.oscSync_kept (s : State) (hk : s.Kept κ) : (State.oscSync s).Kept κ := by
  unfold State.oscSync
  with_reducible repeat' first
       | assumption | simp only [Kept.upd_iff] | apply State.setBit_kept | apply State.setFld_kept | split

end Sys2Proof.Machine
end

