-- ==== Sys2Proof/Laws/KeptDmaPace.lean ====
section
/-!
SUPPORT. What the operations of Machine/DmaPace.lean keep (see Kept.lean).
-/
namespace Sys2Proof.Machine

variable {κ : Part × Straps × List Instr × Nat}

theorem State.onChan_kept (s : State) (n : Nat) (f : DmaChan → DmaChan) (hk : s.Kept κ) : (State.onChan s n f).Kept κ := by
  unfold State.onChan
  with_reducible repeat' first | assumption | simp only [Kept.upd_iff]

theorem State.setCh_kept (s : State) (n st : Nat) (hk : s.Kept κ) : (State.setCh s n st).Kept κ := by
  unfold State.setCh
  with_reducible repeat' first | assumption | apply State.setBit_kept | apply State.setFld_kept

theorem State.chCmdState_kept (s : State) (n cmd : Nat) (hk : s.Kept κ) : (State.chCmdState s n cmd).Kept κ := by
  unfold State.chCmdState
  with_reducible repeat' first | assumption | apply State.err_kept

theorem State.chCmdClass_kept (s : State) (n cmd : Nat) (hk : s.Kept κ) : (State.chCmdClass s n cmd).Kept κ := by
  unfold State.chCmdClass
  with_reducible repeat' first | assumption | apply State.err_kept

theorem State.chEnd_kept (s : State) (n : Nat) (hk : s.Kept κ) : (State.chEnd s n).Kept κ := by
  unfold State.chEnd
  with_reducible repeat' first | assumption | apply State.raise_kept | apply State.setBit_kept

theorem State.chFail_kept (s : State) (n reason : Nat) (hk : s.Kept κ) : (State.chFail s n reason).Kept κ := by
  unfold State.chFail
  with_reducible repeat' first
       | assumption | apply State.raise_kept | apply State.setBit_kept | apply State.setCh_kept
       | apply State.setFld_kept

theorem State.chAbort_kept (s : State) (n reason : Nat) (hk : s.Kept κ) : (State.chAbort s n reason).Kept κ := by
  unfold State.chAbort
  with_reducible repeat' first | assumption | apply State.chEnd_kept | apply State.setCh_kept | apply State.setFld_kept

theorem State.pace_kept (s : State) (n : Nat) (hk : s.Kept κ) : (State.pace s n).Kept κ := by
  unfold State.pace
  with_reducible repeat' first | assumption | apply State.onChan_kept | apply State.setCh_kept | split

theorem State.dmaRequest_kept (s : State) (line : Nat) (hk : s.Kept κ) : (State.dmaRequest s line).Kept κ := by
  unfold State.dmaRequest
  try dsimp only
  with_reducible repeat' first
       | assumption | intro _ | apply State.count_kept | apply State.onChan_kept
       | apply State.pace_kept | apply State.raise_kept | apply Kept.foldl | split

end Sys2Proof.Machine
end

