-- ==== Sys2Proof/Laws/KeptActCore.lean ====
section
/-!
SUPPORT. What the operations and meanings of Machine/ActCore.lean keep (see Kept.lean).
-/
namespace Sys2Proof.Machine

variable {κ : Part × Straps × List Instr × Nat}

theorem State.dropAct_kept (s : State) (x : ActSlot) (hk : s.Kept κ) : (State.dropAct s x).Kept κ := by
  unfold State.dropAct
  with_reducible repeat' first | assumption | simp only [Kept.upd_iff]

theorem State.setActStat_kept (s : State) (x : ActSlot) (st reason : Nat) (late unlocked supply : Bool) (hk : s.Kept κ) :
    (State.setActStat s x st reason late unlocked supply).Kept κ := by
  unfold State.setActStat
  with_reducible repeat' first | assumption | apply State.wr_kept

theorem State.oscUser_kept (s : State) (u : Nat) (b : Bool) (hk : s.Kept κ) : (State.oscUser s u b).Kept κ := by
  unfold State.oscUser
  with_reducible repeat' first | assumption | simp only [Kept.upd_iff] | apply State.oscSync_kept

theorem State.engEnd_kept (s : State) (x : ActSlot) (missed : Bool) (hk : s.Kept κ) : (State.engEnd s x missed).Kept κ := by
  unfold State.engEnd
  try dsimp only
  with_reducible repeat' first
       | assumption | apply State.bump_kept | apply State.oscUser_kept | simp only [Kept.upd_iff] | intro _ | apply State.draw_kept | split

theorem State.endAct_kept (s : State) (x : ActSlot) (st reason : Nat) (late unlocked supply : Bool) (hk : s.Kept κ) : (State.endAct s x st
    reason late unlocked supply).Kept κ := by
  unfold State.endAct
  try dsimp only
  with_reducible repeat' first
       | assumption | apply State.engEnd_kept | apply State.dropAct_kept | apply State.raise_kept | apply State.setActStat_kept | split

theorem State.actAtT_kept (s : State) (x : ActSlot) (perform : PendAct → State → Option State) (hk : s.Kept κ)
    (hp : ∀ a u t, perform a u = some t → u.Kept κ → t.Kept κ) : (State.actAtT s x perform).Kept κ := by
  unfold State.actAtT
  try dsimp only
  split
  · exact hk
  · split
    · exact hk
    · split
      · exact State.setBit_kept _ _ _ _ hk
      · split
        · rename_i h
          exact State.endAct_kept _ _ _ _ _ _ _ (hp _ _ _ h hk)
        · exact State.endAct_kept _ _ _ _ _ _ _ hk

theorem State.enqueueAct_kept (s : State) (a : PendAct) (st : Nat) (hk : s.Kept κ) : (State.enqueueAct s a st).Kept κ := by
  unfold State.enqueueAct
  with_reducible repeat' first
       | assumption | simp only [Kept.upd_iff] | apply State.dropAct_kept | apply State.setActStat_kept | split

theorem State.performLate_kept (s : State) (a : PendAct) (supply : Bool) (perform : PendAct → State → Option State) (hk : s.Kept κ)
    (hp : ∀ a u t, perform a u = some t → u.Kept κ → t.Kept κ) : (State.performLate s a supply perform).Kept κ := by
  unfold State.performLate
  split
  · (repeat' first
       | with_reducible assumption | intro _ | with_reducible apply Kept.next | with_reducible apply Kept.ite
       | with_reducible apply Kept.iteO | simp only [Kept.upd_iff] | with_reducible exact Kept.fault
       | with_reducible refine h_perform _ _ _ (by assumption) ?_ | with_reducible apply State.endAct_kept
       | with_reducible apply State.enqueueAct_kept | with_reducible apply State.setBit_kept
       | with_reducible apply Kept.foldl | with_reducible rfl | split)
  · split
    · rename_i h
      exact State.endAct_kept _ _ _ _ _ _ _ (hp _ _ _ h hk)
    · exact State.endAct_kept _ _ _ _ _ _ _ hk

theorem State.lateBlocked_kept (s : State) (x : ActSlot) (perform : PendAct → State → Option State) (hk : s.Kept κ)
    (hp : ∀ a u t, perform a u = some t → u.Kept κ → t.Kept κ) : (State.lateBlocked s x perform).Kept κ := by
  unfold State.lateBlocked
  try dsimp only
  (repeat' first
       | with_reducible assumption | intro _ | with_reducible apply Kept.next | with_reducible apply Kept.ite
       | with_reducible apply Kept.iteO | simp only [Kept.upd_iff] | with_reducible exact Kept.fault
       | with_reducible refine h_perform _ _ _ (by assumption) ?_ | with_reducible apply State.dropAct_kept
       | with_reducible apply State.endAct_kept | with_reducible apply State.performLate_kept
       | with_reducible apply State.setFld_kept | with_reducible apply Kept.foldl | with_reducible rfl | split)

theorem State.actJudged_kept (s : State) (a : PendAct) (policy : Nat) (perform : PendAct → State → Option State) (j : Judgement) (hk :
    s.Kept κ)
    (hp : ∀ a u t, perform a u = some t → u.Kept κ → t.Kept κ) : (State.actJudged s a policy perform j).Kept κ := by
  cases j <;> unfold State.actJudged <;> (try dsimp only)
  all_goals
     (repeat' first
       | with_reducible assumption | intro _ | with_reducible apply Kept.next | with_reducible apply Kept.ite
       | with_reducible apply Kept.iteO | simp only [Kept.upd_iff] | with_reducible exact Kept.fault
       | with_reducible refine h_perform _ _ _ (by assumption) ?_ | with_reducible apply State.dropAct_kept
       | with_reducible apply State.enqueueAct_kept | with_reducible apply State.performLate_kept
       | with_reducible apply State.setActStat_kept | with_reducible apply Kept.foldl | with_reducible rfl
       | split)

theorem State.judgeAct_kept (s : State) (a : PendAct) (policy : Nat) (perform : PendAct → State → Option State) (hk : s.Kept κ)
    (hp : ∀ a u t, perform a u = some t → u.Kept κ → t.Kept κ) : (State.judgeAct s a policy perform).Kept κ :=
  State.actJudged_kept _ _ _ _ _ hk hp

theorem State.armAct_kept (s : State) (x : ActSlot) (policy : Nat) (perform : PendAct → State → Option State) (hk : s.Kept κ)
    (hp : ∀ a u t, perform a u = some t → u.Kept κ → t.Kept κ) : (State.armAct s x policy perform).Kept κ :=
  State.judgeAct_kept _ _ _ _ (State.setFld_kept _ _ _ _ _ hk) hp

theorem State.twtLost_kept (s : State) (hk : s.Kept κ) : (State.twtLost s).Kept κ := by
  unfold State.twtLost
  with_reducible repeat' first | assumption | simp only [Kept.upd_iff]

end Sys2Proof.Machine
end

