-- ==== Sys2Proof/Laws/KeptQueue.lean ====
section
/-!
SUPPORT. What the operations and meanings of Machine/Queue.lean keep (see Kept.lean).
-/
namespace Sys2Proof.Machine

variable {κ : Part × Straps × List Instr × Nat}

theorem State.setQueue_kept (s : State) (q : Nat) (l : List QFrame) (hk : s.Kept κ) : (State.setQueue s q l).Kept κ := by
  unfold State.setQueue
  with_reducible repeat' first | assumption | simp only [Kept.upd_iff]

theorem State.classDrop_kept (s : State) (c : Nat) (hk : s.Kept κ) : (State.classDrop s c).Kept κ := by
  unfold State.classDrop
  with_reducible repeat' first | assumption | apply State.count_kept

theorem State.onStation_kept (s : State) (i : Nat) (f : Station → Station) (hk : s.Kept κ) : (State.onStation s i f).Kept κ := by
  unfold State.onStation
  with_reducible repeat' first | assumption | simp only [Kept.upd_iff]

theorem State.wakeStation_kept (s : State) (i : Nat) (hk : s.Kept κ) : (State.wakeStation s i).Kept κ := by
  unfold State.wakeStation
  with_reducible repeat' first | assumption | apply State.onStation_kept | split

theorem State.intakeFrame_kept (s : State) (q : Nat) (f : Frame) (sub : Nat) (hk : s.Kept κ) : (State.intakeFrame s q f sub).Kept κ := by
  unfold State.intakeFrame
  with_reducible repeat' first
       | assumption | simp only [Kept.upd_iff] | apply State.classDrop_kept | apply State.count_kept
       | apply State.raise_kept | apply State.setQueue_kept | apply State.wakeStation_kept | split

theorem State.pop_kept (s : State) (q : Nat) (hk : s.Kept κ) : (State.pop s q).Kept κ := by
  unfold State.pop
  with_reducible repeat' first | assumption | apply State.setQueue_kept

theorem execSpillFetch_keeps (q : Nat) (s : State) (hk : s.Kept κ) : OutKept κ (execSpillFetch q s) := by
  unfold execSpillFetch
  try dsimp only
  with_reducible repeat' first | assumption | apply Kept.next | apply State.setQueue_kept | split

theorem State.dropSpilled_kept (s : State) (hk : s.Kept κ) : (State.dropSpilled s).Kept κ := by
  unfold State.dropSpilled
  try dsimp only
  with_reducible repeat' first
       | assumption | intro _ | apply State.count_kept | apply State.setQueue_kept | apply Kept.foldl | split

theorem execDiscardSpill_keeps (r : Requester) (s : State) (hk : s.Kept κ) : OutKept κ (execDiscardSpill r s) := by
  unfold execDiscardSpill
  with_reducible repeat' first | assumption | apply Kept.next | apply State.cmdWrite_kept | apply State.dropSpilled_kept

theorem State.freezeHold_kept (s : State) (hk : s.Kept κ) : (State.freezeHold s).Kept κ := by
  unfold State.freezeHold
  with_reducible repeat' first | assumption | apply State.raise_kept | split

theorem State.takePort_eq {s : State} {port : Nat} {x_ y_} {t_ : State} (heq : State.takePort s port = some (x_, y_, t_)) (hk : s.Kept κ)
    : t_.Kept κ := by
  unfold State.takePort at heq
  (try dsimp only at heq)
  (repeat' split at heq) <;> (first | cases heq | skip)
  all_goals
  (with_reducible repeat' first | assumption | simp only [Kept.upd_iff] | apply State.pop_kept)

end Sys2Proof.Machine
end

