-- ==== Sys2Proof/Laws/KeptPlan.lean ====
section
/-!
SUPPORT. What the operations of Machine/Plan.lean keep (see Kept.lean).
-/
namespace Sys2Proof.Machine

variable {κ : Part × Straps × List Instr × Nat}

theorem State.onPart_kept (s : State) (d : Nat) (f : PartState → PartState) (hk : s.Kept κ) : (State.onPart s d f).Kept κ := by
  unfold State.onPart
  with_reducible repeat' first | assumption | simp only [Kept.upd_iff]

theorem State.setPa_kept (s : State) (d st : Nat) (hk : s.Kept κ) : (State.setPa s d st).Kept κ := by
  unfold State.setPa
  with_reducible repeat' first | assumption | apply State.setFld_kept

theorem State.showChains_kept (s : State) (d : Nat) (hk : s.Kept κ) : (State.showChains s d).Kept κ := by
  unfold State.showChains
  with_reducible repeat' first | assumption | apply State.setFld_kept

theorem State.onPs_kept (s : State) (p : Nat) (f : PartSched → PartSched) (hk : s.Kept κ) : (State.onPs s p f).Kept κ := by
  unfold State.onPs
  with_reducible repeat' first | assumption | simp only [Kept.upd_iff]

theorem State.planBuild_kept (s : State) (p : Nat) (hk : s.Kept κ) : (State.planBuild s p).Kept κ := by
  unfold State.planBuild
  with_reducible repeat' first
       | assumption | intro _ | apply State.draw_kept | apply State.onPs_kept | apply State.setFld_kept | split

end Sys2Proof.Machine
end

