-- ==== Sys2Proof/Laws/KeptAccess.lean ====
section
/-!
SUPPORT. What the operations and meanings of Machine/Access.lean keep (see Kept.lean).
-/
namespace Sys2Proof.Machine

variable {κ : Part × Straps × List Instr × Nat}

theorem State.synShow_kept (s : State) (d : Nat) (locked settling : Bool) (hk : s.Kept κ) : (State.synShow s d locked settling).Kept κ := by
  unfold State.synShow
  with_reducible repeat' first | assumption | apply State.setBit_kept | apply State.wrs_kept

theorem State.setBand_kept (s : State) (dies : List Nat) (high : Bool) (hk : s.Kept κ) : (State.setBand s dies high).Kept κ := by
  unfold State.setBand
  try dsimp only
  with_reducible repeat' first
       | assumption | simp only [Kept.upd_iff] | intro _ | apply State.draw_kept | split

theorem State.paSettleTo_kept (s : State) (d : Nat) (g : PartGoal) (hk : s.Kept κ) : (State.paSettleTo s d g).Kept κ := by
  unfold State.paSettleTo
  with_reducible repeat' first
       | assumption | apply State.setBand_kept | apply State.onPart_kept | apply State.setPa_kept | apply State.synShow_kept
       | apply State.wrs_kept

theorem State.paGo_kept (s : State) (d st : Nat) (hk : s.Kept κ) : (State.paGo s d st).Kept κ := by
  unfold State.paGo
  with_reducible repeat' first | assumption | apply State.paSettleTo_kept | apply State.setPa_kept | split

theorem State.paReturn_kept (s : State) (d : Nat) (hk : s.Kept κ) : (State.paReturn s d).Kept κ := by
  unfold State.paReturn
  with_reducible repeat' first | assumption | apply State.paGo_kept

theorem State.staDrop_kept (s : State) (i : Nat) (hk : s.Kept κ) : (State.staDrop s i).Kept κ := by
  unfold State.staDrop
  with_reducible repeat' first | assumption | apply State.onStation_kept

theorem State.mpduFail_kept (s : State) (p i : Nat) (m : Mpdu) (hk : s.Kept κ) : (State.mpduFail s p i m).Kept κ := by
  unfold State.mpduFail
  with_reducible repeat' first
       | assumption | apply State.bump_kept | apply State.onStation_kept | apply State.staDrop_kept | split

theorem State.airClear_kept (s : State) (p : Nat) (hk : s.Kept κ) : (State.airClear s p).Kept κ := by
  unfold State.airClear
  with_reducible repeat' first | assumption | intro _ | apply State.mpduFail_kept | apply Kept.foldl

theorem State.showWeights_kept (s : State) (d : Nat) (hk : s.Kept κ) : (State.showWeights s d).Kept κ := by
  unfold State.showWeights
  with_reducible repeat' first | assumption | apply State.setFld_kept

theorem State.weightsStale_kept (s : State) (d : Nat) (hk : s.Kept κ) : (State.weightsStale s d).Kept κ := by
  unfold State.weightsStale
  with_reducible repeat' first
       | assumption | apply State.onPart_kept | apply State.raise_kept | apply State.showWeights_kept

theorem State.paApply_kept (s : State) (d : Nat) (g : PartGoal) (hk : s.Kept κ) : (State.paApply s d g).Kept κ := by
  unfold State.paApply
  try dsimp only
  with_reducible repeat' first
       | assumption | apply State.onPart_kept | apply State.weightsStale_kept | apply State.paSettleTo_kept | intro _ | apply State.draw_kept | split

theorem State.paChanDue_kept (s : State) (d : Nat) (hk : s.Kept κ) : (State.paChanDue s d).Kept κ := by
  unfold State.paChanDue
  try dsimp only
  with_reducible repeat' first
       | assumption | apply State.paApply_kept | apply State.bump_kept | apply State.onPart_kept | apply State.paSettleTo_kept | split

theorem State.txopCut_kept (s : State) (d : Nat) (again : List Nat) (hk : s.Kept κ) : (State.txopCut s d again).Kept κ := by
  unfold State.txopCut
  try dsimp only
  with_reducible repeat' first | assumption | apply State.planBuild_kept | apply State.paChanDue_kept | apply State.onPs_kept | apply State.airClear_kept | split

theorem State.soundAbandon_kept (s : State) (d reason : Nat) (hk : s.Kept κ) : (State.soundAbandon s d reason).Kept κ := by
  unfold State.soundAbandon
  with_reducible repeat' first
       | assumption | apply State.bump_kept | apply State.err_kept | apply State.onPart_kept
       | apply State.raise_kept | apply State.txopCut_kept | apply State.wr_kept | split

theorem State.paPreempt_kept (s : State) (d : Nat) (hk : s.Kept κ) : (State.paPreempt s d).Kept κ := by
  unfold State.paPreempt
  with_reducible repeat' first
       | assumption | apply State.bump_kept | apply State.onPart_kept | apply State.txopCut_kept | split

theorem State.paRetune_kept (s : State) (d : Nat) (old : Word) (hk : s.Kept κ) : (State.paRetune s d old).Kept κ := by
  unfold State.paRetune
  try dsimp only
  with_reducible repeat' first
       | assumption | apply State.paApply_kept | apply State.onPart_kept | apply State.paPreempt_kept | apply State.paSettleTo_kept
       | apply State.soundAbandon_kept | apply State.weightsStale_kept | split

theorem State.ppduStart_kept (s : State) (d kind us : Nat) (slot : Option (Fin 8)) (hk : s.Kept κ) : (State.ppduStart s d kind us slot).Kept κ := by
  unfold State.ppduStart
  with_reducible repeat' first
       | assumption | apply State.emit_kept | apply State.onPart_kept | apply State.setPa_kept
       | apply State.wr_kept | split

theorem State.ppduWaiting_kept (s : State) (d : Nat) (hk : s.Kept κ) : (State.ppduWaiting s d).Kept κ := by
  unfold State.ppduWaiting
  with_reducible repeat' first | assumption | apply State.ppduStart_kept | split

theorem State.partCalDrop_kept (s : State) (d : Nat) (hk : s.Kept κ) : (State.partCalDrop s d).Kept κ := by
  unfold State.partCalDrop
  try dsimp only
  with_reducible repeat' first
       | assumption | apply State.setBit_kept | intro _ | apply State.draw_kept | split

theorem State.partEnd_kept (s : State) (d : Nat) (hk : s.Kept κ) : (State.partEnd s d).Kept κ := by
  unfold State.partEnd
  try dsimp only
  with_reducible repeat' first
       | assumption | apply State.partCalDrop_kept | apply State.onPs_kept | apply State.txopCut_kept | apply State.onPart_kept | apply State.setBit_kept | apply State.showWeights_kept
       | apply State.soundAbandon_kept | apply State.wr_kept

theorem State.paStopped_kept (s : State) (d : Nat) (u : State) (hk : u.Kept κ) : (State.paStopped s d u).Kept κ := by
  unfold State.paStopped
  with_reducible repeat' first | assumption | apply State.ppduWaiting_kept | apply State.partEnd_kept | split

theorem State.setPartChan_kept (s : State) (d : Nat) (w : Word) (hk : s.Kept κ) : (State.setPartChan s d w).Kept κ := by
  unfold State.setPartChan
  with_reducible repeat' first | assumption | apply State.paStopped_kept | apply State.paRetune_kept | apply State.wr_kept | split

theorem State.ppduRequest_kept (s : State) (d kind us : Nat) (hk : s.Kept κ) : (State.ppduRequest s d kind us).Kept κ := by
  unfold State.ppduRequest
  try dsimp only
  with_reducible repeat' first
       | assumption | apply State.onPart_kept | apply State.paSettleTo_kept | apply State.ppduStart_kept
       | split

theorem execPpduImmediate_keeps (d : Fin 6) (us : Nat) (s : State) (hk : s.Kept κ) : OutKept κ (execPpduImmediate d us s) := by
  unfold execPpduImmediate
  with_reducible repeat' first | assumption | apply Kept.next | apply State.ppduRequest_kept

theorem State.actBegin_kept (s : State) (x : ActSlot) (hk : s.Kept κ) : (State.actBegin s x).Kept κ := by
  unfold State.actBegin
  try dsimp only
  with_reducible repeat' first
       | assumption | simp only [Kept.upd_iff] | intro _ | apply State.draw_kept | split

theorem State.ppduScheduled_kept (s : State) (d : Fin 6) (i : Fin 8) (us : Nat) (hk : s.Kept κ) : (State.ppduScheduled s d i us).Kept κ := by
  unfold State.ppduScheduled
  try dsimp only
  with_reducible repeat' first
       | assumption | apply State.enqueueAct_kept | apply State.setBit_kept | apply State.endAct_kept | apply State.actBegin_kept | apply State.ppduStart_kept | split

theorem State.ppduDropWait_kept (s : State) (d outcome : Nat) (hk : s.Kept κ) : (State.ppduDropWait s d outcome).Kept κ := by
  unfold State.ppduDropWait
  try dsimp only
  with_reducible repeat' first
       | assumption | apply State.wr_kept | apply State.onPart_kept | apply State.raise_kept | apply State.setFld_kept | split

theorem State.ppduFail_kept (s : State) (d outcome code : Nat) (hk : s.Kept κ) : (State.ppduFail s d outcome code).Kept κ := by
  unfold State.ppduFail
  try dsimp only
  with_reducible repeat' first
       | assumption | apply State.soundAbandon_kept | apply State.ppduDropWait_kept | apply State.err_kept | apply State.onPart_kept | apply State.raise_kept
       | apply State.wr_kept | split

theorem execAccessTxWaitExpiry_keeps (d : Fin 6) (s : State) (hk : s.Kept κ) : OutKept κ (execAccessTxWaitExpiry d s) := by
  unfold execAccessTxWaitExpiry
  with_reducible repeat' first | assumption | apply Kept.next | apply State.ppduFail_kept | split

theorem partPerform_eq {a : PendAct} {s : State} {t_ : State} (heq : partPerform a s = some t_) (hk : s.Kept κ) : t_.Kept κ := by
  unfold partPerform at heq
  (try dsimp only at heq)
  (repeat' split at heq) <;> (first | contradiction | (simp only [Option.some.injEq] at heq; subst heq) | skip)
  all_goals
  (with_reducible repeat' first
    | assumption | apply State.ppduDropWait_kept | apply State.ppduStart_kept | apply State.paStopped_kept | apply State.paGo_kept | apply State.paPreempt_kept | apply State.setPartChan_kept)

theorem State.paUnblock_kept (s : State) (d : Fin 6) (hk : s.Kept κ) : (State.paUnblock s d).Kept κ := by
  unfold State.paUnblock
  with_reducible repeat' first
       | assumption | intro _ | apply State.lateBlocked_kept | apply State.onPart_kept
       | refine partPerform_eq (by assumption) ?_ | apply Kept.foldl

theorem State.ppduOver_kept (s : State) (d : Fin 6) (t : PartTx) (outcome : Nat) (hk : s.Kept κ) : (State.ppduOver s d t outcome).Kept κ := by
  unfold State.ppduOver
  try dsimp only
  with_reducible repeat' first
       | assumption | apply State.setFld_kept | apply State.setBit_kept | apply State.endAct_kept | apply State.onPart_kept | apply State.raise_kept | intro _ | apply State.draw_kept | split

theorem State.ppduNext_kept (s : State) (d : Fin 6) (expects : Bool) (hk : s.Kept κ) : (State.ppduNext s d expects).Kept κ := by
  unfold State.ppduNext
  try dsimp only
  with_reducible repeat' first
       | assumption | apply State.paApply_kept | apply State.paGo_kept | apply State.paReturn_kept | apply State.paUnblock_kept | apply State.partEnd_kept | apply State.ppduWaiting_kept | intro _ | apply State.draw_kept | split

theorem State.ppduFinish_kept (s : State) (d : Fin 6) (outcome : Nat) (expects : Bool) (hk : s.Kept κ) : (State.ppduFinish s d outcome
    expects).Kept κ := by
  unfold State.ppduFinish
  try dsimp only
  with_reducible repeat' first
       | assumption | apply State.ppduOver_kept | apply State.ppduNext_kept | apply State.ppduWaiting_kept | apply State.onPart_kept | apply State.paGo_kept | apply State.paReturn_kept
       | apply State.paSettleTo_kept | apply State.paUnblock_kept | apply State.partEnd_kept
       | apply State.raise_kept | apply State.setBit_kept | apply State.setFld_kept | split

theorem State.chainReading_kept (s : State) (l : ChainLevel) (hk : s.Kept κ) : (State.chainReading s l).Kept κ := by
  unfold State.chainReading
  try dsimp only
  with_reducible repeat' first | assumption | apply State.raise_kept | apply State.wr_kept | apply State.wrs_kept | split

theorem State.cutReadings_kept (s : State) (t : PartTx) (hk : s.Kept κ) : (State.cutReadings s t).Kept κ := by
  unfold State.cutReadings
  try dsimp only
  with_reducible repeat' first
       | assumption | apply State.chainReading_kept | apply Kept.foldl | intro _ | apply State.draw_kept | split

theorem State.ppduCut_kept (s : State) (d : Fin 6) (outcome : Nat) (hk : s.Kept κ) : (State.ppduCut s d outcome).Kept κ := by
  unfold State.ppduCut
  try dsimp only
  with_reducible repeat' first
       | assumption | apply State.cutReadings_kept | apply State.ppduOver_kept | apply State.ppduNext_kept | intro _ | apply State.draw_kept | split

theorem State.soundNext_kept (s : State) (d next : Nat) (hk : s.Kept κ) : (State.soundNext s d next).Kept κ := by
  unfold State.soundNext
  try dsimp only
  with_reducible repeat' first
       | assumption | apply State.setFld_kept | apply State.emit_kept | apply State.ppduStart_kept | intro _ | apply State.draw_kept | split

theorem State.ppduTxEnd_kept (s : State) (d : Fin 6) (us : Nat) (expects : Bool) (levels : List ChainLevel) (hk : s.Kept κ) :
    (State.ppduTxEnd s d us expects levels).Kept κ := by
  unfold State.ppduTxEnd
  try dsimp only
  with_reducible repeat' first
       | assumption | apply State.ppduOver_kept | apply State.soundNext_kept | apply State.ppduNext_kept | apply State.chainReading_kept | apply State.ppduFinish_kept | apply Kept.foldl | split

theorem execChainProtect_keeps (d : Fin 6) (c : Fin 16) (rl : Nat) (s : State) (hk : s.Kept κ) : OutKept κ (execChainProtect d c rl s) := by
  unfold execChainProtect
  try dsimp only
  with_reducible repeat' first
       | assumption | apply Kept.next | apply State.err_kept | apply State.onPart_kept | apply State.raise_kept
       | apply State.setBit_kept | split

theorem State.accSupplyWarn_kept (s : State) (n : Fin 6) (hk : s.Kept κ) : (State.accSupplyWarn s n).Kept κ := by
  unfold State.accSupplyWarn
  try dsimp only
  with_reducible repeat' first | assumption | apply State.ppduCut_kept | apply State.ppduFinish_kept | split

theorem State.accSupplyOk_kept (s : State) (n : Fin 6) (hk : s.Kept κ) : (State.accSupplyOk s n).Kept κ := by
  unfold State.accSupplyOk
  try dsimp only
  with_reducible repeat' first | assumption | apply State.ppduWaiting_kept | apply State.ppduStart_kept | split

theorem execPpduSync_keeps (d : Fin 6) (power : Int) (s : State) (hk : s.Kept κ) : OutKept κ (execPpduSync d power s) := by
  unfold execPpduSync
  try dsimp only
  with_reducible repeat' first
       | assumption | apply Kept.next | apply State.bump_kept | apply State.onPart_kept
       | apply State.setPa_kept | split

theorem execPpduHeader_keeps (d : Fin 6) (ok : Bool) (s : State) (hk : s.Kept κ) : OutKept κ (execPpduHeader d ok s) := by
  unfold execPpduHeader
  try dsimp only
  with_reducible repeat' first
       | assumption | apply State.paStopped_kept | apply Kept.next | apply State.bump_kept | apply State.onPart_kept | apply State.paGo_kept
       | split

theorem execPpduCapture_keeps (d : Fin 6) (power : Int) (half : Bool) (s : State) (hk : s.Kept κ) : OutKept κ (execPpduCapture d power
    half s) := by
  unfold execPpduCapture
  try dsimp only
  with_reducible repeat' first
       | assumption | apply Kept.next | apply State.bump_kept | apply State.onPart_kept
       | apply State.raise_kept | split

theorem State.ppduRxEnd_kept (s : State) (d : Nat) (respond : Option Nat) (levels : List ChainLevel) (hk : s.Kept κ) : (State.ppduRxEnd s d respond levels).Kept κ := by
  unfold State.ppduRxEnd
  try dsimp only
  with_reducible repeat' first
       | assumption | apply State.soundNext_kept | apply State.paStopped_kept | apply State.onPart_kept | apply State.paReturn_kept | apply State.ppduStart_kept
       | apply State.wrs_kept | split

theorem State.tileOut_kept (s : State) (n t : Nat) (why : Option Nat) (hk : s.Kept κ) : (State.tileOut s n t why).Kept κ := by
  unfold State.tileOut
  try dsimp only
  with_reducible repeat' first
       | assumption | apply State.err_kept | apply State.raise_kept | apply State.setBit_kept
       | apply State.setFld_kept | apply State.showChains_kept | split

theorem State.tileIn_kept (s : State) (n t : Nat) (hk : s.Kept κ) : (State.tileIn s n t).Kept κ := by
  unfold State.tileIn
  with_reducible repeat' first | assumption | apply State.setBit_kept | split

theorem State.partDieLost_kept (s : State) (n : Nat) (hk : s.Kept κ) : (State.partDieLost s n).Kept κ := by
  unfold State.partDieLost
  with_reducible repeat' first
       | assumption | intro _ | apply State.onPart_kept | apply State.partEnd_kept
       | apply State.showChains_kept | apply State.tileOut_kept | apply Kept.foldl | split

theorem State.tilesBack_kept (s : State) (n : Nat) (hk : s.Kept κ) : (State.tilesBack s n).Kept κ := by
  unfold State.tilesBack
  try dsimp only
  with_reducible repeat' first
       | assumption | apply State.setBit_kept | apply Kept.foldl | intro _ | apply State.draw_kept | split

theorem State.phaseUse_kept (s : State) (d : Nat) (hk : s.Kept κ) : (State.phaseUse s d).Kept κ := by
  unfold State.phaseUse
  with_reducible repeat' first | assumption | apply State.onPart_kept | apply State.wr_kept

theorem State.calTile_kept (s : State) (set : BitVec 4) (n t : Nat) (bad : BitVec 4) (hk : s.Kept κ) : (State.calTile s set n t bad).Kept
    κ := by
  unfold State.calTile
  with_reducible repeat' first
       | assumption | simp only [Kept.upd_iff] | apply State.err_kept | apply State.tileIn_kept
       | apply State.tileOut_kept | split

theorem State.partCalRecord_kept (s : State) (n : Nat) (set : BitVec 4) (fails : List CalFail) (hk : s.Kept κ) :
    (State.partCalRecord s n set fails).Kept κ := by
  unfold State.partCalRecord
  try dsimp only
  with_reducible repeat' first
       | assumption | intro _ | apply State.calTile_kept | apply State.onPart_kept | apply State.phaseUse_kept
       | apply State.setBit_kept | apply State.setFld_kept | apply State.setPa_kept
       | apply State.showChains_kept | apply State.wr_kept | apply Kept.foldl | split

theorem State.partWrite_kept (s : State) (r : Requester) (d a : Nat) (act : State → State) (hk : s.Kept κ) (h_act : ∀ t, t.Kept κ → (act
    t).Kept κ) : (State.partWrite s r d a act).Kept κ := by
  unfold State.partWrite
  with_reducible repeat' first
       | assumption | intro _ | apply h_act | apply State.cmdWrite_kept | apply State.err_kept | split

theorem State.seqCmd_kept (s : State) (r : Requester) (d code : Nat) (ok : Nat → Bool) (act : State → State) (hk : s.Kept κ) (h_act : ∀ t,
    t.Kept κ → (act t).Kept κ) : (State.seqCmd s r d code ok act).Kept κ := by
  unfold State.seqCmd
  with_reducible repeat' first
       | assumption | intro _ | apply h_act | apply State.err_kept | apply State.partWrite_kept | split

theorem execSeqSleep_keeps (r : Requester) (d : Fin 6) (s : State) (hk : s.Kept κ) : OutKept κ (execSeqSleep r d s) := by
  unfold execSeqSleep
  with_reducible repeat' first | assumption | intro _ | apply Kept.next | apply State.paGo_kept | apply State.seqCmd_kept

theorem execSeqIdle_keeps (r : Requester) (d : Fin 6) (s : State) (hk : s.Kept κ) : OutKept κ (execSeqIdle r d s) := by
  unfold execSeqIdle
  with_reducible repeat' first | assumption | intro _ | apply Kept.next | apply State.paGo_kept | apply State.seqCmd_kept

theorem execSeqListen_keeps (r : Requester) (d : Fin 6) (s : State) (hk : s.Kept κ) : OutKept κ (execSeqListen r d s) := by
  unfold execSeqListen
  with_reducible repeat' first | assumption | intro _ | apply Kept.next | apply State.paGo_kept | apply State.seqCmd_kept

theorem State.partCalStop_kept (s : State) (n : Nat) (hk : s.Kept κ) : (State.partCalStop s n).Kept κ := by
  unfold State.partCalStop
  with_reducible repeat' first | assumption | apply State.onPart_kept | apply State.partCalRecord_kept | apply State.setPa_kept | split

theorem State.seqAbort_kept (s : State) (r : Requester) (d : Fin 6) (completing : Bool) (hk : s.Kept κ) : (State.seqAbort s r d
    completing).Kept κ := by
  unfold State.seqAbort
  try dsimp only
  with_reducible repeat' first
       | assumption | apply State.soundAbandon_kept | apply State.ppduCut_kept | apply State.setFld_kept | apply State.partCalStop_kept | apply State.paStopped_kept | apply State.ppduDropWait_kept | apply State.paSettleTo_kept | intro _ | apply State.onPart_kept | apply State.paGo_kept | apply State.ppduFinish_kept
       | apply State.seqCmd_kept | apply State.setBit_kept | apply State.setPa_kept | split

theorem execSeqAbort_keeps (r : Requester) (d : Fin 6) (completing : Bool) (s : State) (hk : s.Kept κ) : OutKept κ (execSeqAbort r d
    completing s) := by
  unfold execSeqAbort
  with_reducible repeat' first | assumption | apply Kept.next | apply State.seqAbort_kept

theorem State.partEnable_kept (s : State) (d : Nat) (hk : s.Kept κ) : (State.partEnable s d).Kept κ := by
  unfold State.partEnable
  with_reducible repeat' first
       | assumption | apply State.tilesBack_kept | intro _ | apply Kept.foldl | simp only [Kept.upd_iff] | apply State.err_kept | apply State.onPart_kept
       | apply State.paSettleTo_kept | apply State.setBit_kept | apply State.setFld_kept
       | apply State.showChains_kept | split

theorem State.partDisable_kept (s : State) (d : Nat) (hk : s.Kept κ) : (State.partDisable s d).Kept κ := by
  unfold State.partDisable
  with_reducible repeat' first | assumption | apply State.onPart_kept | apply State.partEnd_kept | split

theorem State.synthLost_kept (s : State) (n lead : Nat) (hk : s.Kept κ) : (State.synthLost s n lead).Kept κ := by
  unfold State.synthLost
  try dsimp only
  with_reducible repeat' first
       | assumption | apply State.count_kept | apply State.raise_kept | apply State.err_kept | apply State.setBit_kept | apply State.wr_kept | intro _ | apply State.draw_kept | split

theorem execAccessSynthLock_keeps (d : Fin 6) (lost : Bool) (s : State) (hk : s.Kept κ) : OutKept κ (execAccessSynthLock d lost s) := by
  unfold execAccessSynthLock
  try dsimp only
  with_reducible repeat' first
       | assumption | apply State.synthLost_kept | apply State.wr_kept | apply State.ppduWaiting_kept | intro _ | apply Kept.next | apply State.phaseUse_kept | apply State.ppduStart_kept
       | apply State.raise_kept | apply State.setPa_kept | apply State.synShow_kept | apply Kept.foldl | split

theorem State.paCalStart_kept (s : State) (d : Nat) (set : BitVec 4) (hk : s.Kept κ) : (State.paCalStart s d set).Kept κ := by
  unfold State.paCalStart
  with_reducible repeat' first | assumption | apply State.onPart_kept | apply State.setPa_kept | apply State.wr_kept

theorem State.partCal_kept (s : State) (r : Requester) (d : Nat) (w : Word) (hk : s.Kept κ) : (State.partCal s r d w).Kept κ := by
  unfold State.partCal
  try dsimp only
  with_reducible repeat' first
       | assumption | intro _ | apply State.err_kept | apply State.onPart_kept | apply State.paCalStart_kept
       | apply State.partWrite_kept | apply State.setBit_kept | split

theorem execPartCal_keeps (r : Requester) (d : Fin 6) (w : Word) (s : State) (hk : s.Kept κ) : OutKept κ (execPartCal r d w s) := by
  unfold execPartCal
  with_reducible repeat' first | assumption | apply Kept.next | apply State.partCal_kept

theorem execPartCalDeferredStart_keeps (d : Fin 6) (s : State) (hk : s.Kept κ) : OutKept κ (execPartCalDeferredStart d s) := by
  unfold execPartCalDeferredStart
  with_reducible repeat' first | assumption | apply Kept.next | apply State.paCalStart_kept | split

theorem State.partCalDone_kept (s : State) (n : Nat) (fails : List CalFail) (hk : s.Kept κ) : (State.partCalDone s n fails).Kept κ := by
  unfold State.partCalDone
  try dsimp only
  with_reducible repeat' first
       | assumption | apply State.paApply_kept | apply State.partCalRecord_kept | apply State.ppduWaiting_kept | intro _ | apply State.calTile_kept | apply State.onPart_kept
       | apply State.paSettleTo_kept | apply State.phaseUse_kept | apply State.ppduStart_kept
       | apply State.raise_kept | apply State.setBit_kept | apply State.setFld_kept | apply State.setPa_kept
       | apply State.showChains_kept | apply State.wr_kept | apply Kept.foldl | split

theorem State.partActAtT_kept (s : State) (d : Fin 6) (i : Fin 8) (k : Nat) (hk : s.Kept κ) : (State.partActAtT s d i k).Kept κ := by
  unfold State.partActAtT
  try dsimp only
  with_reducible repeat' first
       | assumption | intro _ | apply State.actAtT_kept | apply State.onPart_kept | apply State.raise_kept
       | refine partPerform_eq (by assumption) ?_ | split

theorem execPartActListen_keeps (d : Fin 6) (i : Fin 8) (s : State) (hk : s.Kept κ) : OutKept κ (execPartActListen d i s) := by
  unfold execPartActListen
  with_reducible repeat' first | assumption | apply Kept.next | apply State.partActAtT_kept

theorem execPartActIdle_keeps (d : Fin 6) (i : Fin 8) (s : State) (hk : s.Kept κ) : OutKept κ (execPartActIdle d i s) := by
  unfold execPartActIdle
  with_reducible repeat' first | assumption | apply Kept.next | apply State.partActAtT_kept

theorem execPartActSleep_keeps (d : Fin 6) (i : Fin 8) (s : State) (hk : s.Kept κ) : OutKept κ (execPartActSleep d i s) := by
  unfold execPartActSleep
  with_reducible repeat' first | assumption | apply Kept.next | apply State.partActAtT_kept

theorem execPartActChannel_keeps (d : Fin 6) (i : Fin 8) (s : State) (hk : s.Kept κ) : OutKept κ (execPartActChannel d i s) := by
  unfold execPartActChannel
  with_reducible repeat' first | assumption | apply Kept.next | apply State.partActAtT_kept

theorem execSoundingStart_keeps (d : Fin 6) (stations : List Nat) (us : Nat) (s : State) (hk : s.Kept κ) : OutKept κ (execSoundingStart d stations us s) := by
  unfold execSoundingStart
  try dsimp only
  with_reducible repeat' first | assumption | apply State.emit_kept | apply State.ppduRequest_kept | apply Kept.next | apply State.onPart_kept | apply State.wr_kept | split

theorem execSoundingFeedback_keeps (d : Fin 6) (sta : Nat) (report : List Byte) (s : State) (hk : s.Kept κ) : OutKept κ
    (execSoundingFeedback d sta report s) := by
  unfold execSoundingFeedback
  with_reducible repeat' first
       | assumption | apply Kept.next | simp only [Kept.upd_iff] | apply State.onPart_kept
       | apply State.dmaRequest_kept | apply State.setFld_kept | apply Mem.wf_setBytes | apply State.Kept.dram (κ := κ) | apply Kept.updDram
       | split

theorem execSoundDone_keeps (d : Fin 6) (s : State) (hk : s.Kept κ) : OutKept κ (execSoundDone d s) := by
  unfold execSoundDone
  try dsimp only
  with_reducible repeat' first
       | assumption | apply Kept.next | apply State.bump_kept | apply State.onPart_kept
       | apply State.raise_kept | apply State.setFld_kept | apply State.sourceEvent_kept | split

theorem execWeightsReady_keeps (d : Fin 6) (stations : List Nat) (s : State) (hk : s.Kept κ) : OutKept κ (execWeightsReady d stations s)
    := by
  unfold execWeightsReady
  try dsimp only
  with_reducible repeat' first
       | assumption | apply Kept.next | apply State.onPart_kept | apply State.showWeights_kept
       | apply State.wr_kept | split

theorem execWeightAgeExpiry_keeps (d : Fin 6) (s : State) (hk : s.Kept κ) : OutKept κ (execWeightAgeExpiry d s) := by
  unfold execWeightAgeExpiry
  with_reducible repeat' first | assumption | apply Kept.next | apply State.onPart_kept | apply State.showWeights_kept

theorem State.accStale_kept (s : State) (n : Nat) (temp : Int) (hk : s.Kept κ) : (State.accStale s n temp).Kept κ := by
  unfold State.accStale
  try dsimp only
  with_reducible repeat' first | assumption | apply State.raise_kept | apply State.setBit_kept | split

end Sys2Proof.Machine
end

