-- ==== Sys2Proof/Laws/KeptBackhaul.lean ====
section
/-!
SUPPORT. What the operations and meanings of Machine/Backhaul.lean keep (see Kept.lean).
-/
namespace Sys2Proof.Machine

variable {κ : Part × Straps × List Instr × Nat}

theorem State.onDir_kept (s : State) (n : Nat) (f : BhDir → BhDir) (hk : s.Kept κ) : (State.onDir s n f).Kept κ := by
  unfold State.onDir
  with_reducible repeat' first | assumption | simp only [Kept.upd_iff]

theorem State.dirEvent_kept (s : State) (n k : Nat) (hk : s.Kept κ) : (State.dirEvent s n k).Kept κ := by
  unfold State.dirEvent
  with_reducible repeat' first | assumption | apply State.raise_kept

theorem State.putTab_kept (s : State) (tab : Nat) (es : List Nat) (hk : s.Kept κ) : (State.putTab s tab es).Kept κ := by
  unfold State.putTab
  with_reducible repeat' first | assumption | apply State.wrArr_kept

theorem State.dirCap_kept (s : State) (n : Nat) (hk : s.Kept κ) : (State.dirCap s n).Kept κ := by
  unfold State.dirCap
  with_reducible repeat' first | assumption | apply State.wr_kept

theorem State.dirShow_kept (s : State) (n : Nat) (hk : s.Kept κ) : (State.dirShow s n).Kept κ := by
  unfold State.dirShow
  with_reducible repeat' first | assumption | apply State.wr_kept

theorem State.setDirState_kept (s : State) (n v : Nat) (hk : s.Kept κ) : (State.setDirState s n v).Kept κ := by
  unfold State.setDirState
  with_reducible repeat' first | assumption | apply State.setFld_kept

theorem State.tmSend_kept (s : State) (n stream design kAt : Nat) (hk : s.Kept κ) : (State.tmSend s n stream design kAt).Kept κ := by
  unfold State.tmSend
  with_reducible repeat' first | assumption | apply State.dirShow_kept | apply State.onDir_kept | apply State.wrArr_kept

theorem execTmSend_keeps (r : Requester) (d : Fin 6) (w : Word) (s : State) (hk : s.Kept κ) : OutKept κ (execTmSend r d w s) := by
  unfold execTmSend
  try dsimp only
  with_reducible repeat' first
       | assumption | intro _ | apply Kept.next | apply State.cmdWrite_kept | apply State.err_kept
       | apply State.tmSend_kept | split

theorem execTmUpdateRx_keeps (dir : Fin 12) (stream : Fin 2) (id k : Nat) (design : Nat) (entries : List Nat) (s : State) (hk : s.Kept κ)
    : OutKept κ (execTmUpdateRx dir stream id k design entries s) := by
  unfold execTmUpdateRx
  try dsimp only
  with_reducible repeat' first | assumption | apply Kept.next | apply State.onDir_kept | apply State.putTab_kept | split

theorem State.setBeams_kept (s : State) (n tx rx : Nat) (hk : s.Kept κ) : (State.setBeams s n tx rx).Kept κ := by
  unfold State.setBeams
  with_reducible repeat' first | assumption | apply State.emit_kept | apply State.setFld_kept | split

theorem State.frameSkip_kept (s : State) (n why : Nat) (hk : s.Kept κ) : (State.frameSkip s n why).Kept κ := by
  unfold State.frameSkip
  with_reducible repeat' first | assumption | apply State.bump_kept | apply State.err_kept

theorem State.frameMark_kept (s : State) (n : Nat) (training : Bool) (hk : s.Kept κ) : (State.frameMark s n training).Kept κ := by
  unfold State.frameMark
  try dsimp only
  with_reducible repeat' first
       | assumption | apply State.onDir_kept | intro _ | apply State.draw_kept | split

theorem State.bhSupplyWarn_kept (s : State) (d : Fin 6) (hk : s.Kept κ) : (State.bhSupplyWarn s d).Kept κ := by
  unfold State.bhSupplyWarn
  try dsimp only
  with_reducible repeat' first
       | assumption | apply State.onDir_kept | apply State.frameSkip_kept | apply State.emit_kept | apply Kept.foldl | intro _ | apply State.draw_kept | split

theorem State.switchMaps_kept (s : State) (n : Nat) (hk : s.Kept κ) : (State.switchMaps s n).Kept κ := by
  unfold State.switchMaps
  try dsimp only
  with_reducible repeat' first
       | assumption | apply Kept.ite | apply State.bump_kept | apply State.dirEvent_kept | apply State.onDir_kept | split

theorem State.sendFrame_kept (s : State) (n skip : Nat) (hk : s.Kept κ) : (State.sendFrame s n skip).Kept κ := by
  unfold State.sendFrame
  try dsimp only
  with_reducible repeat' first
       | assumption | apply State.emit_kept | apply State.onDir_kept | apply State.switchMaps_kept | split

theorem State.searchCycle_kept (s : State) (n : Nat) (hk : s.Kept κ) : (State.searchCycle s n).Kept κ := by
  unfold State.searchCycle
  with_reducible repeat' first
       | assumption | apply State.frameMark_kept | apply State.frameSkip_kept | apply State.emit_kept | apply State.onDir_kept | apply State.setBeams_kept | split

theorem State.enterSearch_kept (s : State) (n : Nat) (hk : s.Kept κ) : (State.enterSearch s n).Kept κ := by
  unfold State.enterSearch
  with_reducible repeat' first
       | assumption | apply State.dirEvent_kept | apply State.onDir_kept | apply State.setDirState_kept

theorem State.cycleSettle_kept (s : State) (n : Nat) (hk : s.Kept κ) : (State.cycleSettle s n).Kept κ := by
  unfold State.cycleSettle
  with_reducible repeat' first | assumption | apply State.enterSearch_kept | apply State.onDir_kept | split

theorem State.gridMark_kept (s : State) (n : Nat) (hk : s.Kept κ) : (State.gridMark s n).Kept κ := by
  unfold State.gridMark
  try dsimp only
  with_reducible repeat' first
       | assumption | apply State.onDir_kept | intro _ | apply State.draw_kept | split

theorem State.headLoop_kept (s : State) (n : Nat) (on : Bool) (hk : s.Kept κ) : (State.headLoop s n on).Kept κ := by
  unfold State.headLoop
  try dsimp only
  with_reducible repeat' first
       | assumption | apply State.setBit_kept | apply State.emit_kept | intro _ | apply State.draw_kept | split

theorem State.bhCalBegin_kept (s : State) (n : Nat) (hk : s.Kept κ) : (State.bhCalBegin s n).Kept κ := by
  unfold State.bhCalBegin
  try dsimp only
  with_reducible repeat' first | assumption | apply State.headLoop_kept | apply State.setBit_kept | apply State.onDir_kept | split

theorem execBhCycleStart_keeps (dir : Fin 12) (s : State) (hk : s.Kept κ) : OutKept κ (execBhCycleStart dir s) := by
  unfold execBhCycleStart
  try dsimp only
  with_reducible repeat' first
       | assumption | apply State.gridMark_kept | apply State.frameMark_kept | apply State.bhCalBegin_kept | apply Kept.next | apply State.cycleSettle_kept | apply State.dirCap_kept
       | apply State.dirShow_kept | apply State.frameSkip_kept | apply State.onDir_kept
       | apply State.searchCycle_kept | apply State.sendFrame_kept | apply State.setBit_kept
       | apply State.wr_kept | split

theorem State.beamTrack_kept (s : State) (n : Nat) (f : BhFrame) (hk : s.Kept κ) : (State.beamTrack s n f).Kept κ := by
  unfold State.beamTrack
  try dsimp only
  with_reducible repeat' first
       | assumption | apply State.onDir_kept | apply State.raise_kept | apply State.setBeams_kept
       | apply State.setFld_kept | split

theorem State.cfo_kept (s : State) (n : Nat) (khz : Int) (hk : s.Kept κ) : (State.cfo s n khz).Kept κ := by
  unfold State.cfo
  with_reducible repeat' first | assumption | apply State.wr_kept

theorem State.searchHeard_kept (s : State) (n : Nat) (f : BhFrame) (hk : s.Kept κ) : (State.searchHeard s n f).Kept κ := by
  unfold State.searchHeard
  try dsimp only
  with_reducible repeat' first | assumption | apply State.onDir_kept | split

theorem State.upHeard_kept (s : State) (n : Nat) (f : BhFrame) (hk : s.Kept κ) : (State.upHeard s n f).Kept κ := by
  unfold State.upHeard
  try dsimp only
  with_reducible repeat' first
       | assumption | apply State.beamTrack_kept | apply State.count_kept | apply State.dirEvent_kept
       | apply State.err_kept | apply State.onDir_kept | split

theorem execBhFrameRx_keeps (dir : Fin 12) (f : BhFrame) (s : State) (hk : s.Kept κ) : OutKept κ (execBhFrameRx dir f s) := by
  unfold execBhFrameRx
  try dsimp only
  with_reducible repeat' first
       | assumption | apply Kept.next | apply State.bump_kept | apply State.cfo_kept | apply State.dirCap_kept
       | apply State.dirEvent_kept | apply State.dirShow_kept | apply State.err_kept | apply State.onDir_kept
       | apply State.searchHeard_kept | apply State.setDirState_kept | apply State.upHeard_kept | split

theorem execBhHealthReport_keeps (dir : Fin 12) (s : State) (hk : s.Kept κ) : OutKept κ (execBhHealthReport dir s) := by
  unfold execBhHealthReport
  try dsimp only
  with_reducible repeat' first | assumption | apply Kept.next | apply State.onDir_kept | apply State.wr_kept | split

theorem execBhLinkLost_keeps (dir : Fin 12) (s : State) (hk : s.Kept κ) : OutKept κ (execBhLinkLost dir s) := by
  unfold execBhLinkLost
  try dsimp only
  with_reducible repeat' first
       | assumption | apply Kept.next | apply State.dirEvent_kept | apply State.setDirState_kept | split

theorem execBhSearchRestart_keeps (dir : Fin 12) (s : State) (hk : s.Kept κ) : OutKept κ (execBhSearchRestart dir s) := by
  unfold execBhSearchRestart
  try dsimp only
  with_reducible repeat' first | assumption | apply Kept.next | apply State.enterSearch_kept | split

theorem execSearchComplete_keeps (dir : Fin 12) (s : State) (hk : s.Kept κ) : OutKept κ (execSearchComplete dir s) := by
  unfold execSearchComplete
  try dsimp only
  with_reducible repeat' first
       | assumption | apply Kept.next | apply State.dirEvent_kept | apply State.dirShow_kept
       | apply State.onDir_kept | apply State.setDirState_kept | split

theorem execNoiseWindowDone_keeps (dir : Fin 12) (snr0 snr1 : List Int) (late0 late1 : Bool) (s : State) (hk : s.Kept κ) : OutKept κ
    (execNoiseWindowDone dir snr0 snr1 late0 late1 s) := by
  unfold execNoiseWindowDone
  try dsimp only
  with_reducible repeat' first
       | assumption | apply Kept.next | apply State.bump_kept | apply State.err_kept | apply State.onDir_kept
       | apply State.sourceEvent_kept | apply State.wrArr_kept | split

theorem State.headCmd_kept (s : State) (r : Requester) (d h : Nat) (w : Word) (act : State → State) (hk : s.Kept κ) (h_act : ∀ t, t.Kept κ
    → (act t).Kept κ) : (State.headCmd s r d h w act).Kept κ := by
  unfold State.headCmd
  with_reducible repeat' first
       | assumption | intro _ | apply h_act | apply State.cmdWrite_kept | apply State.err_kept | split

theorem execHeadWrite_keeps (r : Requester) (d : Fin 6) (h : Fin 2) (w : Word) (s : State) (hk : s.Kept κ) : OutKept κ (execHeadWrite r d
    h w s) := by
  unfold execHeadWrite
  with_reducible repeat' first | assumption | intro _ | apply Kept.next | apply State.emit_kept | apply State.headCmd_kept

theorem execHeadRead_keeps (r : Requester) (d : Fin 6) (h : Fin 2) (w : Word) (data : Half) (s : State) (hk : s.Kept κ) : OutKept κ
    (execHeadRead r d h w data s) := by
  unfold execHeadRead
  with_reducible repeat' first | assumption | intro _ | apply Kept.next | apply State.headCmd_kept | apply State.wr_kept

theorem execHeadAlert_keeps (dir : Fin 12) (s : State) (hk : s.Kept κ) : OutKept κ (execHeadAlert dir s) := by
  unfold execHeadAlert
  try dsimp only
  with_reducible repeat' first
       | assumption | apply Kept.next | apply State.err_kept | apply State.raise_kept | apply State.setBit_kept
       | split

theorem execHeadAlertRelease_keeps (dir : Fin 12) (s : State) (hk : s.Kept κ) : OutKept κ (execHeadAlertRelease dir s) := by
  unfold execHeadAlertRelease
  try dsimp only
  with_reducible repeat' first | assumption | apply Kept.next | apply State.setBit_kept | split

theorem execBhCal_keeps (r : Requester) (d : Fin 6) (w : Word) (s : State) (hk : s.Kept κ) : OutKept κ (execBhCal r d w s) := by
  unfold execBhCal
  try dsimp only
  with_reducible repeat' first
       | assumption | intro _ | apply Kept.next | apply State.cmdWrite_kept | apply State.onDir_kept | split

theorem State.bhCalDone_kept (s : State) (n : Nat) (fails : List CalFail) (hk : s.Kept κ) : (State.bhCalDone s n fails).Kept κ := by
  unfold State.bhCalDone
  with_reducible repeat' first
       | assumption | apply State.headLoop_kept | intro _ | apply State.calTile_kept | apply State.draw_kept | apply State.onDir_kept
       | apply State.raise_kept | apply State.setBit_kept | apply State.setFld_kept | apply State.wr_kept
       | apply Kept.foldl | split

theorem execPartCalDone_keeps (d : Fin 6) (fails : List CalFail) (s : State) (hk : s.Kept κ) : OutKept κ (execPartCalDone d fails s) := by
  unfold execPartCalDone
  with_reducible repeat' first
       | assumption | apply Kept.next | apply State.bhCalDone_kept | apply State.partCalDone_kept | split

theorem State.bhStale_kept (s : State) (d : Nat) (temp : Int) (hk : s.Kept κ) : (State.bhStale s d temp).Kept κ := by
  unfold State.bhStale
  try dsimp only
  with_reducible repeat' first | assumption | apply State.raise_kept | apply State.setBit_kept | split

theorem State.setDirChan_kept (s : State) (n : Nat) (w : Word) (hk : s.Kept κ) : (State.setDirChan s n w).Kept κ := by
  unfold State.setDirChan
  try dsimp only
  with_reducible repeat' first | assumption | apply State.onDir_kept | apply State.wr_kept | split

theorem State.dirEnable_eq {s : State} {n : Nat} {t_ : State} (heq : State.dirEnable s n = some t_) (hk : s.Kept κ) : t_.Kept κ := by
  unfold State.dirEnable at heq
  (try dsimp only at heq)
  (repeat' split at heq) <;> (first | contradiction | (simp only [Option.some.injEq] at heq; subst heq) | skip)
  all_goals
  (with_reducible repeat' first | assumption | simp only [Kept.upd_iff] | apply State.setBit_kept)

theorem State.dirNoFw_kept (s : State) (n : Nat) (hk : s.Kept κ) : (State.dirNoFw s n).Kept κ := by
  unfold State.dirNoFw
  with_reducible repeat' first | assumption | apply State.err_kept

theorem bhPerform_eq {a : PendAct} {s : State} {t_ : State} (heq : bhPerform a s = some t_) (hk : s.Kept κ) : t_.Kept κ := by
  unfold bhPerform at heq
  (try dsimp only at heq)
  (repeat' split at heq) <;> (first | contradiction | (simp only [Option.some.injEq] at heq; subst heq) | skip)
  all_goals
  (with_reducible repeat' first
    | assumption | refine State.dirEnable_eq (by assumption) ?_ | apply State.setBit_kept
    | apply State.setDirChan_kept)

theorem State.bhActAtT_kept (s : State) (d : Fin 6) (i : Fin 8) (k : Nat) (hk : s.Kept κ) : (State.bhActAtT s d i k).Kept κ := by
  unfold State.bhActAtT
  try dsimp only
  with_reducible repeat' first
       | assumption | intro _ | apply State.actAtT_kept | apply State.dirNoFw_kept | apply State.raise_kept
       | refine bhPerform_eq (by assumption) ?_ | split

theorem execBhActChannel_keeps (d : Fin 6) (i : Fin 8) (s : State) (hk : s.Kept κ) : OutKept κ (execBhActChannel d i s) := by
  unfold execBhActChannel
  with_reducible repeat' first | assumption | apply Kept.next | apply State.bhActAtT_kept

theorem execDirOn_keeps (d : Fin 6) (i : Fin 8) (s : State) (hk : s.Kept κ) : OutKept κ (execDirOn d i s) := by
  unfold execDirOn
  with_reducible repeat' first | assumption | apply Kept.next | apply State.bhActAtT_kept

theorem execDirOff_keeps (d : Fin 6) (i : Fin 8) (s : State) (hk : s.Kept κ) : OutKept κ (execDirOff d i s) := by
  unfold execDirOff
  with_reducible repeat' first | assumption | apply Kept.next | apply State.bhActAtT_kept

end Sys2Proof.Machine
end

