-- ==== Sys2Proof/Laws/KeptLamp.lean ====
section
/-!
SUPPORT. What the operations and meanings of Machine/Lamp.lean keep (see Kept.lean).
-/
namespace Sys2Proof.Machine

variable {κ : Part × Straps × List Instr × Nat}

theorem State.setLampOut_kept (s : State) (o : Nat) (x : LampOut) (hk : s.Kept κ) : (State.setLampOut s o x).Kept κ := by
  unfold State.setLampOut
  with_reducible repeat' first | assumption | simp only [Kept.upd_iff]

theorem State.setDali_kept (s : State) (c : Nat) (x : DaliChan) (hk : s.Kept κ) : (State.setDali s c x).Kept κ := by
  unfold State.setDali
  with_reducible repeat' first | assumption | simp only [Kept.upd_iff]

theorem State.showFs_kept (s : State) (hk : s.Kept κ) : (State.showFs s).Kept κ := by
  unfold State.showFs
  with_reducible repeat' first | assumption | apply State.setFld_kept

theorem State.driveLamp_kept (s : State) (o v : Nat) (fade : Bool) (hk : s.Kept κ) : (State.driveLamp s o v fade).Kept κ := by
  unfold State.driveLamp
  with_reducible repeat' first | assumption | apply State.setDali_kept | apply State.setLampOut_kept | split

theorem State.fsOutput_kept (s : State) (o : Nat) (hk : s.Kept κ) : (State.fsOutput s o).Kept κ := by
  unfold State.fsOutput
  try dsimp only
  with_reducible repeat' first
       | assumption | apply State.driveLamp_kept | apply State.logFree_kept | apply State.setBit_kept
       | apply State.setLampOut_kept | split

theorem State.fsBegin_kept (s : State) (cause : Nat) (hk : s.Kept κ) : (State.fsBegin s cause).Kept κ := by
  unfold State.fsBegin
  with_reducible repeat' first
       | assumption | apply State.fsOutput_kept | apply State.healthStep_kept | apply State.raise_kept
       | apply State.setBit_kept | apply State.showFs_kept | apply Kept.foldl

theorem State.fsClear_kept (s : State) (cause : Nat) (hk : s.Kept κ) : (State.fsClear s cause).Kept κ := by
  unfold State.fsClear
  with_reducible repeat' first | assumption | apply State.setBit_kept

theorem State.applyLevel_eq {s t : State} {o v : Nat} (heq : State.applyLevel s o v = some t) (hk : s.Kept κ) : t.Kept κ := by
  unfold State.applyLevel at heq
  split at heq
  · cases heq
  · dsimp only at heq
    simp only [Option.some.injEq] at heq
    subst heq
    (repeat' first
       | with_reducible assumption | intro _ | with_reducible apply Kept.next | with_reducible apply Kept.ite
       | with_reducible apply Kept.iteO | simp only [Kept.upd_iff] | with_reducible exact Kept.fault
       | with_reducible apply State.driveLamp_kept | with_reducible apply State.healthStep_kept
       | with_reducible apply State.raise_kept | with_reducible apply State.setLampOut_kept
       | with_reducible apply State.showFs_kept | with_reducible apply State.wr_kept
       | with_reducible apply Kept.foldl | with_reducible rfl | split)

theorem State.fsDiscard_kept (s : State) (o : Nat) (hk : s.Kept κ) : (State.fsDiscard s o).Kept κ := by
  unfold State.fsDiscard
  with_reducible repeat' first | assumption | apply State.err_kept

theorem State.levelOrDiscard_kept (s : State) (o v : Nat) (hk : s.Kept κ) : (State.levelOrDiscard s o v).Kept κ := by
  unfold State.levelOrDiscard
  cases h : State.applyLevel s o v with
  | none => exact State.fsDiscard_kept _ _ hk
  | some t => exact State.applyLevel_eq h hk

theorem State.lampEnable_kept (s : State) (o : Nat) (was : Bool) (hk : s.Kept κ) : (State.lampEnable s o was).Kept κ := by
  unfold State.lampEnable
  with_reducible repeat' first
       | assumption | apply State.driveLamp_kept | apply State.setBit_kept | apply State.setDali_kept
       | apply State.setLampOut_kept | apply State.wr_kept | split

theorem State.setLampCfg_kept (s : State) (w : Word) (hk : s.Kept κ) : (State.setLampCfg s w).Kept κ := by
  unfold State.setLampCfg
  with_reducible repeat' first
       | assumption | intro _ | apply State.lampEnable_kept | apply State.oscSync_kept | apply State.showFs_kept | apply State.wr_kept
       | apply Kept.foldl

theorem State.failsafeWrite_kept (s : State) (r : Requester) (o : Nat) (w : Word) (hk : s.Kept κ) : (State.failsafeWrite s r o w).Kept κ
    := by
  unfold State.failsafeWrite
  with_reducible repeat' first
       | assumption | intro _ | apply State.guardRange_kept | apply State.guardWrite_kept
       | apply State.setBit_kept | apply State.setLampOut_kept | apply State.wr_kept | split

theorem execFailsafeWrite_keeps (r : Requester) (o : Fin 6) (w : Word) (s : State) (hk : s.Kept κ) : OutKept κ (execFailsafeWrite r o w s)
    := by
  unfold execFailsafeWrite
  with_reducible repeat' first | assumption | apply Kept.next | apply State.failsafeWrite_kept

theorem execFailsafeStoreDone_keeps (o : Fin 6) (s : State) (hk : s.Kept κ) : OutKept κ (execFailsafeStoreDone o s) := by
  unfold execFailsafeStoreDone
  try dsimp only
  with_reducible repeat' first
       | assumption | apply Kept.next | apply State.raise_kept | apply State.setBit_kept
       | apply State.setLampOut_kept | split

theorem State.lampKick_kept (s : State) (r : Requester) (w : Word) (hk : s.Kept κ) : (State.lampKick s r w).Kept κ := by
  unfold State.lampKick
  with_reducible repeat' first
       | assumption | intro _ | simp only [Kept.upd_iff] | apply State.cmdWrite_kept | apply State.err_kept
       | apply State.fsClear_kept | apply State.guardWrite_kept | apply State.wr_kept | split

theorem execLampKick_keeps (r : Requester) (w : Word) (s : State) (hk : s.Kept κ) : OutKept κ (execLampKick r w s) := by
  unfold execLampKick
  with_reducible repeat' first | assumption | apply Kept.next | apply State.lampKick_kept

theorem execHostWdtExpiry_keeps (s : State) (hk : s.Kept κ) : OutKept κ (execHostWdtExpiry s) := by
  unfold execHostWdtExpiry
  with_reducible repeat' first
       | assumption | apply Kept.next | simp only [Kept.upd_iff] | apply State.fsBegin_kept
       | apply State.raise_kept | split

theorem State.fadeStep_kept (s : State) (o : Nat) (hk : s.Kept κ) : (State.fadeStep s o).Kept κ := by
  unfold State.fadeStep
  with_reducible repeat' first
       | assumption | simp only [Kept.upd_iff] | apply State.setBit_kept | apply State.setLampOut_kept
       | apply State.wr_kept | split

theorem State.pwmMark_kept (s : State) (n : Nat) (hk : s.Kept κ) : (State.pwmMark s n).Kept κ := by
  unfold State.pwmMark
  with_reducible repeat' first | assumption | apply State.setLampOut_kept

theorem State.pwmBoundary_kept (s : State) (o : Nat) (hk : s.Kept κ) : (State.pwmBoundary s o).Kept κ := by
  unfold State.pwmBoundary
  try dsimp only
  with_reducible repeat' first
       | assumption | apply State.fadeStep_kept | apply State.setBit_kept | apply State.setLampOut_kept
       | apply State.wr_kept | split

theorem execPwmBoundary_keeps (n : Fin 4) (s : State) (hk : s.Kept κ) : OutKept κ (execPwmBoundary n s) := by
  unfold execPwmBoundary
  with_reducible repeat' first | assumption | apply Kept.next | apply State.oscSync_kept | apply State.pwmBoundary_kept | apply State.pwmMark_kept | split

theorem State.daliNext_kept (s : State) (c : Nat) (hk : s.Kept κ) : (State.daliNext s c).Kept κ := by
  unfold State.daliNext
  try dsimp only
  with_reducible repeat' first | assumption | apply State.emit_kept | apply State.setDali_kept | split

theorem State.daliLevelStart_kept (s : State) (c : Nat) (hk : s.Kept κ) : (State.daliLevelStart s c).Kept κ := by
  unfold State.daliLevelStart
  try dsimp only
  with_reducible repeat' first | assumption | apply State.emit_kept | apply State.setDali_kept | apply State.wr_kept | split

theorem execDaliLevelFrame_keeps (c : Fin 2) (delayed : Bool) (s : State) (hk : s.Kept κ) : OutKept κ (execDaliLevelFrame c delayed s) := by
  unfold execDaliLevelFrame
  with_reducible repeat' first
       | assumption | apply Kept.next | apply State.bump_kept | apply State.daliNext_kept | apply State.daliLevelStart_kept | split

theorem State.daliResult_kept (s : State) (c code back : Nat) (hk : s.Kept κ) : (State.daliResult s c code back).Kept κ := by
  unfold State.daliResult
  with_reducible repeat' first | assumption | apply State.raise_kept | apply State.setDali_kept

theorem execDaliCollision_keeps (c : Fin 2) (s : State) (hk : s.Kept κ) : OutKept κ (execDaliCollision c s) := by
  unfold execDaliCollision
  try dsimp only
  with_reducible repeat' first
       | assumption | apply Kept.next | apply State.bump_kept | apply State.daliNext_kept
       | apply State.daliResult_kept | apply State.err_kept | apply State.setDali_kept | split

theorem execDaliFrameDone_keeps (c : Fin 2) (ans : DaliAnswer) (s : State) (hk : s.Kept κ) : OutKept κ (execDaliFrameDone c ans s) := by
  unfold execDaliFrameDone
  try dsimp only
  with_reducible repeat' first
       | assumption | apply Kept.next | apply State.daliNext_kept | apply State.daliResult_kept
       | apply State.emit_kept | apply State.setDali_kept | split

theorem State.dqPush_kept (s : State) (r : Requester) (c : Nat) (w : Word) (hk : s.Kept κ) : (State.dqPush s r c w).Kept κ := by
  unfold State.dqPush
  try dsimp only
  with_reducible repeat' first
       | assumption | intro _ | apply State.cmdWrite_kept | apply State.daliNext_kept | apply State.err_kept
       | apply State.setDali_kept | split

theorem execDqPush_keeps (r : Requester) (c : Fin 2) (w : Word) (s : State) (hk : s.Kept κ) : OutKept κ (execDqPush r c w s) := by
  unfold execDqPush
  with_reducible repeat' first | assumption | apply Kept.next | apply State.dqPush_kept

theorem State.dqFlush_kept (s : State) (r : Requester) (c : Nat) (hk : s.Kept κ) : (State.dqFlush s r c).Kept κ := by
  unfold State.dqFlush
  try dsimp only
  with_reducible repeat' first
       | assumption | intro _ | apply State.cmdWrite_kept | apply State.raise_kept | apply State.setDali_kept
       | split

theorem execDqFlush_keeps (r : Requester) (c : Fin 2) (_w : Word) (s : State) (hk : s.Kept κ) : OutKept κ (execDqFlush r c _w s) := by
  unfold execDqFlush
  with_reducible repeat' first | assumption | apply Kept.next | apply State.dqFlush_kept

theorem State.dqResRead_kept (s : State) (c : Nat) (hk : s.Kept κ) : (State.dqResRead s c).Kept κ := by
  unfold State.dqResRead
  try dsimp only
  with_reducible repeat' first
       | assumption | apply State.answer_kept | apply State.daliNext_kept | apply State.setDali_kept | split

theorem execDqResRead_keeps (_r : Requester) (c : Fin 2) (s : State) (hk : s.Kept κ) : OutKept κ (execDqResRead _r c s) := by
  unfold execDqResRead
  with_reducible repeat' first
       | assumption | apply Kept.next | apply State.accessOff_kept | apply State.answer_kept
       | apply State.dqResRead_kept | split

theorem execBusDown_keeps (c : Fin 2) (s : State) (hk : s.Kept κ) : OutKept κ (execBusDown c s) := by
  unfold execBusDown
  with_reducible repeat' first | assumption | apply Kept.next | apply State.raise_kept | apply State.setBit_kept

theorem execBusUp_keeps (c : Fin 2) (s : State) (hk : s.Kept κ) : OutKept κ (execBusUp c s) := by
  unfold execBusUp
  with_reducible repeat' first
       | assumption | apply Kept.next | apply State.daliLevelStart_kept | apply State.daliNext_kept
       | apply State.raise_kept | apply State.setBit_kept

theorem lampPerform_eq {a : PendAct} {s t : State} (heq : lampPerform a s = some t) (hk : s.Kept κ) : t.Kept κ := by
  unfold lampPerform at heq
  dsimp only at heq
  split at heq
  · cases heq
  · split at heq
    · simp only [Option.some.injEq] at heq
      subst heq
      (repeat' first
       | with_reducible assumption | intro _ | with_reducible apply Kept.next | with_reducible apply Kept.ite
       | with_reducible apply Kept.iteO | simp only [Kept.upd_iff] | with_reducible exact Kept.fault
       | with_reducible refine State.applyLevel_eq (by assumption) ?_
       | with_reducible apply State.healthStep_kept | with_reducible apply State.raise_kept
       | with_reducible apply State.setDali_kept | with_reducible apply State.setLampOut_kept
       | with_reducible apply State.showFs_kept | with_reducible apply Kept.foldl | with_reducible rfl | split)
    · exact State.applyLevel_eq heq hk

theorem State.lampActAtT_kept (s : State) (i : Fin 8) (kind : Bool) (hk : s.Kept κ) : (State.lampActAtT s i kind).Kept κ := by
  unfold State.lampActAtT
  with_reducible repeat' first
       | assumption | intro _ | apply State.actAtT_kept | apply State.daliNext_kept | apply State.daliLevelStart_kept
       | apply State.fsDiscard_kept | refine lampPerform_eq (by assumption) ?_ | split

theorem execLampActLevel_keeps (i : Fin 8) (s : State) (hk : s.Kept κ) : OutKept κ (execLampActLevel i s) := by
  unfold execLampActLevel
  with_reducible repeat' first | assumption | apply Kept.next | apply State.lampActAtT_kept

theorem execLampActScene_keeps (i : Fin 8) (s : State) (hk : s.Kept κ) : OutKept κ (execLampActScene i s) := by
  unfold execLampActScene
  with_reducible repeat' first | assumption | apply Kept.next | apply State.lampActAtT_kept

end Sys2Proof.Machine
end

