-- ==== Sys2Proof/Laws/KeptSubGhz.lean ====
section
/-!
SUPPORT. What the operations and meanings of Machine/SubGhz.lean keep (see Kept.lean).
-/
namespace Sys2Proof.Machine

variable {κ : Part × Straps × List Instr × Nat}

theorem State.setSg_kept (s : State) (st : Nat) (hk : s.Kept κ) : (State.setSg s st).Kept κ := by
  unfold State.setSg
  with_reducible repeat' first | assumption | apply State.setFld_kept

theorem State.setSgLocked_kept (s : State) (b : Bool) (hk : s.Kept κ) : (State.setSgLocked s b).Kept κ := by
  unfold State.setSgLocked
  with_reducible repeat' first | assumption | apply State.setBit_kept

theorem State.onSub_kept (s : State) (f : Sub → Sub) (hk : s.Kept κ) : (State.onSub s f).Kept κ := by
  unfold State.onSub
  with_reducible repeat' first | assumption | simp only [Kept.upd_iff]

theorem State.sgLock_kept (s : State) (hk : s.Kept κ) : (State.sgLock s).Kept κ := by
  unfold State.sgLock
  try dsimp only
  with_reducible repeat' first
       | assumption | apply State.setSgLocked_kept | apply State.onSub_kept | intro _ | apply State.draw_kept | split

theorem State.sgSettleTo_kept (s : State) (g : SgGoal) (hk : s.Kept κ) : (State.sgSettleTo s g).Kept κ := by
  unfold State.sgSettleTo
  with_reducible repeat' first
       | assumption | apply State.onSub_kept | apply State.oscUser_kept | apply State.setSgLocked_kept
       | apply State.setSg_kept

theorem State.sgToIdle_kept (s : State) (hk : s.Kept κ) : (State.sgToIdle s).Kept κ := by
  unfold State.sgToIdle
  with_reducible repeat' first | assumption | apply State.oscUser_kept | apply State.setSg_kept

theorem State.sgToSleep_kept (s : State) (hk : s.Kept κ) : (State.sgToSleep s).Kept κ := by
  unfold State.sgToSleep
  with_reducible repeat' first
       | assumption | apply State.oscUser_kept | apply State.setSgLocked_kept | apply State.setSg_kept

theorem State.sgToListen_kept (s : State) (hk : s.Kept κ) : (State.sgToListen s).Kept κ := by
  unfold State.sgToListen
  with_reducible repeat' first | assumption | apply State.setSg_kept | apply State.sgSettleTo_kept | split

theorem State.sgReturn_kept (s : State) (code : Nat) (hk : s.Kept κ) : (State.sgReturn s code).Kept κ := by
  unfold State.sgReturn
  with_reducible repeat' first
       | assumption | apply State.sgToIdle_kept | apply State.sgToListen_kept | apply State.sgToSleep_kept
       | split

theorem State.sgTxLead_kept (s : State) (lead : Nat) (t : SgTx) (hk : s.Kept κ) : (State.sgTxLead s lead t).Kept κ := by
  unfold State.sgTxLead
  try dsimp only
  with_reducible repeat' first
       | assumption | apply State.setSg_kept | apply State.onSub_kept | apply State.wr_kept | apply State.emit_kept | intro _ | apply State.draw_kept | split

theorem State.sgTxStart_kept (s : State) (t : SgTx) (hk : s.Kept κ) : (State.sgTxStart s t).Kept κ := by
  unfold State.sgTxStart
  with_reducible repeat' first
       | assumption | apply State.sgTxLead_kept | apply State.emit_kept | apply State.onSub_kept | apply State.setSg_kept
       | apply State.wr_kept | split

theorem State.sgTxWaiting_kept (s : State) (hk : s.Kept κ) : (State.sgTxWaiting s).Kept κ := by
  unfold State.sgTxWaiting
  with_reducible repeat' first | assumption | apply State.sgSettleTo_kept | apply State.sgTxStart_kept | split

theorem State.sgTxRequest_kept (s : State) (t : SgTx) (hk : s.Kept κ) : (State.sgTxRequest s t).Kept κ := by
  unfold State.sgTxRequest
  with_reducible repeat' first
       | assumption | apply State.onSub_kept | apply State.sgSettleTo_kept | apply State.sgTxStart_kept | split

theorem State.sgTxFail_kept (s : State) (outcome code : Nat) (hk : s.Kept κ) : (State.sgTxFail s outcome code).Kept κ := by
  unfold State.sgTxFail
  with_reducible repeat' first
       | assumption | apply State.err_kept | apply State.onSub_kept | apply State.raise_kept
       | apply State.wr_kept | split

theorem State.sgRecord_kept (s : State) (x : SgRx) (outcome : Nat) (e : Option SgRxEnd) (hk : s.Kept κ) : (State.sgRecord s x outcome
    e).Kept κ := by
  unfold State.sgRecord
  try dsimp only
  split
  · (repeat' first
       | with_reducible assumption | intro _ | with_reducible apply Kept.next | with_reducible apply Kept.ite
       | with_reducible apply Kept.iteO | simp only [Kept.upd_iff] | with_reducible exact Kept.fault
       | with_reducible apply State.count_kept | with_reducible apply State.draw_kept
       | with_reducible apply State.raise_kept | with_reducible apply State.setFld_kept
       | with_reducible apply Mem.wf_setBytes | with_reducible apply Mem.wf_setWords
       | with_reducible apply Mem.wf_setWord | with_reducible apply Mem.wf_set
       | with_reducible apply State.Kept.dram (κ := κ) | with_reducible apply State.Kept.esram (κ := κ)
       | with_reducible apply State.Kept.shared (κ := κ) | with_reducible apply Kept.updDram
       | with_reducible apply Kept.updEsram | with_reducible apply Kept.updShared
       | with_reducible apply Kept.foldl | with_reducible rfl | split)
  · apply State.draw_kept _ _ hk
    intro i t ht
    apply State.setFld_kept
    exact Kept.updEsram (Mem.wf_setBytes _ _ _ (Mem.wf_setWords _ _ _ ht.esram)) ht rfl

theorem State.sgDropRx_kept (s : State) (outcome : Nat) (hk : s.Kept κ) : (State.sgDropRx s outcome).Kept κ := by
  unfold State.sgDropRx
  with_reducible repeat' first
       | assumption | apply State.onSub_kept | apply State.setFld_kept | apply State.sgRecord_kept | split

theorem State.sgPreempt_kept (s : State) (hk : s.Kept κ) : (State.sgPreempt s).Kept κ := by
  unfold State.sgPreempt
  with_reducible repeat' first | assumption | apply State.bump_kept | apply State.sgDropRx_kept | split

theorem State.sgNewRx_kept (s : State) (k : Nat) (mode : Word) (synced : Bool) (rssi : Int) (ch1 : Bool) (hk : s.Kept κ) : (State.sgNewRx s k mode synced rssi ch1).Kept κ := by
  unfold State.sgNewRx
  with_reducible repeat' first | assumption | apply State.onSub_kept | apply State.setFld_kept | apply State.setSg_kept

theorem State.sgRetuneChan_kept (s : State) (hk : s.Kept κ) : (State.sgRetuneChan s).Kept κ := by
  unfold State.sgRetuneChan
  with_reducible repeat' first
       | assumption | apply State.onSub_kept | apply State.setSgLocked_kept | apply State.sgPreempt_kept
       | apply State.sgSettleTo_kept | split

theorem State.sgCalStart_kept (s : State) (set : BitVec 7) (hk : s.Kept κ) : (State.sgCalStart s set).Kept κ := by
  unfold State.sgCalStart
  try dsimp only
  with_reducible repeat' first
       | assumption | apply State.emit_kept | apply State.onSub_kept | apply State.oscUser_kept | apply State.setBit_kept
       | apply State.setSg_kept | split

theorem State.sgCalRequest_kept (s : State) (set : BitVec 7) (hk : s.Kept κ) : (State.sgCalRequest s set).Kept κ := by
  unfold State.sgCalRequest
  with_reducible repeat' first
       | assumption | apply State.onSub_kept | apply State.setBit_kept | apply State.sgCalStart_kept | split

theorem State.sgCalRecord_kept (s : State) (set fail : BitVec 7) (hk : s.Kept κ) : (State.sgCalRecord s set fail).Kept κ := by
  unfold State.sgCalRecord
  try dsimp only
  with_reducible repeat' first
       | assumption | apply State.onSub_kept | apply State.setBit_kept | apply State.setFld_kept | apply State.wr_kept | split

theorem State.sgCalCut_kept (s : State) (hk : s.Kept κ) : (State.sgCalCut s).Kept κ := by
  unfold State.sgCalCut
  try dsimp only
  with_reducible repeat' first
       | assumption | apply State.onSub_kept | intro _ | apply State.draw_kept | split

theorem State.sgCalQuit_kept (s : State) (hk : s.Kept κ) : (State.sgCalQuit s).Kept κ := by
  unfold State.sgCalQuit
  try dsimp only
  with_reducible repeat' first
       | assumption | apply State.sgCalRecord_kept | intro _ | apply State.draw_kept | split

theorem State.sgYield_kept (s : State) (hk : s.Kept κ) : (State.sgYield s).Kept κ := by
  unfold State.sgYield
  try dsimp only
  with_reducible repeat' first
       | assumption | apply State.sgPreempt_kept | apply State.sgCalQuit_kept | apply State.sgToIdle_kept | intro _ | apply State.draw_kept | split

theorem State.sgActChan_kept (s : State) (desc : Word) (hk : s.Kept κ) : (State.sgActChan s desc).Kept κ := by
  unfold State.sgActChan
  with_reducible repeat' first | assumption | apply State.setFld_kept | apply State.setSgLocked_kept | split

theorem rfPerform_eq {a : PendAct} {s t : State} (heq : rfPerform a s = some t) (hk : s.Kept κ) : t.Kept κ := by
  unfold rfPerform at heq
  dsimp only at heq
  (repeat' split at heq) <;> first | (cases heq; done) | (simp only [Option.some.injEq] at heq; subst heq)
  all_goals
     (repeat' first
       | with_reducible assumption | intro _ | with_reducible apply Kept.next | with_reducible apply Kept.ite
       | with_reducible apply Kept.iteO | simp only [Kept.upd_iff] | with_reducible exact Kept.fault
       | with_reducible apply State.setFld_kept | with_reducible apply State.sgActChan_kept
       | with_reducible apply State.sgPreempt_kept | with_reducible apply State.sgRetuneChan_kept
       | with_reducible apply State.sgSettleTo_kept | with_reducible apply State.sgToIdle_kept
       | with_reducible apply State.sgToListen_kept | with_reducible apply State.sgToSleep_kept
       | with_reducible apply State.sgYield_kept | with_reducible apply State.sgTxRequest_kept
       | with_reducible apply State.sgTxStart_kept | with_reducible apply Kept.foldl | with_reducible rfl
       | split)

theorem State.sgUnblock_kept (s : State) (hk : s.Kept κ) : (State.sgUnblock s).Kept κ := by
  unfold State.sgUnblock
  with_reducible repeat' first
       | assumption | intro _ | apply State.lateBlocked_kept | apply State.onSub_kept
       | refine rfPerform_eq (by assumption) ?_ | apply Kept.foldl

theorem State.sgRearm_kept (s : State) (i : Fin 8) (hk : s.Kept κ) : (State.sgRearm s i).Kept κ := by
  unfold State.sgRearm
  try dsimp only
  with_reducible repeat' first
       | assumption | refine rfPerform_eq (by assumption) ?_ | apply State.onSub_kept | apply State.armAct_kept | intro _ | apply State.draw_kept | split

theorem State.sgSwitchBack_kept (s : State) (cut : Bool) (hk : s.Kept κ) : (State.sgSwitchBack s cut).Kept κ := by
  unfold State.sgSwitchBack
  try dsimp only
  with_reducible repeat' first
       | assumption | apply State.onSub_kept | intro _ | apply State.draw_kept | split

theorem State.sgTxFinish_kept (s : State) (outcome : Nat) (ret : Nat) (hk : s.Kept κ) : (State.sgTxFinish s outcome ret).Kept κ := by
  unfold State.sgTxFinish
  try dsimp only
  with_reducible repeat' first
       | assumption | apply State.sgRearm_kept | apply State.sgSwitchBack_kept | apply State.sgSettleTo_kept | apply State.sgTxWaiting_kept | intro _ | apply State.armAct_kept | apply State.endAct_kept | apply State.onSub_kept
       | apply State.raise_kept | apply State.setBit_kept | apply State.setFld_kept
       | apply State.setSgLocked_kept | apply State.sgReturn_kept | apply State.sgUnblock_kept
       | refine rfPerform_eq (by assumption) ?_ | split

theorem State.sgDropWait_kept (s : State) (hk : s.Kept κ) : (State.sgDropWait s).Kept κ := by
  unfold State.sgDropWait
  with_reducible repeat' first
       | assumption | apply State.onSub_kept | apply State.raise_kept | apply State.setFld_kept | split

theorem State.sgEnableChange_kept (s : State) (on : Bool) (hk : s.Kept κ) : (State.sgEnableChange s on).Kept κ := by
  unfold State.sgEnableChange
  with_reducible repeat' first
       | assumption | apply State.sgDropWait_kept | apply State.sgTxFinish_kept | apply State.setBit_kept | apply State.onSub_kept | apply State.sgCalStart_kept | apply State.sgDropRx_kept
       | apply State.sgToSleep_kept | split

theorem State.rfCmd_kept (s : State) (r : Requester) (code : Nat) (ok : Nat → Bool) (act : State → State) (hk : s.Kept κ)
    (hf : ∀ t, t.Kept κ → (act t).Kept κ) : (State.rfCmd s r code ok act).Kept κ := by
  unfold State.rfCmd
  apply State.cmdWrite_kept _ _ _ _ hk
  intro t ht
  try dsimp only
  split
  · exact hf _ ht
  · exact State.err_kept _ _ _ _ ht

theorem execRfCmdSleep_keeps (r : Requester) (s : State) (hk : s.Kept κ) : OutKept κ (execRfCmdSleep r s) := by
  unfold execRfCmdSleep
  with_reducible repeat' first | assumption | apply Kept.next | apply State.rfCmd_kept | apply State.sgToSleep_kept

theorem execRfCmdIdle_keeps (r : Requester) (s : State) (hk : s.Kept κ) : OutKept κ (execRfCmdIdle r s) := by
  unfold execRfCmdIdle
  with_reducible repeat' first | assumption | apply Kept.next | apply State.rfCmd_kept | apply State.sgToIdle_kept

theorem execRfCmdListen_keeps (r : Requester) (s : State) (hk : s.Kept κ) : OutKept κ (execRfCmdListen r s) := by
  unfold execRfCmdListen
  with_reducible repeat' first | assumption | apply Kept.next | apply State.rfCmd_kept | apply State.sgToListen_kept

theorem State.txNow_kept (s : State) (r : Requester) (hk : s.Kept κ) : (State.txNow s r).Kept κ := by
  unfold State.txNow
  with_reducible repeat' first
       | assumption | intro _ | apply State.rfCmd_kept | apply State.sgTxRequest_kept | apply State.wr_kept

theorem execTxNow_keeps (r : Requester) (s : State) (hk : s.Kept κ) : OutKept κ (execTxNow r s) := by
  unfold execTxNow
  with_reducible repeat' first | assumption | apply Kept.next | apply State.txNow_kept

theorem State.rfCal_kept (s : State) (r : Requester) (set : BitVec 7) (hk : s.Kept κ) : (State.rfCal s r set).Kept κ := by
  unfold State.rfCal
  with_reducible repeat' first | assumption | intro _ | apply State.rfCmd_kept | apply State.sgCalRequest_kept

theorem execRfCal_keeps (r : Requester) (set : BitVec 7) (s : State) (hk : s.Kept κ) : OutKept κ (execRfCal r set s) := by
  unfold execRfCal
  with_reducible repeat' first | assumption | apply Kept.next | apply State.rfCal_kept

theorem execRfRetune_keeps (r : Requester) (s : State) (hk : s.Kept κ) : OutKept κ (execRfRetune r s) := by
  unfold execRfRetune
  with_reducible repeat' first
       | assumption | intro _ | apply Kept.next | apply State.rfCmd_kept | apply State.sgCalRequest_kept

theorem execRfEd_keeps (r : Requester) (s : State) (hk : s.Kept κ) : OutKept κ (execRfEd r s) := by
  unfold execRfEd
  with_reducible repeat' first
       | assumption | apply State.onSub_kept | intro _ | apply Kept.next | apply State.oscUser_kept | apply State.rfCmd_kept
       | apply State.setBit_kept | apply State.setSg_kept

theorem State.rfAbort_kept (s : State) (r : Requester) (completing : Bool) (hk : s.Kept κ) : (State.rfAbort s r completing).Kept κ := by
  unfold State.rfAbort
  with_reducible repeat' first
       | assumption | apply State.sgCalCut_kept | apply State.sgTxWaiting_kept | intro _ | apply State.onSub_kept | apply State.raise_kept | apply State.rfCmd_kept
       | apply State.setBit_kept | apply State.setFld_kept | apply State.sgDropRx_kept
       | apply State.sgDropWait_kept | apply State.sgToIdle_kept | apply State.sgTxFinish_kept | split

theorem execRfAbort_keeps (r : Requester) (completing : Bool) (s : State) (hk : s.Kept κ) : OutKept κ (execRfAbort r completing s) := by
  unfold execRfAbort
  with_reducible repeat' first | assumption | apply Kept.next | apply State.rfAbort_kept

theorem execTrimClear_keeps (r : Requester) (s : State) (hk : s.Kept κ) : OutKept κ (execTrimClear r s) := by
  unfold execTrimClear
  with_reducible repeat' first
       | assumption | intro _ | apply Kept.next | apply State.onSub_kept | apply State.rfCmd_kept
       | apply State.wr_kept | split

theorem execPreambleDetect_keeps (k : Fin 4) (s : State) (hk : s.Kept κ) : OutKept κ (execPreambleDetect k s) := by
  unfold execPreambleDetect
  with_reducible repeat' first | assumption | apply Kept.next | apply State.sgNewRx_kept | split

theorem execSyncDetect_keeps (k : Fin 4) (rssi : Int) (ch1 : Bool) (s : State) (hk : s.Kept κ) : OutKept κ (execSyncDetect k rssi ch1 s) := by
  unfold execSyncDetect
  with_reducible repeat' first
       | assumption | apply Kept.next | apply State.bump_kept | apply State.onSub_kept
       | apply State.sgNewRx_kept | split

theorem execRxHeader_keeps (h : SgPhr) (s : State) (hk : s.Kept κ) : OutKept κ (execRxHeader h s) := by
  unfold execRxHeader
  with_reducible repeat' first
       | assumption | apply State.sgTxWaiting_kept | apply Kept.next | apply State.bump_kept | apply State.onSub_kept
       | apply State.sgDropRx_kept | apply State.sgToListen_kept | split

theorem execCapture_keeps (k : Fin 4) (rssi : Int) (ch1 : Bool) (octets : Nat) (s : State) (hk : s.Kept κ) : OutKept κ (execCapture k rssi ch1 octets s) :=
    by
  unfold execCapture
  with_reducible repeat' first
       | assumption | apply Kept.next | apply State.bump_kept | apply State.raise_kept
       | apply State.sgDropRx_kept | apply State.sgNewRx_kept | split

theorem State.sgRxDone_kept (s : State) (x : SgRx) (e : SgRxEnd) (hk : s.Kept κ) : (State.sgRxDone s x e).Kept κ := by
  unfold State.sgRxDone
  try dsimp only
  with_reducible repeat' first
       | assumption | apply State.setFld_kept | apply State.onSub_kept | apply State.raise_kept | apply State.sgRecord_kept | intro _ | apply State.draw_kept | split

theorem State.sgTxEnd_kept (s : State) (rl : Nat) (hk : s.Kept κ) : (State.sgTxEnd s rl).Kept κ := by
  unfold State.sgTxEnd
  with_reducible repeat' first
       | assumption | apply State.onSub_kept | apply State.raise_kept | apply State.setBit_kept
       | apply State.setFld_kept | apply State.sgTxFinish_kept | split

theorem execPaProtect_keeps (rl : Nat) (s : State) (hk : s.Kept κ) : OutKept κ (execPaProtect rl s) := by
  unfold execPaProtect
  with_reducible repeat' first
       | assumption | apply Kept.next | apply State.onSub_kept | apply State.raise_kept
       | apply State.sgTxFinish_kept | split

theorem execSgSynthLock_keeps (s : State) (hk : s.Kept κ) : OutKept κ (execSgSynthLock s) := by
  unfold execSgSynthLock
  try dsimp only
  with_reducible repeat' first
       | assumption | apply State.sgLock_kept | apply State.sgTxWaiting_kept | apply Kept.next | apply State.setSgLocked_kept | apply State.setSg_kept
       | apply State.sgToIdle_kept | apply State.sgTxStart_kept | split

theorem execSynthUnlock_keeps (s : State) (hk : s.Kept κ) : OutKept κ (execSynthUnlock s) := by
  unfold execSynthUnlock
  with_reducible repeat' first
       | assumption | apply Kept.next | apply State.err_kept | apply State.raise_kept
       | apply State.setSgLocked_kept | apply State.sgDropRx_kept | apply State.sgReturn_kept
       | apply State.sgTxFinish_kept | split

theorem execTxNoLock_keeps (s : State) (hk : s.Kept κ) : OutKept κ (execTxNoLock s) := by
  unfold execTxNoLock
  with_reducible repeat' first | assumption | apply Kept.next | apply State.sgTxFail_kept | split

theorem execTxSupply_keeps (s : State) (hk : s.Kept κ) : OutKept κ (execTxSupply s) := by
  unfold execTxSupply
  with_reducible repeat' first | assumption | apply Kept.next | apply State.sgTxFail_kept | split

theorem State.sgSupplyWarn_kept (s : State) (hk : s.Kept κ) : (State.sgSupplyWarn s).Kept κ := by
  unfold State.sgSupplyWarn
  with_reducible repeat' first | assumption | apply State.sgTxFinish_kept | split

theorem State.sgSupplyOk_kept (s : State) (hk : s.Kept κ) : (State.sgSupplyOk s).Kept κ := by
  unfold State.sgSupplyOk
  with_reducible repeat' first | assumption | apply State.sgTxWaiting_kept | apply State.sgTxStart_kept | split

theorem execSgCalDone_keeps (fail : BitVec 7) (limit : Bool) (rl : Nat) (s : State) (hk : s.Kept κ) : OutKept κ (execSgCalDone fail limit
    rl s) := by
  unfold execSgCalDone
  try dsimp only
  with_reducible repeat' first
       | assumption | apply State.sgTxWaiting_kept | apply State.sgCalRecord_kept | intro _ | apply Kept.next | apply State.draw_kept | apply State.err_kept
       | apply State.onSub_kept | apply State.raise_kept | apply State.setBit_kept | apply State.setFld_kept
       | apply State.sgSettleTo_kept | apply State.sgToIdle_kept | apply State.sgTxStart_kept
       | apply State.wr_kept | split

theorem State.sgStale_kept (s : State) (temp : Int) (hk : s.Kept κ) : (State.sgStale s temp).Kept κ := by
  unfold State.sgStale
  with_reducible repeat' first | assumption | apply State.raise_kept | apply State.setBit_kept | split

theorem execSgCalDeferredStart_keeps (s : State) (hk : s.Kept κ) : OutKept κ (execSgCalDeferredStart s) := by
  unfold execSgCalDeferredStart
  with_reducible repeat' first | assumption | apply Kept.next | apply State.sgCalStart_kept | split

theorem execAutoRetune_keeps (s : State) (hk : s.Kept κ) : OutKept κ (execAutoRetune s) := by
  unfold execAutoRetune
  with_reducible repeat' first | assumption | apply Kept.next | apply State.onSub_kept | apply State.sgCalStart_kept | split

theorem execEdDone_keeps (level : Int) (s : State) (hk : s.Kept κ) : OutKept κ (execEdDone level s) := by
  unfold execEdDone
  with_reducible repeat' first
       | assumption | apply State.sgTxWaiting_kept | apply Kept.next | apply State.raise_kept | apply State.sgToIdle_kept
       | apply State.wr_kept | split

theorem execAfcTrimUpdate_keeps (s : State) (hk : s.Kept κ) : OutKept κ (execAfcTrimUpdate s) := by
  unfold execAfcTrimUpdate
  with_reducible repeat' first | assumption | apply Kept.next | apply State.onSub_kept | apply State.wr_kept | split

theorem State.sgPrepare_kept (s : State) (i : Fin 8) (a : PendAct) (hk : s.Kept κ) : (State.sgPrepare s i a).Kept κ := by
  unfold State.sgPrepare
  try dsimp only
  with_reducible repeat' first
       | assumption | apply State.sgYield_kept | apply State.endAct_kept | apply State.onSub_kept | apply State.sgActChan_kept
       | apply State.sgPreempt_kept | apply State.sgSettleTo_kept | apply State.sgToIdle_kept
       | apply State.sgToListen_kept | split

theorem State.letGo_kept (s : State) (i : Fin 8) (hk : s.Kept κ) : (State.letGo s i).Kept κ := by
  unfold State.letGo
  try dsimp only
  with_reducible repeat' first
       | assumption | apply State.onSub_kept | apply State.sgTxWaiting_kept | intro _ | apply State.draw_kept | split

theorem execRfActTx_keeps (i : Fin 8) (s : State) (hk : s.Kept κ) : OutKept κ (execRfActTx i s) := by
  unfold execRfActTx
  with_reducible repeat' first
       | assumption | apply State.sgRearm_kept | apply State.sgTxLead_kept | apply State.sgTxWaiting_kept | apply Kept.next | simp only [Kept.upd_iff] | apply State.endAct_kept
       | apply State.onSub_kept | apply State.setBit_kept | apply State.sgTxStart_kept | split

theorem State.rfActAtT_kept (s : State) (i : Fin 8) (k : Nat) (hk : s.Kept κ) : (State.rfActAtT s i k).Kept κ := by
  unfold State.rfActAtT
  with_reducible repeat' first
       | assumption | intro _ | apply State.actAtT_kept | apply State.onSub_kept
       | refine rfPerform_eq (by assumption) ?_ | split

theorem execRfActListen_keeps (i : Fin 8) (s : State) (hk : s.Kept κ) : OutKept κ (execRfActListen i s) := by
  unfold execRfActListen
  with_reducible repeat' first | assumption | apply Kept.next | apply State.rfActAtT_kept

theorem execRfActIdle_keeps (i : Fin 8) (s : State) (hk : s.Kept κ) : OutKept κ (execRfActIdle i s) := by
  unfold execRfActIdle
  with_reducible repeat' first | assumption | apply Kept.next | apply State.rfActAtT_kept

theorem execRfActSleep_keeps (i : Fin 8) (s : State) (hk : s.Kept κ) : OutKept κ (execRfActSleep i s) := by
  unfold execRfActSleep
  with_reducible repeat' first | assumption | apply Kept.next | apply State.rfActAtT_kept

theorem execRfActChannel_keeps (i : Fin 8) (s : State) (hk : s.Kept κ) : OutKept κ (execRfActChannel i s) := by
  unfold execRfActChannel
  with_reducible repeat' first | assumption | apply Kept.next | apply State.rfActAtT_kept

end Sys2Proof.Machine
end

