-- ==== Sys2Proof/Laws/KeptTimeCore.lean ====
section
/-!
SUPPORT. What the operations and meanings of Machine/TimeCore.lean keep (see Kept.lean).
-/
namespace Sys2Proof.Machine

variable {κ : Part × Straps × List Instr × Nat}

theorem State.onKeeper_kept (s : State) (n : Bool) (f : Keeper → Keeper) (hk : s.Kept κ) : (State.onKeeper s n f).Kept κ := by
  unfold State.onKeeper
  with_reducible repeat' first | assumption | simp only [Kept.upd_iff] | split

theorem State.setQual_kept (s : State) (n : Bool) (q : Nat) (hk : s.Kept κ) : (State.setQual s n q).Kept κ := by
  unfold State.setQual
  with_reducible repeat' first
       | assumption | simp only [Kept.upd_iff] | apply State.healthStep_kept | apply State.onKeeper_kept
       | apply State.raise_kept | apply State.setFld_kept | split

theorem State.nameStep_kept (s : State) (delta : Int) (advance : Bool) (hk : s.Kept κ) : (State.nameStep s delta advance).Kept κ := by
  unfold State.nameStep
  with_reducible repeat' first | assumption | simp only [Kept.upd_iff] | apply State.emit_kept

theorem State.onGroups_kept (s : State) (f : Group → Group) (hk : s.Kept κ) : (State.onGroups s f).Kept κ := by
  unfold State.onGroups
  with_reducible repeat' first | assumption | simp only [Kept.upd_iff]

theorem State.freezeAll_kept (s : State) (hk : s.Kept κ) : (State.freezeAll s).Kept κ := by
  unfold State.freezeAll
  with_reducible repeat' first
       | assumption | intro _ | apply State.onGroups_kept | apply State.setFld_kept | apply Kept.foldl

theorem State.declareStep_kept (s : State) (n : Bool) (src : Nat) (ofs : Int) (hk : s.Kept κ) : (State.declareStep s n src ofs).Kept κ := by
  unfold State.declareStep
  with_reducible repeat' first
       | assumption | apply State.freezeAll_kept | apply State.logFree_kept | apply State.onKeeper_kept
       | apply State.raise_kept | apply State.setBit_kept | apply State.setQual_kept | apply State.wrs_kept

theorem State.adopt_kept (s : State) (n : Bool) (ofs : Int) (hk : s.Kept κ) : (State.adopt s n ofs).Kept κ := by
  unfold State.adopt
  with_reducible repeat' first | assumption | apply State.nameStep_kept | apply State.setQual_kept

theorem State.farOffset_kept (s : State) (n : Bool) (src : Nat) (ofs : Int) (first : Bool) (hk : s.Kept κ) : (State.farOffset s n src ofs
    first).Kept κ := by
  unfold State.farOffset
  try dsimp only
  with_reducible repeat' first
       | assumption | apply State.adopt_kept | apply State.declareStep_kept | apply State.onKeeper_kept | split

theorem execStepInstant_keeps (s : State) (hk : s.Kept κ) : OutKept κ (execStepInstant s) := by
  unfold execStepInstant
  with_reducible repeat' first
       | assumption | apply State.twtLost_kept | apply Kept.next | simp only [Kept.upd_iff] | apply State.onGroups_kept
       | apply State.raise_kept | split

theorem State.reselect_kept (s : State) (hk : s.Kept κ) : (State.reselect s).Kept κ := by
  unfold State.reselect
  try dsimp only
  with_reducible repeat' first
       | assumption | simp only [Kept.upd_iff] | apply State.onKeeper_kept | apply State.raise_kept | apply State.setFld_kept
       | apply State.setQual_kept | split

theorem State.noteSource_kept (s : State) (r : SrcRec) (hk : s.Kept κ) : (State.noteSource s r).Kept κ := by
  unfold State.noteSource
  with_reducible repeat' first | assumption | apply State.onKeeper_kept

theorem State.servo_kept (s : State) (n : Bool) (ofs : Int) (hk : s.Kept κ) : (State.servo s n ofs).Kept κ := by
  unfold State.servo
  with_reducible repeat' first | assumption | simp only [Kept.upd_iff] | apply State.wr_kept | split

theorem State.countLock_kept (s : State) (src : Nat) (ofs : Int) (hk : s.Kept κ) : (State.countLock s src ofs).Kept κ := by
  unfold State.countLock
  try dsimp only
  with_reducible repeat' first | assumption | apply State.onKeeper_kept | apply State.setQual_kept | split

theorem State.dropOutlier_kept (s : State) (ofs : Int) (hk : s.Kept κ) : (State.dropOutlier s ofs).Kept κ := by
  unfold State.dropOutlier
  try dsimp only
  with_reducible repeat' first
       | assumption | apply State.wr_kept | apply State.onKeeper_kept | apply State.count_kept | intro _ | apply State.draw_kept | split

theorem State.judgeOffset_kept (s : State) (src : Nat) (ofs : Int) (hk : s.Kept κ) : (State.judgeOffset s src ofs).Kept κ := by
  unfold State.judgeOffset
  try dsimp only
  with_reducible repeat' first
       | assumption | apply State.countLock_kept | apply State.count_kept | apply State.farOffset_kept
       | apply State.onKeeper_kept | apply State.servo_kept | apply State.setQual_kept | apply State.wr_kept
       | split

theorem State.rtcJudge_kept (s : State) (hk : s.Kept κ) : (State.rtcJudge s).Kept κ := by
  unfold State.rtcJudge
  with_reducible repeat' first | assumption | apply State.setFld_kept | apply State.setQual_kept | split

theorem State.rtcCorrect_kept (s : State) (ofs : Int) (hk : s.Kept κ) : (State.rtcCorrect s ofs).Kept κ := by
  unfold State.rtcCorrect
  try dsimp only
  with_reducible repeat' first
       | assumption | apply State.farOffset_kept | apply State.onKeeper_kept | apply State.rtcJudge_kept
       | apply State.servo_kept | apply State.setBit_kept | split

theorem State.noteOffset_kept (s : State) (src : Nat) (m : TimeMeas) (ofs : Int) (hk : s.Kept κ) : (State.noteOffset s src m ofs).Kept κ
    := by
  unfold State.noteOffset
  with_reducible repeat' first | assumption | apply State.wrs_kept | split

theorem State.unrefuse_kept (s : State) (src : Nat) (hk : s.Kept κ) : (State.unrefuse s src).Kept κ := by
  unfold State.unrefuse
  try dsimp only
  with_reducible repeat' first
       | assumption | apply State.onKeeper_kept | apply State.setBit_kept | intro _ | apply State.draw_kept | split

theorem State.ntuMeasure_kept (s : State) (src : Nat) (ofs : Int) (gmRank steps : Nat) (locked arb : Bool) (utc : Int) (hk : s.Kept κ) :
    (State.ntuMeasure s src ofs gmRank steps locked arb utc).Kept κ := by
  unfold State.ntuMeasure
  try dsimp only
  with_reducible repeat' first
       | assumption | apply State.dropOutlier_kept | apply State.unrefuse_kept | apply State.judgeOffset_kept | apply State.noteSource_kept | apply State.onKeeper_kept
       | apply State.reselect_kept | apply State.setBit_kept | apply State.setFld_kept | apply State.wr_kept
       | split

theorem State.measure_kept (s : State) (src : Nat) (ofs : Int) (gmRank steps : Nat) (locked arb : Bool) (utc : Int) (hk : s.Kept κ) :
    (State.measure s src ofs gmRank steps locked arb utc).Kept κ := by
  unfold State.measure
  with_reducible repeat' first | assumption | apply State.ntuMeasure_kept | apply State.rtcCorrect_kept | split

theorem execTimeMeasurement_keeps (src : Fin 14) (m : TimeMeas) (s : State) (hk : s.Kept κ) : OutKept κ (execTimeMeasurement src m s) := by
  unfold execTimeMeasurement
  with_reducible repeat' first
       | assumption | apply Kept.next | apply State.measure_kept | apply State.noteOffset_kept | split

theorem execSrcLost_keeps (src : Fin 14) (s : State) (hk : s.Kept κ) : OutKept κ (execSrcLost src s) := by
  unfold execSrcLost
  try dsimp only
  with_reducible repeat' first
       | assumption | apply Kept.next | apply State.err_kept | apply State.onKeeper_kept
       | apply State.raise_kept | apply State.reselect_kept | split

theorem execELockAgeExpiry_keeps (s : State) (hk : s.Kept κ) : OutKept κ (execELockAgeExpiry s) := by
  unfold execELockAgeExpiry
  with_reducible repeat' first | assumption | apply Kept.next | apply State.rtcJudge_kept

theorem State.correctDie_kept (s : State) (die : Die) (hk : s.Kept κ) : (State.correctDie s die).Kept κ := by
  unfold State.correctDie
  with_reducible repeat' first | assumption | simp only [Kept.upd_iff]

theorem execDieTimeCorrection_keeps (die : Die) (s : State) (hk : s.Kept κ) : OutKept κ (execDieTimeCorrection die s) := by
  unfold execDieTimeCorrection
  with_reducible repeat' first | assumption | apply Kept.next | apply State.correctDie_kept | split

theorem execPtpFrameRx_keeps (port : Fin 3) (ptp wellFormed : Bool) (s : State) (hk : s.Kept κ) : OutKept κ (execPtpFrameRx port ptp
    wellFormed s) := by
  unfold execPtpFrameRx
  with_reducible repeat' first | assumption | apply Kept.next | apply State.emit_kept | apply State.err_kept | split

theorem execPtpEventTx_keeps (port : Fin 3) (sync : Bool) (s : State) (hk : s.Kept κ) : OutKept κ (execPtpEventTx port sync s) := by
  unfold execPtpEventTx
  with_reducible repeat' first | assumption | apply Kept.next | apply State.emit_kept | split

theorem State.snap_kept (s : State) (n : Bool) (hk : s.Kept κ) : (State.snap s n).Kept κ := by
  unfold State.snap
  with_reducible repeat' first | assumption | apply State.wrArr_kept

theorem State.timeSnap_kept (s : State) (r : Requester) (n : Bool) (w : Word) (hk : s.Kept κ) : (State.timeSnap s r n w).Kept κ := by
  unfold State.timeSnap
  with_reducible repeat' first | assumption | intro _ | apply State.cmdWrite_kept | apply State.snap_kept | split

theorem execTimeSnap_keeps (r : Requester) (w : Word) (s : State) (hk : s.Kept κ) : OutKept κ (execTimeSnap r w s) := by
  unfold execTimeSnap
  with_reducible repeat' first | assumption | apply Kept.next | apply State.timeSnap_kept

theorem execETimeSnap_keeps (r : Requester) (w : Word) (s : State) (hk : s.Kept κ) : OutKept κ (execETimeSnap r w s) := by
  unfold execETimeSnap
  with_reducible repeat' first | assumption | apply Kept.next | apply State.timeSnap_kept

end Sys2Proof.Machine
end

