-- ==== Sys2Proof/Laws/KeptMesh.lean ====
section
/-!
SUPPORT. What the operations and meanings of Machine/Mesh.lean keep (see Kept.lean).
-/
namespace Sys2Proof.Machine

variable {κ : Part × Straps × List Instr × Nat}

theorem State.onMesh_kept (s : State) (f : Mesh → Mesh) (hk : s.Kept κ) : (State.onMesh s f).Kept κ := by
  unfold State.onMesh
  with_reducible repeat' first | assumption | simp only [Kept.upd_iff]

theorem State.setParentState_kept (s : State) (v : Nat) (hk : s.Kept κ) : (State.setParentState s v).Kept κ := by
  unfold State.setParentState
  with_reducible repeat' first | assumption | apply State.setFld_kept

theorem State.meshShow_kept (s : State) (hk : s.Kept κ) : (State.meshShow s).Kept κ := by
  unfold State.meshShow
  with_reducible repeat' first | assumption | apply State.wrs_kept

theorem State.macKick_kept (s : State) (hk : s.Kept κ) : (State.macKick s).Kept κ := by
  unfold State.macKick
  with_reducible repeat' first | assumption | apply State.onMesh_kept | split

theorem State.macQueue_kept (s : State) (t : MacTx) (hk : s.Kept κ) : (State.macQueue s t).Kept κ := by
  unfold State.macQueue
  with_reducible repeat' first | assumption | apply State.macKick_kept | apply State.onMesh_kept

theorem State.macQueueFirst_kept (s : State) (t : MacTx) (hk : s.Kept κ) : (State.macQueueFirst s t).Kept κ := by
  unfold State.macQueueFirst
  with_reducible repeat' first | assumption | apply State.macKick_kept | apply State.onMesh_kept

theorem State.txrComplete_kept (s : State) (d result retries : Nat) (hk : s.Kept κ) : (State.txrComplete s d result retries).Kept κ := by
  unfold State.txrComplete
  with_reducible repeat' first
       | assumption | simp only [Kept.upd_iff] | apply State.raise_kept | apply Mem.wf_setWord
       | apply State.Kept.esram (κ := κ) | apply Kept.updEsram

theorem State.txError_kept (s : State) (result info : Nat) (hk : s.Kept κ) : (State.txError s result info).Kept κ := by
  unfold State.txError
  with_reducible repeat' first | assumption | apply State.err_kept | apply State.raise_kept | split

theorem State.macEnd_kept (s : State) (result : Nat) (hk : s.Kept κ) : (State.macEnd s result).Kept κ := by
  unfold State.macEnd
  with_reducible repeat' first
       | assumption | apply State.macKick_kept | apply State.meshShow_kept | apply State.onMesh_kept
       | apply State.txrComplete_kept | split

theorem State.setCounter_kept (s : State) (c : FrameCounter) (hk : s.Kept κ) : (State.setCounter s c).Kept κ := by
  unfold State.setCounter
  with_reducible repeat' first | assumption | apply State.onMesh_kept

theorem State.sealFrame_eq {s : State} {x_} {t_ : State} (heq : State.sealFrame s = (x_, t_)) (hk : s.Kept κ) : t_.Kept κ := by
  unfold State.sealFrame at heq
  (try dsimp only at heq)
  (repeat' split at heq) <;> (first | cases heq | skip)
  all_goals
  (with_reducible repeat' first
    | assumption | apply State.raise_kept | apply State.meshShow_kept | apply State.onMesh_kept | apply State.setCounter_kept)

theorem State.sealFrame_snd_kept (s : State) (hk : s.Kept κ) : (State.sealFrame s).2.Kept κ := State.sealFrame_eq (by rfl) hk

theorem State.putPsdu_kept (s : State) (addr : Nat) (psdu : List Byte) (hk : s.Kept κ) : (State.putPsdu s addr psdu).Kept κ :=
  Kept.setEsram (Mem.wf_setBytes _ _ _ hk.esram) hk

theorem State.macAir_kept (s : State) (t : MacTx) (q : List MacTx) (hk : s.Kept κ) : (State.macAir s t q).Kept κ := by
  unfold State.macAir
  with_reducible repeat' first | assumption | apply State.sgTxRequest_kept | apply State.emit_kept | apply State.onMesh_kept

theorem State.macSend_kept (s : State) (hk : s.Kept κ) : (State.macSend s).Kept κ := by
  unfold State.macSend
  with_reducible repeat' first
       | assumption | intro _ | apply State.draw_kept | apply State.macAir_kept | apply State.putPsdu_kept | apply State.macEnd_kept
       | apply State.onMesh_kept | refine State.sealFrame_eq (by assumption) ?_ | apply State.txError_kept | split

theorem execCsmaBackoffEnd_keeps (energy : Int) (s : State) (hk : s.Kept κ) : OutKept κ (execCsmaBackoffEnd energy s) := by
  unfold execCsmaBackoffEnd
  with_reducible repeat' first
       | assumption | apply Kept.next | apply State.macEnd_kept | apply State.macSend_kept
       | apply State.onMesh_kept | split

theorem State.macTxEnd_kept (s : State) (hk : s.Kept κ) : (State.macTxEnd s).Kept κ := by
  unfold State.macTxEnd
  with_reducible repeat' first | assumption | apply State.macEnd_kept | apply State.onMesh_kept | split

theorem execSgTxEnd_keeps (rl : Nat) (s : State) (hk : s.Kept κ) : OutKept κ (execSgTxEnd rl s) := by
  unfold execSgTxEnd
  with_reducible repeat' first | assumption | apply Kept.next | apply State.macTxEnd_kept | apply State.sgTxEnd_kept | split

theorem execMacAckRx_keeps (dsn : Nat) (s : State) (hk : s.Kept κ) : OutKept κ (execMacAckRx dsn s) := by
  unfold execMacAckRx
  with_reducible repeat' first | assumption | apply Kept.next | apply State.macEnd_kept | split

theorem execAckTimeout_keeps (s : State) (hk : s.Kept κ) : OutKept κ (execAckTimeout s) := by
  unfold execAckTimeout
  try dsimp only
  with_reducible repeat' first
       | assumption | apply Kept.next | apply State.macEnd_kept | apply State.onMesh_kept
       | apply State.txError_kept | split

theorem State.hostFrame_kept (s : State) (h : MeshHdr) (hop : Nat) (rssi : Int) (hk : s.Kept κ) : (State.hostFrame s h hop rssi).Kept κ :=
    by
  unfold State.hostFrame
  with_reducible repeat' first
       | assumption | intro _ | apply Kept.ite | simp only [Kept.upd_iff] | apply State.count_kept
       | apply State.draw_kept | apply State.raise_kept | apply State.setFld_kept | apply Mem.wf_setBytes
       | apply Mem.wf_setWords | apply State.Kept.esram (κ := κ) | apply Kept.updEsram

theorem State.indQueue_eq {s : State} {c : MeshChild} {h : MeshHdr} {desc : Option Nat} {t_ : State} (heq : State.indQueue s c h desc =
    .ok t_) (hk : s.Kept κ) : t_.Kept κ := by
  unfold State.indQueue at heq
  (try dsimp only at heq)
  (repeat' split at heq) <;> (first | cases heq | skip)
  all_goals
  (with_reducible repeat' first | assumption | apply State.meshShow_kept | apply State.onMesh_kept)

theorem State.indRefused_kept (s : State) (result len : Nat) (hk : s.Kept κ) : (State.indRefused s result len).Kept κ := by
  unfold State.indRefused
  with_reducible repeat' first
       | assumption | apply State.bump_kept | apply State.raise_kept | apply State.txError_kept | split

theorem State.indFlood_kept (s : State) (h : MeshHdr) (hk : s.Kept κ) : (State.indFlood s h).Kept κ := by
  unfold State.indFlood
  try dsimp only
  with_reducible repeat' first
       | assumption | apply State.indRefused_kept | apply State.meshShow_kept | apply State.onMesh_kept | split

theorem State.hear_kept (s : State) (c : Nat) (hk : s.Kept κ) : (State.hear s c).Kept κ := by
  unfold State.hear
  with_reducible repeat' first | assumption | apply State.onMesh_kept

theorem execRxFrameEnd_keeps (e : SgRxEnd) (s : State) (hk : s.Kept κ) : OutKept κ (execRxFrameEnd e s) := by
  unfold execRxFrameEnd
  with_reducible repeat' first
       | assumption | apply State.hear_kept | apply State.sgRxDone_kept | apply State.onMesh_kept | apply State.sgTxWaiting_kept | apply Kept.next | apply State.onSub_kept | apply State.raise_kept
       | apply State.setFld_kept | apply State.setSg_kept | apply State.sgRecord_kept
       | apply State.sgReturn_kept | split

theorem execMacAckTx_keeps (s : State) (hk : s.Kept κ) : OutKept κ (execMacAckTx s) := by
  unfold execMacAckTx
  with_reducible repeat' first
       | assumption | apply State.sgToIdle_kept | apply State.sgTxRequest_kept | apply Kept.next | apply State.emit_kept | apply State.hear_kept | apply State.onMesh_kept
       | apply State.onSub_kept | apply State.sgTxStart_kept | split

theorem execIndirectSend_keeps (s : State) (hk : s.Kept κ) : OutKept κ (execIndirectSend s) := by
  unfold execIndirectSend
  try dsimp only
  with_reducible repeat' first
       | assumption | apply Kept.next | apply State.macQueueFirst_kept | apply State.onMesh_kept | split

theorem State.indExpire_kept (s : State) (e : IndEntry) (hk : s.Kept κ) : (State.indExpire s e).Kept κ := by
  unfold State.indExpire
  with_reducible repeat' first
       | assumption | apply State.bump_kept | apply State.meshShow_kept | apply State.onMesh_kept
       | apply State.txrComplete_kept | split

theorem execIndirectExpiry_keeps (id : Nat) (s : State) (hk : s.Kept κ) : OutKept κ (execIndirectExpiry id s) := by
  unfold execIndirectExpiry
  with_reducible repeat' first | assumption | apply Kept.next | apply State.indExpire_kept | split

theorem execFloodEntryExpiry_keeps (id : Nat) (s : State) (hk : s.Kept κ) : OutKept κ (execFloodEntryExpiry id s) := by
  unfold execFloodEntryExpiry
  with_reducible repeat' first | assumption | apply Kept.next | apply State.meshShow_kept | apply State.onMesh_kept | split

theorem State.dropChild_kept (s : State) (c : Nat) (hk : s.Kept κ) : (State.dropChild s c).Kept κ := by
  unfold State.dropChild
  with_reducible repeat' first
       | assumption | apply State.indExpire_kept | apply State.meshShow_kept | apply State.onMesh_kept
       | apply Kept.foldl

theorem execChildTimeout_keeps (short : Nat) (s : State) (hk : s.Kept κ) : OutKept κ (execChildTimeout short s) := by
  unfold execChildTimeout
  with_reducible repeat' first | assumption | apply Kept.next | apply State.dropChild_kept | apply State.raise_kept | split

theorem State.replayStore_kept (s : State) (f : MacHdr) (eui : Nat) (hk : s.Kept κ) : (State.replayStore s f eui).Kept κ := by
  unfold State.replayStore
  with_reducible repeat' first
       | assumption | apply State.err_kept | apply State.meshShow_kept | apply State.onMesh_kept
       | apply State.raise_kept | split

theorem execMeshFrameRx_keeps (f : MeshSec) (s : State) (hk : s.Kept κ) : OutKept κ (execMeshFrameRx f s) := by
  unfold execMeshFrameRx
  try dsimp only
  with_reducible repeat' first
       | assumption | apply Kept.next | apply State.bump_kept | apply State.count_kept | apply State.err_kept
       | apply State.onMesh_kept | apply State.replayStore_kept | split

theorem State.takeAuth_eq {s : State} {x : MeshAuth} {t : State} (heq : State.takeAuth s = some (x, t)) (hk : s.Kept κ) : t.Kept κ := by
  unfold State.takeAuth at heq
  cases h : s.mesh.auth with
  | none => rw [h] at heq; cases heq
  | some a =>
    rw [h] at heq; cases heq
    (repeat' first
       | with_reducible assumption | intro _ | with_reducible apply Kept.next | with_reducible apply Kept.ite
       | with_reducible apply Kept.iteO | simp only [Kept.upd_iff] | with_reducible exact Kept.fault
       | with_reducible apply State.onMesh_kept | with_reducible apply Kept.foldl | with_reducible rfl | split)

theorem State.routeSet_kept (s : State) (a nbr : Nat) (hk : s.Kept κ) : (State.routeSet s a nbr).Kept κ := by
  unfold State.routeSet
  with_reducible repeat' first | assumption | apply State.onMesh_kept | split

theorem State.forward_kept (s : State) (h : MeshHdr) (hk : s.Kept κ) : (State.forward s h).Kept κ := by
  unfold State.forward
  with_reducible repeat' first | assumption | apply State.err_kept | apply State.macQueue_kept | split

theorem execMeshDataRx_keeps (h : MeshHdr) (rssi : Int) (s : State) (hk : s.Kept κ) : OutKept κ (execMeshDataRx h rssi s) := by
  unfold execMeshDataRx
  try dsimp only
  with_reducible repeat' first
       | assumption | apply Kept.next | apply State.emit_kept | apply State.err_kept | apply State.forward_kept
       | apply State.hostFrame_kept | refine State.indQueue_eq (by assumption) ?_ | apply State.indRefused_kept
       | apply State.routeSet_kept | refine State.takeAuth_eq (by assumption) ?_ | split

theorem State.seenInsert_kept (s : State) (origin mseq stamp : Nat) (hk : s.Kept κ) : (State.seenInsert s origin mseq stamp).Kept κ := by
  unfold State.seenInsert
  try dsimp only
  with_reducible repeat' first
       | assumption | apply State.meshShow_kept | apply State.onMesh_kept | apply State.raise_kept | split

theorem execFloodRx_keeps (h : MeshHdr) (rssi : Int) (s : State) (hk : s.Kept κ) : OutKept κ (execFloodRx h rssi s) := by
  unfold execFloodRx
  try dsimp only
  with_reducible repeat' first
       | assumption | intro _ | apply State.draw_kept | apply Kept.next | apply State.bump_kept | apply State.hostFrame_kept
       | apply State.indFlood_kept | apply State.onMesh_kept | apply State.seenInsert_kept
       | refine State.takeAuth_eq (by assumption) ?_ | split

theorem execFloodRebroadcast_keeps (origin mseq : Nat) (s : State) (hk : s.Kept κ) : OutKept κ (execFloodRebroadcast origin mseq s) := by
  unfold execFloodRebroadcast
  with_reducible repeat' first
       | assumption | apply Kept.next | apply State.bump_kept | apply State.macQueue_kept
       | apply State.onMesh_kept | split

theorem State.hostFlood_kept (s : State) (d ttl : Nat) (ext : Bool) (payload : List Byte) (hk : s.Kept κ) : (State.hostFlood s d ttl ext
    payload).Kept κ := by
  unfold State.hostFlood
  with_reducible repeat' first
       | assumption | apply Kept.ite | simp only [Kept.upd_iff] | apply State.indFlood_kept
       | apply State.macQueue_kept | apply State.onMesh_kept | apply State.seenInsert_kept
       | apply State.txrComplete_kept | apply Mem.wf_setWord | apply State.Kept.esram (κ := κ)
       | apply Kept.updEsram

theorem State.hostData_kept (s : State) (d ttl dest : Nat) (ext : Bool) (payload : List Byte) (hk : s.Kept κ) : (State.hostData s d ttl
    dest ext payload).Kept κ := by
  unfold State.hostData
  try dsimp only
  with_reducible repeat' first
       | assumption | apply State.bump_kept | apply State.hostFrame_kept | refine State.indQueue_eq (by assumption) ?_
       | apply State.indRefused_kept | apply State.macQueue_kept | apply State.txError_kept
       | apply State.txrComplete_kept | split

theorem execTxDescriptor_keeps (s : State) (hk : s.Kept κ) : OutKept κ (execTxDescriptor s) := by
  unfold execTxDescriptor
  try dsimp only
  with_reducible repeat' first
       | assumption | apply Kept.next | apply State.hostData_kept | apply State.hostFlood_kept
       | apply State.setFld_kept | apply State.txError_kept | apply State.txrComplete_kept | split

theorem State.engArm_kept (s : State) (pref other : Fin 8) (t len : Nat) (what : EngFrame) (hk : s.Kept κ) : (State.engArm s pref other t len what).Kept κ := by
  unfold State.engArm
  try dsimp only
  with_reducible repeat' first
       | assumption | apply State.wrs_kept | apply State.onMesh_kept | refine rfPerform_eq (by assumption) ?_ | apply State.armAct_kept | apply State.engEnd_kept | intro _ | apply State.draw_kept | split

theorem State.engReady_kept (s : State) (addr : Nat) (psdu : List Byte) (hk : s.Kept κ) : (State.engReady s addr psdu).Kept κ := by
  unfold State.engReady
  with_reducible repeat' first | assumption | apply State.onSub_kept | apply State.putPsdu_kept

theorem State.engTime_kept (s : State) (addr : Nat) (b : Nat × Nat × Nat × Nat) (dest : Nat) (pay : List Byte) (hk : s.Kept κ) :
    (State.engTime s addr b dest pay).Kept κ := by
  unfold State.engTime
  with_reducible repeat' first | assumption | apply State.engReady_kept | apply State.emit_kept

theorem State.engSecure_kept (s : State) (i : Fin 8) (hk : s.Kept κ) : (State.engSecure s i).Kept κ := by
  unfold State.engSecure
  with_reducible repeat' first
       | assumption | simp only [Kept.upd_iff] | apply State.txError_kept | apply State.engReady_kept | apply State.engTime_kept
       | refine State.sealFrame_eq (by assumption) ?_ | apply State.onMesh_kept | apply State.emit_kept | apply State.endAct_kept
       | apply State.onSub_kept | split

theorem execActPrepare_keeps (i : Fin 8) (s : State) (hk : s.Kept κ) : OutKept κ (execActPrepare i s) := by
  unfold execActPrepare
  with_reducible repeat' first | assumption | apply State.engSecure_kept | apply Kept.next | apply State.sgPrepare_kept | split

theorem execFcSaveDone_keeps (slot : Fin 16) (s : State) (hk : s.Kept κ) : OutKept κ (execFcSaveDone slot s) := by
  unfold execFcSaveDone
  try dsimp only
  with_reducible repeat' first
       | assumption | apply State.engSecure_kept | apply Kept.next | apply State.macSend_kept | apply State.setCounter_kept | split

theorem execBeaconTx_keeps (s : State) (hk : s.Kept κ) : OutKept κ (execBeaconTx s) := by
  unfold execBeaconTx
  try dsimp only
  with_reducible repeat' first
       | assumption | apply State.engArm_kept | apply Kept.next | apply State.onMesh_kept | split

theorem execExtraBeacon_keeps (s : State) (hk : s.Kept κ) : OutKept κ (execExtraBeacon s) := by
  unfold execExtraBeacon
  with_reducible repeat' first
       | assumption | apply State.engArm_kept | intro _ | apply State.draw_kept | apply Kept.next | apply State.onMesh_kept | split

theorem execBankedBeacon_keeps (s : State) (hk : s.Kept κ) : OutKept κ (execBankedBeacon s) := by
  unfold execBankedBeacon
  try dsimp only
  with_reducible repeat' first
       | assumption | apply State.engArm_kept | apply Kept.next | apply State.onMesh_kept | split

theorem State.engCancel_kept (s : State) (all : Bool) (hk : s.Kept κ) : (State.engCancel s all).Kept κ := by
  unfold State.engCancel
  try dsimp only
  with_reducible repeat' first
       | assumption | apply State.letGo_kept | apply State.endAct_kept | apply Kept.foldl | intro _ | apply State.draw_kept | split

theorem State.setBcnCfg_kept (s : State) (w : Word) (hk : s.Kept κ) : (State.setBcnCfg s w).Kept κ := by
  unfold State.setBcnCfg
  with_reducible repeat' first | assumption | apply State.engCancel_kept | apply State.onMesh_kept | apply State.wr_kept | split

theorem State.listenOn_kept (s : State) (n : Nat) (hk : s.Kept κ) : (State.listenOn s n).Kept κ := by
  unfold State.listenOn
  try dsimp only
  with_reducible repeat' first
       | assumption | apply State.setFld_kept | apply State.setSg_kept | apply State.sgRetuneChan_kept | apply State.sgSettleTo_kept | intro _ | apply State.draw_kept | split

theorem State.scanOn_kept (s : State) (n : Nat) (hk : s.Kept κ) : (State.scanOn s n).Kept κ := by
  unfold State.scanOn
  try dsimp only
  with_reducible repeat' first
       | assumption | apply State.listenOn_kept | apply State.onMesh_kept | apply State.setFld_kept | apply State.sgRetuneChan_kept | split

theorem State.scanStart_kept (s : State) (hk : s.Kept κ) : (State.scanStart s).Kept κ := by
  unfold State.scanStart
  with_reducible repeat' first
       | assumption | apply State.onMesh_kept | apply State.scanOn_kept | apply State.setParentState_kept

theorem State.sendJoin_kept (s : State) (mtype origin dest next eui : Nat) (j : JoinInfo) (hk : s.Kept κ) : (State.sendJoin s mtype origin
    dest next eui j).Kept κ := by
  unfold State.sendJoin
  with_reducible repeat' first | assumption | apply State.macQueue_kept

theorem State.joinTo_kept (s : State) (h : ScanHit) (hk : s.Kept κ) : (State.joinTo s h).Kept κ := by
  unfold State.joinTo
  with_reducible repeat' first
       | assumption | apply State.listenOn_kept | apply State.onMesh_kept | apply State.sendJoin_kept | apply State.setFld_kept
       | apply State.setParentState_kept | apply State.sgRetuneChan_kept | split

theorem execScanDwellEnd_keeps (s : State) (hk : s.Kept κ) : OutKept κ (execScanDwellEnd s) := by
  unfold execScanDwellEnd
  with_reducible repeat' first
       | assumption | apply Kept.next | apply State.joinTo_kept | apply State.scanOn_kept
       | apply State.scanStart_kept | split

theorem State.joinFail_kept (s : State) (code : Nat) (hk : s.Kept κ) : (State.joinFail s code).Kept κ := by
  unfold State.joinFail
  try dsimp only
  with_reducible repeat' first
       | assumption | apply State.err_kept | apply State.joinTo_kept | apply State.onMesh_kept
       | apply State.scanStart_kept | split

theorem execJoinTimeout_keeps (s : State) (hk : s.Kept κ) : OutKept κ (execJoinTimeout s) := by
  unfold execJoinTimeout
  with_reducible repeat' first | assumption | apply Kept.next | apply State.joinFail_kept | split

theorem execParentExcludeExpiry_keeps (short : Nat) (s : State) (hk : s.Kept κ) : OutKept κ (execParentExcludeExpiry short s) := by
  unfold execParentExcludeExpiry
  with_reducible repeat' first | assumption | apply Kept.next | apply State.onMesh_kept

theorem execPendingChildExpiry_keeps (eui : Nat) (s : State) (hk : s.Kept κ) : OutKept κ (execPendingChildExpiry eui s) := by
  unfold execPendingChildExpiry
  with_reducible repeat' first | assumption | apply Kept.next | apply State.onMesh_kept

theorem State.enterChild_kept (s : State) (eui short caps poll : Nat) (hk : s.Kept κ) : (State.enterChild s eui short caps poll).Kept κ :=
    by
  unfold State.enterChild
  with_reducible repeat' first | assumption | apply State.meshShow_kept | apply State.onMesh_kept | apply State.raise_kept

theorem State.sendResp_kept (s : State) (j : JoinInfo) (hk : s.Kept κ) : (State.sendResp s j).Kept κ := by
  unfold State.sendResp
  with_reducible repeat' first | assumption | apply State.err_kept | apply State.sendJoin_kept | split

theorem State.respAtParent_kept (s : State) (j : JoinInfo) (hk : s.Kept κ) : (State.respAtParent s j).Kept κ := by
  unfold State.respAtParent
  with_reducible repeat' first
       | assumption | apply State.enterChild_kept | apply State.onMesh_kept | apply State.sendResp_kept | split

theorem State.coordAnswer_kept (s : State) (j : JoinInfo) (parent : Nat) (hk : s.Kept κ) : (State.coordAnswer s j parent).Kept κ := by
  unfold State.coordAnswer
  with_reducible repeat' first
       | assumption | apply State.onMesh_kept | apply State.raise_kept | apply State.respAtParent_kept
       | apply State.sendResp_kept | split

theorem execAddressTableWriteDone_keeps (eui : Nat) (s : State) (hk : s.Kept κ) : OutKept κ (execAddressTableWriteDone eui s) := by
  unfold execAddressTableWriteDone
  with_reducible repeat' first
       | assumption | apply Kept.next | apply State.onMesh_kept | apply State.respAtParent_kept
       | apply State.sendResp_kept | split

theorem execJoinReq_keeps (j : JoinInfo) (s : State) (hk : s.Kept κ) : OutKept κ (execJoinReq j s) := by
  unfold execJoinReq
  with_reducible repeat' first
       | assumption | apply Kept.next | apply State.coordAnswer_kept | apply State.err_kept
       | apply State.onMesh_kept | apply State.routeSet_kept | apply State.sendJoin_kept
       | refine State.takeAuth_eq (by assumption) ?_ | split

theorem State.joined_kept (s : State) (h : ScanHit) (short steps : Nat) (hk : s.Kept κ) : (State.joined s h short steps).Kept κ := by
  unfold State.joined
  with_reducible repeat' first | assumption | apply State.onMesh_kept | apply State.raise_kept | apply State.wr_kept

theorem execJoinResp_keeps (j : JoinInfo) (s : State) (hk : s.Kept κ) : OutKept κ (execJoinResp j s) := by
  unfold execJoinResp
  with_reducible repeat' first
       | assumption | apply Kept.next | apply State.joinFail_kept | apply State.joined_kept
       | apply State.respAtParent_kept | apply State.routeSet_kept | apply State.sendResp_kept
       | refine State.takeAuth_eq (by assumption) ?_ | split

theorem execLeave_keeps (j : JoinInfo) (s : State) (hk : s.Kept κ) : OutKept κ (execLeave j s) := by
  unfold execLeave
  with_reducible repeat' first
       | assumption | apply State.routeSet_kept | apply Kept.next | apply State.dropChild_kept | apply State.err_kept
       | apply State.onMesh_kept | apply State.scanStart_kept | apply State.sendJoin_kept
       | refine State.takeAuth_eq (by assumption) ?_ | split

theorem execPoll_keeps (s : State) (hk : s.Kept κ) : OutKept κ (execPoll s) := by
  unfold execPoll
  with_reducible repeat' first
       | assumption | apply Kept.next | apply State.hear_kept | apply State.sendJoin_kept
       | refine State.takeAuth_eq (by assumption) ?_ | split

theorem State.addrCmd_kept (s : State) (r : Requester) (w : Word) (hk : s.Kept κ) : (State.addrCmd s r w).Kept κ := by
  unfold State.addrCmd
  with_reducible repeat' first
       | assumption | intro _ | apply State.cmdWrite_kept | apply State.err_kept | apply State.onMesh_kept
       | split

theorem execAddrFree_keeps (r : Requester) (w : Word) (s : State) (hk : s.Kept κ) : OutKept κ (execAddrFree r w s) := by
  unfold execAddrFree
  with_reducible repeat' first | assumption | apply Kept.next | apply State.addrCmd_kept

theorem execBeaconRx_keeps (b : BeaconRx) (s : State) (hk : s.Kept κ) : OutKept κ (execBeaconRx b s) := by
  unfold execBeaconRx
  try dsimp only
  with_reducible repeat' first
       | assumption | apply Kept.next | apply State.measure_kept | apply State.onMesh_kept
       | apply State.raise_kept | apply State.setFld_kept | apply State.setParentState_kept
       | refine State.takeAuth_eq (by assumption) ?_ | split

theorem State.windowOpen_kept (s : State) (hk : s.Kept κ) : (State.windowOpen s).Kept κ := by
  unfold State.windowOpen
  try dsimp only
  with_reducible repeat' first
       | assumption | apply State.onMesh_kept | apply State.sgToListen_kept | intro _ | apply State.draw_kept | split

theorem State.windowClose_kept (s : State) (hk : s.Kept κ) : (State.windowClose s).Kept κ := by
  unfold State.windowClose
  try dsimp only
  with_reducible repeat' first
       | assumption | apply State.onMesh_kept | apply State.oscUser_kept | apply State.sgToIdle_kept | apply State.sgToSleep_kept | intro _ | apply State.draw_kept | split

theorem execBeaconWindowEnd_keeps (s : State) (hk : s.Kept κ) : OutKept κ (execBeaconWindowEnd s) := by
  unfold execBeaconWindowEnd
  try dsimp only
  with_reducible repeat' first
       | assumption | apply State.windowClose_kept | apply Kept.next | apply State.bump_kept | apply State.onMesh_kept
       | apply State.raise_kept | apply State.scanStart_kept | apply State.setFld_kept
       | apply State.setParentState_kept | split

theorem execAddrLost_keeps (s : State) (hk : s.Kept κ) : OutKept κ (execAddrLost s) := by
  unfold execAddrLost
  with_reducible repeat' first
       | assumption | apply State.engCancel_kept | apply Kept.next | apply State.meshShow_kept | apply State.onMesh_kept
       | apply State.raise_kept | apply State.scanStart_kept | apply State.wr_kept | split

theorem execTtSubExchange_keeps (s : State) (hk : s.Kept κ) : OutKept κ (execTtSubExchange s) := by
  unfold execTtSubExchange
  with_reducible repeat' first
       | assumption | apply State.engArm_kept | intro _ | apply State.draw_kept | apply Kept.next | simp only [Kept.upd_iff] | apply State.emit_kept
       | apply State.onMesh_kept | split

theorem State.ttMeshServe_kept (s : State) (seq t1 : Nat) (hk : s.Kept κ) : (State.ttMeshServe s seq t1).Kept κ := by
  unfold State.ttMeshServe
  try dsimp only
  with_reducible repeat' first
       | assumption | refine State.takeAuth_eq (by assumption) ?_ | apply State.oscUser_kept | apply State.engArm_kept | intro _ | apply State.draw_kept | split

theorem execMeshKeyOverlapEnd_keeps (s : State) (hk : s.Kept κ) : OutKept κ (execMeshKeyOverlapEnd s) := by
  unfold execMeshKeyOverlapEnd
  with_reducible repeat' first | assumption | apply Kept.next | apply State.onMesh_kept | split

theorem State.meshKeySwitch_kept (s : State) (hk : s.Kept κ) : (State.meshKeySwitch s).Kept κ := by
  unfold State.meshKeySwitch
  with_reducible repeat' first
       | assumption | apply State.meshShow_kept | apply State.onMesh_kept | apply State.raise_kept
       | apply State.setBit_kept | apply State.setFld_kept

theorem meshPerform_eq {a : PendAct} {s : State} {t_ : State} (heq : meshPerform a s = some t_) (hk : s.Kept κ) : t_.Kept κ := by
  unfold meshPerform at heq
  (try dsimp only at heq)
  (repeat' split at heq) <;> (first | contradiction | (simp only [Option.some.injEq] at heq; subst heq) | skip)
  all_goals
  (with_reducible repeat' first
    | assumption | apply State.meshKeySwitch_kept | apply State.setBit_kept)

theorem State.meshActAtT_kept (s : State) (i : Fin 2) (k : Nat) (hk : s.Kept κ) : (State.meshActAtT s i k).Kept κ := by
  unfold State.meshActAtT
  with_reducible repeat' first
       | assumption | intro _ | apply State.actAtT_kept | refine meshPerform_eq (by assumption) ?_ | split

theorem execMeshKeySwitch_keeps (i : Fin 2) (s : State) (hk : s.Kept κ) : OutKept κ (execMeshKeySwitch i s) := by
  unfold execMeshKeySwitch
  with_reducible repeat' first | assumption | apply Kept.next | apply State.meshActAtT_kept

theorem execPermitOn_keeps (i : Fin 2) (s : State) (hk : s.Kept κ) : OutKept κ (execPermitOn i s) := by
  unfold execPermitOn
  with_reducible repeat' first | assumption | apply Kept.next | apply State.meshActAtT_kept

theorem execPermitOff_keeps (i : Fin 2) (s : State) (hk : s.Kept κ) : OutKept κ (execPermitOff i s) := by
  unfold execPermitOff
  with_reducible repeat' first | assumption | apply Kept.next | apply State.meshActAtT_kept

theorem execBeaconNow_keeps (i : Fin 2) (s : State) (hk : s.Kept κ) : OutKept κ (execBeaconNow i s) := by
  unfold execBeaconNow
  with_reducible repeat' first | assumption | apply Kept.next | apply State.meshActAtT_kept

theorem State.meshRestart_kept (s : State) (wasOn : Bool) (wasRole : Nat) (hk : s.Kept κ) : (State.meshRestart s wasOn wasRole).Kept κ := by
  unfold State.meshRestart
  with_reducible repeat' first
       | assumption | apply State.engCancel_kept | apply State.onMesh_kept | apply State.scanStart_kept | apply State.setFld_kept
       | apply State.wr_kept | split

theorem State.setMeshCfg_kept (s : State) (w : Word) (hk : s.Kept κ) : (State.setMeshCfg s w).Kept κ := by
  unfold State.setMeshCfg
  with_reducible repeat' first | assumption | apply State.meshRestart_kept | apply State.wr_kept

theorem State.meshEnableChange_kept (s : State) (wasOn : Bool) (hk : s.Kept κ) : (State.meshEnableChange s wasOn).Kept κ := by
  unfold State.meshEnableChange
  with_reducible repeat' first | assumption | apply State.meshRestart_kept

end Sys2Proof.Machine
end

