-- ==== Sys2Proof/Laws/KeptTxnCore.lean ====
section
/-!
SUPPORT. What the operations and meanings of Machine/TxnCore.lean keep (see Kept.lean).
-/
namespace Sys2Proof.Machine

variable {κ : Part × Straps × List Instr × Nat}

theorem State.setGroup_kept (s : State) (n : Fin 16) (g : Group) (hk : s.Kept κ) : (State.setGroup s n g).Kept κ := by
  unfold State.setGroup
  with_reducible repeat' first | assumption | simp only [Kept.upd_iff]

theorem State.setTxuPort_kept (s : State) (p : TxuPort) (hk : s.Kept κ) : (State.setTxuPort s p).Kept κ := by
  unfold State.setTxuPort
  with_reducible repeat' first | assumption | simp only [Kept.upd_iff]

theorem State.txnNotOpen_kept (s : State) (tag : Nat) (hk : s.Kept κ) : (State.txnNotOpen s tag).Kept κ := by
  unfold State.txnNotOpen
  with_reducible repeat' first | assumption | apply State.err_kept

theorem State.tableAbort_kept (s : State) (n : Fin 16) (hk : s.Kept κ) : (State.tableAbort s n).Kept κ := by
  unfold State.tableAbort
  with_reducible repeat' first | assumption | simp only [Kept.upd_iff]

theorem State.groupEnd_kept (s : State) (n : Fin 16) (g : Group) (hk : s.Kept κ) : (State.groupEnd s n g).Kept κ := by
  unfold State.groupEnd
  with_reducible repeat' first | assumption | apply State.raise_kept | apply State.setGroup_kept | split

theorem State.abortGroup_kept (s : State) (n : Fin 16) (reason : Nat) (info : Word) (hk : s.Kept κ) : (State.abortGroup s n reason
    info).Kept κ := by
  unfold State.abortGroup
  with_reducible repeat' first
       | assumption | intro _ | apply State.emit_kept | apply State.groupEnd_kept | apply State.raise_kept
       | apply State.tableAbort_kept | apply Kept.foldl | split

theorem State.refuseStaged_kept (s : State) (n : Fin 16) (reason a : Nat) (hk : s.Kept κ) : (State.refuseStaged s n reason a).Kept κ := by
  unfold State.refuseStaged
  with_reducible repeat' first | assumption | apply State.abortGroup_kept | apply State.raise_kept | split

theorem State.parkGroup_kept (s : State) (n : Fin 16) (g : Group) (hk : s.Kept κ) : (State.parkGroup s n g).Kept κ := by
  unfold State.parkGroup
  with_reducible repeat' first | assumption | apply State.setGroup_kept | apply State.tableAbort_kept

theorem State.openGroup_kept (s : State) (r : Requester) (w : Word) (hk : s.Kept κ) : (State.openGroup s r w).Kept κ := by
  unfold State.openGroup
  with_reducible repeat' first
       | assumption | apply State.err_kept | apply State.setGroup_kept | apply State.setTxuPort_kept | split

theorem State.taken_kept (s : State) (n : Fin 16) (g : Group) (hk : s.Kept κ) : (State.taken s n g).Kept κ := by
  unfold State.taken
  with_reducible repeat' first | assumption | apply State.emit_kept | apply State.setGroup_kept | split

theorem State.returnGroup_kept (s : State) (n : Fin 16) (g : Group) (reason : Nat) (hk : s.Kept κ) : (State.returnGroup s n g reason).Kept
    κ := by
  unfold State.returnGroup
  with_reducible repeat' first | assumption | apply State.parkGroup_kept | apply State.setGroup_kept | split

theorem State.groupJudged_kept (s : State) (n : Fin 16) (g : Group) (tS tNs policy : Nat) (j : Judgement) (hk : s.Kept κ) :
    (State.groupJudged s n g tS tNs policy j).Kept κ := by
  cases j <;> unfold State.groupJudged <;> (try dsimp only)
  all_goals
     (repeat' first
       | with_reducible assumption | intro _ | with_reducible apply Kept.next | with_reducible apply Kept.ite
       | with_reducible apply Kept.iteO | simp only [Kept.upd_iff] | with_reducible exact Kept.fault
       | with_reducible apply State.abortGroup_kept | with_reducible apply State.parkGroup_kept
       | with_reducible apply State.returnGroup_kept | with_reducible apply State.setGroup_kept
       | with_reducible apply State.taken_kept | with_reducible apply Kept.foldl | with_reducible rfl | split)

theorem State.judgeGroup_kept (s : State) (n : Fin 16) (g : Group) (tS tNs policy : Nat) (hk : s.Kept κ) : (State.judgeGroup s n g tS tNs
    policy).Kept κ := by
  unfold State.judgeGroup
  with_reducible repeat' first | assumption | apply State.groupJudged_kept

theorem State.commitGroup_kept (s : State) (r : Requester) (v : Nat) (hk : s.Kept κ) : (State.commitGroup s r v).Kept κ := by
  unfold State.commitGroup
  try dsimp only
  with_reducible repeat' first | assumption | apply State.judgeGroup_kept | apply State.txnNotOpen_kept | split

theorem State.timedAbort_kept (s : State) (n : Fin 16) (g : Group) (hk : s.Kept κ) : (State.timedAbort s n g).Kept κ := by
  unfold State.timedAbort
  with_reducible repeat' first | assumption | apply State.abortGroup_kept | apply State.setGroup_kept | split

theorem State.hostAbort_kept (s : State) (tag : Nat) (hk : s.Kept κ) : (State.hostAbort s tag).Kept κ := by
  unfold State.hostAbort
  try dsimp only
  with_reducible repeat' first
       | assumption | apply State.abortGroup_kept | apply State.setGroup_kept | apply State.timedAbort_kept
       | apply State.txnNotOpen_kept | split

theorem State.releaseGroup_kept (s : State) (tag : Nat) (hk : s.Kept κ) : (State.releaseGroup s tag).Kept κ := by
  unfold State.releaseGroup
  try dsimp only
  with_reducible repeat' first | assumption | apply State.setGroup_kept | apply State.txnNotOpen_kept | split

theorem execTxnOpen_keeps (r : Requester) (w : Word) (s : State) (hk : s.Kept κ) : OutKept κ (execTxnOpen r w s) := by
  unfold execTxnOpen
  with_reducible repeat' first
       | assumption | intro _ | apply Kept.next | apply State.cmdWrite_kept | apply State.openGroup_kept
       | split

theorem execTxnOpened_keeps (r : Requester) (s : State) (hk : s.Kept κ) : OutKept κ (execTxnOpened r s) := by
  unfold execTxnOpened
  with_reducible repeat' first
       | assumption | apply Kept.next | apply State.accessOff_kept | apply State.answer_kept
       | apply State.setTxuPort_kept | split

theorem execTxnCommit_keeps (r : Requester) (w : Word) (s : State) (hk : s.Kept κ) : OutKept κ (execTxnCommit r w s) := by
  unfold execTxnCommit
  with_reducible repeat' first
       | assumption | apply State.accept_kept | intro _ | apply Kept.next | apply State.commitGroup_kept | apply State.guardRange_kept
       | apply State.guardWrite_kept | split

theorem execTxnAbort_keeps (r : Requester) (w : Word) (s : State) (hk : s.Kept κ) : OutKept κ (execTxnAbort r w s) := by
  unfold execTxnAbort
  with_reducible repeat' first
       | assumption | apply State.accept_kept | intro _ | apply Kept.next | apply State.guardRange_kept | apply State.guardWrite_kept
       | apply State.hostAbort_kept | split

theorem execTxnRelease_keeps (r : Requester) (w : Word) (s : State) (hk : s.Kept κ) : OutKept κ (execTxnRelease r w s) := by
  unfold execTxnRelease
  with_reducible repeat' first
       | assumption | intro _ | apply Kept.next | apply State.cmdWrite_kept | apply State.releaseGroup_kept
       | split

theorem State.writeTag_kept (s : State) (r : Requester) (p : Nat) (w : Word) (hk : s.Kept κ) : (State.writeTag s r p w).Kept κ := by
  unfold State.writeTag
  try dsimp only
  with_reducible repeat' first | assumption | apply State.err_kept | apply State.setTag_kept | split

theorem execTxnTagWrite_keeps (r : Requester) (page : Nat) (w : Word) (s : State) (hk : s.Kept κ) : OutKept κ (execTxnTagWrite r page w s)
    := by
  unfold execTxnTagWrite
  with_reducible repeat' first
       | assumption | apply Kept.next | apply State.accessOff_kept | apply State.writeTag_kept | split

theorem State.supplyStop_kept (s : State) (n : Fin 16) (info : Word) (hk : s.Kept κ) : (State.supplyStop s n info).Kept κ := by
  unfold State.supplyStop
  try dsimp only
  with_reducible repeat' first
       | assumption | apply State.abortGroup_kept | apply State.parkGroup_kept | apply State.setGroup_kept
       | split

theorem State.supplyCancel_kept (s : State) (d : Die) (hk : s.Kept κ) : (State.supplyCancel s d).Kept κ := by
  unfold State.supplyCancel
  try dsimp only
  with_reducible repeat' first
       | assumption | intro _ | apply State.emit_kept | apply State.supplyStop_kept | apply Kept.foldl | split

theorem State.groupsLose_kept (s : State) (part : Nat) (d : Option Die) (info : Word) (hk : s.Kept κ) : (State.groupsLose s part d
    info).Kept κ := by
  unfold State.groupsLose
  try dsimp only
  with_reducible repeat' first
       | assumption | intro _ | apply State.abortGroup_kept | apply State.setGroup_kept | apply Kept.foldl
       | split

theorem State.discardGroups_kept (s : State) (hk : s.Kept κ) : (State.discardGroups s).Kept κ := by
  unfold State.discardGroups
  with_reducible repeat' first
       | assumption | simp only [Kept.upd_iff] | apply State.bump_kept | apply State.err_kept
       | apply State.raise_kept | apply State.setBit_kept | apply State.setFld_kept | split

theorem State.stageTable_kept (s : State) (tag : Nat) (o : StagedTable) (hk : s.Kept κ) : (State.stageTable s tag o).Kept κ := by
  unfold State.stageTable
  try dsimp only
  with_reducible repeat' first
       | assumption | apply State.err_kept | apply State.refuseStaged_kept | apply State.setGroup_kept | split

theorem State.tableWrite_kept (s : State) (r : Requester) (o : StagedTable) (ok : Bool) (act : State → State) (hk : s.Kept κ) (h_act : ∀
    t, t.Kept κ → (act t).Kept κ) : (State.tableWrite s r o ok act).Kept κ := by
  unfold State.tableWrite
  with_reducible repeat' first | assumption | apply h_act | apply State.accessOff_kept | apply State.stageTable_kept | split

theorem State.tableNow_kept (s : State) (a : Nat) (act : State → State) (hk : s.Kept κ) (h_act : ∀ t, t.Kept κ → (act t).Kept κ) :
    (State.tableNow s a act).Kept κ := by
  unfold State.tableNow
  with_reducible repeat' first | assumption | apply h_act | apply State.accessOff_kept | split

end Sys2Proof.Machine
end

