-- ==== Sys2Proof/Laws/KeptTables.lean ====
section
/-!
SUPPORT. What the operations and meanings of Machine/Tables.lean keep (see Kept.lean).
-/
namespace Sys2Proof.Machine

variable {κ : Part × Straps × List Instr × Nat}

theorem State.onEm_kept (s : State) (f : Em → Em) (hk : s.Kept κ) : (State.onEm s f).Kept κ := by
  unfold State.onEm
  with_reducible repeat' first | assumption | simp only [Kept.upd_iff]

theorem State.onLpm_kept (s : State) (f : Lpm → Lpm) (hk : s.Kept κ) : (State.onLpm s f).Kept κ := by
  unfold State.onLpm
  with_reducible repeat' first | assumption | simp only [Kept.upd_iff]

theorem State.wrReq_kept (s : State) (r : Requester) (a : Nat) (v : Word) (hk : s.Kept κ) : (State.wrReq s r a v).Kept κ := by
  unfold State.wrReq
  with_reducible repeat' first | assumption | simp only [Kept.upd_iff]

theorem State.wrArrReq_kept (s : State) (r : Requester) (a : Nat) (n_ : List Word) (hk : s.Kept κ) : (State.wrArrReq s r a n_).Kept κ := by
  induction n_ generalizing s r a with
  | nil =>
    unfold State.wrArrReq
    (try dsimp only)
    (with_reducible repeat' first | assumption | apply State.wrReq_kept | apply ih)
  | cons w t ih =>
    unfold State.wrArrReq
    (try dsimp only)
    (with_reducible repeat' first | assumption | apply State.wrReq_kept | apply ih)

theorem State.emPlaced_kept (s : State) (pos len : Nat) (hk : s.Kept κ) : (State.emPlaced s pos len).Kept κ := by
  unfold State.emPlaced
  with_reducible repeat' first | assumption | apply State.count_kept | apply State.raise_kept | split

theorem State.emUpdate_kept (s : State) (key : List Word) (f : List Word → List Word) (hk : s.Kept κ) : (State.emUpdate s key f).Kept κ :=
    by
  unfold State.emUpdate
  with_reducible repeat' first | assumption | apply State.onEm_kept

theorem State.emFull_kept (s : State) (ws : List Word) (hk : s.Kept κ) : (State.emFull s ws).Kept κ := by
  unfold State.emFull
  with_reducible repeat' first | assumption | apply State.err_kept | apply State.raise_kept

theorem State.emInsert_eq {s : State} {ws0 : List Word} {x_ y_} {t_ : State} (heq : State.emInsert s ws0 = (x_, y_, t_)) (hk : s.Kept κ) :
    t_.Kept κ := by
  unfold State.emInsert at heq
  (try dsimp only at heq)
  (repeat' split at heq) <;> (first | cases heq | skip)
  all_goals
  (with_reducible repeat' first
    | assumption | apply State.emFull_kept | apply State.emPlaced_kept | apply State.emUpdate_kept
    | apply State.onEm_kept)

theorem State.emInsert_snd_kept (s : State) (ws0 : List Word) (hk : s.Kept κ) : (State.emInsert s ws0).2.2.Kept κ := State.emInsert_eq (by
    rfl) hk

theorem State.emDrain_kept (s : State) (n_ : Nat) (hk : s.Kept κ) : (State.emDrain s n_).Kept κ := by
  induction n_ generalizing s with
  | zero =>
    unfold State.emDrain
    (try dsimp only)
    (with_reducible repeat' first | assumption | apply State.emPlaced_kept | apply State.onEm_kept | split | apply ih)
  | succ k ih =>
    unfold State.emDrain
    (try dsimp only)
    (with_reducible repeat' first | assumption | apply State.emPlaced_kept | apply State.onEm_kept | split | apply ih)

theorem State.emDelete_kept (s : State) (key : List Word) (hk : s.Kept κ) : (State.emDelete s key).Kept κ := by
  unfold State.emDelete
  with_reducible repeat' first | assumption | apply State.emDrain_kept | apply State.onEm_kept

theorem State.tblStatus_kept (s : State) (r : Requester) (result : Nat) (moved stash : Bool) (hk : s.Kept κ) : (State.tblStatus s r result
    moved stash).Kept κ := by
  unfold State.tblStatus
  with_reducible repeat' first | assumption | apply State.raise_kept | apply State.wrReq_kept

theorem State.tblWrite_kept (s : State) (r : Requester) (cmd : Word) (ok : Bool) (act : State → State) (hk : s.Kept κ) (h_act : ∀ t,
    t.Kept κ → (act t).Kept κ) : (State.tblWrite s r cmd ok act).Kept κ := by
  unfold State.tblWrite
  with_reducible repeat' first | assumption | apply h_act | apply State.tableWrite_kept

theorem State.tblShow_kept (s : State) (r : Requester) (e : EmSlot) (hk : s.Kept κ) : (State.tblShow s r e).Kept κ := by
  unfold State.tblShow
  with_reducible repeat' first | assumption | apply State.wrArrReq_kept | apply State.wrReq_kept

theorem State.tblInsert_kept (s : State) (r : Requester) (ws : List Word) (hk : s.Kept κ) : (State.tblInsert s r ws).Kept κ := by
  unfold State.tblInsert
  with_reducible repeat' first
       | assumption | apply State.emInsert_snd_kept | apply State.tblStatus_kept | apply State.wrReq_kept
       | split

theorem execTblInsert_keeps (r : Requester) (s : State) (hk : s.Kept κ) : OutKept κ (execTblInsert r s) := by
  unfold execTblInsert
  with_reducible repeat' first
       | assumption | intro _ | apply Kept.next | apply State.tblInsert_kept | apply State.tblWrite_kept

theorem State.tblDelete_kept (s : State) (r : Requester) (ws : List Word) (hk : s.Kept κ) : (State.tblDelete s r ws).Kept κ := by
  unfold State.tblDelete
  with_reducible repeat' first
       | assumption | apply State.emDelete_kept | apply State.tblStatus_kept | apply State.wrReq_kept | split

theorem execTblDelete_keeps (r : Requester) (s : State) (hk : s.Kept κ) : OutKept κ (execTblDelete r s) := by
  unfold execTblDelete
  with_reducible repeat' first
       | assumption | intro _ | apply Kept.next | apply State.tblDelete_kept | apply State.tblWrite_kept

theorem execTblSearch_keeps (r : Requester) (s : State) (hk : s.Kept κ) : OutKept κ (execTblSearch r s) := by
  unfold execTblSearch
  try dsimp only
  with_reducible repeat' first
       | assumption | intro _ | apply Kept.next | apply State.tableNow_kept | apply State.tblShow_kept
       | apply State.tblStatus_kept | split

theorem State.tblNext_kept (s : State) (r : Requester) (type : Nat) (restart : Bool) (hk : s.Kept κ) : (State.tblNext s r type
    restart).Kept κ := by
  unfold State.tblNext
  try dsimp only
  with_reducible repeat' first
       | assumption | apply State.onEm_kept | apply State.tblShow_kept | apply State.tblStatus_kept
       | apply State.wrReq_kept | split

theorem execTblNext_keeps (r : Requester) (type : Fin 16) (restart : Bool) (s : State) (hk : s.Kept κ) : OutKept κ (execTblNext r type
    restart s) := by
  unfold execTblNext
  with_reducible repeat' first
       | assumption | intro _ | apply Kept.next | apply State.tableNow_kept | apply State.tblNext_kept

theorem execWalkClose_keeps (r : Requester) (s : State) (hk : s.Kept κ) : OutKept κ (execWalkClose r s) := by
  unfold execWalkClose
  with_reducible repeat' first
       | assumption | intro _ | apply Kept.next | apply State.onEm_kept | apply State.tableNow_kept
       | apply State.tblStatus_kept

theorem execWalkTimeout_keeps (r : Requester) (s : State) (hk : s.Kept κ) : OutKept κ (execWalkTimeout r s) := by
  unfold execWalkTimeout
  with_reducible repeat' first | assumption | apply Kept.next | apply State.onEm_kept | split

theorem State.sweepStart_kept (s : State) (w : EmSweep) (hk : s.Kept κ) : (State.sweepStart s w).Kept κ := by
  unfold State.sweepStart
  with_reducible repeat' first | assumption | apply State.onEm_kept | apply State.wr_kept

theorem State.sweepCmd_kept (s : State) (r : Requester) (w : EmSweep) (hk : s.Kept κ) : (State.sweepCmd s r w).Kept κ := by
  unfold State.sweepCmd
  with_reducible repeat' first | assumption | apply State.sweepStart_kept | apply State.tblStatus_kept | split

theorem execFlushPort_keeps (r : Requester) (port : Fin 32) (inclStatic : Bool) (type : Fin 16) (s : State) (hk : s.Kept κ) : OutKept κ
    (execFlushPort r port inclStatic type s) := by
  unfold execFlushPort
  with_reducible repeat' first
       | assumption | intro _ | apply Kept.next | apply State.sweepCmd_kept | apply State.tblStatus_kept
       | apply State.tblWrite_kept | split

theorem execAgeSweep_keeps (r : Requester) (type : Fin 16) (s : State) (hk : s.Kept κ) : OutKept κ (execAgeSweep r type s) := by
  unfold execAgeSweep
  with_reducible repeat' first
       | assumption | intro _ | apply Kept.next | apply State.sweepCmd_kept | apply State.tblWrite_kept

theorem execAutoAge_keeps (s : State) (hk : s.Kept κ) : OutKept κ (execAutoAge s) := by
  unfold execAutoAge
  try dsimp only
  with_reducible repeat' first | assumption | apply Kept.next | apply State.onEm_kept | apply State.sweepStart_kept | split

theorem State.sweepAct_eq {s : State} {w : EmSweep} {oldMark : Bool} {x_} {t_ : State} (heq : State.sweepAct s w oldMark = (x_, t_)) (hk :
    s.Kept κ) : t_.Kept κ := by
  unfold State.sweepAct at heq
  (try dsimp only at heq)
  (repeat' split at heq) <;> (first | cases heq | skip)
  all_goals
  (with_reducible repeat' first | assumption | apply State.count_kept | apply State.emDrain_kept | apply State.onEm_kept)

theorem State.sweepBeside_kept (s : State) (w : EmSweep) (hk : s.Kept κ) : (State.sweepBeside s w).Kept κ := by
  unfold State.sweepBeside
  try dsimp only
  with_reducible repeat' first
       | assumption | apply State.emDrain_kept | apply State.count_kept | apply State.onEm_kept | split

theorem State.sweepAct_snd_kept (s : State) (w : EmSweep) (oldMark : Bool) (hk : s.Kept κ) : (State.sweepAct s w oldMark).2.Kept κ :=
    State.sweepAct_eq (by rfl) hk

theorem execSweepDone_keeps (s : State) (hk : s.Kept κ) : OutKept κ (execSweepDone s) := by
  unfold execSweepDone
  with_reducible repeat' first
       | assumption | apply Kept.next | apply State.onEm_kept | apply State.raise_kept
       | apply State.sweepAct_snd_kept | apply State.wr_kept | split

theorem State.parityRemove_kept (s : State) (pos : Nat) (hk : s.Kept κ) : (State.parityRemove s pos).Kept κ := by
  unfold State.parityRemove
  with_reducible repeat' first
       | assumption | apply State.count_kept | apply State.err_kept | apply State.onEm_kept
       | apply State.raise_kept | split

theorem execParityRemove_keeps (pos : Nat) (s : State) (hk : s.Kept κ) : OutKept κ (execParityRemove pos s) := by
  unfold execParityRemove
  with_reducible repeat' first | assumption | apply Kept.next | apply State.parityRemove_kept

theorem execScrubPass_keeps (bad : List Nat) (s : State) (hk : s.Kept κ) : OutKept κ (execScrubPass bad s) := by
  unfold execScrubPass
  with_reducible repeat' first
       | assumption | apply Kept.next | apply State.emDrain_kept | apply State.onEm_kept
       | apply State.parityRemove_kept | apply Kept.foldl | split

theorem State.seedWrite_kept (s : State) (n : Nat) (w : Word) (hk : s.Kept κ) : (State.seedWrite s n w).Kept κ := by
  unfold State.seedWrite
  with_reducible repeat' first | assumption | apply State.err_kept | apply State.wr_kept | split

theorem execHashSeedWrite_keeps (r : Requester) (n : Fin 2) (w : Word) (s : State) (hk : s.Kept κ) : OutKept κ (execHashSeedWrite r n w s)
    := by
  unfold execHashSeedWrite
  with_reducible repeat' first
       | assumption | intro _ | apply Kept.next | apply State.cmdWrite_kept | apply State.seedWrite_kept

theorem State.lpmStatus_kept (s : State) (r : Requester) (result stage : Nat) (hk : s.Kept κ) : (State.lpmStatus s r result stage).Kept κ
    := by
  unfold State.lpmStatus
  with_reducible repeat' first | assumption | apply State.raise_kept | apply State.wrReq_kept

theorem State.lpmInsert_kept (s : State) (r : Requester) (p : Prefix) (hk : s.Kept κ) : (State.lpmInsert s r p).Kept κ := by
  unfold State.lpmInsert
  with_reducible repeat' first
       | assumption | apply State.err_kept | apply State.lpmStatus_kept | apply State.onLpm_kept | split

theorem execLpmInsert_keeps (r : Requester) (w : Word) (s : State) (hk : s.Kept κ) : OutKept κ (execLpmInsert r w s) := by
  unfold execLpmInsert
  with_reducible repeat' first
       | assumption | intro _ | apply Kept.next | apply State.lpmInsert_kept | apply State.tableWrite_kept

theorem State.lpmDelete_kept (s : State) (r : Requester) (p : Prefix) (hk : s.Kept κ) : (State.lpmDelete s r p).Kept κ := by
  unfold State.lpmDelete
  with_reducible repeat' first | assumption | apply State.lpmStatus_kept | apply State.onLpm_kept | split

theorem execLpmDelete_keeps (r : Requester) (w : Word) (s : State) (hk : s.Kept κ) : OutKept κ (execLpmDelete r w s) := by
  unfold execLpmDelete
  with_reducible repeat' first
       | assumption | intro _ | apply Kept.next | apply State.lpmDelete_kept | apply State.tableWrite_kept

theorem execLpmSearch_keeps (r : Requester) (w : Word) (s : State) (hk : s.Kept κ) : OutKept κ (execLpmSearch r w s) := by
  unfold execLpmSearch
  try dsimp only
  with_reducible repeat' first
       | assumption | intro _ | apply Kept.next | apply State.lpmStatus_kept | apply State.tableNow_kept
       | apply State.wrReq_kept | split

theorem execLpmNext_keeps (r : Requester) (w : Word) (s : State) (hk : s.Kept κ) : OutKept κ (execLpmNext r w s) := by
  unfold execLpmNext
  try dsimp only
  with_reducible repeat' first
       | assumption | intro _ | apply Kept.next | apply State.lpmStatus_kept | apply State.onLpm_kept
       | apply State.tableNow_kept | apply State.wrArrReq_kept | apply State.wrReq_kept | split

theorem execLpmWalkClose_keeps (r : Requester) (s : State) (hk : s.Kept κ) : OutKept κ (execLpmWalkClose r s) := by
  unfold execLpmWalkClose
  with_reducible repeat' first
       | assumption | intro _ | apply Kept.next | apply State.lpmStatus_kept | apply State.onLpm_kept
       | apply State.tableNow_kept

theorem execLpmRepair_keeps (stage : Nat) (node : Nat) (lost : Option Nat) (s : State) (hk : s.Kept κ) : OutKept κ (execLpmRepair stage
    node lost s) := by
  unfold execLpmRepair
  with_reducible repeat' first
       | assumption | apply Kept.next | apply State.err_kept | apply State.onLpm_kept | apply State.raise_kept
       | apply State.wr_kept | split

theorem execNhWrite_keeps (r : Requester) (idx : Fin 4096) (s : State) (hk : s.Kept κ) : OutKept κ (execNhWrite r idx s) := by
  unfold execNhWrite
  with_reducible repeat' first | assumption | intro _ | apply Kept.next | apply State.cmdWrite_kept | apply State.onLpm_kept

theorem execNhRead_keeps (r : Requester) (idx : Fin 4096) (s : State) (hk : s.Kept κ) : OutKept κ (execNhRead r idx s) := by
  unfold execNhRead
  with_reducible repeat' first | assumption | intro _ | apply Kept.next | apply State.cmdWrite_kept | apply State.wrArr_kept

theorem execVlanWrite_keeps (r : Requester) (vid : Fin 4096) (s : State) (hk : s.Kept κ) : OutKept κ (execVlanWrite r vid s) := by
  unfold execVlanWrite
  with_reducible repeat' first
       | assumption | intro _ | apply Kept.next | simp only [Kept.upd_iff] | apply State.cmdWrite_kept

theorem execVlanRead_keeps (r : Requester) (vid : Fin 4096) (s : State) (hk : s.Kept κ) : OutKept κ (execVlanRead r vid s) := by
  unfold execVlanRead
  with_reducible repeat' first | assumption | intro _ | apply Kept.next | apply State.cmdWrite_kept | apply State.wrArr_kept

theorem State.tablePrep_eq {s : State} {g : Fin 16} {o : StagedTable} {t_ : State} (heq : State.tablePrep s g o = some t_) (hk : s.Kept κ)
    : t_.Kept κ := by
  unfold State.tablePrep at heq
  (try dsimp only at heq)
  (repeat' split at heq) <;> (first | contradiction | (simp only [Option.some.injEq] at heq; subst heq) | skip)
  all_goals
  (with_reducible repeat' first | assumption | apply State.emPlaced_kept | apply State.onEm_kept | apply State.onLpm_kept)

theorem State.tableApply_kept (s : State) (g : Fin 16) (o : StagedTable) (hk : s.Kept κ) : (State.tableApply s g o).Kept κ := by
  unfold State.tableApply
  with_reducible repeat' first
       | assumption | apply State.emDelete_kept | apply State.onEm_kept | apply State.onLpm_kept
       | apply State.sweepBeside_kept | apply State.sweepAct_snd_kept | apply State.sweepStart_kept | split

end Sys2Proof.Machine
end

