-- ==== Sys2Proof/Laws/KeptForward.lean ====
section
/-!
SUPPORT. What the operations and meanings of Machine/Forward.lean keep (see Kept.lean).
-/
namespace Sys2Proof.Machine

variable {κ : Part × Straps × List Instr × Nat}

theorem State.portDrop_kept (s : State) (q : Nat) (hk : s.Kept κ) : (State.portDrop s q).Kept κ := by
  unfold State.portDrop
  with_reducible repeat' first | assumption | apply State.count_kept | split

theorem State.egress_kept (s : State) (q sub vid cls : Nat) (f : Frame) (hk : s.Kept κ) : (State.egress s q sub vid cls f).Kept κ := by
  unfold State.egress
  with_reducible repeat' first | assumption | apply State.intakeFrame_kept | apply State.portDrop_kept | split

theorem State.toHost_kept (s : State) (vid cls : Nat) (f : Frame) (hk : s.Kept κ) : (State.toHost s vid cls f).Kept κ := by
  unfold State.toHost
  with_reducible repeat' first | assumption | apply State.intakeFrame_kept | apply State.portDrop_kept | split

theorem State.flood_kept (s : State) (inPort vid cls : Nat) (f : Frame) (hk : s.Kept κ) : (State.flood s inPort vid cls f).Kept κ := by
  unfold State.flood
  with_reducible repeat' first | assumption | intro _ | apply State.intakeFrame_kept | apply Kept.foldl | split

theorem State.bridge_kept (s : State) (q vid cls : Nat) (f : Frame) (hk : s.Kept κ) : (State.bridge s q vid cls f).Kept κ := by
  unfold State.bridge
  with_reducible repeat' first
       | assumption | apply State.egress_kept | apply State.flood_kept | apply State.portDrop_kept
       | apply State.toHost_kept | split

theorem State.routeOut_kept (s : State) (port sub mac evid cls : Nat) (f : Frame) (h : IpHdr) (hk : s.Kept κ) : (State.routeOut s port sub
    mac evid cls f h).Kept κ := by
  unfold State.routeOut
  with_reducible repeat' first | assumption | apply State.portDrop_kept | apply State.egress_kept | split

theorem State.routeEntry_kept (s : State) (e : EmSlot) (vid cls : Nat) (f : Frame) (h : IpHdr) (hk : s.Kept κ) : (State.routeEntry s e vid
    cls f h).Kept κ := by
  unfold State.routeEntry
  with_reducible repeat' first | assumption | apply State.routeOut_kept | apply State.toHost_kept | split

theorem State.l3Except_kept (s : State) (hk : s.Kept κ) : (State.l3Except s).Kept κ := by
  unfold State.l3Except
  with_reducible repeat' first | assumption | apply State.bump_kept

theorem State.l3Miss_kept (s : State) (hk : s.Kept κ) : (State.l3Miss s).Kept κ := by
  unfold State.l3Miss
  with_reducible repeat' first | assumption | apply State.bump_kept

theorem State.routeLpm_kept (s : State) (vid cls : Nat) (f : Frame) (h : IpHdr) (hk : s.Kept κ) : (State.routeLpm s vid cls f h).Kept κ :=
    by
  unfold State.routeLpm
  try dsimp only
  with_reducible repeat' first
       | assumption | apply State.count_kept | apply State.l3Miss_kept | apply State.routeOut_kept
       | apply State.toHost_kept | split

theorem State.route_kept (s : State) (vid cls : Nat) (f : Frame) (h : IpHdr) (hk : s.Kept κ) : (State.route s vid cls f h).Kept κ := by
  unfold State.route
  try dsimp only
  with_reducible repeat' first
       | assumption | apply State.count_kept | apply State.l3Except_kept | apply State.routeEntry_kept
       | apply State.routeLpm_kept | apply State.toHost_kept | split

theorem State.learnLimit_kept (s : State) (q : Nat) (hk : s.Kept κ) : (State.learnLimit s q).Kept κ := by
  unfold State.learnLimit
  with_reducible repeat' first | assumption | apply State.err_kept | apply State.raise_kept

theorem State.learnQueue_kept (s : State) (x : LearnReq) (hk : s.Kept κ) : (State.learnQueue s x).Kept κ := by
  unfold State.learnQueue
  with_reducible repeat' first
       | assumption | apply State.count_kept | apply State.onEm_kept | apply State.raise_kept | split

theorem State.learnSource_eq {s : State} {q vid : Nat} {f : Frame} {g : Ingress} {x_} {t_ : State} (heq : State.learnSource s q vid f g =
    (x_, t_)) (hk : s.Kept κ) : t_.Kept κ := by
  unfold State.learnSource at heq
  (try dsimp only at heq)
  (repeat' split at heq) <;> (first | cases heq | skip)
  all_goals
  (with_reducible repeat' first
    | assumption | apply State.count_kept | apply State.emUpdate_kept | apply State.learnLimit_kept
    | apply State.learnQueue_kept | apply State.raise_kept)

theorem State.learnSource_snd_kept (s : State) (q vid : Nat) (f : Frame) (g : Ingress) (hk : s.Kept κ) : (State.learnSource s q vid f
    g).2.Kept κ := State.learnSource_eq (by rfl) hk

theorem State.learnOne_kept (s : State) (hk : s.Kept κ) : (State.learnOne s).Kept κ := by
  unfold State.learnOne
  try dsimp only
  with_reducible repeat' first
       | assumption | apply State.bump_kept | refine State.emInsert_eq (by assumption) ?_
       | apply State.emUpdate_kept | apply State.learnLimit_kept | apply State.onEm_kept | split

theorem execLearn_keeps (s : State) (hk : s.Kept κ) : OutKept κ (execLearn s) := by
  unfold execLearn
  with_reducible repeat' first | assumption | apply Kept.next | apply State.learnOne_kept

theorem State.ingress_kept (s : State) (q : Nat) (f : Frame) (g : Ingress) (hk : s.Kept κ) : (State.ingress s q f g).Kept κ := by
  unfold State.ingress
  with_reducible repeat' first
       | assumption | apply State.bridge_kept | refine State.learnSource_eq (by assumption) ?_
       | apply State.portDrop_kept | apply State.route_kept | apply State.toHost_kept | split

theorem execFrameIngress_keeps (port : Fin 32) (frame : Frame) (g : Ingress) (s : State) (hk : s.Kept κ) : OutKept κ (execFrameIngress
    port frame g s) := by
  unfold execFrameIngress
  with_reducible repeat' first | assumption | apply Kept.next | apply State.ingress_kept | split

theorem State.count64_kept (s : State) (lo hi n : Nat) (hk : s.Kept κ) : (State.count64 s lo hi n).Kept κ := by
  unfold State.count64
  with_reducible repeat' first | assumption | apply State.wrs_kept

theorem execEthFrameRx_keeps (q : Fin 3) (frame : Frame) (fcsOk : Bool) (pause : Option Nat) (s : State) (hk : s.Kept κ) : OutKept κ
    (execEthFrameRx q frame fcsOk pause s) := by
  unfold execEthFrameRx
  with_reducible repeat' first
       | assumption | apply Kept.next | simp only [Kept.upd_iff] | apply State.bump_kept
       | apply State.count64_kept | apply State.ingress_kept | split

theorem State.toMesh_kept (s : State) (x : QFrame) (hk : s.Kept κ) : (State.toMesh s x).Kept κ := by
  unfold State.toMesh
  try dsimp only
  with_reducible repeat' first
       | assumption | apply State.err_kept | refine State.indQueue_eq (by assumption) ?_
       | apply State.indRefused_kept | apply State.macQueue_kept | split

theorem execPortDequeue_keeps (port : Fin 32) (s : State) (hk : s.Kept κ) : OutKept κ (execPortDequeue port s) := by
  unfold execPortDequeue
  try dsimp only
  with_reducible repeat' first
       | assumption | apply Kept.next | apply State.count64_kept | apply State.emit_kept
       | refine State.takePort_eq (by assumption) ?_ | apply State.toMesh_kept | split

end Sys2Proof.Machine
end

