-- ==== Sys2Proof/Laws/KeptPipe.lean ====
section
/-!
SUPPORT. What the operations and meanings of Machine/Pipe.lean keep (see Kept.lean).
-/
namespace Sys2Proof.Machine

variable {κ : Part × Straps × List Instr × Nat}

theorem State.setPipeKey_kept (s : State) (k : PipeKey) (hk : s.Kept κ) : (State.setPipeKey s k).Kept κ := by
  unfold State.setPipeKey
  with_reducible repeat' first | assumption | simp only [Kept.upd_iff]

theorem State.pipeShow_kept (s : State) (k : PipeKey) (pn : Bool) (hk : s.Kept κ) : (State.pipeShow s k pn).Kept κ := by
  unfold State.pipeShow
  with_reducible repeat' first | assumption | apply State.wr_kept | apply State.wrs_kept | split

theorem State.pipeInstall_kept (s : State) (n : Nat) (hk : s.Kept κ) : (State.pipeInstall s n).Kept κ := by
  unfold State.pipeInstall
  with_reducible repeat' first | assumption | apply State.pipeShow_kept | apply State.setPipeKey_kept

theorem State.pipeErase_kept (s : State) (n : Nat) (hk : s.Kept κ) : (State.pipeErase s n).Kept κ := by
  unfold State.pipeErase
  with_reducible repeat' first | assumption | apply State.pipeShow_kept | apply State.setPipeKey_kept

theorem State.pipeCmd_kept (s : State) (r : Requester) (slot cmd : Nat) (hi : Half) (act : State → State) (hk : s.Kept κ) (h_act : ∀ t,
    t.Kept κ → (act t).Kept κ) : (State.pipeCmd s r slot cmd hi act).Kept κ := by
  unfold State.pipeCmd
  with_reducible repeat' first
       | assumption | apply State.accept_kept | intro _ | apply h_act | apply State.guardRange_kept | apply State.guardWrite_kept
       | apply State.raise_kept | apply State.wrArr_kept | apply State.wr_kept | split

theorem execPipeKeyInstall_keeps (r : Requester) (slot : Fin 8192) (hi : Half) (s : State) (hk : s.Kept κ) : OutKept κ (execPipeKeyInstall
    r slot hi s) := by
  unfold execPipeKeyInstall
  with_reducible repeat' first
       | assumption | intro _ | apply Kept.next | apply State.pipeCmd_kept | apply State.pipeInstall_kept

theorem execPipeKeyErase_keeps (r : Requester) (slot : Fin 8192) (hi : Half) (s : State) (hk : s.Kept κ) : OutKept κ (execPipeKeyErase r
    slot hi s) := by
  unfold execPipeKeyErase
  with_reducible repeat' first
       | assumption | intro _ | apply Kept.next | apply State.pipeCmd_kept | apply State.pipeErase_kept

theorem execPipeKeyStat_keeps (r : Requester) (slot : Fin 8192) (hi : Half) (s : State) (hk : s.Kept κ) : OutKept κ (execPipeKeyStat r
    slot hi s) := by
  unfold execPipeKeyStat
  with_reducible repeat' first
       | assumption | intro _ | apply Kept.next | apply State.pipeCmd_kept | apply State.pipeShow_kept

theorem State.pipeExhaust_kept (s : State) (n : Nat) (hk : s.Kept κ) : (State.pipeExhaust s n).Kept κ := by
  unfold State.pipeExhaust
  with_reducible repeat' first | assumption | apply State.err_kept | apply State.raise_kept | apply State.setPipeKey_kept

theorem State.pipeGone_kept (s : State) (n : Nat) (hk : s.Kept κ) : (State.pipeGone s n).Kept κ := by
  unfold State.pipeGone
  with_reducible repeat' first | assumption | apply State.err_kept | apply State.raise_kept

theorem State.pipeTx_kept (s : State) (p n : Nat) (hk : s.Kept κ) : (State.pipeTx s p n).Kept κ := by
  unfold State.pipeTx
  with_reducible repeat' first | assumption | simp only [Kept.upd_iff] | apply State.count_kept

theorem State.pipeRx_kept (s : State) (p n : Nat) (hk : s.Kept κ) : (State.pipeRx s p n).Kept κ := by
  unfold State.pipeRx
  with_reducible repeat' first | assumption | simp only [Kept.upd_iff] | apply State.count_kept

theorem State.pipeLose_kept (s : State) (hk : s.Kept κ) : (State.pipeLose s).Kept κ := by
  unfold State.pipeLose
  with_reducible repeat' first | assumption | simp only [Kept.upd_iff]

end Sys2Proof.Machine
end

