-- ==== Sys2Proof/Laws/KeptSched.lean ====
section
/-!
SUPPORT. What the operations and meanings of Machine/Sched.lean keep (see Kept.lean).
-/
namespace Sys2Proof.Machine

variable {κ : Part × Straps × List Instr × Nat}

theorem State.setEntry_kept (s : State) (t : Station) (hk : s.Kept κ) : (State.setEntry s t).Kept κ := by
  unfold State.setEntry
  with_reducible repeat' first | assumption | simp only [Kept.upd_iff]

theorem State.staCmd_kept (s : State) (r : Requester) (cmd : Nat) (act : State → State) (hk : s.Kept κ) (h_act : ∀ t, t.Kept κ → (act
    t).Kept κ) : (State.staCmd s r cmd act).Kept κ := by
  unfold State.staCmd
  with_reducible repeat' first
       | assumption | intro _ | apply h_act | apply State.cmdWrite_kept | apply State.err_kept | split

theorem State.staDone_kept (s : State) (status idx : Nat) (hk : s.Kept κ) : (State.staDone s status idx).Kept κ := by
  unfold State.staDone
  with_reducible repeat' first | assumption | apply State.raise_kept | apply State.wr_kept

theorem State.staFail_kept (s : State) (status idx code info : Nat) (hk : s.Kept κ) : (State.staFail s status idx code info).Kept κ := by
  unfold State.staFail
  with_reducible repeat' first | assumption | apply State.err_kept | apply State.staDone_kept

theorem State.staWrite_kept (s : State) (i : Nat) (hk : s.Kept κ) : (State.staWrite s i).Kept κ := by
  unfold State.staWrite
  try dsimp only
  with_reducible repeat' first
       | assumption | apply State.raise_kept | apply State.setEntry_kept | apply State.staDone_kept
       | apply State.staFail_kept | split

theorem execStaWrite_keeps (r : Requester) (idx : Fin 2048) (s : State) (hk : s.Kept κ) : OutKept κ (execStaWrite r idx s) := by
  unfold execStaWrite
  with_reducible repeat' first
       | assumption | intro _ | apply Kept.next | apply State.staCmd_kept | apply State.staWrite_kept

theorem execStaRead_keeps (r : Requester) (idx : Fin 2048) (s : State) (hk : s.Kept κ) : OutKept κ (execStaRead r idx s) := by
  unfold execStaRead
  with_reducible repeat' first
       | assumption | intro _ | apply Kept.next | apply State.staCmd_kept | apply State.staDone_kept
       | apply State.wrArr_kept

theorem State.staNeeds_kept (s : State) (i : Nat) (act : State → State) (hk : s.Kept κ) (h_act : ∀ t, t.Kept κ → (act t).Kept κ) :
    (State.staNeeds s i act).Kept κ := by
  unfold State.staNeeds
  with_reducible repeat' first | assumption | apply h_act | apply State.staFail_kept | split

theorem execStaRemove_keeps (r : Requester) (idx : Fin 2048) (s : State) (hk : s.Kept κ) : OutKept κ (execStaRemove r idx s) := by
  unfold execStaRemove
  with_reducible repeat' first
       | assumption | intro _ | apply Kept.next | apply State.onStation_kept | apply State.staCmd_kept
       | apply State.staNeeds_kept | apply State.wr_kept

theorem State.staFlush_kept (s : State) (i : Nat) (tids : List Nat) (hk : s.Kept κ) : (State.staFlush s i tids).Kept κ := by
  unfold State.staFlush
  with_reducible repeat' first
       | assumption | intro _ | apply State.onStation_kept | apply State.setQueue_kept | apply Kept.foldl

theorem execStaRemoveDone_keeps (idx : Fin 2048) (s : State) (hk : s.Kept κ) : OutKept κ (execStaRemoveDone idx s) := by
  unfold execStaRemoveDone
  with_reducible repeat' first
       | assumption | apply Kept.next | simp only [Kept.upd_iff] | apply State.staDone_kept
       | apply State.staFlush_kept | split

theorem execStaFlush_keeps (r : Requester) (idx : Fin 2048) (tid : Fin 8) (all : Bool) (s : State) (hk : s.Kept κ) : OutKept κ
    (execStaFlush r idx tid all s) := by
  unfold execStaFlush
  with_reducible repeat' first
       | assumption | intro _ | apply Kept.next | apply State.staCmd_kept | apply State.staDone_kept
       | apply State.staFlush_kept | apply State.staNeeds_kept

theorem execStaAlloc_keeps (r : Requester) (s : State) (hk : s.Kept κ) : OutKept κ (execStaAlloc r s) := by
  unfold execStaAlloc
  with_reducible repeat' first
       | assumption | intro _ | apply Kept.next | apply State.staCmd_kept | apply State.staDone_kept
       | apply State.staFail_kept | split

theorem execSetKey_keeps (r : Requester) (idx : Fin 2048) (s : State) (hk : s.Kept κ) : OutKept κ (execSetKey r idx s) := by
  unfold execSetKey
  with_reducible repeat' first
       | assumption | intro _ | apply Kept.next | apply State.onStation_kept | apply State.staCmd_kept
       | apply State.staDone_kept | apply State.staFail_kept | apply State.staNeeds_kept | split

theorem State.setGkey_kept (s : State) (g : GroupKey) (hk : s.Kept κ) : (State.setGkey s g).Kept κ := by
  unfold State.setGkey
  with_reducible repeat' first | assumption | simp only [Kept.upd_iff]

theorem execSetGkey_keeps (r : Requester) (idx : Fin 2048) (s : State) (hk : s.Kept κ) : OutKept κ (execSetGkey r idx s) := by
  unfold execSetGkey
  with_reducible repeat' first
       | assumption | intro _ | apply Kept.next | apply State.setGkey_kept | apply State.staCmd_kept
       | apply State.staDone_kept | apply State.staFail_kept | split

theorem State.onTwt_kept (s : State) (i : Nat) (f : Twt → Twt) (hk : s.Kept κ) : (State.onTwt s i f).Kept κ := by
  unfold State.onTwt
  with_reducible repeat' first | assumption | simp only [Kept.upd_iff]

theorem State.twtDone_kept (s : State) (status idx : Nat) (hk : s.Kept κ) : (State.twtDone s status idx).Kept κ := by
  unfold State.twtDone
  with_reducible repeat' first | assumption | apply State.raise_kept | apply State.wr_kept

theorem State.twtAdd_kept (s : State) (hk : s.Kept κ) : (State.twtAdd s).Kept κ := by
  unfold State.twtAdd
  with_reducible repeat' first
       | assumption | simp only [Kept.upd_iff] | apply State.err_kept | apply State.twtDone_kept | split

theorem execTwtAdd_keeps (r : Requester) (s : State) (hk : s.Kept κ) : OutKept κ (execTwtAdd r s) := by
  unfold execTwtAdd
  with_reducible repeat' first | assumption | apply Kept.next | apply State.cmdWrite_kept | apply State.twtAdd_kept

theorem State.twtNeeds_kept (s : State) (i : Nat) (act : Twt → State → State) (hk : s.Kept κ) (h_act : ∀ x0 t, t.Kept κ → (act x0 t).Kept
    κ) : (State.twtNeeds s i act).Kept κ := by
  unfold State.twtNeeds
  with_reducible repeat' first | assumption | apply h_act | apply State.err_kept | apply State.twtDone_kept | split

theorem execTwtRemove_keeps (r : Requester) (idx : Fin 2048) (s : State) (hk : s.Kept κ) : OutKept κ (execTwtRemove r idx s) := by
  unfold execTwtRemove
  with_reducible repeat' first
       | assumption | intro _ | apply Kept.next | simp only [Kept.upd_iff] | apply State.cmdWrite_kept
       | apply State.twtDone_kept | apply State.twtNeeds_kept

theorem execTwtRead_keeps (r : Requester) (idx : Fin 2048) (s : State) (hk : s.Kept κ) : OutKept κ (execTwtRead r idx s) := by
  unfold execTwtRead
  with_reducible repeat' first
       | assumption | intro _ | apply Kept.next | apply State.cmdWrite_kept | apply State.twtDone_kept
       | apply State.twtNeeds_kept | apply State.wrArr_kept

theorem State.twtBegin_kept (s : State) (entry : Nat) (t : Twt) (o : Option Nat) (hk : s.Kept κ) : (State.twtBegin s entry t o).Kept κ := by
  cases o <;> unfold State.twtBegin <;> (try dsimp only)
  all_goals
     (repeat' first
       | with_reducible assumption | intro _ | with_reducible apply Kept.next | with_reducible apply Kept.ite
       | with_reducible apply Kept.iteO | simp only [Kept.upd_iff] | with_reducible exact Kept.fault
       | with_reducible apply State.onPs_kept | with_reducible apply State.onTwt_kept | with_reducible apply Kept.foldl | with_reducible rfl | split)

theorem execTwtSpStart_keeps (entry : Nat) (s : State) (hk : s.Kept κ) : OutKept κ (execTwtSpStart entry s) := by
  unfold execTwtSpStart
  with_reducible repeat' first | assumption | apply Kept.next | apply State.twtBegin_kept | split

theorem execTwtSpEnd_keeps (entry : Nat) (s : State) (hk : s.Kept κ) : OutKept κ (execTwtSpEnd entry s) := by
  unfold execTwtSpEnd
  with_reducible repeat' first | assumption | apply Kept.next | apply State.onTwt_kept | split

theorem State.schedPause_kept (s : State) (p : Nat) (hk : s.Kept κ) : (State.schedPause s p).Kept κ := by
  unfold State.schedPause
  with_reducible repeat' first | assumption | apply State.onPs_kept | split

theorem State.schedResume_kept (s : State) (p : Nat) (hk : s.Kept κ) : (State.schedResume s p).Kept κ := by
  unfold State.schedResume
  with_reducible repeat' first | assumption | apply State.onPs_kept

theorem execSchedCmdPause_keeps (r : Requester) (p : Fin 6) (s : State) (hk : s.Kept κ) : OutKept κ (execSchedCmdPause r p s) := by
  unfold execSchedCmdPause
  with_reducible repeat' first
       | assumption | intro _ | apply Kept.next | apply State.cmdWrite_kept | apply State.schedPause_kept

theorem execSchedCmdResume_keeps (r : Requester) (p : Fin 6) (s : State) (hk : s.Kept κ) : OutKept κ (execSchedCmdResume r p s) := by
  unfold execSchedCmdResume
  with_reducible repeat' first
       | assumption | intro _ | apply Kept.next | apply State.cmdWrite_kept | apply State.schedResume_kept

theorem execPartitionEnable_keeps (r : Requester) (d : Fin 6) (s : State) (hk : s.Kept κ) : OutKept κ (execPartitionEnable r d s) := by
  unfold execPartitionEnable
  with_reducible repeat' first
       | assumption | apply State.err_kept | apply State.cmdWrite_kept | intro _ | apply Kept.next | apply State.onPs_kept | apply State.partEnable_kept
       | apply State.partWrite_kept | split

theorem execPartitionDisable_keeps (r : Requester) (d : Fin 6) (s : State) (hk : s.Kept κ) : OutKept κ (execPartitionDisable r d s) := by
  unfold execPartitionDisable
  with_reducible repeat' first
       | assumption | intro _ | apply Kept.next | apply State.partDisable_kept | apply State.partWrite_kept

theorem execReplan_keeps (r : Requester) (p : Fin 6) (s : State) (hk : s.Kept κ) : OutKept κ (execReplan r p s) := by
  unfold execReplan
  with_reducible repeat' first
       | assumption | intro _ | apply Kept.next | apply State.cmdWrite_kept | apply State.planBuild_kept
       | split

theorem execPlanRebuild_keeps (p : Fin 6) (s : State) (hk : s.Kept κ) : OutKept κ (execPlanRebuild p s) := by
  unfold execPlanRebuild
  with_reducible repeat' first | assumption | apply Kept.next | apply State.planBuild_kept | split

theorem execBsrpDue_keeps (p : Fin 6) (s : State) (hk : s.Kept κ) : OutKept κ (execBsrpDue p s) := by
  unfold execBsrpDue
  with_reducible repeat' first | assumption | apply Kept.next | apply State.onPs_kept | split

theorem execTxopWon_keeps (p : Fin 6) (s : State) (hk : s.Kept κ) : OutKept κ (execTxopWon p s) := by
  unfold execTxopWon
  try dsimp only
  with_reducible repeat' first | assumption | apply Kept.next | apply State.onPs_kept | split

theorem execTxopEnd_keeps (p : Fin 6) (s : State) (hk : s.Kept κ) : OutKept κ (execTxopEnd p s) := by
  unfold execTxopEnd
  try dsimp only
  with_reducible repeat' first
       | assumption | apply State.txopCut_kept | apply State.onStation_kept | intro _ | apply Kept.foldl | apply Kept.next | apply State.airClear_kept | apply State.onPs_kept
       | apply State.planBuild_kept | split

theorem State.keyGone_kept (s : State) (slot : Nat) (hk : s.Kept κ) : (State.keyGone s slot).Kept κ := by
  unfold State.keyGone
  with_reducible repeat' first | assumption | apply State.err_kept | apply State.pipeGone_kept | apply State.raise_kept

theorem State.takePn_eq {s : State} {slot : Nat} {x_} {t_ : State} (heq : State.takePn s slot = .ok (x_, t_)) (hk : s.Kept κ) : t_.Kept κ
    := by
  unfold State.takePn at heq
  (try dsimp only at heq)
  (repeat' split at heq) <;> (first | cases heq | skip)
  all_goals
  (with_reducible repeat' first
    | assumption | apply State.err_kept | apply State.pipeExhaust_kept | apply State.raise_kept
    | apply State.setPipeKey_kept)

theorem State.lateJudge_eq {s : State} {p : Nat} {t : Station} {tid : Nat} {x : QFrame} {x_} {t_ : State} (heq : State.lateJudge s p t tid
    x = (x_, t_)) (hk : s.Kept κ) : t_.Kept κ := by
  unfold State.lateJudge at heq
  (try dsimp only at heq)
  (repeat' split at heq) <;> (first | cases heq | skip)
  all_goals
  (with_reducible repeat' first | assumption | apply State.bump_kept | apply State.raise_kept | apply State.staDrop_kept)

theorem State.lateJudge_snd_kept (s : State) (p : Nat) (t : Station) (tid : Nat) (x : QFrame) (hk : s.Kept κ) : (State.lateJudge s p t tid
    x).2.Kept κ := State.lateJudge_eq (by rfl) hk

theorem State.mpduOut_kept (s : State) (p i : Nat) (m : Mpdu) (hk : s.Kept κ) : (State.mpduOut s p i m).Kept κ := by
  unfold State.mpduOut
  with_reducible repeat' first | assumption | apply State.emit_kept | apply State.pipeTx_kept

theorem Kept.foldlSnd {α β} {f : β × State → α → β × State} {l : List α} {b : β × State} (h : b.2.Kept κ) (hf : ∀ t x, t.2.Kept κ → (f t
    x).2.Kept κ) : (l.foldl f b).2.Kept κ := by
  induction l generalizing b with
  | nil => exact h
  | cons a t ih => exact ih (hf _ _ h)

theorem State.takeRetries_snd_kept (s : State) (p i room : Nat) (hk : s.Kept κ) : (State.takeRetries s p i room).2.Kept κ := by
  unfold State.takeRetries
  split
  · exact hk
  · apply Kept.foldlSnd hk
    intro t x h
    dsimp only
    (repeat' first
       | with_reducible assumption | intro _ | with_reducible apply Kept.next | with_reducible apply Kept.ite
       | with_reducible apply Kept.iteO | simp only [Kept.upd_iff] | with_reducible exact Kept.fault
       | with_reducible apply State.keyGone_kept | with_reducible apply State.mpduOut_kept
       | with_reducible apply State.onStation_kept | with_reducible apply State.staDrop_kept
       | with_reducible apply Kept.foldl | with_reducible rfl | split)

theorem State.takeRetries_eq {s : State} {p i room : Nat} {x : Nat} {t : State} (heq : State.takeRetries s p i room = (x, t)) (hk : s.Kept
    κ) : t.Kept κ := by
  have := State.takeRetries_snd_kept s p i room hk
  rw [heq] at this
  exact this

theorem State.takeFresh_eq {s : State} {p i tid room : Nat} {x_} {t_ : State} (heq : State.takeFresh s p i tid room = some (x_, t_)) (hk :
    s.Kept κ) : t_.Kept κ := by
  unfold State.takeFresh at heq
  (try dsimp only at heq)
  (repeat' split at heq) <;> (first | cases heq | skip)
  all_goals
  (with_reducible repeat' first
    | assumption | apply State.keyGone_kept | refine State.lateJudge_eq (by assumption) ?_
    | apply State.mpduOut_kept | apply State.onStation_kept | apply State.pop_kept
    | apply State.staDrop_kept | refine State.takePn_eq (by assumption) ?_)

theorem State.takeFrames_kept (s : State) (p i n : Nat) (l : List Nat) (room : Nat) (hk : s.Kept κ) : (State.takeFrames s p i n l
    room).Kept κ := by
  fun_induction State.takeFrames s p i n l room
  · exact hk
  · exact hk
  · rename_i h ih
    exact ih (State.takeFresh_eq h hk)
  · rename_i h ih
    exact ih hk

theorem State.takeGroup_kept (s : State) (p : Nat) (hk : s.Kept κ) : (State.takeGroup s p).Kept κ := by
  unfold State.takeGroup
  try dsimp only
  with_reducible repeat' first
       | assumption | intro _ | apply State.emit_kept | apply State.keyGone_kept | apply State.pipeTx_kept
       | apply State.pop_kept | refine State.takePn_eq (by assumption) ?_ | apply Kept.foldl | split

theorem State.prepareDl_kept (s : State) (p : Nat) (hk : s.Kept κ) : (State.prepareDl s p).Kept κ := by
  unfold State.prepareDl
  try dsimp only
  with_reducible repeat' first
       | assumption | intro _ | apply State.bump_kept | apply State.emit_kept | apply State.onStation_kept
       | apply State.setFld_kept | apply State.takeFrames_kept | apply State.takeGroup_kept
       | apply State.takeRetries_snd_kept | apply Kept.foldl | split

theorem State.ppduHand_kept (s : State) (p : Fin 6) (us : Nat) (slot : Option (Fin 8)) (hk : s.Kept κ) : (State.ppduHand s p us slot).Kept κ := by
  cases slot with
  | none => exact State.ppduRequest_kept _ _ _ _ hk
  | some i => exact State.ppduScheduled_kept _ _ _ _ hk

theorem State.sendTrigger_kept (s : State) (p : Nat) (q : Plan) (hk : s.Kept κ) : (State.sendTrigger s p q).Kept κ := by
  unfold State.sendTrigger
  try dsimp only
  with_reducible repeat' first
       | assumption | apply State.emit_kept | intro _ | apply State.draw_kept | split

theorem execPpduPrepare_keeps (p : Fin 6) (us : Nat) (slot : Option (Fin 8)) (s : State) (hk : s.Kept κ) : OutKept κ (execPpduPrepare p us slot s) := by
  unfold execPpduPrepare
  try dsimp only
  with_reducible repeat' first
       | assumption | apply State.sendTrigger_kept | apply State.txopCut_kept | apply Kept.next | apply State.bump_kept | apply State.onPs_kept
       | apply State.ppduHand_kept | apply State.prepareDl_kept | split

theorem State.charge_kept (s : State) (p i ns : Nat) (hk : s.Kept κ) : (State.charge s p i ns).Kept κ := by
  unfold State.charge
  with_reducible repeat' first | assumption | apply State.count_kept | apply State.onPs_kept | apply State.onStation_kept

theorem State.chargeAll_kept (s : State) (p us : Nat) (all l : List Alloc) (hk : s.Kept κ) : (State.chargeAll s p us all l).Kept κ := by
  unfold State.chargeAll
  try dsimp only
  with_reducible repeat' first | assumption | intro _ | apply State.charge_kept | apply Kept.foldl

theorem execPpduTxEnd_keeps (d : Fin 6) (us : Nat) (expectsResponse : Bool) (levels : List ChainLevel) (s : State) (hk : s.Kept κ) :
    OutKept κ (execPpduTxEnd d us expectsResponse levels s) := by
  unfold execPpduTxEnd
  try dsimp only
  with_reducible repeat' first
       | assumption | apply Kept.next | apply State.chargeAll_kept | apply State.onPs_kept
       | apply State.ppduTxEnd_kept | split

theorem execPpduRxEnd_keeps (d : Fin 6) (respond : Option Nat) (us : Nat) (tb : List Nat) (levels : List ChainLevel) (s : State) (hk : s.Kept κ) : OutKept κ (execPpduRxEnd d respond us tb levels s) := by
  unfold execPpduRxEnd
  try dsimp only
  with_reducible repeat' first
       | assumption | intro _ | apply Kept.next | apply State.chargeAll_kept | apply State.onPs_kept
       | apply State.onStation_kept | apply State.ppduRxEnd_kept | apply Kept.foldl | split

theorem execBlockAckRx_keeps (p : Fin 6) (b : BlockAck) (s : State) (hk : s.Kept κ) : OutKept κ (execBlockAckRx p b s) := by
  unfold execBlockAckRx
  with_reducible repeat' first
       | assumption | intro _ | apply Kept.next | apply State.mpduFail_kept | apply State.onStation_kept
       | apply Kept.foldl | split

theorem State.setRx_kept (s : State) (i : Nat) (x : TidRx) (hk : s.Kept κ) : (State.setRx s i x).Kept κ := by
  unfold State.setRx
  with_reducible repeat' first | assumption | apply State.onStation_kept

theorem State.deliver_kept (s : State) (p i tid : Nat) (f : Frame) (hk : s.Kept κ) : (State.deliver s p i tid f).Kept κ := by
  unfold State.deliver
  with_reducible repeat' first | assumption | apply State.emit_kept | apply State.ingress_kept | split

theorem State.release_kept (s : State) (p i : Nat) (x : TidRx) (fs : List Frame) (hk : s.Kept κ) : (State.release s p i x fs).Kept κ := by
  unfold State.release
  with_reducible repeat' first | assumption | intro _ | apply State.deliver_kept | apply State.setRx_kept | apply Kept.foldl

theorem State.mpduHear_kept (s : State) (m : MpduRx) (hk : s.Kept κ) : (State.mpduHear s m).Kept κ := by
  unfold State.mpduHear
  with_reducible repeat' first | assumption | apply State.onStation_kept

theorem State.mpduOpen_eq {s : State} {p : Nat} {t : Station} {x : TidRx} {m : MpduRx} {x_} {t_ : State} (heq : State.mpduOpen s p t x m =
    (x_, t_)) (hk : s.Kept κ) : t_.Kept κ := by
  unfold State.mpduOpen at heq
  (try dsimp only at heq)
  (repeat' split at heq) <;> (first | cases heq | skip)
  all_goals
  (with_reducible repeat' first | assumption | apply State.bump_kept | apply State.count_kept | apply State.pipeRx_kept)

theorem State.mpduOpen_snd_kept (s : State) (p : Nat) (t : Station) (x : TidRx) (m : MpduRx) (hk : s.Kept κ) : (State.mpduOpen s p t x
    m).2.Kept κ := State.mpduOpen_eq (by rfl) hk

theorem State.mpduBa_kept (s : State) (p : Nat) (t : Station) (m : MpduRx) (n : Nat) (hk : s.Kept κ) : (State.mpduBa s p t m n).Kept κ := by
  unfold State.mpduBa
  try dsimp only
  with_reducible repeat' first
       | assumption | apply State.bump_kept | apply State.mpduOpen_snd_kept | apply State.onStation_kept
       | apply State.release_kept | split

theorem State.mpduPlain_kept (s : State) (p : Nat) (t : Station) (m : MpduRx) (hk : s.Kept κ) : (State.mpduPlain s p t m).Kept κ := by
  unfold State.mpduPlain
  try dsimp only
  with_reducible repeat' first
       | assumption | apply State.bump_kept | apply State.deliver_kept | apply State.mpduOpen_snd_kept
       | apply State.onStation_kept | apply State.setRx_kept | split

theorem execMpduRx_keeps (p : Fin 6) (m : MpduRx) (s : State) (hk : s.Kept κ) : OutKept κ (execMpduRx p m s) := by
  unfold execMpduRx
  try dsimp only
  with_reducible repeat' first
       | assumption | apply Kept.next | apply State.count_kept | apply State.emit_kept
       | apply State.mpduBa_kept | apply State.mpduHear_kept | apply State.mpduPlain_kept | split

theorem execReorderTimeout_keeps (sta : Nat) (tid : Fin 8) (s : State) (hk : s.Kept κ) : OutKept κ (execReorderTimeout sta tid s) := by
  unfold execReorderTimeout
  try dsimp only
  with_reducible repeat' first | assumption | apply Kept.next | apply State.release_kept | split

theorem schedPerform_eq {a : PendAct} {s : State} {t_ : State} (heq : schedPerform a s = some t_) (hk : s.Kept κ) : t_.Kept κ := by
  unfold schedPerform at heq
  (try dsimp only at heq)
  (repeat' split at heq) <;> (first | contradiction | (simp only [Option.some.injEq] at heq; subst heq) | skip)
  all_goals
  (with_reducible repeat' first
    | assumption | apply State.onStation_kept | apply State.onTwt_kept | apply State.schedPause_kept
    | apply State.schedResume_kept | apply State.setGkey_kept)

theorem State.schedActAtT_kept (s : State) (i : Fin 8) (k : Nat) (hk : s.Kept κ) : (State.schedActAtT s i k).Kept κ := by
  unfold State.schedActAtT
  try dsimp only
  with_reducible repeat' first
       | assumption | intro _ | apply State.actAtT_kept | apply State.raise_kept
       | refine schedPerform_eq (by assumption) ?_ | split

theorem execStaKeySwitch_keeps (i : Fin 8) (s : State) (hk : s.Kept κ) : OutKept κ (execStaKeySwitch i s) := by
  unfold execStaKeySwitch
  with_reducible repeat' first | assumption | apply Kept.next | apply State.schedActAtT_kept

theorem execGkeySwitch_keeps (i : Fin 8) (s : State) (hk : s.Kept κ) : OutKept κ (execGkeySwitch i s) := by
  unfold execGkeySwitch
  with_reducible repeat' first | assumption | apply Kept.next | apply State.schedActAtT_kept

theorem execTwtEnable_keeps (i : Fin 8) (s : State) (hk : s.Kept κ) : OutKept κ (execTwtEnable i s) := by
  unfold execTwtEnable
  with_reducible repeat' first | assumption | apply Kept.next | apply State.schedActAtT_kept

theorem execTwtDisable_keeps (i : Fin 8) (s : State) (hk : s.Kept κ) : OutKept κ (execTwtDisable i s) := by
  unfold execTwtDisable
  with_reducible repeat' first | assumption | apply Kept.next | apply State.schedActAtT_kept

theorem execSchedPause_keeps (i : Fin 8) (s : State) (hk : s.Kept κ) : OutKept κ (execSchedPause i s) := by
  unfold execSchedPause
  with_reducible repeat' first | assumption | apply Kept.next | apply State.schedActAtT_kept

theorem execSchedResume_keeps (i : Fin 8) (s : State) (hk : s.Kept κ) : OutKept κ (execSchedResume i s) := by
  unfold execSchedResume
  with_reducible repeat' first | assumption | apply Kept.next | apply State.schedActAtT_kept

theorem State.setSchedCfg_kept (s : State) (p : Nat) (w : Word) (hk : s.Kept κ) : (State.setSchedCfg s p w).Kept κ := by
  unfold State.setSchedCfg
  try dsimp only
  with_reducible repeat' first
       | assumption | apply State.onPs_kept | apply State.wr_kept | intro _ | apply State.draw_kept | split

end Sys2Proof.Machine
end

