-- ==== Sys2Proof/Laws/KeptXbl.lean ====
section
/-!
SUPPORT. What the operations and meanings of Machine/Xbl.lean keep (see Kept.lean).
-/
namespace Sys2Proof.Machine

variable {κ : Part × Straps × List Instr × Nat}

theorem State.onLink_kept (s : State) (l : Nat) (f : XblLink → XblLink) (hk : s.Kept κ) : (State.onLink s l f).Kept κ := by
  unfold State.onLink
  with_reducible repeat' first | assumption | simp only [Kept.upd_iff]

theorem State.setMState_kept (s : State) (l m v : Nat) (hk : s.Kept κ) : (State.setMState s l m v).Kept κ := by
  unfold State.setMState
  with_reducible repeat' first | assumption | apply State.setFld_kept | apply State.sourceEvent_kept | split

theorem State.linkRaise_kept (s : State) (l n : Nat) (hk : s.Kept κ) : (State.linkRaise s l n).Kept κ := by
  unfold State.linkRaise
  with_reducible repeat' first | assumption | apply State.raise_kept | apply State.setBit_kept

theorem State.settleClass_kept (s : State) (l c : Nat) (hk : s.Kept κ) : (State.settleClass s l c).Kept κ := by
  unfold State.settleClass
  try dsimp only
  with_reducible repeat' first
       | assumption | apply State.err_kept | apply State.linkRaise_kept | apply State.onLink_kept | split

theorem State.settle_kept (s : State) (l : Nat) (hk : s.Kept κ) : (State.settle s l).Kept κ := by
  unfold State.settle
  with_reducible repeat' first | assumption | intro _ | apply State.settleClass_kept | apply Kept.foldl

theorem State.returnMove_kept (s : State) (l c : Nat) (hk : s.Kept κ) : (State.returnMove s l c).Kept κ := by
  unfold State.returnMove
  try dsimp only
  with_reducible repeat' first | assumption | apply State.onLink_kept | split

theorem execReturnWaitEnd_keeps (l : Fin 8) (c : Fin 8) (s : State) (hk : s.Kept κ) : OutKept κ (execReturnWaitEnd l c s) := by
  unfold execReturnWaitEnd
  with_reducible repeat' first | assumption | apply Kept.next | apply State.returnMove_kept | split

theorem State.xblPut_kept (s : State) (l m cls : Nat) (octets : List Byte) (hk : s.Kept κ) : (State.xblPut s l m cls octets).Kept κ := by
  unfold State.xblPut
  try dsimp only
  with_reducible repeat' first
       | assumption | apply State.onDir_kept | apply State.intakeFrame_kept | apply State.emit_kept | apply State.macQueue_kept
       | apply State.pipeTx_kept | split

theorem State.xblSend_kept (s : State) (l m cls : Nat) (fixed : List Byte × List Byte) (cipher : List Byte) (retx : Bool) (hk : s.Kept κ)
    : (State.xblSend s l m cls fixed cipher retx).Kept κ := by
  unfold State.xblSend
  with_reducible repeat' first | assumption | apply State.xblPut_kept

theorem State.stallCheck_kept (s : State) (l : Nat) (hk : s.Kept κ) : (State.stallCheck s l).Kept κ := by
  unfold State.stallCheck
  try dsimp only
  with_reducible repeat' first | assumption | apply State.linkRaise_kept | apply State.onLink_kept | split

theorem State.takeSeq_eq {s : State} {l : Nat} {x_} {t_ : State} (heq : State.takeSeq s l = (x_, t_)) (hk : s.Kept κ) : t_.Kept κ := by
  unfold State.takeSeq at heq
  (try dsimp only at heq)
  (repeat' split at heq) <;> (first | cases heq | skip)
  all_goals
  (with_reducible repeat' first
    | assumption | apply State.err_kept | apply State.linkRaise_kept | apply State.onLink_kept
    | apply State.pipeExhaust_kept | apply State.setPipeKey_kept)

theorem State.takeSeq_snd_kept (s : State) (l : Nat) (hk : s.Kept κ) : (State.takeSeq s l).2.Kept κ := State.takeSeq_eq (by rfl) hk

theorem State.xblControl_kept (s : State) (l m type : Nat) (text : List Byte) (hk : s.Kept κ) : (State.xblControl s l m type text).Kept κ
    := by
  unfold State.xblControl
  with_reducible repeat' first
       | assumption | apply State.stallCheck_kept | apply State.takeSeq_snd_kept | apply State.xblSend_kept
       | split

theorem State.xblData_kept (s : State) (l c m : Nat) (second : Option Nat) (f : Frame) (hk : s.Kept κ) : (State.xblData s l c m second
    f).Kept κ := by
  unfold State.xblData
  try dsimp only
  with_reducible repeat' first
       | assumption | apply State.onLink_kept | apply State.takeSeq_snd_kept | apply State.xblSend_kept | split

theorem State.xblDrop_kept (s : State) (l seq : Nat) (hk : s.Kept κ) : (State.xblDrop s l seq).Kept κ := by
  unfold State.xblDrop
  with_reducible repeat' first | assumption | apply State.bump_kept | apply State.onLink_kept

theorem State.handOver_kept (s : State) (l : Nat) (e : XblSent) (hk : s.Kept κ) : (State.handOver s l e).Kept κ := by
  unfold State.handOver
  with_reducible repeat' first | assumption | apply State.onLink_kept | apply State.xblDrop_kept | split

theorem State.xblResend_kept (s : State) (l m : Nat) (e : XblSent) (hk : s.Kept κ) : (State.xblResend s l m e).Kept κ := by
  unfold State.xblResend
  with_reducible repeat' first
       | assumption | apply State.xblDrop_kept | apply State.bump_kept | apply State.err_kept | apply State.linkRaise_kept
       | apply State.onLink_kept | apply State.pipeGone_kept | apply State.xblSend_kept | split

theorem execXblRetxTimeout_keeps (l : Fin 8) (seq : Nat) (s : State) (hk : s.Kept κ) : OutKept κ (execXblRetxTimeout l seq s) := by
  unfold execXblRetxTimeout
  with_reducible repeat' first | assumption | apply Kept.next | apply State.handOver_kept | apply State.xblDrop_kept | split

theorem State.xblNew_kept (s : State) (l c : Nat) (x : QFrame) (hk : s.Kept κ) : (State.xblNew s l c x).Kept κ := by
  unfold State.xblNew
  try dsimp only
  with_reducible repeat' first
       | assumption | apply State.bump_kept | apply State.err_kept | apply State.pop_kept
       | apply State.stallCheck_kept | apply State.xblData_kept | split

theorem execXblDispatch_keeps (l : Fin 8) (m : Fin 3) (s : State) (hk : s.Kept κ) : OutKept κ (execXblDispatch l m s) := by
  unfold execXblDispatch
  with_reducible repeat' first
       | assumption | apply Kept.next | simp only [Kept.upd_iff] | apply State.settle_kept
       | apply State.xblNew_kept | apply State.xblResend_kept | split

theorem State.memberDown_kept (s : State) (l m reason : Nat) (hk : s.Kept κ) : (State.memberDown s l m reason).Kept κ := by
  unfold State.memberDown
  with_reducible repeat' first
       | assumption | intro _ | apply State.bump_kept | apply State.draw_kept | apply State.handOver_kept
       | apply State.linkRaise_kept | apply State.setFld_kept | apply State.setMState_kept
       | apply State.settle_kept | apply State.wr_kept | apply State.wrs_kept | apply Kept.foldl | split

theorem execMemberHealthReport_keeps (l : Fin 8) (m : Fin 3) (miss cap : Nat) (s : State) (hk : s.Kept κ) : OutKept κ
    (execMemberHealthReport l m miss cap s) := by
  unfold execMemberHealthReport
  try dsimp only
  with_reducible repeat' first
       | assumption | apply Kept.next | apply State.memberDown_kept | apply State.onLink_kept
       | apply State.setMState_kept | split

theorem execMemberSilent_keeps (l : Fin 8) (m : Fin 3) (s : State) (hk : s.Kept κ) : OutKept κ (execMemberSilent l m s) := by
  unfold execMemberSilent
  try dsimp only
  with_reducible repeat' first | assumption | apply Kept.next | apply State.memberDown_kept | split

theorem execMemberNoReport_keeps (l : Fin 8) (m : Fin 3) (s : State) (hk : s.Kept κ) : OutKept κ (execMemberNoReport l m s) := by
  unfold execMemberNoReport
  with_reducible repeat' first | assumption | apply Kept.next | apply State.memberDown_kept | split

theorem execMemberUp_keeps (l : Fin 8) (m : Fin 3) (s : State) (hk : s.Kept κ) : OutKept κ (execMemberUp l m s) := by
  unfold execMemberUp
  with_reducible repeat' first
       | assumption | apply Kept.next | apply State.linkRaise_kept | apply State.memberDown_kept
       | apply State.setMState_kept | apply State.settle_kept | split

theorem execKeepaliveDue_keeps (l : Fin 8) (m : Fin 3) (s : State) (hk : s.Kept κ) : OutKept κ (execKeepaliveDue l m s) := by
  unfold execKeepaliveDue
  with_reducible repeat' first | assumption | apply Kept.next | apply State.xblControl_kept | split

theorem State.xblDeliver_kept (s : State) (l c seq : Nat) (f : Frame) (hk : s.Kept κ) : (State.xblDeliver s l c seq f).Kept κ := by
  unfold State.xblDeliver
  with_reducible repeat' first | assumption | apply State.ingress_kept | apply State.onLink_kept

theorem State.xblRelease_kept (s : State) (l c : Nat) (n_ : Nat) (hk : s.Kept κ) : (State.xblRelease s l c n_).Kept κ := by
  induction n_ generalizing s l c with
  | zero =>
    unfold State.xblRelease
    (try dsimp only)
    (with_reducible repeat' first | assumption | apply State.xblDeliver_kept | split | apply ih)
  | succ k ih =>
    unfold State.xblRelease
    (try dsimp only)
    (with_reducible repeat' first | assumption | apply State.xblDeliver_kept | split | apply ih)

theorem State.xblForce_kept (s : State) (l : Nat) (h : XblHeld) (hk : s.Kept κ) : (State.xblForce s l h).Kept κ := by
  unfold State.xblForce
  with_reducible repeat' first
       | assumption | apply State.bump_kept | apply State.onLink_kept | apply State.xblDeliver_kept
       | apply State.xblRelease_kept

theorem State.xblFar_kept (s : State) (l : Nat) (n_ : Nat) (hk : s.Kept κ) : (State.xblFar s l n_).Kept κ := by
  induction n_ generalizing s l with
  | zero =>
    unfold State.xblFar
    (try dsimp only)
    (with_reducible repeat' first | assumption | apply State.xblForce_kept | split | apply ih)
  | succ k ih =>
    unfold State.xblFar
    (try dsimp only)
    (with_reducible repeat' first | assumption | apply State.xblForce_kept | split | apply ih)

theorem State.xblHold_kept (s : State) (l : Nat) (f : XblFrame) (seq : Nat) (frame : Frame) (hk : s.Kept κ) : (State.xblHold s l f seq
    frame).Kept κ := by
  unfold State.xblHold
  try dsimp only
  with_reducible repeat' first
       | assumption | apply State.bump_kept | apply State.ingress_kept | apply State.onLink_kept
       | apply State.xblDeliver_kept | apply State.xblRelease_kept | split

theorem execXblReorderTimeout_keeps (l : Fin 8) (seq : Nat) (s : State) (hk : s.Kept κ) : OutKept κ (execXblReorderTimeout l seq s) := by
  unfold execXblReorderTimeout
  with_reducible repeat' first | assumption | apply Kept.next | apply State.xblForce_kept | split

theorem State.xblAck_kept (s : State) (l : Nat) (acks : List (Nat × BitVec 256)) (hk : s.Kept κ) : (State.xblAck s l acks).Kept κ := by
  unfold State.xblAck
  with_reducible repeat' first
       | assumption | intro _ | apply State.handOver_kept | apply State.onLink_kept
       | apply State.returnMove_kept | apply Kept.foldl | split

theorem State.hearMup_kept (s : State) (l : Nat) (mup : BitVec 3) (hk : s.Kept κ) : (State.hearMup s l mup).Kept κ := by
  unfold State.hearMup
  with_reducible repeat' first
       | assumption | intro _ | apply State.memberDown_kept | apply State.setFld_kept | apply State.settle_kept
       | apply Kept.foldl

theorem State.xblStale_kept (s : State) (l : Nat) (hk : s.Kept κ) : (State.xblStale s l).Kept κ := by
  unfold State.xblStale
  with_reducible repeat' first | assumption | apply State.bump_kept

theorem State.xblAuthFail_kept (s : State) (l m : Nat) (hk : s.Kept κ) : (State.xblAuthFail s l m).Kept κ := by
  unfold State.xblAuthFail
  with_reducible repeat' first | assumption | apply State.bump_kept | apply State.count_kept | apply State.err_kept

theorem State.xblAct_kept (s : State) (l m : Nat) (f : XblFrame) (which wrap : Nat) (hk : s.Kept κ) : (State.xblAct s l m f which
    wrap).Kept κ := by
  unfold State.xblAct
  with_reducible repeat' first
       | assumption | apply State.hearMup_kept | apply State.onLink_kept | apply State.xblAck_kept
       | apply State.xblFar_kept | apply State.xblHold_kept | split

theorem State.xblRx_kept (s : State) (l m : Nat) (f : XblFrame) (hk : s.Kept κ) : (State.xblRx s l m f).Kept κ := by
  unfold State.xblRx
  try dsimp only
  with_reducible repeat' first
       | assumption | apply State.bump_kept | apply State.hearMup_kept | apply State.onLink_kept
       | apply State.xblAct_kept | apply State.xblAuthFail_kept | apply State.xblStale_kept | split

theorem execXblFrameRx_keeps (l : Fin 8) (m : Fin 3) (f : XblFrame) (s : State) (hk : s.Kept κ) : OutKept κ (execXblFrameRx l m f s) := by
  unfold execXblFrameRx
  with_reducible repeat' first | assumption | apply Kept.next | apply State.pipeRx_kept | apply State.xblRx_kept | split

theorem execXblAckDue_keeps (l : Fin 8) (s : State) (hk : s.Kept κ) : OutKept κ (execXblAckDue l s) := by
  unfold execXblAckDue
  try dsimp only
  with_reducible repeat' first
       | assumption | apply Kept.next | apply State.onLink_kept | apply State.stallCheck_kept
       | apply State.xblControl_kept | split

theorem State.showLinks_kept (s : State) (hk : s.Kept κ) : (State.showLinks s).Kept κ := by
  unfold State.showLinks
  with_reducible repeat' first | assumption | apply State.wr_kept

theorem State.memberIn_kept (s : State) (l m : Nat) (hk : s.Kept κ) : (State.memberIn s l m).Kept κ := by
  unfold State.memberIn
  with_reducible repeat' first | assumption | apply State.onLink_kept | apply State.setMState_kept

theorem State.memberOut_kept (s : State) (l m : Nat) (hk : s.Kept κ) : (State.memberOut s l m).Kept κ := by
  unfold State.memberOut
  with_reducible repeat' first
       | assumption | apply State.memberDown_kept | apply State.setMState_kept | apply State.settle_kept

theorem State.linkStart_kept (s : State) (l : Nat) (w : Word) (hk : s.Kept κ) : (State.linkStart s l w).Kept κ := by
  unfold State.linkStart
  with_reducible repeat' first
       | assumption | intro _ | apply State.memberIn_kept | apply State.onLink_kept
       | apply State.showLinks_kept | apply State.wr_kept | apply State.wrs_kept | apply Kept.foldl | split

theorem State.linkStop_kept (s : State) (l : Nat) (w : Word) (hk : s.Kept κ) : (State.linkStop s l w).Kept κ := by
  unfold State.linkStop
  with_reducible repeat' first
       | assumption | intro _ | apply State.memberOut_kept | apply State.onLink_kept
       | apply State.showLinks_kept | apply State.wr_kept | apply Kept.foldl

theorem State.linkInvalid_kept (s : State) (l r : Nat) (hk : s.Kept κ) : (State.linkInvalid s l r).Kept κ := by
  unfold State.linkInvalid
  with_reducible repeat' first | assumption | apply State.err_kept

theorem State.setLinkCfg_kept (s : State) (l : Nat) (w : Word) (hk : s.Kept κ) : (State.setLinkCfg s l w).Kept κ := by
  unfold State.setLinkCfg
  try dsimp only
  with_reducible repeat' first
       | assumption | intro _ | apply State.linkInvalid_kept | apply State.linkStart_kept
       | apply State.linkStop_kept | apply State.memberIn_kept | apply State.memberOut_kept
       | apply State.onLink_kept | apply State.wr_kept | apply Kept.foldl | split

theorem State.xblLose_kept (s : State) (hk : s.Kept κ) : (State.xblLose s).Kept κ := by
  unfold State.xblLose
  with_reducible repeat' first | assumption | simp only [Kept.upd_iff]

theorem State.linkSwitch_kept (s : State) (l old : Nat) (wasNext : Bool) (hk : s.Kept κ) : (State.linkSwitch s l old wasNext).Kept κ := by
  unfold State.linkSwitch
  with_reducible repeat' first | assumption | apply State.linkRaise_kept | apply State.onLink_kept

theorem State.setKeySel_kept (s : State) (l : Nat) (v : Nat) (hk : s.Kept κ) : (State.setKeySel s l v).Kept κ := by
  unfold State.setKeySel
  try dsimp only
  with_reducible repeat' first
       | assumption | apply State.linkSwitch_kept | apply State.onLink_kept | apply State.wr_kept | split

theorem execXblKeyOverlapEnd_keeps (l : Fin 8) (s : State) (hk : s.Kept κ) : OutKept κ (execXblKeyOverlapEnd l s) := by
  unfold execXblKeyOverlapEnd
  with_reducible repeat' first | assumption | apply Kept.next | apply State.onLink_kept | split

theorem linkPerform_eq {a : PendAct} {s : State} {t_ : State} (heq : linkPerform a s = some t_) (hk : s.Kept κ) : t_.Kept κ := by
  unfold linkPerform at heq
  (try dsimp only at heq)
  (repeat' split at heq) <;> (first | contradiction | (simp only [Option.some.injEq] at heq; subst heq) | skip)
  all_goals
  (with_reducible repeat' first
    | assumption | apply State.linkStart_kept | apply State.linkStop_kept | apply State.setKeySel_kept)

theorem State.linkActAtT_kept (s : State) (i : Fin 8) (k : Nat) (hk : s.Kept κ) : (State.linkActAtT s i k).Kept κ := by
  unfold State.linkActAtT
  with_reducible repeat' first
       | assumption | intro _ | apply State.actAtT_kept | refine linkPerform_eq (by assumption) ?_ | split

theorem execXblKeySwitch_keeps (i : Fin 8) (s : State) (hk : s.Kept κ) : OutKept κ (execXblKeySwitch i s) := by
  unfold execXblKeySwitch
  with_reducible repeat' first | assumption | apply Kept.next | apply State.linkActAtT_kept

theorem execLinkOn_keeps (i : Fin 8) (s : State) (hk : s.Kept κ) : OutKept κ (execLinkOn i s) := by
  unfold execLinkOn
  with_reducible repeat' first | assumption | apply Kept.next | apply State.linkActAtT_kept

theorem execLinkOff_keeps (i : Fin 8) (s : State) (hk : s.Kept κ) : OutKept κ (execLinkOff i s) := by
  unfold execLinkOff
  with_reducible repeat' first | assumption | apply Kept.next | apply State.linkActAtT_kept

end Sys2Proof.Machine
end

