-- ==== Sys2Proof/Laws/KeptActions.lean ====
section
/-!
SUPPORT. What the operations and meanings of Machine/Actions.lean keep (see Kept.lean).
-/
namespace Sys2Proof.Machine

variable {κ : Part × Straps × List Instr × Nat}

theorem State.slotPerform_eq {s : State} {x : ActSlot} {a : PendAct} {u t : State} (heq : State.slotPerform s x a u = some t) (hk : u.Kept
    κ) : t.Kept κ := by
  unfold State.slotPerform at heq
  (repeat' split at heq)
  · exact rfPerform_eq heq hk
  · exact meshPerform_eq heq hk
  · exact lampPerform_eq heq hk
  · exact schedPerform_eq heq hk
  · exact linkPerform_eq heq hk
  · exact bhPerform_eq heq hk
  · exact partPerform_eq heq hk

theorem State.noteFs_kept (s : State) (a : PendAct) (t : State) (hk : t.Kept κ) : (State.noteFs s a t).Kept κ := by
  unfold State.noteFs
  try dsimp only
  repeat' first
       | with_reducible assumption | intro _ | with_reducible apply Kept.next | with_reducible apply Kept.ite
       | with_reducible apply Kept.iteO | simp only [Kept.upd_iff] | with_reducible exact Kept.fault
       | with_reducible apply State.fsDiscard_kept | with_reducible apply Kept.foldl | with_reducible rfl
       | split

theorem State.unprepare_kept (s : State) (x : ActSlot) (hk : s.Kept κ) : (State.unprepare s x).Kept κ := by
  unfold State.unprepare
  with_reducible repeat' first | assumption | apply State.letGo_kept | simp only [Kept.upd_iff] | apply State.onSub_kept | split

theorem State.armSlot_kept (s : State) (x : ActSlot) (policy : Nat) (hk : s.Kept κ) : (State.armSlot s x policy).Kept κ := by
  unfold State.armSlot
  try dsimp only
  with_reducible repeat' first
       | assumption | intro _ | apply State.armAct_kept | apply State.dropAct_kept
       | apply State.guardRange_kept | apply State.noteFs_kept | apply State.onSub_kept
       | apply State.setActStat_kept | refine State.slotPerform_eq (by assumption) ?_
       | apply State.unprepare_kept | split

theorem State.disarmSlot_kept (s : State) (x : ActSlot) (hk : s.Kept κ) : (State.disarmSlot s x).Kept κ := by
  unfold State.disarmSlot
  try dsimp only
  with_reducible repeat' first | assumption | apply State.endAct_kept | apply State.unprepare_kept | split

theorem State.armWrite_kept (s : State) (r : Requester) (x : ActSlot) (w : Word) (hk : s.Kept κ) : (State.armWrite s r x w).Kept κ := by
  unfold State.armWrite
  with_reducible repeat' first
       | assumption | intro _ | apply State.armSlot_kept | apply State.cmdWrite_kept
       | apply State.disarmSlot_kept | apply State.err_kept | apply State.guardRange_kept
       | apply State.guardWrite_kept | apply State.wr_kept | split

theorem execActArm_keeps (r : Requester) (slot : ActSlot) (w : Word) (s : State) (hk : s.Kept κ) : OutKept κ (execActArm r slot w s) := by
  unfold execActArm
  with_reducible repeat' first | assumption | apply Kept.next | apply State.armWrite_kept

theorem execActDisarm_keeps (r : Requester) (slot : ActSlot) (hi : Half) (s : State) (hk : s.Kept κ) : OutKept κ (execActDisarm r slot hi
    s) := by
  unfold execActDisarm
  with_reducible repeat' first | assumption | apply Kept.next | apply State.armWrite_kept

theorem execActionSupplyRecovery_keeps (slot : ActSlot) (s : State) (hk : s.Kept κ) : OutKept κ (execActionSupplyRecovery slot s) := by
  unfold execActionSupplyRecovery
  try dsimp only
  with_reducible repeat' first
       | assumption | intro _ | apply Kept.next | apply State.dropAct_kept | apply State.endAct_kept
       | apply State.noteFs_kept | apply State.performLate_kept | apply State.setFld_kept
       | refine State.slotPerform_eq (by assumption) ?_ | split

theorem State.discardActs_kept (s : State) (d : Die) (hk : s.Kept κ) : (State.discardActs s d).Kept κ := by
  unfold State.discardActs
  with_reducible repeat' first
       | assumption | apply State.engEnd_kept | intro _ | apply State.count_kept | apply State.dropAct_kept | apply State.setActStat_kept
       | apply State.unprepare_kept | apply Kept.foldl

theorem State.onScale_kept (s : State) (delta : Int) (hk : s.Kept κ) : (State.onScale s delta).Kept κ := by
  unfold State.onScale
  with_reducible repeat' first | assumption | simp only [Kept.upd_iff]

theorem State.rejudgeAct_kept (s : State) (a : PendAct) (hk : s.Kept κ) : (State.rejudgeAct s a).Kept κ := by
  unfold State.rejudgeAct
  with_reducible repeat' first
       | assumption | intro _ | apply State.judgeAct_kept | apply State.noteFs_kept
       | refine State.slotPerform_eq (by assumption) ?_

theorem State.rejudgeGroup_kept (s : State) (n : Fin 16) (hk : s.Kept κ) : (State.rejudgeGroup s n).Kept κ := by
  unfold State.rejudgeGroup
  with_reducible repeat' first | assumption | apply State.judgeGroup_kept

theorem State.newScale_kept (s : State) (n : Fin 16) (delta : Int) (hk : s.Kept κ) : (State.newScale s n delta).Kept κ := by
  unfold State.newScale
  try dsimp only
  with_reducible repeat' first
       | assumption | apply State.setGroup_kept | intro _ | apply State.draw_kept | split

theorem State.rejudge_kept (s : State) (delta : Int) (pending : Bool) (hk : s.Kept κ) : (State.rejudge s delta pending).Kept κ := by
  unfold State.rejudge
  with_reducible repeat' first
       | assumption | apply State.newScale_kept | intro _ | simp only [Kept.upd_iff] | apply State.onScale_kept | apply State.rejudgeAct_kept
       | apply State.rejudgeGroup_kept | apply Kept.foldl

theorem State.timeStep_kept (s : State) (n : Bool) (hk : s.Kept κ) : (State.timeStep s n).Kept κ := by
  unfold State.timeStep
  with_reducible repeat' first
       | assumption | apply State.err_kept | apply State.nameStep_kept | apply State.onKeeper_kept
       | apply State.rejudge_kept | apply State.setBit_kept | apply State.setQual_kept | split

theorem State.timeKeep_kept (s : State) (n : Bool) (hk : s.Kept κ) : (State.timeKeep s n).Kept κ := by
  unfold State.timeKeep
  with_reducible repeat' first
       | assumption | apply State.twtLost_kept | apply State.err_kept | apply State.onKeeper_kept | apply State.rejudge_kept
       | apply State.reselect_kept | apply State.setBit_kept | split

theorem State.timeSet_kept (s : State) (n : Bool) (hk : s.Kept κ) : (State.timeSet s n).Kept κ := by
  unfold State.timeSet
  try dsimp only
  with_reducible repeat' first
       | assumption | apply State.err_kept | apply State.nameStep_kept | apply State.onKeeper_kept
       | apply State.rejudge_kept | apply State.setBit_kept | apply State.setQual_kept | split

theorem State.refusedClear_kept (s : State) (n : Bool) (hk : s.Kept κ) : (State.refusedClear s n).Kept κ := by
  unfold State.refusedClear
  with_reducible repeat' first
       | assumption | apply State.onKeeper_kept | apply State.reselect_kept | apply State.rtcJudge_kept
       | apply State.setBit_kept | split

theorem State.timeCmd_kept (s : State) (n : Bool) (v : Nat) (hk : s.Kept κ) : (State.timeCmd s n v).Kept κ := by
  unfold State.timeCmd
  with_reducible repeat' first
       | assumption | apply State.accept_kept | apply State.err_kept | apply State.guardRange_kept | apply State.refusedClear_kept
       | apply State.reselect_kept | apply State.timeKeep_kept | apply State.timeSet_kept
       | apply State.timeStep_kept | split

theorem State.timeCmdRow_kept (s : State) (r : Requester) (n : Bool) (hi : Half) (code : Half) (hk : s.Kept κ) : (State.timeCmdRow s r n
    hi code).Kept κ := by
  unfold State.timeCmdRow
  with_reducible repeat' first | assumption | intro _ | apply State.guardWrite_kept | apply State.timeCmd_kept

theorem execTimeStep_keeps (r : Requester) (hi : Half) (s : State) (hk : s.Kept κ) : OutKept κ (execTimeStep r hi s) := by
  unfold execTimeStep
  with_reducible repeat' first | assumption | apply Kept.next | apply State.timeCmdRow_kept

theorem execTimeKeep_keeps (r : Requester) (hi : Half) (s : State) (hk : s.Kept κ) : OutKept κ (execTimeKeep r hi s) := by
  unfold execTimeKeep
  with_reducible repeat' first | assumption | apply Kept.next | apply State.timeCmdRow_kept

theorem execTimeSet_keeps (r : Requester) (hi : Half) (s : State) (hk : s.Kept κ) : OutKept κ (execTimeSet r hi s) := by
  unfold execTimeSet
  with_reducible repeat' first | assumption | apply Kept.next | apply State.timeCmdRow_kept

theorem execReselect_keeps (r : Requester) (hi : Half) (s : State) (hk : s.Kept κ) : OutKept κ (execReselect r hi s) := by
  unfold execReselect
  with_reducible repeat' first | assumption | apply Kept.next | apply State.timeCmdRow_kept

theorem execRefusedClear_keeps (r : Requester) (hi : Half) (s : State) (hk : s.Kept κ) : OutKept κ (execRefusedClear r hi s) := by
  unfold execRefusedClear
  with_reducible repeat' first | assumption | apply Kept.next | apply State.timeCmdRow_kept

theorem execETimeStep_keeps (r : Requester) (hi : Half) (s : State) (hk : s.Kept κ) : OutKept κ (execETimeStep r hi s) := by
  unfold execETimeStep
  with_reducible repeat' first | assumption | apply Kept.next | apply State.timeCmdRow_kept

theorem execETimeKeep_keeps (r : Requester) (hi : Half) (s : State) (hk : s.Kept κ) : OutKept κ (execETimeKeep r hi s) := by
  unfold execETimeKeep
  with_reducible repeat' first | assumption | apply Kept.next | apply State.timeCmdRow_kept

theorem execETimeSet_keeps (r : Requester) (hi : Half) (s : State) (hk : s.Kept κ) : OutKept κ (execETimeSet r hi s) := by
  unfold execETimeSet
  with_reducible repeat' first | assumption | apply Kept.next | apply State.timeCmdRow_kept

theorem execERefusedClear_keeps (r : Requester) (hi : Half) (s : State) (hk : s.Kept κ) : OutKept κ (execERefusedClear r hi s) := by
  unfold execERefusedClear
  with_reducible repeat' first | assumption | apply Kept.next | apply State.timeCmdRow_kept

theorem State.ttSend_kept (s : State) (l m type seq t1 t2 t3 : Nat) (hk : s.Kept κ) : (State.ttSend s l m type seq t1 t2 t3).Kept κ := by
  unfold State.ttSend
  with_reducible repeat' first | assumption | simp only [Kept.upd_iff] | apply State.xblControl_kept

theorem State.ttEnd_kept (s : State) (x : TtExchange) (hk : s.Kept κ) : (State.ttEnd s x).Kept κ := by
  unfold State.ttEnd
  try dsimp only
  with_reducible repeat' first
       | assumption | simp only [Kept.upd_iff] | intro _ | apply State.draw_kept | split

theorem execTtReqSend_keeps (link : Fin 8) (s : State) (hk : s.Kept κ) : OutKept κ (execTtReqSend link s) := by
  unfold execTtReqSend
  with_reducible repeat' first
       | assumption | apply Kept.next | simp only [Kept.upd_iff] | apply State.emit_kept
       | apply State.ttSend_kept | apply State.wr_kept | split

theorem State.ttServe_kept (s : State) (l m seq t1 : Nat) (hk : s.Kept κ) : (State.ttServe s l m seq t1).Kept κ := by
  unfold State.ttServe
  try dsimp only
  with_reducible repeat' first
       | assumption | apply State.emit_kept | apply State.ttSend_kept | intro _ | apply State.draw_kept | split

theorem execTtReq_keeps (link : Fin 9) (member : Fin 3) (seq t1 : Nat) (s : State) (hk : s.Kept κ) : OutKept κ (execTtReq link member seq t1 s) := by
  unfold execTtReq
  try dsimp only
  with_reducible repeat' first
       | assumption | apply State.ttMeshServe_kept | apply State.ttServe_kept | apply Kept.next | apply State.emit_kept | apply State.setActStat_kept
       | apply State.ttSend_kept | split

theorem State.ttDone_kept (s : State) (x : TtExchange) (m : TimeMeas) (hk : s.Kept κ) : (State.ttDone s x m).Kept κ := by
  unfold State.ttDone
  with_reducible repeat' first
       | assumption | apply State.ttEnd_kept | simp only [Kept.upd_iff] | apply State.measure_kept | apply State.noteOffset_kept
       | apply State.onMesh_kept | split

theorem execTtResp_keeps (link : Fin 9) (seq : Nat) (m : TimeMeas) (s : State) (hk : s.Kept κ) : OutKept κ (execTtResp link seq m s) := by
  unfold execTtResp
  with_reducible repeat' first | assumption | apply Kept.next | apply State.ttDone_kept | split

theorem execTtLost_keeps (link : Fin 9) (s : State) (hk : s.Kept κ) : OutKept κ (execTtLost link s) := by
  unfold execTtLost
  with_reducible repeat' first | assumption | apply State.ttEnd_kept | apply Kept.next | simp only [Kept.upd_iff] | apply State.err_kept | split

end Sys2Proof.Machine
end

