-- ==== Sys2Proof/Laws/KeptAes.lean ====
section
/-!
SUPPORT. What the operations and meanings of Machine/Aes.lean keep (see Kept.lean).
-/
namespace Sys2Proof.Machine

variable {κ : Part × Straps × List Instr × Nat}

theorem State.setAesSlot_kept (s : State) (n : Nat) (x : AesSlot) (hk : s.Kept κ) : (State.setAesSlot s n x).Kept κ := by
  unfold State.setAesSlot
  with_reducible repeat' first | assumption | simp only [Kept.upd_iff]

theorem State.setAesCtx_kept (s : State) (k : Nat) (x : AesCtx) (hk : s.Kept κ) : (State.setAesCtx s k x).Kept κ := by
  unfold State.setAesCtx
  with_reducible repeat' first | assumption | simp only [Kept.upd_iff]

theorem State.aesShow_kept (s : State) (n : Nat) (hk : s.Kept κ) : (State.aesShow s n).Kept κ := by
  unfold State.aesShow
  with_reducible repeat' first
       | assumption | apply State.setAesSlot_kept | apply State.setBit_kept | apply State.setFld_kept | split

theorem State.aesKick_kept (s : State) (hk : s.Kept κ) : (State.aesKick s).Kept κ := by
  unfold State.aesKick
  with_reducible repeat' first
       | assumption | simp only [Kept.upd_iff] | apply State.setAesCtx_kept | apply State.setFld_kept | split

theorem State.ctxBusy_kept (s : State) (k : Nat) (hk : s.Kept κ) : (State.ctxBusy s k).Kept κ := by
  unfold State.ctxBusy
  with_reducible repeat' first | assumption | apply State.err_kept

theorem State.ctxWrite_kept (s : State) (r : Option Requester) (k a : Nat) (act : State → State) (hk : s.Kept κ) (h_act : ∀ t, t.Kept κ →
    (act t).Kept κ) : (State.ctxWrite s r k a act).Kept κ := by
  unfold State.ctxWrite
  with_reducible repeat' first
       | assumption | intro _ | apply h_act | apply State.cmdWrite_kept | apply State.err_kept | split

theorem State.aesGuard_kept (hi : Half) (v a : Nat) (act : State → State) (s : State) (hk : s.Kept κ) (h_act : ∀ t, t.Kept κ → (act
    t).Kept κ) : (State.aesGuard hi v a act s).Kept κ := by
  unfold State.aesGuard
  with_reducible repeat' first | assumption | apply h_act | apply State.guardFail_kept | split

theorem State.ctxOpen_kept (s : State) (k n prio : Nat) (hk : s.Kept κ) : (State.ctxOpen s k n prio).Kept κ := by
  unfold State.ctxOpen
  with_reducible repeat' first
       | assumption | apply State.oscSync_kept | apply State.aesShow_kept | apply State.ctxBusy_kept | apply State.err_kept
       | apply State.setAesCtx_kept | apply State.setFld_kept | apply State.wr_kept | split

theorem execCtxOpen_keeps (r : Option Requester) (k : Fin 8) (slot : Fin 16) (prio : Fin 4) (hi : Half) (s : State) (hk : s.Kept κ) :
    OutKept κ (execCtxOpen r k slot prio hi s) := by
  unfold execCtxOpen
  with_reducible repeat' first
       | assumption | apply State.accept_kept | intro _ | apply Kept.next | apply State.aesGuard_kept | apply State.ctxOpen_kept
       | apply State.ctxWrite_kept

theorem State.ctxClose_kept (s : State) (k : Nat) (hk : s.Kept κ) : (State.ctxClose s k).Kept κ := by
  unfold State.ctxClose
  with_reducible repeat' first
       | assumption | simp only [Kept.upd_iff] | apply State.aesKick_kept | apply State.oscSync_kept | apply State.aesShow_kept
       | apply State.ctxBusy_kept | apply State.setFld_kept | split

theorem execCtxClose_keeps (r : Option Requester) (k : Fin 8) (hi : Half) (s : State) (hk : s.Kept κ) : OutKept κ (execCtxClose r k hi s)
    := by
  unfold execCtxClose
  with_reducible repeat' first
       | assumption | apply State.accept_kept | intro _ | apply Kept.next | apply State.aesGuard_kept | apply State.ctxClose_kept
       | apply State.ctxWrite_kept

theorem State.ctxGo_kept (s : State) (k : Nat) (decrypt : Bool) (hk : s.Kept κ) : (State.ctxGo s k decrypt).Kept κ := by
  unfold State.ctxGo
  with_reducible repeat' first
       | assumption | simp only [Kept.upd_iff] | apply State.aesKick_kept | apply State.ctxBusy_kept
       | apply State.setAesCtx_kept | apply State.setBit_kept | apply State.setFld_kept | split

theorem execCtxGo_keeps (r : Option Requester) (k : Fin 8) (decrypt : Bool) (s : State) (hk : s.Kept κ) : OutKept κ (execCtxGo r k decrypt
    s) := by
  unfold execCtxGo
  with_reducible repeat' first | assumption | intro _ | apply Kept.next | apply State.ctxGo_kept | apply State.ctxWrite_kept

theorem execAesBlockDone_keeps (s : State) (hk : s.Kept κ) : OutKept κ (execAesBlockDone s) := by
  unfold execAesBlockDone
  with_reducible repeat' first
       | assumption | apply Kept.next | simp only [Kept.upd_iff] | apply State.aesKick_kept
       | apply State.count_kept | apply State.raise_kept | apply State.setBit_kept | apply State.setFld_kept
       | apply State.wrArr_kept | split

theorem execAesHoldExpiry_keeps (s : State) (hk : s.Kept κ) : OutKept κ (execAesHoldExpiry s) := by
  unfold execAesHoldExpiry
  with_reducible repeat' first | assumption | apply Kept.next | simp only [Kept.upd_iff] | apply State.aesKick_kept | split

theorem State.aesCmdEnd_kept (s : State) (status : Nat) (hk : s.Kept κ) : (State.aesCmdEnd s status).Kept κ := by
  unfold State.aesCmdEnd
  with_reducible repeat' first | assumption | apply State.raise_kept | apply State.wrArr_kept | apply State.wr_kept

theorem State.aesSlotBusy_kept (s : State) (n : Nat) (hk : s.Kept κ) : (State.aesSlotBusy s n).Kept κ := by
  unfold State.aesSlotBusy
  with_reducible repeat' first | assumption | apply State.aesCmdEnd_kept | apply State.err_kept

theorem State.aesInstall_kept (s : State) (n : Nat) (long : Bool) (index : Nat) (hk : s.Kept κ) : (State.aesInstall s n long index).Kept κ
    := by
  unfold State.aesInstall
  with_reducible repeat' first
       | assumption | apply State.aesCmdEnd_kept | apply State.aesShow_kept | apply State.aesSlotBusy_kept
       | apply State.setAesSlot_kept | apply State.wr_kept | split

theorem State.aesErase_kept (s : State) (n : Nat) (hk : s.Kept κ) : (State.aesErase s n).Kept κ := by
  unfold State.aesErase
  with_reducible repeat' first
       | assumption | simp only [Kept.upd_iff] | intro _ | apply State.aesCmdEnd_kept | apply State.oscSync_kept | apply State.aesShow_kept
       | apply State.aesSlotBusy_kept | apply State.err_kept | apply State.setAesSlot_kept
       | apply State.setFld_kept | apply State.wr_kept | apply Kept.foldl | split

theorem State.aesCmd_kept (s : State) (r : Option Requester) (slot cmd : Nat) (long : Bool) (index : Nat) (hi : Half) (act : State →
    State) (hk : s.Kept κ) (h_act : ∀ t, t.Kept κ → (act t).Kept κ) : (State.aesCmd s r slot cmd long index hi act).Kept κ := by
  unfold State.aesCmd
  with_reducible repeat' first
       | assumption | apply State.accept_kept | intro _ | apply h_act | apply State.aesGuard_kept | apply State.cmdWrite_kept
       | apply State.guardRange_kept | split

theorem execAesKeyInstall_keeps (r : Option Requester) (slot : Fin 16) (long : Bool) (index : Byte) (hi : Half) (s : State) (hk : s.Kept
    κ) : OutKept κ (execAesKeyInstall r slot long index hi s) := by
  unfold execAesKeyInstall
  with_reducible repeat' first
       | assumption | intro _ | apply Kept.next | apply State.aesCmd_kept | apply State.aesInstall_kept

theorem execAesKeyErase_keeps (r : Option Requester) (slot : Fin 16) (long : Bool) (index : Byte) (hi : Half) (s : State) (hk : s.Kept κ)
    : OutKept κ (execAesKeyErase r slot long index hi s) := by
  unfold execAesKeyErase
  with_reducible repeat' first
       | assumption | intro _ | apply Kept.next | apply State.aesCmd_kept | apply State.aesErase_kept

end Sys2Proof.Machine
end

