-- ==== Sys2Proof/Laws/KeptAshpit.lean ====
section
/-!
SUPPORT. What the operations and meanings of Machine/Ashpit.lean keep (see Kept.lean).
-/
namespace Sys2Proof.Machine

variable {κ : Part × Straps × List Instr × Nat}

theorem State.errFree_kept (s : State) (p code : Nat) (hk : s.Kept κ) : (State.errFree s p code).Kept κ := by
  unfold State.errFree
  with_reducible repeat' first | assumption | intro _ | apply State.draw_kept | apply State.err_kept

theorem State.traceLost_kept (s : State) (hk : s.Kept κ) : (State.traceLost s).Kept κ := by
  unfold State.traceLost
  try dsimp only
  with_reducible repeat' first
       | assumption | apply State.count_kept | apply State.raise_kept | apply State.setBit_kept | split

theorem State.traceIn_kept (s : State) (w : List Word) (hk : s.Kept κ) : (State.traceIn s w).Kept κ := by
  unfold State.traceIn
  with_reducible repeat' first | assumption | simp only [Kept.upd_iff] | apply State.traceLost_kept | split

theorem State.ringPut_kept (s : State) (w : List Word) (hk : s.Kept κ) : (State.ringPut s w).Kept κ := by
  unfold State.ringPut
  with_reducible repeat' first
       | assumption | apply Kept.ite | simp only [Kept.upd_iff] | apply State.raise_kept
       | apply State.setBit_kept | apply State.traceLost_kept | apply State.wr_kept | apply Mem.wf_setWords
       | apply State.Kept.dram (κ := κ) | apply Kept.updDram

theorem execTraceIntake_keeps (s : State) (hk : s.Kept κ) : OutKept κ (execTraceIntake s) := by
  unfold execTraceIntake
  with_reducible repeat' first
       | assumption | apply Kept.next | simp only [Kept.upd_iff] | apply State.ringPut_kept
       | apply State.traceLost_kept | split

theorem execEvtRdIdx_keeps (r : Requester) (w : Word) (s : State) (hk : s.Kept κ) : OutKept κ (execEvtRdIdx r w s) := by
  unfold execEvtRdIdx
  try dsimp only
  with_reducible repeat' first
       | assumption | intro _ | apply Kept.next | apply State.cmdWrite_kept | apply State.draw_kept
       | apply State.wrArr_kept | apply State.wr_kept | apply Kept.foldl | split

theorem execEvtClr_keeps (r : Requester) (w : Word) (s : State) (hk : s.Kept κ) : OutKept κ (execEvtClr r w s) := by
  unfold execEvtClr
  with_reducible repeat' first
       | assumption | intro _ | apply Kept.next | simp only [Kept.upd_iff] | apply State.cmdWrite_kept
       | apply State.wr_kept | split

end Sys2Proof.Machine
end

