-- ==== Sys2Proof/Laws/KeptEngines.lean ====
section
/-!
SUPPORT. What the operations and meanings of Machine/Engines.lean keep (see Kept.lean).
-/
namespace Sys2Proof.Machine

variable {κ : Part × Straps × List Instr × Nat}

theorem State.eng_wf (s : State) (e : Nat) (hk : s.Kept κ) : Mem.wf (s.eng e).sram = true := by
  unfold State.eng
  rw [List.getD_eq_getElem?_getD]
  cases h : s.engines[e]? with
  | none => rfl
  | some x => exact hk.engines x (List.mem_of_getElem? h)

theorem State.onEng_kept (s : State) (e : Nat) (f : Engine → Engine) (hf : ∀ x, Mem.wf x.sram = true → Mem.wf (f x).sram = true) (hk :
    s.Kept κ) : (State.onEng s e f).Kept κ := by
  refine Kept.updEng ?_ hk rfl
  intro x hx
  rcases List.mem_or_eq_of_mem_set hx with h | h
  · exact hk.engines x h
  · exact h ▸ hf _ (State.eng_wf s e hk)

theorem State.engSync_kept (s : State) (e : Nat) (hk : s.Kept κ) : (State.engSync s e).Kept κ := by
  unfold State.engSync
  with_reducible repeat' first
       | assumption | apply State.count_kept | refine State.onEng_kept _ _ _ (fun _ h => h) ?_ | split

theorem State.setEng_kept (s : State) (e st : Nat) (hk : s.Kept κ) : (State.setEng s e st).Kept κ := by
  unfold State.setEng
  with_reducible repeat' first
       | assumption | apply State.engSync_kept | refine State.onEng_kept _ _ _ (fun _ h => h) ?_
       | apply State.setFld_kept | split

theorem State.showHeld_kept (s : State) (e : Nat) (hk : s.Kept κ) : (State.showHeld s e).Kept κ := by
  unfold State.showHeld
  with_reducible repeat' first | assumption | apply State.setFld_kept

theorem State.sharedWrite_kept (s : State) (a : Nat) (bs : List Byte) (hk : s.Kept κ) : (State.sharedWrite s a bs).Kept κ := by
  unfold State.sharedWrite
  extract_lets offs m s1
  have hm : Mem.wf m = true := Mem.wf_foldl hk.shared (fun t x h => by
    split
    · exact h
    · exact Mem.wf_setByte _ _ _ h)
  have h : s1.Kept κ := Kept.setShared hm hk
  clear_value s1
  split
  · exact State.err_kept _ _ _ _ h
  · exact h

theorem execFwLoad_keeps (r : Requester) (s : State) (hk : s.Kept κ) : OutKept κ (execFwLoad r s) := by
  unfold execFwLoad
  with_reducible repeat' first
       | assumption | intro _ | apply Kept.next | apply State.cmdWrite_kept | apply State.errFree_kept
       | apply State.wr_kept | split

theorem execFwVerifyDone_keeps (s : State) (hk : s.Kept κ) : OutKept κ (execFwVerifyDone s) := by
  unfold execFwVerifyDone
  with_reducible repeat' first | assumption | apply Kept.next | apply State.raise_kept | apply State.wr_kept | split

theorem State.lineBack_kept (s : State) (x : CacheLine) (hk : s.Kept κ) : (State.lineBack s x).Kept κ := by
  unfold State.lineBack
  with_reducible repeat' first
       | assumption | apply Kept.ite | simp only [Kept.upd_iff] | apply State.sharedWrite_kept
       | apply Mem.wf_setBytes | apply State.Kept.dram (κ := κ) | apply Kept.updDram

theorem State.cleanLines_kept (s : State) (e : Nat) (f : CacheLine → Bool) (hk : s.Kept κ) : (State.cleanLines s e f).Kept κ := by
  unfold State.cleanLines
  with_reducible repeat' first
       | assumption | intro _ | apply State.lineBack_kept | refine State.onEng_kept _ _ _ (fun _ h => h) ?_
       | apply Kept.foldl | split

theorem State.dropLines_kept (s : State) (e : Nat) (f : CacheLine → Bool) (hk : s.Kept κ) : (State.dropLines s e f).Kept κ := by
  unfold State.dropLines
  with_reducible repeat' first | assumption | refine State.onEng_kept _ _ _ (fun _ h => h) ?_

theorem execClean_keeps (e : Fin 16) (dram : Bool) (addr len : Nat) (s : State) (hk : s.Kept κ) : OutKept κ (execClean e dram addr len s)
    := by
  unfold execClean
  with_reducible repeat' first | assumption | apply Kept.next | apply State.cleanLines_kept

theorem execInvalidate_keeps (e : Fin 16) (dram : Bool) (addr len : Nat) (s : State) (hk : s.Kept κ) : OutKept κ (execInvalidate e dram
    addr len s) := by
  unfold execInvalidate
  with_reducible repeat' first | assumption | apply Kept.next | apply State.dropLines_kept

theorem execCleanInvalidate_keeps (e : Fin 16) (dram : Bool) (addr len : Nat) (s : State) (hk : s.Kept κ) : OutKept κ (execCleanInvalidate
    e dram addr len s) := by
  unfold execCleanInvalidate
  with_reducible repeat' first | assumption | apply Kept.next | apply State.cleanLines_kept | apply State.dropLines_kept

theorem State.setTask_kept (s : State) (t : Task) (hk : s.Kept κ) : (State.setTask s t).Kept κ := by
  unfold State.setTask
  with_reducible repeat' first | assumption | simp only [Kept.upd_iff]

theorem State.onTask_kept (s : State) (i : Nat) (f : Task → Task) (hk : s.Kept κ) : (State.onTask s i f).Kept κ := by
  unfold State.onTask
  with_reducible repeat' first | assumption | apply State.setTask_kept

theorem State.grTrace_kept (s : State) (type : Nat) (eng : Option Nat) (t : Task) (w6 : Nat) (hk : s.Kept κ) : (State.grTrace s type eng t
    w6).Kept κ := by
  unfold State.grTrace
  with_reducible repeat' first | assumption | simp only [Kept.upd_iff] | apply State.traceIn_kept | split

theorem State.grShow_kept (s : State) (hk : s.Kept κ) : (State.grShow s).Kept κ := by
  unfold State.grShow
  with_reducible repeat' first | assumption | apply State.wr_kept

theorem State.toReady_kept (s : State) (i src : Nat) (hk : s.Kept κ) : (State.toReady s i src).Kept κ := by
  unfold State.toReady
  with_reducible repeat' first
       | assumption | simp only [Kept.upd_iff] | apply State.grShow_kept | apply State.grTrace_kept
       | apply State.onTask_kept

theorem State.toHead_kept (s : State) (i : Nat) (hk : s.Kept κ) : (State.toHead s i).Kept κ := by
  unfold State.toHead
  with_reducible repeat' first
       | assumption | simp only [Kept.upd_iff] | apply State.grShow_kept | apply State.grTrace_kept
       | apply State.onTask_kept

theorem State.tdDone_kept (s : State) (hk : s.Kept κ) : (State.tdDone s).Kept κ := by
  unfold State.tdDone
  with_reducible repeat' first | assumption | apply State.wr_kept

theorem State.tdBusy_kept (s : State) (cmd : Nat) (hk : s.Kept κ) : (State.tdBusy s cmd).Kept κ := by
  unfold State.tdBusy
  with_reducible repeat' first | assumption | apply State.err_kept | apply State.wr_kept

theorem State.tdWrite_kept (s : State) (i : Nat) (hk : s.Kept κ) : (State.tdWrite s i).Kept κ := by
  unfold State.tdWrite
  try dsimp only
  with_reducible repeat' first
       | assumption | apply State.grShow_kept | apply State.setTask_kept | apply State.tdBusy_kept
       | apply State.tdDone_kept | apply State.toReady_kept | split

theorem execTdWrite_keeps (r : Requester) (t : Fin 4096) (s : State) (hk : s.Kept κ) : OutKept κ (execTdWrite r t s) := by
  unfold execTdWrite
  with_reducible repeat' first
       | assumption | intro _ | apply Kept.next | apply State.cmdWrite_kept | apply State.tdWrite_kept

theorem execTdRead_keeps (r : Requester) (t : Fin 4096) (s : State) (hk : s.Kept κ) : OutKept κ (execTdRead r t s) := by
  unfold execTdRead
  with_reducible repeat' first
       | assumption | intro _ | apply Kept.next | apply State.cmdWrite_kept | apply State.tdDone_kept
       | apply State.wrArr_kept

theorem execTdFree_keeps (r : Requester) (t : Fin 4096) (s : State) (hk : s.Kept κ) : OutKept κ (execTdFree r t s) := by
  unfold execTdFree
  try dsimp only
  with_reducible repeat' first
       | assumption | intro _ | apply Kept.next | apply State.cmdWrite_kept | apply State.grShow_kept
       | apply State.onTask_kept | apply State.tdBusy_kept | apply State.tdDone_kept | split

theorem execSetCount_keeps (r : Requester) (t : Fin 4096) (s : State) (hk : s.Kept κ) : OutKept κ (execSetCount r t s) := by
  unfold execSetCount
  try dsimp only
  with_reducible repeat' first
       | assumption | intro _ | apply Kept.next | apply State.cmdWrite_kept | apply State.grShow_kept
       | apply State.onTask_kept | apply State.tdBusy_kept | apply State.tdDone_kept | apply State.toReady_kept
       | split

theorem State.grDiscard_kept (s : State) (i : Nat) (hk : s.Kept κ) : (State.grDiscard s i).Kept κ := by
  unfold State.grDiscard
  with_reducible repeat' first | assumption | apply State.grTrace_kept

theorem State.decrement_kept (s : State) (i src : Nat) (hk : s.Kept κ) : (State.decrement s i src).Kept κ := by
  unfold State.decrement
  try dsimp only
  with_reducible repeat' first
       | assumption | apply State.count_kept | apply State.err_kept | apply State.grDiscard_kept
       | apply State.onTask_kept | apply State.raise_kept | apply State.toReady_kept | split

theorem State.sourceDec_kept (s : State) (code : Nat) (hk : s.Kept κ) : (State.sourceDec s code).Kept κ := by
  unfold State.sourceDec
  with_reducible repeat' first | assumption | intro _ | apply State.decrement_kept | apply Kept.foldl | split

theorem execGrateSourceEvent_keeps (s : State) (hk : s.Kept κ) : OutKept κ (execGrateSourceEvent s) := by
  unfold execGrateSourceEvent
  with_reducible repeat' first
       | assumption | apply Kept.next | simp only [Kept.upd_iff] | apply State.sourceDec_kept | split

theorem execGrateTimer_keeps (t : Fin 8) (s : State) (hk : s.Kept κ) : OutKept κ (execGrateTimer t s) := by
  unfold execGrateTimer
  with_reducible repeat' first
       | assumption | apply State.dmaRequest_kept | apply Kept.next | simp only [Kept.upd_iff] | apply State.sourceDec_kept | split

theorem execGrDec_keeps (r : Requester) (t : Fin 4096) (s : State) (hk : s.Kept κ) : OutKept κ (execGrDec r t s) := by
  unfold execGrDec
  with_reducible repeat' first
       | assumption | intro _ | apply Kept.next | apply State.cmdWrite_kept | apply State.decrement_kept

theorem State.taskReload_kept (s : State) (i : Nat) (hk : s.Kept κ) : (State.taskReload s i).Kept κ := by
  unfold State.taskReload
  try dsimp only
  with_reducible repeat' first
       | assumption | intro _ | apply State.count_kept | apply State.grShow_kept | apply State.onTask_kept
       | apply State.toReady_kept | apply State.grDiscard_kept | apply Kept.foldl | split

theorem State.grDone_kept (s : State) (r : Requester) (i : Nat) (gen : Byte) (hk : s.Kept κ) : (State.grDone s r i gen).Kept κ := by
  unfold State.grDone
  try dsimp only
  with_reducible repeat' first
       | assumption | intro _ | apply State.decrement_kept | apply State.err_kept | apply State.grDiscard_kept
       | apply State.grTrace_kept | refine State.onEng_kept _ _ _ (fun _ h => h) ?_ | apply State.raise_kept
       | apply State.taskReload_kept | apply Kept.foldl | split

theorem execGrDone_keeps (r : Requester) (t : Fin 4096) (gen : Byte) (s : State) (hk : s.Kept κ) : OutKept κ (execGrDone r t gen s) := by
  unfold execGrDone
  with_reducible repeat' first
       | assumption | intro _ | apply Kept.next | apply State.cmdWrite_kept | apply State.grDone_kept

theorem State.taskFault_kept (s : State) (e i : Nat) (hk : s.Kept κ) : (State.taskFault s e i).Kept κ := by
  unfold State.taskFault
  with_reducible repeat' first | assumption | apply State.grShow_kept | apply State.grTrace_kept | apply State.onTask_kept

theorem State.engineFault_kept (s : State) (e code addr : Nat) (hk : s.Kept κ) : (State.engineFault s e code addr).Kept κ := by
  unfold State.engineFault
  with_reducible repeat' first
       | assumption | intro _ | apply State.err_kept | apply State.logFree_kept
       | refine State.onEng_kept _ _ _ (fun _ h => h) ?_ | apply State.raise_kept | apply State.setEng_kept
       | apply State.showHeld_kept | apply State.taskFault_kept | apply State.wr_kept | apply Kept.foldl

theorem execEngineFault_keeps (e : Fin 16) (code : Nat) (addr : Nat) (s : State) (hk : s.Kept κ) : OutKept κ (execEngineFault e code addr
    s) := by
  unfold execEngineFault
  with_reducible repeat' first | assumption | apply Kept.next | apply State.engineFault_kept | split

theorem execEngineWdtExpiry_keeps (e : Fin 16) (s : State) (hk : s.Kept κ) : OutKept κ (execEngineWdtExpiry e s) := by
  unfold execEngineWdtExpiry
  try dsimp only
  with_reducible repeat' first
       | assumption | intro _ | apply Kept.next | apply State.draw_kept | apply State.engineFault_kept | split

theorem State.haltEngine_kept (s : State) (e : Nat) (hk : s.Kept κ) : (State.haltEngine s e).Kept κ := by
  unfold State.haltEngine
  with_reducible repeat' first
       | assumption | apply State.cleanLines_kept | apply State.dropLines_kept
       | refine State.onEng_kept _ _ _ (fun _ h => h) ?_ | apply State.setEng_kept | apply State.showHeld_kept
       | apply State.toHead_kept | apply Kept.foldl

theorem execFwHalt_keeps (r : Requester) (s : State) (hk : s.Kept κ) : OutKept κ (execFwHalt r s) := by
  unfold execFwHalt
  with_reducible repeat' first
       | assumption | intro _ | apply Kept.next | apply State.cmdWrite_kept | apply State.haltEngine_kept
       | apply Kept.foldl

theorem execFwStart_keeps (r : Requester) (s : State) (hk : s.Kept κ) : OutKept κ (execFwStart r s) := by
  unfold execFwStart
  with_reducible repeat' first
       | assumption | intro _ | apply Kept.next | apply State.cmdWrite_kept | apply State.errFree_kept
       | refine State.onEng_kept _ _ _ (fun _ h => h) ?_ | apply State.setEng_kept | apply Kept.foldl | split

theorem execFwRestart_keeps (r : Requester) (e : Fin 16) (s : State) (hk : s.Kept κ) : OutKept κ (execFwRestart r e s) := by
  unfold execFwRestart
  with_reducible repeat' first
       | assumption | intro _ | apply Kept.next | apply State.cmdWrite_kept | apply State.setEng_kept | split

theorem State.engLose_kept (s : State) (hk : s.Kept κ) : (State.engLose s).Kept κ :=
  ⟨hk.id, hk.regs, rfl, hk.dram, hk.esram, hk.ember, hk.radioMem, by
    intro x hx
    rw [List.eq_of_mem_replicate hx]
    rfl⟩

theorem State.runTask_kept (s : State) (e i type : Nat) (hk : s.Kept κ) : (State.runTask s e i type).Kept κ := by
  unfold State.runTask
  with_reducible repeat' first
       | assumption | apply State.engineFault_kept | apply State.grShow_kept | apply State.grTrace_kept
       | refine State.onEng_kept _ _ _ (fun _ h => h) ?_ | apply State.onTask_kept | apply State.setEng_kept
       | apply State.setFld_kept | split

theorem State.creditGroups_kept (s : State) (gs : List Nat) (g : Nat) (hk : s.Kept κ) : (State.creditGroups s gs g).Kept κ := by
  unfold State.creditGroups
  with_reducible repeat' first | assumption | simp only [Kept.upd_iff]

theorem execGrateDispatch_keeps (s : State) (hk : s.Kept κ) : OutKept κ (execGrateDispatch s) := by
  unfold execGrateDispatch
  with_reducible repeat' first
       | assumption | apply Kept.next | simp only [Kept.upd_iff] | apply State.creditGroups_kept
       | apply State.grShow_kept | apply State.grTrace_kept | refine State.onEng_kept _ _ _ (fun _ h => h) ?_
       | apply State.onTask_kept | apply State.runTask_kept | split

theorem execPreemptSaveDone_keeps (e : Fin 16) (s : State) (hk : s.Kept κ) : OutKept κ (execPreemptSaveDone e s) := by
  unfold execPreemptSaveDone
  try dsimp only
  with_reducible repeat' first
       | assumption | apply Kept.next | refine State.onEng_kept _ _ _ (fun _ h => h) ?_
       | apply State.onTask_kept | apply State.runTask_kept | apply State.showHeld_kept | split

theorem execTaskEndResume_keeps (e : Fin 16) (s : State) (hk : s.Kept κ) : OutKept κ (execTaskEndResume e s) := by
  unfold execTaskEndResume
  try dsimp only
  with_reducible repeat' first
       | assumption | apply Kept.next | apply State.creditGroups_kept
       | refine State.onEng_kept _ _ _ (fun _ h => h) ?_ | apply State.runTask_kept | apply State.setEng_kept
       | apply State.setFld_kept | apply State.showHeld_kept | split

theorem execTaskOverrun_keeps (t : Fin 4096) (s : State) (hk : s.Kept κ) : OutKept κ (execTaskOverrun t s) := by
  unfold execTaskOverrun
  try dsimp only
  with_reducible repeat' first
       | assumption | apply Kept.next | apply State.err_kept | apply State.grTrace_kept
       | apply State.raise_kept | split

theorem State.mbSide_kept (s : State) (m : Nat) (hk : s.Kept κ) : (State.mbSide s m).Kept κ := by
  unfold State.mbSide
  with_reducible repeat' first | assumption | apply State.err_kept

theorem State.mbBusy_kept (s : State) (m : Nat) (hk : s.Kept κ) : (State.mbBusy s m).Kept κ := by
  unfold State.mbBusy
  with_reducible repeat' first | assumption | apply State.err_kept

theorem execMbDoorbell_keeps (r : Requester) (m : Fin 32) (s : State) (hk : s.Kept κ) : OutKept κ (execMbDoorbell r m s) := by
  unfold execMbDoorbell
  with_reducible repeat' first
       | assumption | intro _ | apply Kept.next | apply State.cmdWrite_kept | apply State.mbBusy_kept
       | apply State.mbSide_kept | apply State.raise_kept | apply State.sourceEvent_kept | apply State.wr_kept
       | split

theorem execMbRelease_keeps (r : Requester) (m : Fin 32) (s : State) (hk : s.Kept κ) : OutKept κ (execMbRelease r m s) := by
  unfold execMbRelease
  with_reducible repeat' first
       | assumption | intro _ | apply Kept.next | apply State.cmdWrite_kept | apply State.mbSide_kept
       | apply State.raise_kept | apply State.setBit_kept | apply State.sourceEvent_kept | apply State.wr_kept
       | split

theorem State.mbData_kept (s : State) (r : Requester) (m a : Nat) (w : Word) (hk : s.Kept κ) : (State.mbData s r m a w).Kept κ := by
  unfold State.mbData
  with_reducible repeat' first
       | assumption | apply State.mbBusy_kept | apply State.mbSide_kept | apply State.wr_kept | split

theorem State.emberWrite_kept (s : State) (image : List Byte) (hk : s.Kept κ) : (State.emberWrite s image).Kept κ := by
  unfold State.emberWrite
  split
  · exact ⟨hk.id, hk.regs, hk.shared, hk.dram, hk.esram, Mem.wf_setBytes _ _ _ hk.ember, hk.radioMem, hk.engines⟩
  · exact hk

theorem execEmbLoad_keeps (r : Requester) (image : List Byte) (s : State) (hk : s.Kept κ) : OutKept κ (execEmbLoad r image s) := by
  unfold execEmbLoad
  with_reducible repeat' first
       | assumption | apply State.emberWrite_kept | intro _ | apply Kept.next | apply State.cmdWrite_kept | apply State.errFree_kept
       | apply State.setFld_kept | split

theorem execEmbVerifyDone_keeps (s : State) (hk : s.Kept κ) : OutKept κ (execEmbVerifyDone s) := by
  unfold execEmbVerifyDone
  with_reducible repeat' first | assumption | apply Kept.next | apply State.raise_kept | apply State.setFld_kept | split

theorem execEmbSwitch_keeps (r : Requester) (s : State) (hk : s.Kept κ) : OutKept κ (execEmbSwitch r s) := by
  refine Kept.next (State.cmdWrite_kept _ _ _ _ hk ?_)
  intro t ht
  split
  · exact Kept.upd ht rfl
  · (repeat' first
       | with_reducible assumption | intro _ | with_reducible apply Kept.next | with_reducible apply Kept.ite
       | with_reducible apply Kept.iteO | simp only [Kept.upd_iff] | with_reducible exact Kept.fault
       | with_reducible apply State.cmdWrite_kept | with_reducible apply State.errFree_kept
       | with_reducible apply Kept.foldl | with_reducible rfl | split)

theorem execEmbSwitchApply_keeps (s : State) (hk : s.Kept κ) : OutKept κ (execEmbSwitchApply s) := by
  unfold execEmbSwitchApply
  split
  · exact Kept.next (Kept.upd (State.wr_kept _ _ _ (State.setBit_kept _ _ _ _ hk)) rfl)
  · exact Kept.next hk

theorem State.embReset_kept (s : State) (hk : s.Kept κ) : (State.embReset s).Kept κ :=
  have h : ((s.setBit E5.embStat 8 true).wr E5.embVer Config.emberVersion).Kept κ := State.wr_kept _ _ _ (State.setBit_kept _ _ _ _ hk)
  ⟨h.id, h.regs, h.shared, h.dram, h.esram, rfl, h.radioMem, h.engines⟩

end Sys2Proof.Machine
end

