-- ==== Sys2Proof/Laws/KeptDram.lean ====
section
/-!
SUPPORT. What the operations and meanings of Machine/Dram.lean keep (see Kept.lean).
-/
namespace Sys2Proof.Machine

variable {κ : Part × Straps × List Instr × Nat}

theorem State.onDdr_kept (s : State) (f : DramCtl → DramCtl) (hk : s.Kept κ) : (State.onDdr s f).Kept κ := by
  unfold State.onDdr
  with_reducible repeat' first | assumption | simp only [Kept.upd_iff]

theorem State.setDm_kept (s : State) (st : Nat) (hk : s.Kept κ) : (State.setDm s st).Kept κ := by
  unfold State.setDm
  with_reducible repeat' first | assumption | apply State.healthStep_kept | apply State.setFld_kept | apply State.wr_kept

theorem State.dmCmdState_kept (s : State) (cmd : Nat) (hk : s.Kept κ) : (State.dmCmdState s cmd).Kept κ := by
  unfold State.dmCmdState
  with_reducible repeat' first | assumption | apply State.err_kept

theorem State.showTrained_kept (s : State) (b : Bool) (hk : s.Kept κ) : (State.showTrained s b).Kept κ := by
  unfold State.showTrained
  with_reducible repeat' first | assumption | intro _ | apply State.setBit_kept | apply Kept.foldl

theorem execDramInit_keeps (r : Requester) (s : State) (hk : s.Kept κ) : OutKept κ (execDramInit r s) := by
  unfold execDramInit
  with_reducible repeat' first
       | assumption | intro _ | apply Kept.next | apply State.cmdWrite_kept | apply State.dmCmdState_kept
       | apply State.setBit_kept | apply State.setDm_kept | split

theorem execDramInitDone_keeps (fail : Option (Nat × Nat)) (s : State) (hk : s.Kept κ) : OutKept κ (execDramInitDone fail s) := by
  unfold execDramInitDone
  with_reducible repeat' first
       | assumption | apply Kept.next | apply State.err_kept | apply State.onDdr_kept | apply State.raise_kept
       | apply State.setBit_kept | apply State.setDm_kept | apply State.setFld_kept
       | apply State.showTrained_kept | split

theorem execFspChange_keeps (r : Requester) (rate : Fin 4) (s : State) (hk : s.Kept κ) : OutKept κ (execFspChange r rate s) := by
  unfold execFspChange
  with_reducible repeat' first
       | assumption | intro _ | apply Kept.next | apply State.cmdWrite_kept | apply State.dmCmdState_kept
       | apply State.err_kept | apply State.onDdr_kept | apply State.setBit_kept | split

theorem execFspChangeStart_keeps (s : State) (hk : s.Kept κ) : OutKept κ (execFspChangeStart s) := by
  unfold execFspChangeStart
  with_reducible repeat' first | assumption | apply Kept.next | apply State.setBit_kept | apply State.setDm_kept | split

theorem State.retrain_kept (s : State) (all : Bool) (hk : s.Kept κ) : (State.retrain s all).Kept κ := by
  unfold State.retrain
  with_reducible repeat' first | assumption | apply State.onDdr_kept

theorem execRetrainNow_keeps (r : Requester) (allFsp : Bool) (s : State) (hk : s.Kept κ) : OutKept κ (execRetrainNow r allFsp s) := by
  unfold execRetrainNow
  with_reducible repeat' first
       | assumption | intro _ | apply Kept.next | apply State.cmdWrite_kept | apply State.dmCmdState_kept
       | apply State.retrain_kept | split

theorem execDramRetrain_keeps (s : State) (hk : s.Kept κ) : OutKept κ (execDramRetrain s) := by
  unfold execDramRetrain
  try dsimp only
  with_reducible repeat' first | assumption | apply Kept.next | apply State.retrain_kept | split

theorem State.setOwed_kept (s : State) (ch k n : Nat) (hk : s.Kept κ) : (State.setOwed s ch k n).Kept κ := by
  unfold State.setOwed
  with_reducible repeat' first | assumption | apply State.onDdr_kept | apply State.setFld_kept | split

theorem execRefreshDue_keeps (ch : Fin 4) (bank : Fin 64) (rt : Fin 3) (s : State) (hk : s.Kept κ) : OutKept κ (execRefreshDue ch bank rt
    s) := by
  unfold execRefreshDue
  try dsimp only
  with_reducible repeat' first | assumption | apply Kept.next | apply State.count_kept | apply State.setOwed_kept | split

theorem execRefreshPayback_keeps (ch : Fin 4) (bank : Fin 64) (s : State) (hk : s.Kept κ) : OutKept κ (execRefreshPayback ch bank s) := by
  unfold execRefreshPayback
  with_reducible repeat' first | assumption | apply Kept.next | apply State.setOwed_kept | split

theorem execMr4Poll_keeps (ch : Fin 4) (hot : Bool) (s : State) (hk : s.Kept κ) : OutKept κ (execMr4Poll ch hot s) := by
  unfold execMr4Poll
  with_reducible repeat' first | assumption | apply Kept.next | apply State.raise_kept | apply State.setBit_kept | split

theorem State.dmFreeze_kept (s : State) (kind inst addr : Nat) (lo hi : Word) (extra : Nat) (hk : s.Kept κ) : (State.dmFreeze s kind inst
    addr lo hi extra).Kept κ := by
  unfold State.dmFreeze
  with_reducible repeat' first
       | assumption | apply State.count_kept | apply State.err_kept | apply State.freezeHold_kept
       | apply State.logFree_kept | apply State.onDdr_kept | apply State.raise_kept | apply State.setDm_kept
       | apply State.wrs_kept

theorem State.dmCorrected_kept (s : State) (addr : Nat) (hk : s.Kept κ) : (State.dmCorrected s addr).Kept κ := by
  unfold State.dmCorrected
  try dsimp only
  with_reducible repeat' first
       | assumption | apply State.count_kept | apply State.raise_kept | apply State.setBit_kept
       | apply State.wr_kept | split

theorem State.poisonRead_kept (s : State) (line : Nat) (hk : s.Kept κ) : (State.poisonRead s line).Kept κ := by
  unfold State.poisonRead
  with_reducible repeat' first | assumption | apply State.err_kept | apply State.raise_kept | apply State.setBit_kept

theorem State.setPoison_kept (s : State) (l : List Nat) (hk : s.Kept κ) : (State.setPoison s l).Kept κ := by
  unfold State.setPoison
  with_reducible repeat' first | assumption | apply State.onDdr_kept | apply State.wr_kept

theorem State.dmError_kept (s : State) (q : DramReq) (hk : s.Kept κ) : (State.dmError s q).Kept κ := by
  unfold State.dmError
  try dsimp only
  with_reducible repeat' first | assumption | apply State.emit_kept | apply State.engineFault_kept | split

theorem State.srEnter_kept (s : State) (hk : s.Kept κ) : (State.srEnter s).Kept κ := by
  unfold State.srEnter
  with_reducible repeat' first
       | assumption | apply State.dmError_kept | apply State.onDdr_kept | apply State.setBit_kept
       | apply State.setDm_kept | apply Kept.foldl | split

theorem State.srExit_kept (s : State) (hk : s.Kept κ) : (State.srExit s).Kept κ := by
  unfold State.srExit
  with_reducible repeat' first
       | assumption | apply State.raise_kept | apply State.retrain_kept | apply State.showTrained_kept | apply State.setBit_kept
       | apply State.setDm_kept | split

theorem State.ddrLose_kept (s : State) (retained : Bool) (hk : s.Kept κ) : (State.ddrLose s retained).Kept κ :=
  ⟨hk.id, hk.regs, hk.shared, by unfold State.ddrLose; dsimp only; split; exact hk.dram; rfl, hk.esram, hk.ember, hk.radioMem, hk.engines⟩

end Sys2Proof.Machine
end

