-- ==== Sys2Proof/Laws/KeptDma.lean ====
section
/-!
SUPPORT. What the operations and meanings of Machine/Dma.lean keep (see Kept.lean).
-/
namespace Sys2Proof.Machine

variable {κ : Part × Straps × List Instr × Nat}

theorem State.radio_wf (s : State) (n : Nat) (m : Mem) (hm : Mem.wf m = true) (hk : s.Kept κ) : ∀ x ∈ s.radioMem.set n m, Mem.wf x = true
    := by
  intro x hx
  rcases List.mem_or_eq_of_mem_set hx with h | h
  · exact hk.radioMem x h
  · exact h ▸ hm

theorem State.spaceWrite_kept (s : State) (x : DmaAddr) (addr : Nat) (bs : List Byte) (hk : s.Kept κ) : (State.spaceWrite s x addr
    bs).Kept κ := by
  unfold State.spaceWrite
  split
  · exact State.emit_kept _ _ hk
  · exact State.sharedWrite_kept _ _ _ hk
  · exact Kept.setDram (Mem.wf_setBytes _ _ _ hk.dram) hk
  · exact State.onEng_kept _ _ _ (fun x h => Mem.wf_setBytes _ _ _ h) hk
  · exact Kept.setEsram (Mem.wf_setBytes _ _ _ hk.esram) hk
  · refine Kept.setRadioMem (State.radio_wf s _ _ (Mem.wf_setBytes _ _ _ ?_) hk) hk
    rw [List.getD_eq_getElem?_getD]
    cases h : s.radioMem[x.sub]? with
    | none => rfl
    | some m => exact hk.radioMem m (List.mem_of_getElem? h)

theorem State.writeBack_kept (s : State) (n : Nat) (x : DmaAddr) (ws : List Word) (all : Bool) (hk : s.Kept κ) : (State.writeBack s n x ws
    all).Kept κ := by
  unfold State.writeBack
  with_reducible repeat' first | assumption | apply State.spaceWrite_kept | split

theorem State.setCur_kept (s : State) (n : Nat) (x : DmaAddr) (hk : s.Kept κ) : (State.setCur s n x).Kept κ := by
  unfold State.setCur
  with_reducible repeat' first | assumption | apply State.wrs_kept

theorem State.showResidue_kept (s : State) (n : Nat) (hk : s.Kept κ) : (State.showResidue s n).Kept κ := by
  unfold State.showResidue
  with_reducible repeat' first | assumption | apply State.wr_kept

theorem State.descFail_kept (s : State) (n reason : Nat) (w : Option (List Word)) (hk : s.Kept κ) : (State.descFail s n reason w).Kept κ
    := by
  unfold State.descFail
  with_reducible repeat' first
       | assumption | apply State.chFail_kept | apply State.err_kept | apply State.writeBack_kept | split

theorem execChLevelAdj_keeps (r : Requester) (n : Fin 32) (w : Word) (s : State) (hk : s.Kept κ) : OutKept κ (execChLevelAdj r n w s) := by
  unfold execChLevelAdj
  with_reducible repeat' first
       | assumption | intro _ | apply Kept.next | apply State.cmdWrite_kept | apply State.pace_kept
       | apply State.wr_kept

theorem execDmaRequest_keeps (line : Nat) (s : State) (hk : s.Kept κ) : OutKept κ (execDmaRequest line s) := by
  unfold execDmaRequest
  with_reducible repeat' first | assumption | apply Kept.next | apply State.dmaRequest_kept

theorem State.chFrozen_kept (s : State) (n : Nat) (hk : s.Kept κ) : (State.chFrozen s n).Kept κ := by
  unfold State.chFrozen
  with_reducible repeat' first
       | assumption | apply State.chFail_kept | apply State.raise_kept | apply State.setBit_kept
       | apply State.setCh_kept | apply State.showResidue_kept | split

theorem State.takeDesc_kept (s : State) (n : Nat) (x : DmaAddr) (host : List Word) (hk : s.Kept κ) : (State.takeDesc s n x host).Kept κ :=
    by
  unfold State.takeDesc
  try dsimp only
  with_reducible repeat' first
       | assumption | apply State.chFail_kept | apply State.chFrozen_kept | apply State.descFail_kept | apply State.onChan_kept
       | apply State.pace_kept | apply State.setBit_kept | apply State.setCh_kept | apply State.setCur_kept
       | apply State.showResidue_kept | split

theorem execChStart_keeps (r : Requester) (n : Fin 32) (host : List Word) (s : State) (hk : s.Kept κ) : OutKept κ (execChStart r n host s)
    := by
  unfold execChStart
  try dsimp only
  with_reducible repeat' first
       | assumption | intro _ | apply Kept.next | apply State.chCmdClass_kept | apply State.chCmdState_kept
       | apply State.cmdWrite_kept | apply State.onChan_kept | apply State.takeDesc_kept | apply State.wr_kept
       | split

theorem execChPause_keeps (r : Requester) (n : Fin 32) (s : State) (hk : s.Kept κ) : OutKept κ (execChPause r n s) := by
  unfold execChPause
  try dsimp only
  with_reducible repeat' first
       | assumption | intro _ | apply Kept.next | apply State.chCmdClass_kept | apply State.chCmdState_kept
       | apply State.cmdWrite_kept | apply State.setBit_kept | apply State.setCh_kept | split

theorem execDmaPaused_keeps (n : Fin 32) (s : State) (hk : s.Kept κ) : OutKept κ (execDmaPaused n s) := by
  unfold execDmaPaused
  with_reducible repeat' first
       | assumption | apply Kept.next | apply State.raise_kept | apply State.setCh_kept
       | apply State.showResidue_kept | split

theorem execChResume_keeps (r : Requester) (n : Fin 32) (s : State) (hk : s.Kept κ) : OutKept κ (execChResume r n s) := by
  unfold execChResume
  try dsimp only
  with_reducible repeat' first
       | assumption | intro _ | apply Kept.next | apply State.chCmdClass_kept | apply State.chCmdState_kept
       | apply State.cmdWrite_kept | apply State.pace_kept | apply State.setBit_kept | apply State.setCh_kept
       | apply State.takeDesc_kept | split

theorem execChStop_keeps (r : Requester) (n : Fin 32) (s : State) (hk : s.Kept κ) : OutKept κ (execChStop r n s) := by
  unfold execChStop
  try dsimp only
  with_reducible repeat' first
       | assumption | intro _ | apply Kept.next | apply State.chAbort_kept | apply State.chCmdClass_kept
       | apply State.chCmdState_kept | apply State.cmdWrite_kept | split

theorem execChAbort_keeps (r : Requester) (n : Fin 32) (s : State) (hk : s.Kept κ) : OutKept κ (execChAbort r n s) := by
  unfold execChAbort
  try dsimp only
  with_reducible repeat' first
       | assumption | intro _ | apply Kept.next | apply State.chAbort_kept | apply State.chCmdClass_kept
       | apply State.chCmdState_kept | apply State.cmdWrite_kept | apply State.onChan_kept
       | apply State.setBit_kept | apply State.setCh_kept | apply State.showResidue_kept
       | apply State.writeBack_kept | split

theorem State.levelBurst_kept (s : State) (n k : Nat) (hk : s.Kept κ) : (State.levelBurst s n k).Kept κ := by
  unfold State.levelBurst
  with_reducible repeat' first | assumption | apply State.wr_kept | split

theorem State.burst_kept (s : State) (n : Nat) (host : List Byte) (hk : s.Kept κ) : (State.burst s n host).Kept κ := by
  unfold State.burst
  dsimp only
  with_reducible repeat' first
       | assumption | apply State.chFail_kept | apply State.poisonRead_kept | apply State.setPoison_kept | apply State.count_kept | apply State.levelBurst_kept | apply State.onChan_kept
       | apply State.pace_kept | apply State.setBit_kept | apply State.showResidue_kept
       | apply State.spaceWrite_kept | apply State.wr_kept | split

theorem execDmaBurst_keeps (host : List Byte) (s : State) (hk : s.Kept κ) : OutKept κ (execDmaBurst host s) := by
  unfold execDmaBurst
  with_reducible repeat' first
       | assumption | apply Kept.next | simp only [Kept.upd_iff] | apply State.burst_kept
       | apply State.chFail_kept | apply State.chFrozen_kept | apply State.showResidue_kept | split

theorem execDmaHostError_keeps (n : Fin 32) (s : State) (hk : s.Kept κ) : OutKept κ (execDmaHostError n s) := by
  unfold execDmaHostError
  try dsimp only
  with_reducible repeat' first
       | assumption | apply Kept.next | apply State.chFail_kept | apply State.showResidue_kept | split

theorem State.descEnd_kept (s : State) (k : Nat) (host : List Word) (hk : s.Kept κ) : (State.descEnd s k host).Kept κ := by
  unfold State.descEnd
  try dsimp only
  with_reducible repeat' first
       | assumption | apply State.chAbort_kept | apply State.chEnd_kept
       | apply State.onChan_kept | apply State.setCh_kept | apply State.setCur_kept | apply State.setFld_kept
       | apply State.sourceEvent_kept | apply State.takeDesc_kept | apply State.wr_kept
       | apply State.writeBack_kept | split

theorem execDescriptorEnd_keeps (n : Fin 32) (host : List Word) (s : State) (hk : s.Kept κ) : OutKept κ (execDescriptorEnd n host s) := by
  unfold execDescriptorEnd
  try dsimp only
  with_reducible repeat' first
       | assumption | apply Kept.next | apply State.chFail_kept | apply State.chFrozen_kept | apply State.descEnd_kept
       | apply State.showResidue_kept | split

theorem State.dmaHostLost_kept (s : State) (hk : s.Kept κ) : (State.dmaHostLost s).Kept κ := by
  unfold State.dmaHostLost
  with_reducible repeat' first
       | assumption | intro _ | apply State.chFail_kept | apply State.showResidue_kept | apply Kept.foldl
       | split

theorem State.dmaLose_kept (s : State) (hk : s.Kept κ) : (State.dmaLose s).Kept κ := by
  unfold State.dmaLose
  with_reducible repeat' first | assumption | simp only [Kept.upd_iff]

end Sys2Proof.Machine
end

