-- ==== Sys2Proof/Laws/KeptDramAccess.lean ====
section
/-!
SUPPORT. What the operations and meanings of Machine/DramAccess.lean keep (see Kept.lean).
-/
namespace Sys2Proof.Machine

variable {κ : Part × Straps × List Instr × Nat}

theorem State.accessError_kept (s : State) (q : DramReq) (hk : s.Kept κ) : (State.accessError s q).Kept κ := by
  unfold State.accessError
  try dsimp only
  with_reducible repeat' first
       | assumption | apply State.chFrozen_kept | apply State.chFail_kept | apply State.showResidue_kept | apply State.dmError_kept
       | split

theorem State.dmIssue_kept (s : State) (q : DramReq) (hk : s.Kept κ) : (State.dmIssue s q).Kept κ := by
  unfold State.dmIssue
  split
  · (repeat' first
       | with_reducible assumption | intro _ | with_reducible apply Kept.next | with_reducible apply Kept.ite
       | with_reducible apply Kept.iteO | simp only [Kept.upd_iff] | with_reducible exact Kept.fault
       | with_reducible apply State.accessError_kept | with_reducible apply State.emit_kept
       | with_reducible apply State.poisonRead_kept | with_reducible apply State.setPoison_kept
       | with_reducible apply Mem.wf_setBytes | with_reducible apply Mem.wf_setWords
       | with_reducible apply Mem.wf_setWord | with_reducible apply Mem.wf_set
       | with_reducible apply State.Kept.dram (κ := κ) | with_reducible apply State.Kept.esram (κ := κ)
       | with_reducible apply State.Kept.shared (κ := κ) | with_reducible apply Kept.updDram
       | with_reducible apply Kept.updEsram | with_reducible apply Kept.updShared
       | with_reducible apply Kept.foldl | with_reducible rfl | split)
  · split
    · exact State.setPoison_kept _ _ (Kept.setDram (Mem.wf_setBytes _ _ _ hk.dram) hk)
    · (repeat' first
       | with_reducible assumption | intro _ | with_reducible apply Kept.next | with_reducible apply Kept.ite
       | with_reducible apply Kept.iteO | simp only [Kept.upd_iff] | with_reducible exact Kept.fault
       | with_reducible apply State.accessError_kept | with_reducible apply State.emit_kept
       | with_reducible apply State.poisonRead_kept | with_reducible apply State.setPoison_kept
       | with_reducible apply Mem.wf_setBytes | with_reducible apply Mem.wf_setWords
       | with_reducible apply Mem.wf_setWord | with_reducible apply Mem.wf_set
       | with_reducible apply State.Kept.dram (κ := κ) | with_reducible apply State.Kept.esram (κ := κ)
       | with_reducible apply State.Kept.shared (κ := κ) | with_reducible apply Kept.updDram
       | with_reducible apply Kept.updEsram | with_reducible apply Kept.updShared
       | with_reducible apply Kept.foldl | with_reducible rfl | split)

theorem State.dmDrain_kept (s : State) (hk : s.Kept κ) : (State.dmDrain s).Kept κ := by
  unfold State.dmDrain
  with_reducible repeat' first | assumption | apply State.dmIssue_kept | apply State.onDdr_kept | apply Kept.foldl

theorem State.eccIssue_kept (s : State) (q : DramReq) (ecc : EccFound) (hk : s.Kept κ) : (State.eccIssue s q ecc).Kept κ := by
  unfold State.eccIssue
  with_reducible repeat' first
       | assumption | apply State.accessError_kept | apply State.dmCorrected_kept | apply State.dmFreeze_kept
       | apply State.dmIssue_kept | apply Kept.foldl | split

theorem execDramAccess_keeps (kind : Fin 6) (inst : Fin 32) (addr len : Nat) (write : Option (List Byte)) (untracked : Bool) (ecc :
    EccFound) (s : State) (hk : s.Kept κ) : OutKept κ (execDramAccess kind inst addr len write untracked ecc s) := by
  unfold execDramAccess
  try dsimp only
  with_reducible repeat' first
       | assumption | apply Kept.next | apply State.accessError_kept | apply State.count_kept
       | apply State.eccIssue_kept | apply State.onDdr_kept | split

theorem execPatrolScrub_keeps (ecc : EccFound) (s : State) (hk : s.Kept κ) : OutKept κ (execPatrolScrub ecc s) := by
  unfold execPatrolScrub
  try dsimp only
  with_reducible repeat' first
       | assumption | apply Kept.next | apply State.dmCorrected_kept | apply State.dmFreeze_kept
       | apply State.onDdr_kept | apply State.poisonRead_kept | apply Kept.foldl | split

theorem State.fspEnd_kept (s : State) (hk : s.Kept κ) : (State.fspEnd s).Kept κ := by
  unfold State.fspEnd
  with_reducible repeat' first
       | assumption | apply State.dmDrain_kept | apply State.onDdr_kept
       | apply State.raise_kept | apply State.setDm_kept | apply State.setFld_kept | split

theorem execFspDone_keeps (s : State) (hk : s.Kept κ) : OutKept κ (execFspDone s) := Kept.next (State.fspEnd_kept s hk)

theorem execUnfreezeResume_keeps (r : Requester) (s : State) (hk : s.Kept κ) : OutKept κ (execUnfreezeResume r s) := by
  unfold execUnfreezeResume
  with_reducible repeat' first
       | assumption | intro _ | apply Kept.next | apply State.cmdWrite_kept | apply State.dmCmdState_kept
       | apply State.dmDrain_kept | apply State.err_kept | apply State.raise_kept | apply State.setDm_kept
       | apply State.setPoison_kept | split

theorem execUnfreezeReinit_keeps (r : Requester) (s : State) (hk : s.Kept κ) : OutKept κ (execUnfreezeReinit r s) := by
  refine Kept.next (State.cmdWrite_kept _ _ _ _ hk ?_)
  intro t ht
  split
  · exact State.dmCmdState_kept _ _ ht
  · apply State.showTrained_kept
    refine Kept.setDram rfl ?_
    exact State.setDm_kept _ _ (State.setPoison_kept _ _ (State.onDdr_kept _ _ (Kept.foldl ht (fun u q hu => State.accessError_kept _ _
        hu))))

end Sys2Proof.Machine
end

