-- ==== Sys2Proof/Laws/KeptHostPort.lean ====
section
/-!
SUPPORT. What the operations and meanings of Machine/HostPort.lean keep (see Kept.lean).
-/
namespace Sys2Proof.Machine

variable {κ : Part × Straps × List Instr × Nat}

theorem State.fireAll_kept (s : State) (hk : s.Kept κ) : (State.fireAll s).Kept κ := by
  unfold State.fireAll
  with_reducible repeat' first | assumption | intro _ | apply State.fireVector_kept | apply Kept.foldl | split

theorem State.hpReset_kept (s : State) (hk : s.Kept κ) : (State.hpReset s).Kept κ := by
  unfold State.hpReset
  apply State.dmaHostLost_kept
  apply State.setBit_kept
  exact ⟨hk.id, Sparse.filter_sorted _ _ hk.regs, hk.shared, hk.dram, hk.esram, hk.ember, hk.radioMem, hk.engines⟩

theorem State.hostLinkDown_kept (s : State) (hk : s.Kept κ) : (State.hostLinkDown s).Kept κ := by
  unfold State.hostLinkDown
  with_reducible repeat' first
       | assumption | apply State.count_kept | apply State.hpReset_kept | apply State.raise_kept
       | apply State.setBit_kept | apply State.wr_kept | split

theorem execPerstDeassert_keeps (s : State) (hk : s.Kept κ) : OutKept κ (execPerstDeassert s) := by
  unfold execPerstDeassert
  with_reducible repeat' first | assumption | apply Kept.next | simp only [Kept.upd_iff]

theorem execPerstAssert_keeps (s : State) (hk : s.Kept κ) : OutKept κ (execPerstAssert s) := by
  unfold execPerstAssert
  with_reducible repeat' first
       | assumption | apply Kept.next | simp only [Kept.upd_iff] | apply State.hostLinkDown_kept
       | apply State.hpReset_kept | split

theorem execPcieLinkUp_keeps (speed : Fin 8) (width : Fin 16) (s : State) (hk : s.Kept κ) : OutKept κ (execPcieLinkUp speed width s) := by
  unfold execPcieLinkUp
  with_reducible repeat' first
       | assumption | apply Kept.next | apply State.fireAll_kept | apply State.raise_kept | apply State.wr_kept
       | split

theorem execHotReset_keeps (s : State) (hk : s.Kept κ) : OutKept κ (execHotReset s) := by
  unfold execHotReset
  with_reducible repeat' first | assumption | apply Kept.next | apply State.hpReset_kept | split

theorem execFunctionLevelReset_keeps (s : State) (hk : s.Kept κ) : OutKept κ (execFunctionLevelReset s) := by
  unfold execFunctionLevelReset
  with_reducible repeat' first | assumption | apply Kept.next | apply State.hpReset_kept | split

theorem execLinkDown_keeps (s : State) (hk : s.Kept κ) : OutKept κ (execLinkDown s) := by
  unfold execLinkDown
  with_reducible repeat' first | assumption | apply Kept.next | apply State.hostLinkDown_kept

theorem execMsixEnable_keeps (s : State) (hk : s.Kept κ) : OutKept κ (execMsixEnable s) := by
  unfold execMsixEnable
  with_reducible repeat' first | assumption | apply Kept.next | simp only [Kept.upd_iff] | apply State.fireAll_kept | split

theorem execMsixVectorUnmask_keeps (v : Fin 64) (s : State) (hk : s.Kept κ) : OutKept κ (execMsixVectorUnmask v s) := by
  unfold execMsixVectorUnmask
  with_reducible repeat' first | assumption | apply Kept.next | simp only [Kept.upd_iff] | apply State.emit_kept | split

theorem execHoldAbort_keeps (a : Nat) (bar2 write : Bool) (s : State) (hk : s.Kept κ) : OutKept κ (execHoldAbort a bar2 write s) := by
  unfold execHoldAbort
  try dsimp only
  with_reducible repeat' first
       | assumption | apply State.onDdr_kept | apply Kept.next | apply State.count_kept | apply State.emit_kept | apply State.err_kept
       | apply State.raise_kept | split

theorem execEthLinkChange_keeps (q : Fin 3) (stat : Byte) (s : State) (hk : s.Kept κ) : OutKept κ (execEthLinkChange q stat s) := by
  unfold execEthLinkChange
  with_reducible repeat' first | assumption | apply Kept.next | apply State.raise_kept | apply State.wr_kept | split

theorem State.sfpStart_kept (s : State) (q : Nat) (hk : s.Kept κ) : (State.sfpStart s q).Kept κ := by
  unfold State.sfpStart
  with_reducible repeat' first | assumption | apply State.emit_kept | apply State.setBit_kept

theorem execSfpI2cDone_keeps (q : Fin 2) (nack : Bool) (data : Byte) (s : State) (hk : s.Kept κ) : OutKept κ (execSfpI2cDone q nack data
    s) := by
  unfold execSfpI2cDone
  try dsimp only
  with_reducible repeat' first
       | assumption | apply Kept.next | apply State.err_kept | apply State.setBit_kept
       | apply State.setFld_kept | split

theorem State.bypSettleOne_kept (s : State) (q : Nat) (hk : s.Kept κ) : (State.bypSettleOne s q).Kept κ := by
  unfold State.bypSettleOne
  try dsimp only
  with_reducible repeat' first
       | assumption | apply State.raise_kept | apply State.setBit_kept | apply State.setFld_kept | split

theorem State.bypSettle_kept (s0 s : State) (hk : s.Kept κ) : (State.bypSettle s0 s).Kept κ := by
  unfold State.bypSettle
  try dsimp only
  repeat' first
       | with_reducible assumption | intro _ | with_reducible apply Kept.next | with_reducible apply Kept.ite
       | with_reducible apply Kept.iteO | simp only [Kept.upd_iff] | with_reducible exact Kept.fault
       | with_reducible apply State.bypSettleOne_kept | with_reducible apply State.healthStep_kept
       | with_reducible apply Kept.foldl | with_reducible rfl | split

theorem State.bypExpire_kept (s : State) (hk : s.Kept κ) : (State.bypExpire s).Kept κ := by
  unfold State.bypExpire
  with_reducible repeat' first
       | assumption | simp only [Kept.upd_iff] | apply State.bypSettleOne_kept | apply State.healthStep_kept
       | apply State.logFree_kept | apply State.raise_kept | apply State.setBit_kept | apply State.wr_kept

theorem execBypassWdtExpiry_keeps (s : State) (hk : s.Kept κ) : OutKept κ (execBypassWdtExpiry s) := by
  unfold execBypassWdtExpiry
  with_reducible repeat' first | assumption | apply Kept.next | apply State.bypExpire_kept | split

theorem State.bypWrite_kept (s : State) (r : Requester) (a : Nat) (w : Word) (act : Nat → State → State) (hk : s.Kept κ) (h_act : ∀ x0 t,
    t.Kept κ → (act x0 t).Kept κ) : (State.bypWrite s r a w act).Kept κ := by
  unfold State.bypWrite
  with_reducible repeat' first
       | assumption | intro _ | apply h_act | apply State.cmdWrite_kept | apply State.err_kept
       | apply State.guardWrite_kept | split

theorem execBypOpenWrite_keeps (r : Requester) (w : Word) (s : State) (hk : s.Kept κ) : OutKept κ (execBypOpenWrite r w s) := by
  unfold execBypOpenWrite
  with_reducible repeat' first
       | assumption | intro _ | apply Kept.next | apply State.bypSettle_kept | apply State.bypWrite_kept
       | apply State.guardRange_kept | apply State.wr_kept | split

theorem State.bypKicked_kept (s : State) (v : Nat) (hk : s.Kept κ) : (State.bypKicked s v).Kept κ := by
  unfold State.bypKicked
  with_reducible repeat' first
       | assumption | simp only [Kept.upd_iff] | apply State.bypExpire_kept | apply State.bypSettle_kept
       | apply State.setBit_kept | apply State.wr_kept | split

theorem execBypKick_keeps (r : Requester) (w : Word) (s : State) (hk : s.Kept κ) : OutKept κ (execBypKick r w s) := by
  unfold execBypKick
  with_reducible repeat' first
       | assumption | intro _ | apply Kept.next | apply State.bypKicked_kept | apply State.bypWrite_kept
       | apply State.guardRange_kept | split

theorem State.korEnable_kept (s : State) (k : Nat) (hk : s.Kept κ) : (State.korEnable s k).Kept κ := by
  unfold State.korEnable
  with_reducible repeat' first | assumption | apply State.err_kept | apply State.wr_kept | split

theorem execKorUp_keeps (k : Fin 3) (peerPart peerLink : Fin 4) (peerMaster : Bool) (s : State) (hk : s.Kept κ) : OutKept κ (execKorUp k
    peerPart peerLink peerMaster s) := by
  unfold execKorUp
  try dsimp only
  with_reducible repeat' first
       | assumption | apply Kept.next | apply State.err_kept | apply State.raise_kept | apply State.wr_kept
       | split

theorem State.masterLost_kept (s : State) (hk : s.Kept κ) : (State.masterLost s).Kept κ := by
  unfold State.masterLost
  try dsimp only
  with_reducible repeat' first
       | assumption | apply State.onKeeper_kept | apply State.reselect_kept | apply State.setQual_kept | split

theorem State.korLose_kept (s : State) (k : Nat) (hk : s.Kept κ) : (State.korLose s k).Kept κ := by
  unfold State.korLose
  with_reducible repeat' first
       | assumption | apply State.bump_kept | apply State.groupsLose_kept | apply State.masterLost_kept
       | apply State.raise_kept | apply State.setBit_kept | apply State.setFld_kept | split

theorem execKorDown_keeps (k : Fin 3) (s : State) (hk : s.Kept κ) : OutKept κ (execKorDown k s) := by
  unfold execKorDown
  with_reducible repeat' first | assumption | apply Kept.next | apply State.korLose_kept | split

theorem execKorDegraded_keeps (k : Fin 3) (s : State) (hk : s.Kept κ) : OutKept κ (execKorDegraded k s) := by
  unfold execKorDegraded
  with_reducible repeat' first
       | assumption | apply Kept.next | apply State.korLose_kept | apply State.raise_kept
       | apply State.setFld_kept | split

theorem execKorubTimeExchange_keeps (k : Fin 3) (m : TimeMeas) (masterHold : Bool) (s : State) (hk : s.Kept κ) : OutKept κ
    (execKorubTimeExchange k m masterHold s) := by
  unfold execKorubTimeExchange
  with_reducible repeat' first
       | assumption | apply Kept.next | apply State.measure_kept | apply State.onKeeper_kept
       | apply State.setQual_kept | apply State.wr_kept | split

theorem State.stageValue_kept (s : State) (n : Fin 16) (a : Nat) (v : Word) (clamped : Bool) (hk : s.Kept κ) : (State.stageValue s n a v
    clamped).Kept κ := by
  unfold State.stageValue
  try dsimp only
  with_reducible repeat' first | assumption | apply State.refuseStaged_kept | apply State.setGroup_kept | split

theorem State.cascStaged_kept (s : State) (tag part a : Nat) (found : CascFound) (w : Word) (hk : s.Kept κ) : (State.cascStaged s tag part
    a found w).Kept κ := by
  unfold State.cascStaged
  with_reducible repeat' first
       | assumption | apply State.abortGroup_kept | apply State.emit_kept | apply State.stageValue_kept | split

theorem State.cascWriteTo_kept (s : State) (part a : Nat) (w : Word) (found : CascFound) (hk : s.Kept κ) : (State.cascWriteTo s part a w
    found).Kept κ := by
  unfold State.cascWriteTo
  try dsimp only
  with_reducible repeat' first
       | assumption | apply State.cascStaged_kept | apply State.emit_kept | apply State.setTag_kept | split

theorem State.cascAccess_kept (s : State) (off : Nat) (w : Option Word) (found : CascFound) (hk : s.Kept κ) : (State.cascAccess s off w
    found).Kept κ := by
  unfold State.cascAccess
  try dsimp only
  with_reducible repeat' first
       | assumption | apply State.answer_kept | apply State.cascWriteTo_kept | apply State.err_kept | split

theorem State.cascWrite_kept (s : State) (off : Nat) (w : Word) (hk : s.Kept κ) : (State.cascWrite s off w).Kept κ := by
  unfold State.cascWrite
  try dsimp only
  with_reducible repeat' first
       | assumption | apply State.cascAccess_kept | intro _ | apply State.draw_kept | split

theorem execCascWindowAccess_keeps (_r : Requester) (off : Nat) (w : Option Word) (found : CascFound) (s : State) (hk : s.Kept κ) :
    OutKept κ (execCascWindowAccess _r off w found s) := by
  unfold execCascWindowAccess
  with_reducible repeat' first | assumption | apply Kept.next | apply State.cascAccess_kept

end Sys2Proof.Machine
end

