-- ==== Sys2Proof/Laws/KeptPower.lean ====
section
/-!
SUPPORT. What the operations and meanings of Machine/Power.lean keep (see Kept.lean).
-/
namespace Sys2Proof.Machine

variable {κ : Part × Straps × List Instr × Nat}

theorem State.srIn_kept (s : State) (hk : s.Kept κ) : (State.srIn s).Kept κ := by
  unfold State.srIn
  with_reducible repeat' first | assumption | apply State.fspEnd_kept | apply State.srEnter_kept

theorem State.setPstate_kept (s : State) (st : Nat) (hk : s.Kept κ) : (State.setPstate s st).Kept κ := by
  unfold State.setPstate
  with_reducible repeat' first | assumption | simp only [Kept.upd_iff] | apply State.oscSync_kept | apply State.setFld_kept

theorem State.transCheck_kept (s : State) (hk : s.Kept κ) : (State.transCheck s).Kept κ := by
  unfold State.transCheck
  with_reducible repeat' first
       | assumption | apply State.raise_kept | apply State.setPstate_kept | apply State.wr_kept | split

theorem State.onTrans_kept (s : State) (f : Transition → Transition) (hk : s.Kept κ) : (State.onTrans s f).Kept κ := by
  unfold State.onTrans
  with_reducible repeat' first | assumption | simp only [Kept.upd_iff]

theorem State.srEnd_kept (s : State) (hk : s.Kept κ) : (State.srEnd s).Kept κ := by
  unfold State.srEnd
  try dsimp only
  with_reducible repeat' first
       | assumption | apply State.srExit_kept | apply State.srIn_kept | apply State.onTrans_kept | intro _ | apply State.draw_kept | split

theorem State.startOver_kept (s : State) (d : Fin 6) (hk : s.Kept κ) : (State.startOver s d).Kept κ := by
  unfold State.startOver
  try dsimp only
  with_reducible repeat' first
       | assumption | apply State.setBit_kept | apply State.onTrans_kept | apply State.transCheck_kept | intro _ | apply State.draw_kept | split

theorem State.startCal_kept (s : State) (d : Fin 6) (hk : s.Kept κ) : (State.startCal s d).Kept κ := by
  unfold State.startCal
  try dsimp only
  with_reducible repeat' first
       | assumption | apply State.setPa_kept | apply State.emit_kept | intro _ | apply State.draw_kept | split

theorem State.pauseNow_kept (s : State) (hk : s.Kept κ) : (State.pauseNow s).Kept κ := by
  unfold State.pauseNow
  try dsimp only
  repeat' first
       | with_reducible assumption | intro _ | with_reducible apply Kept.next | with_reducible apply Kept.ite
       | with_reducible apply Kept.iteO | simp only [Kept.upd_iff] | with_reducible exact Kept.fault
       | with_reducible apply State.setBit_kept | with_reducible apply Kept.foldl | with_reducible rfl | split

theorem State.startEnd_kept (s : State) (d : Fin 6) (hk : s.Kept κ) : (State.startEnd s d).Kept κ := by
  unfold State.startEnd
  with_reducible repeat' first
       | assumption | apply State.pauseNow_kept | apply State.startOver_kept | apply State.onTrans_kept | apply State.setBit_kept | apply State.transCheck_kept | split

theorem State.resumeTrans_kept (s : State) (hk : s.Kept κ) : (State.resumeTrans s).Kept κ := by
  unfold State.resumeTrans
  try dsimp only
  with_reducible repeat' first
       | assumption | apply State.srEnd_kept | apply State.startCal_kept | apply State.startOver_kept | apply State.transCheck_kept | intro _ | apply Kept.next | apply Kept.ite | apply Kept.iteO | simp only [Kept.upd_iff]
       | exact Kept.fault | apply State.setBit_kept | apply Kept.foldl | rfl | split

theorem State.monEndAt_kept (s : State) (m : Nat) (reset : Bool) (us mv : Nat) (hk : s.Kept κ) : (State.monEndAt s m reset us mv).Kept κ := by
  unfold State.monEndAt
  try dsimp only
  with_reducible repeat' first
       | assumption | apply State.setBit_kept | apply State.wr_kept | apply State.wrs_kept | apply State.resumeTrans_kept | intro _ | apply State.draw_kept | split

theorem State.monEnd_kept (s : State) (m : Nat) (reset : Bool) (hk : s.Kept κ) : (State.monEnd s m reset).Kept κ := by
  unfold State.monEnd
  try dsimp only
  with_reducible repeat' first
       | assumption | apply State.monEndAt_kept | intro _ | apply State.draw_kept | apply State.resumeTrans_kept | apply State.setBit_kept
       | apply State.wr_kept | apply State.wrs_kept | split

theorem State.pauseTrans_kept (s : State) (hk : s.Kept κ) : (State.pauseTrans s).Kept κ := by
  unfold State.pauseTrans
  try dsimp only
  with_reducible repeat' first
       | assumption | intro _ | apply Kept.next | apply Kept.ite | apply Kept.iteO | simp only [Kept.upd_iff]
       | exact Kept.fault | apply State.pauseNow_kept | apply Kept.foldl | rfl | split

theorem State.testBoundary_kept (s : State) (die : Die) (hk : s.Kept κ) : (State.testBoundary s die).Kept κ := by
  unfold State.testBoundary
  try dsimp only
  repeat' first
       | with_reducible assumption | intro _ | with_reducible apply Kept.next | with_reducible apply Kept.ite
       | with_reducible apply Kept.iteO | simp only [Kept.upd_iff] | with_reducible exact Kept.fault
       | with_reducible apply State.pauseNow_kept | with_reducible apply Kept.foldl | with_reducible rfl
       | split

theorem State.warnMark_kept (s : State) (m : Fin 8) (hk : s.Kept κ) : (State.warnMark s m).Kept κ := by
  unfold State.warnMark
  with_reducible repeat' first
       | assumption | simp only [Kept.upd_iff] | apply State.bump_kept | apply State.logEvent_kept
       | apply State.raise_kept | apply State.setBit_kept

theorem State.warnStops_kept (s : State) (d : Die) (hk : s.Kept κ) : (State.warnStops s d).Kept κ := by
  cases d <;> unfold State.warnStops <;> (try dsimp only)
  all_goals
     (repeat' first
       | with_reducible assumption | intro _ | with_reducible apply Kept.next | with_reducible apply Kept.ite
       | with_reducible apply Kept.iteO | simp only [Kept.upd_iff] | with_reducible exact Kept.fault
       | with_reducible apply State.bhSupplyWarn_kept | with_reducible apply State.accSupplyWarn_kept | with_reducible apply State.sgSupplyWarn_kept
       | with_reducible apply Kept.foldl | with_reducible rfl | split)

theorem State.okStarts_kept (s : State) (d : Die) (hk : s.Kept κ) : (State.okStarts s d).Kept κ := by
  cases d <;> unfold State.okStarts <;> (try dsimp only)
  all_goals
     (repeat' first
       | with_reducible assumption | intro _ | with_reducible apply Kept.next | with_reducible apply Kept.ite
       | with_reducible apply Kept.iteO | simp only [Kept.upd_iff] | with_reducible exact Kept.fault
       | with_reducible apply State.accSupplyOk_kept | with_reducible apply State.sgSupplyOk_kept
       | with_reducible apply Kept.foldl | with_reducible rfl | split)

theorem State.warnDeclare_kept (s : State) (m : Fin 8) (hk : s.Kept κ) : (State.warnDeclare s m).Kept κ := by
  unfold State.warnDeclare
  with_reducible repeat' first
       | assumption | apply State.healthStep_kept | apply State.pauseTrans_kept | apply State.supplyCancel_kept
       | apply State.warnMark_kept | apply State.warnStops_kept | split

theorem execSupplyWarning_keeps (m : Fin 8) (s : State) (hk : s.Kept κ) : OutKept κ (execSupplyWarning m s) := by
  unfold execSupplyWarning
  with_reducible repeat' first | assumption | apply Kept.next | apply State.warnDeclare_kept | split

theorem State.warnClear_kept (s : State) (m : Fin 8) (us mv : Nat) (hk : s.Kept κ) : (State.warnClear s m us mv).Kept κ := by
  unfold State.warnClear
  with_reducible repeat' first
       | assumption | apply State.logEvent_kept | apply State.raise_kept | apply State.setBit_kept
       | apply State.wr_kept | apply State.wrs_kept

theorem execSupplyOk_keeps (m : Fin 8) (us mv : Nat) (s : State) (hk : s.Kept κ) : OutKept κ (execSupplyOk m us mv s) := by
  unfold execSupplyOk
  with_reducible repeat' first
       | assumption | apply Kept.next | apply State.healthStep_kept | apply State.okStarts_kept
       | apply State.resumeTrans_kept | apply State.warnClear_kept | split

theorem State.setEnD_kept (s : State) (bits : BitVec 6) (on : Bool) (hk : s.Kept κ) : (State.setEnD s bits on).Kept κ := by
  unfold State.setEnD
  try dsimp only
  with_reducible repeat' first
       | assumption | simp only [Kept.upd_iff] | intro _ | apply State.draw_kept | split

theorem State.radioDown_kept (s : State) (n : Fin 6) (hk : s.Kept κ) : (State.radioDown s n).Kept κ := by
  unfold State.radioDown
  extract_lets bit6 s0 w s1 s2 _ s3
  have h0 : s0.Kept κ := State.setEnD_kept _ _ _ hk
  have h2 : s2.Kept κ := State.monEnd_kept _ _ _ (State.partDieLost_kept _ _ (State.discardActs_kept _ _ (State.groupsLose_kept _ _ _ _
      h0)))
  split
  · exact h0
  · clear_value s2
    have h3 : s3.Kept κ := ⟨h2.id, h2.regs, h2.shared, h2.dram, h2.esram, h2.ember, State.radio_wf s2 _ _ rfl h2, h2.engines⟩
    clear_value s3
    exact State.setBit_kept _ _ _ _ (State.setBit_kept _ _ _ _ (State.clearRegs_kept _ _ _ h3))

theorem State.timeToE_kept (s : State) (hk : s.Kept κ) : (State.timeToE s).Kept κ := by
  unfold State.timeToE
  with_reducible repeat' first
       | assumption | simp only [Kept.upd_iff] | apply State.onKeeper_kept | apply State.rtcJudge_kept
       | apply State.setBit_kept | apply State.wrs_kept

theorem State.bypLow_kept (s : State) (hk : s.Kept κ) : (State.bypLow s).Kept κ := by
  unfold State.bypLow
  with_reducible repeat' first | assumption | apply State.healthStep_kept | apply State.setFld_kept

theorem State.quitC_kept (s : State) (stay : BitVec 6) (hk : s.Kept κ) : (State.quitC s stay).Kept κ := by
  unfold State.quitC
  with_reducible repeat' first
       | assumption | intro _ | apply State.bypLow_kept | apply State.discardActs_kept
       | apply State.discardGroups_kept | apply State.radioDown_kept | apply State.timeToE_kept
       | apply Kept.foldl | split

theorem State.blocksLost_kept (s : State) (hk : s.Kept κ) : (State.blocksLost s).Kept κ := by
  unfold State.blocksLost
  with_reducible repeat' first
       | assumption | simp only [Kept.upd_iff] | apply State.engLose_kept | apply State.pipeLose_kept
       | apply State.xblLose_kept

theorem State.setEnC_kept (s : State) (on : Bool) (hk : s.Kept κ) : (State.setEnC s on).Kept κ := by
  unfold State.setEnC
  with_reducible repeat' first | assumption | apply State.setBit_kept

theorem State.cOff_kept (s : State) (retained : Bool) (hk : s.Kept κ) : (State.cOff s retained).Kept κ := by
  unfold State.cOff
  with_reducible repeat' first
       | assumption | simp only [Kept.upd_iff] | apply State.blocksLost_kept | apply State.clearRegs_kept
       | apply State.ddrLose_kept | apply State.dmaLose_kept | apply State.monEnd_kept
       | apply State.oscSync_kept | apply State.setBit_kept | apply State.setEnC_kept

theorem State.beginTrans_kept (s : State) (t : Transition) (hk : s.Kept κ) : (State.beginTrans s t).Kept κ := by
  unfold State.beginTrans
  with_reducible repeat' first
       | assumption | simp only [Kept.upd_iff] | apply State.oscSync_kept | apply State.pauseTrans_kept
       | apply State.setBit_kept | apply State.setFld_kept

theorem State.powerDown_kept (s : State) (v : Nat) (hk : s.Kept κ) : (State.powerDown s v).Kept κ := by
  unfold State.powerDown
  with_reducible repeat' first
       | assumption | simp only [Kept.upd_iff] | apply State.oscSync_kept | apply State.quitC_kept
       | apply State.setBit_kept | apply State.setFld_kept | split

theorem State.kindleStart_kept (s : State) (v : Nat) (hk : s.Kept κ) : (State.kindleStart s v).Kept κ := by
  unfold State.kindleStart
  with_reducible repeat' first | assumption | apply State.beginTrans_kept | apply State.setEnC_kept

theorem State.runChange_kept (s : State) (v : Nat) (hk : s.Kept κ) : (State.runChange s v).Kept κ := by
  unfold State.runChange
  try dsimp only
  with_reducible repeat' first
       | assumption | apply State.setEnD_kept | intro _ | apply State.beginTrans_kept | apply State.radioDown_kept
       | apply State.transCheck_kept | apply Kept.foldl | split

theorem State.dropAdded_kept (s : State) (t : Transition) (stay : BitVec 6) (hk : s.Kept κ) : (State.dropAdded s t stay).Kept κ := by
  unfold State.dropAdded
  with_reducible repeat' first | assumption | intro _ | apply State.radioDown_kept | apply Kept.foldl | split

theorem State.stopAll_kept (s : State) (reset : Bool) (hk : s.Kept κ) : (State.stopAll s reset).Kept κ := by
  unfold State.stopAll
  extract_lets _ s1 z
  have h1 : s1.Kept κ := Kept.foldl (Kept.upd hk rfl) (fun t x ht => State.monEnd_kept _ _ _ ht)
  clear_value s1
  refine ⟨hk.id, Sparse.filter_sorted _ _ h1.regs, rfl, rfl, rfl, rfl, ?_, ?_⟩ <;> · intro x hx; rw [List.eq_of_mem_replicate hx]; rfl

theorem State.preempted_kept (s : State) (cmd : Option Word) (hk : s.Kept κ) : (State.preempted s cmd).Kept κ := by
  unfold State.preempted
  with_reducible repeat' first | assumption | apply State.err_kept | split

theorem State.deviceReset_kept (s : State) (cause : Nat) (cmd : Option Word) (hk : s.Kept κ) : (State.deviceReset s cause cmd).Kept κ := by
  unfold State.deviceReset
  with_reducible repeat' first
       | assumption | apply State.bump_kept | apply State.preempted_kept | apply State.setFld_kept
       | apply State.stopAll_kept

theorem State.pwrCmd_kept (s : State) (r : Requester) (v : Nat) (hk : s.Kept κ) : (State.pwrCmd s r v).Kept κ := by
  unfold State.pwrCmd
  with_reducible repeat' first
       | assumption | simp only [Kept.upd_iff] | apply State.deviceReset_kept | apply State.dropAdded_kept | apply State.err_kept
       | apply State.guardRange_kept | apply State.kindleStart_kept | apply State.powerDown_kept
       | apply State.runChange_kept | apply State.wr_kept | split

theorem execPwrEmber_keeps (r : Requester) (hi : Half) (sr : Bool) (s : State) (hk : s.Kept κ) : OutKept κ (execPwrEmber r hi sr s) := by
  unfold execPwrEmber
  with_reducible repeat' first
       | assumption | intro _ | apply Kept.next | apply State.guardWrite_kept | apply State.pwrCmd_kept

theorem execPwrStandby_keeps (r : Requester) (hi : Half) (sr : Bool) (s : State) (hk : s.Kept κ) : OutKept κ (execPwrStandby r hi sr s) :=
    by
  unfold execPwrStandby
  with_reducible repeat' first
       | assumption | intro _ | apply Kept.next | apply State.guardWrite_kept | apply State.pwrCmd_kept

theorem execPwrRun_keeps (r : Requester) (hi : Half) (radioEn : BitVec 6) (sr : Bool) (s : State) (hk : s.Kept κ) : OutKept κ (execPwrRun
    r hi radioEn sr s) := by
  unfold execPwrRun
  with_reducible repeat' first
       | assumption | intro _ | apply Kept.next | apply State.guardWrite_kept | apply State.pwrCmd_kept

theorem execPwrOff_keeps (r : Requester) (hi : Half) (s : State) (hk : s.Kept κ) : OutKept κ (execPwrOff r hi s) := by
  unfold execPwrOff
  with_reducible repeat' first
       | assumption | intro _ | apply Kept.next | apply State.guardWrite_kept | apply State.pwrCmd_kept

theorem execPwrReset_keeps (r : Requester) (hi : Half) (s : State) (hk : s.Kept κ) : OutKept κ (execPwrReset r hi s) := by
  unfold execPwrReset
  with_reducible repeat' first
       | assumption | intro _ | apply Kept.next | apply State.guardWrite_kept | apply State.pwrCmd_kept

theorem execTransDone_keeps (s : State) (hk : s.Kept κ) : OutKept κ (execTransDone s) := by
  unfold execTransDone
  with_reducible repeat' first
       | assumption | apply State.srEnd_kept | apply State.pauseNow_kept | apply State.timeToE_kept | apply Kept.next | simp only [Kept.upd_iff] | apply State.cOff_kept
       | apply State.onTrans_kept | apply State.setFld_kept | apply State.srExit_kept | apply State.srIn_kept
       | apply State.stopAll_kept | apply State.transCheck_kept | apply State.wr_kept | split

theorem State.beginTest_kept (s : State) (d : Die) (hk : s.Kept κ) : (State.beginTest s d).Kept κ := by
  unfold State.beginTest
  with_reducible repeat' first | assumption | simp only [Kept.upd_iff] | apply State.count_kept

theorem execDieCRelease_keeps (s : State) (hk : s.Kept κ) : OutKept κ (execDieCRelease s) := by
  unfold execDieCRelease
  with_reducible repeat' first
       | assumption | apply State.onTrans_kept | apply State.pauseNow_kept | apply Kept.next | simp only [Kept.upd_iff] | apply State.beginTest_kept | split

theorem State.timeToC_kept (s : State) (hk : s.Kept κ) : (State.timeToC s).Kept κ := by
  unfold State.timeToC
  with_reducible repeat' first
       | assumption | simp only [Kept.upd_iff] | apply State.setBit_kept | apply State.setFld_kept
       | apply State.wrs_kept | split

theorem State.replay_kept (s : State) (hk : s.Kept κ) : (State.replay s).Kept κ := by
  unfold State.replay
  with_reducible repeat' first | assumption | simp only [Kept.upd_iff]

theorem State.wdtRestart_kept (s : State) (hk : s.Kept κ) : (State.wdtRestart s).Kept κ := by
  unfold State.wdtRestart
  with_reducible repeat' first | assumption | simp only [Kept.upd_iff] | split

theorem State.cReady_kept (s : State) (hk : s.Kept κ) : (State.cReady s).Kept κ := by
  unfold State.cReady
  with_reducible repeat' first | assumption | simp only [Kept.upd_iff] | apply State.setBit_kept

theorem State.dramBack_kept (s : State) (hk : s.Kept κ) : (State.dramBack s).Kept κ := by
  unfold State.dramBack
  try dsimp only
  apply State.setDm_kept
  split
  · exact State.onDdr_kept _ _ (State.setFld_kept _ _ _ _ _ (State.wr_kept _ _ _ hk))
  · exact hk

theorem State.dramKindle_kept (s : State) (sr : Bool) (hk : s.Kept κ) : (State.dramKindle s sr).Kept κ := by
  unfold State.dramKindle
  with_reducible repeat' first
       | assumption | simp only [Kept.upd_iff] | apply State.setBit_kept | apply State.dramBack_kept
       | apply State.srExit_kept | split

theorem execKindleDone_keeps (s : State) (hk : s.Kept κ) : OutKept κ (execKindleDone s) := by
  unfold execKindleDone
  try dsimp only
  with_reducible repeat' first
       | assumption | apply State.setEnD_kept | intro _ | apply Kept.next | apply Kept.ite | apply Kept.iteO | simp only [Kept.upd_iff]
       | exact Kept.fault | apply State.cReady_kept | apply State.dramKindle_kept | apply State.fsClear_kept
       | apply State.onTrans_kept | apply State.pauseTrans_kept | apply State.replay_kept
       | apply State.setEng_kept | apply State.setFld_kept | apply State.timeToC_kept
       | apply State.transCheck_kept | apply State.wdtRestart_kept | apply Kept.foldl | rfl | split

theorem execRadioDieRelease_keeps (d : Fin 6) (s : State) (hk : s.Kept κ) : OutKept κ (execRadioDieRelease d s) := by
  unfold execRadioDieRelease
  with_reducible repeat' first
       | assumption | apply State.onTrans_kept | apply State.pauseNow_kept | apply Kept.next | simp only [Kept.upd_iff] | apply State.beginTest_kept
       | apply State.err_kept | apply State.setBit_kept | split

theorem State.startFail_kept (s : State) (n : Nat) (bh : Bool) (f : StartFail) (hk : s.Kept κ) : (State.startFail s n bh f).Kept κ := by
  unfold State.startFail
  with_reducible repeat' first
       | assumption | simp only [Kept.upd_iff] | apply State.err_kept | apply State.tileOut_kept | split

theorem State.headFound_kept (s : State) (n h : Nat) (id : Option Half) (looped : Bool) (hk : s.Kept κ) : (State.headFound s n h id
    looped).Kept κ := by
  unfold State.headFound
  with_reducible repeat' first
       | assumption | intro _ | apply State.draw_kept | apply State.err_kept | apply State.wr_kept | split

theorem execRadioStartDone_keeps (d : Fin 6) (rep : StartReport) (s : State) (hk : s.Kept κ) : OutKept κ (execRadioStartDone d rep s) := by
  unfold execRadioStartDone
  try dsimp only
  with_reducible repeat' first
       | assumption | apply State.phaseUse_kept | apply State.setBit_kept | apply State.setPa_kept | intro _ | apply Kept.next | apply Kept.ite | apply Kept.iteO | simp only [Kept.upd_iff]
       | exact Kept.fault | apply State.headFound_kept | apply State.setFld_kept | apply State.startEnd_kept
       | apply State.startFail_kept | apply State.wr_kept | apply Kept.foldl | rfl | split

theorem State.forced_kept (s : State) (code : Nat) (hk : s.Kept κ) : (State.forced s code).Kept κ := by
  unfold State.forced
  with_reducible repeat' first
       | assumption | apply State.logFree_kept | apply State.raise_kept | apply State.setBit_kept
       | apply State.setFld_kept

theorem State.dieLost_kept (s : State) (d : Die) (hk : s.Kept κ) : (State.dieLost s d).Kept κ := by
  unfold State.dieLost
  with_reducible repeat' first | assumption | apply State.healthStep_kept | apply State.setBit_kept

theorem State.loseC_kept (s : State) (code : Nat) (hk : s.Kept κ) : (State.loseC s code).Kept κ := by
  unfold State.loseC
  with_reducible repeat' first
       | assumption | apply State.timeToE_kept | simp only [Kept.upd_iff] | apply State.cOff_kept | apply State.forced_kept
       | apply State.fsBegin_kept | apply State.quitC_kept | apply State.setFld_kept
       | apply State.setPstate_kept | split

theorem State.loseD_kept (s : State) (n : Fin 6) (code : Nat) (hk : s.Kept κ) : (State.loseD s n code).Kept κ := by
  unfold State.loseD
  with_reducible repeat' first
       | assumption | apply State.dieLost_kept | apply State.forced_kept | apply State.onTrans_kept
       | apply State.radioDown_kept | apply State.transCheck_kept

theorem execSupplyC_keeps (us mv : Nat) (cmd : Option Word) (s : State) (hk : s.Kept κ) : OutKept κ (execSupplyC us mv cmd s) := by
  unfold execSupplyC
  with_reducible repeat' first
       | assumption | apply State.monEndAt_kept | apply State.preempted_kept | apply Kept.next | apply State.loseC_kept | apply State.monEnd_kept
       | apply State.warnDeclare_kept | split

theorem execSupplyD_keeps (d : Fin 6) (us mv : Nat) (cmd : Option Word) (s : State) (hk : s.Kept κ) : OutKept κ (execSupplyD d us mv cmd s) := by
  unfold execSupplyD
  with_reducible repeat' first
       | assumption | apply State.monEndAt_kept | apply State.preempted_kept | apply Kept.next | apply State.loseD_kept | apply State.monEnd_kept
       | apply State.warnDeclare_kept | split

theorem State.linkLost_kept (s : State) (far : Die) (hk : s.Kept κ) : (State.linkLost s far).Kept κ := by
  unfold State.linkLost
  with_reducible repeat' first
       | assumption | apply State.dieLost_kept | apply State.loseC_kept | apply State.loseD_kept | split

theorem execFlueSilenceTimeout_keeps (far : Die) (s : State) (hk : s.Kept κ) : OutKept κ (execFlueSilenceTimeout far s) := by
  unfold execFlueSilenceTimeout
  with_reducible repeat' first | assumption | apply Kept.next | apply State.linkLost_kept

theorem execFlueFlitRetry_keeps (far : Die) (ok : Bool) (s : State) (hk : s.Kept κ) : OutKept κ (execFlueFlitRetry far ok s) := by
  unfold execFlueFlitRetry
  with_reducible repeat' first | assumption | apply Kept.next | simp only [Kept.upd_iff] | apply State.linkLost_kept | split

theorem State.flueIn_kept (s : State) (dst : Die) (m : FlueMsg) (hk : s.Kept κ) : (State.flueIn s dst m).Kept κ := by
  unfold State.flueIn
  with_reducible repeat' first | assumption | apply State.emit_kept | apply State.guardFail_kept | split

theorem execFlueMessage_keeps (src dst : Die) (msgs : List FlueMsg) (s : State) (hk : s.Kept κ) : OutKept κ (execFlueMessage src dst msgs
    s) := by
  unfold execFlueMessage
  with_reducible repeat' first | assumption | intro _ | apply Kept.next | apply State.flueIn_kept | apply Kept.foldl | split

theorem execPor_keeps (s : State) (hk : s.Kept κ) : OutKept κ (execPor s) := by
  have h := State.stopAll_kept s true hk
  exact Kept.next (State.setFld_kept _ _ _ _ _ ⟨h.id, rfl, h.shared, h.dram, h.esram, h.ember, h.radioMem, h.engines⟩)

theorem execResetN_keeps (lowNs : Nat) (cmd : Option Word) (s : State) (hk : s.Kept κ) : OutKept κ (execResetN lowNs cmd s) := by
  unfold execResetN
  with_reducible repeat' first | assumption | apply Kept.next | apply State.deviceReset_kept | split

theorem execSupplyE_keeps (us mv : Nat) (cmd : Option Word) (s : State) (hk : s.Kept κ) : OutKept κ (execSupplyE us mv cmd s) := by
  unfold execSupplyE
  with_reducible repeat' first
       | assumption | apply State.monEndAt_kept | apply Kept.next | apply State.deviceReset_kept | apply State.warnDeclare_kept | split

theorem execDieERelease_keeps (s : State) (hk : s.Kept κ) : OutKept κ (execDieERelease s) := by
  unfold execDieERelease
  with_reducible repeat' first
       | assumption | apply State.meshShow_kept | intro _ | apply Kept.next | simp only [Kept.upd_iff] | apply State.beginTest_kept
       | apply State.embReset_kept | apply State.onMesh_kept | apply State.oscSync_kept
       | apply State.setFld_kept | apply State.wr_kept | apply Kept.foldl | split

theorem State.bank_kept (s : State) (hk : s.Kept κ) : (State.bank s).Kept κ := by
  unfold State.bank
  with_reducible repeat' first
       | assumption | apply State.timeToE_kept | intro _ | simp only [Kept.upd_iff] | apply State.forced_kept | apply State.fsBegin_kept
       | apply State.logFree_kept | apply State.meshShow_kept | apply State.onMesh_kept
       | apply State.oscSync_kept | apply State.quitC_kept | apply State.radioDown_kept
       | apply State.rtcJudge_kept | apply State.setBit_kept | apply State.setFld_kept | apply Kept.foldl
       | split

theorem State.bankC_kept (s : State) (hk : s.Kept κ) : (State.bankC s).Kept κ := by
  unfold State.bankC
  with_reducible repeat' first
       | assumption | simp only [Kept.upd_iff] | apply State.blocksLost_kept | apply State.cOff_kept
       | apply State.cReady_kept | apply State.clearRegs_kept | apply State.dramKindle_kept
       | apply State.setEnC_kept | split

theorem State.setVerdict_kept (s : State) (d : Die) (v : Nat) (hk : s.Kept κ) : (State.setVerdict s d v).Kept κ := by
  unfold State.setVerdict
  try dsimp only
  with_reducible repeat' first | assumption | apply State.setFld_kept | split

theorem State.verdictActs_kept (s : State) (d : Die) (v : Nat) (slices : Half) (hk : s.Kept κ) : (State.verdictActs s d v slices).Kept κ
    := by
  unfold State.verdictActs
  with_reducible repeat' first
       | assumption | apply State.startCal_kept | intro _ | simp only [Kept.upd_iff] | apply State.bankC_kept | apply State.bank_kept
       | apply State.fsBegin_kept | apply State.fsClear_kept | apply State.oscSync_kept
       | apply State.radioDown_kept | apply State.setFld_kept | apply State.startEnd_kept
       | apply State.tileOut_kept | apply Kept.foldl | split

theorem execSelftestDone_keeps (die : Die) (rep : TestReport) (cmd : Option Word) (s : State) (hk : s.Kept κ) : OutKept κ
    (execSelftestDone die rep cmd s) := by
  unfold execSelftestDone
  try dsimp only
  with_reducible repeat' first
       | assumption | intro _ | apply Kept.next | apply Kept.ite | apply Kept.iteO | simp only [Kept.upd_iff]
       | exact Kept.fault | apply State.preempted_kept | apply State.setVerdict_kept
       | apply State.testBoundary_kept | apply State.verdictActs_kept | apply State.wrs_kept | apply Kept.foldl
       | rfl | split

theorem execSelftestTimeout_keeps (die : Die) (cmd : Option Word) (s : State) (hk : s.Kept κ) : OutKept κ (execSelftestTimeout die cmd s) := by
  unfold execSelftestTimeout
  try dsimp only
  with_reducible repeat' first
       | assumption | apply State.preempted_kept | intro _ | apply Kept.next | apply Kept.ite | apply Kept.iteO | simp only [Kept.upd_iff]
       | exact Kept.fault | apply State.setVerdict_kept | apply State.testBoundary_kept
       | apply State.verdictActs_kept | apply State.wrs_kept | apply Kept.foldl | rfl | split

theorem execTransitionPauseTimeout_keeps (s : State) (hk : s.Kept κ) : OutKept κ (execTransitionPauseTimeout s) := by
  unfold execTransitionPauseTimeout
  with_reducible repeat' first
       | assumption | apply State.timeToE_kept | apply Kept.next | simp only [Kept.upd_iff] | apply State.cOff_kept
       | apply State.dropAdded_kept | apply State.err_kept | apply State.quitC_kept | apply State.raise_kept
       | apply State.setFld_kept | apply State.setPstate_kept | split

theorem execRetentionLost_keeps (mv : Nat) (s : State) (hk : s.Kept κ) : OutKept κ (execRetentionLost mv s) := by
  unfold execRetentionLost
  split
  · exact Kept.next hk
  · exact Kept.next (State.setBit_kept _ _ _ _ (State.err_kept _ _ _ _ (State.setBit_kept _ _ _ _ ⟨hk.id, hk.regs, hk.shared, rfl,
      hk.esram, hk.ember, hk.radioMem, hk.engines⟩)))

theorem execTempUpdate_keeps (die : Die) (temp : Int) (s : State) (hk : s.Kept κ) : OutKept κ (execTempUpdate die temp s) := by
  unfold execTempUpdate
  with_reducible repeat' first
       | assumption | apply Kept.next | simp only [Kept.upd_iff] | apply State.accStale_kept
       | apply State.bhStale_kept | apply State.sgStale_kept | apply State.raise_kept | apply State.wrs_kept | split

theorem execX32kStarted_keeps (s : State) (hk : s.Kept κ) : OutKept κ (execX32kStarted s) := by
  unfold execX32kStarted
  with_reducible repeat' first | assumption | apply Kept.next | apply State.oscSync_kept | apply State.setBit_kept | split

theorem execX32kFail_keeps (s : State) (hk : s.Kept κ) : OutKept κ (execX32kFail s) := by
  unfold execX32kFail
  with_reducible repeat' first
       | assumption | apply Kept.next | apply State.oscSync_kept | apply State.raise_kept
       | apply State.setBit_kept | split

theorem execXtal40Start_keeps (user : Fin 4) (s : State) (hk : s.Kept κ) : OutKept κ (execXtal40Start user s) := by
  unfold execXtal40Start
  with_reducible repeat' first | assumption | apply State.windowOpen_kept | apply Kept.next | apply State.oscUser_kept | split

theorem execXtal40Stop_keeps (user : Fin 4) (s : State) (hk : s.Kept κ) : OutKept κ (execXtal40Stop user s) := by
  unfold execXtal40Stop
  with_reducible repeat' first | assumption | apply Kept.next | apply State.oscUser_kept

theorem execX40mUsable_keeps (s : State) (hk : s.Kept κ) : OutKept κ (execX40mUsable s) := by
  unfold execX40mUsable
  with_reducible repeat' first | assumption | apply Kept.next | simp only [Kept.upd_iff] | apply State.aesKick_kept | split

theorem execX40mSettled_keeps (s : State) (hk : s.Kept κ) : OutKept κ (execX40mSettled s) := by
  unfold execX40mSettled
  with_reducible repeat' first | assumption | apply Kept.next | simp only [Kept.upd_iff] | apply State.setBit_kept | split

theorem State.setPin_kept (s : State) (n : Nat) (p : Pin) (hk : s.Kept κ) : (State.setPin s n p).Kept κ := by
  unfold State.setPin
  with_reducible repeat' first | assumption | simp only [Kept.upd_iff]

theorem State.gpioLevels_kept (s : State) (hk : s.Kept κ) : (State.gpioLevels s).Kept κ := by
  unfold State.gpioLevels
  try dsimp only
  with_reducible repeat' first | assumption | apply State.raiseBits_kept | split

theorem execGpioLevelChange_keeps (pin : Fin 12) (level : Bool) (s : State) (hk : s.Kept κ) : OutKept κ (execGpioLevelChange pin level s)
    := by
  unfold execGpioLevelChange
  with_reducible repeat' first | assumption | apply Kept.next | apply State.setBit_kept | apply State.setPin_kept | split

theorem execGpioEvent_keeps (pin : Fin 12) (s : State) (hk : s.Kept κ) : OutKept κ (execGpioEvent pin s) := by
  unfold execGpioEvent
  try dsimp only
  with_reducible repeat' first
       | assumption | apply Kept.next | apply State.gpioLevels_kept | apply State.raise_kept
       | apply State.setPin_kept | apply State.wrs_kept | split

theorem State.rampEnd_kept (s : State) (hk : s.Kept κ) : (State.rampEnd s).Kept κ := by
  unfold State.rampEnd
  with_reducible repeat' first | assumption | apply State.pauseNow_kept | apply State.onTrans_kept | split

end Sys2Proof.Machine
end

