-- ==== Sys2Proof/Laws/KeptCommands.lean ====
section
/-!
SUPPORT. What the operations and meanings of Machine/Commands.lean keep (see Kept.lean).
-/
namespace Sys2Proof.Machine

variable {κ : Part × Straps × List Instr × Nat}

structure HooksKept (κ : Part × Straps × List Instr × Nat) (l : List Hook) : Prop where
  act : ∀ h ∈ l, ∀ r i w s, s.Kept κ → (h.act r i w s).Kept κ

theorem HooksKept.nil : HooksKept κ [] := ⟨fun _ h => by cases h⟩

theorem HooksKept.cons {b s n : Nat} {f : Requester → Nat → Word → State → State} {l : List Hook}
    (hf : ∀ r i w s, s.Kept κ → (f r i w s).Kept κ) (hl : HooksKept κ l) : HooksKept κ (⟨b, s, n, f⟩ :: l) :=
  ⟨fun h hm => by
    rcases List.mem_cons.mp hm with rfl | hm
    · exact hf
    · exact hl.act h hm⟩

theorem hookFor_kept {l : List Hook} {a : Nat} {f : Requester → Word → State → State} (hl : HooksKept κ l) (h : hookFor l a = some f)
    (r : Requester) (w : Word) (s : State) (hk : s.Kept κ) : (f r w s).Kept κ := by
  unfold hookFor at h
  obtain ⟨x, hx, he⟩ := List.exists_of_findSome?_eq_some h
  obtain ⟨i, _, rfl⟩ := Option.map_eq_some_iff.mp he
  exact hl.act x hx _ _ _ _ hk

theorem run_kept {s : State} {o : Host.Outcome State Fault Refusal} (hk : s.Kept κ) (h : OutKept κ o) : (run s o).Kept κ := by
  unfold run
  split
  · exact h.next _ rfl
  · exact hk

theorem State.noCommand_kept (s : State) (r : Requester) (a : Nat) (hk : s.Kept κ) : (State.noCommand s r a).Kept κ := by
  unfold State.noCommand
  with_reducible repeat' first | assumption | intro _ | apply State.cmdWrite_kept

theorem tdCmd_kept (r : Requester) (_i : Nat) (w : Word) (s : State) (hk : s.Kept κ) : (tdCmd r _i w s).Kept κ := by
  unfold tdCmd
  with_reducible repeat' first
       | assumption | apply State.noCommand_kept | apply execSetCount_keeps | apply execTdFree_keeps
       | apply execTdRead_keeps | apply execTdWrite_keeps | apply run_kept | split

theorem fwCmd_kept (r : Requester) (_i : Nat) (w : Word) (s : State) (hk : s.Kept κ) : (fwCmd r _i w s).Kept κ := by
  unfold fwCmd
  with_reducible repeat' first
       | assumption | apply State.noCommand_kept | apply execFwHalt_keeps | apply execFwLoad_keeps
       | apply execFwRestart_keeps | apply execFwStart_keeps | apply run_kept | split

theorem chCmd_kept (r : Requester) (i : Nat) (w : Word) (s : State) (hk : s.Kept κ) : (chCmd r i w s).Kept κ := by
  unfold chCmd
  with_reducible repeat' first
       | assumption | intro _ | simp only [Kept.upd_iff] | apply State.chCmdState_kept
       | apply State.cmdWrite_kept | apply execChAbort_keeps | apply execChPause_keeps
       | apply execChResume_keeps | apply execChStart_keeps | apply execChStop_keeps | apply run_kept | split

theorem pipeKeyCmd_kept (r : Requester) (_i : Nat) (w : Word) (s : State) (hk : s.Kept κ) : (pipeKeyCmd r _i w s).Kept κ := by
  unfold pipeKeyCmd
  try dsimp only
  with_reducible repeat' first
       | assumption | intro _ | apply State.guardRange_kept | apply State.guardWrite_kept
       | apply execPipeKeyErase_keeps | apply execPipeKeyInstall_keeps | apply execPipeKeyStat_keeps
       | apply run_kept | split

theorem dramCmd_kept (r : Requester) (_i : Nat) (w : Word) (s : State) (hk : s.Kept κ) : (dramCmd r _i w s).Kept κ := by
  unfold dramCmd
  with_reducible repeat' first
       | assumption | intro _ | apply State.cmdWrite_kept | apply State.dmCmdState_kept
       | apply State.noCommand_kept | apply execDramInit_keeps | apply execFspChange_keeps
       | apply execRetrainNow_keeps | apply execUnfreezeReinit_keeps | apply execUnfreezeResume_keeps
       | apply run_kept | split

theorem vlanCmd_kept (r : Requester) (_i : Nat) (w : Word) (s : State) (hk : s.Kept κ) : (vlanCmd r _i w s).Kept κ := by
  unfold vlanCmd
  with_reducible repeat' first
       | assumption | apply State.noCommand_kept | apply execVlanRead_keeps | apply execVlanWrite_keeps
       | apply run_kept | split

theorem tblCmd_kept (r : Requester) (_i : Nat) (w : Word) (s : State) (hk : s.Kept κ) : (tblCmd r _i w s).Kept κ := by
  unfold tblCmd
  with_reducible repeat' first
       | assumption | intro _ | apply State.tableNow_kept | apply State.tblStatus_kept
       | apply execAgeSweep_keeps | apply execFlushPort_keeps | apply execTblDelete_keeps
       | apply execTblInsert_keeps | apply execTblNext_keeps | apply execTblSearch_keeps
       | apply execWalkClose_keeps | apply run_kept | split

theorem lpmCmd_kept (r : Requester) (_i : Nat) (w : Word) (s : State) (hk : s.Kept κ) : (lpmCmd r _i w s).Kept κ := by
  unfold lpmCmd
  with_reducible repeat' first
       | assumption | intro _ | apply State.lpmStatus_kept | apply State.tableNow_kept
       | apply execLpmDelete_keeps | apply execLpmInsert_keeps | apply execLpmNext_keeps
       | apply execLpmSearch_keeps | apply execLpmWalkClose_keeps | apply run_kept | split

theorem nhCmd_kept (r : Requester) (_i : Nat) (w : Word) (s : State) (hk : s.Kept κ) : (nhCmd r _i w s).Kept κ := by
  unfold nhCmd
  with_reducible repeat' first
       | assumption | apply State.noCommand_kept | apply execNhRead_keeps | apply execNhWrite_keeps
       | apply run_kept | split

theorem staCmdWord_kept (r : Requester) (_i : Nat) (w : Word) (s : State) (hk : s.Kept κ) : (staCmdWord r _i w s).Kept κ := by
  unfold staCmdWord
  with_reducible repeat' first
       | assumption | intro _ | apply State.cmdWrite_kept | apply State.err_kept | apply execSetGkey_keeps
       | apply execSetKey_keeps | apply execStaAlloc_keeps | apply execStaFlush_keeps | apply execStaRead_keeps
       | apply execStaRemove_keeps | apply execStaWrite_keeps | apply run_kept | split

theorem twtCmd_kept (r : Requester) (_i : Nat) (w : Word) (s : State) (hk : s.Kept κ) : (twtCmd r _i w s).Kept κ := by
  unfold twtCmd
  with_reducible repeat' first
       | assumption | apply State.noCommand_kept | apply execTwtAdd_keeps | apply execTwtRead_keeps
       | apply execTwtRemove_keeps | apply run_kept | split

theorem schedCmd_kept (r : Requester) (i : Nat) (w : Word) (s : State) (hk : s.Kept κ) : (schedCmd r i w s).Kept κ := by
  unfold schedCmd
  with_reducible repeat' first
       | assumption | apply State.noCommand_kept | apply execReplan_keeps | apply execSchedCmdPause_keeps
       | apply execSchedCmdResume_keeps | apply run_kept | split

theorem rfCmdWord_kept (r : Requester) (_i : Nat) (w : Word) (s : State) (hk : s.Kept κ) : (rfCmdWord r _i w s).Kept κ := by
  unfold rfCmdWord
  with_reducible repeat' first
       | assumption | intro _ | apply State.draw_kept | apply State.rfCmd_kept | apply execRfAbort_keeps
       | apply execRfCal_keeps | apply execRfCmdIdle_keeps | apply execRfCmdListen_keeps
       | apply execRfCmdSleep_keeps | apply execRfEd_keeps | apply execRfRetune_keeps
       | apply execTrimClear_keeps | apply execTxNow_keeps | apply run_kept | split

theorem embCmd_kept (r : Requester) (_i : Nat) (w : Word) (s : State) (hk : s.Kept κ) : (embCmd r _i w s).Kept κ := by
  unfold embCmd
  with_reducible repeat' first
       | assumption | apply State.noCommand_kept | apply execEmbLoad_keeps | apply execEmbSwitch_keeps
       | apply run_kept | split

theorem aesKeyCmd_kept (r : Requester) (_i : Nat) (w : Word) (s : State) (hk : s.Kept κ) : (aesKeyCmd r _i w s).Kept κ := by
  unfold aesKeyCmd
  try dsimp only
  with_reducible repeat' first
       | assumption | intro _ | apply State.guardRange_kept | apply State.guardWrite_kept
       | apply execAesKeyErase_keeps | apply execAesKeyInstall_keeps | apply run_kept | split

theorem ctxCmd_kept (r : Requester) (k : Nat) (w : Word) (s : State) (hk : s.Kept κ) : (ctxCmd r k w s).Kept κ := by
  unfold ctxCmd
  with_reducible repeat' first
       | assumption | apply State.accept_kept | intro _ | apply State.ctxClose_kept | apply State.ctxOpen_kept
       | apply State.ctxWrite_kept | apply State.guardFail_kept | apply State.guardRange_kept | split

theorem calCmd_kept (r : Requester) (d : Nat) (w : Word) (s : State) (hk : s.Kept κ) : (calCmd r d w s).Kept κ := by
  unfold calCmd
  with_reducible repeat' first | assumption | apply State.partCal_kept | apply execBhCal_keeps | apply run_kept | split

theorem seqCmdWord_kept (r : Requester) (d : Nat) (w : Word) (s : State) (hk : s.Kept κ) : (seqCmdWord r d w s).Kept κ := by
  unfold seqCmdWord
  with_reducible repeat' first
       | assumption | intro _ | apply State.draw_kept | apply State.seqAbort_kept | apply State.seqCmd_kept
       | apply execSeqIdle_keeps | apply execSeqListen_keeps | apply execSeqSleep_keeps | apply run_kept
       | split

theorem headCmdWord_kept (d : Nat) (r : Requester) (h : Nat) (w : Word) (s : State) (hk : s.Kept κ) : (headCmdWord d r h w s).Kept κ := by
  unfold headCmdWord
  with_reducible repeat' first
       | assumption | intro _ | apply State.draw_kept | apply execHeadRead_keeps | apply execHeadWrite_keeps
       | apply run_kept | split

theorem execClampLogClr_keeps (r : Requester) (w : Word) (s : State) (hk : s.Kept κ) : OutKept κ (execClampLogClr r w s) := by
  unfold execClampLogClr
  with_reducible repeat' first
       | assumption | intro _ | apply Kept.next | simp only [Kept.upd_iff] | apply State.cmdWrite_kept
       | apply State.wr_kept | split

theorem commandsC_hooks : HooksKept κ commandsC := by
  unfold commandsC
  repeat' apply HooksKept.cons
  case hl => exact HooksKept.nil
  all_goals
     (repeat' first
       | with_reducible assumption | intro _ | with_reducible apply Kept.next | with_reducible apply Kept.ite
       | with_reducible apply Kept.iteO | simp only [Kept.upd_iff] | with_reducible exact Kept.fault
       | with_reducible apply State.armWrite_kept | with_reducible apply State.grDone_kept
       | with_reducible apply State.guardWrite_kept | with_reducible apply State.noCommand_kept
       | with_reducible apply State.pwrCmd_kept | with_reducible apply State.staCmd_kept
       | with_reducible apply State.timeCmdRow_kept | with_reducible apply State.timeCmd_kept
       | with_reducible apply State.timeSnap_kept | with_reducible apply chCmd_kept
       | with_reducible apply dramCmd_kept | with_reducible apply execBypKick_keeps
       | with_reducible apply execBypOpenWrite_keeps | with_reducible apply execChLevelAdj_keeps
       | with_reducible apply execClampLogClr_keeps | with_reducible apply execDiscardSpill_keeps
       | with_reducible apply execEvtClr_keeps | with_reducible apply execEvtRdIdx_keeps
       | with_reducible apply execGrDec_keeps | with_reducible apply execGrDone_keeps
       | with_reducible apply execHashSeedWrite_keeps | with_reducible apply execMbDoorbell_keeps
       | with_reducible apply execMbRelease_keeps | with_reducible apply execTimeSnap_keeps
       | with_reducible apply execTxnAbort_keeps | with_reducible apply execTxnCommit_keeps
       | with_reducible apply execTxnOpen_keeps | with_reducible apply execTxnRelease_keeps
       | with_reducible apply fwCmd_kept | with_reducible apply lpmCmd_kept | with_reducible apply nhCmd_kept
       | with_reducible apply pipeKeyCmd_kept | with_reducible apply run_kept
       | with_reducible apply schedCmd_kept | with_reducible apply staCmdWord_kept
       | with_reducible apply tblCmd_kept | with_reducible apply tdCmd_kept | with_reducible apply twtCmd_kept
       | with_reducible apply vlanCmd_kept | with_reducible apply Kept.foldl | with_reducible rfl | split)

theorem commandsE_hooks : HooksKept κ commandsE := by
  unfold commandsE
  repeat' apply HooksKept.cons
  case hl => exact HooksKept.nil
  all_goals
     (repeat' first
       | with_reducible assumption | intro _ | with_reducible apply Kept.next | with_reducible apply Kept.ite
       | with_reducible apply Kept.iteO | simp only [Kept.upd_iff] | with_reducible exact Kept.fault
       | with_reducible apply State.addrCmd_kept | with_reducible apply State.armWrite_kept
       | with_reducible apply State.ctxGo_kept | with_reducible apply State.dqFlush_kept
       | with_reducible apply State.dqPush_kept | with_reducible apply State.failsafeWrite_kept
       | with_reducible apply State.lampKick_kept | with_reducible apply State.rfCmd_kept
       | with_reducible apply State.timeCmdRow_kept | with_reducible apply State.timeCmd_kept
       | with_reducible apply State.timeSnap_kept | with_reducible apply aesKeyCmd_kept
       | with_reducible apply ctxCmd_kept | with_reducible apply embCmd_kept
       | with_reducible apply execCtxGo_keeps | with_reducible apply execETimeSnap_keeps
       | with_reducible apply rfCmdWord_kept | with_reducible apply run_kept | with_reducible apply Kept.foldl
       | with_reducible rfl | split)

theorem commandsD_hooks (d : Nat) : HooksKept κ (commandsD d) := by
  unfold commandsD
  repeat' apply HooksKept.cons
  case hl => exact HooksKept.nil
  all_goals
     (repeat' first
       | with_reducible assumption | intro _ | with_reducible apply Kept.next | with_reducible apply Kept.ite
       | with_reducible apply Kept.iteO | simp only [Kept.upd_iff] | with_reducible exact Kept.fault
       | with_reducible apply State.armWrite_kept | with_reducible apply State.headCmd_kept
       | with_reducible apply State.seqCmd_kept | with_reducible apply calCmd_kept
       | with_reducible apply execTmSend_keeps | with_reducible apply headCmdWord_kept
       | with_reducible apply run_kept | with_reducible apply seqCmdWord_kept | with_reducible apply Kept.foldl
       | with_reducible rfl | split)

theorem State.commandAt_act {s0 : State} {a : Nat} {f : Requester → Word → State → State} (h : State.commandAt s0 a = some f)
    (r : Requester) (w : Word) (s : State) (hk : s.Kept κ) : (f r w s).Kept κ := by
  unfold State.commandAt at h
  dsimp only at h
  (repeat' split at h)
  · exact hookFor_kept commandsC_hooks h r w s hk
  · exact hookFor_kept commandsE_hooks h r w s hk
  · exact hookFor_kept (commandsD_hooks _) h r w s hk
  · cases h

end Sys2Proof.Machine
end

