-- ==== Sys2Proof/Laws/KeptRegWrite.lean ====
section
/-!
SUPPORT. What the operations and meanings of Machine/RegWrite.lean keep (see Kept.lean).
-/
namespace Sys2Proof.Machine

variable {κ : Part × Straps × List Instr × Nat}

theorem State.setTraceTail_kept (s : State) (w : Word) (hk : s.Kept κ) : (State.setTraceTail s w).Kept κ := by
  unfold State.setTraceTail
  with_reducible repeat' first | assumption | apply State.setBit_kept | apply State.wr_kept

theorem State.setHostWdt_kept (s : State) (w : Word) (hk : s.Kept κ) : (State.setHostWdt s w).Kept κ := by
  unfold State.setHostWdt
  with_reducible repeat' first | assumption | simp only [Kept.upd_iff] | apply State.wr_kept | split

theorem Kept.getD {o : Option State} {d : State} (hd : d.Kept κ) (ho : ∀ t, o = some t → t.Kept κ) : (o.getD d).Kept κ := by
  cases o with
  | none => exact hd
  | some t => exact ho t rfl

theorem State.setDirCfg_kept (s : State) (n : Nat) (w : Word) (hk : s.Kept κ) : (State.setDirCfg s n w).Kept κ := by
  unfold State.setDirCfg
  extract_lets a s1
  split
  · have h1 : s1.Kept κ := State.wr_kept s _ _ hk
    clear_value s1
    exact Kept.getD (State.dirNoFw_kept _ _ h1) (fun t h => State.dirEnable_eq h h1)
  · exact State.wr_kept _ _ _ hk

theorem effectsC_hooks : HooksKept κ effectsC := by
  unfold effectsC
  repeat' apply HooksKept.cons
  case hl => exact HooksKept.nil
  all_goals
     (repeat' first
       | with_reducible assumption | intro _ | with_reducible apply Kept.next | with_reducible apply Kept.ite
       | with_reducible apply Kept.iteO | simp only [Kept.upd_iff] | with_reducible exact Kept.fault
       | with_reducible apply State.bypSettle_kept | with_reducible apply State.korEnable_kept
       | with_reducible apply State.pace_kept | with_reducible apply State.reselect_kept
       | with_reducible apply State.setKeySel_kept | with_reducible apply State.setLinkCfg_kept | with_reducible apply State.setSchedCfg_kept
       | with_reducible apply State.setTraceTail_kept | with_reducible apply State.wr_kept
       | with_reducible apply Kept.foldl | with_reducible rfl | split)

theorem effectsE_hooks : HooksKept κ effectsE := by
  unfold effectsE
  repeat' apply HooksKept.cons
  case hl => exact HooksKept.nil
  all_goals
     (repeat' first
       | with_reducible assumption | intro _ | with_reducible apply Kept.next | with_reducible apply Kept.ite
       | with_reducible apply Kept.iteO | simp only [Kept.upd_iff] | with_reducible exact Kept.fault
       | with_reducible apply State.gpioLevels_kept | with_reducible apply State.levelOrDiscard_kept
       | with_reducible apply State.meshShow_kept | with_reducible apply State.setBcnCfg_kept
       | with_reducible apply State.setHostWdt_kept | with_reducible apply State.setLampCfg_kept
       | with_reducible apply State.setMeshCfg_kept | with_reducible apply State.sgRetuneChan_kept
       | with_reducible apply State.wr_kept | with_reducible apply Kept.foldl | with_reducible rfl | split)

theorem effectsD_hooks (d : Nat) : HooksKept κ (effectsD d) := by
  unfold effectsD
  repeat' apply HooksKept.cons
  case hl => exact HooksKept.nil
  all_goals
     (repeat' first
       | with_reducible assumption | intro _ | with_reducible apply Kept.next | with_reducible apply Kept.ite
       | with_reducible apply Kept.iteO | simp only [Kept.upd_iff] | with_reducible exact Kept.fault
       | with_reducible apply State.setDirCfg_kept | with_reducible apply State.setDirChan_kept
       | with_reducible apply State.setPartChan_kept | with_reducible apply Kept.foldl | with_reducible rfl
       | split)

theorem State.store_kept (s : State) (a : Nat) (w : Word) (hk : s.Kept κ) : (State.store s a w).Kept κ := by
  unfold State.store
  extract_lets k l
  have hl : HooksKept κ l := by
    simp only [l]
    (repeat' split)
    · exact effectsC_hooks
    · exact effectsE_hooks
    · exact effectsD_hooks _
    · exact HooksKept.nil
  clear_value l
  split
  · rename_i h
    exact hookFor_kept hl h _ _ _ hk
  · exact State.wr_kept _ _ _ hk

theorem State.roleLocked_kept (s : State) (old w : Word) (hk : s.Kept κ) : (State.roleLocked s old w).Kept κ := by
  unfold State.roleLocked
  with_reducible repeat' first | assumption | intro _ | apply State.err_kept | apply Kept.foldl | split

theorem State.setTraceCfg_kept (s : State) (w : Word) (hk : s.Kept κ) : (State.setTraceCfg s w).Kept κ := by
  unfold State.setTraceCfg
  try dsimp only
  with_reducible repeat' first | assumption | apply State.err_kept | apply State.wr_kept | split

theorem State.setAtime_kept (s : State) (r : Requester) (ns : Bool) (w : Word) (hk : s.Kept κ) : (State.setAtime s r ns w).Kept κ := by
  unfold State.setAtime
  with_reducible repeat' first | assumption | apply State.setTxuPort_kept | split

theorem State.sgSlotWord_kept (s : State) (a : Nat) (w : Word) (hk : s.Kept κ) : (State.sgSlotWord s a w).Kept κ := by
  unfold State.sgSlotWord
  with_reducible repeat' first | assumption | apply State.wr_kept | split

theorem State.writeLock_eq {s : State} {a : Nat} {w : Word} {t_ : State} (heq : State.writeLock s a w = some t_) (hk : s.Kept κ) : t_.Kept
    κ := by
  unfold State.writeLock at heq
  (try dsimp only at heq)
  (repeat' split at heq) <;> (first | contradiction | (simp only [Option.some.injEq] at heq; subst heq) | skip)
  all_goals
  (repeat' first
    | with_reducible assumption | intro _ | with_reducible apply Kept.next | with_reducible apply Kept.ite
    | with_reducible apply Kept.iteO | simp only [Kept.upd_iff] | with_reducible exact Kept.fault
    | with_reducible apply State.errFree_kept | with_reducible apply State.err_kept
    | with_reducible apply Kept.foldl | with_reducible rfl | split)

theorem gatesC_hooks : HooksKept κ gatesC := by
  unfold gatesC
  repeat' apply HooksKept.cons
  case hl => exact HooksKept.nil
  all_goals
     (repeat' first
       | with_reducible assumption | intro _ | with_reducible apply Kept.next | with_reducible apply Kept.ite
       | with_reducible apply Kept.iteO | simp only [Kept.upd_iff] | with_reducible exact Kept.fault
       | with_reducible apply State.err_kept | with_reducible apply State.setAtime_kept
       | with_reducible apply State.setTraceCfg_kept | with_reducible apply State.sfpStart_kept
       | with_reducible apply State.store_kept | with_reducible apply State.wrReq_kept
       | with_reducible apply State.wr_kept | with_reducible apply Kept.foldl | with_reducible rfl | split)

theorem State.directStore_kept (s : State) (r : Requester) (a : Nat) (w : Word) (hk : s.Kept κ) : (State.directStore s r a w).Kept κ := by
  unfold State.directStore
  (repeat' split)
  all_goals first
    | (rename_i h; exact hookFor_kept gatesC_hooks h _ _ _ hk)
    | skip
  all_goals
     (repeat' first
       | with_reducible assumption | intro _ | with_reducible apply Kept.next | with_reducible apply Kept.ite
       | with_reducible apply Kept.iteO | simp only [Kept.upd_iff] | with_reducible exact Kept.fault
       | with_reducible apply State.err_kept | with_reducible apply State.mbData_kept
       | with_reducible apply State.sgSlotWord_kept | with_reducible apply State.store_kept
       | with_reducible apply State.wr_kept | with_reducible apply hookFor_kept
       | with_reducible apply Kept.foldl | with_reducible rfl | split)

theorem State.checkedWrite_kept (s : State) (r : Requester) (a : Nat) (g : RegSpec) (w : Word) (guarded : Bool) (hk : s.Kept κ) :
    (State.checkedWrite s r a g w guarded).Kept κ := by
  unfold State.checkedWrite
  try dsimp only
  with_reducible repeat' first
       | assumption | intro _ | apply State.clampRec_kept | apply State.directStore_kept | apply State.err_kept
       | apply State.reject_kept | apply Kept.foldl | split

theorem State.clearBits_kept (s : State) (a : Nat) (w : Word) (hk : s.Kept κ) : (State.clearBits s a w).Kept κ := by
  unfold State.clearBits
  with_reducible repeat' first | assumption | apply State.healthStep_kept | apply State.wr_kept

theorem State.directWrite_kept (s : State) (r : Requester) (a : Nat) (g : RegSpec) (w : Word) (hk : s.Kept κ) : (State.directWrite s r a g
    w).Kept κ := by
  unfold State.directWrite
  try dsimp only
  with_reducible repeat' first
       | assumption | intro _ | apply Kept.next | apply Kept.ite | apply Kept.iteO | simp only [Kept.upd_iff]
       | exact Kept.fault | apply State.checkedWrite_kept | apply State.clearBits_kept
       | apply State.guardFail_kept | apply State.roleLocked_kept | apply State.wr_kept
       | refine State.writeLock_eq (by assumption) ?_ | apply Kept.foldl | rfl | split

theorem State.stageRecords_kept (s : State) (a : Nat) (g : RegSpec) (stop : Bool) (c : StageCheck) (hk : s.Kept κ) : (State.stageRecords s
    a g stop c).Kept κ := by
  unfold State.stageRecords
  with_reducible repeat' first
       | assumption | intro _ | apply State.clampRec_kept | apply State.guardFail_kept
       | apply State.reject_kept | apply Kept.foldl | split

theorem State.stageWrite_kept (s : State) (r : Requester) (a : Nat) (g : RegSpec) (w : Word) (hk : s.Kept κ) : (State.stageWrite s r a g
    w).Kept κ := by
  unfold State.stageWrite
  try dsimp only
  with_reducible repeat' first
       | assumption | intro _ | apply State.draw_kept | apply State.err_kept | apply State.refuseStaged_kept | apply State.stageRecords_kept
       | apply State.stageValue_kept | split

theorem State.softWord_kept (s : State) (a : Nat) (hk : s.Kept κ) : (State.softWord s a).Kept κ := by
  unfold State.softWord
  with_reducible repeat' first
       | assumption | apply State.healthStep_kept | apply State.store_kept | apply State.wr_kept | split

theorem State.blankSlots_kept (s : State) (p : Nat) (hk : s.Kept κ) : (State.blankSlots s p).Kept κ := by
  unfold State.blankSlots
  with_reducible repeat' first
       | assumption | intro _ | apply State.dropAct_kept | apply State.unprepare_kept | apply State.wr_kept
       | apply Kept.foldl

theorem State.softLamps_kept (s : State) (hk : s.Kept κ) : (State.softLamps s).Kept κ := by
  unfold State.softLamps
  try dsimp only
  with_reducible repeat' first
       | assumption | intro _ | apply State.setLampOut_kept | apply State.wr_kept | apply Kept.foldl | split

theorem State.softReset_kept (s : State) (p : Nat) (hk : s.Kept κ) : (State.softReset s p).Kept κ := by
  unfold State.softReset
  with_reducible repeat' first
       | assumption | simp only [Kept.upd_iff] | apply State.blankSlots_kept | apply State.bypSettle_kept
       | apply State.gpioLevels_kept | apply State.softLamps_kept | apply State.softWord_kept
       | apply Kept.foldl | split

theorem State.setEnable_kept (s : State) (p : Nat) (on : Bool) (hk : s.Kept κ) : (State.setEnable s p on).Kept κ := by
  unfold State.setEnable
  try dsimp only
  with_reducible repeat' first
       | assumption | apply State.meshEnableChange_kept | apply State.onPs_kept | apply State.partDisable_kept
       | apply State.partEnable_kept | apply State.setBit_kept | apply State.sgEnableChange_kept | split

theorem State.pageCtrl_kept (s : State) (p : Nat) (w : Word) (hk : s.Kept κ) : (State.pageCtrl s p w).Kept κ := by
  unfold State.pageCtrl
  with_reducible repeat' first
       | assumption | apply State.setBit_kept | apply State.setEnable_kept | apply State.softReset_kept | split

theorem State.intClear_kept (s : State) (p : Nat) (w coincide : Word) (hk : s.Kept κ) : (State.intClear s p w coincide).Kept κ := by
  unfold State.intClear
  with_reducible repeat' first
       | assumption | apply State.gpioLevels_kept | apply State.signal_kept | apply State.wr_kept | split

theorem State.headerStore_kept (s : State) (p o : Nat) (w : Word) (hk : s.Kept κ) : (State.headerStore s p o w).Kept κ := by
  unfold State.headerStore
  with_reducible repeat' first
       | assumption | apply State.intClear_kept | apply State.pageCtrl_kept | apply State.raiseBits_kept
       | apply State.signal_kept | apply State.wr_kept | split

theorem State.nonTrans_kept (s : State) (r : Requester) (a : Nat) (hk : s.Kept κ) : (State.nonTrans s r a).Kept κ := by
  unfold State.nonTrans
  with_reducible repeat' first | assumption | apply State.err_kept | split

theorem State.blockWrite_kept (s : State) (r : Requester) (a : Nat) (g : RegSpec) (w : Word) (hk : s.Kept κ) : (State.blockWrite s r a g
    w).Kept κ := by
  unfold State.blockWrite
  split
  · (repeat' first
       | with_reducible assumption | intro _ | with_reducible apply Kept.next | with_reducible apply Kept.ite
       | with_reducible apply Kept.iteO | simp only [Kept.upd_iff] | with_reducible exact Kept.fault
       | with_reducible apply State.directWrite_kept | with_reducible apply State.err_kept
       | with_reducible apply State.nonTrans_kept | with_reducible apply State.stageWrite_kept
       | with_reducible apply Kept.foldl | with_reducible rfl | split)
  · rename_i h
    exact State.commandAt_act h _ _ _ hk
  · (repeat' first
       | with_reducible assumption | intro _ | with_reducible apply Kept.next | with_reducible apply Kept.ite
       | with_reducible apply Kept.iteO | simp only [Kept.upd_iff] | with_reducible exact Kept.fault
       | with_reducible apply State.directWrite_kept | with_reducible apply State.err_kept
       | with_reducible apply State.nonTrans_kept | with_reducible apply State.stageWrite_kept
       | with_reducible apply Kept.foldl | with_reducible rfl | split)

theorem State.pageWrite_kept (s : State) (r : Requester) (a : Nat) (w : Word) (hk : s.Kept κ) : (State.pageWrite s r a w).Kept κ := by
  unfold State.pageWrite
  try dsimp only
  with_reducible repeat' first
       | assumption | apply State.blockWrite_kept | apply State.headerStore_kept | apply State.nonTrans_kept
       | apply State.writeTag_kept | split

theorem State.writeReg_kept (s : State) (r : Requester) (a : Nat) (w : Word) (hk : s.Kept κ) : (State.writeReg s r a w).Kept κ := by
  unfold State.writeReg
  with_reducible repeat' first
       | assumption | apply State.cascWrite_kept | apply State.accessOff_kept | apply State.cascAccess_kept | apply State.pageWrite_kept
       | split

theorem State.cacheStore_kept (s : State) (e : Nat) (dram : Bool) (a : Nat) (w : Word) (be : BitVec 4) (hk : s.Kept κ) : (State.cacheStore
    s e dram a w be).Kept κ := by
  unfold State.cacheStore
  extract_lets l put s1 bytes
  split
  · exact State.onEng_kept _ _ _ (fun _ h => h) hk
  · refine State.onEng_kept _ _ _ (fun _ h => h) ?_
    simp only [s1]
    split
    · exact hk
    · refine State.draw_kept _ _ hk (fun i t ht => ?_)
      split
      · apply State.dropLines_kept
        split
        · exact State.lineBack_kept _ _ ht
        · exact ht
      · exact ht

theorem State.hpPartial_kept (s : State) (a : Nat) (hk : s.Kept κ) : (State.hpPartial s a).Kept κ := by
  unfold State.hpPartial
  with_reducible repeat' first | assumption | apply State.err_kept

theorem State.bar2Write_kept (s : State) (o : Nat) (w : Word) (be : BitVec 4) (hk : s.Kept κ) : (State.bar2Write s o w be).Kept κ := by
  unfold State.bar2Write
  split
  · exact Kept.foldl hk (fun t y h => State.sharedWrite_kept _ _ _ h)
  split
  · exact State.onEng_kept _ _ _ (fun x h => Mem.wf_foldl h (fun m y hm => Mem.wf_setByte _ _ _ hm)) hk
  split
  · exact Kept.setEsram (Mem.wf_foldl hk.esram (fun m y hm => Mem.wf_setByte _ _ _ hm)) hk
  split
  · exact hk
  split
  · split
    · exact State.hpPartial_kept _ _ hk
    · split
      · exact State.writeReg_kept _ _ _ _ hk
      · exact hk
  split
  · dsimp only
    split
    · exact run_kept hk (execDramAccess_keeps _ _ _ _ _ _ _ _ hk)
    · exact Kept.foldl hk (fun t y h => run_kept h (execDramAccess_keeps _ _ _ _ _ _ _ _ h))
  · exact hk

theorem State.bar4Write_kept (s : State) (o : Nat) (w : Word) (hk : s.Kept κ) : (State.bar4Write s o w).Kept κ := by
  unfold State.bar4Write
  with_reducible repeat' first
       | assumption | simp only [Kept.upd_iff] | apply State.wr_kept | apply execMsixVectorUnmask_keeps
       | apply run_kept | split

theorem State.engineStore_kept (s : State) (e : Nat) (a : Nat) (w : Word) (be : BitVec 4) (hk : s.Kept κ) : (State.engineStore s e a w
    be).Kept κ := by
  unfold State.engineStore
  with_reducible repeat' first | assumption | apply State.bar2Write_kept | apply State.cacheStore_kept | split

theorem State.memWrite_kept (s : State) (r : Requester) (a : Nat) (w : Word) (be : BitVec 4) (hk : s.Kept κ) : (State.memWrite s r a w
    be).Kept κ := by
  unfold State.memWrite
  with_reducible repeat' first
       | assumption | apply State.bar2Write_kept | apply State.bar4Write_kept | apply State.engineStore_kept
       | split

theorem State.partialWrite_kept (s : State) (r : Requester) (a : Nat) (hk : s.Kept κ) : (State.partialWrite s r a).Kept κ := by
  unfold State.partialWrite
  try dsimp only
  with_reducible repeat' first
       | assumption | apply State.hpPartial_kept | intro _ | apply State.draw_kept | split

theorem execRegisterWrite_keeps (r : Requester) (a : Nat) (w : Word) (be : BitVec 4) (s : State) (hk : s.Kept κ) : OutKept κ
    (execRegisterWrite r a w be s) := by
  unfold execRegisterWrite
  with_reducible repeat' first
       | assumption | apply State.partialWrite_kept | apply Kept.next | exact Kept.fault | apply State.hpPartial_kept
       | apply State.memWrite_kept | apply State.writeReg_kept | split

theorem execStagedWrite_keeps (r : Requester) (a : Nat) (w : Word) (s : State) (hk : s.Kept κ) : OutKept κ (execStagedWrite r a w s) := by
  unfold execStagedWrite
  with_reducible repeat' first | assumption | apply State.partialWrite_kept | apply Kept.next | exact Kept.fault | apply State.writeReg_kept | split

theorem State.headerCmd_kept (s : State) (r : Requester) (a : Nat) (act : State → State) (hk : s.Kept κ) (h_act : ∀ t, t.Kept κ → (act
    t).Kept κ) : (State.headerCmd s r a act).Kept κ := by
  unfold State.headerCmd
  with_reducible repeat' first | assumption | apply h_act | apply State.accessOff_kept | split

theorem execIntStatClear_keeps (r : Requester) (page : Nat) (w coincide : Word) (s : State) (hk : s.Kept κ) : OutKept κ (execIntStatClear
    r page w coincide s) := by
  unfold execIntStatClear
  with_reducible repeat' first
       | assumption | intro _ | apply Kept.next | apply State.headerCmd_kept | apply State.intClear_kept
       | apply State.nonTrans_kept

theorem execIntSet_keeps (r : Requester) (page : Nat) (w : Word) (s : State) (hk : s.Kept κ) : OutKept κ (execIntSet r page w s) := by
  unfold execIntSet
  with_reducible repeat' first
       | assumption | intro _ | apply Kept.next | apply State.headerCmd_kept | apply State.nonTrans_kept
       | apply State.raiseBits_kept

theorem execSoftReset_keeps (r : Requester) (page : Nat) (w : Word) (s : State) (hk : s.Kept κ) : OutKept κ (execSoftReset r page w s) := by
  unfold execSoftReset
  with_reducible repeat' first
       | assumption | intro _ | apply Kept.next | apply State.headerCmd_kept | apply State.nonTrans_kept
       | apply State.pageCtrl_kept

theorem execDieRoleWrite_keeps (r : Requester) (w : Word) (s : State) (hk : s.Kept κ) : OutKept κ (execDieRoleWrite r w s) := by
  unfold execDieRoleWrite
  with_reducible repeat' first | assumption | apply Kept.next | apply State.writeReg_kept

theorem execSgChanWrite_keeps (r : Requester) (sel : Bool) (w : Word) (s : State) (hk : s.Kept κ) : OutKept κ (execSgChanWrite r sel w s)
    := by
  unfold execSgChanWrite
  with_reducible repeat' first | assumption | apply Kept.next | apply State.writeReg_kept

theorem execPartChanWrite_keeps (r : Requester) (d : Fin 6) (w : Word) (s : State) (hk : s.Kept κ) : OutKept κ (execPartChanWrite r d w s)
    := by
  unfold execPartChanWrite
  with_reducible repeat' first | assumption | apply Kept.next | apply State.writeReg_kept

theorem execLinkCfgEnable_keeps (r : Requester) (l : Fin 8) (w : Word) (s : State) (hk : s.Kept κ) : OutKept κ (execLinkCfgEnable r l w s)
    := by
  unfold execLinkCfgEnable
  with_reducible repeat' first | assumption | apply Kept.next | apply State.writeReg_kept

theorem execXblKeySelWrite_keeps (r : Requester) (l : Fin 8) (w : Word) (s : State) (hk : s.Kept κ) : OutKept κ (execXblKeySelWrite r l w
    s) := by
  unfold execXblKeySelWrite
  with_reducible repeat' first | assumption | apply Kept.next | apply State.writeReg_kept

theorem execSfpI2cAccess_keeps (r : Requester) (q : Fin 2) (w : Word) (s : State) (hk : s.Kept κ) : OutKept κ (execSfpI2cAccess r q w s)
    := by
  unfold execSfpI2cAccess
  with_reducible repeat' first | assumption | apply Kept.next | apply State.writeReg_kept

theorem execLevelWrite_keeps (r : Requester) (o : Fin 6) (w : Word) (s : State) (hk : s.Kept κ) : OutKept κ (execLevelWrite r o w s) := by
  unfold execLevelWrite
  with_reducible repeat' first | assumption | apply Kept.next | apply State.writeReg_kept

end Sys2Proof.Machine
end

