-- ==== Sys2Proof/Laws/KeptRegRead.lean ====
section
/-!
SUPPORT. What the operations and meanings of Machine/RegRead.lean keep (see Kept.lean).
-/
namespace Sys2Proof.Machine

variable {κ : Part × Straps × List Instr × Nat}

theorem State.freezeClamp_kept (s : State) (r : Requester) (p : Nat) (hk : s.Kept κ) : (State.freezeClamp s r p).Kept κ := by
  unfold State.freezeClamp
  with_reducible repeat' first | assumption | simp only [Kept.upd_iff]

theorem State.readTouch_kept (s : State) (r : Requester) (a : Nat) (hk : s.Kept κ) : (State.readTouch s r a).Kept κ := by
  unfold State.readTouch
  with_reducible repeat' first
       | assumption | simp only [Kept.upd_iff] | apply State.engSync_kept | apply State.freezeClamp_kept
       | split

theorem State.pageRead_eq {s : State} {r : Requester} {a : Nat} {x_} {t_ : State} (heq : State.pageRead s r a = (x_, t_)) (hk : s.Kept κ)
    : t_.Kept κ := by
  unfold State.pageRead at heq
  (try dsimp only at heq)
  (repeat' split at heq) <;> (first | cases heq | skip)
  all_goals
  (with_reducible repeat' first | assumption | simp only [Kept.upd_iff] | apply State.readTouch_kept)

theorem State.pageRead_snd_kept (s : State) (r : Requester) (a : Nat) (hk : s.Kept κ) : (State.pageRead s r a).2.Kept κ :=
    State.pageRead_eq (by rfl) hk

theorem State.readWord_eq {s : State} {r : Requester} {a : Nat} {far : Word} {x_} {t_ : State} (heq : State.readWord s r a far = (x_, t_))
    (hk : s.Kept κ) : t_.Kept κ := by
  unfold State.readWord at heq
  (try dsimp only at heq)
  (repeat' split at heq) <;> (first | cases heq | skip)
  all_goals
  (with_reducible repeat' first
    | assumption | simp only [Kept.upd_iff] | apply State.accessOff_kept | apply State.cascAccess_kept
    | refine State.pageRead_eq (by assumption) ?_)

theorem State.readWord_snd_kept (s : State) (r : Requester) (a : Nat) (far : Word) (hk : s.Kept κ) : (State.readWord s r a far).2.Kept κ
    := State.readWord_eq (by rfl) hk

theorem State.clearErr_kept (s : State) (p : Nat) (hk : s.Kept κ) : (State.clearErr s p).Kept κ := by
  unfold State.clearErr
  with_reducible repeat' first | assumption | apply State.healthStep_kept | apply State.wrs_kept

theorem State.clearClamp_kept (s : State) (r : Requester) (p : Nat) (hk : s.Kept κ) : (State.clearClamp s r p).Kept κ := by
  unfold State.clearClamp
  with_reducible repeat' first | assumption | simp only [Kept.upd_iff] | apply State.setBit_kept | apply State.wr_kept

theorem State.clearBlock_kept (s : State) (r : Requester) (a : Nat) (hk : s.Kept κ) : (State.clearBlock s r a).Kept κ := by
  unfold State.clearBlock
  with_reducible repeat' first
       | assumption | simp only [Kept.upd_iff] | apply State.dqResRead_kept | apply State.healthStep_kept
       | apply State.setFld_kept | apply State.setTxuPort_kept | apply State.wr_kept | split

theorem State.clearAt_kept (s : State) (r : Requester) (a : Nat) (hk : s.Kept κ) : (State.clearAt s r a).Kept κ := by
  unfold State.clearAt
  try dsimp only
  with_reducible repeat' first
       | assumption | apply State.clearBlock_kept | apply State.clearClamp_kept | apply State.clearErr_kept
       | apply State.wr_kept | split

theorem State.readClear_kept (s : State) (r : Requester) (a : Nat) (hk : s.Kept κ) : (State.readClear s r a).Kept κ := by
  unfold State.readClear
  with_reducible repeat' first | assumption | apply State.clearAt_kept | split

theorem State.readFull_kept (s : State) (r : Requester) (a : Nat) (hk : s.Kept κ) : (State.readFull s r a).Kept κ := by
  unfold State.readFull
  with_reducible repeat' first
       | assumption | intro _ | apply State.draw_kept | apply State.answer_kept | apply State.readClear_kept | apply State.readWord_snd_kept | split

theorem execAccessOff_keeps (_r : Requester) (a : Nat) (write : Bool) (s : State) (hk : s.Kept κ) : OutKept κ (execAccessOff _r a write s)
    := by
  unfold execAccessOff
  with_reducible repeat' first
       | assumption | apply Kept.next | exact Kept.fault | apply State.accessOff_kept | apply State.answer_kept
       | split

theorem execErrCodeRead_keeps (r : Requester) (page : Nat) (s : State) (hk : s.Kept κ) : OutKept κ (execErrCodeRead r page s) := by
  unfold execErrCodeRead
  with_reducible repeat' first | assumption | apply Kept.next | apply State.readFull_kept

theorem execClampFieldRead_keeps (r : Requester) (page : Nat) (s : State) (hk : s.Kept κ) : OutKept κ (execClampFieldRead r page s) := by
  unfold execClampFieldRead
  with_reducible repeat' first | assumption | apply Kept.next | apply State.readFull_kept

theorem execClampCountRead_keeps (r : Requester) (page : Nat) (s : State) (hk : s.Kept κ) : OutKept κ (execClampCountRead r page s) := by
  unfold execClampCountRead
  with_reducible repeat' first | assumption | apply Kept.next | apply State.readFull_kept

theorem execGuardFailRead_keeps (r : Requester) (page : Nat) (s : State) (hk : s.Kept κ) : OutKept κ (execGuardFailRead r page s) := by
  unfold execGuardFailRead
  with_reducible repeat' first | assumption | apply Kept.next | apply State.readFull_kept

theorem execRcCounterRead_keeps (r : Requester) (a : Nat) (coincide : Word) (s : State) (hk : s.Kept κ) : OutKept κ (execRcCounterRead r a
    coincide s) := by
  unfold execRcCounterRead
  try dsimp only
  with_reducible repeat' first
       | assumption | apply Kept.next | exact Kept.fault | apply State.readFull_kept | apply State.wr_kept
       | split

end Sys2Proof.Machine
end

