-- ==== Sys2Proof/Laws/KeptSerial.lean ====
section
/-!
SUPPORT. What the operations and meanings of Machine/Serial.lean keep (see Kept.lean).
-/
namespace Sys2Proof.Machine

variable {κ : Part × Straps × List Instr × Nat}

theorem State.spiEnd_kept (s : State) (status : Nat) (ws : List Word) (hk : s.Kept κ) : (State.spiEnd s status ws).Kept κ := by
  unfold State.spiEnd
  with_reducible repeat' first
       | assumption | apply State.answer_kept | apply State.bump_kept | apply State.emit_kept
       | apply State.wr_kept | split

theorem State.spiWords_kept (s : State) (a n : Nat) (hk : s.Kept κ) : (State.spiWords s a n).2.Kept κ := by
  induction n generalizing s a with
  | zero => exact hk
  | succ n ih =>
    unfold State.spiWords
    extract_lets x y
    have hx : x.2.Kept κ := by
      simp only [x]
      split
      · exact hk
      · split
        · exact State.readWord_snd_kept _ _ _ _ (Kept.upd hk rfl)
        · exact State.readWord_snd_kept _ _ _ _ hk
    exact ih _ _ hx

theorem State.spiClears_kept (s : State) (a : Nat) (n_ : Nat) (hk : s.Kept κ) : (State.spiClears s a n_).Kept κ := by
  induction n_ generalizing s a with
  | zero =>
    unfold State.spiClears
    (try dsimp only)
    (with_reducible repeat' first | assumption | apply State.readClear_kept | apply ih)
  | succ k ih =>
    unfold State.spiClears
    (try dsimp only)
    (with_reducible repeat' first | assumption | apply State.readClear_kept | apply ih)

theorem State.spiWrites_kept (s : State) (a : Nat) (n_ : List Word) (hk : s.Kept κ) : (State.spiWrites s a n_).Kept κ := by
  induction n_ generalizing s a with
  | nil =>
    unfold State.spiWrites
    (try dsimp only)
    (with_reducible repeat' first | assumption | apply State.writeReg_kept | split | apply ih)
  | cons w t ih =>
    unfold State.spiWrites
    (try dsimp only)
    (with_reducible repeat' first | assumption | apply State.writeReg_kept | split | apply ih)

theorem execSpiWrite_keeps (a : Nat) (ws : List Word) (crc : Half) (s : State) (hk : s.Kept κ) : OutKept κ (execSpiWrite a ws crc s) := by
  unfold execSpiWrite
  with_reducible repeat' first | assumption | apply Kept.next | apply State.spiEnd_kept | apply State.spiWrites_kept | split

theorem execSpiRead_keeps (op : Byte) (a : Nat) (n : Fin 64) (crc : Half) (s : State) (hk : s.Kept κ) : OutKept κ (execSpiRead op a n crc
    s) := by
  unfold execSpiRead
  try dsimp only
  with_reducible repeat' first | assumption | apply Kept.next | apply State.spiEnd_kept | apply State.spiWords_kept | split

theorem execSpiReadClr_keeps (a : Nat) (n : Fin 64) (crc : Half) (complete : Bool) (s : State) (hk : s.Kept κ) : OutKept κ (execSpiReadClr
    a n crc complete s) := by
  unfold execSpiReadClr
  try dsimp only
  with_reducible repeat' first
       | assumption | apply Kept.next | apply State.spiClears_kept | apply State.spiEnd_kept
       | apply State.spiWords_kept | split

end Sys2Proof.Machine
end

