-- ==== Sys2Proof/Laws/KeptTick.lean ====
section
/-!
SUPPORT. What the operations and meanings of Machine/Tick.lean keep (see Kept.lean).
-/
namespace Sys2Proof.Machine

variable {κ : Part × Straps × List Instr × Nat}

theorem State.moveClocks_kept (s : State) (n : Nat) (hk : s.Kept κ) : (State.moveClocks s n).Kept κ := by
  unfold State.moveClocks
  with_reducible repeat' first | assumption | simp only [Kept.upd_iff]

theorem State.advance_kept (s : State) (hk : s.Kept κ) : (State.advance s).Kept κ := by
  unfold State.advance
  with_reducible repeat' first | assumption | apply State.moveClocks_kept | simp only [Kept.upd_iff]

theorem State.tick_kept (s : State) (hk : s.Kept κ) : (State.tick s).Kept (κ.1, κ.2.1, κ.2.2.1, s.mono + 1) := by
  obtain ⟨h, r, a, b, c, d, e, f⟩ := hk
  subst h
  have h1 : ({ s with mono := s.mono + 1 } : State).Kept (s.part, s.straps, s.pending, s.mono + 1) := ⟨rfl, r, a, b, c, d, e, f⟩
  unfold State.tick
  dsimp only
  split
  · exact h1
  · exact State.rampEnd_kept _ (State.advance_kept _ h1)

end Sys2Proof.Machine
end

