-- ==== Sys2Proof/Laws/KeptTxn.lean ====
section
/-!
SUPPORT. What the operations and meanings of Machine/Txn.lean keep (see Kept.lean).
-/
namespace Sys2Proof.Machine

variable {κ : Part × Straps × List Instr × Nat}

theorem State.dropShare_kept (s : State) (n : Fin 16) (hk : s.Kept κ) : (State.dropShare s n).Kept κ := by
  unfold State.dropShare
  with_reducible repeat' first
       | assumption | intro _ | apply Kept.ite | simp only [Kept.upd_iff] | apply State.raise_kept
       | apply State.setGroup_kept | apply Kept.foldl

theorem State.failGroup_kept (s : State) (n : Fin 16) (reason : Nat) (info : Word) (hk : s.Kept κ) : (State.failGroup s n reason
    info).Kept κ := by
  unfold State.failGroup
  with_reducible repeat' first
       | assumption | apply Kept.ite | simp only [Kept.upd_iff] | apply State.abortGroup_kept
       | apply State.dropShare_kept

theorem State.note_kept (s : State) (n : Fin 16) (reason a : Nat) (hk : s.Kept κ) : (State.note s n reason a).Kept κ := by
  unfold State.note
  try dsimp only
  with_reducible repeat' first
       | assumption | apply State.setGroup_kept | intro _ | apply State.draw_kept | split

theorem State.prepWrite_kept (s : State) (n : Fin 16) (w : StagedWrite) (hk : s.Kept κ) : (State.prepWrite s n w).Kept κ := by
  unfold State.prepWrite
  with_reducible repeat' first
       | assumption | apply State.note_kept | apply Kept.ite | simp only [Kept.upd_iff] | apply State.failGroup_kept
       | apply State.setGroup_kept | apply State.stageRecords_kept | split

theorem State.prepTable_kept (s : State) (n : Fin 16) (o : StagedTable) (hk : s.Kept κ) : (State.prepTable s n o).Kept κ := by
  unfold State.prepTable
  with_reducible repeat' first
       | assumption | apply Kept.ite | simp only [Kept.upd_iff] | apply State.failGroup_kept
       | refine State.tablePrep_eq (by assumption) ?_ | split

theorem State.prepValue_kept (s : State) (n : Fin 16) (bad : Option Nat) (w : StagedWrite) (hk : s.Kept κ) : (State.prepValue s n bad w).Kept κ := by
  unfold State.prepValue
  try dsimp only
  with_reducible repeat' first
       | assumption | apply State.guardFail_kept | apply State.note_kept | apply State.prepWrite_kept | intro _ | apply State.draw_kept | split

theorem State.prepDie_kept (s : State) (n : Fin 16) (d : Die) (bad : Option Nat) (hk : s.Kept κ) : (State.prepDie s n d bad).Kept κ := by
  unfold State.prepDie
  with_reducible repeat' first
       | assumption | apply State.prepValue_kept | intro _ | apply Kept.ite | simp only [Kept.upd_iff] | apply State.failGroup_kept
       | apply State.guardFail_kept | apply State.prepTable_kept | apply State.prepWrite_kept
       | apply State.setGroup_kept | apply Kept.foldl | split

theorem State.takeShare_kept (s : State) (n : Fin 16) (d : Die) (x : GroupShare) (hk : s.Kept κ) : (State.takeShare s n d x).Kept κ := by
  unfold State.takeShare
  with_reducible repeat' first | assumption | simp only [Kept.upd_iff] | apply State.setGroup_kept

theorem execPrep_keeps (slot : Fin 16) (die : Die) (bad : Option Nat) (share : Option GroupShare) (s : State) (hk : s.Kept κ) : OutKept κ
    (execPrep slot die bad share s) := by
  unfold execPrep
  with_reducible repeat' first
       | assumption | apply Kept.next | apply Kept.iteO | simp only [Kept.upd_iff] | apply State.prepDie_kept
       | apply State.takeShare_kept | split

theorem execArmed_keeps (slot : Fin 16) (part : Fin 4) (die : Die) (s : State) (hk : s.Kept κ) : OutKept κ (execArmed slot part die s) := by
  unfold execArmed
  with_reducible repeat' first
       | assumption | apply Kept.next | apply Kept.iteO | simp only [Kept.upd_iff] | apply State.setGroup_kept

theorem State.voteGroup_kept (s : State) (n : Fin 16) (remote : List RemoteVote) (hk : s.Kept κ) : (State.voteGroup s n remote).Kept κ := by
  unfold State.voteGroup
  with_reducible repeat' first
       | assumption | apply Kept.ite | simp only [Kept.upd_iff] | apply State.abortGroup_kept
       | apply State.emit_kept | apply State.setGroup_kept | apply State.supplyStop_kept | split

theorem execVote_keeps (slot : Fin 16) (go : Bool) (remote : List RemoteVote) (s : State) (hk : s.Kept κ) : OutKept κ (execVote slot go
    remote s) := by
  unfold execVote
  with_reducible repeat' first
       | assumption | apply Kept.next | apply Kept.iteO | simp only [Kept.upd_iff] | apply State.dropShare_kept
       | apply State.emit_kept | apply State.setGroup_kept | apply State.voteGroup_kept

theorem execCancel_keeps (slot : Fin 16) (part : Fin 4) (die : Die) (reason : Nat) (s : State) (hk : s.Kept κ) : OutKept κ (execCancel
    slot part die reason s) := by
  unfold execCancel
  with_reducible repeat' first
       | assumption | apply Kept.next | apply Kept.ite | apply Kept.iteO | simp only [Kept.upd_iff]
       | apply State.abortGroup_kept | apply State.dropShare_kept | apply State.emit_kept
       | apply State.supplyStop_kept

theorem execCommitClose_keeps (slot : Fin 16) (s : State) (hk : s.Kept κ) : OutKept κ (execCommitClose slot s) := by
  unfold execCommitClose
  with_reducible repeat' first
       | assumption | apply Kept.next | apply Kept.iteO | simp only [Kept.upd_iff] | apply State.failGroup_kept
       | apply State.setGroup_kept | split

theorem State.applyWrite_kept (s : State) (w : StagedWrite) (hk : s.Kept κ) : (State.applyWrite s w).Kept κ := by
  unfold State.applyWrite
  with_reducible repeat' first | assumption | simp only [Kept.upd_iff] | apply State.store_kept | split

theorem State.applyWrites_kept (s : State) (ws : List StagedWrite) (hk : s.Kept κ) : (State.applyWrites s ws).Kept κ := by
  unfold State.applyWrites
  with_reducible repeat' first | assumption | simp only [Kept.upd_iff] | apply State.applyWrite_kept | apply Kept.foldl

theorem State.applyShares_kept (s : State) (n : Fin 16) (g : Group) (hk : s.Kept κ) : (State.applyShares s n g).Kept κ := by
  unfold State.applyShares
  with_reducible repeat' first
       | assumption | intro _ | simp only [Kept.upd_iff] | apply State.applyWrites_kept
       | apply State.tableApply_kept | apply Kept.foldl

theorem State.applyKept_kept (s : State) (k : KeptShare) (hk : s.Kept κ) : (State.applyKept s k).Kept κ := by
  unfold State.applyKept
  with_reducible repeat' first | assumption | simp only [Kept.upd_iff] | apply State.applyWrites_kept

theorem State.completeGroup_kept (s : State) (n : Fin 16) (g : Group) (hk : s.Kept κ) : (State.completeGroup s n g).Kept κ := by
  unfold State.completeGroup
  with_reducible repeat' first
       | assumption | apply Kept.ite | simp only [Kept.upd_iff] | apply State.applyShares_kept
       | apply State.groupEnd_kept | apply State.setGroup_kept

theorem execGroupApply_keeps (slot : Fin 16) (s : State) (hk : s.Kept κ) : OutKept κ (execGroupApply slot s) := by
  unfold execGroupApply
  with_reducible repeat' first
       | assumption | apply Kept.next | apply Kept.ite | apply Kept.iteO | simp only [Kept.upd_iff]
       | apply State.applyKept_kept | apply State.completeGroup_kept | split

theorem execWaitSupplyRecovery_keeps (slot : Fin 16) (s : State) (hk : s.Kept κ) : OutKept κ (execWaitSupplyRecovery slot s) := by
  unfold execWaitSupplyRecovery
  with_reducible repeat' first
       | assumption | apply Kept.next | apply Kept.iteO | simp only [Kept.upd_iff] | apply State.setGroup_kept
       | apply State.voteGroup_kept

end Sys2Proof.Machine
end

