-- ==== Sys2Proof/Laws/State.lean ====
section
/-!
SUPPORT. What each update of State leaves: one lemma per field and update, so that no proof unfolds a record update. The lemmas on
reads say the same of a register read.
-/
namespace Sys2Proof.Machine

variable (s : State)

/-! ## State.wr -/

@[simp] theorem State.wr_part (a : Nat) (v : Word) : (s.wr a v).part = s.part := rfl
@[simp] theorem State.wr_straps (a : Nat) (v : Word) : (s.wr a v).straps = s.straps := rfl
@[simp] theorem State.wr_pending (a : Nat) (v : Word) : (s.wr a v).pending = s.pending := rfl
@[simp] theorem State.wr_resp (a : Nat) (v : Word) : (s.wr a v).resp = s.resp := rfl
@[simp] theorem State.wr_outbox (a : Nat) (v : Word) : (s.wr a v).outbox = s.outbox := rfl
@[simp] theorem State.wr_fresh (a : Nat) (v : Word) : (s.wr a v).fresh = s.fresh := rfl
@[simp] theorem State.wr_mono (a : Nat) (v : Word) : (s.wr a v).mono = s.mono := rfl
@[simp] theorem State.wr_tags (a : Nat) (v : Word) : (s.wr a v).tags = s.tags := rfl
@[simp] theorem State.wr_txu (a : Nat) (v : Word) : (s.wr a v).txu = s.txu := rfl
@[simp] theorem State.wr_logs (a : Nat) (v : Word) : (s.wr a v).logs = s.logs := rfl
@[simp] theorem State.wr_msix (a : Nat) (v : Word) : (s.wr a v).msix = s.msix := rfl
@[simp] theorem State.wr_time (a : Nat) (v : Word) : (s.wr a v).time = s.time := rfl
@[simp] theorem State.wr_power (a : Nat) (v : Word) : (s.wr a v).power = s.power := rfl
@[simp] theorem State.wr_actq (a : Nat) (v : Word) : (s.wr a v).actq = s.actq := rfl
@[simp] theorem State.wr_lamp (a : Nat) (v : Word) : (s.wr a v).lamp = s.lamp := rfl
@[simp] theorem State.wr_sub (a : Nat) (v : Word) : (s.wr a v).sub = s.sub := rfl
@[simp] theorem State.wr_mesh (a : Nat) (v : Word) : (s.wr a v).mesh = s.mesh := rfl
@[simp] theorem State.wr_acc (a : Nat) (v : Word) : (s.wr a v).acc = s.acc := rfl
@[simp] theorem State.wr_qm (a : Nat) (v : Word) : (s.wr a v).qm = s.qm := rfl
@[simp] theorem State.wr_fwd (a : Nat) (v : Word) : (s.wr a v).fwd = s.fwd := rfl
@[simp] theorem State.wr_sched (a : Nat) (v : Word) : (s.wr a v).sched = s.sched := rfl
@[simp] theorem State.wr_bh (a : Nat) (v : Word) : (s.wr a v).bh = s.bh := rfl
@[simp] theorem State.wr_xbl (a : Nat) (v : Word) : (s.wr a v).xbl = s.xbl := rfl
@[simp] theorem State.wr_engines (a : Nat) (v : Word) : (s.wr a v).engines = s.engines := rfl
@[simp] theorem State.wr_grate (a : Nat) (v : Word) : (s.wr a v).grate = s.grate := rfl
@[simp] theorem State.wr_ember (a : Nat) (v : Word) : (s.wr a v).ember = s.ember := rfl
@[simp] theorem State.wr_shared (a : Nat) (v : Word) : (s.wr a v).shared = s.shared := rfl
@[simp] theorem State.wr_dma (a : Nat) (v : Word) : (s.wr a v).dma = s.dma := rfl
@[simp] theorem State.wr_radioMem (a : Nat) (v : Word) : (s.wr a v).radioMem = s.radioMem := rfl
@[simp] theorem State.wr_aes (a : Nat) (v : Word) : (s.wr a v).aes = s.aes := rfl
@[simp] theorem State.wr_ddr (a : Nat) (v : Word) : (s.wr a v).ddr = s.ddr := rfl
@[simp] theorem State.wr_hport (a : Nat) (v : Word) : (s.wr a v).hport = s.hport := rfl
@[simp] theorem State.wr_byp (a : Nat) (v : Word) : (s.wr a v).byp = s.byp := rfl
@[simp] theorem State.wr_srcq (a : Nat) (v : Word) : (s.wr a v).srcq = s.srcq := rfl
@[simp] theorem State.wr_pipeKeys (a : Nat) (v : Word) : (s.wr a v).pipeKeys = s.pipeKeys := rfl
@[simp] theorem State.wr_pipeLog (a : Nat) (v : Word) : (s.wr a v).pipeLog = s.pipeLog := rfl
@[simp] theorem State.wr_perReq (a : Nat) (v : Word) : (s.wr a v).perReq = s.perReq := rfl
@[simp] theorem State.wr_dram (a : Nat) (v : Word) : (s.wr a v).dram = s.dram := rfl
@[simp] theorem State.wr_esram (a : Nat) (v : Word) : (s.wr a v).esram = s.esram := rfl

/-! ## State.setFld -/

@[simp] theorem State.setFld_part (a hi lo v : Nat) : (s.setFld a hi lo v).part = s.part := rfl
@[simp] theorem State.setFld_straps (a hi lo v : Nat) : (s.setFld a hi lo v).straps = s.straps := rfl
@[simp] theorem State.setFld_pending (a hi lo v : Nat) : (s.setFld a hi lo v).pending = s.pending := rfl
@[simp] theorem State.setFld_resp (a hi lo v : Nat) : (s.setFld a hi lo v).resp = s.resp := rfl
@[simp] theorem State.setFld_outbox (a hi lo v : Nat) : (s.setFld a hi lo v).outbox = s.outbox := rfl
@[simp] theorem State.setFld_fresh (a hi lo v : Nat) : (s.setFld a hi lo v).fresh = s.fresh := rfl
@[simp] theorem State.setFld_mono (a hi lo v : Nat) : (s.setFld a hi lo v).mono = s.mono := rfl
@[simp] theorem State.setFld_tags (a hi lo v : Nat) : (s.setFld a hi lo v).tags = s.tags := rfl
@[simp] theorem State.setFld_txu (a hi lo v : Nat) : (s.setFld a hi lo v).txu = s.txu := rfl
@[simp] theorem State.setFld_logs (a hi lo v : Nat) : (s.setFld a hi lo v).logs = s.logs := rfl
@[simp] theorem State.setFld_msix (a hi lo v : Nat) : (s.setFld a hi lo v).msix = s.msix := rfl
@[simp] theorem State.setFld_time (a hi lo v : Nat) : (s.setFld a hi lo v).time = s.time := rfl
@[simp] theorem State.setFld_power (a hi lo v : Nat) : (s.setFld a hi lo v).power = s.power := rfl
@[simp] theorem State.setFld_actq (a hi lo v : Nat) : (s.setFld a hi lo v).actq = s.actq := rfl
@[simp] theorem State.setFld_lamp (a hi lo v : Nat) : (s.setFld a hi lo v).lamp = s.lamp := rfl
@[simp] theorem State.setFld_sub (a hi lo v : Nat) : (s.setFld a hi lo v).sub = s.sub := rfl
@[simp] theorem State.setFld_mesh (a hi lo v : Nat) : (s.setFld a hi lo v).mesh = s.mesh := rfl
@[simp] theorem State.setFld_acc (a hi lo v : Nat) : (s.setFld a hi lo v).acc = s.acc := rfl
@[simp] theorem State.setFld_qm (a hi lo v : Nat) : (s.setFld a hi lo v).qm = s.qm := rfl
@[simp] theorem State.setFld_fwd (a hi lo v : Nat) : (s.setFld a hi lo v).fwd = s.fwd := rfl
@[simp] theorem State.setFld_sched (a hi lo v : Nat) : (s.setFld a hi lo v).sched = s.sched := rfl
@[simp] theorem State.setFld_bh (a hi lo v : Nat) : (s.setFld a hi lo v).bh = s.bh := rfl
@[simp] theorem State.setFld_xbl (a hi lo v : Nat) : (s.setFld a hi lo v).xbl = s.xbl := rfl
@[simp] theorem State.setFld_engines (a hi lo v : Nat) : (s.setFld a hi lo v).engines = s.engines := rfl
@[simp] theorem State.setFld_grate (a hi lo v : Nat) : (s.setFld a hi lo v).grate = s.grate := rfl
@[simp] theorem State.setFld_ember (a hi lo v : Nat) : (s.setFld a hi lo v).ember = s.ember := rfl
@[simp] theorem State.setFld_shared (a hi lo v : Nat) : (s.setFld a hi lo v).shared = s.shared := rfl
@[simp] theorem State.setFld_dma (a hi lo v : Nat) : (s.setFld a hi lo v).dma = s.dma := rfl
@[simp] theorem State.setFld_radioMem (a hi lo v : Nat) : (s.setFld a hi lo v).radioMem = s.radioMem := rfl
@[simp] theorem State.setFld_aes (a hi lo v : Nat) : (s.setFld a hi lo v).aes = s.aes := rfl
@[simp] theorem State.setFld_ddr (a hi lo v : Nat) : (s.setFld a hi lo v).ddr = s.ddr := rfl
@[simp] theorem State.setFld_hport (a hi lo v : Nat) : (s.setFld a hi lo v).hport = s.hport := rfl
@[simp] theorem State.setFld_byp (a hi lo v : Nat) : (s.setFld a hi lo v).byp = s.byp := rfl
@[simp] theorem State.setFld_srcq (a hi lo v : Nat) : (s.setFld a hi lo v).srcq = s.srcq := rfl
@[simp] theorem State.setFld_pipeKeys (a hi lo v : Nat) : (s.setFld a hi lo v).pipeKeys = s.pipeKeys := rfl
@[simp] theorem State.setFld_pipeLog (a hi lo v : Nat) : (s.setFld a hi lo v).pipeLog = s.pipeLog := rfl
@[simp] theorem State.setFld_perReq (a hi lo v : Nat) : (s.setFld a hi lo v).perReq = s.perReq := rfl
@[simp] theorem State.setFld_dram (a hi lo v : Nat) : (s.setFld a hi lo v).dram = s.dram := rfl
@[simp] theorem State.setFld_esram (a hi lo v : Nat) : (s.setFld a hi lo v).esram = s.esram := rfl

/-! ## State.setBit -/

@[simp] theorem State.setBit_part (a n : Nat) (b : Bool) : (s.setBit a n b).part = s.part := rfl
@[simp] theorem State.setBit_straps (a n : Nat) (b : Bool) : (s.setBit a n b).straps = s.straps := rfl
@[simp] theorem State.setBit_pending (a n : Nat) (b : Bool) : (s.setBit a n b).pending = s.pending := rfl
@[simp] theorem State.setBit_resp (a n : Nat) (b : Bool) : (s.setBit a n b).resp = s.resp := rfl
@[simp] theorem State.setBit_outbox (a n : Nat) (b : Bool) : (s.setBit a n b).outbox = s.outbox := rfl
@[simp] theorem State.setBit_fresh (a n : Nat) (b : Bool) : (s.setBit a n b).fresh = s.fresh := rfl
@[simp] theorem State.setBit_mono (a n : Nat) (b : Bool) : (s.setBit a n b).mono = s.mono := rfl
@[simp] theorem State.setBit_tags (a n : Nat) (b : Bool) : (s.setBit a n b).tags = s.tags := rfl
@[simp] theorem State.setBit_txu (a n : Nat) (b : Bool) : (s.setBit a n b).txu = s.txu := rfl
@[simp] theorem State.setBit_logs (a n : Nat) (b : Bool) : (s.setBit a n b).logs = s.logs := rfl
@[simp] theorem State.setBit_msix (a n : Nat) (b : Bool) : (s.setBit a n b).msix = s.msix := rfl
@[simp] theorem State.setBit_time (a n : Nat) (b : Bool) : (s.setBit a n b).time = s.time := rfl
@[simp] theorem State.setBit_power (a n : Nat) (b : Bool) : (s.setBit a n b).power = s.power := rfl
@[simp] theorem State.setBit_actq (a n : Nat) (b : Bool) : (s.setBit a n b).actq = s.actq := rfl
@[simp] theorem State.setBit_lamp (a n : Nat) (b : Bool) : (s.setBit a n b).lamp = s.lamp := rfl
@[simp] theorem State.setBit_sub (a n : Nat) (b : Bool) : (s.setBit a n b).sub = s.sub := rfl
@[simp] theorem State.setBit_mesh (a n : Nat) (b : Bool) : (s.setBit a n b).mesh = s.mesh := rfl
@[simp] theorem State.setBit_acc (a n : Nat) (b : Bool) : (s.setBit a n b).acc = s.acc := rfl
@[simp] theorem State.setBit_qm (a n : Nat) (b : Bool) : (s.setBit a n b).qm = s.qm := rfl
@[simp] theorem State.setBit_fwd (a n : Nat) (b : Bool) : (s.setBit a n b).fwd = s.fwd := rfl
@[simp] theorem State.setBit_sched (a n : Nat) (b : Bool) : (s.setBit a n b).sched = s.sched := rfl
@[simp] theorem State.setBit_bh (a n : Nat) (b : Bool) : (s.setBit a n b).bh = s.bh := rfl
@[simp] theorem State.setBit_xbl (a n : Nat) (b : Bool) : (s.setBit a n b).xbl = s.xbl := rfl
@[simp] theorem State.setBit_engines (a n : Nat) (b : Bool) : (s.setBit a n b).engines = s.engines := rfl
@[simp] theorem State.setBit_grate (a n : Nat) (b : Bool) : (s.setBit a n b).grate = s.grate := rfl
@[simp] theorem State.setBit_ember (a n : Nat) (b : Bool) : (s.setBit a n b).ember = s.ember := rfl
@[simp] theorem State.setBit_shared (a n : Nat) (b : Bool) : (s.setBit a n b).shared = s.shared := rfl
@[simp] theorem State.setBit_dma (a n : Nat) (b : Bool) : (s.setBit a n b).dma = s.dma := rfl
@[simp] theorem State.setBit_radioMem (a n : Nat) (b : Bool) : (s.setBit a n b).radioMem = s.radioMem := rfl
@[simp] theorem State.setBit_aes (a n : Nat) (b : Bool) : (s.setBit a n b).aes = s.aes := rfl
@[simp] theorem State.setBit_ddr (a n : Nat) (b : Bool) : (s.setBit a n b).ddr = s.ddr := rfl
@[simp] theorem State.setBit_hport (a n : Nat) (b : Bool) : (s.setBit a n b).hport = s.hport := rfl
@[simp] theorem State.setBit_byp (a n : Nat) (b : Bool) : (s.setBit a n b).byp = s.byp := rfl
@[simp] theorem State.setBit_srcq (a n : Nat) (b : Bool) : (s.setBit a n b).srcq = s.srcq := rfl
@[simp] theorem State.setBit_pipeKeys (a n : Nat) (b : Bool) : (s.setBit a n b).pipeKeys = s.pipeKeys := rfl
@[simp] theorem State.setBit_pipeLog (a n : Nat) (b : Bool) : (s.setBit a n b).pipeLog = s.pipeLog := rfl
@[simp] theorem State.setBit_perReq (a n : Nat) (b : Bool) : (s.setBit a n b).perReq = s.perReq := rfl
@[simp] theorem State.setBit_dram (a n : Nat) (b : Bool) : (s.setBit a n b).dram = s.dram := rfl
@[simp] theorem State.setBit_esram (a n : Nat) (b : Bool) : (s.setBit a n b).esram = s.esram := rfl

/-! ## State.bump -/

@[simp] theorem State.bump_part (a hi lo n : Nat) : (s.bump a hi lo n).part = s.part := rfl
@[simp] theorem State.bump_straps (a hi lo n : Nat) : (s.bump a hi lo n).straps = s.straps := rfl
@[simp] theorem State.bump_pending (a hi lo n : Nat) : (s.bump a hi lo n).pending = s.pending := rfl
@[simp] theorem State.bump_resp (a hi lo n : Nat) : (s.bump a hi lo n).resp = s.resp := rfl
@[simp] theorem State.bump_outbox (a hi lo n : Nat) : (s.bump a hi lo n).outbox = s.outbox := rfl
@[simp] theorem State.bump_fresh (a hi lo n : Nat) : (s.bump a hi lo n).fresh = s.fresh := rfl
@[simp] theorem State.bump_mono (a hi lo n : Nat) : (s.bump a hi lo n).mono = s.mono := rfl
@[simp] theorem State.bump_tags (a hi lo n : Nat) : (s.bump a hi lo n).tags = s.tags := rfl
@[simp] theorem State.bump_txu (a hi lo n : Nat) : (s.bump a hi lo n).txu = s.txu := rfl
@[simp] theorem State.bump_logs (a hi lo n : Nat) : (s.bump a hi lo n).logs = s.logs := rfl
@[simp] theorem State.bump_msix (a hi lo n : Nat) : (s.bump a hi lo n).msix = s.msix := rfl
@[simp] theorem State.bump_time (a hi lo n : Nat) : (s.bump a hi lo n).time = s.time := rfl
@[simp] theorem State.bump_power (a hi lo n : Nat) : (s.bump a hi lo n).power = s.power := rfl
@[simp] theorem State.bump_actq (a hi lo n : Nat) : (s.bump a hi lo n).actq = s.actq := rfl
@[simp] theorem State.bump_lamp (a hi lo n : Nat) : (s.bump a hi lo n).lamp = s.lamp := rfl
@[simp] theorem State.bump_sub (a hi lo n : Nat) : (s.bump a hi lo n).sub = s.sub := rfl
@[simp] theorem State.bump_mesh (a hi lo n : Nat) : (s.bump a hi lo n).mesh = s.mesh := rfl
@[simp] theorem State.bump_acc (a hi lo n : Nat) : (s.bump a hi lo n).acc = s.acc := rfl
@[simp] theorem State.bump_qm (a hi lo n : Nat) : (s.bump a hi lo n).qm = s.qm := rfl
@[simp] theorem State.bump_fwd (a hi lo n : Nat) : (s.bump a hi lo n).fwd = s.fwd := rfl
@[simp] theorem State.bump_sched (a hi lo n : Nat) : (s.bump a hi lo n).sched = s.sched := rfl
@[simp] theorem State.bump_bh (a hi lo n : Nat) : (s.bump a hi lo n).bh = s.bh := rfl
@[simp] theorem State.bump_xbl (a hi lo n : Nat) : (s.bump a hi lo n).xbl = s.xbl := rfl
@[simp] theorem State.bump_engines (a hi lo n : Nat) : (s.bump a hi lo n).engines = s.engines := rfl
@[simp] theorem State.bump_grate (a hi lo n : Nat) : (s.bump a hi lo n).grate = s.grate := rfl
@[simp] theorem State.bump_ember (a hi lo n : Nat) : (s.bump a hi lo n).ember = s.ember := rfl
@[simp] theorem State.bump_shared (a hi lo n : Nat) : (s.bump a hi lo n).shared = s.shared := rfl
@[simp] theorem State.bump_dma (a hi lo n : Nat) : (s.bump a hi lo n).dma = s.dma := rfl
@[simp] theorem State.bump_radioMem (a hi lo n : Nat) : (s.bump a hi lo n).radioMem = s.radioMem := rfl
@[simp] theorem State.bump_aes (a hi lo n : Nat) : (s.bump a hi lo n).aes = s.aes := rfl
@[simp] theorem State.bump_ddr (a hi lo n : Nat) : (s.bump a hi lo n).ddr = s.ddr := rfl
@[simp] theorem State.bump_hport (a hi lo n : Nat) : (s.bump a hi lo n).hport = s.hport := rfl
@[simp] theorem State.bump_byp (a hi lo n : Nat) : (s.bump a hi lo n).byp = s.byp := rfl
@[simp] theorem State.bump_srcq (a hi lo n : Nat) : (s.bump a hi lo n).srcq = s.srcq := rfl
@[simp] theorem State.bump_pipeKeys (a hi lo n : Nat) : (s.bump a hi lo n).pipeKeys = s.pipeKeys := rfl
@[simp] theorem State.bump_pipeLog (a hi lo n : Nat) : (s.bump a hi lo n).pipeLog = s.pipeLog := rfl
@[simp] theorem State.bump_perReq (a hi lo n : Nat) : (s.bump a hi lo n).perReq = s.perReq := rfl
@[simp] theorem State.bump_dram (a hi lo n : Nat) : (s.bump a hi lo n).dram = s.dram := rfl
@[simp] theorem State.bump_esram (a hi lo n : Nat) : (s.bump a hi lo n).esram = s.esram := rfl

/-! ## State.count -/

@[simp] theorem State.count_part (a n : Nat) : (s.count a n).part = s.part := rfl
@[simp] theorem State.count_straps (a n : Nat) : (s.count a n).straps = s.straps := rfl
@[simp] theorem State.count_pending (a n : Nat) : (s.count a n).pending = s.pending := rfl
@[simp] theorem State.count_resp (a n : Nat) : (s.count a n).resp = s.resp := rfl
@[simp] theorem State.count_outbox (a n : Nat) : (s.count a n).outbox = s.outbox := rfl
@[simp] theorem State.count_fresh (a n : Nat) : (s.count a n).fresh = s.fresh := rfl
@[simp] theorem State.count_mono (a n : Nat) : (s.count a n).mono = s.mono := rfl
@[simp] theorem State.count_tags (a n : Nat) : (s.count a n).tags = s.tags := rfl
@[simp] theorem State.count_txu (a n : Nat) : (s.count a n).txu = s.txu := rfl
@[simp] theorem State.count_logs (a n : Nat) : (s.count a n).logs = s.logs := rfl
@[simp] theorem State.count_msix (a n : Nat) : (s.count a n).msix = s.msix := rfl
@[simp] theorem State.count_time (a n : Nat) : (s.count a n).time = s.time := rfl
@[simp] theorem State.count_power (a n : Nat) : (s.count a n).power = s.power := rfl
@[simp] theorem State.count_actq (a n : Nat) : (s.count a n).actq = s.actq := rfl
@[simp] theorem State.count_lamp (a n : Nat) : (s.count a n).lamp = s.lamp := rfl
@[simp] theorem State.count_sub (a n : Nat) : (s.count a n).sub = s.sub := rfl
@[simp] theorem State.count_mesh (a n : Nat) : (s.count a n).mesh = s.mesh := rfl
@[simp] theorem State.count_acc (a n : Nat) : (s.count a n).acc = s.acc := rfl
@[simp] theorem State.count_qm (a n : Nat) : (s.count a n).qm = s.qm := rfl
@[simp] theorem State.count_fwd (a n : Nat) : (s.count a n).fwd = s.fwd := rfl
@[simp] theorem State.count_sched (a n : Nat) : (s.count a n).sched = s.sched := rfl
@[simp] theorem State.count_bh (a n : Nat) : (s.count a n).bh = s.bh := rfl
@[simp] theorem State.count_xbl (a n : Nat) : (s.count a n).xbl = s.xbl := rfl
@[simp] theorem State.count_engines (a n : Nat) : (s.count a n).engines = s.engines := rfl
@[simp] theorem State.count_grate (a n : Nat) : (s.count a n).grate = s.grate := rfl
@[simp] theorem State.count_ember (a n : Nat) : (s.count a n).ember = s.ember := rfl
@[simp] theorem State.count_shared (a n : Nat) : (s.count a n).shared = s.shared := rfl
@[simp] theorem State.count_dma (a n : Nat) : (s.count a n).dma = s.dma := rfl
@[simp] theorem State.count_radioMem (a n : Nat) : (s.count a n).radioMem = s.radioMem := rfl
@[simp] theorem State.count_aes (a n : Nat) : (s.count a n).aes = s.aes := rfl
@[simp] theorem State.count_ddr (a n : Nat) : (s.count a n).ddr = s.ddr := rfl
@[simp] theorem State.count_hport (a n : Nat) : (s.count a n).hport = s.hport := rfl
@[simp] theorem State.count_byp (a n : Nat) : (s.count a n).byp = s.byp := rfl
@[simp] theorem State.count_srcq (a n : Nat) : (s.count a n).srcq = s.srcq := rfl
@[simp] theorem State.count_pipeKeys (a n : Nat) : (s.count a n).pipeKeys = s.pipeKeys := rfl
@[simp] theorem State.count_pipeLog (a n : Nat) : (s.count a n).pipeLog = s.pipeLog := rfl
@[simp] theorem State.count_perReq (a n : Nat) : (s.count a n).perReq = s.perReq := rfl
@[simp] theorem State.count_dram (a n : Nat) : (s.count a n).dram = s.dram := rfl
@[simp] theorem State.count_esram (a n : Nat) : (s.count a n).esram = s.esram := rfl

/-! ## State.clearRegs -/

@[simp] theorem State.clearRegs_part (lo hi : Nat) : (s.clearRegs lo hi).part = s.part := rfl
@[simp] theorem State.clearRegs_straps (lo hi : Nat) : (s.clearRegs lo hi).straps = s.straps := rfl
@[simp] theorem State.clearRegs_pending (lo hi : Nat) : (s.clearRegs lo hi).pending = s.pending := rfl
@[simp] theorem State.clearRegs_resp (lo hi : Nat) : (s.clearRegs lo hi).resp = s.resp := rfl
@[simp] theorem State.clearRegs_outbox (lo hi : Nat) : (s.clearRegs lo hi).outbox = s.outbox := rfl
@[simp] theorem State.clearRegs_fresh (lo hi : Nat) : (s.clearRegs lo hi).fresh = s.fresh := rfl
@[simp] theorem State.clearRegs_mono (lo hi : Nat) : (s.clearRegs lo hi).mono = s.mono := rfl
@[simp] theorem State.clearRegs_tags (lo hi : Nat) : (s.clearRegs lo hi).tags = s.tags := rfl
@[simp] theorem State.clearRegs_txu (lo hi : Nat) : (s.clearRegs lo hi).txu = s.txu := rfl
@[simp] theorem State.clearRegs_logs (lo hi : Nat) : (s.clearRegs lo hi).logs = s.logs := rfl
@[simp] theorem State.clearRegs_msix (lo hi : Nat) : (s.clearRegs lo hi).msix = s.msix := rfl
@[simp] theorem State.clearRegs_time (lo hi : Nat) : (s.clearRegs lo hi).time = s.time := rfl
@[simp] theorem State.clearRegs_power (lo hi : Nat) : (s.clearRegs lo hi).power = s.power := rfl
@[simp] theorem State.clearRegs_actq (lo hi : Nat) : (s.clearRegs lo hi).actq = s.actq := rfl
@[simp] theorem State.clearRegs_lamp (lo hi : Nat) : (s.clearRegs lo hi).lamp = s.lamp := rfl
@[simp] theorem State.clearRegs_sub (lo hi : Nat) : (s.clearRegs lo hi).sub = s.sub := rfl
@[simp] theorem State.clearRegs_mesh (lo hi : Nat) : (s.clearRegs lo hi).mesh = s.mesh := rfl
@[simp] theorem State.clearRegs_acc (lo hi : Nat) : (s.clearRegs lo hi).acc = s.acc := rfl
@[simp] theorem State.clearRegs_qm (lo hi : Nat) : (s.clearRegs lo hi).qm = s.qm := rfl
@[simp] theorem State.clearRegs_fwd (lo hi : Nat) : (s.clearRegs lo hi).fwd = s.fwd := rfl
@[simp] theorem State.clearRegs_sched (lo hi : Nat) : (s.clearRegs lo hi).sched = s.sched := rfl
@[simp] theorem State.clearRegs_bh (lo hi : Nat) : (s.clearRegs lo hi).bh = s.bh := rfl
@[simp] theorem State.clearRegs_xbl (lo hi : Nat) : (s.clearRegs lo hi).xbl = s.xbl := rfl
@[simp] theorem State.clearRegs_engines (lo hi : Nat) : (s.clearRegs lo hi).engines = s.engines := rfl
@[simp] theorem State.clearRegs_grate (lo hi : Nat) : (s.clearRegs lo hi).grate = s.grate := rfl
@[simp] theorem State.clearRegs_ember (lo hi : Nat) : (s.clearRegs lo hi).ember = s.ember := rfl
@[simp] theorem State.clearRegs_shared (lo hi : Nat) : (s.clearRegs lo hi).shared = s.shared := rfl
@[simp] theorem State.clearRegs_dma (lo hi : Nat) : (s.clearRegs lo hi).dma = s.dma := rfl
@[simp] theorem State.clearRegs_radioMem (lo hi : Nat) : (s.clearRegs lo hi).radioMem = s.radioMem := rfl
@[simp] theorem State.clearRegs_aes (lo hi : Nat) : (s.clearRegs lo hi).aes = s.aes := rfl
@[simp] theorem State.clearRegs_ddr (lo hi : Nat) : (s.clearRegs lo hi).ddr = s.ddr := rfl
@[simp] theorem State.clearRegs_hport (lo hi : Nat) : (s.clearRegs lo hi).hport = s.hport := rfl
@[simp] theorem State.clearRegs_byp (lo hi : Nat) : (s.clearRegs lo hi).byp = s.byp := rfl
@[simp] theorem State.clearRegs_srcq (lo hi : Nat) : (s.clearRegs lo hi).srcq = s.srcq := rfl
@[simp] theorem State.clearRegs_pipeKeys (lo hi : Nat) : (s.clearRegs lo hi).pipeKeys = s.pipeKeys := rfl
@[simp] theorem State.clearRegs_pipeLog (lo hi : Nat) : (s.clearRegs lo hi).pipeLog = s.pipeLog := rfl
@[simp] theorem State.clearRegs_perReq (lo hi : Nat) : (s.clearRegs lo hi).perReq = s.perReq := rfl
@[simp] theorem State.clearRegs_dram (lo hi : Nat) : (s.clearRegs lo hi).dram = s.dram := rfl
@[simp] theorem State.clearRegs_esram (lo hi : Nat) : (s.clearRegs lo hi).esram = s.esram := rfl

/-! ## State.answer -/

@[simp] theorem State.answer_part (ws : List Word) : (s.answer ws).part = s.part := rfl
@[simp] theorem State.answer_straps (ws : List Word) : (s.answer ws).straps = s.straps := rfl
@[simp] theorem State.answer_pending (ws : List Word) : (s.answer ws).pending = s.pending := rfl
@[simp] theorem State.answer_outbox (ws : List Word) : (s.answer ws).outbox = s.outbox := rfl
@[simp] theorem State.answer_fresh (ws : List Word) : (s.answer ws).fresh = s.fresh := rfl
@[simp] theorem State.answer_mono (ws : List Word) : (s.answer ws).mono = s.mono := rfl
@[simp] theorem State.answer_regs (ws : List Word) : (s.answer ws).regs = s.regs := rfl
@[simp] theorem State.answer_tags (ws : List Word) : (s.answer ws).tags = s.tags := rfl
@[simp] theorem State.answer_txu (ws : List Word) : (s.answer ws).txu = s.txu := rfl
@[simp] theorem State.answer_logs (ws : List Word) : (s.answer ws).logs = s.logs := rfl
@[simp] theorem State.answer_msix (ws : List Word) : (s.answer ws).msix = s.msix := rfl
@[simp] theorem State.answer_time (ws : List Word) : (s.answer ws).time = s.time := rfl
@[simp] theorem State.answer_power (ws : List Word) : (s.answer ws).power = s.power := rfl
@[simp] theorem State.answer_actq (ws : List Word) : (s.answer ws).actq = s.actq := rfl
@[simp] theorem State.answer_lamp (ws : List Word) : (s.answer ws).lamp = s.lamp := rfl
@[simp] theorem State.answer_sub (ws : List Word) : (s.answer ws).sub = s.sub := rfl
@[simp] theorem State.answer_mesh (ws : List Word) : (s.answer ws).mesh = s.mesh := rfl
@[simp] theorem State.answer_acc (ws : List Word) : (s.answer ws).acc = s.acc := rfl
@[simp] theorem State.answer_qm (ws : List Word) : (s.answer ws).qm = s.qm := rfl
@[simp] theorem State.answer_fwd (ws : List Word) : (s.answer ws).fwd = s.fwd := rfl
@[simp] theorem State.answer_sched (ws : List Word) : (s.answer ws).sched = s.sched := rfl
@[simp] theorem State.answer_bh (ws : List Word) : (s.answer ws).bh = s.bh := rfl
@[simp] theorem State.answer_xbl (ws : List Word) : (s.answer ws).xbl = s.xbl := rfl
@[simp] theorem State.answer_engines (ws : List Word) : (s.answer ws).engines = s.engines := rfl
@[simp] theorem State.answer_grate (ws : List Word) : (s.answer ws).grate = s.grate := rfl
@[simp] theorem State.answer_ember (ws : List Word) : (s.answer ws).ember = s.ember := rfl
@[simp] theorem State.answer_shared (ws : List Word) : (s.answer ws).shared = s.shared := rfl
@[simp] theorem State.answer_dma (ws : List Word) : (s.answer ws).dma = s.dma := rfl
@[simp] theorem State.answer_radioMem (ws : List Word) : (s.answer ws).radioMem = s.radioMem := rfl
@[simp] theorem State.answer_aes (ws : List Word) : (s.answer ws).aes = s.aes := rfl
@[simp] theorem State.answer_ddr (ws : List Word) : (s.answer ws).ddr = s.ddr := rfl
@[simp] theorem State.answer_hport (ws : List Word) : (s.answer ws).hport = s.hport := rfl
@[simp] theorem State.answer_byp (ws : List Word) : (s.answer ws).byp = s.byp := rfl
@[simp] theorem State.answer_srcq (ws : List Word) : (s.answer ws).srcq = s.srcq := rfl
@[simp] theorem State.answer_pipeKeys (ws : List Word) : (s.answer ws).pipeKeys = s.pipeKeys := rfl
@[simp] theorem State.answer_pipeLog (ws : List Word) : (s.answer ws).pipeLog = s.pipeLog := rfl
@[simp] theorem State.answer_perReq (ws : List Word) : (s.answer ws).perReq = s.perReq := rfl
@[simp] theorem State.answer_dram (ws : List Word) : (s.answer ws).dram = s.dram := rfl
@[simp] theorem State.answer_esram (ws : List Word) : (s.answer ws).esram = s.esram := rfl
@[simp] theorem State.answer_rd (ws : List Word) (adr : Nat) : (s.answer ws).rd adr = s.rd adr := rfl

/-! ## State.emit -/

@[simp] theorem State.emit_part (o : Out) : (s.emit o).part = s.part := rfl
@[simp] theorem State.emit_straps (o : Out) : (s.emit o).straps = s.straps := rfl
@[simp] theorem State.emit_pending (o : Out) : (s.emit o).pending = s.pending := rfl
@[simp] theorem State.emit_resp (o : Out) : (s.emit o).resp = s.resp := rfl
@[simp] theorem State.emit_fresh (o : Out) : (s.emit o).fresh = s.fresh := rfl
@[simp] theorem State.emit_mono (o : Out) : (s.emit o).mono = s.mono := rfl
@[simp] theorem State.emit_regs (o : Out) : (s.emit o).regs = s.regs := rfl
@[simp] theorem State.emit_tags (o : Out) : (s.emit o).tags = s.tags := rfl
@[simp] theorem State.emit_txu (o : Out) : (s.emit o).txu = s.txu := rfl
@[simp] theorem State.emit_logs (o : Out) : (s.emit o).logs = s.logs := rfl
@[simp] theorem State.emit_msix (o : Out) : (s.emit o).msix = s.msix := rfl
@[simp] theorem State.emit_time (o : Out) : (s.emit o).time = s.time := rfl
@[simp] theorem State.emit_power (o : Out) : (s.emit o).power = s.power := rfl
@[simp] theorem State.emit_actq (o : Out) : (s.emit o).actq = s.actq := rfl
@[simp] theorem State.emit_lamp (o : Out) : (s.emit o).lamp = s.lamp := rfl
@[simp] theorem State.emit_sub (o : Out) : (s.emit o).sub = s.sub := rfl
@[simp] theorem State.emit_mesh (o : Out) : (s.emit o).mesh = s.mesh := rfl
@[simp] theorem State.emit_acc (o : Out) : (s.emit o).acc = s.acc := rfl
@[simp] theorem State.emit_qm (o : Out) : (s.emit o).qm = s.qm := rfl
@[simp] theorem State.emit_fwd (o : Out) : (s.emit o).fwd = s.fwd := rfl
@[simp] theorem State.emit_sched (o : Out) : (s.emit o).sched = s.sched := rfl
@[simp] theorem State.emit_bh (o : Out) : (s.emit o).bh = s.bh := rfl
@[simp] theorem State.emit_xbl (o : Out) : (s.emit o).xbl = s.xbl := rfl
@[simp] theorem State.emit_engines (o : Out) : (s.emit o).engines = s.engines := rfl
@[simp] theorem State.emit_grate (o : Out) : (s.emit o).grate = s.grate := rfl
@[simp] theorem State.emit_ember (o : Out) : (s.emit o).ember = s.ember := rfl
@[simp] theorem State.emit_shared (o : Out) : (s.emit o).shared = s.shared := rfl
@[simp] theorem State.emit_dma (o : Out) : (s.emit o).dma = s.dma := rfl
@[simp] theorem State.emit_radioMem (o : Out) : (s.emit o).radioMem = s.radioMem := rfl
@[simp] theorem State.emit_aes (o : Out) : (s.emit o).aes = s.aes := rfl
@[simp] theorem State.emit_ddr (o : Out) : (s.emit o).ddr = s.ddr := rfl
@[simp] theorem State.emit_hport (o : Out) : (s.emit o).hport = s.hport := rfl
@[simp] theorem State.emit_byp (o : Out) : (s.emit o).byp = s.byp := rfl
@[simp] theorem State.emit_srcq (o : Out) : (s.emit o).srcq = s.srcq := rfl
@[simp] theorem State.emit_pipeKeys (o : Out) : (s.emit o).pipeKeys = s.pipeKeys := rfl
@[simp] theorem State.emit_pipeLog (o : Out) : (s.emit o).pipeLog = s.pipeLog := rfl
@[simp] theorem State.emit_perReq (o : Out) : (s.emit o).perReq = s.perReq := rfl
@[simp] theorem State.emit_dram (o : Out) : (s.emit o).dram = s.dram := rfl
@[simp] theorem State.emit_esram (o : Out) : (s.emit o).esram = s.esram := rfl
@[simp] theorem State.emit_rd (o : Out) (adr : Nat) : (s.emit o).rd adr = s.rd adr := rfl

/-! ## State.sourceEvent -/

@[simp] theorem State.sourceEvent_part (code : Nat) : (s.sourceEvent code).part = s.part := rfl
@[simp] theorem State.sourceEvent_straps (code : Nat) : (s.sourceEvent code).straps = s.straps := rfl
@[simp] theorem State.sourceEvent_pending (code : Nat) : (s.sourceEvent code).pending = s.pending := rfl
@[simp] theorem State.sourceEvent_resp (code : Nat) : (s.sourceEvent code).resp = s.resp := rfl
@[simp] theorem State.sourceEvent_outbox (code : Nat) : (s.sourceEvent code).outbox = s.outbox := rfl
@[simp] theorem State.sourceEvent_fresh (code : Nat) : (s.sourceEvent code).fresh = s.fresh := rfl
@[simp] theorem State.sourceEvent_mono (code : Nat) : (s.sourceEvent code).mono = s.mono := rfl
@[simp] theorem State.sourceEvent_regs (code : Nat) : (s.sourceEvent code).regs = s.regs := rfl
@[simp] theorem State.sourceEvent_tags (code : Nat) : (s.sourceEvent code).tags = s.tags := rfl
@[simp] theorem State.sourceEvent_txu (code : Nat) : (s.sourceEvent code).txu = s.txu := rfl
@[simp] theorem State.sourceEvent_logs (code : Nat) : (s.sourceEvent code).logs = s.logs := rfl
@[simp] theorem State.sourceEvent_msix (code : Nat) : (s.sourceEvent code).msix = s.msix := rfl
@[simp] theorem State.sourceEvent_time (code : Nat) : (s.sourceEvent code).time = s.time := rfl
@[simp] theorem State.sourceEvent_power (code : Nat) : (s.sourceEvent code).power = s.power := rfl
@[simp] theorem State.sourceEvent_actq (code : Nat) : (s.sourceEvent code).actq = s.actq := rfl
@[simp] theorem State.sourceEvent_lamp (code : Nat) : (s.sourceEvent code).lamp = s.lamp := rfl
@[simp] theorem State.sourceEvent_sub (code : Nat) : (s.sourceEvent code).sub = s.sub := rfl
@[simp] theorem State.sourceEvent_mesh (code : Nat) : (s.sourceEvent code).mesh = s.mesh := rfl
@[simp] theorem State.sourceEvent_acc (code : Nat) : (s.sourceEvent code).acc = s.acc := rfl
@[simp] theorem State.sourceEvent_qm (code : Nat) : (s.sourceEvent code).qm = s.qm := rfl
@[simp] theorem State.sourceEvent_fwd (code : Nat) : (s.sourceEvent code).fwd = s.fwd := rfl
@[simp] theorem State.sourceEvent_sched (code : Nat) : (s.sourceEvent code).sched = s.sched := rfl
@[simp] theorem State.sourceEvent_bh (code : Nat) : (s.sourceEvent code).bh = s.bh := rfl
@[simp] theorem State.sourceEvent_xbl (code : Nat) : (s.sourceEvent code).xbl = s.xbl := rfl
@[simp] theorem State.sourceEvent_engines (code : Nat) : (s.sourceEvent code).engines = s.engines := rfl
@[simp] theorem State.sourceEvent_grate (code : Nat) : (s.sourceEvent code).grate = s.grate := rfl
@[simp] theorem State.sourceEvent_ember (code : Nat) : (s.sourceEvent code).ember = s.ember := rfl
@[simp] theorem State.sourceEvent_shared (code : Nat) : (s.sourceEvent code).shared = s.shared := rfl
@[simp] theorem State.sourceEvent_dma (code : Nat) : (s.sourceEvent code).dma = s.dma := rfl
@[simp] theorem State.sourceEvent_radioMem (code : Nat) : (s.sourceEvent code).radioMem = s.radioMem := rfl
@[simp] theorem State.sourceEvent_aes (code : Nat) : (s.sourceEvent code).aes = s.aes := rfl
@[simp] theorem State.sourceEvent_ddr (code : Nat) : (s.sourceEvent code).ddr = s.ddr := rfl
@[simp] theorem State.sourceEvent_hport (code : Nat) : (s.sourceEvent code).hport = s.hport := rfl
@[simp] theorem State.sourceEvent_byp (code : Nat) : (s.sourceEvent code).byp = s.byp := rfl
@[simp] theorem State.sourceEvent_pipeKeys (code : Nat) : (s.sourceEvent code).pipeKeys = s.pipeKeys := rfl
@[simp] theorem State.sourceEvent_pipeLog (code : Nat) : (s.sourceEvent code).pipeLog = s.pipeLog := rfl
@[simp] theorem State.sourceEvent_perReq (code : Nat) : (s.sourceEvent code).perReq = s.perReq := rfl
@[simp] theorem State.sourceEvent_dram (code : Nat) : (s.sourceEvent code).dram = s.dram := rfl
@[simp] theorem State.sourceEvent_esram (code : Nat) : (s.sourceEvent code).esram = s.esram := rfl
@[simp] theorem State.sourceEvent_rd (code : Nat) (adr : Nat) : (s.sourceEvent code).rd adr = s.rd adr := rfl

/-! ## State.setTag -/

@[simp] theorem State.setTag_part (r : Requester) (p tag : Nat) : (s.setTag r p tag).part = s.part := rfl
@[simp] theorem State.setTag_straps (r : Requester) (p tag : Nat) : (s.setTag r p tag).straps = s.straps := rfl
@[simp] theorem State.setTag_pending (r : Requester) (p tag : Nat) : (s.setTag r p tag).pending = s.pending := rfl
@[simp] theorem State.setTag_resp (r : Requester) (p tag : Nat) : (s.setTag r p tag).resp = s.resp := rfl
@[simp] theorem State.setTag_outbox (r : Requester) (p tag : Nat) : (s.setTag r p tag).outbox = s.outbox := rfl
@[simp] theorem State.setTag_fresh (r : Requester) (p tag : Nat) : (s.setTag r p tag).fresh = s.fresh := rfl
@[simp] theorem State.setTag_mono (r : Requester) (p tag : Nat) : (s.setTag r p tag).mono = s.mono := rfl
@[simp] theorem State.setTag_regs (r : Requester) (p tag : Nat) : (s.setTag r p tag).regs = s.regs := rfl
@[simp] theorem State.setTag_txu (r : Requester) (p tag : Nat) : (s.setTag r p tag).txu = s.txu := rfl
@[simp] theorem State.setTag_logs (r : Requester) (p tag : Nat) : (s.setTag r p tag).logs = s.logs := rfl
@[simp] theorem State.setTag_msix (r : Requester) (p tag : Nat) : (s.setTag r p tag).msix = s.msix := rfl
@[simp] theorem State.setTag_time (r : Requester) (p tag : Nat) : (s.setTag r p tag).time = s.time := rfl
@[simp] theorem State.setTag_power (r : Requester) (p tag : Nat) : (s.setTag r p tag).power = s.power := rfl
@[simp] theorem State.setTag_actq (r : Requester) (p tag : Nat) : (s.setTag r p tag).actq = s.actq := rfl
@[simp] theorem State.setTag_lamp (r : Requester) (p tag : Nat) : (s.setTag r p tag).lamp = s.lamp := rfl
@[simp] theorem State.setTag_sub (r : Requester) (p tag : Nat) : (s.setTag r p tag).sub = s.sub := rfl
@[simp] theorem State.setTag_mesh (r : Requester) (p tag : Nat) : (s.setTag r p tag).mesh = s.mesh := rfl
@[simp] theorem State.setTag_acc (r : Requester) (p tag : Nat) : (s.setTag r p tag).acc = s.acc := rfl
@[simp] theorem State.setTag_qm (r : Requester) (p tag : Nat) : (s.setTag r p tag).qm = s.qm := rfl
@[simp] theorem State.setTag_fwd (r : Requester) (p tag : Nat) : (s.setTag r p tag).fwd = s.fwd := rfl
@[simp] theorem State.setTag_sched (r : Requester) (p tag : Nat) : (s.setTag r p tag).sched = s.sched := rfl
@[simp] theorem State.setTag_bh (r : Requester) (p tag : Nat) : (s.setTag r p tag).bh = s.bh := rfl
@[simp] theorem State.setTag_xbl (r : Requester) (p tag : Nat) : (s.setTag r p tag).xbl = s.xbl := rfl
@[simp] theorem State.setTag_engines (r : Requester) (p tag : Nat) : (s.setTag r p tag).engines = s.engines := rfl
@[simp] theorem State.setTag_grate (r : Requester) (p tag : Nat) : (s.setTag r p tag).grate = s.grate := rfl
@[simp] theorem State.setTag_ember (r : Requester) (p tag : Nat) : (s.setTag r p tag).ember = s.ember := rfl
@[simp] theorem State.setTag_shared (r : Requester) (p tag : Nat) : (s.setTag r p tag).shared = s.shared := rfl
@[simp] theorem State.setTag_dma (r : Requester) (p tag : Nat) : (s.setTag r p tag).dma = s.dma := rfl
@[simp] theorem State.setTag_radioMem (r : Requester) (p tag : Nat) : (s.setTag r p tag).radioMem = s.radioMem := rfl
@[simp] theorem State.setTag_aes (r : Requester) (p tag : Nat) : (s.setTag r p tag).aes = s.aes := rfl
@[simp] theorem State.setTag_ddr (r : Requester) (p tag : Nat) : (s.setTag r p tag).ddr = s.ddr := rfl
@[simp] theorem State.setTag_hport (r : Requester) (p tag : Nat) : (s.setTag r p tag).hport = s.hport := rfl
@[simp] theorem State.setTag_byp (r : Requester) (p tag : Nat) : (s.setTag r p tag).byp = s.byp := rfl
@[simp] theorem State.setTag_srcq (r : Requester) (p tag : Nat) : (s.setTag r p tag).srcq = s.srcq := rfl
@[simp] theorem State.setTag_pipeKeys (r : Requester) (p tag : Nat) : (s.setTag r p tag).pipeKeys = s.pipeKeys := rfl
@[simp] theorem State.setTag_pipeLog (r : Requester) (p tag : Nat) : (s.setTag r p tag).pipeLog = s.pipeLog := rfl
@[simp] theorem State.setTag_perReq (r : Requester) (p tag : Nat) : (s.setTag r p tag).perReq = s.perReq := rfl
@[simp] theorem State.setTag_dram (r : Requester) (p tag : Nat) : (s.setTag r p tag).dram = s.dram := rfl
@[simp] theorem State.setTag_esram (r : Requester) (p tag : Nat) : (s.setTag r p tag).esram = s.esram := rfl
@[simp] theorem State.setTag_rd (r : Requester) (p tag : Nat) (adr : Nat) : (s.setTag r p tag).rd adr = s.rd adr := rfl

/-! ## State.setGroup -/

@[simp] theorem State.setGroup_part (n : Fin 16) (g : Group) : (s.setGroup n g).part = s.part := rfl
@[simp] theorem State.setGroup_straps (n : Fin 16) (g : Group) : (s.setGroup n g).straps = s.straps := rfl
@[simp] theorem State.setGroup_pending (n : Fin 16) (g : Group) : (s.setGroup n g).pending = s.pending := rfl
@[simp] theorem State.setGroup_resp (n : Fin 16) (g : Group) : (s.setGroup n g).resp = s.resp := rfl
@[simp] theorem State.setGroup_outbox (n : Fin 16) (g : Group) : (s.setGroup n g).outbox = s.outbox := rfl
@[simp] theorem State.setGroup_fresh (n : Fin 16) (g : Group) : (s.setGroup n g).fresh = s.fresh := rfl
@[simp] theorem State.setGroup_mono (n : Fin 16) (g : Group) : (s.setGroup n g).mono = s.mono := rfl
@[simp] theorem State.setGroup_regs (n : Fin 16) (g : Group) : (s.setGroup n g).regs = s.regs := rfl
@[simp] theorem State.setGroup_tags (n : Fin 16) (g : Group) : (s.setGroup n g).tags = s.tags := rfl
@[simp] theorem State.setGroup_logs (n : Fin 16) (g : Group) : (s.setGroup n g).logs = s.logs := rfl
@[simp] theorem State.setGroup_msix (n : Fin 16) (g : Group) : (s.setGroup n g).msix = s.msix := rfl
@[simp] theorem State.setGroup_time (n : Fin 16) (g : Group) : (s.setGroup n g).time = s.time := rfl
@[simp] theorem State.setGroup_power (n : Fin 16) (g : Group) : (s.setGroup n g).power = s.power := rfl
@[simp] theorem State.setGroup_actq (n : Fin 16) (g : Group) : (s.setGroup n g).actq = s.actq := rfl
@[simp] theorem State.setGroup_lamp (n : Fin 16) (g : Group) : (s.setGroup n g).lamp = s.lamp := rfl
@[simp] theorem State.setGroup_sub (n : Fin 16) (g : Group) : (s.setGroup n g).sub = s.sub := rfl
@[simp] theorem State.setGroup_mesh (n : Fin 16) (g : Group) : (s.setGroup n g).mesh = s.mesh := rfl
@[simp] theorem State.setGroup_acc (n : Fin 16) (g : Group) : (s.setGroup n g).acc = s.acc := rfl
@[simp] theorem State.setGroup_qm (n : Fin 16) (g : Group) : (s.setGroup n g).qm = s.qm := rfl
@[simp] theorem State.setGroup_fwd (n : Fin 16) (g : Group) : (s.setGroup n g).fwd = s.fwd := rfl
@[simp] theorem State.setGroup_sched (n : Fin 16) (g : Group) : (s.setGroup n g).sched = s.sched := rfl
@[simp] theorem State.setGroup_bh (n : Fin 16) (g : Group) : (s.setGroup n g).bh = s.bh := rfl
@[simp] theorem State.setGroup_xbl (n : Fin 16) (g : Group) : (s.setGroup n g).xbl = s.xbl := rfl
@[simp] theorem State.setGroup_engines (n : Fin 16) (g : Group) : (s.setGroup n g).engines = s.engines := rfl
@[simp] theorem State.setGroup_grate (n : Fin 16) (g : Group) : (s.setGroup n g).grate = s.grate := rfl
@[simp] theorem State.setGroup_ember (n : Fin 16) (g : Group) : (s.setGroup n g).ember = s.ember := rfl
@[simp] theorem State.setGroup_shared (n : Fin 16) (g : Group) : (s.setGroup n g).shared = s.shared := rfl
@[simp] theorem State.setGroup_dma (n : Fin 16) (g : Group) : (s.setGroup n g).dma = s.dma := rfl
@[simp] theorem State.setGroup_radioMem (n : Fin 16) (g : Group) : (s.setGroup n g).radioMem = s.radioMem := rfl
@[simp] theorem State.setGroup_aes (n : Fin 16) (g : Group) : (s.setGroup n g).aes = s.aes := rfl
@[simp] theorem State.setGroup_ddr (n : Fin 16) (g : Group) : (s.setGroup n g).ddr = s.ddr := rfl
@[simp] theorem State.setGroup_hport (n : Fin 16) (g : Group) : (s.setGroup n g).hport = s.hport := rfl
@[simp] theorem State.setGroup_byp (n : Fin 16) (g : Group) : (s.setGroup n g).byp = s.byp := rfl
@[simp] theorem State.setGroup_srcq (n : Fin 16) (g : Group) : (s.setGroup n g).srcq = s.srcq := rfl
@[simp] theorem State.setGroup_pipeKeys (n : Fin 16) (g : Group) : (s.setGroup n g).pipeKeys = s.pipeKeys := rfl
@[simp] theorem State.setGroup_pipeLog (n : Fin 16) (g : Group) : (s.setGroup n g).pipeLog = s.pipeLog := rfl
@[simp] theorem State.setGroup_perReq (n : Fin 16) (g : Group) : (s.setGroup n g).perReq = s.perReq := rfl
@[simp] theorem State.setGroup_dram (n : Fin 16) (g : Group) : (s.setGroup n g).dram = s.dram := rfl
@[simp] theorem State.setGroup_esram (n : Fin 16) (g : Group) : (s.setGroup n g).esram = s.esram := rfl
@[simp] theorem State.setGroup_rd (n : Fin 16) (g : Group) (adr : Nat) : (s.setGroup n g).rd adr = s.rd adr := rfl

/-! ## State.setTxuPort -/

@[simp] theorem State.setTxuPort_part (p : TxuPort) : (s.setTxuPort p).part = s.part := rfl
@[simp] theorem State.setTxuPort_straps (p : TxuPort) : (s.setTxuPort p).straps = s.straps := rfl
@[simp] theorem State.setTxuPort_pending (p : TxuPort) : (s.setTxuPort p).pending = s.pending := rfl
@[simp] theorem State.setTxuPort_resp (p : TxuPort) : (s.setTxuPort p).resp = s.resp := rfl
@[simp] theorem State.setTxuPort_outbox (p : TxuPort) : (s.setTxuPort p).outbox = s.outbox := rfl
@[simp] theorem State.setTxuPort_fresh (p : TxuPort) : (s.setTxuPort p).fresh = s.fresh := rfl
@[simp] theorem State.setTxuPort_mono (p : TxuPort) : (s.setTxuPort p).mono = s.mono := rfl
@[simp] theorem State.setTxuPort_regs (p : TxuPort) : (s.setTxuPort p).regs = s.regs := rfl
@[simp] theorem State.setTxuPort_tags (p : TxuPort) : (s.setTxuPort p).tags = s.tags := rfl
@[simp] theorem State.setTxuPort_logs (p : TxuPort) : (s.setTxuPort p).logs = s.logs := rfl
@[simp] theorem State.setTxuPort_msix (p : TxuPort) : (s.setTxuPort p).msix = s.msix := rfl
@[simp] theorem State.setTxuPort_time (p : TxuPort) : (s.setTxuPort p).time = s.time := rfl
@[simp] theorem State.setTxuPort_power (p : TxuPort) : (s.setTxuPort p).power = s.power := rfl
@[simp] theorem State.setTxuPort_actq (p : TxuPort) : (s.setTxuPort p).actq = s.actq := rfl
@[simp] theorem State.setTxuPort_lamp (p : TxuPort) : (s.setTxuPort p).lamp = s.lamp := rfl
@[simp] theorem State.setTxuPort_sub (p : TxuPort) : (s.setTxuPort p).sub = s.sub := rfl
@[simp] theorem State.setTxuPort_mesh (p : TxuPort) : (s.setTxuPort p).mesh = s.mesh := rfl
@[simp] theorem State.setTxuPort_acc (p : TxuPort) : (s.setTxuPort p).acc = s.acc := rfl
@[simp] theorem State.setTxuPort_qm (p : TxuPort) : (s.setTxuPort p).qm = s.qm := rfl
@[simp] theorem State.setTxuPort_fwd (p : TxuPort) : (s.setTxuPort p).fwd = s.fwd := rfl
@[simp] theorem State.setTxuPort_sched (p : TxuPort) : (s.setTxuPort p).sched = s.sched := rfl
@[simp] theorem State.setTxuPort_bh (p : TxuPort) : (s.setTxuPort p).bh = s.bh := rfl
@[simp] theorem State.setTxuPort_xbl (p : TxuPort) : (s.setTxuPort p).xbl = s.xbl := rfl
@[simp] theorem State.setTxuPort_engines (p : TxuPort) : (s.setTxuPort p).engines = s.engines := rfl
@[simp] theorem State.setTxuPort_grate (p : TxuPort) : (s.setTxuPort p).grate = s.grate := rfl
@[simp] theorem State.setTxuPort_ember (p : TxuPort) : (s.setTxuPort p).ember = s.ember := rfl
@[simp] theorem State.setTxuPort_shared (p : TxuPort) : (s.setTxuPort p).shared = s.shared := rfl
@[simp] theorem State.setTxuPort_dma (p : TxuPort) : (s.setTxuPort p).dma = s.dma := rfl
@[simp] theorem State.setTxuPort_radioMem (p : TxuPort) : (s.setTxuPort p).radioMem = s.radioMem := rfl
@[simp] theorem State.setTxuPort_aes (p : TxuPort) : (s.setTxuPort p).aes = s.aes := rfl
@[simp] theorem State.setTxuPort_ddr (p : TxuPort) : (s.setTxuPort p).ddr = s.ddr := rfl
@[simp] theorem State.setTxuPort_hport (p : TxuPort) : (s.setTxuPort p).hport = s.hport := rfl
@[simp] theorem State.setTxuPort_byp (p : TxuPort) : (s.setTxuPort p).byp = s.byp := rfl
@[simp] theorem State.setTxuPort_srcq (p : TxuPort) : (s.setTxuPort p).srcq = s.srcq := rfl
@[simp] theorem State.setTxuPort_pipeKeys (p : TxuPort) : (s.setTxuPort p).pipeKeys = s.pipeKeys := rfl
@[simp] theorem State.setTxuPort_pipeLog (p : TxuPort) : (s.setTxuPort p).pipeLog = s.pipeLog := rfl
@[simp] theorem State.setTxuPort_perReq (p : TxuPort) : (s.setTxuPort p).perReq = s.perReq := rfl
@[simp] theorem State.setTxuPort_dram (p : TxuPort) : (s.setTxuPort p).dram = s.dram := rfl
@[simp] theorem State.setTxuPort_esram (p : TxuPort) : (s.setTxuPort p).esram = s.esram := rfl
@[simp] theorem State.setTxuPort_rd (p : TxuPort) (adr : Nat) : (s.setTxuPort p).rd adr = s.rd adr := rfl

/-! ## State.onGroups -/

@[simp] theorem State.onGroups_part (f : Group → Group) : (s.onGroups f).part = s.part := rfl
@[simp] theorem State.onGroups_straps (f : Group → Group) : (s.onGroups f).straps = s.straps := rfl
@[simp] theorem State.onGroups_pending (f : Group → Group) : (s.onGroups f).pending = s.pending := rfl
@[simp] theorem State.onGroups_resp (f : Group → Group) : (s.onGroups f).resp = s.resp := rfl
@[simp] theorem State.onGroups_outbox (f : Group → Group) : (s.onGroups f).outbox = s.outbox := rfl
@[simp] theorem State.onGroups_fresh (f : Group → Group) : (s.onGroups f).fresh = s.fresh := rfl
@[simp] theorem State.onGroups_mono (f : Group → Group) : (s.onGroups f).mono = s.mono := rfl
@[simp] theorem State.onGroups_regs (f : Group → Group) : (s.onGroups f).regs = s.regs := rfl
@[simp] theorem State.onGroups_tags (f : Group → Group) : (s.onGroups f).tags = s.tags := rfl
@[simp] theorem State.onGroups_logs (f : Group → Group) : (s.onGroups f).logs = s.logs := rfl
@[simp] theorem State.onGroups_msix (f : Group → Group) : (s.onGroups f).msix = s.msix := rfl
@[simp] theorem State.onGroups_time (f : Group → Group) : (s.onGroups f).time = s.time := rfl
@[simp] theorem State.onGroups_power (f : Group → Group) : (s.onGroups f).power = s.power := rfl
@[simp] theorem State.onGroups_actq (f : Group → Group) : (s.onGroups f).actq = s.actq := rfl
@[simp] theorem State.onGroups_lamp (f : Group → Group) : (s.onGroups f).lamp = s.lamp := rfl
@[simp] theorem State.onGroups_sub (f : Group → Group) : (s.onGroups f).sub = s.sub := rfl
@[simp] theorem State.onGroups_mesh (f : Group → Group) : (s.onGroups f).mesh = s.mesh := rfl
@[simp] theorem State.onGroups_acc (f : Group → Group) : (s.onGroups f).acc = s.acc := rfl
@[simp] theorem State.onGroups_qm (f : Group → Group) : (s.onGroups f).qm = s.qm := rfl
@[simp] theorem State.onGroups_fwd (f : Group → Group) : (s.onGroups f).fwd = s.fwd := rfl
@[simp] theorem State.onGroups_sched (f : Group → Group) : (s.onGroups f).sched = s.sched := rfl
@[simp] theorem State.onGroups_bh (f : Group → Group) : (s.onGroups f).bh = s.bh := rfl
@[simp] theorem State.onGroups_xbl (f : Group → Group) : (s.onGroups f).xbl = s.xbl := rfl
@[simp] theorem State.onGroups_engines (f : Group → Group) : (s.onGroups f).engines = s.engines := rfl
@[simp] theorem State.onGroups_grate (f : Group → Group) : (s.onGroups f).grate = s.grate := rfl
@[simp] theorem State.onGroups_ember (f : Group → Group) : (s.onGroups f).ember = s.ember := rfl
@[simp] theorem State.onGroups_shared (f : Group → Group) : (s.onGroups f).shared = s.shared := rfl
@[simp] theorem State.onGroups_dma (f : Group → Group) : (s.onGroups f).dma = s.dma := rfl
@[simp] theorem State.onGroups_radioMem (f : Group → Group) : (s.onGroups f).radioMem = s.radioMem := rfl
@[simp] theorem State.onGroups_aes (f : Group → Group) : (s.onGroups f).aes = s.aes := rfl
@[simp] theorem State.onGroups_ddr (f : Group → Group) : (s.onGroups f).ddr = s.ddr := rfl
@[simp] theorem State.onGroups_hport (f : Group → Group) : (s.onGroups f).hport = s.hport := rfl
@[simp] theorem State.onGroups_byp (f : Group → Group) : (s.onGroups f).byp = s.byp := rfl
@[simp] theorem State.onGroups_srcq (f : Group → Group) : (s.onGroups f).srcq = s.srcq := rfl
@[simp] theorem State.onGroups_pipeKeys (f : Group → Group) : (s.onGroups f).pipeKeys = s.pipeKeys := rfl
@[simp] theorem State.onGroups_pipeLog (f : Group → Group) : (s.onGroups f).pipeLog = s.pipeLog := rfl
@[simp] theorem State.onGroups_perReq (f : Group → Group) : (s.onGroups f).perReq = s.perReq := rfl
@[simp] theorem State.onGroups_dram (f : Group → Group) : (s.onGroups f).dram = s.dram := rfl
@[simp] theorem State.onGroups_esram (f : Group → Group) : (s.onGroups f).esram = s.esram := rfl
@[simp] theorem State.onGroups_rd (f : Group → Group) (adr : Nat) : (s.onGroups f).rd adr = s.rd adr := rfl

/-! ## State.onKeeper -/

@[simp] theorem State.onKeeper_part (n : Bool) (f : Keeper → Keeper) : (s.onKeeper n f).part = s.part := by cases n <;> rfl
@[simp] theorem State.onKeeper_straps (n : Bool) (f : Keeper → Keeper) : (s.onKeeper n f).straps = s.straps := by cases n <;> rfl
@[simp] theorem State.onKeeper_pending (n : Bool) (f : Keeper → Keeper) : (s.onKeeper n f).pending = s.pending := by cases n <;> rfl
@[simp] theorem State.onKeeper_resp (n : Bool) (f : Keeper → Keeper) : (s.onKeeper n f).resp = s.resp := by cases n <;> rfl
@[simp] theorem State.onKeeper_outbox (n : Bool) (f : Keeper → Keeper) : (s.onKeeper n f).outbox = s.outbox := by cases n <;> rfl
@[simp] theorem State.onKeeper_fresh (n : Bool) (f : Keeper → Keeper) : (s.onKeeper n f).fresh = s.fresh := by cases n <;> rfl
@[simp] theorem State.onKeeper_mono (n : Bool) (f : Keeper → Keeper) : (s.onKeeper n f).mono = s.mono := by cases n <;> rfl
@[simp] theorem State.onKeeper_regs (n : Bool) (f : Keeper → Keeper) : (s.onKeeper n f).regs = s.regs := by cases n <;> rfl
@[simp] theorem State.onKeeper_tags (n : Bool) (f : Keeper → Keeper) : (s.onKeeper n f).tags = s.tags := by cases n <;> rfl
@[simp] theorem State.onKeeper_txu (n : Bool) (f : Keeper → Keeper) : (s.onKeeper n f).txu = s.txu := by cases n <;> rfl
@[simp] theorem State.onKeeper_logs (n : Bool) (f : Keeper → Keeper) : (s.onKeeper n f).logs = s.logs := by cases n <;> rfl
@[simp] theorem State.onKeeper_msix (n : Bool) (f : Keeper → Keeper) : (s.onKeeper n f).msix = s.msix := by cases n <;> rfl
@[simp] theorem State.onKeeper_power (n : Bool) (f : Keeper → Keeper) : (s.onKeeper n f).power = s.power := by cases n <;> rfl
@[simp] theorem State.onKeeper_actq (n : Bool) (f : Keeper → Keeper) : (s.onKeeper n f).actq = s.actq := by cases n <;> rfl
@[simp] theorem State.onKeeper_lamp (n : Bool) (f : Keeper → Keeper) : (s.onKeeper n f).lamp = s.lamp := by cases n <;> rfl
@[simp] theorem State.onKeeper_sub (n : Bool) (f : Keeper → Keeper) : (s.onKeeper n f).sub = s.sub := by cases n <;> rfl
@[simp] theorem State.onKeeper_mesh (n : Bool) (f : Keeper → Keeper) : (s.onKeeper n f).mesh = s.mesh := by cases n <;> rfl
@[simp] theorem State.onKeeper_acc (n : Bool) (f : Keeper → Keeper) : (s.onKeeper n f).acc = s.acc := by cases n <;> rfl
@[simp] theorem State.onKeeper_qm (n : Bool) (f : Keeper → Keeper) : (s.onKeeper n f).qm = s.qm := by cases n <;> rfl
@[simp] theorem State.onKeeper_fwd (n : Bool) (f : Keeper → Keeper) : (s.onKeeper n f).fwd = s.fwd := by cases n <;> rfl
@[simp] theorem State.onKeeper_sched (n : Bool) (f : Keeper → Keeper) : (s.onKeeper n f).sched = s.sched := by cases n <;> rfl
@[simp] theorem State.onKeeper_bh (n : Bool) (f : Keeper → Keeper) : (s.onKeeper n f).bh = s.bh := by cases n <;> rfl
@[simp] theorem State.onKeeper_xbl (n : Bool) (f : Keeper → Keeper) : (s.onKeeper n f).xbl = s.xbl := by cases n <;> rfl
@[simp] theorem State.onKeeper_engines (n : Bool) (f : Keeper → Keeper) : (s.onKeeper n f).engines = s.engines := by cases n <;> rfl
@[simp] theorem State.onKeeper_grate (n : Bool) (f : Keeper → Keeper) : (s.onKeeper n f).grate = s.grate := by cases n <;> rfl
@[simp] theorem State.onKeeper_ember (n : Bool) (f : Keeper → Keeper) : (s.onKeeper n f).ember = s.ember := by cases n <;> rfl
@[simp] theorem State.onKeeper_shared (n : Bool) (f : Keeper → Keeper) : (s.onKeeper n f).shared = s.shared := by cases n <;> rfl
@[simp] theorem State.onKeeper_dma (n : Bool) (f : Keeper → Keeper) : (s.onKeeper n f).dma = s.dma := by cases n <;> rfl
@[simp] theorem State.onKeeper_radioMem (n : Bool) (f : Keeper → Keeper) : (s.onKeeper n f).radioMem = s.radioMem := by cases n <;> rfl
@[simp] theorem State.onKeeper_aes (n : Bool) (f : Keeper → Keeper) : (s.onKeeper n f).aes = s.aes := by cases n <;> rfl
@[simp] theorem State.onKeeper_ddr (n : Bool) (f : Keeper → Keeper) : (s.onKeeper n f).ddr = s.ddr := by cases n <;> rfl
@[simp] theorem State.onKeeper_hport (n : Bool) (f : Keeper → Keeper) : (s.onKeeper n f).hport = s.hport := by cases n <;> rfl
@[simp] theorem State.onKeeper_byp (n : Bool) (f : Keeper → Keeper) : (s.onKeeper n f).byp = s.byp := by cases n <;> rfl
@[simp] theorem State.onKeeper_srcq (n : Bool) (f : Keeper → Keeper) : (s.onKeeper n f).srcq = s.srcq := by cases n <;> rfl
@[simp] theorem State.onKeeper_pipeKeys (n : Bool) (f : Keeper → Keeper) : (s.onKeeper n f).pipeKeys = s.pipeKeys := by cases n <;> rfl
@[simp] theorem State.onKeeper_pipeLog (n : Bool) (f : Keeper → Keeper) : (s.onKeeper n f).pipeLog = s.pipeLog := by cases n <;> rfl
@[simp] theorem State.onKeeper_perReq (n : Bool) (f : Keeper → Keeper) : (s.onKeeper n f).perReq = s.perReq := by cases n <;> rfl
@[simp] theorem State.onKeeper_dram (n : Bool) (f : Keeper → Keeper) : (s.onKeeper n f).dram = s.dram := by cases n <;> rfl
@[simp] theorem State.onKeeper_esram (n : Bool) (f : Keeper → Keeper) : (s.onKeeper n f).esram = s.esram := by cases n <;> rfl
@[simp] theorem State.onKeeper_rd (n : Bool) (f : Keeper → Keeper) (adr : Nat) : (s.onKeeper n f).rd adr = s.rd adr := by cases n <;> rfl

/-! ## State.onTrans -/

@[simp] theorem State.onTrans_part (f : Transition → Transition) : (s.onTrans f).part = s.part := rfl
@[simp] theorem State.onTrans_straps (f : Transition → Transition) : (s.onTrans f).straps = s.straps := rfl
@[simp] theorem State.onTrans_pending (f : Transition → Transition) : (s.onTrans f).pending = s.pending := rfl
@[simp] theorem State.onTrans_resp (f : Transition → Transition) : (s.onTrans f).resp = s.resp := rfl
@[simp] theorem State.onTrans_outbox (f : Transition → Transition) : (s.onTrans f).outbox = s.outbox := rfl
@[simp] theorem State.onTrans_fresh (f : Transition → Transition) : (s.onTrans f).fresh = s.fresh := rfl
@[simp] theorem State.onTrans_mono (f : Transition → Transition) : (s.onTrans f).mono = s.mono := rfl
@[simp] theorem State.onTrans_regs (f : Transition → Transition) : (s.onTrans f).regs = s.regs := rfl
@[simp] theorem State.onTrans_tags (f : Transition → Transition) : (s.onTrans f).tags = s.tags := rfl
@[simp] theorem State.onTrans_txu (f : Transition → Transition) : (s.onTrans f).txu = s.txu := rfl
@[simp] theorem State.onTrans_logs (f : Transition → Transition) : (s.onTrans f).logs = s.logs := rfl
@[simp] theorem State.onTrans_msix (f : Transition → Transition) : (s.onTrans f).msix = s.msix := rfl
@[simp] theorem State.onTrans_time (f : Transition → Transition) : (s.onTrans f).time = s.time := rfl
@[simp] theorem State.onTrans_actq (f : Transition → Transition) : (s.onTrans f).actq = s.actq := rfl
@[simp] theorem State.onTrans_lamp (f : Transition → Transition) : (s.onTrans f).lamp = s.lamp := rfl
@[simp] theorem State.onTrans_sub (f : Transition → Transition) : (s.onTrans f).sub = s.sub := rfl
@[simp] theorem State.onTrans_mesh (f : Transition → Transition) : (s.onTrans f).mesh = s.mesh := rfl
@[simp] theorem State.onTrans_acc (f : Transition → Transition) : (s.onTrans f).acc = s.acc := rfl
@[simp] theorem State.onTrans_qm (f : Transition → Transition) : (s.onTrans f).qm = s.qm := rfl
@[simp] theorem State.onTrans_fwd (f : Transition → Transition) : (s.onTrans f).fwd = s.fwd := rfl
@[simp] theorem State.onTrans_sched (f : Transition → Transition) : (s.onTrans f).sched = s.sched := rfl
@[simp] theorem State.onTrans_bh (f : Transition → Transition) : (s.onTrans f).bh = s.bh := rfl
@[simp] theorem State.onTrans_xbl (f : Transition → Transition) : (s.onTrans f).xbl = s.xbl := rfl
@[simp] theorem State.onTrans_engines (f : Transition → Transition) : (s.onTrans f).engines = s.engines := rfl
@[simp] theorem State.onTrans_grate (f : Transition → Transition) : (s.onTrans f).grate = s.grate := rfl
@[simp] theorem State.onTrans_ember (f : Transition → Transition) : (s.onTrans f).ember = s.ember := rfl
@[simp] theorem State.onTrans_shared (f : Transition → Transition) : (s.onTrans f).shared = s.shared := rfl
@[simp] theorem State.onTrans_dma (f : Transition → Transition) : (s.onTrans f).dma = s.dma := rfl
@[simp] theorem State.onTrans_radioMem (f : Transition → Transition) : (s.onTrans f).radioMem = s.radioMem := rfl
@[simp] theorem State.onTrans_aes (f : Transition → Transition) : (s.onTrans f).aes = s.aes := rfl
@[simp] theorem State.onTrans_ddr (f : Transition → Transition) : (s.onTrans f).ddr = s.ddr := rfl
@[simp] theorem State.onTrans_hport (f : Transition → Transition) : (s.onTrans f).hport = s.hport := rfl
@[simp] theorem State.onTrans_byp (f : Transition → Transition) : (s.onTrans f).byp = s.byp := rfl
@[simp] theorem State.onTrans_srcq (f : Transition → Transition) : (s.onTrans f).srcq = s.srcq := rfl
@[simp] theorem State.onTrans_pipeKeys (f : Transition → Transition) : (s.onTrans f).pipeKeys = s.pipeKeys := rfl
@[simp] theorem State.onTrans_pipeLog (f : Transition → Transition) : (s.onTrans f).pipeLog = s.pipeLog := rfl
@[simp] theorem State.onTrans_perReq (f : Transition → Transition) : (s.onTrans f).perReq = s.perReq := rfl
@[simp] theorem State.onTrans_dram (f : Transition → Transition) : (s.onTrans f).dram = s.dram := rfl
@[simp] theorem State.onTrans_esram (f : Transition → Transition) : (s.onTrans f).esram = s.esram := rfl

/-! ## State.setPin -/

@[simp] theorem State.setPin_part (n : Nat) (p : Pin) : (s.setPin n p).part = s.part := rfl
@[simp] theorem State.setPin_straps (n : Nat) (p : Pin) : (s.setPin n p).straps = s.straps := rfl
@[simp] theorem State.setPin_pending (n : Nat) (p : Pin) : (s.setPin n p).pending = s.pending := rfl
@[simp] theorem State.setPin_resp (n : Nat) (p : Pin) : (s.setPin n p).resp = s.resp := rfl
@[simp] theorem State.setPin_outbox (n : Nat) (p : Pin) : (s.setPin n p).outbox = s.outbox := rfl
@[simp] theorem State.setPin_fresh (n : Nat) (p : Pin) : (s.setPin n p).fresh = s.fresh := rfl
@[simp] theorem State.setPin_mono (n : Nat) (p : Pin) : (s.setPin n p).mono = s.mono := rfl
@[simp] theorem State.setPin_regs (n : Nat) (p : Pin) : (s.setPin n p).regs = s.regs := rfl
@[simp] theorem State.setPin_tags (n : Nat) (p : Pin) : (s.setPin n p).tags = s.tags := rfl
@[simp] theorem State.setPin_txu (n : Nat) (p : Pin) : (s.setPin n p).txu = s.txu := rfl
@[simp] theorem State.setPin_logs (n : Nat) (p : Pin) : (s.setPin n p).logs = s.logs := rfl
@[simp] theorem State.setPin_msix (n : Nat) (p : Pin) : (s.setPin n p).msix = s.msix := rfl
@[simp] theorem State.setPin_time (n : Nat) (p : Pin) : (s.setPin n p).time = s.time := rfl
@[simp] theorem State.setPin_actq (n : Nat) (p : Pin) : (s.setPin n p).actq = s.actq := rfl
@[simp] theorem State.setPin_lamp (n : Nat) (p : Pin) : (s.setPin n p).lamp = s.lamp := rfl
@[simp] theorem State.setPin_sub (n : Nat) (p : Pin) : (s.setPin n p).sub = s.sub := rfl
@[simp] theorem State.setPin_mesh (n : Nat) (p : Pin) : (s.setPin n p).mesh = s.mesh := rfl
@[simp] theorem State.setPin_acc (n : Nat) (p : Pin) : (s.setPin n p).acc = s.acc := rfl
@[simp] theorem State.setPin_qm (n : Nat) (p : Pin) : (s.setPin n p).qm = s.qm := rfl
@[simp] theorem State.setPin_fwd (n : Nat) (p : Pin) : (s.setPin n p).fwd = s.fwd := rfl
@[simp] theorem State.setPin_sched (n : Nat) (p : Pin) : (s.setPin n p).sched = s.sched := rfl
@[simp] theorem State.setPin_bh (n : Nat) (p : Pin) : (s.setPin n p).bh = s.bh := rfl
@[simp] theorem State.setPin_xbl (n : Nat) (p : Pin) : (s.setPin n p).xbl = s.xbl := rfl
@[simp] theorem State.setPin_engines (n : Nat) (p : Pin) : (s.setPin n p).engines = s.engines := rfl
@[simp] theorem State.setPin_grate (n : Nat) (p : Pin) : (s.setPin n p).grate = s.grate := rfl
@[simp] theorem State.setPin_ember (n : Nat) (p : Pin) : (s.setPin n p).ember = s.ember := rfl
@[simp] theorem State.setPin_shared (n : Nat) (p : Pin) : (s.setPin n p).shared = s.shared := rfl
@[simp] theorem State.setPin_dma (n : Nat) (p : Pin) : (s.setPin n p).dma = s.dma := rfl
@[simp] theorem State.setPin_radioMem (n : Nat) (p : Pin) : (s.setPin n p).radioMem = s.radioMem := rfl
@[simp] theorem State.setPin_aes (n : Nat) (p : Pin) : (s.setPin n p).aes = s.aes := rfl
@[simp] theorem State.setPin_ddr (n : Nat) (p : Pin) : (s.setPin n p).ddr = s.ddr := rfl
@[simp] theorem State.setPin_hport (n : Nat) (p : Pin) : (s.setPin n p).hport = s.hport := rfl
@[simp] theorem State.setPin_byp (n : Nat) (p : Pin) : (s.setPin n p).byp = s.byp := rfl
@[simp] theorem State.setPin_srcq (n : Nat) (p : Pin) : (s.setPin n p).srcq = s.srcq := rfl
@[simp] theorem State.setPin_pipeKeys (n : Nat) (p : Pin) : (s.setPin n p).pipeKeys = s.pipeKeys := rfl
@[simp] theorem State.setPin_pipeLog (n : Nat) (p : Pin) : (s.setPin n p).pipeLog = s.pipeLog := rfl
@[simp] theorem State.setPin_perReq (n : Nat) (p : Pin) : (s.setPin n p).perReq = s.perReq := rfl
@[simp] theorem State.setPin_dram (n : Nat) (p : Pin) : (s.setPin n p).dram = s.dram := rfl
@[simp] theorem State.setPin_esram (n : Nat) (p : Pin) : (s.setPin n p).esram = s.esram := rfl

/-! ## State.dropAct -/

@[simp] theorem State.dropAct_part (x : ActSlot) : (s.dropAct x).part = s.part := rfl
@[simp] theorem State.dropAct_straps (x : ActSlot) : (s.dropAct x).straps = s.straps := rfl
@[simp] theorem State.dropAct_pending (x : ActSlot) : (s.dropAct x).pending = s.pending := rfl
@[simp] theorem State.dropAct_resp (x : ActSlot) : (s.dropAct x).resp = s.resp := rfl
@[simp] theorem State.dropAct_outbox (x : ActSlot) : (s.dropAct x).outbox = s.outbox := rfl
@[simp] theorem State.dropAct_fresh (x : ActSlot) : (s.dropAct x).fresh = s.fresh := rfl
@[simp] theorem State.dropAct_mono (x : ActSlot) : (s.dropAct x).mono = s.mono := rfl
@[simp] theorem State.dropAct_regs (x : ActSlot) : (s.dropAct x).regs = s.regs := rfl
@[simp] theorem State.dropAct_tags (x : ActSlot) : (s.dropAct x).tags = s.tags := rfl
@[simp] theorem State.dropAct_txu (x : ActSlot) : (s.dropAct x).txu = s.txu := rfl
@[simp] theorem State.dropAct_logs (x : ActSlot) : (s.dropAct x).logs = s.logs := rfl
@[simp] theorem State.dropAct_msix (x : ActSlot) : (s.dropAct x).msix = s.msix := rfl
@[simp] theorem State.dropAct_time (x : ActSlot) : (s.dropAct x).time = s.time := rfl
@[simp] theorem State.dropAct_power (x : ActSlot) : (s.dropAct x).power = s.power := rfl
@[simp] theorem State.dropAct_lamp (x : ActSlot) : (s.dropAct x).lamp = s.lamp := rfl
@[simp] theorem State.dropAct_sub (x : ActSlot) : (s.dropAct x).sub = s.sub := rfl
@[simp] theorem State.dropAct_mesh (x : ActSlot) : (s.dropAct x).mesh = s.mesh := rfl
@[simp] theorem State.dropAct_acc (x : ActSlot) : (s.dropAct x).acc = s.acc := rfl
@[simp] theorem State.dropAct_qm (x : ActSlot) : (s.dropAct x).qm = s.qm := rfl
@[simp] theorem State.dropAct_fwd (x : ActSlot) : (s.dropAct x).fwd = s.fwd := rfl
@[simp] theorem State.dropAct_sched (x : ActSlot) : (s.dropAct x).sched = s.sched := rfl
@[simp] theorem State.dropAct_bh (x : ActSlot) : (s.dropAct x).bh = s.bh := rfl
@[simp] theorem State.dropAct_xbl (x : ActSlot) : (s.dropAct x).xbl = s.xbl := rfl
@[simp] theorem State.dropAct_engines (x : ActSlot) : (s.dropAct x).engines = s.engines := rfl
@[simp] theorem State.dropAct_grate (x : ActSlot) : (s.dropAct x).grate = s.grate := rfl
@[simp] theorem State.dropAct_ember (x : ActSlot) : (s.dropAct x).ember = s.ember := rfl
@[simp] theorem State.dropAct_shared (x : ActSlot) : (s.dropAct x).shared = s.shared := rfl
@[simp] theorem State.dropAct_dma (x : ActSlot) : (s.dropAct x).dma = s.dma := rfl
@[simp] theorem State.dropAct_radioMem (x : ActSlot) : (s.dropAct x).radioMem = s.radioMem := rfl
@[simp] theorem State.dropAct_aes (x : ActSlot) : (s.dropAct x).aes = s.aes := rfl
@[simp] theorem State.dropAct_ddr (x : ActSlot) : (s.dropAct x).ddr = s.ddr := rfl
@[simp] theorem State.dropAct_hport (x : ActSlot) : (s.dropAct x).hport = s.hport := rfl
@[simp] theorem State.dropAct_byp (x : ActSlot) : (s.dropAct x).byp = s.byp := rfl
@[simp] theorem State.dropAct_srcq (x : ActSlot) : (s.dropAct x).srcq = s.srcq := rfl
@[simp] theorem State.dropAct_pipeKeys (x : ActSlot) : (s.dropAct x).pipeKeys = s.pipeKeys := rfl
@[simp] theorem State.dropAct_pipeLog (x : ActSlot) : (s.dropAct x).pipeLog = s.pipeLog := rfl
@[simp] theorem State.dropAct_perReq (x : ActSlot) : (s.dropAct x).perReq = s.perReq := rfl
@[simp] theorem State.dropAct_dram (x : ActSlot) : (s.dropAct x).dram = s.dram := rfl
@[simp] theorem State.dropAct_esram (x : ActSlot) : (s.dropAct x).esram = s.esram := rfl
@[simp] theorem State.dropAct_rd (x : ActSlot) (adr : Nat) : (s.dropAct x).rd adr = s.rd adr := rfl

/-! ## State.setLampOut -/

@[simp] theorem State.setLampOut_part (o : Nat) (x : LampOut) : (s.setLampOut o x).part = s.part := rfl
@[simp] theorem State.setLampOut_straps (o : Nat) (x : LampOut) : (s.setLampOut o x).straps = s.straps := rfl
@[simp] theorem State.setLampOut_pending (o : Nat) (x : LampOut) : (s.setLampOut o x).pending = s.pending := rfl
@[simp] theorem State.setLampOut_resp (o : Nat) (x : LampOut) : (s.setLampOut o x).resp = s.resp := rfl
@[simp] theorem State.setLampOut_outbox (o : Nat) (x : LampOut) : (s.setLampOut o x).outbox = s.outbox := rfl
@[simp] theorem State.setLampOut_fresh (o : Nat) (x : LampOut) : (s.setLampOut o x).fresh = s.fresh := rfl
@[simp] theorem State.setLampOut_mono (o : Nat) (x : LampOut) : (s.setLampOut o x).mono = s.mono := rfl
@[simp] theorem State.setLampOut_regs (o : Nat) (x : LampOut) : (s.setLampOut o x).regs = s.regs := rfl
@[simp] theorem State.setLampOut_tags (o : Nat) (x : LampOut) : (s.setLampOut o x).tags = s.tags := rfl
@[simp] theorem State.setLampOut_txu (o : Nat) (x : LampOut) : (s.setLampOut o x).txu = s.txu := rfl
@[simp] theorem State.setLampOut_logs (o : Nat) (x : LampOut) : (s.setLampOut o x).logs = s.logs := rfl
@[simp] theorem State.setLampOut_msix (o : Nat) (x : LampOut) : (s.setLampOut o x).msix = s.msix := rfl
@[simp] theorem State.setLampOut_time (o : Nat) (x : LampOut) : (s.setLampOut o x).time = s.time := rfl
@[simp] theorem State.setLampOut_power (o : Nat) (x : LampOut) : (s.setLampOut o x).power = s.power := rfl
@[simp] theorem State.setLampOut_actq (o : Nat) (x : LampOut) : (s.setLampOut o x).actq = s.actq := rfl
@[simp] theorem State.setLampOut_sub (o : Nat) (x : LampOut) : (s.setLampOut o x).sub = s.sub := rfl
@[simp] theorem State.setLampOut_mesh (o : Nat) (x : LampOut) : (s.setLampOut o x).mesh = s.mesh := rfl
@[simp] theorem State.setLampOut_acc (o : Nat) (x : LampOut) : (s.setLampOut o x).acc = s.acc := rfl
@[simp] theorem State.setLampOut_qm (o : Nat) (x : LampOut) : (s.setLampOut o x).qm = s.qm := rfl
@[simp] theorem State.setLampOut_fwd (o : Nat) (x : LampOut) : (s.setLampOut o x).fwd = s.fwd := rfl
@[simp] theorem State.setLampOut_sched (o : Nat) (x : LampOut) : (s.setLampOut o x).sched = s.sched := rfl
@[simp] theorem State.setLampOut_bh (o : Nat) (x : LampOut) : (s.setLampOut o x).bh = s.bh := rfl
@[simp] theorem State.setLampOut_xbl (o : Nat) (x : LampOut) : (s.setLampOut o x).xbl = s.xbl := rfl
@[simp] theorem State.setLampOut_engines (o : Nat) (x : LampOut) : (s.setLampOut o x).engines = s.engines := rfl
@[simp] theorem State.setLampOut_grate (o : Nat) (x : LampOut) : (s.setLampOut o x).grate = s.grate := rfl
@[simp] theorem State.setLampOut_ember (o : Nat) (x : LampOut) : (s.setLampOut o x).ember = s.ember := rfl
@[simp] theorem State.setLampOut_shared (o : Nat) (x : LampOut) : (s.setLampOut o x).shared = s.shared := rfl
@[simp] theorem State.setLampOut_dma (o : Nat) (x : LampOut) : (s.setLampOut o x).dma = s.dma := rfl
@[simp] theorem State.setLampOut_radioMem (o : Nat) (x : LampOut) : (s.setLampOut o x).radioMem = s.radioMem := rfl
@[simp] theorem State.setLampOut_aes (o : Nat) (x : LampOut) : (s.setLampOut o x).aes = s.aes := rfl
@[simp] theorem State.setLampOut_ddr (o : Nat) (x : LampOut) : (s.setLampOut o x).ddr = s.ddr := rfl
@[simp] theorem State.setLampOut_hport (o : Nat) (x : LampOut) : (s.setLampOut o x).hport = s.hport := rfl
@[simp] theorem State.setLampOut_byp (o : Nat) (x : LampOut) : (s.setLampOut o x).byp = s.byp := rfl
@[simp] theorem State.setLampOut_srcq (o : Nat) (x : LampOut) : (s.setLampOut o x).srcq = s.srcq := rfl
@[simp] theorem State.setLampOut_pipeKeys (o : Nat) (x : LampOut) : (s.setLampOut o x).pipeKeys = s.pipeKeys := rfl
@[simp] theorem State.setLampOut_pipeLog (o : Nat) (x : LampOut) : (s.setLampOut o x).pipeLog = s.pipeLog := rfl
@[simp] theorem State.setLampOut_perReq (o : Nat) (x : LampOut) : (s.setLampOut o x).perReq = s.perReq := rfl
@[simp] theorem State.setLampOut_dram (o : Nat) (x : LampOut) : (s.setLampOut o x).dram = s.dram := rfl
@[simp] theorem State.setLampOut_esram (o : Nat) (x : LampOut) : (s.setLampOut o x).esram = s.esram := rfl
@[simp] theorem State.setLampOut_rd (o : Nat) (x : LampOut) (adr : Nat) : (s.setLampOut o x).rd adr = s.rd adr := rfl

/-! ## State.setDali -/

@[simp] theorem State.setDali_part (c : Nat) (x : DaliChan) : (s.setDali c x).part = s.part := rfl
@[simp] theorem State.setDali_straps (c : Nat) (x : DaliChan) : (s.setDali c x).straps = s.straps := rfl
@[simp] theorem State.setDali_pending (c : Nat) (x : DaliChan) : (s.setDali c x).pending = s.pending := rfl
@[simp] theorem State.setDali_resp (c : Nat) (x : DaliChan) : (s.setDali c x).resp = s.resp := rfl
@[simp] theorem State.setDali_outbox (c : Nat) (x : DaliChan) : (s.setDali c x).outbox = s.outbox := rfl
@[simp] theorem State.setDali_fresh (c : Nat) (x : DaliChan) : (s.setDali c x).fresh = s.fresh := rfl
@[simp] theorem State.setDali_mono (c : Nat) (x : DaliChan) : (s.setDali c x).mono = s.mono := rfl
@[simp] theorem State.setDali_regs (c : Nat) (x : DaliChan) : (s.setDali c x).regs = s.regs := rfl
@[simp] theorem State.setDali_tags (c : Nat) (x : DaliChan) : (s.setDali c x).tags = s.tags := rfl
@[simp] theorem State.setDali_txu (c : Nat) (x : DaliChan) : (s.setDali c x).txu = s.txu := rfl
@[simp] theorem State.setDali_logs (c : Nat) (x : DaliChan) : (s.setDali c x).logs = s.logs := rfl
@[simp] theorem State.setDali_msix (c : Nat) (x : DaliChan) : (s.setDali c x).msix = s.msix := rfl
@[simp] theorem State.setDali_time (c : Nat) (x : DaliChan) : (s.setDali c x).time = s.time := rfl
@[simp] theorem State.setDali_power (c : Nat) (x : DaliChan) : (s.setDali c x).power = s.power := rfl
@[simp] theorem State.setDali_actq (c : Nat) (x : DaliChan) : (s.setDali c x).actq = s.actq := rfl
@[simp] theorem State.setDali_sub (c : Nat) (x : DaliChan) : (s.setDali c x).sub = s.sub := rfl
@[simp] theorem State.setDali_mesh (c : Nat) (x : DaliChan) : (s.setDali c x).mesh = s.mesh := rfl
@[simp] theorem State.setDali_acc (c : Nat) (x : DaliChan) : (s.setDali c x).acc = s.acc := rfl
@[simp] theorem State.setDali_qm (c : Nat) (x : DaliChan) : (s.setDali c x).qm = s.qm := rfl
@[simp] theorem State.setDali_fwd (c : Nat) (x : DaliChan) : (s.setDali c x).fwd = s.fwd := rfl
@[simp] theorem State.setDali_sched (c : Nat) (x : DaliChan) : (s.setDali c x).sched = s.sched := rfl
@[simp] theorem State.setDali_bh (c : Nat) (x : DaliChan) : (s.setDali c x).bh = s.bh := rfl
@[simp] theorem State.setDali_xbl (c : Nat) (x : DaliChan) : (s.setDali c x).xbl = s.xbl := rfl
@[simp] theorem State.setDali_engines (c : Nat) (x : DaliChan) : (s.setDali c x).engines = s.engines := rfl
@[simp] theorem State.setDali_grate (c : Nat) (x : DaliChan) : (s.setDali c x).grate = s.grate := rfl
@[simp] theorem State.setDali_ember (c : Nat) (x : DaliChan) : (s.setDali c x).ember = s.ember := rfl
@[simp] theorem State.setDali_shared (c : Nat) (x : DaliChan) : (s.setDali c x).shared = s.shared := rfl
@[simp] theorem State.setDali_dma (c : Nat) (x : DaliChan) : (s.setDali c x).dma = s.dma := rfl
@[simp] theorem State.setDali_radioMem (c : Nat) (x : DaliChan) : (s.setDali c x).radioMem = s.radioMem := rfl
@[simp] theorem State.setDali_aes (c : Nat) (x : DaliChan) : (s.setDali c x).aes = s.aes := rfl
@[simp] theorem State.setDali_ddr (c : Nat) (x : DaliChan) : (s.setDali c x).ddr = s.ddr := rfl
@[simp] theorem State.setDali_hport (c : Nat) (x : DaliChan) : (s.setDali c x).hport = s.hport := rfl
@[simp] theorem State.setDali_byp (c : Nat) (x : DaliChan) : (s.setDali c x).byp = s.byp := rfl
@[simp] theorem State.setDali_srcq (c : Nat) (x : DaliChan) : (s.setDali c x).srcq = s.srcq := rfl
@[simp] theorem State.setDali_pipeKeys (c : Nat) (x : DaliChan) : (s.setDali c x).pipeKeys = s.pipeKeys := rfl
@[simp] theorem State.setDali_pipeLog (c : Nat) (x : DaliChan) : (s.setDali c x).pipeLog = s.pipeLog := rfl
@[simp] theorem State.setDali_perReq (c : Nat) (x : DaliChan) : (s.setDali c x).perReq = s.perReq := rfl
@[simp] theorem State.setDali_dram (c : Nat) (x : DaliChan) : (s.setDali c x).dram = s.dram := rfl
@[simp] theorem State.setDali_esram (c : Nat) (x : DaliChan) : (s.setDali c x).esram = s.esram := rfl
@[simp] theorem State.setDali_rd (c : Nat) (x : DaliChan) (adr : Nat) : (s.setDali c x).rd adr = s.rd adr := rfl

/-! ## State.onSub -/

@[simp] theorem State.onSub_part (f : Sub → Sub) : (s.onSub f).part = s.part := rfl
@[simp] theorem State.onSub_straps (f : Sub → Sub) : (s.onSub f).straps = s.straps := rfl
@[simp] theorem State.onSub_pending (f : Sub → Sub) : (s.onSub f).pending = s.pending := rfl
@[simp] theorem State.onSub_resp (f : Sub → Sub) : (s.onSub f).resp = s.resp := rfl
@[simp] theorem State.onSub_outbox (f : Sub → Sub) : (s.onSub f).outbox = s.outbox := rfl
@[simp] theorem State.onSub_fresh (f : Sub → Sub) : (s.onSub f).fresh = s.fresh := rfl
@[simp] theorem State.onSub_mono (f : Sub → Sub) : (s.onSub f).mono = s.mono := rfl
@[simp] theorem State.onSub_regs (f : Sub → Sub) : (s.onSub f).regs = s.regs := rfl
@[simp] theorem State.onSub_tags (f : Sub → Sub) : (s.onSub f).tags = s.tags := rfl
@[simp] theorem State.onSub_txu (f : Sub → Sub) : (s.onSub f).txu = s.txu := rfl
@[simp] theorem State.onSub_logs (f : Sub → Sub) : (s.onSub f).logs = s.logs := rfl
@[simp] theorem State.onSub_msix (f : Sub → Sub) : (s.onSub f).msix = s.msix := rfl
@[simp] theorem State.onSub_time (f : Sub → Sub) : (s.onSub f).time = s.time := rfl
@[simp] theorem State.onSub_power (f : Sub → Sub) : (s.onSub f).power = s.power := rfl
@[simp] theorem State.onSub_actq (f : Sub → Sub) : (s.onSub f).actq = s.actq := rfl
@[simp] theorem State.onSub_lamp (f : Sub → Sub) : (s.onSub f).lamp = s.lamp := rfl
@[simp] theorem State.onSub_mesh (f : Sub → Sub) : (s.onSub f).mesh = s.mesh := rfl
@[simp] theorem State.onSub_acc (f : Sub → Sub) : (s.onSub f).acc = s.acc := rfl
@[simp] theorem State.onSub_qm (f : Sub → Sub) : (s.onSub f).qm = s.qm := rfl
@[simp] theorem State.onSub_fwd (f : Sub → Sub) : (s.onSub f).fwd = s.fwd := rfl
@[simp] theorem State.onSub_sched (f : Sub → Sub) : (s.onSub f).sched = s.sched := rfl
@[simp] theorem State.onSub_bh (f : Sub → Sub) : (s.onSub f).bh = s.bh := rfl
@[simp] theorem State.onSub_xbl (f : Sub → Sub) : (s.onSub f).xbl = s.xbl := rfl
@[simp] theorem State.onSub_engines (f : Sub → Sub) : (s.onSub f).engines = s.engines := rfl
@[simp] theorem State.onSub_grate (f : Sub → Sub) : (s.onSub f).grate = s.grate := rfl
@[simp] theorem State.onSub_ember (f : Sub → Sub) : (s.onSub f).ember = s.ember := rfl
@[simp] theorem State.onSub_shared (f : Sub → Sub) : (s.onSub f).shared = s.shared := rfl
@[simp] theorem State.onSub_dma (f : Sub → Sub) : (s.onSub f).dma = s.dma := rfl
@[simp] theorem State.onSub_radioMem (f : Sub → Sub) : (s.onSub f).radioMem = s.radioMem := rfl
@[simp] theorem State.onSub_aes (f : Sub → Sub) : (s.onSub f).aes = s.aes := rfl
@[simp] theorem State.onSub_ddr (f : Sub → Sub) : (s.onSub f).ddr = s.ddr := rfl
@[simp] theorem State.onSub_hport (f : Sub → Sub) : (s.onSub f).hport = s.hport := rfl
@[simp] theorem State.onSub_byp (f : Sub → Sub) : (s.onSub f).byp = s.byp := rfl
@[simp] theorem State.onSub_srcq (f : Sub → Sub) : (s.onSub f).srcq = s.srcq := rfl
@[simp] theorem State.onSub_pipeKeys (f : Sub → Sub) : (s.onSub f).pipeKeys = s.pipeKeys := rfl
@[simp] theorem State.onSub_pipeLog (f : Sub → Sub) : (s.onSub f).pipeLog = s.pipeLog := rfl
@[simp] theorem State.onSub_perReq (f : Sub → Sub) : (s.onSub f).perReq = s.perReq := rfl
@[simp] theorem State.onSub_dram (f : Sub → Sub) : (s.onSub f).dram = s.dram := rfl
@[simp] theorem State.onSub_esram (f : Sub → Sub) : (s.onSub f).esram = s.esram := rfl
@[simp] theorem State.onSub_rd (f : Sub → Sub) (adr : Nat) : (s.onSub f).rd adr = s.rd adr := rfl

/-! ## State.onMesh -/

@[simp] theorem State.onMesh_part (f : Mesh → Mesh) : (s.onMesh f).part = s.part := rfl
@[simp] theorem State.onMesh_straps (f : Mesh → Mesh) : (s.onMesh f).straps = s.straps := rfl
@[simp] theorem State.onMesh_pending (f : Mesh → Mesh) : (s.onMesh f).pending = s.pending := rfl
@[simp] theorem State.onMesh_resp (f : Mesh → Mesh) : (s.onMesh f).resp = s.resp := rfl
@[simp] theorem State.onMesh_outbox (f : Mesh → Mesh) : (s.onMesh f).outbox = s.outbox := rfl
@[simp] theorem State.onMesh_fresh (f : Mesh → Mesh) : (s.onMesh f).fresh = s.fresh := rfl
@[simp] theorem State.onMesh_mono (f : Mesh → Mesh) : (s.onMesh f).mono = s.mono := rfl
@[simp] theorem State.onMesh_regs (f : Mesh → Mesh) : (s.onMesh f).regs = s.regs := rfl
@[simp] theorem State.onMesh_tags (f : Mesh → Mesh) : (s.onMesh f).tags = s.tags := rfl
@[simp] theorem State.onMesh_txu (f : Mesh → Mesh) : (s.onMesh f).txu = s.txu := rfl
@[simp] theorem State.onMesh_logs (f : Mesh → Mesh) : (s.onMesh f).logs = s.logs := rfl
@[simp] theorem State.onMesh_msix (f : Mesh → Mesh) : (s.onMesh f).msix = s.msix := rfl
@[simp] theorem State.onMesh_time (f : Mesh → Mesh) : (s.onMesh f).time = s.time := rfl
@[simp] theorem State.onMesh_power (f : Mesh → Mesh) : (s.onMesh f).power = s.power := rfl
@[simp] theorem State.onMesh_actq (f : Mesh → Mesh) : (s.onMesh f).actq = s.actq := rfl
@[simp] theorem State.onMesh_lamp (f : Mesh → Mesh) : (s.onMesh f).lamp = s.lamp := rfl
@[simp] theorem State.onMesh_sub (f : Mesh → Mesh) : (s.onMesh f).sub = s.sub := rfl
@[simp] theorem State.onMesh_acc (f : Mesh → Mesh) : (s.onMesh f).acc = s.acc := rfl
@[simp] theorem State.onMesh_qm (f : Mesh → Mesh) : (s.onMesh f).qm = s.qm := rfl
@[simp] theorem State.onMesh_fwd (f : Mesh → Mesh) : (s.onMesh f).fwd = s.fwd := rfl
@[simp] theorem State.onMesh_sched (f : Mesh → Mesh) : (s.onMesh f).sched = s.sched := rfl
@[simp] theorem State.onMesh_bh (f : Mesh → Mesh) : (s.onMesh f).bh = s.bh := rfl
@[simp] theorem State.onMesh_xbl (f : Mesh → Mesh) : (s.onMesh f).xbl = s.xbl := rfl
@[simp] theorem State.onMesh_engines (f : Mesh → Mesh) : (s.onMesh f).engines = s.engines := rfl
@[simp] theorem State.onMesh_grate (f : Mesh → Mesh) : (s.onMesh f).grate = s.grate := rfl
@[simp] theorem State.onMesh_ember (f : Mesh → Mesh) : (s.onMesh f).ember = s.ember := rfl
@[simp] theorem State.onMesh_shared (f : Mesh → Mesh) : (s.onMesh f).shared = s.shared := rfl
@[simp] theorem State.onMesh_dma (f : Mesh → Mesh) : (s.onMesh f).dma = s.dma := rfl
@[simp] theorem State.onMesh_radioMem (f : Mesh → Mesh) : (s.onMesh f).radioMem = s.radioMem := rfl
@[simp] theorem State.onMesh_aes (f : Mesh → Mesh) : (s.onMesh f).aes = s.aes := rfl
@[simp] theorem State.onMesh_ddr (f : Mesh → Mesh) : (s.onMesh f).ddr = s.ddr := rfl
@[simp] theorem State.onMesh_hport (f : Mesh → Mesh) : (s.onMesh f).hport = s.hport := rfl
@[simp] theorem State.onMesh_byp (f : Mesh → Mesh) : (s.onMesh f).byp = s.byp := rfl
@[simp] theorem State.onMesh_srcq (f : Mesh → Mesh) : (s.onMesh f).srcq = s.srcq := rfl
@[simp] theorem State.onMesh_pipeKeys (f : Mesh → Mesh) : (s.onMesh f).pipeKeys = s.pipeKeys := rfl
@[simp] theorem State.onMesh_pipeLog (f : Mesh → Mesh) : (s.onMesh f).pipeLog = s.pipeLog := rfl
@[simp] theorem State.onMesh_perReq (f : Mesh → Mesh) : (s.onMesh f).perReq = s.perReq := rfl
@[simp] theorem State.onMesh_dram (f : Mesh → Mesh) : (s.onMesh f).dram = s.dram := rfl
@[simp] theorem State.onMesh_esram (f : Mesh → Mesh) : (s.onMesh f).esram = s.esram := rfl
@[simp] theorem State.onMesh_rd (f : Mesh → Mesh) (adr : Nat) : (s.onMesh f).rd adr = s.rd adr := rfl

/-! ## State.onPart -/

@[simp] theorem State.onPart_part (d : Nat) (f : PartState → PartState) : (s.onPart d f).part = s.part := rfl
@[simp] theorem State.onPart_straps (d : Nat) (f : PartState → PartState) : (s.onPart d f).straps = s.straps := rfl
@[simp] theorem State.onPart_pending (d : Nat) (f : PartState → PartState) : (s.onPart d f).pending = s.pending := rfl
@[simp] theorem State.onPart_resp (d : Nat) (f : PartState → PartState) : (s.onPart d f).resp = s.resp := rfl
@[simp] theorem State.onPart_outbox (d : Nat) (f : PartState → PartState) : (s.onPart d f).outbox = s.outbox := rfl
@[simp] theorem State.onPart_fresh (d : Nat) (f : PartState → PartState) : (s.onPart d f).fresh = s.fresh := rfl
@[simp] theorem State.onPart_mono (d : Nat) (f : PartState → PartState) : (s.onPart d f).mono = s.mono := rfl
@[simp] theorem State.onPart_regs (d : Nat) (f : PartState → PartState) : (s.onPart d f).regs = s.regs := rfl
@[simp] theorem State.onPart_tags (d : Nat) (f : PartState → PartState) : (s.onPart d f).tags = s.tags := rfl
@[simp] theorem State.onPart_txu (d : Nat) (f : PartState → PartState) : (s.onPart d f).txu = s.txu := rfl
@[simp] theorem State.onPart_logs (d : Nat) (f : PartState → PartState) : (s.onPart d f).logs = s.logs := rfl
@[simp] theorem State.onPart_msix (d : Nat) (f : PartState → PartState) : (s.onPart d f).msix = s.msix := rfl
@[simp] theorem State.onPart_time (d : Nat) (f : PartState → PartState) : (s.onPart d f).time = s.time := rfl
@[simp] theorem State.onPart_power (d : Nat) (f : PartState → PartState) : (s.onPart d f).power = s.power := rfl
@[simp] theorem State.onPart_actq (d : Nat) (f : PartState → PartState) : (s.onPart d f).actq = s.actq := rfl
@[simp] theorem State.onPart_lamp (d : Nat) (f : PartState → PartState) : (s.onPart d f).lamp = s.lamp := rfl
@[simp] theorem State.onPart_sub (d : Nat) (f : PartState → PartState) : (s.onPart d f).sub = s.sub := rfl
@[simp] theorem State.onPart_mesh (d : Nat) (f : PartState → PartState) : (s.onPart d f).mesh = s.mesh := rfl
@[simp] theorem State.onPart_qm (d : Nat) (f : PartState → PartState) : (s.onPart d f).qm = s.qm := rfl
@[simp] theorem State.onPart_fwd (d : Nat) (f : PartState → PartState) : (s.onPart d f).fwd = s.fwd := rfl
@[simp] theorem State.onPart_sched (d : Nat) (f : PartState → PartState) : (s.onPart d f).sched = s.sched := rfl
@[simp] theorem State.onPart_bh (d : Nat) (f : PartState → PartState) : (s.onPart d f).bh = s.bh := rfl
@[simp] theorem State.onPart_xbl (d : Nat) (f : PartState → PartState) : (s.onPart d f).xbl = s.xbl := rfl
@[simp] theorem State.onPart_engines (d : Nat) (f : PartState → PartState) : (s.onPart d f).engines = s.engines := rfl
@[simp] theorem State.onPart_grate (d : Nat) (f : PartState → PartState) : (s.onPart d f).grate = s.grate := rfl
@[simp] theorem State.onPart_ember (d : Nat) (f : PartState → PartState) : (s.onPart d f).ember = s.ember := rfl
@[simp] theorem State.onPart_shared (d : Nat) (f : PartState → PartState) : (s.onPart d f).shared = s.shared := rfl
@[simp] theorem State.onPart_dma (d : Nat) (f : PartState → PartState) : (s.onPart d f).dma = s.dma := rfl
@[simp] theorem State.onPart_radioMem (d : Nat) (f : PartState → PartState) : (s.onPart d f).radioMem = s.radioMem := rfl
@[simp] theorem State.onPart_aes (d : Nat) (f : PartState → PartState) : (s.onPart d f).aes = s.aes := rfl
@[simp] theorem State.onPart_ddr (d : Nat) (f : PartState → PartState) : (s.onPart d f).ddr = s.ddr := rfl
@[simp] theorem State.onPart_hport (d : Nat) (f : PartState → PartState) : (s.onPart d f).hport = s.hport := rfl
@[simp] theorem State.onPart_byp (d : Nat) (f : PartState → PartState) : (s.onPart d f).byp = s.byp := rfl
@[simp] theorem State.onPart_srcq (d : Nat) (f : PartState → PartState) : (s.onPart d f).srcq = s.srcq := rfl
@[simp] theorem State.onPart_pipeKeys (d : Nat) (f : PartState → PartState) : (s.onPart d f).pipeKeys = s.pipeKeys := rfl
@[simp] theorem State.onPart_pipeLog (d : Nat) (f : PartState → PartState) : (s.onPart d f).pipeLog = s.pipeLog := rfl
@[simp] theorem State.onPart_perReq (d : Nat) (f : PartState → PartState) : (s.onPart d f).perReq = s.perReq := rfl
@[simp] theorem State.onPart_dram (d : Nat) (f : PartState → PartState) : (s.onPart d f).dram = s.dram := rfl
@[simp] theorem State.onPart_esram (d : Nat) (f : PartState → PartState) : (s.onPart d f).esram = s.esram := rfl
@[simp] theorem State.onPart_rd (d : Nat) (f : PartState → PartState) (adr : Nat) : (s.onPart d f).rd adr = s.rd adr := rfl

/-! ## State.onPs -/

@[simp] theorem State.onPs_part (p : Nat) (f : PartSched → PartSched) : (s.onPs p f).part = s.part := rfl
@[simp] theorem State.onPs_straps (p : Nat) (f : PartSched → PartSched) : (s.onPs p f).straps = s.straps := rfl
@[simp] theorem State.onPs_pending (p : Nat) (f : PartSched → PartSched) : (s.onPs p f).pending = s.pending := rfl
@[simp] theorem State.onPs_resp (p : Nat) (f : PartSched → PartSched) : (s.onPs p f).resp = s.resp := rfl
@[simp] theorem State.onPs_outbox (p : Nat) (f : PartSched → PartSched) : (s.onPs p f).outbox = s.outbox := rfl
@[simp] theorem State.onPs_fresh (p : Nat) (f : PartSched → PartSched) : (s.onPs p f).fresh = s.fresh := rfl
@[simp] theorem State.onPs_mono (p : Nat) (f : PartSched → PartSched) : (s.onPs p f).mono = s.mono := rfl
@[simp] theorem State.onPs_regs (p : Nat) (f : PartSched → PartSched) : (s.onPs p f).regs = s.regs := rfl
@[simp] theorem State.onPs_tags (p : Nat) (f : PartSched → PartSched) : (s.onPs p f).tags = s.tags := rfl
@[simp] theorem State.onPs_txu (p : Nat) (f : PartSched → PartSched) : (s.onPs p f).txu = s.txu := rfl
@[simp] theorem State.onPs_logs (p : Nat) (f : PartSched → PartSched) : (s.onPs p f).logs = s.logs := rfl
@[simp] theorem State.onPs_msix (p : Nat) (f : PartSched → PartSched) : (s.onPs p f).msix = s.msix := rfl
@[simp] theorem State.onPs_time (p : Nat) (f : PartSched → PartSched) : (s.onPs p f).time = s.time := rfl
@[simp] theorem State.onPs_power (p : Nat) (f : PartSched → PartSched) : (s.onPs p f).power = s.power := rfl
@[simp] theorem State.onPs_actq (p : Nat) (f : PartSched → PartSched) : (s.onPs p f).actq = s.actq := rfl
@[simp] theorem State.onPs_lamp (p : Nat) (f : PartSched → PartSched) : (s.onPs p f).lamp = s.lamp := rfl
@[simp] theorem State.onPs_sub (p : Nat) (f : PartSched → PartSched) : (s.onPs p f).sub = s.sub := rfl
@[simp] theorem State.onPs_mesh (p : Nat) (f : PartSched → PartSched) : (s.onPs p f).mesh = s.mesh := rfl
@[simp] theorem State.onPs_acc (p : Nat) (f : PartSched → PartSched) : (s.onPs p f).acc = s.acc := rfl
@[simp] theorem State.onPs_qm (p : Nat) (f : PartSched → PartSched) : (s.onPs p f).qm = s.qm := rfl
@[simp] theorem State.onPs_fwd (p : Nat) (f : PartSched → PartSched) : (s.onPs p f).fwd = s.fwd := rfl
@[simp] theorem State.onPs_bh (p : Nat) (f : PartSched → PartSched) : (s.onPs p f).bh = s.bh := rfl
@[simp] theorem State.onPs_xbl (p : Nat) (f : PartSched → PartSched) : (s.onPs p f).xbl = s.xbl := rfl
@[simp] theorem State.onPs_engines (p : Nat) (f : PartSched → PartSched) : (s.onPs p f).engines = s.engines := rfl
@[simp] theorem State.onPs_grate (p : Nat) (f : PartSched → PartSched) : (s.onPs p f).grate = s.grate := rfl
@[simp] theorem State.onPs_ember (p : Nat) (f : PartSched → PartSched) : (s.onPs p f).ember = s.ember := rfl
@[simp] theorem State.onPs_shared (p : Nat) (f : PartSched → PartSched) : (s.onPs p f).shared = s.shared := rfl
@[simp] theorem State.onPs_dma (p : Nat) (f : PartSched → PartSched) : (s.onPs p f).dma = s.dma := rfl
@[simp] theorem State.onPs_radioMem (p : Nat) (f : PartSched → PartSched) : (s.onPs p f).radioMem = s.radioMem := rfl
@[simp] theorem State.onPs_aes (p : Nat) (f : PartSched → PartSched) : (s.onPs p f).aes = s.aes := rfl
@[simp] theorem State.onPs_ddr (p : Nat) (f : PartSched → PartSched) : (s.onPs p f).ddr = s.ddr := rfl
@[simp] theorem State.onPs_hport (p : Nat) (f : PartSched → PartSched) : (s.onPs p f).hport = s.hport := rfl
@[simp] theorem State.onPs_byp (p : Nat) (f : PartSched → PartSched) : (s.onPs p f).byp = s.byp := rfl
@[simp] theorem State.onPs_srcq (p : Nat) (f : PartSched → PartSched) : (s.onPs p f).srcq = s.srcq := rfl
@[simp] theorem State.onPs_pipeKeys (p : Nat) (f : PartSched → PartSched) : (s.onPs p f).pipeKeys = s.pipeKeys := rfl
@[simp] theorem State.onPs_pipeLog (p : Nat) (f : PartSched → PartSched) : (s.onPs p f).pipeLog = s.pipeLog := rfl
@[simp] theorem State.onPs_perReq (p : Nat) (f : PartSched → PartSched) : (s.onPs p f).perReq = s.perReq := rfl
@[simp] theorem State.onPs_dram (p : Nat) (f : PartSched → PartSched) : (s.onPs p f).dram = s.dram := rfl
@[simp] theorem State.onPs_esram (p : Nat) (f : PartSched → PartSched) : (s.onPs p f).esram = s.esram := rfl
@[simp] theorem State.onPs_rd (p : Nat) (f : PartSched → PartSched) (adr : Nat) : (s.onPs p f).rd adr = s.rd adr := rfl

/-! ## State.onEm -/

@[simp] theorem State.onEm_part (f : Em → Em) : (s.onEm f).part = s.part := rfl
@[simp] theorem State.onEm_straps (f : Em → Em) : (s.onEm f).straps = s.straps := rfl
@[simp] theorem State.onEm_pending (f : Em → Em) : (s.onEm f).pending = s.pending := rfl
@[simp] theorem State.onEm_resp (f : Em → Em) : (s.onEm f).resp = s.resp := rfl
@[simp] theorem State.onEm_outbox (f : Em → Em) : (s.onEm f).outbox = s.outbox := rfl
@[simp] theorem State.onEm_fresh (f : Em → Em) : (s.onEm f).fresh = s.fresh := rfl
@[simp] theorem State.onEm_mono (f : Em → Em) : (s.onEm f).mono = s.mono := rfl
@[simp] theorem State.onEm_regs (f : Em → Em) : (s.onEm f).regs = s.regs := rfl
@[simp] theorem State.onEm_tags (f : Em → Em) : (s.onEm f).tags = s.tags := rfl
@[simp] theorem State.onEm_txu (f : Em → Em) : (s.onEm f).txu = s.txu := rfl
@[simp] theorem State.onEm_logs (f : Em → Em) : (s.onEm f).logs = s.logs := rfl
@[simp] theorem State.onEm_msix (f : Em → Em) : (s.onEm f).msix = s.msix := rfl
@[simp] theorem State.onEm_time (f : Em → Em) : (s.onEm f).time = s.time := rfl
@[simp] theorem State.onEm_power (f : Em → Em) : (s.onEm f).power = s.power := rfl
@[simp] theorem State.onEm_actq (f : Em → Em) : (s.onEm f).actq = s.actq := rfl
@[simp] theorem State.onEm_lamp (f : Em → Em) : (s.onEm f).lamp = s.lamp := rfl
@[simp] theorem State.onEm_sub (f : Em → Em) : (s.onEm f).sub = s.sub := rfl
@[simp] theorem State.onEm_mesh (f : Em → Em) : (s.onEm f).mesh = s.mesh := rfl
@[simp] theorem State.onEm_acc (f : Em → Em) : (s.onEm f).acc = s.acc := rfl
@[simp] theorem State.onEm_qm (f : Em → Em) : (s.onEm f).qm = s.qm := rfl
@[simp] theorem State.onEm_sched (f : Em → Em) : (s.onEm f).sched = s.sched := rfl
@[simp] theorem State.onEm_bh (f : Em → Em) : (s.onEm f).bh = s.bh := rfl
@[simp] theorem State.onEm_xbl (f : Em → Em) : (s.onEm f).xbl = s.xbl := rfl
@[simp] theorem State.onEm_engines (f : Em → Em) : (s.onEm f).engines = s.engines := rfl
@[simp] theorem State.onEm_grate (f : Em → Em) : (s.onEm f).grate = s.grate := rfl
@[simp] theorem State.onEm_ember (f : Em → Em) : (s.onEm f).ember = s.ember := rfl
@[simp] theorem State.onEm_shared (f : Em → Em) : (s.onEm f).shared = s.shared := rfl
@[simp] theorem State.onEm_dma (f : Em → Em) : (s.onEm f).dma = s.dma := rfl
@[simp] theorem State.onEm_radioMem (f : Em → Em) : (s.onEm f).radioMem = s.radioMem := rfl
@[simp] theorem State.onEm_aes (f : Em → Em) : (s.onEm f).aes = s.aes := rfl
@[simp] theorem State.onEm_ddr (f : Em → Em) : (s.onEm f).ddr = s.ddr := rfl
@[simp] theorem State.onEm_hport (f : Em → Em) : (s.onEm f).hport = s.hport := rfl
@[simp] theorem State.onEm_byp (f : Em → Em) : (s.onEm f).byp = s.byp := rfl
@[simp] theorem State.onEm_srcq (f : Em → Em) : (s.onEm f).srcq = s.srcq := rfl
@[simp] theorem State.onEm_pipeKeys (f : Em → Em) : (s.onEm f).pipeKeys = s.pipeKeys := rfl
@[simp] theorem State.onEm_pipeLog (f : Em → Em) : (s.onEm f).pipeLog = s.pipeLog := rfl
@[simp] theorem State.onEm_perReq (f : Em → Em) : (s.onEm f).perReq = s.perReq := rfl
@[simp] theorem State.onEm_dram (f : Em → Em) : (s.onEm f).dram = s.dram := rfl
@[simp] theorem State.onEm_esram (f : Em → Em) : (s.onEm f).esram = s.esram := rfl
@[simp] theorem State.onEm_rd (f : Em → Em) (adr : Nat) : (s.onEm f).rd adr = s.rd adr := rfl

/-! ## State.onLpm -/

@[simp] theorem State.onLpm_part (f : Lpm → Lpm) : (s.onLpm f).part = s.part := rfl
@[simp] theorem State.onLpm_straps (f : Lpm → Lpm) : (s.onLpm f).straps = s.straps := rfl
@[simp] theorem State.onLpm_pending (f : Lpm → Lpm) : (s.onLpm f).pending = s.pending := rfl
@[simp] theorem State.onLpm_resp (f : Lpm → Lpm) : (s.onLpm f).resp = s.resp := rfl
@[simp] theorem State.onLpm_outbox (f : Lpm → Lpm) : (s.onLpm f).outbox = s.outbox := rfl
@[simp] theorem State.onLpm_fresh (f : Lpm → Lpm) : (s.onLpm f).fresh = s.fresh := rfl
@[simp] theorem State.onLpm_mono (f : Lpm → Lpm) : (s.onLpm f).mono = s.mono := rfl
@[simp] theorem State.onLpm_regs (f : Lpm → Lpm) : (s.onLpm f).regs = s.regs := rfl
@[simp] theorem State.onLpm_tags (f : Lpm → Lpm) : (s.onLpm f).tags = s.tags := rfl
@[simp] theorem State.onLpm_txu (f : Lpm → Lpm) : (s.onLpm f).txu = s.txu := rfl
@[simp] theorem State.onLpm_logs (f : Lpm → Lpm) : (s.onLpm f).logs = s.logs := rfl
@[simp] theorem State.onLpm_msix (f : Lpm → Lpm) : (s.onLpm f).msix = s.msix := rfl
@[simp] theorem State.onLpm_time (f : Lpm → Lpm) : (s.onLpm f).time = s.time := rfl
@[simp] theorem State.onLpm_power (f : Lpm → Lpm) : (s.onLpm f).power = s.power := rfl
@[simp] theorem State.onLpm_actq (f : Lpm → Lpm) : (s.onLpm f).actq = s.actq := rfl
@[simp] theorem State.onLpm_lamp (f : Lpm → Lpm) : (s.onLpm f).lamp = s.lamp := rfl
@[simp] theorem State.onLpm_sub (f : Lpm → Lpm) : (s.onLpm f).sub = s.sub := rfl
@[simp] theorem State.onLpm_mesh (f : Lpm → Lpm) : (s.onLpm f).mesh = s.mesh := rfl
@[simp] theorem State.onLpm_acc (f : Lpm → Lpm) : (s.onLpm f).acc = s.acc := rfl
@[simp] theorem State.onLpm_qm (f : Lpm → Lpm) : (s.onLpm f).qm = s.qm := rfl
@[simp] theorem State.onLpm_sched (f : Lpm → Lpm) : (s.onLpm f).sched = s.sched := rfl
@[simp] theorem State.onLpm_bh (f : Lpm → Lpm) : (s.onLpm f).bh = s.bh := rfl
@[simp] theorem State.onLpm_xbl (f : Lpm → Lpm) : (s.onLpm f).xbl = s.xbl := rfl
@[simp] theorem State.onLpm_engines (f : Lpm → Lpm) : (s.onLpm f).engines = s.engines := rfl
@[simp] theorem State.onLpm_grate (f : Lpm → Lpm) : (s.onLpm f).grate = s.grate := rfl
@[simp] theorem State.onLpm_ember (f : Lpm → Lpm) : (s.onLpm f).ember = s.ember := rfl
@[simp] theorem State.onLpm_shared (f : Lpm → Lpm) : (s.onLpm f).shared = s.shared := rfl
@[simp] theorem State.onLpm_dma (f : Lpm → Lpm) : (s.onLpm f).dma = s.dma := rfl
@[simp] theorem State.onLpm_radioMem (f : Lpm → Lpm) : (s.onLpm f).radioMem = s.radioMem := rfl
@[simp] theorem State.onLpm_aes (f : Lpm → Lpm) : (s.onLpm f).aes = s.aes := rfl
@[simp] theorem State.onLpm_ddr (f : Lpm → Lpm) : (s.onLpm f).ddr = s.ddr := rfl
@[simp] theorem State.onLpm_hport (f : Lpm → Lpm) : (s.onLpm f).hport = s.hport := rfl
@[simp] theorem State.onLpm_byp (f : Lpm → Lpm) : (s.onLpm f).byp = s.byp := rfl
@[simp] theorem State.onLpm_srcq (f : Lpm → Lpm) : (s.onLpm f).srcq = s.srcq := rfl
@[simp] theorem State.onLpm_pipeKeys (f : Lpm → Lpm) : (s.onLpm f).pipeKeys = s.pipeKeys := rfl
@[simp] theorem State.onLpm_pipeLog (f : Lpm → Lpm) : (s.onLpm f).pipeLog = s.pipeLog := rfl
@[simp] theorem State.onLpm_perReq (f : Lpm → Lpm) : (s.onLpm f).perReq = s.perReq := rfl
@[simp] theorem State.onLpm_dram (f : Lpm → Lpm) : (s.onLpm f).dram = s.dram := rfl
@[simp] theorem State.onLpm_esram (f : Lpm → Lpm) : (s.onLpm f).esram = s.esram := rfl
@[simp] theorem State.onLpm_rd (f : Lpm → Lpm) (adr : Nat) : (s.onLpm f).rd adr = s.rd adr := rfl

/-! ## State.onDir -/

@[simp] theorem State.onDir_part (n : Nat) (f : BhDir → BhDir) : (s.onDir n f).part = s.part := rfl
@[simp] theorem State.onDir_straps (n : Nat) (f : BhDir → BhDir) : (s.onDir n f).straps = s.straps := rfl
@[simp] theorem State.onDir_pending (n : Nat) (f : BhDir → BhDir) : (s.onDir n f).pending = s.pending := rfl
@[simp] theorem State.onDir_resp (n : Nat) (f : BhDir → BhDir) : (s.onDir n f).resp = s.resp := rfl
@[simp] theorem State.onDir_outbox (n : Nat) (f : BhDir → BhDir) : (s.onDir n f).outbox = s.outbox := rfl
@[simp] theorem State.onDir_fresh (n : Nat) (f : BhDir → BhDir) : (s.onDir n f).fresh = s.fresh := rfl
@[simp] theorem State.onDir_mono (n : Nat) (f : BhDir → BhDir) : (s.onDir n f).mono = s.mono := rfl
@[simp] theorem State.onDir_regs (n : Nat) (f : BhDir → BhDir) : (s.onDir n f).regs = s.regs := rfl
@[simp] theorem State.onDir_tags (n : Nat) (f : BhDir → BhDir) : (s.onDir n f).tags = s.tags := rfl
@[simp] theorem State.onDir_txu (n : Nat) (f : BhDir → BhDir) : (s.onDir n f).txu = s.txu := rfl
@[simp] theorem State.onDir_logs (n : Nat) (f : BhDir → BhDir) : (s.onDir n f).logs = s.logs := rfl
@[simp] theorem State.onDir_msix (n : Nat) (f : BhDir → BhDir) : (s.onDir n f).msix = s.msix := rfl
@[simp] theorem State.onDir_time (n : Nat) (f : BhDir → BhDir) : (s.onDir n f).time = s.time := rfl
@[simp] theorem State.onDir_power (n : Nat) (f : BhDir → BhDir) : (s.onDir n f).power = s.power := rfl
@[simp] theorem State.onDir_actq (n : Nat) (f : BhDir → BhDir) : (s.onDir n f).actq = s.actq := rfl
@[simp] theorem State.onDir_lamp (n : Nat) (f : BhDir → BhDir) : (s.onDir n f).lamp = s.lamp := rfl
@[simp] theorem State.onDir_sub (n : Nat) (f : BhDir → BhDir) : (s.onDir n f).sub = s.sub := rfl
@[simp] theorem State.onDir_mesh (n : Nat) (f : BhDir → BhDir) : (s.onDir n f).mesh = s.mesh := rfl
@[simp] theorem State.onDir_acc (n : Nat) (f : BhDir → BhDir) : (s.onDir n f).acc = s.acc := rfl
@[simp] theorem State.onDir_qm (n : Nat) (f : BhDir → BhDir) : (s.onDir n f).qm = s.qm := rfl
@[simp] theorem State.onDir_fwd (n : Nat) (f : BhDir → BhDir) : (s.onDir n f).fwd = s.fwd := rfl
@[simp] theorem State.onDir_sched (n : Nat) (f : BhDir → BhDir) : (s.onDir n f).sched = s.sched := rfl
@[simp] theorem State.onDir_xbl (n : Nat) (f : BhDir → BhDir) : (s.onDir n f).xbl = s.xbl := rfl
@[simp] theorem State.onDir_engines (n : Nat) (f : BhDir → BhDir) : (s.onDir n f).engines = s.engines := rfl
@[simp] theorem State.onDir_grate (n : Nat) (f : BhDir → BhDir) : (s.onDir n f).grate = s.grate := rfl
@[simp] theorem State.onDir_ember (n : Nat) (f : BhDir → BhDir) : (s.onDir n f).ember = s.ember := rfl
@[simp] theorem State.onDir_shared (n : Nat) (f : BhDir → BhDir) : (s.onDir n f).shared = s.shared := rfl
@[simp] theorem State.onDir_dma (n : Nat) (f : BhDir → BhDir) : (s.onDir n f).dma = s.dma := rfl
@[simp] theorem State.onDir_radioMem (n : Nat) (f : BhDir → BhDir) : (s.onDir n f).radioMem = s.radioMem := rfl
@[simp] theorem State.onDir_aes (n : Nat) (f : BhDir → BhDir) : (s.onDir n f).aes = s.aes := rfl
@[simp] theorem State.onDir_ddr (n : Nat) (f : BhDir → BhDir) : (s.onDir n f).ddr = s.ddr := rfl
@[simp] theorem State.onDir_hport (n : Nat) (f : BhDir → BhDir) : (s.onDir n f).hport = s.hport := rfl
@[simp] theorem State.onDir_byp (n : Nat) (f : BhDir → BhDir) : (s.onDir n f).byp = s.byp := rfl
@[simp] theorem State.onDir_srcq (n : Nat) (f : BhDir → BhDir) : (s.onDir n f).srcq = s.srcq := rfl
@[simp] theorem State.onDir_pipeKeys (n : Nat) (f : BhDir → BhDir) : (s.onDir n f).pipeKeys = s.pipeKeys := rfl
@[simp] theorem State.onDir_pipeLog (n : Nat) (f : BhDir → BhDir) : (s.onDir n f).pipeLog = s.pipeLog := rfl
@[simp] theorem State.onDir_perReq (n : Nat) (f : BhDir → BhDir) : (s.onDir n f).perReq = s.perReq := rfl
@[simp] theorem State.onDir_dram (n : Nat) (f : BhDir → BhDir) : (s.onDir n f).dram = s.dram := rfl
@[simp] theorem State.onDir_esram (n : Nat) (f : BhDir → BhDir) : (s.onDir n f).esram = s.esram := rfl
@[simp] theorem State.onDir_rd (n : Nat) (f : BhDir → BhDir) (adr : Nat) : (s.onDir n f).rd adr = s.rd adr := rfl

/-! ## State.onLink -/

@[simp] theorem State.onLink_part (l : Nat) (f : XblLink → XblLink) : (s.onLink l f).part = s.part := rfl
@[simp] theorem State.onLink_straps (l : Nat) (f : XblLink → XblLink) : (s.onLink l f).straps = s.straps := rfl
@[simp] theorem State.onLink_pending (l : Nat) (f : XblLink → XblLink) : (s.onLink l f).pending = s.pending := rfl
@[simp] theorem State.onLink_resp (l : Nat) (f : XblLink → XblLink) : (s.onLink l f).resp = s.resp := rfl
@[simp] theorem State.onLink_outbox (l : Nat) (f : XblLink → XblLink) : (s.onLink l f).outbox = s.outbox := rfl
@[simp] theorem State.onLink_fresh (l : Nat) (f : XblLink → XblLink) : (s.onLink l f).fresh = s.fresh := rfl
@[simp] theorem State.onLink_mono (l : Nat) (f : XblLink → XblLink) : (s.onLink l f).mono = s.mono := rfl
@[simp] theorem State.onLink_regs (l : Nat) (f : XblLink → XblLink) : (s.onLink l f).regs = s.regs := rfl
@[simp] theorem State.onLink_tags (l : Nat) (f : XblLink → XblLink) : (s.onLink l f).tags = s.tags := rfl
@[simp] theorem State.onLink_txu (l : Nat) (f : XblLink → XblLink) : (s.onLink l f).txu = s.txu := rfl
@[simp] theorem State.onLink_logs (l : Nat) (f : XblLink → XblLink) : (s.onLink l f).logs = s.logs := rfl
@[simp] theorem State.onLink_msix (l : Nat) (f : XblLink → XblLink) : (s.onLink l f).msix = s.msix := rfl
@[simp] theorem State.onLink_time (l : Nat) (f : XblLink → XblLink) : (s.onLink l f).time = s.time := rfl
@[simp] theorem State.onLink_power (l : Nat) (f : XblLink → XblLink) : (s.onLink l f).power = s.power := rfl
@[simp] theorem State.onLink_actq (l : Nat) (f : XblLink → XblLink) : (s.onLink l f).actq = s.actq := rfl
@[simp] theorem State.onLink_lamp (l : Nat) (f : XblLink → XblLink) : (s.onLink l f).lamp = s.lamp := rfl
@[simp] theorem State.onLink_sub (l : Nat) (f : XblLink → XblLink) : (s.onLink l f).sub = s.sub := rfl
@[simp] theorem State.onLink_mesh (l : Nat) (f : XblLink → XblLink) : (s.onLink l f).mesh = s.mesh := rfl
@[simp] theorem State.onLink_acc (l : Nat) (f : XblLink → XblLink) : (s.onLink l f).acc = s.acc := rfl
@[simp] theorem State.onLink_qm (l : Nat) (f : XblLink → XblLink) : (s.onLink l f).qm = s.qm := rfl
@[simp] theorem State.onLink_fwd (l : Nat) (f : XblLink → XblLink) : (s.onLink l f).fwd = s.fwd := rfl
@[simp] theorem State.onLink_sched (l : Nat) (f : XblLink → XblLink) : (s.onLink l f).sched = s.sched := rfl
@[simp] theorem State.onLink_bh (l : Nat) (f : XblLink → XblLink) : (s.onLink l f).bh = s.bh := rfl
@[simp] theorem State.onLink_engines (l : Nat) (f : XblLink → XblLink) : (s.onLink l f).engines = s.engines := rfl
@[simp] theorem State.onLink_grate (l : Nat) (f : XblLink → XblLink) : (s.onLink l f).grate = s.grate := rfl
@[simp] theorem State.onLink_ember (l : Nat) (f : XblLink → XblLink) : (s.onLink l f).ember = s.ember := rfl
@[simp] theorem State.onLink_shared (l : Nat) (f : XblLink → XblLink) : (s.onLink l f).shared = s.shared := rfl
@[simp] theorem State.onLink_dma (l : Nat) (f : XblLink → XblLink) : (s.onLink l f).dma = s.dma := rfl
@[simp] theorem State.onLink_radioMem (l : Nat) (f : XblLink → XblLink) : (s.onLink l f).radioMem = s.radioMem := rfl
@[simp] theorem State.onLink_aes (l : Nat) (f : XblLink → XblLink) : (s.onLink l f).aes = s.aes := rfl
@[simp] theorem State.onLink_ddr (l : Nat) (f : XblLink → XblLink) : (s.onLink l f).ddr = s.ddr := rfl
@[simp] theorem State.onLink_hport (l : Nat) (f : XblLink → XblLink) : (s.onLink l f).hport = s.hport := rfl
@[simp] theorem State.onLink_byp (l : Nat) (f : XblLink → XblLink) : (s.onLink l f).byp = s.byp := rfl
@[simp] theorem State.onLink_srcq (l : Nat) (f : XblLink → XblLink) : (s.onLink l f).srcq = s.srcq := rfl
@[simp] theorem State.onLink_pipeKeys (l : Nat) (f : XblLink → XblLink) : (s.onLink l f).pipeKeys = s.pipeKeys := rfl
@[simp] theorem State.onLink_pipeLog (l : Nat) (f : XblLink → XblLink) : (s.onLink l f).pipeLog = s.pipeLog := rfl
@[simp] theorem State.onLink_perReq (l : Nat) (f : XblLink → XblLink) : (s.onLink l f).perReq = s.perReq := rfl
@[simp] theorem State.onLink_dram (l : Nat) (f : XblLink → XblLink) : (s.onLink l f).dram = s.dram := rfl
@[simp] theorem State.onLink_esram (l : Nat) (f : XblLink → XblLink) : (s.onLink l f).esram = s.esram := rfl
@[simp] theorem State.onLink_rd (l : Nat) (f : XblLink → XblLink) (adr : Nat) : (s.onLink l f).rd adr = s.rd adr := rfl

/-! ## State.onEng -/

@[simp] theorem State.onEng_part (e : Nat) (f : Engine → Engine) : (s.onEng e f).part = s.part := rfl
@[simp] theorem State.onEng_straps (e : Nat) (f : Engine → Engine) : (s.onEng e f).straps = s.straps := rfl
@[simp] theorem State.onEng_pending (e : Nat) (f : Engine → Engine) : (s.onEng e f).pending = s.pending := rfl
@[simp] theorem State.onEng_resp (e : Nat) (f : Engine → Engine) : (s.onEng e f).resp = s.resp := rfl
@[simp] theorem State.onEng_outbox (e : Nat) (f : Engine → Engine) : (s.onEng e f).outbox = s.outbox := rfl
@[simp] theorem State.onEng_fresh (e : Nat) (f : Engine → Engine) : (s.onEng e f).fresh = s.fresh := rfl
@[simp] theorem State.onEng_mono (e : Nat) (f : Engine → Engine) : (s.onEng e f).mono = s.mono := rfl
@[simp] theorem State.onEng_regs (e : Nat) (f : Engine → Engine) : (s.onEng e f).regs = s.regs := rfl
@[simp] theorem State.onEng_tags (e : Nat) (f : Engine → Engine) : (s.onEng e f).tags = s.tags := rfl
@[simp] theorem State.onEng_txu (e : Nat) (f : Engine → Engine) : (s.onEng e f).txu = s.txu := rfl
@[simp] theorem State.onEng_logs (e : Nat) (f : Engine → Engine) : (s.onEng e f).logs = s.logs := rfl
@[simp] theorem State.onEng_msix (e : Nat) (f : Engine → Engine) : (s.onEng e f).msix = s.msix := rfl
@[simp] theorem State.onEng_time (e : Nat) (f : Engine → Engine) : (s.onEng e f).time = s.time := rfl
@[simp] theorem State.onEng_power (e : Nat) (f : Engine → Engine) : (s.onEng e f).power = s.power := rfl
@[simp] theorem State.onEng_actq (e : Nat) (f : Engine → Engine) : (s.onEng e f).actq = s.actq := rfl
@[simp] theorem State.onEng_lamp (e : Nat) (f : Engine → Engine) : (s.onEng e f).lamp = s.lamp := rfl
@[simp] theorem State.onEng_sub (e : Nat) (f : Engine → Engine) : (s.onEng e f).sub = s.sub := rfl
@[simp] theorem State.onEng_mesh (e : Nat) (f : Engine → Engine) : (s.onEng e f).mesh = s.mesh := rfl
@[simp] theorem State.onEng_acc (e : Nat) (f : Engine → Engine) : (s.onEng e f).acc = s.acc := rfl
@[simp] theorem State.onEng_qm (e : Nat) (f : Engine → Engine) : (s.onEng e f).qm = s.qm := rfl
@[simp] theorem State.onEng_fwd (e : Nat) (f : Engine → Engine) : (s.onEng e f).fwd = s.fwd := rfl
@[simp] theorem State.onEng_sched (e : Nat) (f : Engine → Engine) : (s.onEng e f).sched = s.sched := rfl
@[simp] theorem State.onEng_bh (e : Nat) (f : Engine → Engine) : (s.onEng e f).bh = s.bh := rfl
@[simp] theorem State.onEng_xbl (e : Nat) (f : Engine → Engine) : (s.onEng e f).xbl = s.xbl := rfl
@[simp] theorem State.onEng_grate (e : Nat) (f : Engine → Engine) : (s.onEng e f).grate = s.grate := rfl
@[simp] theorem State.onEng_ember (e : Nat) (f : Engine → Engine) : (s.onEng e f).ember = s.ember := rfl
@[simp] theorem State.onEng_shared (e : Nat) (f : Engine → Engine) : (s.onEng e f).shared = s.shared := rfl
@[simp] theorem State.onEng_dma (e : Nat) (f : Engine → Engine) : (s.onEng e f).dma = s.dma := rfl
@[simp] theorem State.onEng_radioMem (e : Nat) (f : Engine → Engine) : (s.onEng e f).radioMem = s.radioMem := rfl
@[simp] theorem State.onEng_aes (e : Nat) (f : Engine → Engine) : (s.onEng e f).aes = s.aes := rfl
@[simp] theorem State.onEng_ddr (e : Nat) (f : Engine → Engine) : (s.onEng e f).ddr = s.ddr := rfl
@[simp] theorem State.onEng_hport (e : Nat) (f : Engine → Engine) : (s.onEng e f).hport = s.hport := rfl
@[simp] theorem State.onEng_byp (e : Nat) (f : Engine → Engine) : (s.onEng e f).byp = s.byp := rfl
@[simp] theorem State.onEng_srcq (e : Nat) (f : Engine → Engine) : (s.onEng e f).srcq = s.srcq := rfl
@[simp] theorem State.onEng_pipeKeys (e : Nat) (f : Engine → Engine) : (s.onEng e f).pipeKeys = s.pipeKeys := rfl
@[simp] theorem State.onEng_pipeLog (e : Nat) (f : Engine → Engine) : (s.onEng e f).pipeLog = s.pipeLog := rfl
@[simp] theorem State.onEng_perReq (e : Nat) (f : Engine → Engine) : (s.onEng e f).perReq = s.perReq := rfl
@[simp] theorem State.onEng_dram (e : Nat) (f : Engine → Engine) : (s.onEng e f).dram = s.dram := rfl
@[simp] theorem State.onEng_esram (e : Nat) (f : Engine → Engine) : (s.onEng e f).esram = s.esram := rfl
@[simp] theorem State.onEng_rd (e : Nat) (f : Engine → Engine) (adr : Nat) : (s.onEng e f).rd adr = s.rd adr := rfl

/-! ## State.onChan -/

@[simp] theorem State.onChan_part (n : Nat) (f : DmaChan → DmaChan) : (s.onChan n f).part = s.part := rfl
@[simp] theorem State.onChan_straps (n : Nat) (f : DmaChan → DmaChan) : (s.onChan n f).straps = s.straps := rfl
@[simp] theorem State.onChan_pending (n : Nat) (f : DmaChan → DmaChan) : (s.onChan n f).pending = s.pending := rfl
@[simp] theorem State.onChan_resp (n : Nat) (f : DmaChan → DmaChan) : (s.onChan n f).resp = s.resp := rfl
@[simp] theorem State.onChan_outbox (n : Nat) (f : DmaChan → DmaChan) : (s.onChan n f).outbox = s.outbox := rfl
@[simp] theorem State.onChan_fresh (n : Nat) (f : DmaChan → DmaChan) : (s.onChan n f).fresh = s.fresh := rfl
@[simp] theorem State.onChan_mono (n : Nat) (f : DmaChan → DmaChan) : (s.onChan n f).mono = s.mono := rfl
@[simp] theorem State.onChan_regs (n : Nat) (f : DmaChan → DmaChan) : (s.onChan n f).regs = s.regs := rfl
@[simp] theorem State.onChan_tags (n : Nat) (f : DmaChan → DmaChan) : (s.onChan n f).tags = s.tags := rfl
@[simp] theorem State.onChan_txu (n : Nat) (f : DmaChan → DmaChan) : (s.onChan n f).txu = s.txu := rfl
@[simp] theorem State.onChan_logs (n : Nat) (f : DmaChan → DmaChan) : (s.onChan n f).logs = s.logs := rfl
@[simp] theorem State.onChan_msix (n : Nat) (f : DmaChan → DmaChan) : (s.onChan n f).msix = s.msix := rfl
@[simp] theorem State.onChan_time (n : Nat) (f : DmaChan → DmaChan) : (s.onChan n f).time = s.time := rfl
@[simp] theorem State.onChan_power (n : Nat) (f : DmaChan → DmaChan) : (s.onChan n f).power = s.power := rfl
@[simp] theorem State.onChan_actq (n : Nat) (f : DmaChan → DmaChan) : (s.onChan n f).actq = s.actq := rfl
@[simp] theorem State.onChan_lamp (n : Nat) (f : DmaChan → DmaChan) : (s.onChan n f).lamp = s.lamp := rfl
@[simp] theorem State.onChan_sub (n : Nat) (f : DmaChan → DmaChan) : (s.onChan n f).sub = s.sub := rfl
@[simp] theorem State.onChan_mesh (n : Nat) (f : DmaChan → DmaChan) : (s.onChan n f).mesh = s.mesh := rfl
@[simp] theorem State.onChan_acc (n : Nat) (f : DmaChan → DmaChan) : (s.onChan n f).acc = s.acc := rfl
@[simp] theorem State.onChan_qm (n : Nat) (f : DmaChan → DmaChan) : (s.onChan n f).qm = s.qm := rfl
@[simp] theorem State.onChan_fwd (n : Nat) (f : DmaChan → DmaChan) : (s.onChan n f).fwd = s.fwd := rfl
@[simp] theorem State.onChan_sched (n : Nat) (f : DmaChan → DmaChan) : (s.onChan n f).sched = s.sched := rfl
@[simp] theorem State.onChan_bh (n : Nat) (f : DmaChan → DmaChan) : (s.onChan n f).bh = s.bh := rfl
@[simp] theorem State.onChan_xbl (n : Nat) (f : DmaChan → DmaChan) : (s.onChan n f).xbl = s.xbl := rfl
@[simp] theorem State.onChan_engines (n : Nat) (f : DmaChan → DmaChan) : (s.onChan n f).engines = s.engines := rfl
@[simp] theorem State.onChan_grate (n : Nat) (f : DmaChan → DmaChan) : (s.onChan n f).grate = s.grate := rfl
@[simp] theorem State.onChan_ember (n : Nat) (f : DmaChan → DmaChan) : (s.onChan n f).ember = s.ember := rfl
@[simp] theorem State.onChan_shared (n : Nat) (f : DmaChan → DmaChan) : (s.onChan n f).shared = s.shared := rfl
@[simp] theorem State.onChan_radioMem (n : Nat) (f : DmaChan → DmaChan) : (s.onChan n f).radioMem = s.radioMem := rfl
@[simp] theorem State.onChan_aes (n : Nat) (f : DmaChan → DmaChan) : (s.onChan n f).aes = s.aes := rfl
@[simp] theorem State.onChan_ddr (n : Nat) (f : DmaChan → DmaChan) : (s.onChan n f).ddr = s.ddr := rfl
@[simp] theorem State.onChan_hport (n : Nat) (f : DmaChan → DmaChan) : (s.onChan n f).hport = s.hport := rfl
@[simp] theorem State.onChan_byp (n : Nat) (f : DmaChan → DmaChan) : (s.onChan n f).byp = s.byp := rfl
@[simp] theorem State.onChan_srcq (n : Nat) (f : DmaChan → DmaChan) : (s.onChan n f).srcq = s.srcq := rfl
@[simp] theorem State.onChan_pipeKeys (n : Nat) (f : DmaChan → DmaChan) : (s.onChan n f).pipeKeys = s.pipeKeys := rfl
@[simp] theorem State.onChan_pipeLog (n : Nat) (f : DmaChan → DmaChan) : (s.onChan n f).pipeLog = s.pipeLog := rfl
@[simp] theorem State.onChan_perReq (n : Nat) (f : DmaChan → DmaChan) : (s.onChan n f).perReq = s.perReq := rfl
@[simp] theorem State.onChan_dram (n : Nat) (f : DmaChan → DmaChan) : (s.onChan n f).dram = s.dram := rfl
@[simp] theorem State.onChan_esram (n : Nat) (f : DmaChan → DmaChan) : (s.onChan n f).esram = s.esram := rfl
@[simp] theorem State.onChan_rd (n : Nat) (f : DmaChan → DmaChan) (adr : Nat) : (s.onChan n f).rd adr = s.rd adr := rfl

/-! ## State.onDdr -/

@[simp] theorem State.onDdr_part (f : DramCtl → DramCtl) : (s.onDdr f).part = s.part := rfl
@[simp] theorem State.onDdr_straps (f : DramCtl → DramCtl) : (s.onDdr f).straps = s.straps := rfl
@[simp] theorem State.onDdr_pending (f : DramCtl → DramCtl) : (s.onDdr f).pending = s.pending := rfl
@[simp] theorem State.onDdr_resp (f : DramCtl → DramCtl) : (s.onDdr f).resp = s.resp := rfl
@[simp] theorem State.onDdr_outbox (f : DramCtl → DramCtl) : (s.onDdr f).outbox = s.outbox := rfl
@[simp] theorem State.onDdr_fresh (f : DramCtl → DramCtl) : (s.onDdr f).fresh = s.fresh := rfl
@[simp] theorem State.onDdr_mono (f : DramCtl → DramCtl) : (s.onDdr f).mono = s.mono := rfl
@[simp] theorem State.onDdr_regs (f : DramCtl → DramCtl) : (s.onDdr f).regs = s.regs := rfl
@[simp] theorem State.onDdr_tags (f : DramCtl → DramCtl) : (s.onDdr f).tags = s.tags := rfl
@[simp] theorem State.onDdr_txu (f : DramCtl → DramCtl) : (s.onDdr f).txu = s.txu := rfl
@[simp] theorem State.onDdr_logs (f : DramCtl → DramCtl) : (s.onDdr f).logs = s.logs := rfl
@[simp] theorem State.onDdr_msix (f : DramCtl → DramCtl) : (s.onDdr f).msix = s.msix := rfl
@[simp] theorem State.onDdr_time (f : DramCtl → DramCtl) : (s.onDdr f).time = s.time := rfl
@[simp] theorem State.onDdr_power (f : DramCtl → DramCtl) : (s.onDdr f).power = s.power := rfl
@[simp] theorem State.onDdr_actq (f : DramCtl → DramCtl) : (s.onDdr f).actq = s.actq := rfl
@[simp] theorem State.onDdr_lamp (f : DramCtl → DramCtl) : (s.onDdr f).lamp = s.lamp := rfl
@[simp] theorem State.onDdr_sub (f : DramCtl → DramCtl) : (s.onDdr f).sub = s.sub := rfl
@[simp] theorem State.onDdr_mesh (f : DramCtl → DramCtl) : (s.onDdr f).mesh = s.mesh := rfl
@[simp] theorem State.onDdr_acc (f : DramCtl → DramCtl) : (s.onDdr f).acc = s.acc := rfl
@[simp] theorem State.onDdr_qm (f : DramCtl → DramCtl) : (s.onDdr f).qm = s.qm := rfl
@[simp] theorem State.onDdr_fwd (f : DramCtl → DramCtl) : (s.onDdr f).fwd = s.fwd := rfl
@[simp] theorem State.onDdr_sched (f : DramCtl → DramCtl) : (s.onDdr f).sched = s.sched := rfl
@[simp] theorem State.onDdr_bh (f : DramCtl → DramCtl) : (s.onDdr f).bh = s.bh := rfl
@[simp] theorem State.onDdr_xbl (f : DramCtl → DramCtl) : (s.onDdr f).xbl = s.xbl := rfl
@[simp] theorem State.onDdr_engines (f : DramCtl → DramCtl) : (s.onDdr f).engines = s.engines := rfl
@[simp] theorem State.onDdr_grate (f : DramCtl → DramCtl) : (s.onDdr f).grate = s.grate := rfl
@[simp] theorem State.onDdr_ember (f : DramCtl → DramCtl) : (s.onDdr f).ember = s.ember := rfl
@[simp] theorem State.onDdr_shared (f : DramCtl → DramCtl) : (s.onDdr f).shared = s.shared := rfl
@[simp] theorem State.onDdr_dma (f : DramCtl → DramCtl) : (s.onDdr f).dma = s.dma := rfl
@[simp] theorem State.onDdr_radioMem (f : DramCtl → DramCtl) : (s.onDdr f).radioMem = s.radioMem := rfl
@[simp] theorem State.onDdr_aes (f : DramCtl → DramCtl) : (s.onDdr f).aes = s.aes := rfl
@[simp] theorem State.onDdr_hport (f : DramCtl → DramCtl) : (s.onDdr f).hport = s.hport := rfl
@[simp] theorem State.onDdr_byp (f : DramCtl → DramCtl) : (s.onDdr f).byp = s.byp := rfl
@[simp] theorem State.onDdr_srcq (f : DramCtl → DramCtl) : (s.onDdr f).srcq = s.srcq := rfl
@[simp] theorem State.onDdr_pipeKeys (f : DramCtl → DramCtl) : (s.onDdr f).pipeKeys = s.pipeKeys := rfl
@[simp] theorem State.onDdr_pipeLog (f : DramCtl → DramCtl) : (s.onDdr f).pipeLog = s.pipeLog := rfl
@[simp] theorem State.onDdr_perReq (f : DramCtl → DramCtl) : (s.onDdr f).perReq = s.perReq := rfl
@[simp] theorem State.onDdr_dram (f : DramCtl → DramCtl) : (s.onDdr f).dram = s.dram := rfl
@[simp] theorem State.onDdr_esram (f : DramCtl → DramCtl) : (s.onDdr f).esram = s.esram := rfl
@[simp] theorem State.onDdr_rd (f : DramCtl → DramCtl) (adr : Nat) : (s.onDdr f).rd adr = s.rd adr := rfl

/-! ## State.setAesSlot -/

@[simp] theorem State.setAesSlot_part (n : Nat) (x : AesSlot) : (s.setAesSlot n x).part = s.part := rfl
@[simp] theorem State.setAesSlot_straps (n : Nat) (x : AesSlot) : (s.setAesSlot n x).straps = s.straps := rfl
@[simp] theorem State.setAesSlot_pending (n : Nat) (x : AesSlot) : (s.setAesSlot n x).pending = s.pending := rfl
@[simp] theorem State.setAesSlot_resp (n : Nat) (x : AesSlot) : (s.setAesSlot n x).resp = s.resp := rfl
@[simp] theorem State.setAesSlot_outbox (n : Nat) (x : AesSlot) : (s.setAesSlot n x).outbox = s.outbox := rfl
@[simp] theorem State.setAesSlot_fresh (n : Nat) (x : AesSlot) : (s.setAesSlot n x).fresh = s.fresh := rfl
@[simp] theorem State.setAesSlot_mono (n : Nat) (x : AesSlot) : (s.setAesSlot n x).mono = s.mono := rfl
@[simp] theorem State.setAesSlot_regs (n : Nat) (x : AesSlot) : (s.setAesSlot n x).regs = s.regs := rfl
@[simp] theorem State.setAesSlot_tags (n : Nat) (x : AesSlot) : (s.setAesSlot n x).tags = s.tags := rfl
@[simp] theorem State.setAesSlot_txu (n : Nat) (x : AesSlot) : (s.setAesSlot n x).txu = s.txu := rfl
@[simp] theorem State.setAesSlot_logs (n : Nat) (x : AesSlot) : (s.setAesSlot n x).logs = s.logs := rfl
@[simp] theorem State.setAesSlot_msix (n : Nat) (x : AesSlot) : (s.setAesSlot n x).msix = s.msix := rfl
@[simp] theorem State.setAesSlot_time (n : Nat) (x : AesSlot) : (s.setAesSlot n x).time = s.time := rfl
@[simp] theorem State.setAesSlot_power (n : Nat) (x : AesSlot) : (s.setAesSlot n x).power = s.power := rfl
@[simp] theorem State.setAesSlot_actq (n : Nat) (x : AesSlot) : (s.setAesSlot n x).actq = s.actq := rfl
@[simp] theorem State.setAesSlot_lamp (n : Nat) (x : AesSlot) : (s.setAesSlot n x).lamp = s.lamp := rfl
@[simp] theorem State.setAesSlot_sub (n : Nat) (x : AesSlot) : (s.setAesSlot n x).sub = s.sub := rfl
@[simp] theorem State.setAesSlot_mesh (n : Nat) (x : AesSlot) : (s.setAesSlot n x).mesh = s.mesh := rfl
@[simp] theorem State.setAesSlot_acc (n : Nat) (x : AesSlot) : (s.setAesSlot n x).acc = s.acc := rfl
@[simp] theorem State.setAesSlot_qm (n : Nat) (x : AesSlot) : (s.setAesSlot n x).qm = s.qm := rfl
@[simp] theorem State.setAesSlot_fwd (n : Nat) (x : AesSlot) : (s.setAesSlot n x).fwd = s.fwd := rfl
@[simp] theorem State.setAesSlot_sched (n : Nat) (x : AesSlot) : (s.setAesSlot n x).sched = s.sched := rfl
@[simp] theorem State.setAesSlot_bh (n : Nat) (x : AesSlot) : (s.setAesSlot n x).bh = s.bh := rfl
@[simp] theorem State.setAesSlot_xbl (n : Nat) (x : AesSlot) : (s.setAesSlot n x).xbl = s.xbl := rfl
@[simp] theorem State.setAesSlot_engines (n : Nat) (x : AesSlot) : (s.setAesSlot n x).engines = s.engines := rfl
@[simp] theorem State.setAesSlot_grate (n : Nat) (x : AesSlot) : (s.setAesSlot n x).grate = s.grate := rfl
@[simp] theorem State.setAesSlot_ember (n : Nat) (x : AesSlot) : (s.setAesSlot n x).ember = s.ember := rfl
@[simp] theorem State.setAesSlot_shared (n : Nat) (x : AesSlot) : (s.setAesSlot n x).shared = s.shared := rfl
@[simp] theorem State.setAesSlot_dma (n : Nat) (x : AesSlot) : (s.setAesSlot n x).dma = s.dma := rfl
@[simp] theorem State.setAesSlot_radioMem (n : Nat) (x : AesSlot) : (s.setAesSlot n x).radioMem = s.radioMem := rfl
@[simp] theorem State.setAesSlot_ddr (n : Nat) (x : AesSlot) : (s.setAesSlot n x).ddr = s.ddr := rfl
@[simp] theorem State.setAesSlot_hport (n : Nat) (x : AesSlot) : (s.setAesSlot n x).hport = s.hport := rfl
@[simp] theorem State.setAesSlot_byp (n : Nat) (x : AesSlot) : (s.setAesSlot n x).byp = s.byp := rfl
@[simp] theorem State.setAesSlot_srcq (n : Nat) (x : AesSlot) : (s.setAesSlot n x).srcq = s.srcq := rfl
@[simp] theorem State.setAesSlot_pipeKeys (n : Nat) (x : AesSlot) : (s.setAesSlot n x).pipeKeys = s.pipeKeys := rfl
@[simp] theorem State.setAesSlot_pipeLog (n : Nat) (x : AesSlot) : (s.setAesSlot n x).pipeLog = s.pipeLog := rfl
@[simp] theorem State.setAesSlot_perReq (n : Nat) (x : AesSlot) : (s.setAesSlot n x).perReq = s.perReq := rfl
@[simp] theorem State.setAesSlot_dram (n : Nat) (x : AesSlot) : (s.setAesSlot n x).dram = s.dram := rfl
@[simp] theorem State.setAesSlot_esram (n : Nat) (x : AesSlot) : (s.setAesSlot n x).esram = s.esram := rfl
@[simp] theorem State.setAesSlot_rd (n : Nat) (x : AesSlot) (adr : Nat) : (s.setAesSlot n x).rd adr = s.rd adr := rfl

/-! ## State.setAesCtx -/

@[simp] theorem State.setAesCtx_part (k : Nat) (x : AesCtx) : (s.setAesCtx k x).part = s.part := rfl
@[simp] theorem State.setAesCtx_straps (k : Nat) (x : AesCtx) : (s.setAesCtx k x).straps = s.straps := rfl
@[simp] theorem State.setAesCtx_pending (k : Nat) (x : AesCtx) : (s.setAesCtx k x).pending = s.pending := rfl
@[simp] theorem State.setAesCtx_resp (k : Nat) (x : AesCtx) : (s.setAesCtx k x).resp = s.resp := rfl
@[simp] theorem State.setAesCtx_outbox (k : Nat) (x : AesCtx) : (s.setAesCtx k x).outbox = s.outbox := rfl
@[simp] theorem State.setAesCtx_fresh (k : Nat) (x : AesCtx) : (s.setAesCtx k x).fresh = s.fresh := rfl
@[simp] theorem State.setAesCtx_mono (k : Nat) (x : AesCtx) : (s.setAesCtx k x).mono = s.mono := rfl
@[simp] theorem State.setAesCtx_regs (k : Nat) (x : AesCtx) : (s.setAesCtx k x).regs = s.regs := rfl
@[simp] theorem State.setAesCtx_tags (k : Nat) (x : AesCtx) : (s.setAesCtx k x).tags = s.tags := rfl
@[simp] theorem State.setAesCtx_txu (k : Nat) (x : AesCtx) : (s.setAesCtx k x).txu = s.txu := rfl
@[simp] theorem State.setAesCtx_logs (k : Nat) (x : AesCtx) : (s.setAesCtx k x).logs = s.logs := rfl
@[simp] theorem State.setAesCtx_msix (k : Nat) (x : AesCtx) : (s.setAesCtx k x).msix = s.msix := rfl
@[simp] theorem State.setAesCtx_time (k : Nat) (x : AesCtx) : (s.setAesCtx k x).time = s.time := rfl
@[simp] theorem State.setAesCtx_power (k : Nat) (x : AesCtx) : (s.setAesCtx k x).power = s.power := rfl
@[simp] theorem State.setAesCtx_actq (k : Nat) (x : AesCtx) : (s.setAesCtx k x).actq = s.actq := rfl
@[simp] theorem State.setAesCtx_lamp (k : Nat) (x : AesCtx) : (s.setAesCtx k x).lamp = s.lamp := rfl
@[simp] theorem State.setAesCtx_sub (k : Nat) (x : AesCtx) : (s.setAesCtx k x).sub = s.sub := rfl
@[simp] theorem State.setAesCtx_mesh (k : Nat) (x : AesCtx) : (s.setAesCtx k x).mesh = s.mesh := rfl
@[simp] theorem State.setAesCtx_acc (k : Nat) (x : AesCtx) : (s.setAesCtx k x).acc = s.acc := rfl
@[simp] theorem State.setAesCtx_qm (k : Nat) (x : AesCtx) : (s.setAesCtx k x).qm = s.qm := rfl
@[simp] theorem State.setAesCtx_fwd (k : Nat) (x : AesCtx) : (s.setAesCtx k x).fwd = s.fwd := rfl
@[simp] theorem State.setAesCtx_sched (k : Nat) (x : AesCtx) : (s.setAesCtx k x).sched = s.sched := rfl
@[simp] theorem State.setAesCtx_bh (k : Nat) (x : AesCtx) : (s.setAesCtx k x).bh = s.bh := rfl
@[simp] theorem State.setAesCtx_xbl (k : Nat) (x : AesCtx) : (s.setAesCtx k x).xbl = s.xbl := rfl
@[simp] theorem State.setAesCtx_engines (k : Nat) (x : AesCtx) : (s.setAesCtx k x).engines = s.engines := rfl
@[simp] theorem State.setAesCtx_grate (k : Nat) (x : AesCtx) : (s.setAesCtx k x).grate = s.grate := rfl
@[simp] theorem State.setAesCtx_ember (k : Nat) (x : AesCtx) : (s.setAesCtx k x).ember = s.ember := rfl
@[simp] theorem State.setAesCtx_shared (k : Nat) (x : AesCtx) : (s.setAesCtx k x).shared = s.shared := rfl
@[simp] theorem State.setAesCtx_dma (k : Nat) (x : AesCtx) : (s.setAesCtx k x).dma = s.dma := rfl
@[simp] theorem State.setAesCtx_radioMem (k : Nat) (x : AesCtx) : (s.setAesCtx k x).radioMem = s.radioMem := rfl
@[simp] theorem State.setAesCtx_ddr (k : Nat) (x : AesCtx) : (s.setAesCtx k x).ddr = s.ddr := rfl
@[simp] theorem State.setAesCtx_hport (k : Nat) (x : AesCtx) : (s.setAesCtx k x).hport = s.hport := rfl
@[simp] theorem State.setAesCtx_byp (k : Nat) (x : AesCtx) : (s.setAesCtx k x).byp = s.byp := rfl
@[simp] theorem State.setAesCtx_srcq (k : Nat) (x : AesCtx) : (s.setAesCtx k x).srcq = s.srcq := rfl
@[simp] theorem State.setAesCtx_pipeKeys (k : Nat) (x : AesCtx) : (s.setAesCtx k x).pipeKeys = s.pipeKeys := rfl
@[simp] theorem State.setAesCtx_pipeLog (k : Nat) (x : AesCtx) : (s.setAesCtx k x).pipeLog = s.pipeLog := rfl
@[simp] theorem State.setAesCtx_perReq (k : Nat) (x : AesCtx) : (s.setAesCtx k x).perReq = s.perReq := rfl
@[simp] theorem State.setAesCtx_dram (k : Nat) (x : AesCtx) : (s.setAesCtx k x).dram = s.dram := rfl
@[simp] theorem State.setAesCtx_esram (k : Nat) (x : AesCtx) : (s.setAesCtx k x).esram = s.esram := rfl
@[simp] theorem State.setAesCtx_rd (k : Nat) (x : AesCtx) (adr : Nat) : (s.setAesCtx k x).rd adr = s.rd adr := rfl

end Sys2Proof.Machine
end

