-- ==== Sys2Proof/Laws/Ops.lean ====
section
/-!
SUPPORT. What each shared operation can do, said once: register reads after writes; the records of interrupts, events, node health and
errors, and the registers they leave; writes of command registers that reach their page.
-/
namespace Sys2Proof.Machine

variable (s t : State)

/-! ## Reads after writes -/

@[simp] theorem State.resetOf_wr (a x : Nat) (v : Word) : (s.wr a v).resetOf x = s.resetOf x := rfl

/-- A register that is written reads the word written, and every other reads as before. -/
theorem State.rd_wr (a x : Nat) (v : Word) : (s.wr a v).rd x = if x = a then v else s.rd x := by
  show (Sparse.find (Sparse.put (s.resetOf a) s.regs a v) x).getD (s.resetOf x) = _
  by_cases h : x = a
  · subst h; rw [Sparse.find_put]; simp
  · have := Sparse.find_put (s.resetOf a) v s.regs a x
    rw [if_neg h] at this ⊢
    unfold Sparse.put at this ⊢
    show _ = (Sparse.find s.regs x).getD (s.resetOf x)
    split
    · rw [Sparse.find_erase, if_neg h]
    · rw [Sparse.find_insert, if_neg h]

@[simp] theorem State.rd_wr_same (a : Nat) (v : Word) : (s.wr a v).rd a = v := by simp [State.rd_wr]

theorem State.rd_wr_other (a x : Nat) (v : Word) (h : x ≠ a) : (s.wr a v).rd x = s.rd x := by simp [State.rd_wr, h]

theorem State.rd_setFld (a hi lo v x : Nat) : (s.setFld a hi lo v).rd x = if x = a then putFld (s.rd a) hi lo v else s.rd x :=
  s.rd_wr a x _

theorem State.rd_setBit (a n x : Nat) (b : Bool) : (s.setBit a n b).rd x = if x = a then putBit (s.rd a) n b else s.rd x :=
  s.rd_wr a x _

theorem State.rd_bump (a hi lo n x : Nat) :
    (s.bump a hi lo n).rd x = if x = a then putFld (s.rd a) hi lo (satAdd (hi + 1 - lo) (s.fld a hi lo) n) else s.rd x :=
  s.rd_wr a x _

theorem State.rd_count (a n x : Nat) :
    (s.count a n).rd x = if x = a then putFld (s.rd a) 31 0 (satAdd 32 (s.fld a 31 0) n) else s.rd x := s.rd_wr a x _

/-- A write keeps the register file's addresses rising. -/
theorem State.wr_sorted (a : Nat) (v : Word) (h : Sparse.sorted s.regs = true) : Sparse.sorted (s.wr a v).regs = true :=
  Sparse.put_sorted _ v s.regs a h

/-- A register's reset value depends on the state through the roles of the radio dies alone. -/
theorem State.resetOf_congr (a : Nat) (h : t.power.role = s.power.role) : t.resetOf a = s.resetOf a := by
  simp only [State.resetOf, State.spec, State.pageMap, h]

/-- What a register reads depends on the register file and the roles alone. -/
theorem State.rd_congr (a : Nat) (h1 : t.regs = s.regs) (h2 : t.power.role = s.power.role) : t.rd a = s.rd a := by
  simp only [State.rd, h1, State.resetOf_congr s t a h2]

/-! ## Interrupts (R40, R50) -/

/-- What signalling can change: the pending bits of MSI-X, and what has left the part. -/
theorem State.signal_cases (p : Nat) : ∃ m o, s.signal t p = { t with msix := m, outbox := o } := by
  unfold State.signal
  split
  · unfold State.fireVector
    split
    · split
      · exact ⟨_, _, rfl⟩
      · exact ⟨_, _, rfl⟩
    · exact ⟨_, _, rfl⟩
  · exact ⟨_, _, rfl⟩

@[simp] theorem State.signal_rd (p x : Nat) : (s.signal t p).rd x = t.rd x := by
  obtain ⟨m, o, h⟩ := s.signal_cases t p; rw [h]; rfl

/-- What raising events can change. -/
theorem State.raise_cases (p n : Nat) :
    ∃ m o, s.raise p n = { s.wr (HDR.intRaw p) (s.rd (HDR.intRaw p) ||| BitVec.ofNat 32 (2 ^ n)) with msix := m, outbox := o } :=
  s.signal_cases _ p

theorem State.rd_raise (p n x : Nat) :
    (s.raise p n).rd x = if x = HDR.intRaw p then s.rd x ||| BitVec.ofNat 32 (2 ^ n) else s.rd x := by
  show (s.signal _ p).rd x = _
  rw [State.signal_rd, State.rd_wr]
  split <;> simp_all

theorem State.rd_raiseBits (p x : Nat) (w : Word) :
    (s.raiseBits p w).rd x = if x = HDR.intRaw p then s.rd x ||| w else s.rd x := by
  show (s.signal _ p).rd x = _
  rw [State.signal_rd, State.rd_wr]
  split <;> simp_all

/-! ## Events, health and errors (R40, R42, R486 to R488) -/

/-- `t` differs from `s` in registers and in the records alone: the logs, MSI-X, and what has left the part. -/
def State.recordsOnly (s t : State) : Prop := ∃ l m o r, t = { s with logs := l, msix := m, outbox := o, regs := r }

theorem State.recordsOnly_refl : s.recordsOnly s := ⟨_, _, _, _, rfl⟩

theorem State.recordsOnly_trans (u : State) (h : s.recordsOnly t) (h2 : t.recordsOnly u) : s.recordsOnly u := by
  obtain ⟨l, m, o, r, rfl⟩ := h
  obtain ⟨l2, m2, o2, r2, rfl⟩ := h2
  exact ⟨l2, m2, o2, r2, rfl⟩

theorem State.recordsOnly_wr (a : Nat) (v : Word) (h : s.recordsOnly t) : s.recordsOnly (t.wr a v) :=
  s.recordsOnly_trans t _ h ⟨t.logs, t.msix, t.outbox, _, rfl⟩

theorem State.recordsOnly_setBit (a n : Nat) (b : Bool) (h : s.recordsOnly t) : s.recordsOnly (t.setBit a n b) := s.recordsOnly_wr t _ _ h

theorem State.recordsOnly_setFld (a hi lo v : Nat) (h : s.recordsOnly t) : s.recordsOnly (t.setFld a hi lo v) := s.recordsOnly_wr t _ _ h

theorem State.recordsOnly_bump (a hi lo n : Nat) (h : s.recordsOnly t) : s.recordsOnly (t.bump a hi lo n) := s.recordsOnly_wr t _ _ h

theorem State.recordsOnly_count (a n : Nat) (h : s.recordsOnly t) : s.recordsOnly (t.count a n) := s.recordsOnly_wr t _ _ h

theorem State.recordsOnly_raise (p n : Nat) (h : s.recordsOnly t) : s.recordsOnly (t.raise p n) := by
  obtain ⟨m, o, e⟩ := t.raise_cases p n
  rw [e]
  exact s.recordsOnly_trans t _ h ⟨t.logs, m, o, _, rfl⟩

theorem State.recordsOnly_logs (l : Logs) (h : s.recordsOnly t) : s.recordsOnly { t with logs := l } :=
  s.recordsOnly_trans t _ h ⟨l, t.msix, t.outbox, t.regs, rfl⟩

/-- Entering an event record changes records and registers alone. -/
theorem State.recordsOnly_logEvent (p kind code : Nat) (info : Word) (h : s.recordsOnly t) : s.recordsOnly (t.logEvent p kind code info) := by
  unfold State.logEvent
  dsimp only
  split
  · split
    · split
      · exact s.recordsOnly_raise _ _ _ (s.recordsOnly_setBit _ _ _ _ (s.recordsOnly_count _ _ _ (s.recordsOnly_logs t _ h)))
      · exact s.recordsOnly_setBit _ _ _ _ (s.recordsOnly_count _ _ _ (s.recordsOnly_logs t _ h))
    · exact s.recordsOnly_logs t _ h
  · split
    · split
      · exact s.recordsOnly_count _ _ _ (s.recordsOnly_logs t _ h)
      · exact s.recordsOnly_logs t _ h
    · exact h

/-- Entering a record leaves every register outside Ashpit's counters. -/
theorem State.rd_logEvent (p kind code : Nat) (info : Word) (x : Nat) (h : x ∉ ashpitRegs) :
    (s.logEvent p kind code info).rd x = s.rd x := by
  simp only [ashpitRegs, List.mem_cons, List.not_mem_nil, or_false, not_or] at h
  obtain ⟨h1, h2, h3, h4⟩ := h
  have base : ∀ (l : Logs), ({ s with logs := l } : State).rd x = s.rd x := fun _ => rfl
  unfold State.logEvent
  dsimp only
  split
  · split
    · split
      · rw [State.rd_raise, if_neg h4, State.rd_setBit, if_neg h3, State.rd_count, if_neg h1]; rfl
      · rw [State.rd_setBit, if_neg h3, State.rd_count, if_neg h1]; rfl
    · rfl
  · split
    · split
      · rw [State.rd_count, if_neg h2]; rfl
      · rfl
    · rfl

/-- A change of health changes records and registers alone. -/
theorem State.recordsOnly_healthStep (u : State) (h : s.recordsOnly t) : s.recordsOnly (u.healthStep t) := by
  unfold State.healthStep
  split
  · exact s.recordsOnly_raise _ _ _ (s.recordsOnly_wr _ _ _ h)
  · exact h

theorem State.rd_healthStep (x : Nat) (h : x ∉ ashpitRegs) : (s.healthStep t).rd x = t.rd x := by
  simp only [ashpitRegs, List.mem_cons, List.not_mem_nil, or_false, not_or] at h
  obtain ⟨h1, h2, h3, h4⟩ := h
  unfold State.healthStep
  split
  · rw [State.rd_raise, if_neg h4, State.rd_wr_other _ _ _ _ h3]
  · rfl

/-- Recording an error changes records and registers alone. -/
theorem State.recordsOnly_err (p code : Nat) (info : Word) (h : s.recordsOnly t) : s.recordsOnly (t.err p code info) :=
  s.recordsOnly_healthStep _ _ (s.recordsOnly_logEvent _ _ _ _ _
    (s.recordsOnly_raise _ _ _ (s.recordsOnly_wr _ _ _ (s.recordsOnly_bump _ _ _ _ _ (s.recordsOnly_setFld t _ _ _ _ h)))))

/-- Recording an error leaves every register but the page's ERR_CODE, ERR_INFO and INT_RAW, and Ashpit's counters. -/
theorem State.rd_err (p code : Nat) (info : Word) (x : Nat) (h : x ∉ ashpitRegs)
    (hp : x ≠ HDR.errCode p ∧ x ≠ HDR.errInfo p ∧ x ≠ HDR.intRaw p) : (s.err p code info).rd x = s.rd x := by
  unfold State.err
  rw [State.rd_healthStep _ _ _ h, State.rd_logEvent _ _ _ _ _ _ h, State.rd_raise, if_neg hp.2.2, State.rd_wr_other _ _ _ _ hp.2.1,
    State.rd_bump, if_neg hp.1, State.rd_setFld, if_neg hp.1]

/-- An error's code and context stand in the page's registers, unless the page is Ashpit's own. -/
theorem State.rd_err_info (p code : Nat) (info : Word) (h : HDR.errInfo p ∉ ashpitRegs) : (s.err p code info).rd (HDR.errInfo p) = info := by
  have h1 : HDR.errInfo p ≠ HDR.intRaw p := by unfold HDR.errInfo HDR.intRaw; omega
  unfold State.err
  rw [State.rd_healthStep _ _ _ h, State.rd_logEvent _ _ _ _ _ _ h, State.rd_raise, if_neg h1, State.rd_wr_same]

theorem State.rd_err_code (p code : Nat) (info : Word) (h : HDR.errCode p ∉ ashpitRegs) (hc : code < 0x10000) :
    (s.err p code info).fld (HDR.errCode p) 15 0 = code := by
  have h1 : HDR.errCode p ≠ HDR.intRaw p := by unfold HDR.errCode HDR.intRaw; omega
  have h2 : HDR.errCode p ≠ HDR.errInfo p := by unfold HDR.errCode HDR.errInfo; omega
  unfold State.err
  simp only [State.fld]
  rw [State.rd_healthStep _ _ _ h, State.rd_logEvent _ _ _ _ _ _ h, State.rd_raise, if_neg h1, State.rd_wr_other _ _ _ _ h2,
    State.rd_bump, if_pos rfl, State.rd_setFld, if_pos rfl, bitsOf_putFld_below _ _ _ _ _ _ (by omega) (by omega) (by omega) (by omega),
    bitsOf_putFld _ _ _ _ (by omega) (by omega)]
  exact Nat.mod_eq_of_lt hc

theorem State.recordsOnly_guardFail (a : Nat) (f g : Bool) (h : s.recordsOnly t) : s.recordsOnly (t.guardFail a f g) :=
  s.recordsOnly_logEvent _ _ _ _ _ (s.recordsOnly_raise _ _ _ (s.recordsOnly_setBit _ _ _ _ (s.recordsOnly_setBit _ _ _ _
    (s.recordsOnly_setBit _ _ _ _ (s.recordsOnly_bump _ _ _ _ _ (s.recordsOnly_setFld t _ _ _ _ h))))))

theorem State.recordsOnly_accessOff (a : Nat) (h : s.recordsOnly t) : s.recordsOnly (t.accessOff a) := by
  unfold State.accessOff
  split
  · exact s.recordsOnly_err t _ _ _ h
  · exact h

theorem State.recordsOnly_wrs (l : List (Nat × Word)) (h : s.recordsOnly t) : s.recordsOnly (t.wrs l) := by
  induction l generalizing t with
  | nil => exact h
  | cons x l ih => exact ih _ (s.recordsOnly_wr t _ _ h)

theorem State.recordsOnly_clampRec (a : Nat) (c : ClampRec) (h : s.recordsOnly t) : s.recordsOnly (t.clampRec a c) := by
  unfold State.clampRec
  dsimp only
  split
  · exact s.recordsOnly_logs _ _ (s.recordsOnly_raise _ _ _ (s.recordsOnly_count _ _ _ (s.recordsOnly_wrs _ _ (s.recordsOnly_wr t _ _ h))))
  · exact s.recordsOnly_setBit _ _ _ _ (s.recordsOnly_count _ _ _ (s.recordsOnly_raise _ _ _ (s.recordsOnly_count _ _ _
      (s.recordsOnly_wrs _ _ (s.recordsOnly_wr t _ _ h)))))

theorem State.recordsOnly_reject (a : Nat) (c : ClampRec) (code : Nat) (h : s.recordsOnly t) : s.recordsOnly (t.reject a c code) :=
  s.recordsOnly_err _ _ _ _ (s.recordsOnly_clampRec t _ _ h)

/-! ## Command registers -/

/-- A write of a command register that is direct has the command's effect alone. -/
theorem State.cmdWrite_direct (r : Requester) (a : Nat) (act : State → State) (h : s.direct r a = true) : s.cmdWrite r a act = act s := by
  simp only [State.direct, Bool.and_eq_true, beq_iff_eq] at h
  simp [State.cmdWrite, h.1.1, h.1.2, h.2]

/-- A guarded word whose halves agree has the command's effect. -/
theorem State.guardWrite_direct (r : Requester) (a : Nat) (w : Word) (act : Nat → State → State) (h : s.direct r a = true)
    (hg : guardOk w = true) : s.guardWrite r a w act = act (bitsOf w 15 0) s := by
  simp [State.guardWrite, s.cmdWrite_direct r a _ h, hg]

/-- One whose halves disagree is recorded and has none. -/
theorem State.guardWrite_bad (r : Requester) (a : Nat) (w : Word) (act : Nat → State → State) (h : s.direct r a = true)
    (hg : guardOk w = false) : s.guardWrite r a w act = s.guardFail a false false := by
  simp [State.guardWrite, s.cmdWrite_direct r a _ h, hg]

/-- A guarded word given in two halves, which agree, has the effect of its low half. -/
theorem State.guardWrite_halves (r : Requester) (a : Nat) (hi code : Half) (act : Nat → State → State) (h : s.direct r a = true)
    (hg : guardOk (hi ++ code) = true) : s.guardWrite r a (hi ++ code) act = act code.toNat s := by
  rw [s.guardWrite_direct r a _ act h hg, bitsOf_append]

end Sys2Proof.Machine
end

