-- ==== Sys2Proof/Laws/RegWrite.lean ====
section
/-!
SUPPORT. A direct write of a legal word at a block register that is no command register.
-/
namespace Sys2Proof.Machine

variable (s : State)

/-- A checked write of a legal word stores it. -/
theorem State.checkedWrite_legal (r : Requester) (a : Nat) (g : RegSpec) (w x : Word) (gd : Bool) (h1 : s.stagedAt a = false)
    (h2 : (timeBad (s.fieldsOf a g) (mergeFields (if gd then BitVec.ofNat 32 (s.fld a 15 0) else s.rd a) w (s.fieldsOf a g))).isNone = true)
    (h3 : x = s.legalise s.rd a (s.fieldsOf a g) (mergeFields (if gd then BitVec.ofNat 32 (s.fld a 15 0) else s.rd a) w (s.fieldsOf a g)))
    (h4 : (clampsOf (s.fieldsOf a g) (mergeFields (if gd then BitVec.ofNat 32 (s.fld a 15 0) else s.rd a) w (s.fieldsOf a g)) x false).isEmpty
      = true) :
    s.checkedWrite r a g w gd = s.directStore r a x := by
  rw [Option.isNone_iff_eq_none] at h2
  rw [List.isEmpty_iff] at h4
  subst h3
  unfold State.checkedWrite
  simp only [h2, h4, h1, Bool.false_eq_true, if_false]

/-- A register that takes a word stores it; DIE_ROLE also records what its write cannot change. -/
theorem State.writeReg_takes (r : Requester) (a : Nat) (w x : Word) (h : s.takes r a w x = true) :
    s.writeReg r a w = if a = E1.dieRole then (s.directStore r a x).roleLocked (s.rd a) w else s.directStore r a x := by
  unfold State.takes at h
  cases hg : s.spec a with
  | none => simp [hg] at h
  | some g =>
    simp only [hg, Bool.and_eq_true, Bool.or_eq_true, Bool.not_eq_true', decide_eq_true_eq, beq_iff_eq, State.direct, Option.isNone_iff_eq_none]
      at h
    obtain ⟨⟨⟨⟨⟨⟨⟨⟨hr, hp⟩, ht⟩, ho⟩, hc⟩, hm⟩, hs⟩, hw⟩, ⟨⟨⟨ha, hb⟩, hx⟩, hl⟩⟩ := h
    have ha1 : ¬ 0x2400000 ≤ a := by
      intro hq; simp [State.spec, hq] at hg
    have ha2 : ¬ 0x3000000 ≤ a := by omega
    have ho1 : a % 0x10000 ≠ 0x40 := by omega
    have ho2 : ¬ a % 0x10000 < 0x100 := by omega
    have hnt : s.nonTrans r a = s := by simp [State.nonTrans, ht]
    simp only [State.writeReg, ha1, ha2, hr, hp, Bool.not_true, Bool.false_eq_true, if_false, State.pageWrite, ho1, hg, ho2, State.blockWrite,
      hc, hm, ht, hnt, ne_eq, not_true_eq_false, false_and]
    rcases ha with ha | ⟨ha, hgd⟩
    · simp only [ha, reduceCtorEq, if_false] at hb hx hl
      have hk := s.checkedWrite_legal r a g w x false hs (by simpa using hb) (by simpa using hx) (by simpa using hl)
      simp only [State.directWrite, ha, hk, hw]
    · simp only [ha, if_true] at hb hx hl
      have hk := s.checkedWrite_legal r a g (BitVec.ofNat 32 (bitsOf w 15 0)) x true hs (by simpa using hb) (by simpa using hx) (by simpa using hl)
      have hn : a ≠ E1.dieRole := by
        rintro rfl
        have e : s.spec E1.dieRole = some g := hg
        have e2 : s.spec E1.dieRole = findReg (mapE (pageNo (pageOf E1.dieRole))) (E1.dieRole % 0x10000) := rfl
        rw [e2] at e
        have e3 : (findReg (mapE (pageNo (pageOf E1.dieRole))) (E1.dieRole % 0x10000)).map RegSpec.acc = some Access.rw := by decide
        rw [e] at e3
        simp [ha] at e3
      simp only [State.directWrite, ha, hgd, if_true, hk, hn, if_false]

end Sys2Proof.Machine
end

