-- ==== Sys2Proof/Tests/Slice0.lean ====
section
/-!
SUPPORT. The model's own tests: ill-formed operands that the well-formedness check refuses; one-step tests on small states, their results
worked out from the spec's rules; and, for every clause of a statement that has hypotheses, a concrete state and operands that meet them
together.
-/
set_option Elab.async false

namespace Sys2Proof.Tests.W

open Sys2Proof.Machine

/-- Registers written one after another. -/
def regs (s : State) (l : List (Nat × Word)) : State := l.foldl (fun t x => t.wr x.1 x.2) s

/-- A part in RUN: every die is powered, and die C is up. -/
def on : State :=
  let s := regs State.reset [(GLB.diePower, 0xFF), (GLB.pwrState, 3)]
  { s with power := { s.power with cUp := true, released := 0x3F } }

/-- A group of slot 0 in some state, of generation 1, whose T lies 1 s ahead of local time 0. -/
def grp (st : GState) : Group := { Group.empty with gen := 1, state := st, tS := 1 }

/-- A part in RUN that holds that group; the PCI Express requester's ATIME is 1 s. -/
def group (st : GState) : State :=
  { on.setGroup 0 (grp st) with txu := { (on.setGroup 0 (grp st)).txu with ports := [{ req := .pcie, opened := 0x80000001, atimeS := 1, atimeNs := 0 }] } }

/-- That part with the group OPEN. -/
def openGroup : State := group .opened

/-- A staged write of a register of die E: LEVEL of output 0, or DALI_CFG's page neighbour that acts on no lamp. -/
def stagedE : StagedWrite := { addr := E7.page + 0x200, value := 5 }

/-- The same group with one staged write on die E, and the shares and answers it has. -/
def with1 (st : GState) (sh : List Die) (by1 : List (Nat × Die)) (tS : Nat) : State :=
  on.setGroup 0 { grp st with writes := [stagedE], shadowed := sh, armedBy := by1, tS := tS }

def shadowed : State := with1 .committed [.e] [] 1
def voting : State := with1 .armed [.e] [(0, .e)] 0
def going : State := with1 .go [.e] [(0, .e)] 1
def goingSoon : State := with1 .go [.e] [(0, .e)] 0
def goingDue : State := with1 .go [.e] [(0, .e)] 0
def waiting : State := with1 .waitSupply [] [(0, .e)] 0
def prepping : State := with1 .committed [] [] 1
def tagged : State := openGroup.setTag .pcie E7.page 1

/-- EPOCH_PEND on the NTU page, and on die E's page in EMBER. -/
def pendC : State := on.setBit C2.timeQual 12 true
def pendE : State := State.reset.setBit E8.timeQual 12 true
/-- A step named for now. -/
def stepping : State := { on with time := { on.time with step := some { instant := 0, delta := 5, advance := true } } }
/-- A measurement of 0 offset. -/
def meas : TimeMeas := { t1 := 0, t2 := 0, t3 := 0, t4 := 0, gmRank := 0, steps := 0, locked := true, arb := false, utc := 37 }
/-- A source heard at 0, and a part in which it is long ago. -/
def src0 : SrcRec := { num := 0, last := 0, gmRank := 0, steps := 0, locked := true }
def srcLost : State := { on with mono := 64000000000, time := { on.time with ntu := { on.time.ntu with sources := [src0] } } }
/-- Link 0 up as a client of Lanivy time: its fibre member is UP at both ends. -/
def ttLink : State := regs on [(C17.linkCfg 0, 0x80000000), (C17.memberStat 0, 0x102), (C2.ttCfg 0, 1)]
/-- An exchange of link 0 under way. -/
def exch0 : TtExchange := { link := 0, seq := 3, member := 0, t1 := 0, sent := 0 }
def exch : State := { on with time := { on.time with exchanges := [exch0] } }
def exchOld : State := { exch with mono := 100000000 }
/-- A mesh node with a parent. -/
def meshUp : State := { regs State.reset [(HDR.pageCtrl E4.page, 1), (E4.meshCfg, 2), (E4.parentStat, 0x30000)] with mono := 4096000000000 }
/-- An action in lamp slot 0, PENDING; and one that a supply warning deferred. -/
def act0 : PendAct := { slot := .lamp 0, tS := 1, tNs := 0, desc := 0, extra := 0, began := false }
def armed : State := { on.setFld (slotStat (.lamp 0)) 3 0 stPending with actq := [act0] }
def deferred : State := armed.setBit (slotStat (.lamp 0)) 28 true

/-- The 32.768 kHz crystal runs; die E runs on the 40 MHz crystal. -/
def x32k : State := State.reset.setBit E1.oscStat 0 true
def on40 : State := on.setBit E1.oscStat 1 true
/-- Transitions: Kindle to STANDBY, a radio start of D0, a power-down to EMBER, and a paused radio start from STANDBY. -/
def kindle0 : Transition := { target := 2, origin := 1, cmd := 2, start := 0, kindle := true, adding := 0, sr := none, down := false, paused := none, wait := 0, ramp := none, ended := 0, srEnded := false }
def adding0 : Transition := { kindle0 with target := 3, kindle := false, adding := 1 }
def down0 : Transition := { kindle0 with target := 1, origin := 3, cmd := 1, kindle := false, down := true }
def paused0 : Transition := { adding0 with origin := 2, paused := some 0 }
def inTrans (s : State) (t : Transition) : State := { s with power := { s.power with trans := some t } }
def kindling : State := inTrans State.reset kindle0
def kindled : State :=
  let s := inTrans (State.reset.setFld GLB.selftestSum 1 0 1) kindle0
  { s with power := { s.power with cUp := true } }
def adding : State :=
  let s := inTrans (regs State.reset [(GLB.diePower, 3), (GLB.pwrState, 2), (E1.dieRole, 1)]) adding0
  { s with power := { s.power with cUp := true } }
def starting : State := { adding with power := { adding.power with released := 1, role := adding.power.role.set 0 .access } }
def goingDown : State := inTrans on down0
def paused : State := { inTrans on paused0 with mono := 1600000000 }

/-- Die E held in reset; die C under test, with a report that passes, and one that is late. -/
def held : State := State.held .px9608 { master := true, part := 0 } factoryLevels
def again : TestReport := { first := 1, standing := 0, slices := 0, essential := false, inst := 0, location := 0, dur := 100 }
def failed : TestReport := { first := 1, standing := 1, slices := 0, essential := false, inst := 0, location := 0, dur := 100 }
def passed : TestReport := { first := 0, standing := 0, slices := 0, essential := false, inst := 0, location := 0, dur := 100 }
def testing : State := { kindling with power := { kindling.power with cUp := true, tests := [(.c, 0)] } }
def testOld : State := { testing with mono := 180000000 }
/-- Die C's supply in warning; a retained DRAM; a pin whose new level has been held. -/
def warned : State := on.setBit E1.supWarnAct 1 true
def retained : State := { State.reset with power := { State.reset.power with retained := true } }
def bounced : State := (State.reset.setFld (E10.gpioCfg 0) 15 0 1).setPin 0 { counted := false, since := some (0, 0) }

/-- D0 in access role. -/
def access0 : State := { on with power := { on.power with role := on.power.role.set 0 .access } }
/-- A channel of partition 0, and a LINK_CFG, as their legal ranges leave them. -/
def chanWord : Word := 0x100
def linkWord : Word := 0x80000000

/-- The sub-GHz radio enabled in IDLE; listening; searching with correlator 0; a reception under way, tentative and confirmed. -/
def radio : State := (on.wr (HDR.pageCtrl E3.page) 1).setSg sgIdle
def listening : State := radio.setSg sgListen
def searching : State := listening.wr E3.searchEn 1
def rx0 : SgRx := { corr := 0, synced := true, confirmed := false, len := 0, rssi := -100, fec := false, whiten := false, fcs4 := false, stamp := 0, mode := 0, chain1 := false }
def rx1 : SgRx := { rx0 with confirmed := true, len := 20 }
def phr : SgPhr := { ms := false, rsvZero := true, len := 20, fcs4 := false, dw := false, metricOk := true }
def inRx : State := radio.setSg sgRxSt
def receiving : State := inRx.onSub (fun y => { y with rx := some rx0 })
def confirmed : State := (regs inRx [(E3.afcCfg, 0), (E3.rxCfg, 0x7FF0064), (E3.rxRingSize, 16)]).onSub (fun y => { y with rx := some rx1 })
/-- A MAC header of a secured data frame to every node, one that asks for an acknowledgement, and frames that end. -/
def mac0 : MacHdr :=
  { version := 1, ftype := 1, cmd := 0, ackReq := false, ies := false, secured := true, oddCounter := false, level := 5, keyMode := 1,
    panId := 0xFFFF, dest := 0xFFFF, destEui := none, src := 9, srcEui := none, dsn := 1, keyIndex := 1, counter := 1 }
def rxEndOf (ok : Bool) (m : MacHdr) : SgRxEnd := { fcsOk := ok, psdu := [], lqi := 0, fofs := 0, rateErr := 0, mac := m }
def rxEnd : SgRxEnd := rxEndOf true mac0
def rxTent : SgRx := { rx0 with synced := false }
def tentative : State := inRx.onSub (fun y => { y with rx := some rxTent })
def heardMesh : State := regs confirmed [(HDR.pageCtrl E4.page, 1), (E4.meshCfg, 2)]
def measuring : State := radio.setSg sgEdSt
def calRun : State := (radio.setSg sgCalSt).onSub (fun x => { x with cal := some 2, wait := none })
def trimming : State := radio.onSub (fun x => { x with trim := some 3 })
/-- A transmission; SETTLE towards LISTEN; frames that waited; calibrations. -/
def tx0 : SgTx := { kind := .now, addr := 0, len := 10, mode := 0, psdu := none }
def sending : State := ((radio.setSg sgTxSt).wr E3.tunerCfg 0x50000).onSub (fun x => { x with tx := some tx0 })
def sentLong : State := { sending.onSub (fun x => { x with txFrom := 0, txTo := 100000 }) with mono := 2000000000 }
def settling : State := { (radio.setSg sgSettle).onSub (fun x => { x with goal := .listen }) with power := { radio.power with x40Usable := true } }
def waitLock : State := { radio.onSub (fun x => { x with wait := some (tx0, 0) }) with mono := 2000000000 }
def waitSupply : State := (waitLock.setBit E3.txCfg 0 true).setBit E1.supWarnAct 0 true
def sgCalRef : State := radio.onSub (fun x => { x with calRef := true })
def calibrating : State := (radio.setSg sgCalSt).onSub (fun x => { x with cal := some 2 })
def calDeferred : State := radio.onSub (fun x => { x with calDefer := some 2 })
def mismatched : State := (radio.wr E3.tunerCfg 1).onSub (fun x => { x with retune := true })
/-- An action of a kind in RF_ACT[0], whose T has come; and a TX action prepared with lock. -/
def rfAct (k : Nat) : PendAct := { slot := .rf 0, tS := 0, tNs := 0, desc := BitVec.ofNat 32 (k + 8), extra := 0, began := false }
def rfArmed (k : Nat) : State := { radio.setFld (slotStat (.rf 0)) 3 0 stPending with actq := [rfAct k] }
def rfReady : State :=
  { ((rfArmed 0).setSgLocked true).onSub (fun x => { x with prepared := some 0, prepPsdu := [0] }) with mono := 2000000000 }

/-- Mesh frames and neighbours. -/
def hdr0 : MeshHdr := { mtype := 1, ttl := 4, ext := false, origin := 5, dest := 6, mseq := 0, payload := [1, 2] }
def flood0 : MeshHdr := { hdr0 with mtype := 2, dest := 0xFFFF, mseq := 9 }
def sec0 : MeshSec := { learnt := some 50, micOk := true, mtype := 1, ttl := 4, rsvZero := true }
def kid0 : MeshChild := { short := 6, eui := 60, sleepy := true, floodSub := true, poll := 1, heard := 0 }
def ind0 : IndEntry := { id := 0, frame := hdr0, kids := [6], flood := false, queued := 0, expires := 1, desc := none }
def macTx (p : MacPhase) : MacTx :=
  { frame := hdr0, next := 6, eui := 0, ackReq := true, pendBit := false, phase := p, backoffs := 0, be := 3, retries := 0,
    sealed := some (0, 0, 0, 3), desc := none, ind := none, addr := 0, len := 20, psdu := [], gone := false, since := 0 }
def joinInfo : JoinInfo := { eui := 70, short := 0xFFFE, code := 1, poll := 10, parent := 0xFFFE }
def hit0 : ScanHit := { src := 1, chan := 0, cost := 1, depth := 0, permit := true, ntime := 0, bcnInt := 10 }
def beacon0 : BeaconRx := { proto := 0xB7, flags := 0, depth := 1, cost := 2, bcnInt := 10, ntime := 0, rssi := -80 }

/-- The joined router with something more: CSMA_CFG, an AES key of slot 0, POLL_CFG and rings. -/
def mesh1 : State := regs meshUp [(E4.csmaCfg, 0x00004453), (E6.keyStat 0, 1), (E4.rxrSize, 16), (E4.txrSize, 16), (E4.pollCfg, 0x0404)]
def meshTx (p : MacPhase) : State := { mesh1.onMesh (fun m => { m with txq := [macTx p] }) with mono := 4096000000000 }
def authOf (a : Nat) : MeshAuth := { src := a, eui := 50, pan := 0, stamp := 0 }
def heardFrom (a : Nat) : State := mesh1.onMesh (fun m => { m with auth := some (authOf a) })
def heardFrom7 : State := (heardFrom 5).wr E4.meshAddr 7
def rxd0 : MacRxd := { mac := { mac0 with keyIndex := 0, counter := 7 }, stamp := 0 }
def heldFrame : State := mesh1.onMesh (fun m => { m with rxd := some rxd0 })
def ack0 : AckDue := { dest := 5, dsn := 1, pend := false }
def acking : State := (mesh1.onSub (fun x => { x with ackDue := true })).onMesh (fun m => { m with ackTo := some ack0 })
def withKid : State := (heardFrom 6).onMesh (fun m => { m with children := [kid0], indq := [ind0] })
def owes : State := withKid.onMesh (fun m => { m with owed := some 6 })
def floodWaits : State := mesh1.onMesh (fun m => { m with rebro := [(flood0, 0)], indq := [{ ind0 with flood := true }] })
def fcSaving : State := mesh1.onMesh (fun m => { m with counters := [{ slot := 0, next := 4096, saved := 0, saving := some 4096 }] })
def txDesc : State := mesh1.wr E4.txrHead 1
def coord : State := (heardFrom 5).wr E4.meshCfg 1
def scanning : State := mesh1.setParentState psScanning
def joining : State := (mesh1.setParentState psJoining).onMesh (fun m => { m with auth := some (authOf 1), join := { m.join with target := some (hit0, 0) } })
def pendKid : PendChild := { eui := 70, caps := 1, poll := 10, since := 0 }
def addrWaits : State := coord.onMesh (fun m => { m with addrWait := [{ joinInfo with short := 7, code := 0, parent := 0 }] })
def graceOver : State := scanning.onMesh (fun m => { m with parent := { m.parent with grace := some 0 } })
def overlapOver : State := mesh1.onMesh (fun m => { m with prevKey := some (1, 0) })
def meshAct (k : Nat) : PendAct := { slot := .mesh 0, tS := 0, tNs := 0, desc := BitVec.ofNat 32 k, extra := 0, began := false }
def meshArmed (k : Nat) : State := { mesh1.setFld (slotStat (.mesh 0)) 3 0 stPending with actq := [meshAct k] }
def banked : State := mesh1.wr GLB.pwrState 4
/-- A beacon instant: unit 0, BCN_INT 10 and BCN_PHASE 0. -/
def beaconing : State := { coord with regs := Sparse.insert coord.regs E4.bcnCfg 10 }
/-- Local time past the first window; and two misses. -/
def late : State := { mesh1 with time := { mesh1.time with clk := Vector.replicate 8 10000000000 } }
def missed2 : State := late.setFld E4.parentStat 23 20 2

/-- A partition of D0 alone, enabled and locked: in IDLE, and in some other state. -/
def part : State := regs access0 [(HDR.pageCtrl (D4.page 0), 1), (D4.partStat 0, 0x8001), (D1.tileStat 0, 0xF)]
def partIn (st : Nat) : State := part.setPa 0 st
def wait0 : PartWait := { kind := 0, us := 100, since := 0 }
def pair : State :=
  let s := regs (partIn paIdle) [(D4.partCfg 0, 1)]
  { s with power := { s.power with role := s.power.role.set 1 .access } }
def partWaits : State := { part.onPart 0 (fun p => { p with wait := some wait0 }) with mono := 2000000000 }
def partTx (k : Nat) : PartTx := { kind := k, us := 10, start := 0, stop := 10000, chains := [(0, 0xFFFF)], muted := [], slot := none, protect := false }
def partSends (k : Nat) : State := (partIn paTx).onPart 0 (fun p => { p with tx := some (partTx k) })
def partHears (t : Bool) : State := (partIn paRx).onPart 0 (fun p => { p with rx := some { tentative := t, power := -100 } })
def partCals : State := (partIn paCal).onPart 0 (fun p => { p with cal := some 2 })
def partSettles : State := ((partIn paSettle).onPart 0 (fun p => { p with goal := .state paListen })).setBit (D2.synStat 0) 1 true
def partAct (k : Nat) : PendAct := { slot := .part 0 0, tS := 0, tNs := 0, desc := BitVec.ofNat 32 k, extra := 0x100, began := false }
def partArmed (k : Nat) : State := { part.setFld (slotStat (.part 0 0)) 3 0 stPending with actq := [partAct k] }
def sounding : State := part.onPart 0 (fun p => { p with sounding := some { stations := [4], reports := [] }, csr := [4] })
/-- A part ready to enable a partition on D0: its tiles are in service and its firmware is held. -/
def placed : State :=
  let s := access0.wr (D1.tileStat 0) 0xF
  { s with acc := { s.acc with fw := 1 } }
/-- STA_RESULT shows DONE; station 4 is linked to partition 0, with a key slot named by STA_KEY. -/
def staIdle : State := part.wr C16.staResult 0x80000000
def sta4 : Station := { Station.empty 4 with words := [0, 0x80010000, 0x8001, 0x1040, 0, 0, 0, 0], nextValid := true }
def withSta : State :=
  let s := staIdle.setPipeKey { staIdle.pipeKey 0 with valid := true }
  { s with sched := { s.sched with stations := [sta4] } }
def twt0 : Twt := { idx := 0, words := [4, 0, 0, 1000, 1], armed := true, opened := none, done := none }
def withTwt : State := { withSta with sched := { withSta.sched with twts := [twt0] } }
def twtOpen : State := { withSta with sched := { withSta.sched with twts := [{ twt0 with opened := some 0 }] } }
def scheds : State := withTwt.wr (C16.schedCfg 0) 1
def planned : State := scheds.onPs 0 (fun q => { q with plan := { q.plan with bsrp := true, dur := some 1000 } })
def planNone : Plan := { sound := [], dl := [], ul := [], bsrp := false, dur := none, dlUs := 0, one := false, late := [] }
def txop0 : Txop := { ac := 0, plan := planNone, steps := [3], prepared := false, ends := 1000000000 }
def inTxop (p : Bool) : State := scheds.onPs 0 (fun q => { q with txop := some { txop0 with prepared := p } })
def schedAct (k n : Nat) : PendAct := { slot := .sched 0, tS := 0, tNs := 0, desc := BitVec.ofNat 32 (k + n * 65536), extra := 0, began := false }
def schedArmed (k n : Nat) : State :=
  let s := { scheds.setFld (slotStat (.sched 0)) 3 0 stPending with actq := [schedAct k n] }
  { s with sched := { s.sched with gkeys := [{ idx := 4, cur := 0, next := 1, nextValid := true }] } }
def mpdu : MpduRx := { sta := 4, tid := 8, sn := 0, frame := none, pn := 0, useNext := false, authOk := true, retry := false, ba := none, pm := false, poll := false, queueSize := none }
/-- A station of which sequence number 2 is held over a gap. -/
def frame0 : Frame := { dst := 1, src := 2, tag := none, ip := none, len := 64, payload := [] }
def gapRx : TidRx := { tid := 0, start := 0, got := [2], held := [(2, frame0)], gap := some 0, lastSn := none, lastPn := 0 }
def staGap : Station := { sta4 with rx := [gapRx] }
def withGap : State := { withSta with mono := 300000000, sched := { withSta.sched with stations := [staGap] } }

/-- D0 in backhaul role, direction 0 enabled with its head present: OFF, and in some other state. -/
def bhDie : State := { on with power := { on.power with role := on.power.role.set 0 .backhaul } }
def bhReady : State := regs bhDie [(HDR.pageCtrl (D7.page 0), 1), (dCfg 0, 0x80000000), (D6B.headStat 0 0, 1)]
def bhIn (st : Nat) : State := bhReady.setDirState 0 st
def bhUp : State := (bhIn 2).onDir 0 (fun z => { z with noGood := 8, window := true, lost := 64 })
def bhLost : State := (bhIn 3).onDir 0 (fun z => { z with lost := 64 })
def bhFound : State := (bhIn 1).onDir 0 (fun z => { z with search := { z.search with found := true } })
def bhFrame : BhFrame :=
  { crcOk := false, ver := 1, endB := true, sender := 0, consistent := true, cycle := 0, tmap := [0, 0], probe := false, probeRx := false
    baseReq := false, k := [0, 0], mapId := [0, 0], ackId := [0, 0], backoffReq := [0, 0], txBeam := 0, beamReq := none, probeLo := 0
    probeHi := 0, snrFb := 0, skip := 0, locked := true, ta := 0, snr := [40, 40], offset := 0, foundLo := 0, foundHi := 0, arrival := 0, cwFail := 0 }
def bhAct (k : Nat) : PendAct := { slot := .part 0 0, tS := 0, tNs := 0, desc := BitVec.ofNat 32 (k + 2 * 256), extra := 0, began := false }
def bhArmed (k : Nat) : State :=
  { bhReady.setFld (slotStat (.part 0 0)) 3 0 stPending with actq := [bhAct k], acc := { bhReady.acc with fw := 1 } }
/-- Link 0 enabled with its fibre member in some state; UP at both ends; with a frame of class 7 waiting; and what it keeps. -/
def linkIn (st : Nat) : State := { regs on [(C17.linkCfg 0, 0x80000000), (C17.memberStat 0, BitVec.ofNat 32 st)] with mono := 4000000 }
def linkUp : State := let s := linkIn 0x102; s.setPipeKey { s.pipeKey (s.linkKey 0) with valid := true }
def linkData : State := (linkUp.settle 0).setQueue (portQueue 16 7) [{ num := 0, frame := { dst := 1, src := 2, tag := none, ip := none, len := 64, payload := [] }, sub := 0, at_ := 0, pool := .shared }]
def sent0 : XblSent :=
  { seq := 5, pn := 5, cls := 7, prev := none, len := 64, cipher := [], slot := 4096, gen := 0, phase := false, dup := false, member := 0
    order := 0, last := 0, retx := 0, ready := false }
def linkSent : State := { ((linkUp.wr (C17.reorder 0) 0x4000A).settle 0).onLink 0 (fun x => { x with store := [sent0] }) with mono := 4000000000 }
def held0 : XblHeld := { seq := 9, cls := 0, prev := 8, frame := { dst := 1, src := 2, tag := none, ip := none, len := 64, payload := [] }, since := 0 }
def linkHeld : State := { linkUp.onLink 0 (fun x => { x with held := [held0] }) with mono := 4000000000 }
def linkAck : State := linkUp.onLink 0 (fun x => { x with changed := [0] })
def linkWait : State := linkUp.onLink 0 (fun x => x.onCls 0 (fun k => { k with cur := some 0, wait := some 0 }))
def linkOverlap : State := linkUp.onLink 0 (fun x => { x with prevKey := some (4097, 0, 0) })
def xblFrame : XblFrame :=
  { ver := 1, type := 3, cls := 7, phase := false, mup := 1, pn := 3, prev := 0, sound := true, authOk := true, data := none, acks := [] }
def linkAct (k : Nat) : PendAct := { slot := .link 0, tS := 0, tNs := 0, desc := BitVec.ofNat 32 k, extra := 0, began := false }
def linkArmed (k : Nat) : State := { linkUp.setFld (slotStat (.link 0)) 3 0 stPending with actq := [linkAct k] }
/-- D0's direction 0 is UP with room, and reports. -/
def linkHolding (st : Nat) : State :=
  let s := regs (bhIn 2) [(C17.linkCfg 0, 0x80000000), (C17.memberStat 0, BitVec.ofNat 32 st), (C17.health0 0, 8), (D7.dirCap 0 0, 0x10000000)]
  { s with mono := 20000000000, xbl := s.xbl.set 0 ((s.link 0).onMem 0 (fun _ => { clear := 0, heard := 20000000000, report := 20000000000 })) }
/-- A link that can be enabled, and its word. -/
def linkable : State :=
  let s := regs bhReady [(C17.linkId 0, 0x10002)]
  s.setPipeKey { s.pipeKey (s.linkKey 0) with valid := true }
def linkableArmed : State := { linkable.setFld (slotStat (.link 0)) 3 0 stPending with actq := [linkAct 1] }

/-- A frame, an L2 entry of VLAN 0's table and the words a requester has written for it. -/
def eth0 : Frame := { dst := 1, src := 2, tag := none, ip := none, len := 64, payload := [] }
def l2Words : List Word := [1, 2, 0, 0, 0, 5, 0, 0]
def em0 : EmSlot := { pos := 7, words := l2Words, seq := 0, moved := none, kept := [], pend := none }
def withEm : State := on.onEm (fun em => { em with slots := [em0] })
def keyed : State := (withEm.wrReq .pcie (C13.tblKey 0) 1).wrReq .pcie (C13.tblKey 1) 2
def keyNew : State := on.wrReq .pcie (C13.tblKey 0) 1
def walking : State := { withEm.onEm (fun em => { em with walks := [{ req := .pcie, cursor := 0, last := 0, opened := 0 }] }) with mono := 100000000 }
def sweeping : State := withEm.onEm (fun em => { em with sweep := some { flush := some (5, true), type := 0, removed := 0 } })
def prefix0 : Prefix := { v6 := false, vrf := 0, addr := 0x0A000000, len := 8, nh := 3 }
def withPrefix : State := on.onLpm (fun l => { l with prefixes := [prefix0], walks := [(.pcie, none)] })
def lpmKeyed : State := withPrefix.wrReq .pcie (C14.lpmAddr 0) 0x0A000001
def learns : State := withEm.onEm (fun em => { em with learnq := [{ fid := 0, mac := 2, port := 5, sub := 0 }] })
/-- Ethernet port 0 enabled; with a frame of class 7 waiting; a queue with a frame in the DRAM, which is READY. -/
def eth : State := (on.wr (C9.ethCfg 0) 0x80000000).setFld (C9.ethCfg 0) 29 16 1522
def port0 : State := on.setBit (C12.portCfg 0) 31 true
def q0 (p : Pool) : QFrame := { num := 0, frame := eth0, sub := 0, at_ := 0, pool := p }
def portFrame : State := (on.setBit (C12.portCfg 3) 31 true).setQueue (portQueue 3 7) [q0 .shared]
def spilled : State := (on.wr C7.dramStat 2).setQueue 0 [q0 .dram]

/-- Engine 0 in some state; every engine HALTED; a task; mailboxes; the Ember engine's image. -/
def engIn (st : Nat) : State := on.setFld (C4.engStat 0) 2 0 st
def halted : State := on.wrs ((List.range 16).map (fun e => (C4.engStat e, 1)))
def verifying : State := on.wr C4.fwStat 1
def task0 (st : Nat) : Task := { idx := 0, words := [1, 0x10001, 0, 0, 0, 0], state := st, gen := 0, early := 0, engine := 0, place := 0, src := 0 }
def withTask (st : Nat) : State := (engIn engRunning).setTask (task0 st)
def ending : State := (withTask 3).onEng 0 (fun x => { x with ending := true })
def saving : State := ending.onEng 0 (fun x => { x with saving := some 0 })
def readyTask : State := ((engIn engIdle).setTask (task0 2)).wr (C3.grGroup 0) 0x80000001
def overrun : State := { (engIn engRunning).setTask { task0 3 with words := [1, 0x10011, 0, 0, 0, 0] } with mono := 1000000 }
def line0 : CacheLine := { dram := false, addr := 0, dirty := true, bytes := [1] }
def embVerifying : State := State.reset.setFld E5.embStat 1 0 1
def embVerified : State := State.reset.setFld E5.embStat 1 0 2
def embSwitching : State := { State.reset with ember := { State.reset.ember with switching := true } }

/-- A fill of four bytes of shared memory, its descriptor at the start of that memory; channel 16 works on it, or has its bytes moved. -/
def fillDesc : List Word := [1, 0xA5A5A5A5, 0, 0, 0, 0, 0x1000, 0x10000000, 3, 0, 0, 0xF0000000]
def descMem : State := { on.wr (C5.chDescHi 16) 0x10000000 with shared := Mem.setBytes on.shared 0 (fillDesc.flatMap wordBytes) }
def badDesc : State := { on with shared := Mem.setBytes on.shared 0 ([3, 0, 0, 0].flatMap wordBytes) }
def chanAt (n : Nat) (st : Nat) (tail : Bool) : State :=
  (on.setFld (C5.chStat n) 2 0 st).onChan n (fun x => { x with desc := fillDesc, tail := tail })
def hostRead : State := (on.setFld (C5.chStat 16) 2 0 1).onChan 16 (fun x => { x with desc := [0, 0, 0, 0, 3, 0, 0x1000, 0x10000000, 3, 0, 0, 0xF0000000] })
def dramFill : State := (on.setFld (C5.chStat 16) 2 0 1).onChan 16 (fun x => { x with desc := [1, 0, 0, 0, 0, 0, 0x1000, 0x20000000, 3, 0, 0, 0xF0000000] })
/-- AES key slot 0 holds a key, also while a retired copy is held; context 6 open on it, with a block pending, and one in the engine. -/
def aesKey : State := on.wr (E6.keyStat 0) 0x101
def aesHeld : State := aesKey.setAesSlot 0 { key := [], retired := some ([], false, 0) }
def aesOpen (st : Nat) : State := aesKey.wr (E6.ctxStat 6) (BitVec.ofNat 32 (st + 0x10000))
def aesRun (live : Bool) : State :=
  let s := aesOpen 3
  { s with aes := { s.aes with run := some { ctx := 6, key := [], input := [0, 0, 0, 0], decrypt := false, prio := 0, live := live } } }
def aesHold : State := { on with aes := { on.aes with hold := some (1, 6, 0) } }

/-- The DRAM controller in some state; with set points trained and one wanted; with a bank that owes refreshes. -/
def dramIn (st : Nat) : State := on.wr C7.dramStat (BitVec.ofNat 32 st)
def dramFsp (st : Nat) : State := (dramIn st).onDdr (fun x => { x with trained := 0xF, target := some 1 })
def dramOwes : State := (dramIn 2).setOwed 0 0 8
def ecc0 : EccFound := { corrected := [], failed := none, extra := 0 }
def rd0 (k : Nat) : DramReq := { since := 0, kind := k, inst := 0, addr := 0, len := 4, write := none }
/-- PCI Express with its link in L0, and ready for it. -/
def linkL0 : State := on.wr C8.hpStat 1
def heldHost : State :=
  { linkL0 with ddr := { linkL0.ddr with held := [{ since := 0, kind := 4, inst := 0, addr := 0, len := 4, write := none }] } }
def hpReady : State := { on with hport := { on.hport with perst := false, ready := true } }
/-- SPI words of one register; a bypass watchdog that runs. -/
def bypRuns : State := { on.setBit C9.bypStat 2 true with byp := { on.byp with serviced := some 0, period := 0, first := false } }
def sfpBusy : State := on.wr (C9.sfpI2c 0) 0x80800000
/-- A Korub link in some state; a subordinate part with its link to the master. -/
def korIn (st : Nat) : State := on.wr (C10.korStat 0) (BitVec.ofNat 32 st)
def subord : State := { on.wr (C10.korStat 2) 2 with straps := { on.straps with master := false, part := 1 } }

/-- Output 2 (PWM 0) and output 0 (DALI 0) enabled; a failsafe cause; a level that is copied; a kick long ago. -/
def lampsOn : State := on.wr E7.lampCfg 5
def fsState : State := lampsOn.setBit E7.fsCause 0 true
def storing : State := lampsOn.setLampOut 2 { lampsOn.lampOut 2 with storing := true }
def wdtRuns : State := { lampsOn.wr E7.hostWdt 1 with lamp := { lampsOn.lamp with kick := some 0 }, mono := 1000000000 }
def pwmWaits : State := lampsOn.setLampOut 2 { lampsOn.lampOut 2 with level := some 7, change := some false }
def pwmFades : State := lampsOn.setLampOut 2 { lampsOn.lampOut 2 with fade := some { start := 0, goal := 10, steps := 2, done := 0 } }
def fr0 (ans : Bool) (n : Nat) : DaliFrame := { frame := 0x1FE, long := false, answer := ans, twice := false, collisions := n }
def daliWith (w : Option (Nat × Option Nat)) (b : DaliBus) (q : List DaliFrame) (l : List Word) : State := lampsOn.setDali 0 { waiting := w, bus := b, queue := q, results := l }
def lampDue (k : Nat) : State :=
  { lampsOn.setFld (slotStat (.lamp 0)) 3 0 stPending with actq := [{ slot := .lamp 0, tS := 0, tNs := 0, desc := BitVec.ofNat 32 k, extra := 9, began := false }] }
/-- An event record in the log; tracing into a ring of the READY DRAM; one record in the intake. -/
def rec0 : EvRec := { die := 4, page := 0x52, code := 1, info := 0, time := 0, epoch := 0, kind := 1, replayed := false, part := 0, num := 0 }
def logged : State := { on with logs := { on.logs with events := [rec0], head := 1 } }
def traces : State := { (dramIn 2).wrs [(C11.traceCfg, 1), (C11.traceSize, 1)] with logs := { on.logs with intake := [[1, 2, 3, 4, 5, 6, 7, 8]] } }

end Sys2Proof.Tests.W

namespace Sys2Proof.Tests

open Sys2Proof.Machine

/-! ## Operands that the well-formedness check refuses -/

theorem test_wf_registerWrite : Instr.wellFormed (.registerWrite .pcie 0x410100 0 0xF) = true ∧
    Instr.wellFormed (.registerWrite .pcie 2 0 0xF) = false ∧ Instr.wellFormed (.registerWrite .pcie 0x4000000 0 0xF) = false := by decide

theorem test_wf_offset : Instr.wellFormed (.accessOff .spi 0x4000000 true) = false ∧ Instr.wellFormed (.rcCounterRead .spi 0x410102 0) = false ∧
    Instr.wellFormed (.stagedWrite .pcie 0x4000000 0) = false := by decide

theorem test_wf_page : Instr.wellFormed (.errCodeRead .pcie 0x410004) = false ∧ Instr.wellFormed (.softReset .pcie 0x2400000 0) = false ∧
    Instr.wellFormed (.txnTagWrite .pcie 0x870040 0) = false := by decide

theorem test_wf_cancel : Instr.wellFormed (.cancel 0 0 .e 0xE) = true ∧ Instr.wellFormed (.cancel 0 0 .e 0xF) = false := by decide

theorem test_wf_flue : Instr.wellFormed (.flueMessage .c .c []) = false ∧ Instr.wellFormed (.flueSilenceTimeout .c) = false := by decide

theorem test_wf_timeTransfer : Instr.wellFormed (.ttReq 0 0 65536 0) = false := by decide

theorem test_wf_radioStart : Instr.wellFormed (.radioStartDone 0 { fails := [{ tile := 4, steps := 1 }], head0 := none, head1 := none }) = false ∧
    Instr.wellFormed (.radioStartDone 0 { fails := [], head0 := some 0, head1 := none }) = false := by decide

theorem test_wf_temperature : Instr.wellFormed (.tempUpdate .c 127) = true ∧ Instr.wellFormed (.tempUpdate .c 128) = false := by decide

theorem test_wf_toneMap : Instr.wellFormed (.tmUpdateRx 0 0 0 13 0 []) = false := by decide

theorem test_wf_engineFault : Instr.wellFormed (.engineFault 0 0 0) = false ∧ Instr.wellFormed (.engineFault 0 4 0) = false := by decide

theorem test_wf_spi : Instr.wellFormed (.spiWrite 0 [] 0) = false ∧ Instr.wellFormed (.spiWrite 0 (List.replicate 65 0) 0) = false ∧
    Instr.wellFormed (.spiRead 0x02 0 0 0) = false ∧ Instr.wellFormed (.spiReadClr 4294967296 0 0 true) = false := by decide

theorem test_wf_cascade : Instr.wellFormed (.cascWindowAccess .pcie 0x1000000 none (.plain 0)) = false := by decide

/-! ## Words worked out in the spec's examples -/

/-- TXN_STAT[5] of the dusk group (the example after R63): tag 0x52C, COMPLETE, CLAMPED, ABORT_LATE, ALLOW_CLAMP. -/
theorem test_txnStat : ({ Group.empty with gen := 0x2C, state := .complete, clamped := true, abortLate := true, allowClamp := true } : Group).stat 5
    = 0x2C00552C := by decide

/-- The guard example after R44: 0xFF37_00C8 is accepted, 0xFF37_00C9 is not. -/
theorem test_guard : guardOk 0xFF3700C8 = true ∧ guardOk 0xFF3700C9 = false := by decide

/-- The judgement of R71 and R61 at a lead of 1 ms: 60 ms ahead, 0.4 ms ahead, and passed. -/
theorem test_judge : judge 60000000 1000000 = .ahead ∧ judge 400000 1000000 = .late := by decide

/-- Address bits 13:12 select the channel with four channels fitted (R411). -/
theorem test_channel : State.reset.chanOf 0x3000 = 3 ∧ State.reset.chanOf 0x4FFF = 0 := by decide +kernel

/-! ## One step -/

/-- What a step from `s` with the command `c` alone in its queue leaves at some registers. -/
def after (c : Instr) (s : State) (f : State → Bool) : Bool :=
  match step { s with pending := [c] } with
  | .next t => f t && t.pending.isEmpty
  | _ => false

/-- A write of the wrong complement is discarded and recorded in GUARD_FAIL (R43). -/
theorem test_guardFail : after (.bypKick .pcie 0xFFA5005B) W.on (fun t =>
    t.fld (HDR.guardFail C9.page) 15 0 == 0x104 && t.bit (HDR.guardFail C9.page) 31 && t.bit (HDR.intRaw C9.page) 31 && t.rd C9.bypKick == W.on.rd C9.bypKick)
    = true := by decide +kernel

/-- The kick example: the first kick services, its repetition sets SAME and does not. -/
theorem test_kick : after (.bypKick .pcie 0xFFA5005A) W.on (fun t => t.bit C9.bypStat 2 && t.fld C9.bypKick 15 0 == 0x5A &&
    after (.bypKick .pcie 0xFFA5005A) t (fun u => u.bit C9.bypStat 3 && u.byp.serviced == t.byp.serviced)) = true := by decide +kernel

/-- An engine's kick is BYP_REQUESTER (R451). -/
theorem test_kickEngine : after (.bypKick (.engine 2) 0xFFA5005A) W.on (fun t => t.fld (HDR.errCode C9.page) 15 0 == 0x101 && !t.bit C9.bypStat 2)
    = true := by decide +kernel

/-- A guarded value out of range is rejected whole, as RANGE_REJECT (R44). -/
theorem test_rangeReject : after (.bypOpenWrite .pcie 0xFFFB0004) W.on (fun t => t.fld (HDR.errCode C9.page) 15 0 == 5 && t.fld C9.bypOpen 15 0 == 0)
    = true := by decide +kernel

/-- A clamped field: BYP_WDT 40 becomes 50, in a lenient page, and CLAMP_COUNT counts it (R45, R48). -/
theorem test_clamp : after (.registerWrite .pcie C9.bypWdt 40 0xF) W.on (fun t => t.rd C9.bypWdt == 50 && t.rd (HDR.clampCount C9.page) == 1)
    = true := by decide +kernel

/-- A partial dword over PCI Express is discarded and recorded (R434). -/
theorem test_partial : after (.registerWrite .pcie C9.bypWdt 60 0x3) W.on (fun t => t.rd C9.bypWdt == W.on.rd C9.bypWdt &&
    t.fld (HDR.errCode C8.page) 15 0 == 0x100) = true := by decide +kernel

/-- An access to an unpowered die's window is ACCESS_OFF with its offset (R39). -/
theorem test_accessOff : after (.accessOff .spi 0xC00100 true) State.reset (fun t => t.fld (HDR.errCode GLB.page) 15 0 == 1 &&
    t.rd (HDR.errInfo GLB.page) == 0xC00100) = true := by decide +kernel

/-- The Kindle of the start-up example: PWR_CMD 0xFFCC_0033 in EMBER sets BUSY and TARGET RUN (R108, R111). -/
theorem test_kindle : after (.registerWrite .spi GLB.pwrCmd 0xFFCC0033 0xF) State.reset (fun t => t.bit GLB.pwrState 8 &&
    t.fld GLB.pwrState 7 4 == 3 && t.fld GLB.pwrState 3 0 == 1) = true := by decide +kernel

/-- A command in a transition is PWR_BUSY (R114). -/
theorem test_pwrBusy : after (.pwrEmber .spi 0xFFFE false) W.kindling (fun t => t.fld (HDR.errCode GLB.page) 15 0 == 0x100) = true := by decide +kernel

/-- A supply warning during die C's self-test pauses Kindle only at the test's end (R114). -/
theorem test_pause : after (.supplyWarning 1) W.testing (fun t => !t.bit GLB.pwrState 9 &&
    after (.selftestDone .c W.passed none) t (fun u => u.bit GLB.pwrState 9 && after .kindleDone u (fun v => v.fld GLB.pwrState 3 0 == 1)))
    = true := by decide +kernel

/-- DRAM_CFG is locked while the DRAM is READY (R413). -/
theorem test_dramLocked : after (.registerWrite .pcie C7.dramCfg 0xE27 0xF) (W.dramIn 2) (fun t => t.rd C7.dramCfg == 0xE26 &&
    t.fld (HDR.errCode C7.page) 15 0 == 0x100 && t.rd (HDR.errInfo C7.page) == 0xE27) = true := by decide +kernel

/-- Over SPI a write that crosses a 64 KB page is FORMAT and writes nothing (R440). -/
theorem test_spiFormat : spiStatus true [0] (BitVec.ofNat 16 (crc16 [0])) 0x1FFFC 2 = 2 ∧ spiStatus true [0] (BitVec.ofNat 16 (crc16 [0])) 0x1FFF8 2 = 0 := by
  decide +kernel

/-- An idle step is one nanosecond. -/
theorem test_idle : (match step State.reset with | .next t => t.mono == State.reset.mono + 1 && t.regs == State.reset.regs | _ => false) = true := by
  decide +kernel

/-! ## Hypotheses that are met -/

theorem test_hyp_IdleStepPassesTime_1 : ∃ (s : State), s.pending = [] :=
  ⟨W.on, by decide +kernel⟩

theorem test_hyp_AccessCodes_1 : ∃ (r : Requester) (a : Nat) (w : Word) (g : RegSpec) (s : State), a % 4 = 0 ∧ 0x100 ≤ a % 0x10000 ∧ s.direct r a = true ∧ s.spec a = some g ∧ s.commandAt a = none ∧ s.memberPage a = none ∧ (g.acc = .ro ∨ g.acc = .rc) :=
  by
  refine ⟨.pcie, C11.evtOverflow, 7, _, W.on, ?_, ?_, ?_, rfl, ?_, ?_, ?_⟩ <;> decide +kernel

theorem test_hyp_AccessCodes_2 : ∃ (r : Requester) (a : Nat) (w : Word) (g : RegSpec) (s : State), a % 4 = 0 ∧ 0x100 ≤ a % 0x10000 ∧ s.direct r a = true ∧ s.spec a = some g ∧ s.commandAt a = none ∧ s.memberPage a = none ∧ g.acc = .w1c :=
  by
  refine ⟨.pcie, E9.wakeCause, 7, _, W.on, ?_, ?_, ?_, rfl, ?_, ?_, ?_⟩ <;> decide +kernel

theorem test_hyp_AccessCodes_3 : ∃ (a : Nat) (w : Word) (be : BitVec 4) (s : State), a < 0x4000000 ∧ (a % 4 ≠ 0 ∨ be ≠ 0xF) ∧ s.powered .c = true :=
  ⟨2, 0, 0xF, W.on, by decide +kernel⟩

theorem test_hyp_AccessCodes_4 : ∃ (r : Requester) (a : Nat) (w : Word) (be : BitVec 4) (s : State), a < 0x4000000 ∧ a % 4 ≠ 0 ∧ r ≠ .pcie :=
  ⟨.spi, 2, 0, 0xF, W.on, by decide +kernel⟩

theorem test_hyp_AccessCodes_5 : ∃ (r : Requester) (a : Nat) (w : Word) (be : BitVec 4) (s : State), 0x4000000 ≤ a ∧ a < bar2 :=
  ⟨.pcie, 0x4000000, 0, 0xF, W.on, by decide +kernel⟩

theorem test_hyp_HeaderReads_1 : ∃ (r : Requester) (p : Nat) (s : State), p % 0x10000 = 0 ∧ p < 0x2400000 ∧ s.reachable (HDR.errCode p) = true ∧ s.pathOk r (HDR.errCode p) = true :=
  ⟨.pcie, C11.page, W.on, by decide +kernel⟩

theorem test_hyp_HeaderReads_2 : ∃ (r : Requester) (p : Nat) (s : State), p % 0x10000 = 0 ∧ p < 0x2400000 ∧ s.reachable (HDR.clampField p) = true ∧ s.pathOk r (HDR.clampField p) = true :=
  ⟨.pcie, C11.page, W.on, by decide +kernel⟩

theorem test_hyp_HeaderReads_3 : ∃ (r : Requester) (p : Nat) (s : State) (t : State), p % 0x10000 = 0 ∧ p < 0x2400000 ∧ s.reachable (HDR.clampCount p) = true ∧ s.pathOk r (HDR.clampCount p) = true ∧ t = (s.wr (HDR.clampCount p) 0).setBit (HDR.clampField p) 31 false :=
  ⟨.pcie, C11.page, W.on, _, by decide +kernel, by decide +kernel, by decide +kernel, by decide +kernel, rfl⟩

theorem test_hyp_HeaderReads_4 : ∃ (r : Requester) (p : Nat) (s : State), p % 0x10000 = 0 ∧ p < 0x2400000 ∧ s.reachable (HDR.guardFail p) = true ∧ s.pathOk r (HDR.guardFail p) = true :=
  ⟨.pcie, C11.page, W.on, by decide +kernel⟩

theorem test_hyp_HeaderReads_5 : ∃ (r : Requester) (a : Nat) (write : Bool) (s : State), 0x400000 ≤ a ∧ a < 0x2400000 ∧ s.power.phase = .done ∧ s.fitted (dieOf a) = true ∧ s.powered (dieOf a) = false :=
  ⟨.spi, 0x400100, true, State.reset, by decide +kernel⟩

theorem test_hyp_HeaderReads_6 : ∃ (r : Requester) (a : Nat) (write : Bool) (s : State), 0x2400000 ≤ a ∧ a < 0x4000000 :=
  ⟨.spi, 0x2400000, true, State.reset, by decide +kernel⟩

theorem test_hyp_InterruptBits_1 : ∃ (r : Requester) (p : Nat) (w coincide : Word) (s : State), p % 0x10000 = 0 ∧ p ≠ E10.page ∧ s.direct r (HDR.intStat p) = true :=
  ⟨.pcie, C11.page, 1, 2, W.on, by decide +kernel⟩

theorem test_hyp_InterruptBits_2 : ∃ (r : Requester) (p : Nat) (w : Word) (s : State), p % 0x10000 = 0 ∧ s.direct r (HDR.intSet p) = true :=
  ⟨.pcie, C11.page, 1, W.on, by decide +kernel⟩

theorem test_hyp_InterruptBits_3 : ∃ (r : Requester) (p : Nat) (w : Word) (s : State), p % 0x10000 = 0 ∧ s.direct r (HDR.pageCtrl p) = true ∧ s.bit (HDR.pageCtrl p) 0 = bitOf w 0 :=
  ⟨.pcie, C11.page, 0, W.on, by decide +kernel⟩

theorem test_hyp_EventWinsOverClear_1 : ∃ (r : Requester) (p : Nat) (w coincide : Word) (s : State) (n : Nat), p % 0x10000 = 0 ∧ n < 32 ∧ s.reachable (HDR.intStat p) = true ∧ s.pathOk r (HDR.intStat p) = true ∧ bitOf coincide n = true :=
  ⟨.pcie, E10.page, 0xFFFFFFFF, 2, W.on, 1, by decide +kernel⟩

theorem test_hyp_MsixAndClampLog_1 : ∃ (s : State), s.powered .c = true ∧ s.bit C8.hpStat 0 = true ∧ s.msix.enabled = true :=
  ⟨{ W.linkL0 with msix := { W.linkL0.msix with enabled := true } }, by decide +kernel⟩

theorem test_hyp_MsixAndClampLog_2 : ∃ (s : State), s.powered .c = true ∧ s.bit C8.hpStat 0 = true ∧ s.msix.enabled = false :=
  ⟨W.linkL0, by decide +kernel⟩

theorem test_hyp_MsixAndClampLog_3 : ∃ (v : Fin 64) (s t : State), s.powered .c = true ∧ s.bit C8.hpStat 0 = true ∧ t = { s with msix := { s.msix with mask := s.msix.mask &&& ~~~ BitVec.ofNat 64 (2 ^ v.val) } } :=
  ⟨3, W.linkL0, _, by decide +kernel, by decide +kernel, rfl⟩

theorem test_hyp_MsixAndClampLog_4 : ∃ (r : Requester) (w : Word) (s : State), s.direct r GLB.clampLogClr = true :=
  ⟨.pcie, 1, W.on, by decide +kernel⟩

theorem test_hyp_MsixAndClampLog_5 : ∃ (r : Requester) (a : Nat) (coincide : Word) (s : State), a % 4 = 0 ∧ a < 0x2400000 ∧ s.countsAt a = true ∧ s.reachable a = true ∧ s.pathOk r a = true :=
  ⟨.pcie, C11.evtOverflow, 3, W.on, by decide +kernel⟩

theorem test_hyp_GroupOpening_1 : ∃ (r : Requester) (w : Word) (n : Fin 16) (s : State), s.direct r C1.txnOpen = true ∧ s.txuRuns = true ∧ (List.finRange 16).find? (fun m => (s.group m).state == .free) = some n :=
  ⟨.pcie, 3, 0, W.on, by decide +kernel⟩

theorem test_hyp_GroupOpening_2 : ∃ (r : Requester) (s : State), s.reachable C1.page = true ∧ s.isMaster = true :=
  ⟨.pcie, W.on, by decide +kernel⟩

theorem test_hyp_GroupOpening_3 : ∃ (r : Requester) (page : Nat) (w : Word) (n : Fin 16) (s : State), s.reachable page = true ∧ s.isMaster = true ∧ bitsOf w 11 0 ≠ 0 ∧ s.tagGroup (bitsOf w 11 0) = some n ∧ (s.group n).state = .opened :=
  ⟨.pcie, E7.page, 1, 0, W.openGroup, by decide +kernel⟩

theorem test_hyp_GroupCommit_1 : ∃ (r : Requester) (w : Word) (n : Fin 16) (s : State), s.direct r C1.txnCommit = true ∧ guardOk w = true ∧ s.txuRuns = true ∧ bitsOf w 15 0 / 4096 % 4 ≠ 3 ∧ bitsOf w 15 0 < 16384 ∧ s.tagGroup (bitsOf w 15 0 % 4096) = some n ∧ (s.group n).state = .opened ∧ judge (atimeDiff (s.txuPort r).atimeS.toNat (s.txuPort r).atimeNs.toNat (s.now .c)) 1000000 = .ahead ∧ s.epochPend = false :=
  ⟨.pcie, 0xFFFE0001, 0, W.openGroup, by decide +kernel⟩

theorem test_hyp_GroupCommit_2 : ∃ (r : Requester) (w : Word) (n : Fin 16) (s : State), s.direct r C1.txnAbort = true ∧ guardOk w = true ∧ s.txuRuns = true ∧ bitsOf w 15 0 < 4096 ∧ s.tagGroup (bitsOf w 15 0) = some n ∧ (s.group n).state = .opened :=
  ⟨.pcie, 0xFFFE0001, 0, W.openGroup, by decide +kernel⟩

theorem test_hyp_GroupCommit_3 : ∃ (r : Requester) (w : Word) (n : Fin 16) (s : State), s.direct r C1.txnRelease = true ∧ s.txuRuns = true ∧ s.tagGroup (bitsOf w 11 0) = some n ∧ (s.group n).state = .complete :=
  ⟨.pcie, 1, 0, W.group .complete, by decide +kernel⟩

theorem test_hyp_GroupStaging_1 : ∃ (r : Requester) (a : Nat) (w x : Word) (g : RegSpec) (n : Fin 16) (s : State), a % 4 = 0 ∧ 0x100 ≤ a % 0x10000 ∧ a < 0x2400000 ∧ s.reachable a = true ∧ s.pathOk r a = true ∧ s.spec a = some g ∧ s.commandAt a = none ∧ s.memberPage a = none ∧ s.tagOf r (pageOf a) ≠ 0 ∧ g.trans = true ∧ s.isMaster = true ∧ s.tagGroup (s.tagOf r (pageOf a)) = some n ∧ (s.group n).state = .opened ∧ s.stageCheck (s.groupView n) a g w = .value x [] :=
  ⟨.pcie, E7.level 0, 0xFFFE0001, 1, _, 0, W.tagged, by decide, by decide, by decide, by decide, by decide, rfl, rfl, by decide, by decide, rfl, by decide, by decide, by decide, rfl⟩

theorem test_hyp_GroupStaging_2 : ∃ (n : Fin 16) (d : Die) (share : Option GroupShare) (s : State), s.cRuns = true ∧ s.isMaster = true ∧ d ≠ .c ∧ (s.group n).state = .committed ∧ (s.group n).has 0 d = true ∧ s.powered d = true ∧ (s.group n).shadowed.contains d = false ∧ ((s.group n).share d).all (fun y => match s.spec y.addr with | some g => (clampsOf (s.fieldsOf y.addr g) y.value (s.legalise (s.groupView n) y.addr (s.fieldsOf y.addr g) y.value) true).isEmpty | none => true) = true :=
  ⟨0, .e, none, W.prepping, by decide +kernel⟩

theorem test_hyp_GroupStaging_3 : ∃ (n : Fin 16) (p : Fin 4) (d : Die) (s : State), s.txuRuns = true ∧ (s.group n).state = .committed ∧ (s.group n).has p.val d = true ∧ (p ≠ 0 ∨ (s.group n).shadowed.contains d = true) ∧ (s.group n).armedBy.contains (p.val, d) = false ∧ ((s.group n).participants.all (fun q => ((s.group n).armedBy ++ [(p.val, d)]).contains q)) = true :=
  ⟨0, 0, .e, W.shadowed, by decide +kernel⟩

theorem test_hyp_GroupVote_1 : ∃ (n : Fin 16) (go : Bool) (remote : List RemoteVote) (s : State), s.cRuns = true ∧ s.isMaster = true ∧ (s.group n).state = .armed ∧ s.groupDiff (s.group n) ≤ (if (s.group n).remote then 60000 else 50000) ∧ chosen (s.localFindings (s.group n) ++ remoteFindings (s.group n) remote) = none :=
  ⟨0, true, [], W.voting, by decide +kernel⟩

theorem test_hyp_GroupVote_2 : ∃ (n : Fin 16) (p : Fin 4) (d : Die) (reason : Nat) (s : State), s.cRuns = true ∧ s.isMaster = true ∧ (s.group n).state = .go ∧ s.groupClosed (s.group n) = false ∧ (s.group n).has p.val d = true ∧ reason ≠ rsnSupply :=
  ⟨0, 0, .e, 4, W.going, by decide +kernel⟩

theorem test_hyp_GroupVote_3 : ∃ (n : Fin 16) (s : State), s.cRuns = true ∧ (s.group n).state = .go ∧ (s.group n).closed = false ∧ s.groupDiff (s.group n) ≤ 2000 ∧ s.lampFault (s.group n) = none :=
  ⟨0, W.goingSoon, by decide +kernel⟩

theorem test_hyp_GroupVote_4 : ∃ (n : Fin 16) (s : State), s.keptDue n = none ∧ s.cRuns = true ∧ s.isMaster = true ∧ (s.group n).state = .go ∧ s.groupDiff (s.group n) ≤ 0 ∧ s.actFirst (s.group n).pages (s.group n).tS (s.group n).tNs = false :=
  ⟨0, W.goingDue, by decide +kernel⟩

theorem test_hyp_GroupVote_5 : ∃ (n : Fin 16) (s : State), s.txuRuns = true ∧ (s.group n).state = .waitSupply ∧ (allDies.any (fun d => (s.group n).has 0 d && s.supplyWarn d)) = false ∧ chosen (s.localFindings (s.group n) ++ remoteFindings (s.group n) []) = none ∧ s.txu.groups.length = 16 :=
  ⟨0, W.waiting, by decide +kernel⟩

theorem test_hyp_TimeCommands_1 : ∃ (r : Requester) (hi : Half) (s u : State), s.direct r C2.timeCmd = true ∧ guardOk (hi ++ (1 : Half)) = true ∧ s.cTime = true ∧ s.isMaster = true ∧ s.bit C2.timeQual 12 = true ∧ u = s.accept C2.timeCmd 1 :=
  by
  refine ⟨.pcie, 0xFFFE, W.pendC, _, ?_, ?_, ?_, ?_, ?_, rfl⟩ <;> decide +kernel

theorem test_hyp_TimeCommands_2 : ∃ (r : Requester) (hi : Half) (s u : State), s.direct r C2.timeCmd = true ∧ guardOk (hi ++ (2 : Half)) = true ∧ s.cTime = true ∧ s.isMaster = true ∧ s.bit C2.timeQual 12 = true ∧ u = s.accept C2.timeCmd 2 :=
  by
  refine ⟨.pcie, 0xFFFD, W.pendC, _, ?_, ?_, ?_, ?_, ?_, rfl⟩ <;> decide +kernel

theorem test_hyp_TimeCommands_3 : ∃ (r : Requester) (hi : Half) (s u : State), s.direct r C2.timeCmd = true ∧ guardOk (hi ++ (3 : Half)) = true ∧ s.cTime = true ∧ s.isMaster = true ∧ s.qualOf true ≠ qAcquiring ∧ s.qualOf true ≠ qLocked ∧ u = s.accept C2.timeCmd 3 :=
  by
  refine ⟨.pcie, 0xFFFC, W.on, _, ?_, ?_, ?_, ?_, ?_, ?_, rfl⟩ <;> decide +kernel

theorem test_hyp_TimeCommands_4 : ∃ (r : Requester) (hi : Half) (s u : State), s.direct r C2.timeCmd = true ∧ guardOk (hi ++ (4 : Half)) = true ∧ s.cTime = true ∧ u = s.accept C2.timeCmd 4 :=
  ⟨.pcie, 0xFFFB, W.on, _, by decide +kernel, by decide +kernel, by decide +kernel, rfl⟩

theorem test_hyp_TimeCommands_5 : ∃ (r : Requester) (hi : Half) (s u : State), s.direct r C2.timeCmd = true ∧ guardOk (hi ++ (5 : Half)) = true ∧ s.cTime = true ∧ u = s.accept C2.timeCmd 5 :=
  ⟨.pcie, 0xFFFA, W.on, _, by decide +kernel, by decide +kernel, by decide +kernel, rfl⟩

theorem test_hyp_TimeCommands_6 : ∃ (r : Requester) (hi : Half) (s u : State), s.direct r E8.timeCmd = true ∧ guardOk (hi ++ (1 : Half)) = true ∧ s.cTime = false ∧ s.isMaster = true ∧ s.bit E8.timeQual 12 = true ∧ u = s.accept E8.timeCmd 1 :=
  by
  refine ⟨.spi, 0xFFFE, W.pendE, _, ?_, ?_, ?_, ?_, ?_, rfl⟩ <;> decide +kernel

theorem test_hyp_TimeCommands_7 : ∃ (r : Requester) (hi : Half) (s u : State), s.direct r E8.timeCmd = true ∧ guardOk (hi ++ (2 : Half)) = true ∧ s.cTime = false ∧ s.isMaster = true ∧ s.bit E8.timeQual 12 = true ∧ u = s.accept E8.timeCmd 2 :=
  by
  refine ⟨.spi, 0xFFFD, W.pendE, _, ?_, ?_, ?_, ?_, ?_, rfl⟩ <;> decide +kernel

theorem test_hyp_TimeCommands_8 : ∃ (r : Requester) (hi : Half) (s u : State), s.direct r E8.timeCmd = true ∧ guardOk (hi ++ (3 : Half)) = true ∧ s.cTime = false ∧ s.isMaster = true ∧ s.qualOf false ≠ qAcquiring ∧ s.qualOf false ≠ qLocked ∧ u = s.accept E8.timeCmd 3 :=
  by
  refine ⟨.spi, 0xFFFC, State.reset, _, ?_, ?_, ?_, ?_, ?_, ?_, rfl⟩ <;> decide +kernel

theorem test_hyp_TimeCommands_9 : ∃ (r : Requester) (hi : Half) (s u : State), s.direct r E8.timeCmd = true ∧ guardOk (hi ++ (5 : Half)) = true ∧ s.cTime = false ∧ u = s.accept E8.timeCmd 5 :=
  ⟨.spi, 0xFFFA, State.reset, _, by decide +kernel, by decide +kernel, by decide +kernel, rfl⟩

theorem test_hyp_TimeKeeping_1 : ∃ (r : Requester) (w : Word) (s : State), s.direct r C2.timeSnap = true :=
  ⟨.pcie, 1, W.on, by decide +kernel⟩

theorem test_hyp_TimeKeeping_2 : ∃ (r : Requester) (w : Word) (s : State), s.direct r E8.timeSnap = true :=
  ⟨.spi, 1, State.reset, by decide +kernel⟩

theorem test_hyp_TimeKeeping_3 : ∃ (d : Die) (s : State), s.cTime = true ∧ s.powered d = true :=
  ⟨.e, W.on, by decide +kernel⟩

theorem test_hyp_TimeKeeping_4 : ∃ (m : StepMsg) (s : State), s.time.step = some m ∧ m.instant ≤ s.now (if s.cTime then .c else .e) :=
  ⟨{ instant := 0, delta := 5, advance := true }, W.stepping, by decide +kernel⟩

theorem test_hyp_TimeKeeping_5 : ∃ (m : StepMsg) (s : State), s.time.step = some m ∧ s.now (if s.cTime then .c else .e) < m.instant :=
  ⟨{ instant := 2000000000, delta := 5, advance := true }, { W.on with time := { W.on.time with step := some { instant := 2000000000, delta := 5, advance := true } } }, by decide +kernel⟩

theorem test_hyp_TimeKeeping_6 : ∃ (s : State), s.cTime = false :=
  ⟨State.reset, by decide +kernel⟩

theorem test_hyp_TimeMeasurements_1 : ∃ (src : Fin 14) (m : TimeMeas) (s : State), src.val ≠ 13 ∧ (s.cTime = true ∨ src.val = 11) ∧ (src.val < 3 → s.ptpSlave src.val = true) :=
  ⟨5, W.meas, W.on, by decide +kernel⟩

theorem test_hyp_TimeMeasurements_2 : ∃ (src : Fin 14) (x : SrcRec) (s u : State), s.time.ntu.sources.find? (fun y => y.num == src.val) = some x ∧ s.cTime = true ∧ x.last + s.fld C2.srcMode 13 8 * 1000000000 ≤ s.mono ∧ u = ((s.onKeeper true (fun k => { k with sources := k.sources.filter (fun y => y.num != src.val) })).raise C2.page 4).reselect :=
  ⟨0, W.src0, W.srcLost, _, by decide +kernel, by decide +kernel, by decide +kernel, rfl⟩

theorem test_hyp_TimeMeasurements_3 : ∃ (port : Fin 3) (ptp wellFormed : Bool) (s u : State), s.cTime = true ∧ (ptp = true ∨ s.bit (C2.ptpCfg port.val) 4 = true) ∧ u = s.emit (.ptpRx port.val (ntime (movedStamp (s.now .c) s.frac.toNat (-((s.rd (C2.ptpRxlatPs port.val)).toNat : Int))).1 s.time.epoch (BitVec.ofNat 16 (movedStamp (s.now .c) s.frac.toNat (-((s.rd (C2.ptpRxlatPs port.val)).toNat : Int))).2))) :=
  ⟨0, true, true, W.on, _, by decide +kernel, by decide +kernel, rfl⟩

theorem test_hyp_TimeMeasurements_4 : ∃ (port : Fin 3) (wellFormed : Bool) (s : State), s.cTime = true ∧ s.bit (C2.ptpCfg port.val) 4 = false :=
  ⟨0, true, W.on, by decide +kernel⟩

theorem test_hyp_TimeMeasurements_5 : ∃ (port : Fin 3) (sync : Bool) (s : State), s.cTime = true ∧ s.ptpMaster port.val = true :=
  ⟨0, true, W.on.wr (C2.ptpCfg 0) 2, by decide +kernel⟩

theorem test_hyp_TimeMeasurements_6 : ∃ (l : Fin 8) (m : Nat) (s : State), s.ttMember l.val = some m ∧ s.linkOn l.val = true ∧ s.bit (C2.ttCfg l.val) 0 = true ∧ s.time.ttNext[l.val] ≤ s.mono :=
  ⟨0, 0, W.ttLink, by decide +kernel⟩

theorem test_hyp_TimeMeasurements_7 : ∃ (l : Fin 9) (m : Fin 3) (seq t1 : Nat) (s : State), l.val < 8 ∧ s.linkOn l.val = true ∧ s.memAvail l.val m.val = true :=
  ⟨0, 0, 3, 5, W.ttLink, by decide +kernel⟩

theorem test_hyp_TimeMeasurements_8 : ∃ (m : Fin 3) (seq t1 : Nat) (x : MeshAuth) (s : State), s.meshOn = true ∧ s.mesh.auth = some x ∧ s.pendAct (.rf 7) = none :=
  ⟨0, 3, 5, (W.authOf 1), { W.meshUp with mesh := { W.meshUp.mesh with auth := some (W.authOf 1) } }, by decide +kernel⟩

theorem test_hyp_TimeMeasurements_9 : ∃ (l : Fin 9) (seq : Nat) (m : TimeMeas) (x : TtExchange) (s : State), s.ttOpen l.val seq = some x ∧ (l.val ≠ 8 ∨ s.mesh.auth.isSome = true) :=
  ⟨0, 3, W.meas, W.exch0, W.exch, by decide +kernel, by decide +kernel⟩

theorem test_hyp_TimeMeasurements_10 : ∃ (l : Fin 9) (x : TtExchange) (s : State), s.time.exchanges.find? (fun (y : TtExchange) => y.link == l.val) = some x ∧ x.sent + 100000000 ≤ s.mono :=
  ⟨0, W.exch0, W.exchOld, by decide +kernel⟩

theorem test_hyp_TimeMeasurements_11 : ∃ (s : State), s.meshOn = true ∧ s.parentUp = true ∧ s.mesh.lastTt + secNs (s.fld E8.eTimeCfg 27 16) ≤ s.mono :=
  ⟨W.meshUp, by decide +kernel⟩

theorem test_hyp_ActionsAndFlue_1 : ∃ (r : Requester) (x : ActSlot) (w : Word) (s t : State), s.direct r (slotArm x) = true ∧ guardOk w = true ∧ bitsOf w 15 0 / 8 = 0 ∧ bitOf w 2 = true ∧ s.slotLead x = none ∧ s.slotTaken x = false ∧ t = s.wr (slotArm x) (guardRead (bitsOf w 15 0)) ∧ t.lampArmBad x = false ∧ t.pendAct x = none :=
  ⟨.pcie, .lamp 0, 0xFFFB0004, W.on, W.on.wr (slotArm (.lamp 0)) (guardRead 4), by decide +kernel⟩

theorem test_hyp_ActionsAndFlue_2 : ∃ (r : Requester) (x : ActSlot) (hi : Half) (a : PendAct) (s t : State), s.direct r (slotArm x) = true ∧ guardOk (hi ++ (0 : Half)) = true ∧ s.slotLead x = none ∧ s.slotTaken x = false ∧ t = s.wr (slotArm x) (guardRead 0) ∧ s.pendAct x = some a ∧ t.actBegun a = false ∧ t.fld (slotStat x) 3 0 = stPending :=
  ⟨.pcie, .lamp 0, 0xFFFF, W.act0, W.armed, W.armed.wr (slotArm (.lamp 0)) (guardRead 0), by decide +kernel⟩

theorem test_hyp_ActionsAndFlue_3 : ∃ (x : ActSlot) (a : PendAct) (s : State), s.pendAct x = some a ∧ s.bit (slotStat x) 28 = true ∧ s.fld (slotStat x) 3 0 = stPending ∧ s.actWarn a = false ∧ s.fld (slotStat x) 31 30 = 0 :=
  ⟨.lamp 0, W.act0, W.deferred, by decide +kernel⟩

theorem test_hyp_ActionsAndFlue_4 : ∃ (src dst : Die) (m : FlueMsg) (s : State), flueLink src dst = true ∧ s.powered src = true ∧ s.powered dst = true ∧ guardOk m.word = true :=
  ⟨.c, .e, { cls := .critical, addr := 0, word := 0xFFFF0000 }, W.on, by decide +kernel⟩

theorem test_hyp_ActionsAndFlue_5 : ∃ (src dst : Die) (ms : List FlueMsg) (s : State), flueLink src dst = false :=
  ⟨.e, .d 0, [], W.on, by decide +kernel⟩

theorem test_hyp_ActionsAndFlue_6 : ∃ (n : Fin 6) (s : State), s.power.released.getLsbD n.val = true ∧ s.power.flueRetry[(linkIdx (.d n)).val] ≠ 15 :=
  ⟨0, W.on, by decide +kernel⟩

theorem test_hyp_ActionsAndFlue_7 : ∃ (n : Fin 6) (s : State), s.power.released.getLsbD n.val = true :=
  ⟨0, W.on, by decide +kernel⟩

theorem test_hyp_Crystals_1 : ∃ (s : State), s.power.phase = .done :=
  ⟨State.reset, by decide +kernel⟩

theorem test_hyp_Crystals_2 : ∃ (s : State), s.bit E1.oscStat 0 = true :=
  ⟨W.x32k, by decide +kernel⟩

theorem test_hyp_Crystals_3 : ∃ (u : Fin 4) (s t : State), s.power.phase = .done ∧ t = ({ s with power := { s.power with oscUsers := s.power.oscUsers ||| BitVec.ofNat 4 (2 ^ u.val) } }).oscSync :=
  ⟨0, State.reset, _, by decide +kernel, rfl⟩

theorem test_hyp_Crystals_5 : ∃ (s : State), s.bit E1.oscStat 1 = true :=
  ⟨W.on40, by decide +kernel⟩

theorem test_hyp_Crystals_6 : ∃ (s : State), s.bit E1.oscStat 1 = true :=
  ⟨W.on40, by decide +kernel⟩

theorem test_hyp_Crystals_7 : ∃ (s : State), s.x40On = true :=
  ⟨W.on, by decide +kernel⟩

theorem test_hyp_PowerCommands_1 : ∃ (r : Requester) (hi : Half) (s : State), s.direct r GLB.pwrCmd = true ∧ guardOk (hi ++ (1 : Half)) = true ∧ (∀ n, r ≠ .engine n) ∧ s.pstate = 1 ∧ s.power.trans = none :=
  ⟨.spi, 0xFFFE, State.reset, by decide, by decide, by decide, by decide, by decide⟩

theorem test_hyp_PowerCommands_2 : ∃ (r : Requester) (hi : Half) (sr : Bool) (s : State), s.direct r GLB.pwrCmd = true ∧ guardOk (hi ++ BitVec.ofNat 16 (1 + b2n sr * 1024)) = true ∧ (∀ n, r ≠ .engine n) ∧ (s.pstate = 2 ∨ s.pstate = 3) ∧ s.power.trans = none :=
  ⟨.pcie, 0xFFFE, false, W.on, by decide, by decide, by decide, by decide, by decide⟩

theorem test_hyp_PowerCommands_3 : ∃ (r : Requester) (hi : Half) (s : State), s.direct r GLB.pwrCmd = true ∧ guardOk (hi ++ BitVec.ofNat 16 (2 + b2n false * 1024)) = true ∧ (∀ n, r ≠ .engine n) ∧ s.pstate = 1 ∧ s.power.trans = none :=
  ⟨.spi, 0xFFFD, State.reset, by decide, by decide, by decide, by decide, by decide⟩

theorem test_hyp_PowerCommands_4 : ∃ (r : Requester) (hi : Half) (en : BitVec 6) (s : State), s.direct r GLB.pwrCmd = true ∧ guardOk (hi ++ BitVec.ofNat 16 (3 + en.toNat * 16 + b2n false * 1024)) = true ∧ (∀ n, r ≠ .engine n) ∧ en.toNat < 2 ^ radioDies s.part ∧ s.pstate = 1 ∧ s.power.trans = none :=
  ⟨.spi, 0xFC0C, 0x3F, State.reset, by decide, by decide, by decide, by decide, by decide, by decide⟩

theorem test_hyp_PowerCommands_5 : ∃ (r : Requester) (hi : Half) (sr : Bool) (s : State), s.direct r GLB.pwrCmd = true ∧ guardOk (hi ++ BitVec.ofNat 16 (2 + b2n sr * 1024)) = true ∧ (∀ n, r ≠ .engine n) ∧ (s.pstate = 2 ∨ s.pstate = 3) ∧ s.power.trans = none :=
  ⟨.pcie, 0xFFFD, false, W.on, by decide, by decide, by decide, by decide, by decide⟩

theorem test_hyp_PowerCommands_6 : ∃ (r : Requester) (hi : Half) (en : BitVec 6) (sr : Bool) (s : State), s.direct r GLB.pwrCmd = true ∧ guardOk (hi ++ BitVec.ofNat 16 (3 + en.toNat * 16 + b2n sr * 1024)) = true ∧ (∀ n, r ≠ .engine n) ∧ en.toNat < 2 ^ radioDies s.part ∧ (s.pstate = 2 ∨ s.pstate = 3) ∧ s.power.trans = none :=
  ⟨.pcie, 0xFC0C, 0x3F, false, W.on, by decide, by decide, by decide, by decide, by decide, by decide⟩

theorem test_hyp_PowerCommands_7 : ∃ (n : Fin 16) (hi : Half) (s : State), s.direct (.engine n) GLB.pwrCmd = true ∧ guardOk (hi ++ (5 : Half)) = true :=
  ⟨1, 0xFFFA, W.on, by decide, by decide⟩

theorem test_hyp_PowerCommands_8 : ∃ (r : Requester) (hi : Half) (s : State), s.direct r GLB.pwrCmd = true ∧ guardOk (hi ++ (4 : Half)) = true ∧ (∀ n, r ≠ .engine n) ∧ s.power.trans = none :=
  ⟨.spi, 0xFFFB, State.reset, by decide, by decide, by decide, by decide⟩

theorem test_hyp_PowerCommands_9 : ∃ (r : Requester) (hi : Half) (s : State), s.direct r GLB.pwrCmd = true ∧ guardOk (hi ++ (5 : Half)) = true ∧ (∀ n, r ≠ .engine n) :=
  ⟨.spi, 0xFFFA, State.reset, by decide, by decide, by decide⟩

theorem test_hyp_PowerTransitions_1 : ∃ (t : Transition) (s : State), s.power.trans = some t ∧ t.kindle = true ∧ s.power.cUp = false ∧ t.paused = none ∧ s.warned = false :=
  ⟨W.kindle0, W.kindling, by decide +kernel⟩

theorem test_hyp_PowerTransitions_2 : ∃ (t : Transition) (s : State), s.power.trans = some t ∧ t.kindle = true ∧ s.power.cUp = false ∧ t.paused = none ∧ s.warned = true :=
  ⟨W.kindle0, W.kindling.wr E1.supWarnAct 2, by decide +kernel⟩

theorem test_hyp_PowerTransitions_3 : ∃ (t : Transition) (s : State) (en : BitVec 6), s.power.trans = some t ∧ t.kindle = true ∧ s.power.cUp = true ∧ s.testing .c = false ∧ s.fld GLB.selftestSum 1 0 = 1 ∧ t.paused = none ∧ (en = if t.target = 3 then BitVec.ofNat 6 (bitsOf t.cmd 9 4) else 0) :=
  ⟨W.kindle0, W.kindled, 0, by decide +kernel⟩

theorem test_hyp_PowerTransitions_4 : ∃ (t : Transition) (d : Fin 6) (s : State), s.power.trans = some t ∧ t.kindle = false ∧ t.adding.getLsbD d.val = true ∧ s.power.released.getLsbD d.val = false ∧ t.paused = none ∧ s.warned = false ∧ s.fld E1.dieRole (2 * d.val + 1) (2 * d.val) = 1 :=
  ⟨W.adding0, 0, W.adding, by decide +kernel⟩

theorem test_hyp_PowerTransitions_5 : ∃ (t : Transition) (d : Fin 6) (s : State), s.power.trans = some t ∧ t.kindle = false ∧ t.adding.getLsbD d.val = true ∧ s.power.released.getLsbD d.val = false ∧ t.paused = none ∧ s.warned = true :=
  ⟨W.adding0, 0, W.adding.wr E1.supWarnAct 2, by decide +kernel⟩

theorem test_hyp_PowerTransitions_6 : ∃ (t : Transition) (d : Fin 6) (rep : StartReport) (s : State), s.power.trans = some t ∧ t.adding.getLsbD d.val = true ∧ s.power.released.getLsbD d.val = true ∧ s.testing (.d d) = false ∧ s.role d = .access ∧ rep.fails = [] ∧ t.wait.getLsbD d.val = false ∧ t.ended.getLsbD d.val = false :=
  ⟨W.adding0, 0, { fails := [], head0 := none, head1 := none }, W.starting, by decide +kernel⟩

theorem test_hyp_PowerTransitions_7 : ∃ (t : Transition) (s : State), s.power.trans = some t ∧ t.down = true ∧ t.sr = none ∧ t.target = 1 :=
  ⟨W.down0, W.goingDown, by decide +kernel⟩

theorem test_hyp_PowerTransitions_8 : ∃ (t : Transition) (s : State), s.power.trans = some t ∧ t.down = true ∧ t.target = 0 ∧ t.sr ≠ some false :=
  ⟨{ W.down0 with target := 0 }, W.inTrans W.on { W.down0 with target := 0 }, by decide +kernel⟩

theorem test_hyp_PowerTransitions_9 : ∃ (t : Transition) (s : State), s.power.trans = some t ∧ (t.down = true ∨ t.sr = some true) ∧ 1 < t.target ∧ t.sr ≠ some false :=
  ⟨{ W.down0 with target := 2 }, W.inTrans W.on { W.down0 with target := 2 }, by decide +kernel⟩

theorem test_hyp_PowerTransitions_10 : ∃ (t : Transition) (t0 : Nat) (s : State), s.power.trans = some t ∧ t.paused = some t0 ∧ t0 + s.fld E1.pmCfg 15 12 * 100000000 < s.mono ∧ t.kindle = false ∧ t.origin = 2 :=
  ⟨W.paused0, 0, W.paused, by decide +kernel⟩

theorem test_hyp_PowerTransitions_11 : ∃ (t : Transition) (s : State), s.power.trans = some t ∧ (t.ramp.isSome = true ∨ t.kindle = true ∧ s.testing .c = true) :=
  ⟨W.kindle0, W.testing, by decide +kernel⟩

theorem test_hyp_PowerTransitions_12 : ∃ (t : Transition) (s : State), s.power.trans = some t ∧ t.kindle = true ∧ t.ramp = none ∧ s.testing .c = false ∧ t.paused = none ∧ s.warned = true :=
  ⟨W.kindle0, W.kindling.wr E1.supWarnAct 2, by decide +kernel⟩

theorem test_hyp_ResetsAndSelfTest_2 : ∃ (lowNs : Nat) (cmd : Option Word) (s : State), 10000 ≤ lowNs :=
  ⟨10000, none, W.on, by decide +kernel⟩

theorem test_hyp_ResetsAndSelfTest_3 : ∃ (us mv : Nat) (cmd : Option Word) (s : State), s.monOn 0 = true :=
  ⟨5, 900, none, State.reset, by decide +kernel⟩

theorem test_hyp_ResetsAndSelfTest_4 : ∃ (s t : State), s.power.phase = .held ∧ t = (List.range 6).foldl (fun (u : State) o => u.wr (E7.failsafe o) (BitVec.ofNat 32 (u.lampOut o).stored)) ({ s with power := { s.power with phase := .testing, x40Usable := true } }).embReset :=
  ⟨W.held, _, rfl, rfl⟩

theorem test_hyp_ResetsAndSelfTest_5 : ∃ (us mv : Nat) (cmd : Option Word) (s : State), s.power.cUp = true :=
  ⟨5, 900, none, W.on, by decide +kernel⟩

theorem test_hyp_ResetsAndSelfTest_6 : ∃ (d : Fin 6) (m : Fin 8) (us mv : Nat) (cmd : Option Word) (s : State), s.power.released.getLsbD d.val = true ∧ m.val = d.val + 2 :=
  ⟨0, 2, 5, 900, none, W.on, by decide +kernel⟩

theorem test_hyp_ResetsAndSelfTest_7 : ∃ (us mv : Nat) (cmd : Option Word) (d : Fin 6) (s : State), s.monOn 0 = false ∧ s.power.cUp = false ∧ s.power.released.getLsbD d.val = false :=
  ⟨5, 900, none, 0, W.held, by decide +kernel⟩

theorem test_hyp_ResetsAndSelfTest_8 : ∃ (die : Die) (rep : TestReport) (cmd : Option Word) (s : State), s.testing die = true ∧ rep.standing = 0 ∧ rep.first ≠ 0 :=
  ⟨.c, W.again, none, W.testing, by decide +kernel⟩

theorem test_hyp_ResetsAndSelfTest_9 : ∃ (die : Die) (rep : TestReport) (cmd : Option Word) (s : State), s.testing die = true ∧ rep.standing ≠ 0 :=
  ⟨.c, W.failed, none, W.testing, by decide +kernel⟩

theorem test_hyp_ResetsAndSelfTest_10 : ∃ (die : Die) (rep : TestReport) (cmd : Option Word) (s : State), s.testing die = true ∧ rep.standing = 0 ∧ rep.first = 0 :=
  ⟨.c, W.passed, none, W.testing, by decide +kernel⟩

theorem test_hyp_ResetsAndSelfTest_11 : ∃ (die : Die) (x : Die × Nat) (cmd : Option Word) (s : State), s.power.tests.find? (fun (y : Die × Nat) => y.1 == die) = some x ∧ x.2 + 180000000 ≤ s.mono :=
  ⟨.c, (.c, 0), none, W.testOld, by decide +kernel⟩

theorem test_hyp_MonitorsAndPins_1 : ∃ (m : Fin 8) (s : State), s.monOn m = true ∧ s.bit E1.supWarnAct m.val = false :=
  ⟨1, W.on, by decide +kernel⟩

theorem test_hyp_MonitorsAndPins_2 : ∃ (m : Fin 8) (us mv : Nat) (s : State), s.monOn m = true ∧ s.bit E1.supWarnAct m.val = true :=
  ⟨1, 5, 900, W.warned, by decide +kernel⟩

theorem test_hyp_MonitorsAndPins_3 : ∃ (mv : Nat) (s : State), s.power.retained = true :=
  ⟨5, W.retained, by decide +kernel⟩

theorem test_hyp_MonitorsAndPins_4 : ∃ (temp : Int) (s : State), s.power.phase = .done ∧ s.powered .e = true ∧ s.power.hot.getLsbD 1 = false ∧ -128 ≤ temp ∧ temp ≤ 127 ∧ temp < (s.fld (DC.tempCfg (dieWin .e)) 7 0 : Nat) ∧ s.bit (DC.tempMax (dieWin .e)) 31 = false :=
  ⟨25, State.reset, by decide +kernel⟩

theorem test_hyp_MonitorsAndPins_5 : ∃ (temp : Int) (s : State), s.sub.calRef = true ∧ s.bit E3.calStat 17 = false ∧ 20 < (temp - sx 8 (s.fld E3.calStat 31 24)).natAbs :=
  ⟨25, W.sgCalRef, by decide +kernel⟩

theorem test_hyp_MonitorsAndPins_6 : ∃ (pin : Fin 12) (level : Bool) (s : State), s.power.phase = .done ∧ level ≠ (s.pin pin.val).counted ∧ (s.pin pin.val).since = none :=
  ⟨0, true, State.reset, by decide +kernel⟩

theorem test_hyp_MonitorsAndPins_7 : ∃ (pin : Fin 12) (t0 stamp : Nat) (s : State), (s.pin pin.val).since = some (t0, stamp) ∧ t0 + s.fld (E10.gpioCfg pin.val) 15 8 * 1000000 ≤ s.mono ∧ (s.pin pin.val).counted = false ∧ s.gpioMode pin.val = 1 :=
  ⟨0, 0, 0, W.bounced, by decide +kernel⟩

theorem test_hyp_RegisterRows_1 : ∃ (r : Requester) (a : Nat) (w x : Word) (s : State), s.takes r a w x = true ∧ a % 4 = 0 ∧ winOf a = 2 ∧ a ≠ E1.dieRole ∧ ctxInWord a = none ∧ (a < E3.actS 0 ∨ E3.actS 8 ≤ a) ∧ hookedAt a = false :=
  ⟨.pcie, E3.page + 0x114, 5, 5, W.on, by decide +kernel⟩

theorem test_hyp_RegisterRows_2 : ∃ (r : Requester) (w x : Word) (s : State), s.takes r E1.dieRole w x = true :=
  ⟨.pcie, 1, 1, W.on, by decide +kernel⟩

theorem test_hyp_RegisterRows_3 : ∃ (r : Requester) (w x : Word) (s : State), s.takes r E3.chan0Khz w x = true :=
  ⟨.pcie, 863100, 863100, W.on, by decide +kernel⟩

theorem test_hyp_RegisterRows_4 : ∃ (r : Requester) (w x : Word) (s : State), s.takes r E3.chanSel w x = true :=
  ⟨.pcie, 0, 0, W.on, by decide +kernel⟩

theorem test_hyp_RegisterRows_5 : ∃ (r : Requester) (d : Fin 6) (w x : Word) (s : State), s.takes r (D4.partChan d.val) w x = true :=
  ⟨.pcie, 0, W.chanWord, W.chanWord, W.access0, by decide +kernel⟩

theorem test_hyp_RegisterRows_6 : ∃ (r : Requester) (l : Fin 8) (w x : Word) (s : State), s.takes r (C17.linkCfg l.val) (putBit w 31 true) x = true :=
  ⟨.pcie, 0, 0, W.linkWord, W.on, by decide +kernel⟩

theorem test_hyp_RegisterRows_7 : ∃ (r : Requester) (l : Fin 8) (w x : Word) (s : State), s.takes r (C17.keySel l.val) w x = true :=
  ⟨.pcie, 0, 0xFFFE0001, 1, W.on, by decide +kernel⟩

theorem test_hyp_RegisterRows_8 : ∃ (r : Requester) (q : Fin 2) (w x : Word) (s : State), s.takes r (C9.sfpI2c q.val) w x = true :=
  ⟨.pcie, 0, 0x500000, 0x500000, W.on, by decide +kernel⟩

theorem test_hyp_RegisterRows_9 : ∃ (r : Requester) (o : Fin 6) (w x : Word) (s : State), s.takes r (E7.level o.val) w x = true :=
  ⟨.pcie, 0, 0xFFFA0005, 5, W.on, by decide +kernel⟩

theorem test_hyp_RadioCommands_1 : ∃ (r : Requester) (s : State), s.direct r E3.rfCmd = true ∧ s.sgEnabled = true ∧ s.sg ≤ 3 :=
  ⟨.pcie, W.radio, by decide +kernel⟩

theorem test_hyp_RadioCommands_2 : ∃ (r : Requester) (s : State), s.direct r E3.rfCmd = true ∧ s.sgEnabled = true ∧ s.sg ≤ 3 :=
  ⟨.pcie, W.radio, by decide +kernel⟩

theorem test_hyp_RadioCommands_3 : ∃ (r : Requester) (s : State), s.direct r E3.rfCmd = true ∧ s.sgEnabled = true ∧ s.sg ≤ 3 :=
  ⟨.pcie, W.radio, by decide +kernel⟩

theorem test_hyp_RadioCommands_4 : ∃ (r : Requester) (s : State), s.direct r E3.rfCmd = true ∧ s.sgEnabled = true ∧ s.sg ≤ 3 :=
  ⟨.pcie, W.radio, by decide +kernel⟩

theorem test_hyp_RadioCommands_5 : ∃ (r : Requester) (set k : BitVec 7) (s : State), s.direct r E3.rfCmd = true ∧ s.sgEnabled = true ∧ (s.sg = sgIdle ∨ s.sg = sgListen ∨ s.sg = sgSleep) ∧ k = (if set = 0 then 0x7F else set) ∧ s.sgActWithin (sgCalNs k) = false :=
  ⟨.pcie, 0, 0x7F, W.radio, by decide +kernel⟩

theorem test_hyp_RadioCommands_6 : ∃ (r : Requester) (s : State), s.direct r E3.rfCmd = true ∧ s.sgEnabled = true ∧ (s.sg = sgIdle ∨ s.sg = sgListen ∨ s.sg = sgSleep) ∧ s.sgActWithin (sgCalNs 0x40) = false :=
  ⟨.pcie, W.radio, by decide +kernel⟩

theorem test_hyp_RadioCommands_7 : ∃ (r : Requester) (s : State), s.direct r E3.rfCmd = true ∧ s.sgEnabled = true ∧ (s.sg = sgIdle ∨ s.sg = sgListen ∨ s.sg = sgSleep) :=
  ⟨.pcie, W.radio, by decide +kernel⟩

theorem test_hyp_RadioCommands_8 : ∃ (r : Requester) (done : Bool) (s : State), s.direct r E3.rfCmd = true ∧ s.sgEnabled = true ∧ s.sg = sgListen :=
  ⟨.pcie, false, W.listening, by decide +kernel⟩

theorem test_hyp_RadioCommands_9 : ∃ (r : Requester) (s : State), s.direct r E3.rfCmd = true ∧ s.sgEnabled = true ∧ s.sgTrimmable = true :=
  ⟨.pcie, W.radio, by decide +kernel⟩

theorem test_hyp_RadioCommands_10 : ∃ (r : Requester) (s : State), s.direct r E3.rfCmd = true ∧ s.sgEnabled = true ∧ s.sgTrimmable = false :=
  ⟨.pcie, W.sending, by decide +kernel⟩

theorem test_hyp_RadioCommands_11 : ∃ (r : Requester) (s : State), s.direct r E3.rfCmd = true ∧ s.sgEnabled = true ∧ s.sg = sgRxSt ∧ s.sub.ackDue = false :=
  ⟨.pcie, W.inRx, by decide +kernel⟩

theorem test_hyp_RadioCommands_12 : ∃ (r : Requester) (done : Bool) (s : State), s.direct r E3.rfCmd = true ∧ s.sgEnabled = true ∧ s.sg = sgTxSt :=
  ⟨.pcie, false, W.sending, by decide +kernel⟩

theorem test_hyp_RadioCommands_13 : ∃ (r : Requester) (done : Bool) (s : State), s.direct r E3.rfCmd = true ∧ s.sgEnabled = true ∧ s.sg = sgCalSt :=
  ⟨.pcie, false, W.calRun, by decide +kernel⟩

theorem test_hyp_RadioCommands_14 : ∃ (r : Requester) (set : BitVec 7) (s : State), s.direct r E3.rfCmd = true ∧ s.sgEnabled = true ∧ 4 ≤ s.sg :=
  ⟨.pcie, 0, W.sending, by decide +kernel⟩

theorem test_hyp_RadioCommands_15 : ∃ (r : Requester) (s : State), s.direct r E3.rfCmd = true ∧ s.sgEnabled = false :=
  ⟨.pcie, W.on, by decide +kernel⟩

theorem test_hyp_RadioReception_1 : ∃ (k : Fin 4) (s : State), s.sg = sgListen ∧ s.sgSearches k.val = true :=
  ⟨0, W.searching, by decide +kernel⟩

theorem test_hyp_RadioReception_2 : ∃ (k : Fin 4) (rssi : Int) (c : Bool) (s : State), s.sg = sgListen ∧ s.sgSearches k.val = true :=
  ⟨0, -100, false, W.searching, by decide +kernel⟩

theorem test_hyp_RadioReception_3 : ∃ (k : Fin 4) (rssi : Int) (c : Bool) (x : SgRx) (s : State), s.sg = sgRxSt ∧ s.sub.rx = some x ∧ x.confirmed = false ∧ x.corr = k.val ∧ x.synced = false :=
  ⟨0, -100, false, W.rxTent, W.tentative, by decide +kernel⟩

theorem test_hyp_RadioReception_4 : ∃ (h : SgPhr) (x : SgRx) (s : State), s.sub.rx = some x ∧ x.confirmed = false ∧ s.sgHeaderOk x h = true :=
  ⟨W.phr, W.rx0, W.receiving, by decide +kernel⟩

theorem test_hyp_RadioReception_5 : ∃ (k : Fin 4) (rssi : Int) (c : Bool) (octets : Nat) (x : SgRx) (s : State), s.sub.rx = some x ∧ x.confirmed = true ∧ (x.corr = k.val ∨ s.sgSearches k.val = true) ∧ s.bit E3.rxCfg 2 = true ∧ x.rssi + 2 * (s.fld E3.rxCfg 8 4 : Nat) ≤ rssi ∧ 2 * octets < x.len :=
  ⟨0, 0, false, 0, W.rx1, W.confirmed, by decide +kernel⟩

theorem test_hyp_RadioReception_6 : ∃ (e : SgRxEnd) (x : SgRx) (s : State), s.sub.rx = some x ∧ x.confirmed = true ∧ (e.fcsOk = false ∨ s.macTakes e.mac = false) :=
  ⟨W.rxEndOf false W.mac0, W.rx1, W.confirmed, by decide +kernel⟩

theorem test_hyp_RadioReception_7 : ∃ (e : SgRxEnd) (x : SgRx) (s t : State), s.sub.rx = some x ∧ x.confirmed = true ∧ e.fcsOk = true ∧ s.macTakes e.mac = true ∧ t = ((s.sgRxDone x e).hear e.mac.src).onMesh (fun m => { m with rxd := some { mac := e.mac, stamp := x.stamp - s.fld E3.antDelay 9 0 } }) :=
  ⟨W.rxEnd, W.rx1, W.heardMesh, _, rfl, by decide +kernel, rfl, by decide +kernel, rfl⟩

theorem test_hyp_RadioReception_8 : ∃ (e : SgRxEnd) (x : SgRx) (s : State), s.bit E3.afcCfg 0 = false ∧ (s.fld E3.rxRingHead 9 0 + 1) % s.fld E3.rxRingSize 10 0 ≠ s.fld E3.rxRingTail 9 0 :=
  ⟨W.rxEnd, W.rx1, W.confirmed, by decide +kernel⟩

theorem test_hyp_RadioReception_9 : ∃ (level : Int) (s : State), s.sg = sgEdSt ∧ s.sub.edAt + s.sub.edFor ≤ s.mono :=
  ⟨-50, W.measuring, by decide +kernel⟩

theorem test_hyp_RadioReception_10 : ∃ (m : Int) (s : State), s.sub.trim = some m ∧ s.sub.trimClr = false ∧ s.sgTrimmable = true :=
  ⟨3, W.trimming, by decide +kernel⟩

theorem test_hyp_RadioReception_11 : ∃ (s : State), s.sub.trim = none ∧ s.sub.trimClr = true ∧ s.sgTrimmable = true :=
  ⟨W.radio.onSub (fun x => { x with trimClr := true }), by decide +kernel⟩

theorem test_hyp_RadioReception_12 : ∃ (s : State), s.sgTrimmable = false :=
  ⟨W.sending, by decide +kernel⟩

theorem test_hyp_RadioReception_13 : ∃ (s : State), s.sg = sgTxSt :=
  ⟨W.sending, by decide +kernel⟩

theorem test_hyp_RadioReception_14 : ∃ (s : State), s.sg = sgRxSt :=
  ⟨W.inRx, by decide +kernel⟩

theorem test_hyp_RadioTransmission_1 : ∃ (rl : Nat) (t : SgTx) (s : State), s.sub.tx = some t ∧ s.sub.txTo + s.rampNs ≤ s.mono :=
  ⟨60, W.tx0, W.sentLong, by decide +kernel⟩

theorem test_hyp_RadioTransmission_2 : ∃ (rl : Nat) (s : State), s.mono < s.sub.txTo + s.rampNs :=
  ⟨60, { W.sentLong with mono := 0 }, by decide +kernel⟩

theorem test_hyp_RadioTransmission_3 : ∃ (rl ret : Nat) (t : SgTx) (s : State), s.sub.tx = some t ∧ (ret = if t.kind = .ack then s.fld E3.rfCtrl 1 0 else s.fld E3.rfCtrl 3 2) ∧ s.sub.txTo < s.sub.txFrom + 100000 :=
  ⟨60, (W.sending.fld E3.rfCtrl 3 2), W.tx0, W.sending, by decide +kernel⟩

theorem test_hyp_RadioTransmission_4 : ∃ (rl ret : Nat) (t : SgTx) (s : State), s.sub.tx = some t ∧ (ret = if t.kind = .ack then s.fld E3.rfCtrl 1 0 else s.fld E3.rfCtrl 3 2) ∧ s.sub.txFrom + 100000 ≤ s.sub.txTo ∧ 4 * s.fld E3.tunerCfg 12 8 ≤ rl :=
  ⟨60, (W.sending.fld E3.rfCtrl 3 2), W.tx0, W.sentLong, by decide +kernel⟩

theorem test_hyp_RadioTransmission_5 : ∃ (rl ret : Nat) (t : SgTx) (s : State), s.sub.tx = some t ∧ (ret = if t.kind = .ack then s.fld E3.rfCtrl 1 0 else s.fld E3.rfCtrl 3 2) ∧ s.sub.txFrom + 100000 ≤ s.sub.txTo ∧ rl < 4 * s.fld E3.tunerCfg 12 8 ∧ s.sub.lowRl = 3 :=
  ⟨0, (W.sending.fld E3.rfCtrl 3 2), W.tx0, (W.sentLong.wr E3.tunerCfg 0x50600).onSub (fun x => { x with lowRl := 3 }), by decide +kernel⟩

theorem test_hyp_RadioTransmission_6 : ∃ (rl : Nat) (s : State), s.sg = sgTxSt ∧ rl < 4 * s.fld E3.tunerCfg 20 16 ∧ s.sub.protect = false ∧ s.sub.txExt = false :=
  ⟨0, W.sending, by decide +kernel⟩

theorem test_hyp_RadioTransmission_7 : ∃ (rl : Nat) (s : State), s.sg = sgTxSt ∧ rl < 4 * s.fld E3.tunerCfg 20 16 ∧ s.sub.protect = false ∧ s.sub.txExt = true :=
  ⟨0, W.sending.onSub (fun x => { x with txExt := true }), by decide +kernel⟩

theorem test_hyp_RadioTransmission_8 : ∃ (s : State), s.sg = sgSettle ∧ s.power.x40Usable = true ∧ s.sub.goal = .listen :=
  ⟨W.settling, by decide +kernel⟩

theorem test_hyp_RadioTransmission_9 : ∃ (t : SgTx) (t0 : Nat) (s : State), s.sub.wait = some (t, t0) ∧ s.sgHeld = false ∧ t0 + s.fld E3.txCfg 25 16 * 1000 ≤ s.mono :=
  ⟨W.tx0, 0, W.waitLock, by decide +kernel⟩

theorem test_hyp_RadioTransmission_10 : ∃ (t : SgTx) (t0 : Nat) (s : State), s.sub.wait = some (t, t0) ∧ s.sgHeld = true ∧ t0 + s.fld E3.txCfg 25 16 * 1000 ≤ s.mono :=
  ⟨W.tx0, 0, W.waitSupply, by decide +kernel⟩

theorem test_hyp_RadioTransmission_11 : ∃ (set : BitVec 7) (limit : Bool) (rl : Nat) (s : State), s.sub.cal = some set ∧ set.getLsbD 0 = false ∧ set.getLsbD 3 = false ∧ set.getLsbD 6 = false :=
  ⟨2, false, 0, W.calibrating, by decide +kernel⟩

theorem test_hyp_RadioTransmission_12 : ∃ (set : BitVec 7) (s : State), s.sub.calDefer = some set ∧ s.sgTrimmable = true ∧ s.sgActWithin (sgCalNs set) = false :=
  ⟨2, W.calDeferred, by decide +kernel⟩

theorem test_hyp_RadioTransmission_13 : ∃ (s : State), s.sub.retune = true ∧ s.bit E3.tunerCfg 0 = true ∧ s.sgExt = false ∧ (s.sg = sgIdle ∨ s.sg = sgListen) ∧ s.sgActWithin (sgCalNs 0x40) = false :=
  ⟨W.mismatched, by decide +kernel⟩

theorem test_hyp_RadioTransmission_14 : ∃ (i : Fin 8) (a : PendAct) (s : State), s.pendAct (.rf i) = some a ∧ s.fld (slotStat (.rf i)) 3 0 = stPending ∧ s.bit (slotStat (.rf i)) 28 = false ∧ s.actDiff a ≤ s.sgPrepNs a.desc ∧ s.sub.prepared ≠ some i ∧ s.sub.blocked.contains i = false :=
  ⟨0, W.rfAct 0, W.rfArmed 0, by decide +kernel⟩

theorem test_hyp_RadioTransmission_15 : ∃ (i : Fin 8) (a : PendAct) (s t : State), s.pendAct (.rf i) = some a ∧ bitsOf a.desc 2 0 = 0 ∧ s.actDue a = true ∧ s.bit (slotStat (.rf i)) 28 = false ∧ s.sub.blocked.contains i = false ∧ a.began = false ∧ s.actWarned a = false ∧ s.sgEnabled = true ∧ s.sub.prepared = some i ∧ s.sub.prepPsdu.isEmpty = false ∧ s.sgLockedFor a = true ∧ t = (s.onSub (fun x => { x with prepared := none })).setBit (slotStat (.rf i)) 25 (!s.locked) :=
  ⟨0, W.rfAct 0, W.rfReady, _, by decide, by decide, by decide, by decide, by decide, by decide, by decide, by decide, by decide, by decide, by decide, rfl⟩

theorem test_hyp_RadioTransmission_16 : ∃ (i : Fin 8) (a : PendAct) (s : State), s.pendAct (.rf i) = some a ∧ bitsOf a.desc 2 0 = 0 ∧ s.actDue a = true ∧ s.bit (slotStat (.rf i)) 28 = false ∧ s.sub.blocked.contains i = false ∧ a.began = false ∧ s.actWarned a = true :=
  ⟨0, W.rfAct 0, (W.rfReady.setBit E3.txCfg 0 true).setBit E1.supWarnAct 0 true, by decide +kernel⟩

theorem test_hyp_RadioTransmission_17 : ∃ (i : Fin 8) (a : PendAct) (s : State), s.pendAct (.rf i) = some a ∧ bitsOf a.desc 2 0 = 0 ∧ s.actDue a = true ∧ s.bit (slotStat (.rf i)) 28 = false ∧ s.sub.blocked.contains i = false ∧ a.began = false ∧ s.actWarned a = false ∧ s.sgEnabled = true ∧ s.sub.prepared = some i ∧ s.sub.prepPsdu.isEmpty = false ∧ s.sgLockedFor a = false :=
  ⟨0, W.rfAct 0, W.rfReady.setSgLocked false, by decide +kernel⟩

theorem test_hyp_RadioTransmission_18 : ∃ (i : Fin 8) (a : PendAct) (s t : State), s.pendAct (.rf i) = some a ∧ bitsOf a.desc 2 0 = 1 ∧ s.actDue a = true ∧ s.bit (slotStat (.rf i)) 28 = false ∧ s.sub.blocked.contains i = false ∧ s.actWarned a = false ∧ a.slot = .rf i ∧ s.sgEnabled = true ∧ s.sg ≠ sgTxSt ∧ s.sub.ackDue = false ∧ t = (s.sgYield.sgActChan a.desc).sgToListen :=
  ⟨0, W.rfAct 1, W.rfArmed 1, _, by decide, by decide, by decide, by decide, by decide, by decide, rfl, by decide, by decide, by decide, rfl⟩

theorem test_hyp_RadioTransmission_19 : ∃ (i : Fin 8) (a : PendAct) (s t : State), s.pendAct (.rf i) = some a ∧ bitsOf a.desc 2 0 = 2 ∧ s.actDue a = true ∧ s.bit (slotStat (.rf i)) 28 = false ∧ s.sub.blocked.contains i = false ∧ s.actWarned a = false ∧ a.slot = .rf i ∧ s.sgEnabled = true ∧ s.sg ≠ sgTxSt ∧ s.sub.ackDue = false ∧ t = s.sgYield.sgToIdle :=
  ⟨0, W.rfAct 2, W.rfArmed 2, _, by decide, by decide, by decide, by decide, by decide, by decide, rfl, by decide, by decide, by decide, rfl⟩

theorem test_hyp_RadioTransmission_20 : ∃ (i : Fin 8) (a : PendAct) (s t : State), s.pendAct (.rf i) = some a ∧ bitsOf a.desc 2 0 = 3 ∧ s.actDue a = true ∧ s.bit (slotStat (.rf i)) 28 = false ∧ s.sub.blocked.contains i = false ∧ s.actWarned a = false ∧ a.slot = .rf i ∧ s.sgEnabled = true ∧ s.sg ≠ sgTxSt ∧ s.sub.ackDue = false ∧ t = s.sgYield.sgToSleep :=
  ⟨0, W.rfAct 3, W.rfArmed 3, _, by decide, by decide, by decide, by decide, by decide, by decide, rfl, by decide, by decide, by decide, rfl⟩

theorem test_hyp_RadioTransmission_21 : ∃ (i : Fin 8) (a : PendAct) (s t : State), s.pendAct (.rf i) = some a ∧ bitsOf a.desc 2 0 = 4 ∧ s.actDue a = true ∧ s.bit (slotStat (.rf i)) 28 = false ∧ s.sub.blocked.contains i = false ∧ s.actWarned a = false ∧ a.slot = .rf i ∧ s.sgEnabled = true ∧ s.sg ≠ sgTxSt ∧ s.sub.ackDue = false ∧ t = (if bitOf a.desc 3 then s else s.setFld E3.chanSel 9 0 (bitsOf a.desc 17 8)).sgRetuneChan :=
  ⟨0, W.rfAct 4, W.rfArmed 4, _, by decide, by decide, by decide, by decide, by decide, by decide, rfl, by decide, by decide, by decide, rfl⟩

theorem test_hyp_MeshMac_1 : ∃ (k : AckDue) (s t : State), s.mesh.ackTo = some k ∧ s.sub.ackDue = true ∧ (t = (s.onSub (fun x => { x with ackDue := false })).onMesh (fun m => { m with ackTo := none, owed := if k.pend && (s.sleepyChild k.dest).isSome then some k.dest else m.owed })) :=
  ⟨W.ack0, W.acking, _, by decide +kernel, by decide +kernel, rfl⟩

theorem test_hyp_MeshMac_2 : ∃ (m : MacHdr) (c : MeshChild) (s : State), s.sleepyChild m.src = some c ∧ s.banked = false :=
  ⟨{ W.mac0 with src := 6 }, W.kid0, W.withKid, by decide +kernel⟩

theorem test_hyp_MeshMac_3 : ∃ (m : MacHdr) (s : State), s.child m.src = none ∧ s.sleepyChild m.src = none ∧ s.banked = false :=
  ⟨W.mac0, W.mesh1, by decide +kernel⟩

theorem test_hyp_MeshMac_4 : ∃ (m : MacHdr) (s : State), s.banked = true :=
  ⟨W.mac0, W.banked, by decide +kernel⟩

theorem test_hyp_MeshMac_5 : ∃ (energy : Int) (t : MacTx) (q : List MacTx) (s : State), s.mesh.txq = t :: q ∧ t.phase = .backoff ∧ sx 8 (s.fld E4.csmaCfg 23 16) ≤ energy ∧ t.backoffs + 1 ≤ s.fld E4.csmaCfg 10 8 :=
  ⟨0, W.macTx .backoff, [], W.meshTx .backoff, by decide +kernel⟩

theorem test_hyp_MeshMac_6 : ∃ (energy : Int) (t : MacTx) (q : List MacTx) (s : State), s.mesh.txq = t :: q ∧ t.phase = .backoff ∧ energy < sx 8 (s.fld E4.csmaCfg 23 16) ∧ s.sg ≠ sgRxSt ∧ s.sg ≠ sgTxSt :=
  ⟨-100, W.macTx .backoff, [], W.meshTx .backoff, by decide +kernel⟩

theorem test_hyp_MeshMac_7 : ∃ (dsn a b c : Nat) (t : MacTx) (q : List MacTx) (s : State), s.mesh.txq = t :: q ∧ t.phase = .ackWait ∧ t.sealed = some (a, b, c, dsn) :=
  ⟨3, 0, 0, 0, W.macTx .ackWait, [], W.meshTx .ackWait, by decide +kernel⟩

theorem test_hyp_MeshMac_8 : ∃ (t : MacTx) (q : List MacTx) (s : State), s.mesh.txq = t :: q ∧ t.phase = .ackWait ∧ t.since + s.ackWaitNs ≤ s.mono ∧ t.retries < s.fld E4.csmaCfg 14 12 ∧ t.gone = false :=
  ⟨W.macTx .ackWait, [], W.meshTx .ackWait, by decide +kernel⟩

theorem test_hyp_MeshMac_9 : ∃ (t : MacTx) (q : List MacTx) (s : State), s.mesh.txq = t :: q ∧ t.phase = .ackWait ∧ t.since + s.ackWaitNs ≤ s.mono ∧ s.fld E4.csmaCfg 14 12 ≤ t.retries :=
  ⟨W.macTx .ackWait, [], (W.meshTx .ackWait).wr E4.csmaCfg 0, by decide +kernel⟩

theorem test_hyp_MeshMac_10 : ∃ (t : MacTx) (q : List MacTx) (a b c d : Nat) (s : State), s.mesh.txq = t :: q ∧ t.phase = .ackWait ∧ t.since + s.ackWaitNs ≤ s.mono ∧ t.sealed = some (a, b, c, d) ∧ t.retries < s.fld E4.csmaCfg 14 12 ∧ t.gone = true :=
  ⟨{ W.macTx .ackWait with gone := true }, [], 0, 0, 0, 3, (W.meshTx .ackWait).onMesh (fun m => { m with txq := [{ W.macTx .ackWait with gone := true }] }), by decide +kernel⟩

theorem test_hyp_MeshMac_11 : ∃ (t : MacTx) (q : List MacTx) (s : State), s.mesh.txq = t :: q ∧ t.phase = .ackWait ∧ s.mono < t.since + s.ackWaitNs :=
  ⟨W.macTx .ackWait, [], { W.meshTx .ackWait with mono := 0 }, by decide +kernel⟩

theorem test_hyp_MeshMac_12 : ∃ (slot : Fin 16) (v : Nat) (s : State), (s.counterOf slot.val).saving = some v ∧ s.supplyWarn .e = false ∧ s.sub.prepared = none ∧ s.mesh.txq = [] :=
  ⟨0, 4096, W.fcSaving, by decide +kernel⟩

theorem test_hyp_MeshFrames_1 : ∃ (f : MeshSec) (x : MacRxd) (eui : Nat) (s s0 : State), s.mesh.rxd = some x ∧ s.meshOn = true ∧ x.mac.srcEui.or ((s.nbrEui x.mac.src).or f.learnt) = some eui ∧ s.keySlots.any (fun k => s.fld (E6.keyStat k) 23 16 == x.mac.keyIndex) = true ∧ f.micOk = true ∧ judgeReplay (((s.mesh.replay.find? (fun e => e.eui == eui)).map ReplayEntry.sets).getD []) x.mac.keyIndex x.mac.counter x.mac.dsn = .accept ∧ (x.mac.ftype ≠ 1 ∨ (f.ttl ≠ 0 ∧ f.rsvZero = true ∧ f.mtype ≠ 0 ∧ f.mtype ≤ 7)) ∧ s0 = s.onMesh (fun m => { m with rxd := none, auth := none }) :=
  by
  refine ⟨W.sec0, W.rxd0, 50, W.heldFrame, _, ?_, ?_, ?_, ?_, ?_, ?_, ?_, rfl⟩ <;> decide +kernel

theorem test_hyp_MeshFrames_2 : ∃ (f : MeshSec) (x : MacRxd) (eui : Nat) (s s0 : State), s.mesh.rxd = some x ∧ s.meshOn = true ∧ x.mac.srcEui.or ((s.nbrEui x.mac.src).or f.learnt) = some eui ∧ s.keySlots.any (fun k => s.fld (E6.keyStat k) 23 16 == x.mac.keyIndex) = true ∧ s0 = s.onMesh (fun m => { m with rxd := none, auth := none }) :=
  ⟨W.sec0, W.rxd0, 50, W.heldFrame, _, by decide +kernel, by decide +kernel, by decide +kernel, by decide +kernel, rfl⟩

theorem test_hyp_MeshFrames_3 : ∃ (h : MeshHdr) (rssi : Int) (x : MeshAuth) (t s : State), s.takeAuth = some (x, t) ∧ s.child x.src = none ∧ h.mtype = 1 ∧ h.dest = s.meshAddr ∧ reservedAddr h.dest = false ∧ h.ext = false :=
  ⟨{ W.hdr0 with dest := 7 }, -70, W.authOf 5, _, W.heardFrom7, rfl, by decide +kernel⟩

theorem test_hyp_MeshFrames_4 : ∃ (h : MeshHdr) (rssi : Int) (c : MeshChild) (x : MeshAuth) (t s : State), s.takeAuth = some (x, t) ∧ s.child x.src = some c ∧ h.mtype = 1 ∧ h.dest ≠ s.meshAddr ∧ reservedAddr h.dest = false ∧ s.banked = false ∧ s.sleepyChild h.dest = none :=
  ⟨{ W.hdr0 with dest := 8 }, -70, W.kid0, W.authOf 6, _, W.withKid, rfl, by decide +kernel⟩

theorem test_hyp_MeshFrames_5 : ∃ (h : MeshHdr) (rssi : Int) (x : MeshAuth) (t s : State), s.takeAuth = some (x, t) ∧ (seenFresh s.mesh.seen x.stamp).find? (fun e => e.origin == h.origin && e.mseq == h.mseq) = none ∧ 1 < h.ttl ∧ s.bit E4.meshCfg 3 = true ∧ (s.isRouter = true ∨ s.isCoord = true) ∧ s.banked = false :=
  ⟨W.flood0, -70, W.authOf 5, _, (W.heardFrom 5).setBit E4.meshCfg 3 true, rfl, by decide +kernel⟩

theorem test_hyp_MeshFrames_6 : ∃ (origin mseq at0 : Nat) (h : MeshHdr) (s t : State), s.mesh.rebro.find? (fun r => r.1.origin == origin && r.1.mseq == mseq && decide (r.2 ≤ s.mono)) = some (h, at0) ∧ t = s.onMesh (fun m => { m with rebro := m.rebro.filter (fun r => !(r.1.origin == origin && r.1.mseq == mseq)) }) :=
  ⟨5, 9, 0, W.flood0, W.floodWaits, _, by decide +kernel, rfl⟩

theorem test_hyp_MeshFrames_7 : ∃ (c : Nat) (e : IndEntry) (more : List IndEntry) (s t : State), s.mesh.owed = some c ∧ t = s.onMesh (fun m => { m with owed := none }) ∧ t.indFor c = e :: more :=
  ⟨6, W.ind0, [], W.owes, _, by decide +kernel, rfl, by decide +kernel⟩

theorem test_hyp_MeshFrames_8 : ∃ (id : Nat) (e : IndEntry) (s : State), s.mesh.indq.find? (fun e => e.id == id && !e.flood) = some e ∧ e.expires ≤ s.mono :=
  ⟨0, W.ind0, W.withKid, by decide +kernel⟩

theorem test_hyp_MeshFrames_9 : ∃ (id : Nat) (e : IndEntry) (s : State), s.mesh.indq.find? (fun e => e.id == id && e.flood) = some e ∧ e.expires ≤ s.mono :=
  ⟨0, { W.ind0 with flood := true }, W.floodWaits, by decide +kernel⟩

theorem test_hyp_MeshFrames_10 : ∃ (d a : Nat) (s : State), s.meshOn = true ∧ d = s.fld E4.txrTail 9 0 ∧ a = (s.fld E4.txrBase 13 0 + d) * 16 ∧ d ≠ s.fld E4.txrHead 9 0 ∧ bitsOf (Mem.word s.esram a) 3 0 ≠ 1 ∧ bitsOf (Mem.word s.esram a) 3 0 ≠ 2 :=
  ⟨0, 0, W.txDesc, by decide +kernel⟩

theorem test_hyp_MeshFrames_11 : ∃ (short : Nat) (c : MeshChild) (s : State), s.sleepyChild short = some c ∧ c.heard + s.fld E4.pollCfg 3 0 * secNs c.poll ≤ s.mono :=
  ⟨6, W.kid0, W.withKid, by decide +kernel⟩

theorem test_hyp_MeshJoining_1 : ∃ (s : State), s.parentState = psScanning ∧ s.mesh.join.dwell + secNs (s.fld E4.scanCfg 9 0) ≤ s.mono ∧ s.mesh.join.chan < s.fld E4.scanCfg 29 20 :=
  ⟨W.scanning.wr E4.scanCfg 0x300000, by decide +kernel⟩

theorem test_hyp_MeshJoining_2 : ∃ (h : ScanHit) (s : State), s.parentState = psScanning ∧ s.mesh.join.dwell + secNs (s.fld E4.scanCfg 9 0) ≤ s.mono ∧ s.fld E4.scanCfg 29 20 ≤ s.mesh.join.chan ∧ s.scanBest = some h :=
  ⟨W.hit0, (W.scanning.wr E4.scanCfg 1).onMesh (fun m => { m with join := { m.join with hits := [W.hit0] } }), by decide +kernel⟩

theorem test_hyp_MeshJoining_3 : ∃ (j : JoinInfo) (x : MeshAuth) (t s : State), s.takeAuth = some (x, t) ∧ s.banked = false ∧ j.parent = 0xFFFE ∧ s.parentFull j.code = true :=
  ⟨W.joinInfo, W.authOf 5, _, (W.heardFrom 5).onMesh (fun m => { m with children := List.replicate 128 W.kid0 }), rfl, by decide +kernel⟩

theorem test_hyp_MeshJoining_4 : ∃ (j : JoinInfo) (x : MeshAuth) (t u s : State), s.takeAuth = some (x, t) ∧ s.banked = false ∧ j.parent = 0xFFFE ∧ s.parentFull j.code = false ∧ s.isCoord = false ∧ s.parentUp = true ∧ u = t.onMesh (fun m => { m with pendKids := { eui := j.eui, caps := j.code, poll := legalPoll j.poll, since := s.mono } :: m.pendKids.filter (fun x => x.eui != j.eui) }) :=
  by
  refine ⟨W.joinInfo, W.authOf 5, _, _, W.heardFrom 5, rfl, ?_, ?_, ?_, ?_, ?_, rfl⟩ <;> decide +kernel

theorem test_hyp_MeshJoining_5 : ∃ (j : JoinInfo) (h : ScanHit) (t0 : Nat) (x : MeshAuth) (t s : State), s.takeAuth = some (x, t) ∧ j.eui = ownEui ∧ s.mesh.join.target = some (h, t0) ∧ j.code = 0 :=
  ⟨{ W.joinInfo with eui := ownEui, code := 0, short := 7 }, W.hit0, 0, W.authOf 1, _, W.joining, rfl, rfl, by decide +kernel⟩

theorem test_hyp_MeshJoining_6 : ∃ (h : ScanHit) (t0 : Nat) (s : State), s.mesh.join.target = some (h, t0) ∧ t0 + secNs 2 ≤ s.mono :=
  ⟨W.hit0, 0, W.joining, by decide +kernel⟩

theorem test_hyp_MeshJoining_9 : ∃ (j : JoinInfo) (c : MeshChild) (x : MeshAuth) (t u s : State), s.takeAuth = some (x, t) ∧ j.code ≠ 1 ∧ (u = if (s.child x.src).isSome then t.routeSet j.short x.src else t) ∧ s.child j.short = some c ∧ s.isCoord = false ∧ s.banked = false ∧ s.parentUp = true :=
  by
  refine ⟨{ W.joinInfo with short := 6, code := 0 }, W.kid0, W.authOf 6, _, _, W.withKid, rfl, ?_, rfl, ?_, ?_, ?_, ?_⟩ <;> decide +kernel

theorem test_hyp_MeshJoining_10 : ∃ (j : JoinInfo) (x : MeshAuth) (t s : State), s.takeAuth = some (x, t) ∧ j.code = 1 ∧ s.isRouter = true ∧ x.src = s.parentAddr :=
  ⟨W.joinInfo, W.authOf 0, _, W.heardFrom 0, rfl, by decide +kernel, by decide +kernel, by decide +kernel⟩

theorem test_hyp_MeshJoining_11 : ∃ (x : MeshAuth) (c : MeshChild) (t s : State), s.takeAuth = some (x, t) ∧ s.child x.src = some c :=
  ⟨W.authOf 6, W.kid0, _, W.withKid, rfl, by decide +kernel⟩

theorem test_hyp_MeshJoining_12 : ∃ (x : MeshAuth) (t s : State), s.takeAuth = some (x, t) ∧ s.child x.src = none ∧ s.banked = false :=
  ⟨W.authOf 5, _, W.heardFrom 5, rfl, by decide +kernel⟩

theorem test_hyp_MeshJoining_13 : ∃ (eui : Nat) (j : JoinInfo) (s t : State), s.mesh.addrWait.find? (fun w => w.eui == eui) = some j ∧ s.supplyWarn .e = false ∧ t = s.onMesh (fun m => { m with addrs := (j.eui, j.short) :: m.addrs.filter (fun u => u.1 != eui), addrWait := m.addrWait.filter (fun w => w.eui != eui) }) :=
  ⟨70, { W.joinInfo with short := 7, code := 0, parent := 0 }, W.addrWaits, _, by decide +kernel, by decide +kernel, rfl⟩

theorem test_hyp_MeshJoining_14 : ∃ (r : Requester) (w : Word) (s : State), s.direct r E4.addrCmd = true ∧ s.isCoord = true ∧ bitsOf w 19 16 = 1 :=
  ⟨.pcie, 0x10007, W.on.wr E4.meshCfg 1, by decide +kernel⟩

theorem test_hyp_MeshParent_1 : ∃ (t : Nat) (s : State), s.beacons = true ∧ ((s.nextBeacon :: s.beaconsAsked).filter (fun t => !s.beaconArmed t)).min? = some t :=
  ⟨W.beaconing.nextBeacon, W.beaconing, by decide +kernel⟩

theorem test_hyp_MeshParent_2 : ∃ (s : State), 0 < s.fld E4.bcnCfg 12 0 :=
  ⟨W.beaconing, by decide +kernel⟩

theorem test_hyp_MeshParent_3 : ∃ (t0 room : Nat) (s : State), s.mesh.extraBcn = some t0 ∧ s.beacons = true ∧ ((s.pendAct (.rf 6)).isNone = true ∨ (s.pendAct (.rf 7)).isNone = true) ∧ room = t0 + 100000000 - (s.mono + (s.leadNs (.rf 6)).toNat) :=
  ⟨0, _, W.coord.onMesh (fun m => { m with extraBcn := some 0 }), by decide +kernel, by decide +kernel, by decide +kernel, rfl⟩

theorem test_hyp_MeshParent_4 : ∃ (t : Nat) (s : State), s.banked = true ∧ s.meshOn = true ∧ s.pendAct (.rf 6) = none ∧ s.mesh.bankBcn ≤ s.now .e ∧ t = max (s.mesh.bankBcn + secNs (s.fld E1.pmCfg 9 0)) (s.now .e + (s.leadNs (.rf 6)).toNat) :=
  ⟨_, W.banked, by decide +kernel, by decide +kernel, by decide +kernel, by decide +kernel, rfl⟩

theorem test_hyp_MeshParent_5 : ∃ (b : BeaconRx) (x : MeshAuth) (t s : State), s.takeAuth = some (x, t) ∧ (b.proto ≠ 0xB7 ∨ x.pan ≠ s.fld E4.panId 15 0) :=
  ⟨W.beacon0, W.authOf 5, _, (W.heardFrom 5).setFld E4.panId 15 0 77, rfl, by decide +kernel⟩

theorem test_hyp_MeshParent_6 : ∃ (b : BeaconRx) (x : MeshAuth) (t s u : State), s.takeAuth = some (x, t) ∧ b.proto = 0xB7 ∧ x.pan = s.fld E4.panId 15 0 ∧ s.isRouter = true ∧ s.parentState = psJoined ∧ x.src = s.parentAddr ∧ u = (((t.onMesh (fun m => { m with parent := { m.parent with pred := b.ntime + b.bcnInt * 100000000, heard := x.stamp, bcnInt := b.bcnInt, cost := min (b.cost + linkCost b.rssi) 0xFFFE, widened := 0, grace := none } })).setFld E4.parentStat 23 20 0).setFld E4.parentStat 27 24 ((b.depth + 1) % 16)).setParentState psJoined :=
  by
  refine ⟨W.beacon0, W.authOf 0, _, W.heardFrom 0, _, rfl, ?_, ?_, ?_, ?_, ?_, rfl⟩ <;> decide +kernel

theorem test_hyp_MeshParent_7 : ∃ (s : State), s.mesh.window = none :=
  ⟨W.mesh1, by decide +kernel⟩

theorem test_hyp_MeshParent_8 : ∃ (u s t : State), u = s.windowClose ∧ u.parentState = psJoined ∧ u.mesh.parent.pred + u.bcnWindow ≤ u.now .e ∧ u.mesh.parent.widened = 0 ∧ t = (u.bump E4.bcnCnt 31 16 1).onMesh (fun m => { m with parent := { m.parent with pred := u.mesh.parent.pred + u.mesh.parent.bcnInt * 100000000 } }) ∧ u.fld E4.parentStat 23 20 + 1 ≠ 3 :=
  ⟨_, W.late, _, rfl, by decide +kernel, by decide +kernel, by decide +kernel, rfl, by decide +kernel⟩

theorem test_hyp_MeshParent_9 : ∃ (u s t : State), u = s.windowClose ∧ u.parentState = psJoined ∧ u.mesh.parent.pred + u.bcnWindow ≤ u.now .e ∧ u.mesh.parent.widened = 0 ∧ t = (u.bump E4.bcnCnt 31 16 1).onMesh (fun m => { m with parent := { m.parent with pred := u.mesh.parent.pred + u.mesh.parent.bcnInt * 100000000 } }) ∧ u.fld E4.parentStat 23 20 = 2 :=
  ⟨_, W.missed2, _, rfl, by decide +kernel, by decide +kernel, by decide +kernel, rfl, by decide +kernel⟩

theorem test_hyp_MeshParent_10 : ∃ (g : Nat) (s : State), s.mesh.parent.grace = some g ∧ s.meshOn = true ∧ g ≤ s.mono ∧ s.parentState ≠ psJoined :=
  ⟨0, W.graceOver, by decide +kernel⟩

theorem test_hyp_MeshParent_11 : ∃ (p : Nat × Nat) (s : State), s.mesh.prevKey = some p ∧ p.2 ≤ s.mono :=
  ⟨(1, 0), W.overlapOver, by decide +kernel⟩

theorem test_hyp_MeshParent_12 : ∃ (i : Fin 2) (a : PendAct) (s : State), s.pendAct (.mesh i) = some a ∧ bitsOf a.desc 2 0 = 0 ∧ s.actDue a = true ∧ s.bit (slotStat (.mesh i)) 28 = false ∧ s.actWarned a = false ∧ s.meshOn = true ∧ s.bit E4.keySel 8 = true :=
  ⟨0, W.meshAct 0, ((W.meshArmed 0).setBit E4.keySel 8 true).onMesh (fun m => { m with lastBcn := some 0 }), by decide +kernel⟩

theorem test_hyp_MeshParent_13 : ∃ (i : Fin 2) (a : PendAct) (s : State), s.pendAct (.mesh i) = some a ∧ bitsOf a.desc 2 0 = 1 ∧ s.actDue a = true ∧ s.bit (slotStat (.mesh i)) 28 = false ∧ s.actWarned a = false ∧ s.meshOn = true :=
  ⟨0, W.meshAct 1, ((W.meshArmed 1).setBit E4.keySel 8 true).onMesh (fun m => { m with lastBcn := some 0 }), by decide +kernel⟩

theorem test_hyp_MeshParent_14 : ∃ (i : Fin 2) (a : PendAct) (s : State), s.pendAct (.mesh i) = some a ∧ bitsOf a.desc 2 0 = 2 ∧ s.actDue a = true ∧ s.bit (slotStat (.mesh i)) 28 = false ∧ s.actWarned a = false ∧ s.meshOn = true :=
  ⟨0, W.meshAct 2, ((W.meshArmed 2).setBit E4.keySel 8 true).onMesh (fun m => { m with lastBcn := some 0 }), by decide +kernel⟩

theorem test_hyp_MeshParent_15 : ∃ (i : Fin 2) (a : PendAct) (s : State), s.pendAct (.mesh i) = some a ∧ bitsOf a.desc 2 0 = 3 ∧ s.actDue a = true ∧ s.bit (slotStat (.mesh i)) 28 = false ∧ s.actWarned a = false ∧ s.meshOn = true ∧ (s.beaconArmed (s.actTime a) = true ∨ s.mesh.lastBcn = some (s.actTime a)) :=
  ⟨0, W.meshAct 3, ((W.meshArmed 3).setBit E4.keySel 8 true).onMesh (fun m => { m with lastBcn := some 0 }), by decide +kernel⟩

theorem test_hyp_Partitions_1 : ∃ (r : Requester) (d : Fin 6) (s : State), s.direct r (HDR.pageCtrl (D4.page d.val)) = true ∧ s.memberOf d.val = none ∧ s.partOn d.val = false ∧ (s.roleN d.val ≠ .access ∨ ((s.partDies d.val).foldl State.tilesBack s).placementOk d.val = false) :=
  ⟨.pcie, 0, W.on, by decide +kernel⟩

theorem test_hyp_Partitions_2 : ∃ (r : Requester) (d : Fin 6) (b s t u : State), s.direct r (HDR.pageCtrl (D4.page d.val)) = true ∧ s.memberOf d.val = none ∧ s.partOn d.val = false ∧ s.roleN d.val = .access ∧ b = (s.partDies d.val).foldl State.tilesBack s ∧ b.placementOk d.val = true ∧ ((s.partDies d.val).all (fun n => s.acc.fw.getLsbD n) = true ∨ s.fld C4.fwStat 1 0 = 2) ∧ (s.part? d.val).cal = none ∧ t = (b.setBit (HDR.pageCtrl (D4.page d.val)) 0 true).onPart d.val (fun p => { PartState.empty with phaseLru := p.phaseLru, cal := p.cal, calAt := p.calAt, chanPend := p.cal.isSome, goal := .state (s.paRetState d.val) }) ∧ u = { t with acc := { t.acc with fw := (s.partDies d.val).foldl (fun g k => g ||| BitVec.ofNat 6 (2 ^ k)) t.acc.fw } } :=
  by
  refine ⟨.pcie, 0, _, W.placed.wr (D4.partCfg 0) 0, _, _, ?_, ?_, ?_, ?_, rfl, ?_, ?_, ?_, rfl, rfl⟩ <;> decide +kernel

theorem test_hyp_Partitions_3 : ∃ (r : Requester) (d : Fin 6) (l : Nat) (s : State), s.direct r (HDR.pageCtrl (D4.page d.val)) = true ∧ s.memberOf d.val = some l :=
  ⟨.pcie, 1, 0, W.pair, by decide +kernel⟩

theorem test_hyp_Partitions_4 : ∃ (r : Requester) (d : Fin 6) (s : State), s.direct r (HDR.pageCtrl (D4.page d.val)) = true ∧ s.memberOf d.val = none ∧ s.partOn d.val = true ∧ s.pa d.val ≠ paTx ∧ s.pa d.val ≠ paRx :=
  ⟨.pcie, 0, W.part, by decide +kernel⟩

theorem test_hyp_Partitions_5 : ∃ (r : Requester) (d : Fin 6) (s : State), s.direct r (HDR.pageCtrl (D4.page d.val)) = true ∧ s.memberOf d.val = none ∧ s.partOn d.val = true ∧ (s.pa d.val = paTx ∨ s.pa d.val = paRx) :=
  ⟨.pcie, 0, W.partSends 0, by decide +kernel⟩

theorem test_hyp_Partitions_6 : ∃ (r : Requester) (d : Fin 6) (s : State), s.direct r (D4.seqCmd d.val) = true ∧ s.memberOf d.val = none ∧ s.partOn d.val = true ∧ paFree (s.pa d.val) = true :=
  ⟨.pcie, 0, W.part, by decide +kernel⟩

theorem test_hyp_Partitions_7 : ∃ (r : Requester) (d : Fin 6) (s : State), s.direct r (D4.seqCmd d.val) = true ∧ s.memberOf d.val = none ∧ s.partOn d.val = true ∧ paFree (s.pa d.val) = true :=
  ⟨.pcie, 0, W.part, by decide +kernel⟩

theorem test_hyp_Partitions_8 : ∃ (r : Requester) (d : Fin 6) (s : State), s.direct r (D4.seqCmd d.val) = true ∧ s.memberOf d.val = none ∧ s.partOn d.val = true ∧ paFree (s.pa d.val) = true :=
  ⟨.pcie, 0, W.part, by decide +kernel⟩

theorem test_hyp_Partitions_9 : ∃ (r : Requester) (d : Fin 6) (s : State), s.direct r (D4.seqCmd d.val) = true ∧ s.memberOf d.val = none ∧ s.partOn d.val = false :=
  ⟨.pcie, 0, W.access0, by decide +kernel⟩

theorem test_hyp_Partitions_10 : ∃ (r : Requester) (d : Fin 6) (s : State), s.direct r (D4.seqCmd d.val) = true ∧ s.memberOf d.val = none ∧ s.partOn d.val = true ∧ s.pa d.val = paTx ∧ (s.part? d.val).sounding = none ∧ (s.part? d.val).stopPend = false :=
  ⟨.pcie, 0, W.partSends 0, by decide +kernel⟩

theorem test_hyp_Partitions_11 : ∃ (r : Requester) (d : Fin 6) (s : State), s.direct r (D4.seqCmd d.val) = true ∧ s.memberOf d.val = none ∧ s.partOn d.val = true ∧ (s.pa d.val = paTx ∨ s.pa d.val = paRx) :=
  ⟨.pcie, 0, W.partSends 0, by decide +kernel⟩

theorem test_hyp_Partitions_12 : ∃ (r : Requester) (d : Fin 6) (b : Bool) (s : State), s.direct r (D4.seqCmd d.val) = true ∧ s.memberOf d.val = none ∧ s.partOn d.val = true ∧ s.pa d.val = paCal ∧ (s.part? d.val).sounding = none :=
  ⟨.pcie, 0, false, W.partCals, by decide +kernel⟩

theorem test_hyp_PartitionTraffic_1 : ∃ (d : Fin 6) (us : Nat) (s : State), s.partOn d.val = true ∧ paRests (s.pa d.val) = true ∧ s.paLocked d.val = true ∧ s.paHeld d.val = false :=
  ⟨0, 100, W.part, by decide +kernel⟩

theorem test_hyp_PartitionTraffic_2 : ∃ (d : Fin 6) (w : PartWait) (s : State), (s.part? d.val).wait = some w ∧ w.since + s.fld (D4.partTx d.val) 9 0 * 1000 ≤ s.mono ∧ (s.paLocked d.val = false ∨ s.paHeld d.val = false) :=
  ⟨0, W.wait0, W.partWaits.setBit (D4.partStat 0) 15 false, by decide +kernel⟩

theorem test_hyp_PartitionTraffic_3 : ∃ (d : Fin 6) (w : PartWait) (s : State), (s.part? d.val).wait = some w ∧ w.since + s.fld (D4.partTx d.val) 9 0 * 1000 ≤ s.mono ∧ s.paLocked d.val = true ∧ s.paHeld d.val = true :=
  ⟨0, W.wait0, W.partWaits.setBit E1.supWarnAct 2 true, by decide +kernel⟩

theorem test_hyp_PartitionTraffic_4 : ∃ (d : Fin 6) (next : Nat) (ex : Bool) (l : List ChainLevel) (t : PartTx) (s : State), (s.part? d.val).tx = some t ∧ (s.ps d.val).txop = none :=
  ⟨0, 0, false, [], W.partTx 0, W.partSends 0, by decide +kernel⟩

theorem test_hyp_PartitionTraffic_5 : ∃ (d : Fin 6) (next : Nat) (ex : Bool) (l : List ChainLevel) (t : PartTx) (s u : State), (s.part? d.val).tx = some t ∧ (u = if 20 ≤ t.us then (l.filter (fun y => t.sends y.die y.chain && y.chain < 16)).foldl State.chainReading s else s) ∧ (u.ppduOver d t 1).soundSends d.val = false :=
  ⟨0, 0, false, [], W.partTx 0, W.partSends 0, _, by decide +kernel, rfl, by decide +kernel⟩

theorem test_hyp_PartitionTraffic_6 : ∃ (d : Fin 6) (c : Fin 16) (rl : Nat) (t : PartTx) (s u : State), s.memberOf d.val = none ∧ (s.part? d.val).tx = some t ∧ t.sends d.val c.val = true ∧ rl < 4 * s.fld (D6.feCfg d.val) 20 16 ∧ s.bit (D1.chainMute d.val) c.val = false ∧ u = (s.setBit (D1.chainMute d.val) c.val true).onPart d.val (fun p => { p with tx := p.tx.map (fun x => { x with protect := true, muted := (d.val, c.val, s.mono) :: x.muted, chains := x.chains.map (fun y => if y.1 = d.val then (y.1, y.2 &&& ~~~ BitVec.ofNat 16 (2 ^ c.val)) else y) }) }) :=
  by
  refine ⟨0, 0, 0, W.partTx 0, (W.partSends 0).wr (D6.feCfg 0) 0x50000, _, ?_, ?_, ?_, ?_, ?_, rfl⟩ <;> decide +kernel

theorem test_hyp_PartitionTraffic_7 : ∃ (d : Fin 6) (power : Int) (s : State), s.partOn d.val = true ∧ s.pa d.val = paListen :=
  ⟨0, -100, W.partIn paListen, by decide +kernel⟩

theorem test_hyp_PartitionTraffic_8 : ∃ (d : Fin 6) (x : PartRx) (s : State), (s.part? d.val).rx = some x ∧ x.tentative = true :=
  ⟨0, { tentative := true, power := -100 }, W.partHears true, by decide +kernel⟩

theorem test_hyp_PartitionTraffic_9 : ∃ (d : Fin 6) (x : PartRx) (s : State), (s.part? d.val).rx = some x ∧ x.tentative = true ∧ s.pa d.val = paRx ∧ (s.part? d.val).stopPend = false :=
  ⟨0, { tentative := true, power := -100 }, W.partHears true, by decide +kernel⟩

theorem test_hyp_PartitionTraffic_10 : ∃ (d : Fin 6) (power : Int) (x : PartRx) (s : State), (s.part? d.val).rx = some x ∧ x.tentative = false ∧ s.bit (D4.partTx d.val) 24 = true ∧ x.power + 2 * (s.fld (D4.partTx d.val) 20 16 : Nat) ≤ power :=
  ⟨0, 0, { tentative := false, power := -100 }, (W.partHears false).setBit (D4.partTx 0) 24 true, by decide +kernel⟩

theorem test_hyp_PartitionTraffic_11 : ∃ (d : Fin 6) (resp : Option Nat) (us : Nat) (tb : List Nat) (l : List ChainLevel) (x : PartRx) (s : State), (s.part? d.val).rx = some x ∧ x.tentative = false ∧ (s.ps d.val).txop = none :=
  ⟨0, none, 100, [], [], { tentative := false, power := -100 }, W.partHears false, by decide +kernel⟩

theorem test_hyp_PartitionTraffic_12 : ∃ (d : Nat) (resp : Option Nat) (l : List ChainLevel) (x : PartRx) (s u : State), (s.part? d).rx = some x ∧ x.tentative = false ∧ u = (s.wrs ((l.filter (fun y => (s.liveDies d).contains y.die && y.chain < 16 && s.bit (D1.chainEn y.die) y.chain)).map (fun y => (D1.chRssi y.die y.chain, BitVec.ofNat 32 (ux 16 y.level))))).onPart d (fun p => { p with rx := none }) ∧ (s.part? d).sounding = none :=
  ⟨0, none, [], { tentative := false, power := -100 }, W.partHears false, _, by decide +kernel, by decide +kernel, rfl, by decide +kernel⟩

theorem test_hyp_PartitionTraffic_13 : ∃ (d : Fin 6) (st : Nat) (s t : State), s.role d = .access ∧ s.paTuning d.val = true ∧ s.pa d.val = paSettle ∧ (s.part? d.val).goal = .state st ∧ t = (s.phaseUse d.val).synShow d.val true false :=
  ⟨0, paListen, W.partSettles, _, by decide +kernel, by decide +kernel, by decide +kernel, by decide +kernel, rfl⟩

theorem test_hyp_PartitionTraffic_14 : ∃ (d : Fin 6) (l : Nat) (s : State), s.powered (.d d) = true ∧ s.bit (D2.synStat d.val) 0 = true ∧ l = (s.memberOf d.val).getD d.val :=
  ⟨0, _, W.part.wr (D2.synStat 0) 1, by decide +kernel, by decide +kernel, rfl⟩

theorem test_hyp_PartitionTraffic_15 : ∃ (n lead : Nat) (s : State), s.partOn lead = false :=
  ⟨0, 0, W.access0, by decide +kernel⟩

theorem test_hyp_PartitionCalibration_1 : ∃ (r : Requester) (d : Fin 6) (w : Word) (set : BitVec 4) (s : State), s.direct r (D3.calCmd d.val) = true ∧ s.memberOf d.val = none ∧ s.roleN d.val = .access ∧ (s.pa d.val = paIdle ∨ s.pa d.val = paListen ∨ s.pa d.val = paSleep) ∧ set = (if bitsOf w 3 0 = 0 then 0xF else BitVec.ofNat 4 (bitsOf w 3 0)) ∧ s.paActWithin d.val (paCalNs set) = false :=
  ⟨.pcie, 0, 2, 2, W.part, by decide +kernel⟩

theorem test_hyp_PartitionCalibration_2 : ∃ (r : Requester) (d : Fin 6) (w : Word) (s : State), s.direct r (D3.calCmd d.val) = true ∧ s.memberOf d.val = none ∧ (s.pa d.val = paRx ∨ s.pa d.val = paTx) :=
  ⟨.pcie, 0, 2, W.partSends 0, by decide +kernel⟩

theorem test_hyp_PartitionCalibration_3 : ∃ (d : Fin 6) (set : BitVec 4) (s : State), (s.part? d.val).calDefer = some set ∧ s.paCalFree d.val set = true :=
  ⟨0, 2, W.part.onPart 0 (fun p => { p with calDefer := some 2 }), by decide +kernel⟩

theorem test_hyp_PartitionCalibration_4 : ∃ (d : Fin 6) (fails : List CalFail) (set : BitVec 4) (s u : State), s.role d ≠ .backhaul ∧ (s.part? d.val).cal = some set ∧ u = (s.partCalRecord d.val set fails).raise (D3.page d.val) 0 ∧ (u.part? d.val).chanPend = false ∧ (u.part? d.val).wait = none :=
  ⟨0, [], 2, W.partCals, _, by decide +kernel, by decide +kernel, rfl, by decide +kernel, by decide +kernel⟩

theorem test_hyp_PartitionCalibration_5 : ∃ (d : Nat) (s t : State), t = ((s.onPart d (fun p => { p with cal := none })).setPa d paIdle).wr (D3.calStat d) (putBit (putFld (putFld (s.rd (D3.calStat d)) 3 0 2) 7 4 0) 10 false) :=
  ⟨0, W.partCals, _, rfl⟩

theorem test_hyp_PartitionCalibration_6 : ∃ (d : Fin 6) (us : Nat) (l : List Nat) (s : State), s.partOn d.val = true ∧ s.paLocked d.val = true ∧ paRests (s.pa d.val) = true ∧ (s.part? d.val).wait = none ∧ (s.part? d.val).sounding = none ∧ l ≠ [] ∧ l.length ≤ 32 :=
  ⟨0, 100, [4], W.part, by decide +kernel⟩

theorem test_hyp_PartitionCalibration_7 : ∃ (d next : Nat) (q : Sounding) (s : State), (s.part? d).sounding = some q :=
  ⟨0, 100, { stations := [4], reports := [] }, W.sounding, by decide +kernel⟩

theorem test_hyp_PartitionCalibration_8 : ∃ (d : Fin 6) (sta : Nat) (rep : List Byte) (q : Sounding) (s : State), (s.part? d.val).sounding = some q ∧ q.stations.contains sta = true :=
  ⟨0, 4, [1], { stations := [4], reports := [] }, W.sounding, by decide +kernel⟩

theorem test_hyp_PartitionCalibration_9 : ∃ (d : Fin 6) (q : Sounding) (s : State), (s.part? d.val).sounding = some q :=
  ⟨0, { stations := [4], reports := [] }, W.sounding, by decide +kernel⟩

theorem test_hyp_PartitionCalibration_10 : ∃ (d : Fin 6) (l : List Nat) (s t : State), s.partOn d.val = true ∧ l ≠ [] ∧ l.all (fun x => (s.part? d.val).csr.contains x) = true ∧ t = s.onPart d.val (fun p => { p with weights := { stations := l, born := s.mono, value := Config.rzfWeights (s.fld (D5.bfCfg d.val) 23 18) (s.csrBase d.val) l s.dram } :: p.weights.filter (fun w => w.stations != l) }) :=
  ⟨0, [4], W.sounding, _, by decide +kernel, by decide +kernel, by decide +kernel, rfl⟩

theorem test_hyp_PartitionCalibration_12 : ∃ (d : Fin 6) (i : Fin 8) (a : PendAct) (s t : State), s.pendAct (.part d i) = some a ∧ a.slot = .part d i ∧ bitsOf a.desc 1 0 = 0 ∧ bitOf a.desc 31 = false ∧ s.role d = .access ∧ s.partOn d.val = true ∧ s.pa d.val ≠ paTx ∧ s.pa d.val ≠ paCal ∧ s.actDue a = true ∧ s.bit (slotStat (.part d i)) 28 = false ∧ s.actWarned a = false ∧ t = s.setPartChan d.val (clampChan a.extra) :=
  by
  refine ⟨0, 0, W.partAct 0, W.partArmed 0, _, ?_, ?_, ?_, ?_, ?_, ?_, ?_, ?_, ?_, ?_, ?_, rfl⟩ <;> decide +kernel

theorem test_hyp_PartitionCalibration_13 : ∃ (d : Fin 6) (i : Fin 8) (a : PendAct) (s t : State), s.pendAct (.part d i) = some a ∧ a.slot = .part d i ∧ bitsOf a.desc 1 0 = 1 ∧ bitOf a.desc 31 = false ∧ s.role d = .access ∧ s.partOn d.val = true ∧ s.pa d.val ≠ paTx ∧ s.pa d.val ≠ paCal ∧ s.actDue a = true ∧ s.bit (slotStat (.part d i)) 28 = false ∧ s.actWarned a = false ∧ t = s.paStopped d.val (((s.paPreempt d.val).ppduDropWait d.val 5).paGo d.val paListen) :=
  by
  refine ⟨0, 0, W.partAct 1, W.partArmed 1, _, ?_, ?_, ?_, ?_, ?_, ?_, ?_, ?_, ?_, ?_, ?_, rfl⟩ <;> decide +kernel

theorem test_hyp_PartitionCalibration_14 : ∃ (d : Fin 6) (i : Fin 8) (a : PendAct) (s t : State), s.pendAct (.part d i) = some a ∧ a.slot = .part d i ∧ bitsOf a.desc 1 0 = 2 ∧ bitOf a.desc 31 = false ∧ s.role d = .access ∧ s.partOn d.val = true ∧ s.pa d.val ≠ paTx ∧ s.pa d.val ≠ paCal ∧ s.actDue a = true ∧ s.bit (slotStat (.part d i)) 28 = false ∧ s.actWarned a = false ∧ t = s.paStopped d.val (((s.paPreempt d.val).ppduDropWait d.val 5).paGo d.val paIdle) :=
  by
  refine ⟨0, 0, W.partAct 2, W.partArmed 2, _, ?_, ?_, ?_, ?_, ?_, ?_, ?_, ?_, ?_, ?_, ?_, rfl⟩ <;> decide +kernel

theorem test_hyp_PartitionCalibration_15 : ∃ (d : Fin 6) (i : Fin 8) (a : PendAct) (s t : State), s.pendAct (.part d i) = some a ∧ a.slot = .part d i ∧ bitsOf a.desc 1 0 = 3 ∧ bitOf a.desc 31 = false ∧ s.role d = .access ∧ s.partOn d.val = true ∧ s.pa d.val ≠ paTx ∧ s.pa d.val ≠ paCal ∧ s.actDue a = true ∧ s.bit (slotStat (.part d i)) 28 = false ∧ s.actWarned a = false ∧ t = s.paStopped d.val (((s.paPreempt d.val).ppduDropWait d.val 5).paGo d.val paSleep) :=
  by
  refine ⟨0, 0, W.partAct 3, W.partArmed 3, _, ?_, ?_, ?_, ?_, ?_, ?_, ?_, ?_, ?_, ?_, ?_, rfl⟩ <;> decide +kernel

theorem test_hyp_PartitionCalibration_16 : ∃ (d : Fin 6) (i : Fin 8) (a : PendAct) (s : State), s.pendAct (.part d i) = some a ∧ bitsOf a.desc 1 0 = 1 ∧ bitOf a.desc 31 = false ∧ s.role d = .access ∧ s.partOn d.val = true ∧ s.pa d.val = paTx ∧ s.actDue a = true :=
  ⟨0, 0, W.partAct 1, { W.partArmed 1 with regs := ((W.partArmed 1).setPa 0 paTx).regs }, by decide +kernel⟩

theorem test_hyp_StationCommands_1 : ∃ (r : Requester) (i : Fin 2048) (n : Station) (s : State), s.direct r C16.staCmd = true ∧ s.bit C16.staResult 31 = true ∧ n = { s.entry i.val with words := s.rdArr (C16.staData 0) 8, heard := if (s.entry i.val).valid then (s.entry i.val).heard else s.mono } ∧ n.valid = false :=
  ⟨.pcie, 4, _, W.staIdle, by decide +kernel, by decide +kernel, rfl, by decide +kernel⟩

theorem test_hyp_StationCommands_2 : ∃ (r : Requester) (i : Fin 2048) (s : State), s.direct r C16.staCmd = true ∧ s.bit C16.staResult 31 = true :=
  ⟨.pcie, 4, W.staIdle, by decide +kernel⟩

theorem test_hyp_StationCommands_3 : ∃ (r : Requester) (i : Fin 2048) (e : Station) (s : State), s.direct r C16.staCmd = true ∧ s.bit C16.staResult 31 = true ∧ s.station i.val = some e :=
  ⟨.pcie, 4, W.sta4, W.withSta, by decide +kernel⟩

theorem test_hyp_StationCommands_4 : ∃ (r : Requester) (i : Fin 2048) (s : State), s.direct r C16.staCmd = true ∧ s.bit C16.staResult 31 = true ∧ s.station i.val = none :=
  ⟨.pcie, 5, W.withSta, by decide +kernel⟩

theorem test_hyp_StationCommands_5 : ∃ (r : Requester) (i : Fin 2048) (s : State), s.direct r C16.staCmd = true ∧ s.bit C16.staResult 31 = false :=
  ⟨.pcie, 5, W.withSta.wr C16.staResult 0, by decide +kernel⟩

theorem test_hyp_StationCommands_6 : ∃ (i : Fin 2048) (s t : State), (s.entry i.val).removing = true ∧ (s.entry i.val).tx.all (fun (m : Mpdu) => m.air.isNone) = true ∧ t = s.staFlush i.val (List.range 8) :=
  ⟨4, W.withSta.onStation 4 (fun x => { x with removing := true }), _, by decide +kernel, by decide +kernel, rfl⟩

theorem test_hyp_StationCommands_7 : ∃ (r : Requester) (i : Fin 2048) (tid : Fin 8) (all : Bool) (e : Station) (s : State), s.direct r C16.staCmd = true ∧ s.bit C16.staResult 31 = true ∧ s.station i.val = some e :=
  ⟨.pcie, 4, 0, true, W.sta4, W.withSta, by decide +kernel⟩

theorem test_hyp_StationCommands_8 : ∃ (r : Requester) (k : Nat) (s : State), s.direct r C16.staCmd = true ∧ s.bit C16.staResult 31 = true ∧ (List.range 2048).find? (fun i => (s.station i).isNone) = some k :=
  ⟨.pcie, 0, W.withSta, by decide +kernel⟩

theorem test_hyp_StationCommands_9 : ∃ (r : Requester) (i : Fin 2048) (e : Station) (s : State), s.direct r C16.staCmd = true ∧ s.bit C16.staResult 31 = true ∧ s.station i.val = some e ∧ s.keyNamed = true ∧ s.bit C16.staKey 12 = false :=
  ⟨.pcie, 4, W.sta4, W.withSta, by decide +kernel⟩

theorem test_hyp_StationCommands_10 : ∃ (r : Requester) (i : Fin 2048) (e : Station) (s : State), s.direct r C16.staCmd = true ∧ s.bit C16.staResult 31 = true ∧ s.station i.val = some e ∧ s.keyNamed = true ∧ s.bit C16.staKey 12 = true :=
  ⟨.pcie, 4, W.sta4, W.withSta.wr C16.staKey 0x1000, by decide +kernel⟩

theorem test_hyp_StationCommands_11 : ∃ (r : Requester) (i : Fin 2048) (s : State), s.direct r C16.staCmd = true ∧ s.bit C16.staResult 31 = true ∧ i.val < 96 ∧ s.keyNamed = true ∧ s.bit C16.staKey 12 = false :=
  ⟨.pcie, 4, W.withSta, by decide +kernel⟩

theorem test_hyp_TargetWakeAndScheduler_1 : ∃ (r : Requester) (k : Nat) (ws : List Word) (t : Twt) (s : State), s.direct r C16.twtCmd = true ∧ ws = s.rdArr (C16.twtData 0) 5 ∧ bitOf (ws.getD 0 0) 31 = false ∧ (List.range 1024).find? (fun i => (s.twt i).isNone) = some k ∧ t = { idx := k, words := ws, armed := true, opened := none, done := none } ∧ s.tsf (bitsOf (ws.getD 0 0) 26 24) + 2000 ≤ t.nextStart (s.tsf (bitsOf (ws.getD 0 0) 26 24)) :=
  ⟨.pcie, 0, [0, 2000, 0, 0, 0], { idx := 0, words := [0, 2000, 0, 0, 0], armed := true, opened := none, done := none }, W.part.wr (C16.twtData 1) 2000, by decide +kernel⟩

theorem test_hyp_TargetWakeAndScheduler_2 : ∃ (r : Requester) (i : Fin 2048) (t : Twt) (s : State), s.direct r C16.twtCmd = true ∧ s.twt i.val = some t :=
  ⟨.pcie, 0, W.twt0, W.withTwt, by decide +kernel⟩

theorem test_hyp_TargetWakeAndScheduler_3 : ∃ (r : Requester) (i : Fin 2048) (t : Twt) (s : State), s.direct r C16.twtCmd = true ∧ s.twt i.val = some t :=
  ⟨.pcie, 0, W.twt0, W.withTwt, by decide +kernel⟩

theorem test_hyp_TargetWakeAndScheduler_4 : ∃ (r : Requester) (i : Fin 2048) (s : State), s.direct r C16.twtCmd = true ∧ s.twt i.val = none :=
  ⟨.pcie, 9, W.withTwt, by decide +kernel⟩

theorem test_hyp_TargetWakeAndScheduler_5 : ∃ (k x : Nat) (t : Twt) (s : State), s.twt k = some t ∧ t.lastStart (s.tsf t.part) = some x ∧ s.twtServes t x = true :=
  ⟨0, 0, W.twt0, W.withTwt, by decide +kernel⟩

theorem test_hyp_TargetWakeAndScheduler_6 : ∃ (k x : Nat) (t : Twt) (s : State), s.twt k = some t ∧ t.opened = some x ∧ x + t.dur ≤ s.tsf t.part :=
  ⟨0, 0, { W.twt0 with opened := some 0, words := [4, 0, 0, 1000, 0] }, { W.withTwt with sched := { W.withTwt.sched with twts := [{ W.twt0 with opened := some 0, words := [4, 0, 0, 1000, 0] }] } }, by decide +kernel⟩

theorem test_hyp_TargetWakeAndScheduler_7 : ∃ (r : Requester) (p : Fin 6) (s : State), s.direct r (C16.schedCmd p.val) = true ∧ s.schedState p.val ≠ 0 ∧ (s.ps p.val).txop = none :=
  ⟨.pcie, 0, W.scheds, by decide +kernel⟩

theorem test_hyp_TargetWakeAndScheduler_8 : ∃ (r : Requester) (p : Fin 6) (s : State), s.direct r (C16.schedCmd p.val) = true :=
  ⟨.pcie, 0, W.scheds, by decide +kernel⟩

theorem test_hyp_TargetWakeAndScheduler_9 : ∃ (r : Requester) (p : Fin 6) (s : State), s.direct r (C16.schedCmd p.val) = true ∧ s.partOn p.val = true :=
  ⟨.pcie, 0, W.scheds, by decide +kernel⟩

theorem test_hyp_TargetWakeAndScheduler_10 : ∃ (p : Fin 6) (s : State), s.schedState p.val ≠ 0 ∧ (s.ps p.val).built + s.fld C16.asCfg 9 0 * 1000 ≤ s.mono :=
  ⟨0, { W.scheds with mono := 2000000 }, by decide +kernel⟩

theorem test_hyp_TargetWakeAndScheduler_11 : ∃ (p : Fin 6) (s : State), s.schedState p.val ≠ 0 ∧ s.bit (C16.schedCfg p.val) 1 = true ∧ s.bsrpStale p.val = true :=
  ⟨0, let s := W.scheds.wr (C16.schedCfg 0) 2; { s with sched := { s.sched with stations := [{ W.sta4 with words := [0, 0x80010000, 0x08003001, 0x1040, 0, 0, 0, 0] }] } }, by decide +kernel⟩

theorem test_hyp_ExchangesAndKeys_1 : ∃ (p : Fin 6) (s : State), s.schedState p.val = 2 ∧ 0 < s.planRoom p.val (s.ps p.val).plan ∧ s.planSteps p.val (s.ps p.val).plan ≠ [] :=
  ⟨0, W.planned, by decide +kernel⟩

theorem test_hyp_ExchangesAndKeys_2 : ∃ (p : Fin 6) (us len : Nat) (slot : Option (Fin 8)) (x : Txop) (rest : List Nat) (s t : State), (s.ps p.val).txop = some x ∧ x.prepared = false ∧ len = s.stepUs p.val x us ∧ len ≠ 0 ∧ t = s.onPs p.val (fun q => { q with txop := some { x with prepared := true } }) :=
  ⟨0, 100, _, none, W.txop0, [], W.inTxop false, _, by decide +kernel, by decide +kernel, rfl, by decide +kernel, rfl⟩

theorem test_hyp_ExchangesAndKeys_3 : ∃ (p : Fin 6) (us : Nat) (slot : Option (Fin 8)) (k : Nat) (x : Txop) (rest : List Nat) (s : State), (s.ps p.val).txop = some x ∧ x.prepared = false ∧ x.steps = k :: rest ∧ k ≠ 0 ∧ s.stepUs p.val x us = 0 :=
  ⟨0, 0, none, 3, W.txop0, [], W.inTxop false, by decide +kernel⟩

theorem test_hyp_ExchangesAndKeys_5 : ∃ (p : Fin 6) (x : Txop) (s t : State), (s.ps p.val).txop = some x ∧ (t = (if x.prepared && x.steps.head? = some 2 then x.plan.ul else []).foldl (fun u a => u.onStation a.sta (fun e => { e with ul := 0 })) s) :=
  ⟨0, W.txop0, W.inTxop false, _, by decide +kernel, rfl⟩

theorem test_hyp_ExchangesAndKeys_6 : ∃ (d : Nat) (again : List Nat) (s t : State), s.inTxop d = true ∧ t = ((s.airClear d).onPs d (fun q => { q with txop := none, paused := s.serviceOn d && (q.paused || q.pauseReq), pauseReq := false, soundAgain := q.soundAgain ++ again })).paChanDue d :=
  ⟨0, [], W.inTxop false, _, by decide +kernel, rfl⟩

theorem test_hyp_ExchangesAndKeys_7 : ∃ (p : Fin 6) (m : MpduRx) (t : Station) (s : State), s.station m.sta = some t ∧ t.linked p.val = true ∧ s.partOn p.val = true ∧ 8 ≤ m.tid :=
  ⟨0, W.mpdu, W.sta4, W.withSta, by decide +kernel⟩

theorem test_hyp_ExchangesAndKeys_8 : ∃ (p : Fin 6) (m : MpduRx) (t : Station) (s : State), s.station m.sta = some t ∧ t.linked p.val = true ∧ s.partOn p.val = true ∧ m.tid < 8 ∧ m.ba = none :=
  ⟨0, { W.mpdu with tid := 0 }, W.sta4, W.withSta, by decide +kernel⟩

theorem test_hyp_ExchangesAndKeys_9 : ∃ (p : Fin 6) (b : BlockAck) (t : Station) (s : State), s.sched.stations.find? (fun (x : Station) => x.idx == b.sta) = some t :=
  ⟨0, { sta := 4, tid := 0, acked := none }, W.sta4, W.withSta, by decide +kernel⟩

theorem test_hyp_ExchangesAndKeys_10 : ∃ (sta : Nat) (tid : Fin 8) (g k : Nat) (t : Station) (x : TidRx) (f : Frame) (s : State), s.station sta = some t ∧ x = t.rxOf tid.val ∧ x.gap = some g ∧ g + s.fld C16.asCfg 23 16 * 1000000 ≤ s.mono ∧ x.held = [(k, f)] :=
  ⟨4, 0, 0, 2, W.staGap, W.gapRx, W.frame0, W.withGap, by decide +kernel⟩

theorem test_hyp_ExchangesAndKeys_11 : ∃ (i : Fin 8) (a : PendAct) (s t u : State), s.pendAct (.sched i) = some a ∧ bitsOf a.desc 2 0 = 1 ∧ s.actDue a = true ∧ s.bit (slotStat (.sched i)) 28 = false ∧ s.actWarned a = false ∧ (s.gkey (actTarget a)).nextValid = true ∧ t = s.setGkey { s.gkey (actTarget a) with cur := (s.gkey (actTarget a)).next, nextValid := false } ∧ u = t.endAct (.sched i) stDone 0 false (!s.locked) false :=
  by
  refine ⟨0, W.schedAct 1 4, W.schedArmed 1 4, _, _, ?_, ?_, ?_, ?_, ?_, ?_, rfl, rfl⟩ <;> decide +kernel

theorem test_hyp_ExchangesAndKeys_12 : ∃ (i : Fin 8) (a : PendAct) (s t u : State), s.pendAct (.sched i) = some a ∧ bitsOf a.desc 2 0 = 2 ∧ s.actDue a = true ∧ s.bit (slotStat (.sched i)) 28 = false ∧ s.actWarned a = false ∧ (s.twt (actTarget a)).isSome = true ∧ t = s.onTwt (actTarget a) (fun x => { x with armed := true }) ∧ u = t.endAct (.sched i) stDone 0 false (!s.locked) false :=
  by
  refine ⟨0, W.schedAct 2 0, W.schedArmed 2 0, _, _, ?_, ?_, ?_, ?_, ?_, ?_, rfl, rfl⟩ <;> decide +kernel

theorem test_hyp_ExchangesAndKeys_13 : ∃ (i : Fin 8) (a : PendAct) (s t u : State), s.pendAct (.sched i) = some a ∧ bitsOf a.desc 2 0 = 3 ∧ s.actDue a = true ∧ s.bit (slotStat (.sched i)) 28 = false ∧ s.actWarned a = false ∧ (s.twt (actTarget a)).isSome = true ∧ t = s.onTwt (actTarget a) (fun x => { x with armed := false, opened := none }) ∧ u = t.endAct (.sched i) stDone 0 false (!s.locked) false :=
  by
  refine ⟨0, W.schedAct 3 0, W.schedArmed 3 0, _, _, ?_, ?_, ?_, ?_, ?_, ?_, rfl, rfl⟩ <;> decide +kernel

theorem test_hyp_ExchangesAndKeys_14 : ∃ (i : Fin 8) (a : PendAct) (s t u : State), s.pendAct (.sched i) = some a ∧ bitsOf a.desc 2 0 = 4 ∧ s.actDue a = true ∧ s.bit (slotStat (.sched i)) 28 = false ∧ s.actWarned a = false ∧ actTarget a < 6 ∧ s.partOn (actTarget a) = true ∧ t = s.schedPause (actTarget a) ∧ u = t.endAct (.sched i) stDone 0 false (!s.locked) false :=
  by
  refine ⟨0, W.schedAct 4 0, W.schedArmed 4 0, _, _, ?_, ?_, ?_, ?_, ?_, ?_, ?_, rfl, rfl⟩ <;> decide +kernel

theorem test_hyp_ExchangesAndKeys_15 : ∃ (i : Fin 8) (a : PendAct) (s t u : State), s.pendAct (.sched i) = some a ∧ bitsOf a.desc 2 0 = 5 ∧ s.actDue a = true ∧ s.bit (slotStat (.sched i)) 28 = false ∧ s.actWarned a = false ∧ actTarget a < 6 ∧ s.partOn (actTarget a) = true ∧ t = s.schedResume (actTarget a) ∧ u = t.endAct (.sched i) stDone 0 false (!s.locked) false :=
  by
  refine ⟨0, W.schedAct 5 0, W.schedArmed 5 0, _, _, ?_, ?_, ?_, ?_, ?_, ?_, ?_, rfl, rfl⟩ <;> decide +kernel

theorem test_hyp_ExchangesAndKeys_16 : ∃ (i : Fin 8) (a : PendAct) (x : Station) (s t u : State), s.pendAct (.sched i) = some a ∧ bitsOf a.desc 2 0 = 0 ∧ s.actDue a = true ∧ s.bit (slotStat (.sched i)) 28 = false ∧ s.actWarned a = false ∧ s.station (actTarget a) = some x ∧ x.nextValid = true ∧ t = s.onStation (actTarget a) (fun e => { e with keyCur := e.keyNext, nextValid := false }) ∧ u = t.endAct (.sched i) stDone 0 false (!s.locked) false :=
  by
  refine ⟨0, W.schedAct 0 4, W.sta4, W.schedArmed 0 4, _, _, ?_, ?_, ?_, ?_, ?_, ?_, ?_, rfl, rfl⟩ <;> decide +kernel

theorem test_hyp_BackhaulLink_1 : ∃ (d : Fin 12) (s u t : State), s.dirHere d.val = true ∧ s.gridNew d.val = true ∧ u = s.gridMark d.val ∧ u.dirOn d.val = true ∧ u.dirState d.val = 0 ∧ t = u.cycleSettle d.val ∧ t.dirState d.val = 1 :=
  by
  refine ⟨0, W.bhReady, _, _, ?_, ?_, rfl, ?_, ?_, rfl, ?_⟩ <;> decide +kernel

theorem test_hyp_BackhaulLink_2 : ∃ (d : Fin 12) (s u : State), s.dirHere d.val = true ∧ s.gridNew d.val = true ∧ u = s.gridMark d.val ∧ u.dirOn d.val = false ∧ u.dirState d.val ≠ 0 :=
  ⟨0, (W.bhIn 2).wr (dCfg 0) 0, _, by decide +kernel, by decide +kernel, rfl, by decide +kernel, by decide +kernel⟩

theorem test_hyp_BackhaulLink_3 : ∃ (d : Fin 12) (s : State), s.dirHere d.val = true ∧ s.gridNew d.val = false :=
  ⟨0, (W.bhIn 2).gridMark 0, by decide +kernel⟩

theorem test_hyp_BackhaulLink_4 : ∃ (d : Fin 12) (why : Nat) (s u t : State), s.dirHere d.val = true ∧ s.gridNew d.val = true ∧ u = s.gridMark d.val ∧ u.dirOn d.val = true ∧ t = u.cycleSettle d.val ∧ t.dirState d.val ≠ 1 ∧ (t.dir d.val).calNext = none ∧ t.skipReason d.val = some why :=
  by
  refine ⟨0, 1, W.bhIn 2, _, _, ?_, ?_, rfl, ?_, rfl, ?_, ?_, ?_⟩ <;> decide +kernel

theorem test_hyp_BackhaulLink_5 : ∃ (d : Fin 12) (f : BhFrame) (s : State), s.dirHere d.val = true ∧ s.dirState d.val ≠ 0 ∧ f.crcOk = false :=
  ⟨0, W.bhFrame, W.bhIn 2, by decide +kernel⟩

theorem test_hyp_BackhaulLink_6 : ∃ (d : Fin 12) (f : BhFrame) (s t : State), s.dirHere d.val = true ∧ s.dirState d.val = 1 ∧ f.crcOk = true ∧ (f.endB == s.bit (dCfg d.val) 0) = false ∧ f.ver = 1 ∧ f.sender = s.fld (D7.dirId (dirDie d.val) (dirHead d.val)) 31 16 ∧ f.consistent = true ∧ t = (s.bump (D7.frameCnt (dirDie d.val) (dirHead d.val)) 15 0 1).onDir d.val (fun z => { z with good := true, noGood := 0, lost := 0, peerSkip := f.skip, advance := if s.bit (dCfg d.val) 0 then z.advance + f.ta else 0, arrival := if s.bit (dCfg d.val) 0 then 0 else f.arrival }) :=
  by
  refine ⟨0, { W.bhFrame with crcOk := true }, W.bhIn 1, _, ?_, ?_, ?_, ?_, ?_, ?_, ?_, rfl⟩ <;> decide +kernel

theorem test_hyp_BackhaulLink_7 : ∃ (d : Fin 12) (s : State), s.dirHere d.val = true ∧ s.dirState d.val ≠ 0 ∧ (s.dir d.val).good = false ∧ (s.dir d.val).peerSkip = 0 ∧ ((s.dir d.val).stream 0).snrs = [] ∧ ((s.dir d.val).stream 1).snrs = [] :=
  ⟨0, W.bhUp, by decide +kernel⟩

theorem test_hyp_BackhaulLink_8 : ∃ (d : Fin 12) (s : State), s.dirHere d.val = true ∧ s.dirState d.val = 2 ∧ 8 ≤ (s.dir d.val).noGood :=
  ⟨0, W.bhUp, by decide +kernel⟩

theorem test_hyp_BackhaulLink_9 : ∃ (d : Fin 12) (s : State), s.dirHere d.val = true ∧ s.dirState d.val = 3 ∧ 64 ≤ (s.dir d.val).lost :=
  ⟨0, W.bhLost, by decide +kernel⟩

theorem test_hyp_BackhaulLink_10 : ∃ (d : Fin 12) (s : State), s.dirHere d.val = true ∧ s.dirState d.val = 1 ∧ (s.dir d.val).search.found = true :=
  ⟨0, W.bhFound, by decide +kernel⟩

theorem test_hyp_BackhaulLink_11 : ∃ (d : Fin 12) (a b : List Int) (x y : Bool) (s : State), s.dirHere d.val = true ∧ s.dirState d.val = 2 ∧ (s.dir d.val).window = false :=
  ⟨0, [], [], false, false, W.bhIn 2, by decide +kernel⟩

theorem test_hyp_BackhaulLink_12 : ∃ (r : Requester) (d : Fin 6) (w : Word) (s : State), s.direct r (D7.tmCmd d.val) = true ∧ bitOf w 31 = true ∧ s.bit (dTm (2 * d.val + bitsOf w 0 0)) 16 = true ∧ (∀ e, r ≠ .engine e) ∧ ((s.dir (2 * d.val + bitsOf w 0 0)).stream (bitsOf w 1 1)).rxPend = none ∧ s.tmWorth (2 * d.val + bitsOf w 0 0) (bitsOf w 1 1) = true :=
  by
  refine ⟨.pcie, 0, 0x80000000, ((W.bhIn 2).setBit (dTm 0) 16 true).wr (D7.tmStage 0 0) 1, ?_, ?_, ?_, fun _ h => by simp at h, ?_, ?_⟩ <;> decide +kernel

theorem test_hyp_BackhaulLink_13 : ∃ (d : Fin 12) (k : Fin 2) (id kAt design : Nat) (es : List Nat) (m : BhMap) (s : State), s.dirHere d.val = true ∧ s.dirState d.val = 2 ∧ ((s.dir d.val).stream k.val).tx.letter ≠ 1 ∧ m = { letter := 1, id := id % 256, design := design } :=
  ⟨0, 0, 3, 0, 20, [], { letter := 1, id := 3, design := 20 }, W.bhIn 2, by decide +kernel⟩

theorem test_hyp_BackhaulHeads_1 : ∃ (r : Requester) (d : Fin 6) (h : Fin 2) (w : Word) (s : State), s.direct r (D6B.headCmd d.val h.val) = true ∧ s.roleN d.val = .backhaul ∧ 0x10 ≤ bitsOf w 22 16 :=
  ⟨.pcie, 0, 0, 0x200001, W.bhReady, by decide +kernel⟩

theorem test_hyp_BackhaulHeads_2 : ∃ (r : Requester) (d : Fin 6) (h : Fin 2) (w : Word) (data : Half) (s : State), s.direct r (D6B.headCmd d.val h.val) = true ∧ s.roleN d.val = .backhaul ∧ 0x10 ≤ bitsOf w 22 16 :=
  ⟨.pcie, 0, 0, 0x200001, 7, W.bhReady, by decide +kernel⟩

theorem test_hyp_BackhaulHeads_3 : ∃ (r : Requester) (d : Fin 6) (h : Fin 2) (w : Word) (s : State), s.direct r (D6B.headCmd d.val h.val) = true ∧ s.roleN d.val = .backhaul ∧ bitsOf w 22 16 < 0x10 :=
  ⟨.pcie, 0, 0, 1, W.bhReady, by decide +kernel⟩

theorem test_hyp_BackhaulHeads_4 : ∃ (d : Fin 12) (s : State), s.dirHere d.val = true ∧ s.bit (D6B.headStat (dirDie d.val) (dirHead d.val)) 1 = false :=
  ⟨0, W.bhReady, by decide +kernel⟩

theorem test_hyp_BackhaulHeads_5 : ∃ (d : Fin 12) (s : State), s.dirHere d.val = true :=
  ⟨0, W.bhReady, by decide +kernel⟩

theorem test_hyp_BackhaulHeads_6 : ∃ (r : Requester) (d : Fin 6) (w : Word) (s : State), s.direct r (D3.calCmd d.val) = true ∧ s.roleN d.val = .backhaul ∧ bitsOf w 3 0 = 0 ∧ bitsOf w 9 8 = 1 :=
  ⟨.pcie, 0, 0x100, W.bhReady, by decide +kernel⟩

theorem test_hyp_BackhaulHeads_7 : ∃ (d : Fin 6) (i : Fin 8) (a : PendAct) (n : Nat) (s t u : State), s.pendAct (.part d i) = some a ∧ bitsOf a.desc 1 0 = 0 ∧ s.role d = .backhaul ∧ s.actDue a = true ∧ s.bit (slotStat (.part d i)) 28 = false ∧ s.actWarned a = false ∧ a.slot = .part d i ∧ n = 2 * d.val + bitsOf a.desc 4 4 ∧ s.dirHere n = true ∧ t = s.setDirChan n (putFld (s.rd (D7.dirChan d.val (dirHead n))) 2 0 (clampN 1 6 (bitsOf a.desc 10 8))) ∧ u = t.endAct (.part d i) stDone 0 false (!s.locked) false :=
  by
  refine ⟨0, 0, W.bhAct 0, 0, W.bhArmed 0, _, _, ?_, ?_, ?_, ?_, ?_, ?_, ?_, ?_, ?_, rfl, rfl⟩ <;> decide +kernel

theorem test_hyp_BackhaulHeads_8 : ∃ (d : Fin 6) (i : Fin 8) (a : PendAct) (n : Nat) (s t u : State), s.pendAct (.part d i) = some a ∧ bitsOf a.desc 1 0 = 1 ∧ s.role d = .backhaul ∧ s.actDue a = true ∧ s.bit (slotStat (.part d i)) 28 = false ∧ s.actWarned a = false ∧ a.slot = .part d i ∧ n = 2 * d.val + bitsOf a.desc 4 4 ∧ s.dirHere n = true ∧ s.acc.fw.getLsbD (dirDie n) = true ∧ t = { s.setBit (dCfg n) 31 true with acc := { s.acc with fw := s.acc.fw ||| BitVec.ofNat 6 (2 ^ dirDie n) } } ∧ u = t.endAct (.part d i) stDone 0 false (!s.locked) false :=
  by
  refine ⟨0, 0, W.bhAct 1, 0, W.bhArmed 1, _, _, ?_, ?_, ?_, ?_, ?_, ?_, ?_, ?_, ?_, ?_, rfl, rfl⟩ <;> decide +kernel

theorem test_hyp_BackhaulHeads_9 : ∃ (d : Fin 6) (i : Fin 8) (a : PendAct) (n : Nat) (s t u : State), s.pendAct (.part d i) = some a ∧ bitsOf a.desc 1 0 = 2 ∧ s.role d = .backhaul ∧ s.actDue a = true ∧ s.bit (slotStat (.part d i)) 28 = false ∧ s.actWarned a = false ∧ a.slot = .part d i ∧ n = 2 * d.val + bitsOf a.desc 4 4 ∧ s.dirHere n = true ∧ t = s.setBit (dCfg n) 31 false ∧ u = t.endAct (.part d i) stDone 0 false (!s.locked) false :=
  by
  refine ⟨0, 0, W.bhAct 2, 0, W.bhArmed 2, _, _, ?_, ?_, ?_, ?_, ?_, ?_, ?_, ?_, ?_, rfl, rfl⟩ <;> decide +kernel

theorem test_hyp_LinkTraffic_1 : ∃ (l : Fin 8) (m : Fin 3) (c : Nat) (d : Drr) (x : QFrame) (s t u : State), s.linkOn l.val = true ∧ t = s.settle l.val ∧ t.xblPick l.val m.val = some (c, d) ∧ u = { t with qm := { t.qm with drr := d :: t.qm.drr.filter (fun (e : Drr) => e.port != 16 + l.val) } } ∧ u.waitingRetx l.val c = none ∧ u.head (portQueue (16 + l.val) c) = some x :=
  ⟨0, 0, 7, { port := 16, cls := 0, deficit := List.replicate 6 0 }, { num := 0, frame := { dst := 1, src := 2, tag := none, ip := none, len := 64, payload := [] }, sub := 0, at_ := 0, pool := .shared }, W.linkData, _, _, by decide +kernel, rfl, by decide +kernel, rfl, by decide +kernel, by decide +kernel⟩

theorem test_hyp_LinkTraffic_2 : ∃ (l : Fin 8) (m : Fin 3) (f : XblFrame) (slot wrap which : Nat) (s t : State), s.linkOn l.val = true ∧ linkHas (s.rd (C17.linkCfg l.val)) m.val = true ∧ f.ver = 1 ∧ f.type ≤ 3 ∧ f.sound = true ∧ f.data = none ∧ t = s.pipeRx l.val 32 ∧ t.rxKey l.val f.phase = some (slot, wrap, which) ∧ (t.link l.val).high = none ∧ f.authOk = true ∧ (t.pipeKey slot).valid = true :=
  by
  refine ⟨0, 0, W.xblFrame, 4096, 0, 0, W.linkUp, _, ?_, ?_, ?_, ?_, ?_, ?_, rfl, ?_⟩ <;> decide +kernel

theorem test_hyp_LinkTraffic_3 : ∃ (l : Fin 8) (seq : Nat) (h : XblHeld) (s : State), s.linkOn l.val = true ∧ (s.link l.val).held.find? (fun (x : XblHeld) => x.seq == seq) = some h ∧ h.since + s.fld (C17.reorder l.val) 6 0 * 100000 ≤ s.mono :=
  ⟨0, 9, W.held0, W.linkHeld, by decide +kernel⟩

theorem test_hyp_LinkTraffic_4 : ∃ (l : Fin 8) (x : XblLink) (s : State), s.linkOn l.val = true ∧ s.memAvail l.val 0 = true ∧ x = s.link l.val ∧ x.changed ≠ [] ∧ x.ackAt = none ∧ s.canSeq l.val = true :=
  by
  refine ⟨0, _, W.linkAck, ?_, ?_, rfl, ?_, ?_, ?_⟩ <;> decide +kernel

theorem test_hyp_LinkTraffic_5 : ∃ (l : Fin 8) (seq : Nat) (e : XblSent) (s : State), s.linkOn l.val = true ∧ (s.link l.val).store.find? (fun (x : XblSent) => x.seq == seq) = some e ∧ e.last + s.retxTo l.val e.member ≤ s.mono ∧ e.retx < s.fld (C17.reorder l.val) 19 16 ∧ s.choices l.val e.cls ≠ [] :=
  ⟨0, 5, W.sent0, W.linkSent, by decide +kernel⟩

theorem test_hyp_LinkTraffic_6 : ∃ (l : Fin 8) (seq : Nat) (e : XblSent) (s : State), s.linkOn l.val = true ∧ (s.link l.val).store.find? (fun (x : XblSent) => x.seq == seq) = some e ∧ e.last + s.retxTo l.val e.member ≤ s.mono ∧ s.fld (C17.reorder l.val) 19 16 ≤ e.retx :=
  ⟨0, 5, W.sent0, W.linkSent.wr (C17.reorder 0) 1, by decide +kernel⟩

theorem test_hyp_LinkTraffic_7 : ∃ (l c : Fin 8) (t0 m : Nat) (s : State), s.linkOn l.val = true ∧ ((s.link l.val).cls c.val).wait = some t0 ∧ ((s.link l.val).cls c.val).cur = some m ∧ t0 + s.fld (C17.reorder l.val) 14 8 * 100000 ≤ s.mono :=
  ⟨0, 0, 0, 0, W.linkWait, by decide +kernel⟩

theorem test_hyp_LinkTraffic_8 : ∃ (l : Fin 8) (p : Nat × Nat × Nat) (s : State), (s.link l.val).prevKey = some p ∧ p.2.2 ≤ s.mono :=
  ⟨0, (4097, 0, 0), W.linkOverlap, by decide +kernel⟩

theorem test_hyp_LinkMembers_1 : ∃ (l : Fin 8) (m : Fin 3) (s : State), s.linkOn l.val = true ∧ m.val ≠ 0 ∧ linkHas (s.rd (C17.linkCfg l.val)) m.val = true :=
  ⟨0, 2, W.linkUp.wr (C17.linkCfg 0) 0x80000100, by decide +kernel⟩

theorem test_hyp_LinkMembers_2 : ∃ (l : Fin 8) (m : Fin 3) (miss cap : Nat) (s t : State), s.linkOn l.val = true ∧ linkHas (s.rd (C17.linkCfg l.val)) m.val = true ∧ t = s.onLink l.val (fun x => x.onMem m.val (fun y => { y with report := s.mono })) ∧ t.downReason l.val m.val miss cap = none ∧ t.mState l.val m.val = 1 :=
  ⟨0, 0, 0, 0, W.linkHolding 1, _, by decide +kernel, by decide +kernel, rfl, by decide +kernel, by decide +kernel⟩

theorem test_hyp_LinkMembers_3 : ∃ (l : Fin 8) (m : Fin 3) (miss cap n : Nat) (s t : State), s.linkOn l.val = true ∧ linkHas (s.rd (C17.linkCfg l.val)) m.val = true ∧ t = s.onLink l.val (fun x => x.onMem m.val (fun y => { y with report := s.mono })) ∧ t.downReason l.val m.val miss cap = some n :=
  ⟨0, 0, 0, 0, 1, W.linkUp, _, by decide +kernel, by decide +kernel, rfl, by decide +kernel⟩

theorem test_hyp_LinkMembers_4 : ∃ (l : Fin 8) (s : State), s.linkOn l.val = true ∧ ((s.link l.val).mem 1).heard + 3 * (s.fld (C17.health1 l.val) 22 16 * 1000000) ≤ s.mono :=
  ⟨0, { W.linkUp with mono := 4000000000 }, by decide +kernel⟩

theorem test_hyp_LinkMembers_5 : ∃ (l : Fin 8) (m : Fin 3) (s : State), s.linkOn l.val = true ∧ ((s.link l.val).mem m.val).report + 1000000 ≤ s.mono :=
  ⟨0, 0, W.linkUp, by decide +kernel⟩

theorem test_hyp_LinkMembers_6 : ∃ (l : Fin 8) (m : Fin 3) (s : State), s.linkOn l.val = true ∧ s.mState l.val m.val = 3 ∧ ((s.link l.val).mem m.val).clear + s.upHold l.val m.val ≤ s.mono ∧ s.downReason l.val m.val 0 (2 ^ 32) = none :=
  ⟨0, 0, W.linkHolding 3, by decide +kernel⟩

theorem test_hyp_LinkMembers_7 : ∃ (i : Fin 8) (a : PendAct) (l : Nat) (s : State), s.pendAct (.link i) = some a ∧ bitsOf a.desc 1 0 = 0 ∧ s.actDue a = true ∧ s.bit (slotStat (.link i)) 28 = false ∧ s.actWarned a = false ∧ l = bitsOf a.desc 10 8 ∧ bitOf (s.rd (C17.keySel l)) 12 = true :=
  ⟨0, W.linkAct 0, 0, (W.linkArmed 0).wr (C17.keySel 0) 0x1040, by decide +kernel⟩

theorem test_hyp_LinkMembers_8 : ∃ (i : Fin 8) (a : PendAct) (l : Nat) (s : State), s.pendAct (.link i) = some a ∧ bitsOf a.desc 1 0 = 1 ∧ s.actDue a = true ∧ s.bit (slotStat (.link i)) 28 = false ∧ s.actWarned a = false ∧ l = bitsOf a.desc 10 8 ∧ s.linkFault l (putBit (s.rd (C17.linkCfg l)) 31 true) = none ∧ s.bit (C17.linkCfg l) 31 = false :=
  ⟨0, W.linkAct 1, 0, W.linkableArmed, by decide +kernel⟩

theorem test_hyp_LinkMembers_9 : ∃ (i : Fin 8) (a : PendAct) (l : Nat) (s : State), s.pendAct (.link i) = some a ∧ bitsOf a.desc 1 0 = 2 ∧ s.actDue a = true ∧ s.bit (slotStat (.link i)) 28 = false ∧ s.actWarned a = false ∧ l = bitsOf a.desc 10 8 ∧ s.bit (C17.linkCfg l) 31 = true :=
  ⟨0, W.linkAct 2, 0, W.linkArmed 2, by decide +kernel⟩

theorem test_hyp_ForwardingTable_1 : ∃ (r : Requester) (st p : Nat) (s t : State), s.reachable C13.tblCmd = true ∧ s.tagOf r (pageOf C13.tblCmd) = 0 ∧ emKeyOk (s.tblEntry r) = true ∧ s.emInsert (s.tblEntry r) = (st, p, t) ∧ st ≠ 3 :=
  ⟨.pcie, 1, 7, W.keyed, _, by decide +kernel, by decide +kernel, by decide +kernel, rfl, by decide +kernel⟩

theorem test_hyp_ForwardingTable_2 : ∃ (r : Requester) (s : State), s.reachable C13.tblCmd = true ∧ s.tagOf r (pageOf C13.tblCmd) = 0 ∧ emKeyOk (s.tblEntry r) = false :=
  ⟨.pcie, W.on, by decide +kernel⟩

theorem test_hyp_ForwardingTable_3 : ∃ (r : Requester) (e : EmSlot) (s : State), s.reachable C13.tblCmd = true ∧ s.tagOf r (pageOf C13.tblCmd) = 0 ∧ emKeyOk (s.tblEntry r) = true ∧ s.emFind (emKey (s.tblEntry r)) = some e :=
  ⟨.pcie, W.em0, W.keyed, by decide +kernel⟩

theorem test_hyp_ForwardingTable_4 : ∃ (r : Requester) (e : EmSlot) (s : State), s.reachable C13.tblCmd = true ∧ emKeyOk (s.tblEntry r) = true ∧ s.emFind (emKey (s.tblEntry r)) = some e :=
  ⟨.pcie, W.em0, W.keyed, by decide +kernel⟩

theorem test_hyp_ForwardingTable_5 : ∃ (r : Requester) (s : State), s.reachable C13.tblCmd = true ∧ emKeyOk (s.tblEntry r) = true ∧ s.emFind (emKey (s.tblEntry r)) = none :=
  ⟨.pcie, W.keyNew, by decide +kernel⟩

theorem test_hyp_ForwardingTable_6 : ∃ (r : Requester) (ty : Fin 16) (s : State), s.reachable C13.tblCmd = true ∧ s.fwd.em.walk r = none :=
  ⟨.pcie, 0, W.on, by decide +kernel⟩

theorem test_hyp_ForwardingTable_7 : ∃ (r : Requester) (s : State), s.reachable C13.tblCmd = true :=
  ⟨.pcie, W.walking, by decide +kernel⟩

theorem test_hyp_ForwardingTable_8 : ∃ (r : Requester) (w : EmWalk) (s : State), s.fwd.em.walk r = some w ∧ w.last + 100000000 ≤ s.mono :=
  ⟨.pcie, { req := .pcie, cursor := 0, last := 0, opened := 0 }, W.walking, by decide +kernel⟩

theorem test_hyp_ForwardingTable_9 : ∃ (r : Requester) (q : Fin 32) (b : Bool) (ty : Fin 16) (s : State), s.reachable C13.tblCmd = true ∧ s.tagOf r (pageOf C13.tblCmd) = 0 ∧ portLegal q.val = true ∧ s.fwd.em.sweep = none :=
  ⟨.pcie, 0, true, 0, W.on, by decide +kernel⟩

theorem test_hyp_ForwardingTable_10 : ∃ (r : Requester) (ty : Fin 16) (s : State), s.reachable C13.tblCmd = true ∧ s.tagOf r (pageOf C13.tblCmd) = 0 ∧ s.fwd.em.sweep = none :=
  ⟨.pcie, 0, W.on, by decide +kernel⟩

theorem test_hyp_ForwardingTable_11 : ∃ (n : Nat) (w : EmSweep) (s t : State), s.fwd.em.sweep = some w ∧ s.sweepAct w (!s.fwd.em.mark) = (n, t) :=
  ⟨0, { flush := some (5, true), type := 0, removed := 0 }, W.sweeping, _, by decide +kernel, rfl⟩

theorem test_hyp_ForwardingTable_12 : ∃ (s : State), s.cRuns = true ∧ s.fld C13.ageCfg 15 0 ≠ 0 ∧ s.fwd.em.lastAge + s.fld C13.ageCfg 15 0 * 1000000000 ≤ s.mono ∧ s.fwd.em.sweep = none :=
  ⟨{ W.on.wr C13.ageCfg 1 with mono := 1000000000 }, by decide +kernel⟩

theorem test_hyp_ForwardingTable_13 : ∃ (pos : Nat) (e : EmSlot) (s : State), emAt s.fwd.em.slots pos = some e :=
  ⟨7, W.em0, W.withEm, by decide +kernel⟩

theorem test_hyp_ForwardingTable_14 : ∃ (bad : List Nat) (s : State), s.cRuns = true ∧ s.fwd.em.lastScrub + s.fld C13.scrubCfg 13 0 * 1000000 ≤ s.mono :=
  ⟨[7], { W.withEm with mono := 20000000000 }, by decide +kernel⟩

theorem test_hyp_ForwardingTable_15 : ∃ (r : Requester) (n : Fin 2) (w : Word) (s : State), s.direct r (C13.hashSeed n.val) = true ∧ s.fwd.em.slots = [] :=
  ⟨.pcie, 0, 5, W.on, by decide +kernel⟩

theorem test_hyp_ForwardingTable_16 : ∃ (r : Requester) (n : Fin 2) (w : Word) (s : State), s.direct r (C13.hashSeed n.val) = true ∧ s.fwd.em.slots ≠ [] :=
  ⟨.pcie, 0, 5, W.withEm, by decide +kernel⟩

theorem test_hyp_RoutesAndVlans_1 : ∃ (r : Requester) (w : Word) (st k : Nat) (s : State), s.reachable C14.lpmCmd = true ∧ s.tagOf r (pageOf C14.lpmCmd) = 0 ∧ (s.lpmNamed r w).ok = true ∧ s.fwd.lpm.judge (s.lpmNamed r w) = (st, k) ∧ st ≤ 1 :=
  ⟨.pcie, 0x801, 0, 0, W.on, by decide +kernel⟩

theorem test_hyp_RoutesAndVlans_2 : ∃ (r : Requester) (w : Word) (s : State), s.reachable C14.lpmCmd = true ∧ s.tagOf r (pageOf C14.lpmCmd) = 0 ∧ (s.lpmNamed r w).ok = true ∧ s.fwd.lpm.prefixes.any (s.lpmNamed r w).same = true :=
  ⟨.pcie, 0x802, W.lpmKeyed, by decide +kernel⟩

theorem test_hyp_RoutesAndVlans_3 : ∃ (r : Requester) (w : Word) (p q : Prefix) (s : State), s.reachable C14.lpmCmd = true ∧ p = s.lpmNamed r (putFld w 14 8 (famBits (bitOf w 4))) ∧ s.fwd.lpm.search p.v6 p.vrf p.addr = some q :=
  ⟨.pcie, 3, _, W.prefix0, W.lpmKeyed, by decide +kernel, rfl, by decide +kernel⟩

theorem test_hyp_RoutesAndVlans_4 : ∃ (r : Requester) (w : Word) (p : Prefix) (s : State), s.reachable C14.lpmCmd = true ∧ p = s.lpmNamed r (putFld w 14 8 (famBits (bitOf w 4))) ∧ s.fwd.lpm.search p.v6 p.vrf p.addr = none :=
  ⟨.pcie, 3, _, W.withPrefix, by decide +kernel, rfl, by decide +kernel⟩

theorem test_hyp_RoutesAndVlans_5 : ∃ (r : Requester) (w : Word) (p : Prefix) (rest : List Prefix) (s : State), s.reachable C14.lpmCmd = true ∧ bitOf w 15 = true ∧ s.fwd.lpm.prefixes = p :: rest :=
  ⟨.pcie, 0x8004, W.prefix0, [], W.withPrefix, by decide +kernel⟩

theorem test_hyp_RoutesAndVlans_6 : ∃ (r : Requester) (w : Word) (s : State), s.reachable C14.lpmCmd = true ∧ bitOf w 15 = false ∧ s.fwd.lpm.walks.find? (fun x => x.1 == r) = none :=
  ⟨.spi, 4, W.withPrefix, by decide +kernel⟩

theorem test_hyp_RoutesAndVlans_7 : ∃ (r : Requester) (s : State), s.reachable C14.lpmCmd = true :=
  ⟨.pcie, W.withPrefix, by decide +kernel⟩

theorem test_hyp_RoutesAndVlans_9 : ∃ (stage node i : Nat) (s t : State), t = (s.err C14.page 0x0101 (BitVec.ofNat 32 (stage * 65536 + node % 65536))).raise C14.page 1 :=
  ⟨2, 3, 0, W.withPrefix, _, rfl⟩

theorem test_hyp_RoutesAndVlans_10 : ∃ (r : Requester) (i : Fin 4096) (s : State), s.direct r C14.nhCmd = true :=
  ⟨.pcie, 3, W.on, by decide +kernel⟩

theorem test_hyp_RoutesAndVlans_11 : ∃ (r : Requester) (i : Fin 4096) (s : State), s.direct r C14.nhCmd = true :=
  ⟨.pcie, 3, W.on, by decide +kernel⟩

theorem test_hyp_RoutesAndVlans_12 : ∃ (r : Requester) (v : Fin 4096) (s : State), s.direct r C12.vlanCmd = true :=
  ⟨.pcie, 3, W.on, by decide +kernel⟩

theorem test_hyp_RoutesAndVlans_13 : ∃ (r : Requester) (v : Fin 4096) (s : State), s.direct r C12.vlanCmd = true :=
  ⟨.pcie, 3, W.on, by decide +kernel⟩

theorem test_hyp_FramesAndQueues_1 : ∃ (q : Fin 3) (f : Frame) (b : Bool) (p : Option Nat) (s : State), s.cRuns = true ∧ s.bit (C9.ethCfg q.val) 31 = true ∧ s.fld (C9.ethCfg q.val) 29 16 < f.len ∧ 64 ≤ f.len :=
  ⟨0, { W.eth0 with len := 2000 }, true, none, W.eth, by decide +kernel⟩

theorem test_hyp_FramesAndQueues_2 : ∃ (q : Fin 3) (f : Frame) (p : Option Nat) (s : State), s.cRuns = true ∧ s.bit (C9.ethCfg q.val) 31 = true ∧ f.len ≤ s.fld (C9.ethCfg q.val) 29 16 ∧ 64 ≤ f.len :=
  ⟨0, W.eth0, none, W.eth, by decide +kernel⟩

theorem test_hyp_FramesAndQueues_3 : ∃ (q : Fin 3) (f : Frame) (s : State), s.cRuns = true ∧ s.bit (C9.ethCfg q.val) 31 = true ∧ f.len ≤ s.fld (C9.ethCfg q.val) 29 16 ∧ 64 ≤ f.len :=
  ⟨0, W.eth0, W.eth, by decide +kernel⟩

theorem test_hyp_FramesAndQueues_4 : ∃ (q : Fin 32) (f : Frame) (g : Ingress) (s : State), s.cRuns = true ∧ s.portOn q.val = true ∧ s.ingressVid q.val f g = none :=
  ⟨0, W.eth0, { sta := 0, bssid := 0, cls := 0, origin := 0 }, W.port0, by decide +kernel⟩

theorem test_hyp_FramesAndQueues_5 : ∃ (x : LearnReq) (rest : List LearnReq) (e : EmSlot) (key : List Word) (s t : State), s.fwd.em.learnq = x :: rest ∧ t = s.onEm (fun em => { em with learnq := rest }) ∧ key = l2Key x.fid x.mac ∧ t.emFind key = some e ∧ bitOf (e.words.getD 0 0) 16 = false ∧ e.port = x.port ∧ e.sub = x.sub :=
  ⟨{ fid := 0, mac := 2, port := 5, sub := 0 }, [], W.em0, _, W.learns, _, by decide +kernel, rfl, rfl, by decide +kernel⟩

theorem test_hyp_FramesAndQueues_6 : ∃ (c : Nat) (x : QFrame) (s t : State), s.cRuns = true ∧ s.portOn 3 = true ∧ s.portPaused 3 = false ∧ s.takePort 3 = some (x, c, t) :=
  ⟨7, W.q0 .shared, W.portFrame, _, by decide +kernel, by decide +kernel, by decide +kernel, rfl⟩

theorem test_hyp_FramesAndQueues_7 : ∃ (q : Nat) (x : QFrame) (s : State), (s.queue q).find? (fun (y : QFrame) => y.pool == .dram) = some x ∧ s.dramTakes = true ∧ s.cellsIn .reserve (some (q % 8)) + cellsOf x.frame ≤ s.reserveOf (q % 8) :=
  ⟨0, W.q0 .dram, W.spilled, by decide +kernel⟩

theorem test_hyp_FramesAndQueues_8 : ∃ (r : Requester) (s : State), s.direct r C15.qmCmd = true :=
  ⟨.pcie, W.spilled, by decide +kernel⟩

theorem test_hyp_EnginesAndImages_1 : ∃ (r : Requester) (s : State), s.direct r C4.fwCmd = true ∧ s.allHalted = true :=
  ⟨.pcie, W.halted, by decide +kernel⟩

theorem test_hyp_EnginesAndImages_2 : ∃ (s : State), s.cRuns = true ∧ s.fwState = 1 :=
  ⟨W.verifying, by decide +kernel⟩

theorem test_hyp_EnginesAndImages_3 : ∃ (r : Requester) (s : State), s.direct r C4.fwCmd = true :=
  ⟨.pcie, W.on, by decide +kernel⟩

theorem test_hyp_EnginesAndImages_4 : ∃ (r : Requester) (s : State), s.direct r C4.fwCmd = true ∧ s.fwState = 2 :=
  ⟨.pcie, W.halted.wr C4.fwStat 2, by decide +kernel⟩

theorem test_hyp_EnginesAndImages_5 : ∃ (r : Requester) (e : Fin 16) (s : State), s.direct r C4.fwCmd = true ∧ s.engState e.val = engFault :=
  ⟨.pcie, 0, W.engIn engFault, by decide +kernel⟩

theorem test_hyp_EnginesAndImages_6 : ∃ (e : Fin 16) (code addr : Nat) (s : State), s.engState e.val = engRunning :=
  ⟨0, 1, 64, W.engIn engRunning, by decide +kernel⟩

theorem test_hyp_EnginesAndImages_7 : ∃ (e : Fin 16) (s : State), s.engState e.val = engRunning ∧ s.fld (C4.engWdt e.val) 9 0 ≠ 0 ∧ (s.eng e.val).since + s.fld (C4.engWdt e.val) 9 0 * 1000000 ≤ s.mono :=
  ⟨0, { (W.engIn engRunning).wr (C4.engWdt 0) 1 with mono := 1000000 }, by decide +kernel⟩

theorem test_hyp_EnginesAndImages_9 : ∃ (r : Requester) (m : Fin 32) (s : State), s.direct r (C4.mbDoorbell m.val) = true ∧ m.val < 16 ∧ mbSender r m.val = true ∧ s.mbFull m.val = false :=
  ⟨.pcie, 0, W.on, by decide +kernel⟩

theorem test_hyp_EnginesAndImages_10 : ∃ (r : Requester) (m : Fin 32) (s : State), s.direct r (C4.mbRelease m.val) = true ∧ 16 ≤ m.val ∧ mbSender r m.val = false ∧ s.mbFull m.val = true :=
  ⟨.pcie, 16, W.on.wr (C4.mbStat 16) 1, by decide +kernel⟩

theorem test_hyp_EnginesAndImages_11 : ∃ (r : Requester) (image : List Byte) (s t : State), t = s.emberWrite image ∧ t.direct r E5.embCmd = true ∧ t.ember.switching = false :=
  ⟨.pcie, [1], W.on, _, rfl, by decide +kernel, by decide +kernel⟩

theorem test_hyp_EnginesAndImages_12 : ∃ (image : List Byte) (s : State), s.powered .e = true :=
  ⟨[1], W.on, by decide +kernel⟩

theorem test_hyp_EnginesAndImages_13 : ∃ (s : State), s.fld E5.embStat 1 0 = 1 :=
  ⟨W.embVerifying, by decide +kernel⟩

theorem test_hyp_EnginesAndImages_14 : ∃ (r : Requester) (s : State), s.direct r E5.embCmd = true ∧ s.fld E5.embStat 1 0 = 2 :=
  ⟨.pcie, W.on.setFld E5.embStat 1 0 2, by decide +kernel⟩

theorem test_hyp_EnginesAndImages_15 : ∃ (s : State), s.ember.switching = true :=
  ⟨W.embSwitching, by decide +kernel⟩

theorem test_hyp_Grate_1 : ∃ (r : Requester) (i : Fin 4096) (x : Task) (s : State), s.direct r C3.tdCmd = true ∧ (s.task i.val).state = tdFree ∧ x = { s.task i.val with words := s.rdArr (C3.tdData 0) 6, gen := nextGen (s.task i.val).gen, early := 0, state := tdWaiting } ∧ x.count = 0 :=
  ⟨.pcie, 0, _, W.on, by decide +kernel, by decide +kernel, rfl, by decide +kernel⟩

theorem test_hyp_Grate_2 : ∃ (r : Requester) (i : Fin 4096) (s : State), s.direct r C3.tdCmd = true ∧ (s.task i.val).state ≠ tdFree :=
  ⟨.pcie, 0, W.withTask 3, by decide +kernel⟩

theorem test_hyp_Grate_3 : ∃ (r : Requester) (i : Fin 4096) (x : Task) (s : State), s.direct r C3.tdCmd = true ∧ x = s.task i.val :=
  ⟨.pcie, 0, _, W.withTask 3, by decide +kernel, rfl⟩

theorem test_hyp_Grate_4 : ∃ (r : Requester) (i : Fin 4096) (s : State), s.direct r C3.tdCmd = true ∧ (s.task i.val).state ≠ tdRunning ∧ (s.task i.val).state ≠ tdPreempted :=
  ⟨.pcie, 0, W.withTask 1, by decide +kernel⟩

theorem test_hyp_Grate_5 : ∃ (r : Requester) (i : Fin 4096) (n : Nat) (s : State), s.direct r C3.tdCmd = true ∧ (s.task i.val).state = tdWaiting ∧ n = s.fld (C3.tdData 0) 11 0 ∧ n ≠ 0 :=
  ⟨.pcie, 0, 5, (W.withTask 1).wr (C3.tdData 0) 5, by decide +kernel⟩

theorem test_hyp_Grate_6 : ∃ (r : Requester) (i : Fin 4096) (s t : State), s.direct r C3.grDec = true ∧ (s.task i.val).state = tdWaiting ∧ (s.task i.val).count ≤ 1 ∧ t = s.onTask i.val (fun x => { x.setCount (x.count - 1) with src := 0x100 + (reqEngine r).getD 0 }) :=
  ⟨.engine 0, 0, W.withTask 1, _, by decide +kernel, by decide +kernel, by decide +kernel, rfl⟩

theorem test_hyp_Grate_7 : ∃ (e : Fin 16) (i : Fin 4096) (g : Byte) (s t : State), s.direct (.engine e) C3.grDone = true ∧ (s.task i.val).state = tdRunning ∧ (s.task i.val).engine = e.val ∧ s.engTask e.val = i.val ∧ (s.task i.val).gen = g.toNat ∧ t = (s.task i.val).succs.foldl (fun u k => u.decrement k (0x100 + e.val)) (s.grTrace 0x24 (some e.val) (if (s.task i.val).reload = 0 then s.task i.val else (s.task i.val).setCount ((s.task i.val).reload - ((s.task i.val).early + ((s.task i.val).succs.filter (fun k => k == i.val)).length))) 0) :=
  by
  refine ⟨0, 0, 0, W.withTask 3, _, ?_, ?_, ?_, ?_, ?_, rfl⟩ <;> decide +kernel

theorem test_hyp_Grate_8 : ∃ (c : Nat) (rest : List Nat) (s : State), s.srcq = c :: rest :=
  ⟨0x20, [], { W.on with srcq := [0x20] }, by decide +kernel⟩

theorem test_hyp_Grate_9 : ∃ (k : Fin 8) (s : State), s.cRuns = true ∧ s.fld (C3.grTimer k.val) 19 0 ≠ 0 ∧ s.grate.timers.getD k.val 0 + s.fld (C3.grTimer k.val) 19 0 * 1000 ≤ s.mono :=
  ⟨0, { W.on.wr (C3.grTimer 0) 1 with mono := 1000 }, by decide +kernel⟩

theorem test_hyp_Grate_10 : ∃ (e : Nat) (x : Task) (gs : List Nat) (s t : State), s.cRuns = true ∧ s.grate.skip = [] ∧ s.candidates ≠ [] ∧ s.choose s.candidates = some (x, gs) ∧ (List.range 16).find? (fun n => x.affinity n && s.engState n == engIdle) = some e ∧ t = s.creditGroups gs x.group :=
  by
  refine ⟨0, W.task0 2, [0], W.readyTask, _, ?_, ?_, ?_, ?_, ?_, rfl⟩ <;> decide +kernel

theorem test_hyp_Grate_11 : ∃ (e : Fin 16) (i old : Nat) (s t : State), (s.eng e.val).saving = some i ∧ (s.eng e.val).ending = false ∧ old = s.engTask e.val ∧ t = (s.onTask old (fun x => { x with state := tdPreempted })).onEng e.val (fun y => { y with held := old :: y.held }) :=
  ⟨0, 1, 0, (W.withTask 3).onEng 0 (fun x => { x with saving := some 1 }), _, by decide +kernel, by decide +kernel, by decide +kernel, rfl⟩

theorem test_hyp_Grate_12 : ∃ (e : Fin 16) (s : State), s.engState e.val = engRunning ∧ (s.eng e.val).ending = true ∧ (s.eng e.val).saving = none ∧ s.heldBest e.val = none ∧ s.choose (s.candidates.filter (fun (t : Task) => t.affinity e.val)) = none :=
  ⟨0, W.ending, by decide +kernel⟩

theorem test_hyp_Grate_13 : ∃ (i : Fin 4096) (x : Task) (s : State), x = s.task i.val ∧ x.state = tdRunning ∧ x.runMax ≠ 0 ∧ s.onEngine x.engine = some i.val ∧ (s.eng x.engine).taskFrom + x.runMax * 1000 ≤ s.mono :=
  ⟨0, _, W.overrun, rfl, by decide +kernel⟩

theorem test_hyp_DmaChannels_1 : ∃ (r : Requester) (n : Fin 32) (host : List Word) (s t : State), s.direct r (C5.chCmd n.val) = true ∧ s.pstate ≠ 4 ∧ (s.ch n.val = chIdle ∨ 5 ≤ s.ch n.val) ∧ t = (((s.wr (C5.chStat n.val) 0).wr (C5.chMismatch n.val) 0xFFFFFFFF).onChan n.val (fun _ => DmaChan.fresh)) :=
  ⟨.pcie, 16, [], W.descMem, _, by decide +kernel, by decide +kernel, by decide +kernel, rfl⟩

theorem test_hyp_DmaChannels_2 : ∃ (r : Requester) (n : Fin 32) (host : List Word) (s : State), s.direct r (C5.chCmd n.val) = true ∧ n.val < 16 ∧ s.pstate = 4 :=
  ⟨.pcie, 0, [], W.on.wr GLB.pwrState 4, by decide +kernel⟩

theorem test_hyp_DmaChannels_3 : ∃ (r : Requester) (n : Fin 32) (host : List Word) (s : State), s.direct r (C5.chCmd n.val) = true ∧ s.pstate ≠ 4 ∧ s.ch n.val ≠ chIdle ∧ s.ch n.val < 5 :=
  ⟨.pcie, 16, [], W.chanAt 16 1 false, by decide +kernel⟩

theorem test_hyp_DmaChannels_4 : ∃ (n reason : Nat) (x : DmaAddr) (host : List Word) (s t u : State) (w : List Word), t = s.setCur n x ∧ t.descPlace x = none ∧ x.space ≠ 0 ∧ (x.space ≠ 2 ∨ s.dm ≠ dmFrozen) ∧ w = t.fetchDesc x host ∧ u = (t.onChan n (fun c => { c with desc := w.take 12, pos := 0, tail := false, unread := false })).showResidue n ∧ u.descFault n w = some reason ∧ reason ≠ 3 ∧ wbOf w = false :=
  by
  refine ⟨16, 5, { space := 1, sub := 0, addr := 0, zero := true }, [], W.badDesc, _, _, _, rfl, ?_, ?_, ?_, rfl, rfl, ?_, ?_, ?_⟩ <;> decide +kernel

theorem test_hyp_DmaChannels_5 : ∃ (r : Requester) (n : Fin 32) (s : State), s.direct r (C5.chCmd n.val) = true ∧ n.val < 16 ∧ s.ch n.val = chRunning ∧ (s.chan n.val).tail = false :=
  ⟨.pcie, 0, W.chanAt 0 1 false, by decide +kernel⟩

theorem test_hyp_DmaChannels_6 : ∃ (r : Requester) (n : Fin 32) (s : State), s.direct r (C5.chCmd n.val) = true ∧ 16 ≤ n.val :=
  ⟨.pcie, 16, W.on, by decide +kernel⟩

theorem test_hyp_DmaChannels_7 : ∃ (n : Fin 32) (s : State), s.ch n.val = chPausing :=
  ⟨0, W.chanAt 0 3 false, by decide +kernel⟩

theorem test_hyp_DmaChannels_8 : ∃ (r : Requester) (n : Fin 32) (s : State), s.direct r (C5.chCmd n.val) = true ∧ n.val < 16 ∧ s.ch n.val = chPaused ∧ (s.chan n.val).unread = false :=
  ⟨.pcie, 0, W.chanAt 0 4 false, by decide +kernel⟩

theorem test_hyp_DmaChannels_9 : ∃ (r : Requester) (n : Fin 32) (s t : State), s.direct r (C5.chCmd n.val) = true ∧ n.val < 16 ∧ s.ch n.val = chPaused ∧ (s.chan n.val).unread = true ∧ t = s.setBit (C5.chStat n.val) 12 false :=
  ⟨.pcie, 0, (W.chanAt 0 4 false).onChan 0 (fun x => { x with unread := true }), _, by decide +kernel, by decide +kernel, by decide +kernel, by decide +kernel, rfl⟩

theorem test_hyp_DmaChannels_10 : ∃ (r : Requester) (n : Fin 32) (s : State), s.direct r (C5.chCmd n.val) = true ∧ n.val < 16 ∧ s.ch n.val ≠ chPaused :=
  ⟨.pcie, 0, W.on, by decide +kernel⟩

theorem test_hyp_DmaChannels_11 : ∃ (r : Requester) (n : Fin 32) (s : State), s.direct r (C5.chCmd n.val) = true ∧ 16 ≤ n.val ∧ s.ch n.val = chRunning ∧ (s.chan n.val).tail = false ∧ wbOf (s.chan n.val).desc = false :=
  ⟨.pcie, 16, W.chanAt 16 1 false, by decide +kernel⟩

theorem test_hyp_DmaChannels_12 : ∃ (r : Requester) (n : Fin 32) (s : State), s.direct r (C5.chCmd n.val) = true ∧ 16 ≤ n.val ∧ 5 ≤ s.ch n.val :=
  ⟨.pcie, 16, W.chanAt 16 7 false, by decide +kernel⟩

theorem test_hyp_DmaChannels_13 : ∃ (r : Requester) (n : Fin 32) (s : State), s.direct r (C5.chCmd n.val) = true ∧ n.val < 16 :=
  ⟨.pcie, 0, W.on, by decide +kernel⟩

theorem test_hyp_DmaChannels_14 : ∃ (host : List Byte) (n : Nat) (s t : State), s.nextChan = some n ∧ t = { s with dma := if radioClass n then { s.dma with lastRadio := n } else { s.dma with lastHost := n - 16 } } ∧ s.hostSide n = false ∧ ((sidesOf (s.chan n).desc).any (fun x => x.at_.space == 2) = false ∨ s.dm = dmReady) :=
  ⟨[], 16, W.chanAt 16 1 false, _, by decide +kernel, by first | rfl | exact Eq.refl _, by decide +kernel, by decide +kernel⟩

theorem test_hyp_DmaChannels_15 : ∃ (host : List Byte) (n : Nat) (s t : State), s.nextChan = some n ∧ t = { s with dma := if radioClass n then { s.dma with lastRadio := n } else { s.dma with lastHost := n - 16 } } ∧ s.hostSide n = true ∧ s.hostUp = false :=
  ⟨[], 16, W.hostRead, _, by decide +kernel, by first | rfl | exact Eq.refl _, by decide +kernel, by decide +kernel⟩

theorem test_hyp_DmaChannels_16 : ∃ (host : List Byte) (n : Nat) (s t : State), s.nextChan = some n ∧ t = { s with dma := if radioClass n then { s.dma with lastRadio := n } else { s.dma with lastHost := n - 16 } } ∧ s.hostSide n = false ∧ (sidesOf (s.chan n).desc).any (fun x => x.at_.space == 2) = true ∧ s.dm = dmFrozen :=
  ⟨[], 16, W.dramFill.wr C7.dramStat 4, _, by decide +kernel, rfl, by decide +kernel, by decide +kernel, by decide +kernel⟩

theorem test_hyp_DmaChannels_17 : ∃ (host : List Byte) (n : Nat) (s t : State), s.nextChan = some n ∧ t = { s with dma := if radioClass n then { s.dma with lastRadio := n } else { s.dma with lastHost := n - 16 } } ∧ s.hostSide n = false ∧ (sidesOf (s.chan n).desc).any (fun x => x.at_.space == 2) = true ∧ s.dm ≠ dmFrozen ∧ s.dm ≠ dmReady :=
  by
  refine ⟨[], 16, W.dramFill.wr C7.dramStat 5, _, ?_, rfl, ?_, ?_, ?_, ?_⟩ <;> decide +kernel

theorem test_hyp_DmaChannels_18 : ∃ (n : Fin 32) (line : Nat) (s : State), line ≠ 0 ∧ s.fld (C5.chPace n.val) 7 0 = line ∧ s.ch n.val ≠ chIdle ∧ s.ch n.val < 5 ∧ (s.chan n.val).reqs < 16 ∧ (∀ k < 32, k ≠ n.val → s.fld (C5.chPace k) 7 0 ≠ line) :=
  ⟨16, 1, (W.chanAt 16 1 false).wr (C5.chPace 16) 1, by decide +kernel⟩

theorem test_hyp_DmaChannels_19 : ∃ (r : Requester) (n : Fin 32) (w : Word) (s : State), s.direct r (C5.chLevelAdj n.val) = true :=
  ⟨.pcie, 16, 5, W.on, by decide +kernel⟩

theorem test_hyp_DmaChannels_20 : ∃ (n : Fin 32) (s : State), 1 ≤ s.ch n.val ∧ s.ch n.val ≤ 4 ∧ s.hostSide n.val = true :=
  ⟨16, W.hostRead, by decide +kernel⟩

theorem test_hyp_DmaChannels_21 : ∃ (n : Fin 32) (host : List Word) (s t : State), s.ch n.val = chRunning ∧ (s.chan n.val).tail = true ∧ (s.chan n.val).last = true ∧ wbOf (s.chan n.val).desc = false ∧ t = (((s.setFld (C5.chStat n.val) 23 16 (s.fld (C5.chStat n.val) 23 16 + 1)).setCh n.val chComplete).chEnd n.val).sourceEvent n.val :=
  ⟨16, [], W.chanAt 16 1 true, _, by decide +kernel, by decide +kernel, by decide +kernel, by decide +kernel, rfl⟩

theorem test_hyp_Ciphers_1 : ∃ (r : Option Requester) (k : Fin 8) (slot : Fin 16) (prio : Fin 4) (hi : Half) (s u : State), r.all (fun q => s.direct q (E6.ctxCmd k.val)) = true ∧ r.isSome = decide (6 ≤ k.val) ∧ guardOk (hi ++ BitVec.ofNat 16 (1 + slot.val * 4 + prio.val * 64)) = true ∧ u.ctxState k.val = 0 ∧ u.bit (E6.keyStat slot.val) 0 = true ∧ u = s.accept (E6.ctxCmd k.val) (1 + slot.val * 4 + prio.val * 64) :=
  ⟨some .pcie, 6, 0, 0, 0xFFFE, W.aesKey, W.aesKey.accept (E6.ctxCmd 6) 1, by decide +kernel⟩

theorem test_hyp_Ciphers_2 : ∃ (r : Option Requester) (k : Fin 8) (slot : Fin 16) (prio : Fin 4) (hi : Half) (s u : State), r.all (fun q => s.direct q (E6.ctxCmd k.val)) = true ∧ r.isSome = decide (6 ≤ k.val) ∧ guardOk (hi ++ BitVec.ofNat 16 (1 + slot.val * 4 + prio.val * 64)) = true ∧ u.ctxState k.val = 0 ∧ u.bit (E6.keyStat slot.val) 0 = false ∧ u = s.accept (E6.ctxCmd k.val) (1 + slot.val * 4 + prio.val * 64) :=
  ⟨none, 0, 0, 0, 0xFFFE, W.on, W.on.accept (E6.ctxCmd 0) 1, by decide +kernel⟩

theorem test_hyp_Ciphers_3 : ∃ (r : Option Requester) (k : Fin 8) (slot : Fin 16) (prio : Fin 4) (hi : Half) (s u : State), r.all (fun q => s.direct q (E6.ctxCmd k.val)) = true ∧ r.isSome = decide (6 ≤ k.val) ∧ guardOk (hi ++ BitVec.ofNat 16 (1 + slot.val * 4 + prio.val * 64)) = true ∧ u.ctxState k.val ≠ 0 ∧ u = s.accept (E6.ctxCmd k.val) (1 + slot.val * 4 + prio.val * 64) :=
  ⟨some .pcie, 6, 0, 0, 0xFFFE, W.aesOpen 1, (W.aesOpen 1).accept (E6.ctxCmd 6) 1, by decide +kernel⟩

theorem test_hyp_Ciphers_4 : ∃ (r : Option Requester) (k : Fin 8) (slot : Fin 16) (prio : Fin 4) (hi : Half) (s : State), r.all (fun q => s.direct q (E6.ctxCmd k.val)) = true ∧ r.isSome ≠ decide (6 ≤ k.val) :=
  ⟨some .pcie, 0, 0, 0, 0, W.on, by decide +kernel⟩

theorem test_hyp_Ciphers_5 : ∃ (r : Option Requester) (k : Fin 8) (hi : Half) (s u t : State), r.all (fun q => s.direct q (E6.ctxCmd k.val)) = true ∧ r.isSome = decide (6 ≤ k.val) ∧ guardOk (hi ++ BitVec.ofNat 16 (2)) = true ∧ u.ctxState k.val ≠ 0 ∧ u.ctxState k.val ≠ 2 ∧ u.aes.hold = none ∧ u = s.accept (E6.ctxCmd k.val) 2 ∧ t = u.setFld (E6.ctxStat k.val) 2 0 0 :=
  by
  refine ⟨some .pcie, 6, 0xFFFD, W.aesOpen 1, (W.aesOpen 1).accept (E6.ctxCmd 6) 2, _, ?_, ?_, ?_, ?_, ?_, ?_, rfl, rfl⟩ <;> decide +kernel

theorem test_hyp_Ciphers_6 : ∃ (r : Option Requester) (k : Fin 8) (hi : Half) (s u : State), r.all (fun q => s.direct q (E6.ctxCmd k.val)) = true ∧ r.isSome = decide (6 ≤ k.val) ∧ guardOk (hi ++ BitVec.ofNat 16 (2)) = true ∧ u.ctxState k.val = 0 ∧ u = s.accept (E6.ctxCmd k.val) 2 :=
  ⟨some .pcie, 6, 0xFFFD, W.aesKey, W.aesKey.accept (E6.ctxCmd 6) 2, by decide +kernel⟩

theorem test_hyp_Ciphers_7 : ∃ (r : Option Requester) (k : Fin 8) (d : Bool) (s t : State), r.all (fun q => s.direct q (E6.ctxGo k.val)) = true ∧ r.isSome = decide (6 ≤ k.val) ∧ s.ctxState k.val = 1 ∧ s.aes.hold = none ∧ t = ((s.setFld (E6.ctxStat k.val) 2 0 2).setBit (E6.ctxStat k.val) 8 false).setAesCtx k.val { s.aesCtx k.val with order := s.aes.order, decrypt := d } :=
  ⟨some .pcie, 6, true, W.aesOpen 1, _, by decide +kernel, by decide +kernel, by decide +kernel, by decide +kernel, rfl⟩

theorem test_hyp_Ciphers_8 : ∃ (r : Option Requester) (k : Fin 8) (d : Bool) (s : State), r.all (fun q => s.direct q (E6.ctxGo k.val)) = true ∧ r.isSome = decide (6 ≤ k.val) ∧ 2 ≤ s.ctxState k.val :=
  ⟨some .pcie, 6, true, W.aesOpen 2, by decide +kernel⟩

theorem test_hyp_Ciphers_9 : ∃ (k : Nat) (s t : State), s.aes.run = none ∧ s.aesClock = true ∧ s.aesNext = some k ∧ t = (s.setAesCtx k { s.aesCtx k with started := true }).setFld (E6.ctxStat k) 2 0 3 :=
  ⟨6, W.aesOpen 2, _, by decide +kernel, by decide +kernel, by decide +kernel, rfl⟩

theorem test_hyp_Ciphers_10 : ∃ (x : AesRun) (s t u : State) (out : List Word), s.aes.run = some x ∧ x.live = true ∧ out = (if x.decrypt then Config.aesDecrypt x.key x.input else Config.aesEncrypt x.key x.input) ∧ t = { s.count E6.aesBlocks 1 with aes := { s.aes with run := none, hold := none } } ∧ u = (((t.wrArr (E6.ctxOut x.ctx 0) ((List.range 4).map (fun i => out.getD i 0))).setFld (E6.ctxStat x.ctx) 2 0 1).setBit (E6.ctxStat x.ctx) 8 true).raise E6.page x.ctx :=
  ⟨{ ctx := 6, key := [], input := [0, 0, 0, 0], decrypt := false, prio := 0, live := true }, W.aesRun true, _, _, _, by decide +kernel, by decide +kernel, rfl, rfl, rfl⟩

theorem test_hyp_Ciphers_11 : ∃ (x : AesRun) (s t : State), s.aes.run = some x ∧ x.live = false ∧ t = { s.count E6.aesBlocks 1 with aes := { s.aes with run := none, hold := none } } :=
  ⟨{ ctx := 6, key := [], input := [0, 0, 0, 0], decrypt := false, prio := 0, live := false }, W.aesRun false, _, by decide +kernel, by decide +kernel, rfl⟩

theorem test_hyp_Ciphers_12 : ∃ (p c til : Nat) (s : State), s.aes.hold = some (p, c, til) ∧ til ≤ s.mono :=
  ⟨1, 6, 0, W.aesHold, by decide +kernel⟩

theorem test_hyp_Ciphers_13 : ∃ (r : Option Requester) (slot : Fin 16) (long : Bool) (index : Byte) (hi : Half) (s u : State), r.all (fun q => s.direct q E6.keyCmd) = true ∧ guardOk (hi ++ BitVec.ofNat 16 (slot.val + 1 * 16 + b2n long * 64 + index.toNat * 256)) = true ∧ index ≠ 0 ∧ (u.aesSlot slot.val).retired = none ∧ u.ctxsOf slot.val (u.aesGen slot.val) = [] ∧ u = s.accept E6.keyCmd (slot.val + 1 * 16 + b2n long * 64 + index.toNat * 256) :=
  ⟨some .pcie, 0, false, 1, 0xFEEF, W.on, W.on.accept E6.keyCmd 0x110, by decide +kernel⟩

theorem test_hyp_Ciphers_14 : ∃ (r : Option Requester) (slot : Fin 16) (long : Bool) (index : Byte) (hi : Half) (s : State), r.all (fun q => s.direct q E6.keyCmd) = true ∧ guardOk (hi ++ BitVec.ofNat 16 (slot.val + 1 * 16 + b2n long * 64 + index.toNat * 256)) = true ∧ index = 0 :=
  ⟨some .pcie, 0, false, 0, 0xFFEF, W.on, by decide +kernel⟩

theorem test_hyp_Ciphers_15 : ∃ (r : Option Requester) (slot : Fin 16) (long : Bool) (index : Byte) (hi : Half) (s u : State), r.all (fun q => s.direct q E6.keyCmd) = true ∧ guardOk (hi ++ BitVec.ofNat 16 (slot.val + 1 * 16 + b2n long * 64 + index.toNat * 256)) = true ∧ index ≠ 0 ∧ (u.aesSlot slot.val).retired.isSome = true ∧ u = s.accept E6.keyCmd (slot.val + 1 * 16 + b2n long * 64 + index.toNat * 256) :=
  ⟨some .pcie, 0, false, 1, 0xFEEF, W.aesHeld, W.aesHeld.accept E6.keyCmd 0x110, by decide +kernel⟩

theorem test_hyp_Ciphers_16 : ∃ (r : Option Requester) (slot : Fin 16) (long : Bool) (index : Byte) (hi : Half) (s u t : State), r.all (fun q => s.direct q E6.keyCmd) = true ∧ guardOk (hi ++ BitVec.ofNat 16 (slot.val + 2 * 16 + b2n long * 64 + index.toNat * 256)) = true ∧ index = 0 ∧ (u.aesSlot slot.val).retired = none ∧ u.ctxsOf slot.val (u.aesGen slot.val) = [] ∧ u = s.accept E6.keyCmd (slot.val + 2 * 16 + b2n long * 64 + index.toNat * 256) ∧ t = (u.setAesSlot slot.val { key := [], retired := none }).wr (E6.keyStat slot.val) (BitVec.ofNat 32 (nextGen (u.aesGen slot.val) * 2 ^ 8)) :=
  by
  refine ⟨some .pcie, 0, false, 0, 0xFFDF, W.aesKey, W.aesKey.accept E6.keyCmd 0x20, _, ?_, ?_, ?_, ?_, ?_, rfl, rfl⟩ <;> decide +kernel

theorem test_hyp_Ciphers_17 : ∃ (r : Requester) (slot : Fin 8192) (hi : Half) (s u : State), s.direct r C6.keyCmd = true ∧ guardOk (hi ++ BitVec.ofNat 16 (slot.val + 1 * 8192)) = true ∧ slot.val < 4160 ∧ u = s.accept C6.keyCmd (bitsOf (hi ++ BitVec.ofNat 16 (slot.val + 1 * 8192)) 15 0) :=
  ⟨.pcie, 0, 0xDFFF, W.on, W.on.accept C6.keyCmd 0x2000, by decide +kernel⟩

theorem test_hyp_Ciphers_18 : ∃ (r : Requester) (slot : Fin 8192) (hi : Half) (k : PipeKey) (s u : State), s.direct r C6.keyCmd = true ∧ guardOk (hi ++ BitVec.ofNat 16 (slot.val + 2 * 8192)) = true ∧ slot.val < 4160 ∧ u = s.accept C6.keyCmd (bitsOf (hi ++ BitVec.ofNat 16 (slot.val + 2 * 8192)) 15 0) ∧ k = { u.pipeKey slot.val with valid := false, key := [], gen := nextGen (u.pipeKey slot.val).gen, eraseGen := nextGen (u.pipeKey slot.val).gen, exhausted := false } :=
  ⟨.pcie, 0, 0xBFFF, _, W.on, _, by decide +kernel, by decide +kernel, by decide +kernel, rfl, rfl⟩

theorem test_hyp_Ciphers_19 : ∃ (r : Requester) (slot : Fin 8192) (hi : Half) (s u : State), s.direct r C6.keyCmd = true ∧ guardOk (hi ++ BitVec.ofNat 16 (slot.val + 3 * 8192)) = true ∧ slot.val < 4160 ∧ u = s.accept C6.keyCmd (bitsOf (hi ++ BitVec.ofNat 16 (slot.val + 3 * 8192)) 15 0) :=
  ⟨.pcie, 0, 0x9FFF, W.on, W.on.accept C6.keyCmd 0x6000, by decide +kernel⟩

theorem test_hyp_Ciphers_20 : ∃ (r : Requester) (slot : Fin 8192) (hi : Half) (s : State), s.direct r C6.keyCmd = true ∧ 4160 ≤ slot.val ∧ guardOk (hi ++ BitVec.ofNat 16 (slot.val + 8192)) = true :=
  ⟨.pcie, 8191, 0xC000, W.on, by decide +kernel⟩

theorem test_hyp_DramController_1 : ∃ (r : Requester) (s : State), s.direct r C7.dramCmd = true ∧ (s.dm = dmOff ∨ s.dm = dmFailed) :=
  ⟨.pcie, W.on, by decide +kernel⟩

theorem test_hyp_DramController_2 : ∃ (r : Requester) (s : State), s.direct r C7.dramCmd = true ∧ s.dm ≠ dmOff ∧ s.dm ≠ dmFailed :=
  ⟨.pcie, W.dramIn 2, by decide +kernel⟩

theorem test_hyp_DramController_3 : ∃ (ch step : Nat) (s : State), s.dm = dmInit :=
  ⟨1, 2, W.dramIn 1, by decide +kernel⟩

theorem test_hyp_DramController_4 : ∃ (s t : State), s.dm = dmInit ∧ t = s.setBit C7.dramStat 9 false :=
  ⟨W.dramIn 1, _, by decide +kernel, rfl⟩

theorem test_hyp_DramController_5 : ∃ (r : Requester) (rate : Fin 4) (s : State), s.direct r C7.dramCmd = true ∧ s.ddr.target = none ∧ s.dm = dmReady ∧ s.ddr.trained.getLsbD rate.val = true :=
  ⟨.pcie, 1, (W.dramIn 2).onDdr (fun x => { x with trained := 0xF }), by decide +kernel⟩

theorem test_hyp_DramController_6 : ∃ (r : Requester) (rate : Fin 4) (s : State), s.direct r C7.dramCmd = true ∧ s.ddr.target = none ∧ s.dm = dmReady ∧ s.ddr.trained.getLsbD rate.val = false :=
  ⟨.pcie, 1, W.dramIn 2, by decide +kernel⟩

theorem test_hyp_DramController_7 : ∃ (s : State), s.ddr.target.isSome = true ∧ s.dm = dmReady ∧ s.dmTraining = false :=
  ⟨W.dramFsp 2, by decide +kernel⟩

theorem test_hyp_DramController_8 : ∃ (n : Nat) (s : State), s.ddr.target = some n ∧ s.dm = dmFsp :=
  ⟨1, W.dramFsp 3, by decide +kernel⟩

theorem test_hyp_DramController_9 : ∃ (r : Requester) (all : Bool) (s : State), s.direct r C7.dramCmd = true ∧ s.dm = dmReady :=
  ⟨.pcie, true, W.dramIn 2, by decide +kernel⟩

theorem test_hyp_DramController_10 : ∃ (r : Requester) (all : Bool) (s : State), s.direct r C7.dramCmd = true ∧ s.dm ≠ dmReady :=
  ⟨.pcie, true, W.on, by decide +kernel⟩

theorem test_hyp_DramController_11 : ∃ (s : State), s.dm = dmReady ∧ s.ddr.trainAt + s.fld C7.trainCfg 9 0 * 1000000 ≤ s.mono :=
  ⟨{ W.dramIn 2 with mono := 2000000000 }, by decide +kernel⟩

theorem test_hyp_DramController_12 : ∃ (ch : Fin 4) (bank : Fin 64) (rt : Fin 3) (s : State), s.refreshing = true ∧ ch.val < s.channels ∧ rt.val ≠ 0 ∧ s.owedBy (ch.val * 64 + bank.val) < 8 :=
  ⟨0, 0, 1, W.dramIn 2, by decide +kernel⟩

theorem test_hyp_DramController_13 : ∃ (ch : Fin 4) (bank : Fin 64) (rt : Fin 3) (s : State), s.refreshing = true ∧ ch.val < s.channels ∧ rt.val = 2 ∧ 8 ≤ s.owedBy (ch.val * 64 + bank.val) :=
  ⟨0, 0, 2, W.dramOwes, by decide +kernel⟩

theorem test_hyp_DramController_14 : ∃ (ch : Fin 4) (bank : Fin 64) (s : State), s.refreshing = true :=
  ⟨0, 0, W.dramOwes, by decide +kernel⟩

theorem test_hyp_DramController_15 : ∃ (ch : Fin 4) (hot : Bool) (s : State), s.refreshing = true ∧ ch.val < s.channels ∧ s.bit (C7.chStat ch.val) 1 ≠ hot :=
  ⟨0, true, W.dramIn 2, by decide +kernel⟩

theorem test_hyp_DramController_16 : ∃ (kind : Fin 6) (inst : Fin 32) (addr len : Nat) (write : Option (List Byte)) (untracked : Bool) (ecc : EccFound) (q : DramReq) (s : State), q = { since := s.mono, kind := kind.val, inst := inst.val, addr := addr, len := write.elim len List.length, write := write } ∧ s.powered .c = true ∧ s.dm = dmReady ∧ addr + q.len ≤ s.usableMb * 1048576 :=
  ⟨2, 0, 0, 4, some [1, 2], true, W.ecc0, _, W.dramIn 2, rfl, by decide +kernel, by decide +kernel, by decide +kernel⟩

theorem test_hyp_DramController_17 : ∃ (kind : Fin 6) (inst : Fin 32) (addr len : Nat) (write : Option (List Byte)) (untracked : Bool) (ecc : EccFound) (q : DramReq) (s : State), q = { since := s.mono, kind := kind.val, inst := inst.val, addr := addr, len := write.elim len List.length, write := write } ∧ s.powered .c = true ∧ s.dm = dmReady ∧ s.usableMb * 1048576 < addr + q.len :=
  ⟨0, 0, 0x4000000000, 4, none, false, W.ecc0, _, W.dramIn 2, rfl, by decide +kernel, by decide +kernel, by decide +kernel⟩

theorem test_hyp_DramController_18 : ∃ (kind : Fin 6) (inst : Fin 32) (addr len : Nat) (write : Option (List Byte)) (untracked : Bool) (ecc : EccFound) (q : DramReq) (s : State), q = { since := s.mono, kind := kind.val, inst := inst.val, addr := addr, len := write.elim len List.length, write := write } ∧ s.powered .c = true ∧ (s.dm = dmFsp ∨ s.dm = dmFrozen ∧ 3 ≤ kind.val) :=
  ⟨3, 0, 0, 4, none, false, W.ecc0, _, W.dramIn 4, rfl, by decide +kernel, by decide +kernel⟩

theorem test_hyp_DramController_19 : ∃ (q : DramReq) (ecc : EccFound) (s : State), ecc.failed = none ∧ ecc.corrected = [] ∧ s.poisonHit q.addr q.len q.write.isSome = none ∧ q.write = none :=
  ⟨W.rd0 2, W.ecc0, W.dramIn 2, by decide +kernel⟩

theorem test_hyp_DramController_20 : ∃ (q : DramReq) (ecc : EccFound) (addr : Nat) (lo hi : Word) (s : State), ecc.failed = some (addr, lo, hi) :=
  ⟨W.rd0 2, { W.ecc0 with failed := some (64, 1, 2) }, 64, 1, 2, W.dramIn 2, by decide +kernel⟩

theorem test_hyp_DramController_21 : ∃ (r : Requester) (s : State), s.direct r C7.dramCmd = true ∧ s.dm = dmFrozen ∧ s.ddr.poison.contains s.ddr.failed = false ∧ s.ddr.poison.length < 16 :=
  ⟨.pcie, W.dramIn 4, by decide +kernel⟩

theorem test_hyp_DramController_22 : ∃ (r : Requester) (s t u : State), s.direct r C7.dramCmd = true ∧ s.dm = dmFrozen ∧ t = s.ddr.held.foldl (fun u q => u.accessError q) s ∧ u = (t.onDdr (fun x => { x with held := [], trained := 0 })).setPoison [] :=
  ⟨.pcie, W.dramIn 4, _, _, by decide +kernel, by decide +kernel, rfl, rfl⟩

theorem test_hyp_DramController_23 : ∃ (r : Requester) (s : State), s.direct r C7.dramCmd = true ∧ s.dm ≠ dmFrozen :=
  ⟨.pcie, W.on, by decide +kernel⟩

theorem test_hyp_DramController_24 : ∃ (ecc : EccFound) (s : State), s.dm = dmReady ∧ s.fld C7.scrubCfg 15 0 ≠ 0 ∧ s.ddr.scrubAt + s.fld C7.scrubCfg 15 0 * 60000000000 ≤ s.mono ∧ s.ddr.poison = [] ∧ ecc.failed = none :=
  ⟨W.ecc0, { W.dramIn 2 with mono := 86400000000000 }, by decide +kernel⟩

theorem test_hyp_HostPortAndSerial_2 : ∃ (s : State), s.powered .c = true ∧ s.bit C8.hpStat 0 = false :=
  ⟨W.on, by decide +kernel⟩

theorem test_hyp_HostPortAndSerial_3 : ∃ (speed : Fin 8) (width : Fin 16) (s : State), s.powered .c = true ∧ s.hport.ready = true ∧ s.hport.perst = false ∧ s.bit C8.hpStat 0 = false :=
  ⟨3, 8, W.hpReady, by decide +kernel⟩

theorem test_hyp_HostPortAndSerial_4 : ∃ (s : State), s.powered .c = true :=
  ⟨W.linkL0, by decide +kernel⟩

theorem test_hyp_HostPortAndSerial_5 : ∃ (s t : State), t = { s with msix := { enabled := false, mask := BitVec.allOnes 64, pend := 0 }, tags := s.tags.filter (fun (x : TagCopy) => x.req != Requester.pcie), perReq := s.perReq.filter (fun p => decide (2 ^ 32 ≤ p.1)), regs := s.regs.filter (fun p => decide (p.1 < 0x20000000)) } :=
  ⟨W.linkL0, _, rfl⟩

theorem test_hyp_HostPortAndSerial_6 : ∃ (s : State), s.powered .c = true ∧ s.bit C8.hpStat 0 = true :=
  ⟨W.linkL0, by decide +kernel⟩

theorem test_hyp_HostPortAndSerial_7 : ∃ (a : Nat) (bar2 write : Bool) (s t : State), s.powered .c = true ∧ s.bit C8.hpStat 0 = true ∧ (∀ q, s.ddr.held.find? (s.hostHeld a bar2 write) = some q → q.since + s.fld C8.hpCfg 5 0 * 1000000 ≤ s.mono) ∧ t = (((s.onDdr (fun x => { x with held := x.held.eraseP (s.hostHeld a bar2 write) })).count C8.hpAbortCnt 1).raise C8.page 2).err C8.page 0x0101 (BitVec.ofNat 32 (a + b2n bar2 * 2 ^ 31)) :=
  ⟨0, false, false, W.linkL0, _, by decide +kernel, by decide +kernel, by intro q h; simp [show W.linkL0.ddr.held = [] from by decide +kernel] at h, rfl⟩

theorem test_hyp_HostPortAndSerial_8 : ∃ (a : Nat) (write : Bool) (q : DramReq) (rest : List DramReq) (s : State), s.powered .c = true ∧ s.bit C8.hpStat 0 = true ∧ s.ddr.held = q :: rest ∧ q.kind = 4 ∧ q.write.isSome = write ∧ 0x8000000 ≤ a ∧ q.addr = s.dramWinAddr a ∧ s.mono < q.since + s.fld C8.hpCfg 5 0 * 1000000 :=
  ⟨0x8000000, false, { since := 0, kind := 4, inst := 0, addr := 0, len := 4, write := none }, [], W.heldHost, by decide +kernel⟩

theorem test_hyp_HostPortAndSerial_9 : ∃ (a : Nat) (ws : List Word) (crc : Half) (s : State), s.spiUp = true ∧ crc16 (spiHeader 0x02 a ws.length ws) = crc.toNat ∧ a % 4 = 0 ∧ a % 0x10000 + 4 * ws.length ≤ 0x10000 :=
  ⟨0x100, [1], BitVec.ofNat 16 (crc16 (spiHeader 0x02 0x100 1 [1])), W.on, by decide +kernel⟩

theorem test_hyp_HostPortAndSerial_10 : ∃ (a : Nat) (ws : List Word) (crc : Half) (s : State), s.spiUp = true ∧ crc16 (spiHeader 0x02 a ws.length ws) ≠ crc.toNat :=
  ⟨0x100, [1], 0, W.on, by decide +kernel⟩

theorem test_hyp_HostPortAndSerial_11 : ∃ (a : Nat) (n : Fin 64) (crc : Half) (ws : List Word) (s t : State), s.spiUp = true ∧ crc16 (spiHeader 0x03 a (n.val + 1) []) = crc.toNat ∧ a % 4 = 0 ∧ a % 0x10000 + 4 * (n.val + 1) ≤ 0x10000 ∧ s.spiWords a (n.val + 1) = (ws, t) :=
  ⟨0x100, 0, BitVec.ofNat 16 (crc16 (spiHeader 0x03 0x100 1 [])), _, W.on, _, by decide +kernel, by decide +kernel, by decide +kernel, by decide +kernel, rfl⟩

theorem test_hyp_HostPortAndSerial_12 : ∃ (op : Byte) (a : Nat) (n : Fin 64) (crc : Half) (s : State), s.spiUp = true ∧ op ≠ 0x03 ∧ crc16 (spiHeader op a (n.val + 1) []) = crc.toNat :=
  ⟨9, 0x100, 0, BitVec.ofNat 16 (crc16 (spiHeader 9 0x100 1 [])), W.on, by decide +kernel⟩

theorem test_hyp_HostPortAndSerial_13 : ∃ (a : Nat) (n : Fin 64) (crc : Half) (complete : Bool) (ws : List Word) (s t : State), s.spiUp = true ∧ crc16 (spiHeader 0x0B a (n.val + 1) []) = crc.toNat ∧ a % 4 = 0 ∧ a % 0x10000 + 4 * (n.val + 1) ≤ 0x10000 ∧ s.spiWords a (n.val + 1) = (ws, t) :=
  ⟨0x100, 0, BitVec.ofNat 16 (crc16 (spiHeader 0x0B 0x100 1 [])), true, _, W.on, _, by decide +kernel, by decide +kernel, by decide +kernel, by decide +kernel, rfl⟩

theorem test_hyp_HostPortAndSerial_14 : ∃ (status : Nat) (s t : State), t = (if status = 1 then s.bump E9.spiErr 15 0 1 else if status = 2 then s.bump E9.spiErr 31 16 1 else s) :=
  ⟨1, W.on, _, rfl⟩

theorem test_hyp_HostPortAndSerial_15 : ∃ (q : Fin 3) (stat : Byte) (s : State), s.powered .c = true ∧ s.bit (C9.ethStat q.val) 0 = (s.wr (C9.ethStat q.val) (stat.setWidth 32)).bit (C9.ethStat q.val) 0 :=
  ⟨0, 2, W.on, by decide +kernel⟩

theorem test_hyp_HostPortAndSerial_16 : ∃ (q : Fin 3) (stat : Byte) (s : State), s.powered .c = true ∧ s.bit (C9.ethStat q.val) 0 ≠ (s.wr (C9.ethStat q.val) (stat.setWidth 32)).bit (C9.ethStat q.val) 0 :=
  ⟨0, 1, W.on, by decide +kernel⟩

theorem test_hyp_HostPortAndSerial_17 : ∃ (q : Fin 2) (data : Byte) (s t : State), s.powered .c = true ∧ s.bit (C9.sfpI2c q.val) 31 = true ∧ t = (s.setBit (C9.sfpI2c q.val) 31 false).setBit (C9.sfpI2c q.val) 30 false :=
  ⟨0, 7, W.sfpBusy, _, by decide +kernel, by decide +kernel, rfl⟩

theorem test_hyp_HostPortAndSerial_18 : ∃ (q : Fin 2) (data : Byte) (s t : State), s.powered .c = true ∧ s.bit (C9.sfpI2c q.val) 31 = true ∧ t = (s.setBit (C9.sfpI2c q.val) 31 false).setBit (C9.sfpI2c q.val) 30 true :=
  ⟨0, 7, W.sfpBusy, _, by decide +kernel, by decide +kernel, rfl⟩

theorem test_hyp_HostPortAndSerial_19 : ∃ (r : Requester) (off p : Nat) (v : Word) (f : CascFound) (s : State), s.straps.master = true ∧ p = s.fld GLB.cascWinPart 1 0 ∧ p ≠ 0 ∧ s.powered .c = true ∧ s.reach p = true ∧ (s.rd GLB.cascWinBase).toNat + off < 0x3000000 :=
  ⟨.pcie, 0, 1, 7, .plain 0, (W.korIn 2).wr GLB.cascWinPart 1, by decide +kernel⟩

theorem test_hyp_HostPortAndSerial_20 : ∃ (r : Requester) (off : Nat) (f : CascFound) (s : State), s.straps.master = false :=
  ⟨.pcie, 0, .plain 0, W.subord, by decide +kernel⟩

theorem test_hyp_BypassAndKorub_1 : ∃ (r : Requester) (w : Word) (s : State), isHost r = false ∧ s.direct r C9.bypOpen = true :=
  ⟨.engine 0, 1, W.on, by decide +kernel⟩

theorem test_hyp_BypassAndKorub_2 : ∃ (r : Requester) (w : Word) (s : State), isHost r = false ∧ s.direct r C9.bypKick = true :=
  ⟨.engine 0, 1, W.on, by decide +kernel⟩

theorem test_hyp_BypassAndKorub_3 : ∃ (r : Requester) (w : Word) (s : State), isHost r = true ∧ s.direct r C9.bypOpen = true ∧ guardOk w = true ∧ bitsOf w 15 0 < 4 :=
  ⟨.pcie, 0xFFFC0003, W.bypRuns, by decide +kernel⟩

theorem test_hyp_BypassAndKorub_4 : ∃ (r : Requester) (w : Word) (s : State), isHost r = true ∧ s.direct r C9.bypOpen = true ∧ guardOk w = true ∧ 4 ≤ bitsOf w 15 0 :=
  ⟨.pcie, 0xFFFB0004, W.on, by decide +kernel⟩

theorem test_hyp_BypassAndKorub_5 : ∃ (r : Requester) (w : Word) (s t : State), isHost r = true ∧ s.direct r C9.bypKick = true ∧ guardOk w = true ∧ (bitsOf w 15 0 = 0x5A ∨ bitsOf w 15 0 = 0xA5) ∧ s.bypDue = false ∧ (s.byp.first = true ∨ s.fld C9.bypKick 15 0 ≠ bitsOf w 15 0) ∧ t = { s.wr C9.bypKick (guardRead (bitsOf w 15 0)) with byp := { serviced := some s.mono, period := s.fld C9.bypWdt 8 0 * 1000000, first := false } } :=
  by
  refine ⟨.pcie, 0xFFA5005A, W.on, _, ?_, ?_, ?_, ?_, ?_, ?_, rfl⟩ <;> decide +kernel

theorem test_hyp_BypassAndKorub_6 : ∃ (r : Requester) (w : Word) (s : State), isHost r = true ∧ s.direct r C9.bypKick = true ∧ guardOk w = true ∧ (bitsOf w 15 0 = 0x5A ∨ bitsOf w 15 0 = 0xA5) ∧ s.bypDue = false ∧ s.byp.first = false ∧ s.fld C9.bypKick 15 0 = bitsOf w 15 0 :=
  ⟨.pcie, 0xFFA5005A, { W.on.wr C9.bypKick 0x5A with byp := { W.on.byp with first := false } }, by decide +kernel⟩

theorem test_hyp_BypassAndKorub_7 : ∃ (r : Requester) (w : Word) (s : State), isHost r = true ∧ s.direct r C9.bypKick = true ∧ guardOk w = true ∧ bitsOf w 15 0 ≠ 0x5A ∧ bitsOf w 15 0 ≠ 0xA5 :=
  ⟨.pcie, 0xFFFE0001, W.on, by decide +kernel⟩

theorem test_hyp_BypassAndKorub_8 : ∃ (s t : State), s.bypDue = true ∧ t = ((s.setBit C9.bypStat 2 false).bypSettleOne 0).bypSettleOne 1 :=
  ⟨W.bypRuns, _, by decide +kernel, rfl⟩

theorem test_hyp_BypassAndKorub_9 : ∃ (q : Nat) (s : State), s.bit C9.bypStat q = true ∧ s.bypWant q = false :=
  ⟨0, W.on.wr C9.bypStat 1, by decide +kernel⟩

theorem test_hyp_BypassAndKorub_10 : ∃ (k : Fin 3) (pp pl : Fin 4) (m : Bool) (s : State), s.powered .c = true ∧ (s.kor k.val = korTraining ∨ s.kor k.val = korIsDown) ∧ pp.val = s.korPart k.val ∧ pl.val = 2 - k.val ∧ (m && s.straps.master) = false :=
  ⟨0, 1, 2, false, W.korIn 1, by decide +kernel⟩

theorem test_hyp_BypassAndKorub_11 : ∃ (k : Fin 3) (pp pl : Fin 4) (m : Bool) (s : State), s.powered .c = true ∧ (s.kor k.val = korTraining ∨ s.kor k.val = korIsDown) ∧ (pp.val ≠ s.korPart k.val ∨ pl.val ≠ 2 - k.val ∨ (m && s.straps.master) = true) :=
  ⟨0, 2, 2, false, W.korIn 1, by decide +kernel⟩

theorem test_hyp_BypassAndKorub_12 : ∃ (k : Fin 3) (s : State), s.powered .c = true ∧ s.kor k.val = korIsUp ∧ s.bit (C10.korCfg k.val) 0 = true :=
  ⟨0, (W.korIn 2).wr (C10.korCfg 0) 1, by decide +kernel⟩

theorem test_hyp_BypassAndKorub_13 : ∃ (k : Fin 3) (s t u : State), s.powered .c = true ∧ s.kor k.val = korIsUp ∧ t = ((s.setFld (C10.korStat k.val) 5 0 korIsDown).bump (C10.korErr k.val) 31 16 1).raise C10.page k.val ∧ u = t.groupsLose (s.korPart k.val) none (txnInfo 1 10 0) :=
  ⟨0, W.korIn 2, _, _, by decide +kernel, by decide +kernel, rfl, rfl⟩

theorem test_hyp_BypassAndKorub_14 : ∃ (k : Fin 3) (s : State), s.powered .c = true ∧ s.kor k.val = korIsUp ∧ s.bit (C10.korCfg k.val) 0 = false :=
  ⟨0, (W.korIn 2).wr (C10.korCfg 0) 0, by decide +kernel⟩

theorem test_hyp_BypassAndKorub_15 : ∃ (k : Fin 3) (m : TimeMeas) (s t u : State), s.cRuns = true ∧ s.straps.master = false ∧ s.kor k.val = korIsUp ∧ s.korPart k.val = 0 ∧ m.locked = true ∧ t = s.wr (C10.korTimeNs k.val) (satI32 (s.measuredOffset 12 m)) ∧ u = t.measure 12 (s.measuredOffset 12 m) m.gmRank m.steps true m.arb m.utc :=
  by
  refine ⟨2, W.meas, W.subord, _, _, ?_, ?_, ?_, ?_, ?_, rfl, rfl⟩ <;> decide +kernel

theorem test_hyp_LampOutputs_1 : ∃ (r : Requester) (o : Fin 6) (w : Word) (s : State), s.direct r (E7.failsafe o.val) = true ∧ guardOk w = true ∧ levelOk o.val (bitsOf w 15 0) = true :=
  ⟨.pcie, 0, 0xFF0100FE, W.lampsOn, by decide +kernel⟩

theorem test_hyp_LampOutputs_2 : ∃ (r : Requester) (o : Fin 6) (w : Word) (s : State), s.direct r (E7.failsafe o.val) = true ∧ guardOk w = true ∧ levelOk o.val (bitsOf w 15 0) = false :=
  ⟨.pcie, 0, 0xFF0000FF, W.lampsOn, by decide +kernel⟩

theorem test_hyp_LampOutputs_3 : ∃ (o : Fin 6) (s t : State), (s.lampOut o.val).storing = true ∧ s.supplyWarn .e = false ∧ t = s.setLampOut o.val { s.lampOut o.val with storing := false, stored := s.fld (E7.failsafe o.val) 15 0 } :=
  ⟨2, W.storing, _, by decide +kernel, by decide +kernel, rfl⟩

theorem test_hyp_LampOutputs_4 : ∃ (e : Fin 16) (w : Word) (s : State), s.direct (.engine e) E7.lampKick = true :=
  ⟨0, 0, W.lampsOn, by decide +kernel⟩

theorem test_hyp_LampOutputs_5 : ∃ (r : Requester) (w : Word) (s t : State), (∀ e, r ≠ .engine e) ∧ s.direct r E7.lampKick = true ∧ guardOk w = true ∧ t = s.wr E7.lampKick (BitVec.ofNat 32 (bitsOf w 15 0)) :=
  ⟨.pcie, 0xFFFE0001, W.wdtRuns, _, by simp, by decide +kernel, by decide +kernel, rfl⟩

theorem test_hyp_LampOutputs_6 : ∃ (k : Nat) (s : State), s.lamp.kick = some k ∧ s.hostWdtCounts = true ∧ k + s.fld E7.hostWdt 11 0 * 1000000000 ≤ s.mono :=
  ⟨0, W.wdtRuns, by decide +kernel⟩

theorem test_hyp_LampOutputs_7 : ∃ (n : Fin 4) (s u : State), s.lampOn (n.val + 2) = true ∧ s.pwmNew n.val = true ∧ u = s.pwmMark n.val ∧ ((u.lampOut (n.val + 2)).change = some false ∨ (u.lampOut (n.val + 2)).change = some true ∧ u.fadeSteps (n.val + 2) = 0) :=
  ⟨0, W.pwmWaits, _, by decide +kernel, by decide +kernel, rfl, by decide +kernel⟩

theorem test_hyp_LampOutputs_8 : ∃ (n : Fin 4) (s u : State), s.lampOn (n.val + 2) = true ∧ s.pwmNew n.val = true ∧ u = s.pwmMark n.val ∧ (u.lampOut (n.val + 2)).change = some true ∧ u.fadeSteps (n.val + 2) ≠ 0 :=
  ⟨0, (W.pwmWaits.setLampOut 2 { W.pwmWaits.lampOut 2 with change := some true }).wr (E7.outCfgPwm 0) 0x400C8, _, by decide +kernel, by decide +kernel, rfl, by decide +kernel, by decide +kernel⟩

theorem test_hyp_LampOutputs_9 : ∃ (n : Fin 4) (f : Fade) (s u t : State), s.lampOn (n.val + 2) = true ∧ s.pwmNew n.val = true ∧ u = s.pwmMark n.val ∧ (u.lampOut (n.val + 2)).change = none ∧ (u.lampOut (n.val + 2)).fade = some f ∧ f.done + 1 < f.steps ∧ t = { u.wr (E7.outNow (n.val + 2)) (BitVec.ofNat 32 (u.fadeLevel { f with done := f.done + 1 })) with fresh := u.fresh + 1 } :=
  by
  refine ⟨0, { start := 0, goal := 10, steps := 2, done := 0 }, W.pwmFades, _, _, ?_, ?_, rfl, ?_, ?_, ?_, rfl⟩ <;> decide +kernel

theorem test_hyp_LampOutputs_10 : ∃ (n : Fin 4) (s : State), s.lampOn (n.val + 2) = true ∧ s.pwmNew n.val = false :=
  ⟨0, W.pwmWaits.pwmMark 0, by decide +kernel⟩

theorem test_hyp_LampOutputs_11 : ∃ (i : Fin 8) (a : PendAct) (s t : State), s.pendAct (.lamp i) = some a ∧ s.actDue a = true ∧ s.bit (slotStat (.lamp i)) 28 = false ∧ s.actWarned a = false ∧ bitOf a.desc 0 = false ∧ s.fsActive = false ∧ s.applyLevel (bitsOf a.desc 6 4) (bitsOf a.extra 15 0) = some t :=
  by
  refine ⟨0, { slot := .lamp 0, tS := 0, tNs := 0, desc := 0x20, extra := 9, began := false }, W.lampDue 0x20, _, ?_, ?_, ?_, ?_, ?_, ?_, rfl⟩ <;> decide +kernel

theorem test_hyp_LampOutputs_12 : ∃ (i : Fin 8) (a : PendAct) (s : State), s.pendAct (.lamp i) = some a ∧ s.actDue a = true ∧ s.bit (slotStat (.lamp i)) 28 = false ∧ s.actWarned a = false ∧ bitOf a.desc 0 = false ∧ s.fsActive = true :=
  ⟨0, { slot := .lamp 0, tS := 0, tNs := 0, desc := 0x20, extra := 9, began := false }, (W.lampDue 0x20).setBit E7.fsCause 0 true, by decide +kernel⟩

theorem test_hyp_LampOutputs_13 : ∃ (i : Fin 8) (a : PendAct) (o : Nat) (s t u v : State), s.pendAct (.lamp i) = some a ∧ s.actDue a = true ∧ s.bit (slotStat (.lamp i)) 28 = false ∧ s.actWarned a = false ∧ bitOf a.desc 0 = true ∧ s.fsActive = false ∧ o = bitsOf a.desc 6 4 ∧ t = s.setLampOut o { s.lampOut o with level := none, fs := false } ∧ (u = if s.lampOn o then t.setDali o { t.dali o with waiting := some (s.sceneFrame o (bitsOf a.desc 11 8), none) } else t) ∧ (v = if (s.lampOut o).fs then s.healthStep (u.showFs.raise E7.page 1) else u) :=
  by
  refine ⟨0, { slot := .lamp 0, tS := 0, tNs := 0, desc := 1, extra := 9, began := false }, 0, (W.lampDue 1).setLampOut 0 { W.lampsOn.lampOut 0 with fs := false }, _, _, _, ?_, ?_, ?_, ?_, ?_, ?_, rfl, rfl, rfl, rfl⟩ <;> decide +kernel

theorem test_hyp_LampOutputs_14 : ∃ (o v : Nat) (s : State), s.fsActive = true :=
  ⟨2, 9, W.fsState, by decide +kernel⟩

theorem test_hyp_DaliAndLogs_1 : ∃ (c : Fin 2) (delayed : Bool) (f : Nat) (v : Option Nat) (s t : State), (s.dali c.val).waiting = some (f, v) ∧ (s.dali c.val).bus = .idle ∧ s.busDown c.val = false ∧ s.lampOn c.val = true ∧ t = ((s.setDali c.val { s.dali c.val with waiting := none, bus := .level f }).wr (E7.outNow c.val) (BitVec.ofNat 32 (v.getD 0xFFFF))).emit (.dali c.val f false) ∧ (t.dali c.val).waiting = none :=
  by
  refine ⟨0, true, 0x105, some 5, W.daliWith (some (0x105, some 5)) .idle [] [], _, ?_, ?_, ?_, ?_, rfl, ?_⟩ <;> decide +kernel

theorem test_hyp_DaliAndLogs_2 : ∃ (c : Fin 2) (f : Nat) (s : State), (s.dali c.val).bus = .level f :=
  ⟨0, 0x105, W.daliWith none (.level 0x105) [] [], by decide +kernel⟩

theorem test_hyp_DaliAndLogs_3 : ∃ (c : Fin 2) (f : DaliFrame) (s : State), (s.dali c.val).bus = .queued f ∧ f.collisions + 1 < 10 :=
  ⟨0, W.fr0 false 0, W.daliWith none (.queued (W.fr0 false 0)) [] [], by decide +kernel⟩

theorem test_hyp_DaliAndLogs_4 : ∃ (c : Fin 2) (f : DaliFrame) (s : State), (s.dali c.val).bus = .queued f ∧ 10 ≤ f.collisions + 1 :=
  ⟨0, W.fr0 false 9, W.daliWith none (.queued (W.fr0 false 9)) [] [], by decide +kernel⟩

theorem test_hyp_DaliAndLogs_5 : ∃ (c : Fin 2) (ans : DaliAnswer) (f : Nat) (s : State), (s.dali c.val).bus = .level f :=
  ⟨0, .none, 0x105, W.daliWith none (.level 0x105) [] [], by decide +kernel⟩

theorem test_hyp_DaliAndLogs_6 : ∃ (c : Fin 2) (delayed : Bool) (s : State), (s.dali c.val).waiting = none :=
  ⟨0, false, W.lampsOn, by decide +kernel⟩

theorem test_hyp_DaliAndLogs_7 : ∃ (c : Fin 2) (ans : DaliAnswer) (f : DaliFrame) (s t : State), (s.dali c.val).bus = .queued f ∧ f.answer = false ∧ (t = if f.twice then s.emit (.dali c.val f.frame f.long) else s) :=
  ⟨0, .none, W.fr0 false 0, W.daliWith none (.queued (W.fr0 false 0)) [] [], _, by decide +kernel, by decide +kernel, rfl⟩

theorem test_hyp_DaliAndLogs_8 : ∃ (c : Fin 2) (b : Byte) (f : DaliFrame) (s t : State), (s.dali c.val).bus = .queued f ∧ f.answer = true ∧ (t = if f.twice then s.emit (.dali c.val f.frame f.long) else s) :=
  ⟨0, 7, W.fr0 true 0, W.daliWith none (.queued (W.fr0 true 0)) [] [], _, by decide +kernel, by decide +kernel, rfl⟩

theorem test_hyp_DaliAndLogs_9 : ∃ (r : Requester) (c : Fin 2) (w : Word) (s : State), s.direct r (E7.dqPush c.val) = true ∧ (s.dali c.val).queue.length < 32 :=
  ⟨.pcie, 0, 0x1FE, W.lampsOn, by decide +kernel⟩

theorem test_hyp_DaliAndLogs_10 : ∃ (r : Requester) (c : Fin 2) (w : Word) (s : State), s.direct r (E7.dqPush c.val) = true ∧ 32 ≤ (s.dali c.val).queue.length :=
  ⟨.pcie, 0, 0x1FE, W.daliWith none .idle (List.replicate 32 (W.fr0 false 0)) [], by decide +kernel⟩

theorem test_hyp_DaliAndLogs_11 : ∃ (r : Requester) (c : Fin 2) (w : Word) (s : State), s.direct r (E7.dqFlush c.val) = true ∧ (s.dali c.val).queue ≠ [] :=
  ⟨.pcie, 0, 0, W.daliWith none .idle [W.fr0 false 0] [], by decide +kernel⟩

theorem test_hyp_DaliAndLogs_12 : ∃ (r : Requester) (c : Fin 2) (w : Word) (s : State), s.direct r (E7.dqFlush c.val) = true ∧ (s.dali c.val).queue = [] :=
  ⟨.pcie, 0, 0, W.daliWith none .idle [] [], by decide +kernel⟩

theorem test_hyp_DaliAndLogs_13 : ∃ (r : Requester) (c : Fin 2) (w : Word) (l : List Word) (s : State), s.reachable (E7.dqRes c.val) = true ∧ (s.dali c.val).results = w :: l :=
  ⟨.pcie, 0, 7, [], W.daliWith none .idle [] [7], by decide +kernel⟩

theorem test_hyp_DaliAndLogs_14 : ∃ (r : Requester) (c : Fin 2) (s : State), s.reachable (E7.dqRes c.val) = true ∧ (s.dali c.val).results = [] :=
  ⟨.pcie, 0, W.lampsOn, by decide +kernel⟩

theorem test_hyp_DaliAndLogs_16 : ∃ (r : Requester) (w : Word) (e : EvRec) (s t : State), s.direct r C11.evtRdIdx = true ∧ t = s.wr C11.evtRdIdx (BitVec.ofNat 32 (bitsOf w 11 0)) ∧ s.logs.slot (bitsOf w 11 0) = some e :=
  ⟨.pcie, 0, W.rec0, W.logged, _, by decide +kernel, rfl, by decide +kernel⟩

theorem test_hyp_DaliAndLogs_17 : ∃ (r : Requester) (w : Word) (s : State), s.direct r C11.evtClr = true ∧ bitOf w 0 = true :=
  ⟨.pcie, 1, W.logged, by decide +kernel⟩

theorem test_hyp_DaliAndLogs_18 : ∃ (r : Requester) (w : Word) (s : State), s.direct r C11.evtClr = true ∧ bitOf w 0 = false :=
  ⟨.pcie, 0, W.logged, by decide +kernel⟩

theorem test_hyp_DaliAndLogs_19 : ∃ (w : List Word) (rest : List (List Word)) (s t : State), s.logs.intake = w :: rest ∧ s.tracing = true ∧ s.dramReady = true ∧ t = { s with logs := { s.logs with intake := rest } } :=
  ⟨[1, 2, 3, 4, 5, 6, 7, 8], [], W.traces, _, by decide +kernel, by decide +kernel, by decide +kernel, rfl⟩

theorem test_hyp_DaliAndLogs_20 : ∃ (w : List Word) (s t : State), (s.bit C11.traceCfg 1 && s.fld C11.traceHead 24 0 + 1 == s.fld C11.traceTail 24 0) = false ∧ s.fld C11.traceHead 24 0 + 1 < s.ringSize ∧ t = { s with dram := Mem.setWords s.dram (s.fld C11.traceBase 13 0 * 1048576 + s.fld C11.traceHead 24 0 * 32) w } :=
  ⟨[1, 2, 3, 4, 5, 6, 7, 8], W.traces, _, by decide +kernel, by decide +kernel, rfl⟩

theorem test_hyp_DaliAndLogs_21 : ∃ (w : List Word) (rest : List (List Word)) (s t : State), s.logs.intake = w :: rest ∧ s.tracing = true ∧ s.dramReady = false ∧ t = { s with logs := { s.logs with intake := rest } } :=
  ⟨[1, 2, 3, 4, 5, 6, 7, 8], [], W.traces.wr C7.dramStat 0, _, by decide +kernel, by decide +kernel, by decide +kernel, rfl⟩

theorem test_hyp_StepKeepsCanonical_1 : ∃ (s t : State), s.canon = true ∧ step s = .next t :=
  ⟨State.reset, _, by decide +kernel, rfl⟩

theorem test_hyp_CommandsLeaveTimeAndQueue_1 : ∃ (c : Instr) (s t : State), s.canon = true ∧ exec c s = .next t :=
  ⟨.msixEnable, State.reset, _, by decide +kernel, rfl⟩

theorem test_hyp_SerialWriteIsWrites_1 : ∃ (ws : List Word) (a : Nat) (crc : Half) (s t : State), s.spiUp = true ∧ crc16 (spiHeader 0x02 a ws.length ws) = crc.toNat ∧ a % 4 = 0 ∧ a % 0x10000 + 4 * ws.length ≤ 0x10000 ∧ a + 4 * ws.length ≤ 0x3000000 ∧ runs (ws.mapIdx (fun i (w : Word) => Instr.registerWrite .spi (a + 4 * i) w 0xF)) s t :=
  by
  refine ⟨[1], 0x4B0100, BitVec.ofNat 16 (crc16 (spiHeader 0x02 0x4B0100 1 [1])), W.on, _, ?_, ?_, ?_, ?_, ?_, _, rfl, rfl⟩ <;> decide +kernel

theorem test_hyp_DramCfgLocked_1 : ∃ (r : Requester) (w : Word) (s : State), s.direct r C7.dramCfg = true ∧ s.dm ≠ dmOff ∧ s.dm ≠ dmFailed :=
  ⟨.pcie, 0xE27, W.dramIn 2, by decide +kernel⟩

theorem test_hyp_DramCfgLocked_2 : ∃ (r : Requester) (w : Word) (s : State), s.takes r C7.dramCfg w w = true ∧ (s.dm = dmOff ∨ s.dm = dmFailed) :=
  ⟨.pcie, 0xE27, W.on, by decide +kernel⟩

theorem test_hyp_BypRequester_1 : ∃ (r : Requester) (w : Word) (s : State), isHost r = false ∧ s.reachable C9.bypOpen = true ∧ s.pathOk r C9.bypOpen = true :=
  ⟨.engine 3, 0xFFFE0001, W.on, by decide +kernel⟩

theorem test_hyp_BypRequester_2 : ∃ (r : Requester) (w : Word) (s : State), isHost r = false ∧ s.reachable C9.bypKick = true ∧ s.pathOk r C9.bypKick = true :=
  ⟨.engine 3, 0xFFA5005A, W.on, by decide +kernel⟩

theorem test_hyp_BypRequester_3 : ∃ (r : Requester) (w : Word) (s : State), isHost r = true ∧ s.direct r C9.bypOpen = true ∧ guardOk w = true ∧ bitsOf w 15 0 < 4 :=
  ⟨.spi, 0xFFFE0001, W.bypRuns, by decide +kernel⟩

theorem test_hyp_BypRequester_4 : ∃ (r : Requester) (w : Word) (s t : State), isHost r = true ∧ s.direct r C9.bypKick = true ∧ guardOk w = true ∧ (bitsOf w 15 0 = 0x5A ∨ bitsOf w 15 0 = 0xA5) ∧ s.bypDue = false ∧ (s.byp.first = true ∨ s.fld C9.bypKick 15 0 ≠ bitsOf w 15 0) ∧ t = { s.wr C9.bypKick (guardRead (bitsOf w 15 0)) with byp := { serviced := some s.mono, period := s.fld C9.bypWdt 8 0 * 1000000, first := false } } :=
  by
  refine ⟨.spi, 0xFFA5005A, W.on, _, ?_, ?_, ?_, ?_, ?_, ?_, rfl⟩ <;> decide +kernel

theorem test_hyp_FrontEndSignals_1 : ∃ (s : State) (n c : Nat), s.powered (dieN n) = false :=
  ⟨State.reset, 0, 0, by decide +kernel⟩

theorem test_hyp_FrontEndSignals_3 : ∃ (s : State) (n c : Nat), s.roleN n = .backhaul :=
  ⟨W.bhDie, 0, 0, by decide +kernel⟩

theorem test_hyp_FrontEndSignals_4 : ∃ (n c : Nat) (t : PartTx) (s : State), s.roleN n = .access ∧ s.powered (dieN n) = true ∧ (s.part? (s.leadOf n)).tx = some t ∧ (s.part? (s.leadOf n)).last = none ∧ t.muted = [] ∧ t.sends n c = true :=
  ⟨0, 3, W.partTx 0, W.partSends 0, by decide +kernel⟩

theorem test_hyp_FrontEndSignals_5 : ∃ (n c : Nat) (t : PartTx) (s : State), s.roleN n = .access ∧ s.powered (dieN n) = true ∧ (s.part? (s.leadOf n)).tx = some t ∧ (s.part? (s.leadOf n)).last = none ∧ t.muted = [] ∧ t.sends n c = true ∧ s.fePaen n c = true :=
  ⟨0, 3, W.partTx 0, W.partSends 0, by decide +kernel⟩

theorem test_hyp_FrontEndSignals_6 : ∃ (n c : Nat) (t : PartTx) (s : State), s.roleN n = .access ∧ s.powered (dieN n) = true ∧ (s.part? (s.leadOf n)).tx = some t ∧ t.sends n c = true :=
  ⟨0, 3, W.partTx 0, W.partSends 0, by decide +kernel⟩

theorem test_hyp_FrontEndSignals_7 : ∃ (n c : Nat) (t : PartTx) (s : State), s.roleN n = .access ∧ s.powered (dieN n) = true ∧ (s.part? (s.leadOf n)).tx = some t ∧ (s.part? (s.leadOf n)).last = none ∧ t.muted = [] ∧ t.sends n c = false :=
  ⟨0, 3, { W.partTx 0 with chains := [(0, 0xFFF7)] }, (W.partIn paTx).onPart 0 (fun p => { p with tx := some { W.partTx 0 with chains := [(0, 0xFFF7)] } }), by decide +kernel⟩

theorem test_hyp_FrontEndSignals_8 : ∃ (s : State) (q : Nat), s.powered .c = false :=
  ⟨State.reset, 0, by decide +kernel⟩

theorem test_hyp_FrontEndSignals_9 : ∃ (s : State) (q : Nat), s.powered .c = true :=
  ⟨W.on, 0, by decide +kernel⟩

theorem test_hyp_FrontEndSignals_10 : ∃ (s : State) (n : Nat), s.powered .e = true :=
  ⟨W.on, 0, by decide +kernel⟩

theorem test_hyp_FrontEndSignals_11 : ∃ (s : State) (n : Nat), s.bit E7.lampCfg (n + 2) = false :=
  ⟨W.on, 0, by decide +kernel⟩

theorem test_hyp_FrontEndSignals_12 : ∃ (s : State) (n f t : Nat), s.bit E7.lampCfg (n + 2) = true ∧ f = s.fld (E7.outCfgPwm n) 15 0 ∧ 0 < f ∧ f ≤ 40000 ∧ t = (List.range 64).foldl (fun a k => a + s.pwmActive n k) 0 :=
  ⟨W.pwmWaits, 0, _, _, by decide +kernel, rfl, by decide +kernel, by decide +kernel, rfl⟩

theorem test_hyp_FrontEndSignals_13 : ∃ (s : State), s.sgXpaEn = true :=
  ⟨W.sending.onSub (fun x => { x with txExt := true }), by decide +kernel⟩

end Sys2Proof.Tests
end

/-! # Register writes by any requester, and the obligations of the scope: O4, O22 and O55 -/

namespace Sys2Proof.Machine

/-! ## What REGISTER_WRITE and SPI WRITE answer (R8, R434, R440) -/

theorem exec_registerWrite (r : Requester) (a : Nat) (w : Word) (be : BitVec 4) (s : State) :
    exec (.registerWrite r a w be) s = execRegisterWrite r a w be s := rfl

theorem exec_spiWrite (a : Nat) (ws : List Word) (crc : Half) (s : State) :
    exec (.spiWrite a ws crc) s = execSpiWrite a ws crc s := rfl

/-! The rows of R113, R151, R209, R294, R312, R448 and R467 are writes of their registers. -/

theorem exec_dieRoleWrite (r : Requester) (w : Word) (s : State) :
    exec (.dieRoleWrite r w) s = .next (s.writeReg r E1.dieRole w) := rfl

theorem exec_sgChanWrite_chan0 (r : Requester) (w : Word) (s : State) :
    exec (.sgChanWrite r false w) s = .next (s.writeReg r E3.chan0Khz w) := rfl

theorem exec_sgChanWrite_sel (r : Requester) (w : Word) (s : State) :
    exec (.sgChanWrite r true w) s = .next (s.writeReg r E3.chanSel w) := rfl

theorem exec_partChanWrite (r : Requester) (d : Fin 6) (w : Word) (s : State) :
    exec (.partChanWrite r d w) s = .next (s.writeReg r (D4.partChan d.val) w) := rfl

theorem exec_linkCfgEnable (r : Requester) (l : Fin 8) (w : Word) (s : State) :
    exec (.linkCfgEnable r l w) s = .next (s.writeReg r (C17.linkCfg l.val) (putBit w 31 true)) := rfl

theorem exec_xblKeySelWrite (r : Requester) (l : Fin 8) (w : Word) (s : State) :
    exec (.xblKeySelWrite r l w) s = .next (s.writeReg r (C17.keySel l.val) w) := rfl

theorem exec_sfpI2cAccess (r : Requester) (q : Fin 2) (w : Word) (s : State) :
    exec (.sfpI2cAccess r q w) s = .next (s.writeReg r (C9.sfpI2c q.val) w) := rfl

theorem exec_levelWrite (r : Requester) (o : Fin 6) (w : Word) (s : State) :
    exec (.levelWrite r o w) s = .next (s.writeReg r (E7.level o.val) w) := rfl

/-- A whole aligned dword within BAR0 is a write of the register. -/
theorem exec_registerWrite_aligned (r : Requester) (a : Nat) (w : Word) (s : State) (ha : a < 0x4000000) (h4 : a % 4 = 0) :
    exec (.registerWrite r a w 0xF) s = .next (s.writeReg r a w) := by
  have hb : ¬ bar2 ≤ a := by unfold bar2; omega
  have hc : ¬ 0x4000000 ≤ a := by omega
  simp [exec_registerWrite, execRegisterWrite, hb, hc, h4]

/-- Within BAR0, what is not one whole aligned dword changes no register (R434). -/
theorem exec_registerWrite_partial (r : Requester) (a : Nat) (w : Word) (be : BitVec 4) (s : State) (ha : a < 0x4000000)
    (hp : a % 4 ≠ 0 ∨ (r = .pcie ∧ be ≠ 0xF)) :
    exec (.registerWrite r a w be) s = .next (s.partialWrite r a) := by
  have hb : ¬ bar2 ≤ a := by unfold bar2; omega
  have hc : ¬ 0x4000000 ≤ a := by omega
  rw [exec_registerWrite, execRegisterWrite, if_neg hb, if_neg hc, if_pos hp]

/-- An offset between BAR0 and the model's place of BAR2 is covered by no window (log 88). -/
theorem exec_registerWrite_uncovered (r : Requester) (a : Nat) (w : Word) (be : BitVec 4) (s : State) (ha : 0x4000000 ≤ a)
    (hb : a < bar2) : exec (.registerWrite r a w be) s = .fault .badOffset := by
  rw [exec_registerWrite, execRegisterWrite, if_neg (Nat.not_le.mpr hb), if_pos ha]

/-! ## A direct write of a block register (R8, R39) -/

section Registers

variable (s : State)

/-- What `direct` says: the register is reached, and the requester holds no tag on its page. -/
theorem State.direct_iff (r : Requester) (a : Nat) :
    s.direct r a = true ↔ s.reachable a = true ∧ s.pathOk r a = true ∧ s.tagOf r (pageOf a) = 0 := by
  simp [State.direct, and_assoc]

/-- Registers stand below the cascade window and the reserved offsets (R37, R38). -/
theorem State.spec_some_lt {a : Nat} {g : RegSpec} (h : s.spec a = some g) : a < 0x2400000 := by
  refine Nat.lt_of_not_le fun hq => ?_
  simp only [State.spec, if_pos hq, reduceCtorEq] at h

/-- A register that takes a word is one of the map. -/
theorem State.takes_lt {r : Requester} {a : Nat} {w x : Word} (h : s.takes r a w x = true) : a < 0x2400000 := by
  cases hg : s.spec a with
  | none => simp [State.takes, hg] at h
  | some g => exact s.spec_some_lt hg

/-- With no tag on its page, a write makes no record of a write outside its group. -/
theorem State.nonTrans_untagged (r : Requester) (a : Nat) (ht : s.tagOf r (pageOf a) = 0) : s.nonTrans r a = s := by
  simp [State.nonTrans, ht]

/-- A direct write at a block register that is no command register and no member die's goes by the register's access code. -/
theorem State.writeReg_direct (r : Requester) (a : Nat) (w : Word) (g : RegSpec) (ho : 0x100 ≤ a % 0x10000)
    (hd : s.direct r a = true) (hg : s.spec a = some g) (hc : s.commandAt a = none) (hm : s.memberPage a = none) :
    s.writeReg r a w = s.directWrite r a g w := by
  obtain ⟨hr, hp, ht⟩ := (s.direct_iff r a).mp hd
  have hlt := s.spec_some_lt hg
  have hres : ¬ 0x2400000 ≤ a := by omega
  have hcasc : ¬ 0x3000000 ≤ a := by omega
  have htag : a % 0x10000 ≠ 0x40 := by omega
  have hhead : ¬ a % 0x10000 < 0x100 := by omega
  simp [State.writeReg, State.pageWrite, State.blockWrite, hcasc, hres, hr, hp, htag, hg, hhead, hc, hm, ht,
    s.nonTrans_untagged r a ht]

/-! ## What a register does with a legal word -/

/-- A register with no effect of its own only holds its word. -/
theorem State.store_unhooked (a : Nat) (x : Word) (h : hookedAt a = false) : s.store a x = s.wr a x := by
  have hn := Option.isSome_eq_false_iff.mp h
  rw [Option.isNone_iff_eq_none] at hn
  simp only [State.store, hn]

/-- The hook of a register is the first one of whose array the register is an element. -/
theorem hookFor_eq (l : List Hook) (a k i : Nat) (h : Hook) (hk : l[k]? = some h)
    (hpre : (l.take k).all (fun x => (elemOf x.base x.stride x.count a).isNone) = true)
    (hi : elemOf h.base h.stride h.count a = some i) : hookFor l a = some (fun r w s => h.act r i w s) := by
  induction k generalizing l with
  | zero =>
    cases l with
    | nil => simp only [List.getElem?_nil, reduceCtorEq] at hk
    | cons y l =>
      obtain rfl : y = h := Option.some.inj hk
      simp only [hookFor, List.findSome?_cons, hi, Option.map_some]
  | succ k ih =>
    cases l with
    | nil => simp only [List.getElem?_nil, reduceCtorEq] at hk
    | cons y l =>
      rw [List.take_succ_cons, List.all_cons, Bool.and_eq_true, Option.isNone_iff_eq_none] at hpre
      obtain ⟨hy, hrest⟩ := hpre
      simp only [hookFor, List.findSome?_cons, hy, Option.map_none]
      exact ih l hk hrest

theorem State.store_dieC (a : Nat) (x : Word) (hw : winOf a = 1) {f : Requester → Word → State → State}
    (hf : hookFor effectsC a = some f) : s.store a x = f .casc x s := by
  simp only [State.store, hw, if_true, hf]

theorem State.store_dieE (a : Nat) (x : Word) (hw : winOf a = 2) {f : Requester → Word → State → State}
    (hf : hookFor effectsE a = some f) : s.store a x = f .casc x s := by
  have hC : ¬ (2 : Nat) = 1 := by decide
  simp only [State.store, hw, if_neg hC, if_true, hf]

theorem State.store_radioDie (a : Nat) (x : Word) (d : Fin 6) (hw : winOf a = d.val + 3) {f : Requester → Word → State → State}
    (hf : hookFor (effectsD d.val) a = some f) : s.store a x = f .casc x s := by
  have hC : ¬ d.val + 3 = 1 := by omega
  have hE : ¬ d.val + 3 = 2 := by omega
  have hD : 3 ≤ d.val + 3 ∧ d.val + 3 ≤ 8 := by omega
  simp only [State.store, hw, if_neg hC, if_neg hE, if_pos hD, Nat.add_sub_cancel, hf]

/-- Of die C's registers, mailbox data and the gated registers alone have a rule before their store. -/
theorem State.directStore_dieC (r : Requester) (a : Nat) (x : Word) (hw : winOf a = 1) (hm : mbWord a = none)
    (hg : (hookFor gatesC a).isNone = true) : s.directStore r a x = s.store a x := by
  rw [Option.isNone_iff_eq_none] at hg
  simp only [State.directStore, hw, if_true, hm, hg]

/-- A gated register of die C does what its gate says. -/
theorem State.directStore_gated (r : Requester) (a : Nat) (x : Word) (hw : winOf a = 1) (hm : mbWord a = none)
    {f : Requester → Word → State → State} (hf : hookFor gatesC a = some f) : s.directStore r a x = f r x s := by
  simp only [State.directStore, hw, if_true, hm, hf]

/-- No register of a radio die has a rule before its store. -/
theorem State.directStore_radioDie (r : Requester) (a : Nat) (x : Word) (d : Fin 6) (hw : winOf a = d.val + 3) :
    s.directStore r a x = s.store a x := by
  have hC : ¬ d.val + 3 = 1 := by omega
  have hE : ¬ d.val + 3 = 2 := by omega
  simp only [State.directStore, hw, if_neg hC, if_neg hE]

/-- Of die E's registers, the context inputs and the sub-GHz action slots alone have a rule before their store. -/
theorem State.directStore_dieE (r : Requester) (a : Nat) (x : Word) (hw : winOf a = 2) (hc : ctxInWord a = none)
    (ha : a < E3.actS 0 ∨ E3.actS 8 ≤ a) : s.directStore r a x = s.store a x := by
  have hslot : ¬ (E3.actS 0 ≤ a ∧ a < E3.actS 8) := by omega
  simp [State.directStore, hw, hc, hslot]

theorem State.directStore_dieRole (r : Requester) (x : Word) : s.directStore r E1.dieRole x = s.wr E1.dieRole x := rfl

theorem State.directStore_chan0Khz (r : Requester) (x : Word) :
    s.directStore r E3.chan0Khz x = (s.wr E3.chan0Khz x).sgRetuneChan := rfl

theorem State.directStore_chanSel (r : Requester) (x : Word) :
    s.directStore r E3.chanSel x = (s.wr E3.chanSel x).sgRetuneChan := rfl

theorem State.directStore_partChan (r : Requester) (d : Fin 6) (x : Word) :
    s.directStore r (D4.partChan d.val) x = s.setPartChan d.val x := by
  have hw : winOf (D4.partChan d.val) = d.val + 3 := by decide +revert
  have hf := hookFor_eq (effectsD d.val) (D4.partChan d.val) 0 0 _ rfl rfl (by decide +revert)
  rw [s.directStore_radioDie r _ x d hw, s.store_radioDie _ x d hw hf]

theorem State.directStore_linkCfg (r : Requester) (l : Fin 8) (x : Word) :
    s.directStore r (C17.linkCfg l.val) x = s.setLinkCfg l.val x := by
  have hw : winOf (C17.linkCfg l.val) = 1 := by decide +revert
  have hm : mbWord (C17.linkCfg l.val) = none := by decide +revert
  have hg : (hookFor gatesC (C17.linkCfg l.val)).isNone = true := by decide +revert
  have hf := hookFor_eq effectsC (C17.linkCfg l.val) 11 l.val _ rfl (by decide +revert) (by decide +revert)
  rw [s.directStore_dieC r _ x hw hm hg, s.store_dieC _ x hw hf]

theorem State.directStore_keySel (r : Requester) (l : Fin 8) (x : Word) :
    s.directStore r (C17.keySel l.val) x = s.setKeySel l.val (bitsOf x 15 0) := by
  have hw : winOf (C17.keySel l.val) = 1 := by decide +revert
  have hm : mbWord (C17.keySel l.val) = none := by decide +revert
  have hg : (hookFor gatesC (C17.keySel l.val)).isNone = true := by decide +revert
  have hf := hookFor_eq effectsC (C17.keySel l.val) 12 l.val _ rfl (by decide +revert) (by decide +revert)
  rw [s.directStore_dieC r _ x hw hm hg, s.store_dieC _ x hw hf]

theorem State.directStore_sfpI2c (r : Requester) (q : Fin 2) (x : Word) :
    s.directStore r (C9.sfpI2c q.val) x = (s.wr (C9.sfpI2c q.val) x).sfpStart q.val := by
  have hw : winOf (C9.sfpI2c q.val) = 1 := by decide +revert
  have hm : mbWord (C9.sfpI2c q.val) = none := by decide +revert
  have hf := hookFor_eq gatesC (C9.sfpI2c q.val) 2 q.val _ rfl (by decide +revert) (by decide +revert)
  rw [s.directStore_gated r _ x hw hm hf]

theorem State.directStore_level (r : Requester) (o : Fin 6) (x : Word) :
    s.directStore r (E7.level o.val) x = s.levelOrDiscard o.val (bitsOf x 15 0) := by
  have hw : winOf (E7.level o.val) = 2 := by decide +revert
  have hc : ctxInWord (E7.level o.val) = none := by decide +revert
  have ha : E7.level o.val < E3.actS 0 ∨ E3.actS 8 ≤ E7.level o.val := by decide +revert
  have hf := hookFor_eq effectsE (E7.level o.val) 7 o.val _ rfl (by decide +revert) (by decide +revert)
  rw [s.directStore_dieE r _ x hw hc ha, s.store_dieE _ x hw hf]

/-! DIE_ROLE is none of the rows' other registers. -/

theorem partChan_ne_dieRole (d : Fin 6) : D4.partChan d.val ≠ E1.dieRole := by decide +revert
theorem linkCfg_ne_dieRole (l : Fin 8) : C17.linkCfg l.val ≠ E1.dieRole := by decide +revert
theorem keySel_ne_dieRole (l : Fin 8) : C17.keySel l.val ≠ E1.dieRole := by decide +revert
theorem sfpI2c_ne_dieRole (q : Fin 2) : C9.sfpI2c q.val ≠ E1.dieRole := by decide +revert
theorem level_ne_dieRole (o : Fin 6) : E7.level o.val ≠ E1.dieRole := by decide +revert

/-- A register other than DIE_ROLE that takes a word does with it what its store does. -/
theorem State.writeReg_takes_store (r : Requester) (a : Nat) (w x : Word) (h : s.takes r a w x = true) (ha : a ≠ E1.dieRole) :
    s.writeReg r a w = s.directStore r a x := by
  rw [s.writeReg_takes r a w x h, if_neg ha]

end Registers

/-! ## The words of an SPI WRITE (R440) -/

/-- Words written one after another at ascending offsets below the cascade window, each as a REGISTER_WRITE of the SPI requester,
leave what the port's own writes leave. -/
theorem runs_registerWrites_eq_spiWrites (ws : List Word) (a : Nat) (s t : State) (h4 : a % 4 = 0)
    (hw : a + 4 * ws.length ≤ 0x3000000)
    (h : runs (ws.mapIdx (fun i (w : Word) => Instr.registerWrite .spi (a + 4 * i) w 0xF)) s t) : s.spiWrites a ws = t := by
  induction ws generalizing a s with
  | nil => exact h
  | cons w ws ih =>
    rw [List.length_cons] at hw
    rw [List.mapIdx_cons] at h
    obtain ⟨u, hu, hrest⟩ := h
    rw [exec_registerWrite_aligned .spi _ w s (by omega) (by omega)] at hu
    obtain rfl : s.writeReg .spi a w = u := Host.Outcome.next.inj hu
    have hshift : ∀ i, a + 4 * (i + 1) = a + 4 + 4 * i := fun i => by omega
    simp only [hshift] at hrest
    have hin : ¬ 0x4000000 ≤ a := by omega
    rw [State.spiWrites, if_neg hin]
    exact ih (a + 4) _ (by omega) (by omega) hrest

/-- A WRITE whose CRC is right and whose words are aligned and stay in one page has status OK. -/
theorem spiStatus_ok (bytes : List Byte) (crc : Half) (a n : Nat) (hc : crc16 bytes = crc.toNat) (h4 : a % 4 = 0)
    (hp : a % 0x10000 + 4 * n ≤ 0x10000) : spiStatus true bytes crc a n = 0 := by
  have hpage : ¬ 0x10000 < a % 0x10000 + 4 * n := by omega
  simp [spiStatus, hc, h4, hpage]

/-- A WRITE with status OK writes its words. -/
theorem exec_spiWrite_ok (a : Nat) (ws : List Word) (crc : Half) (s : State) (hu : s.spiUp = true)
    (hs : spiStatus true (spiHeader 0x02 a ws.length ws) crc a ws.length = 0) :
    exec (.spiWrite a ws crc) s = .next ((s.spiWrites a ws).spiEnd 0 []) := by
  simp only [exec_spiWrite, execSpiWrite, hu, hs, Bool.not_true, Bool.false_eq_true, if_false, if_true]

/-! ## The obligations -/

/-- Settles O55: the words' REGISTER_WRITEs and the port's own writes leave the same state, by induction on the words. -/
theorem serialWriteIsWrites : Obligations.SerialWriteIsWrites := by
  intro ws a crc s t hup hcrc h4 hpage hwin hruns
  rw [exec_spiWrite_ok a ws crc s hup (spiStatus_ok _ crc a _ hcrc h4 hpage),
    runs_registerWrites_eq_spiWrites ws a s t h4 hwin hruns]

/-- Settles O4: the access code decides a direct write of a block register; outside whole aligned dwords no register is reached. -/
theorem accessCodes : Obligations.AccessCodes := by
  refine ⟨?readOnly, ?writeOneClears, ?partialPcie, ?unaligned, ?uncovered⟩
  case readOnly =>
    intro r a w g s h4 ho hd hg hc hm hacc
    have hlt := s.spec_some_lt hg
    rw [exec_registerWrite_aligned r a w s (by omega) h4, s.writeReg_direct r a w g ho hd hg hc hm]
    rcases hacc with h | h <;> simp [State.directWrite, h]
  case writeOneClears =>
    intro r a w g s h4 ho hd hg hc hm hacc
    have hlt := s.spec_some_lt hg
    rw [exec_registerWrite_aligned r a w s (by omega) h4, s.writeReg_direct r a w g ho hd hg hc hm]
    simp [State.directWrite, hacc, State.clearBits]
  case partialPcie =>
    intro a w be s ha hp hpow
    rw [exec_registerWrite_partial .pcie a w be s ha (hp.imp_right fun h => ⟨rfl, h⟩)]
    simp [State.partialWrite, hpow, State.hpPartial]
  case unaligned =>
    intro r a w be s ha h4 hr
    rw [exec_registerWrite_partial r a w be s ha (.inl h4)]
    simp [State.partialWrite, hr]
  case uncovered => exact exec_registerWrite_uncovered

/-- Settles O22: each row's command is a write of its register, which takes the legal word and acts by its own rule. -/
theorem registerRows : Obligations.RegisterRows := by
  refine ⟨?plain, ?dieRole, ?chan0Khz, ?chanSel, ?partChan, ?linkCfg, ?keySel, ?sfpI2c, ?level⟩
  case plain =>
    intro r a w x s h h4 hw ha hc hslot hook
    have hlt := s.takes_lt h
    rw [exec_registerWrite_aligned r a w s (by omega) h4, s.writeReg_takes_store r a w x h ha,
      s.directStore_dieE r a x hw hc hslot, s.store_unhooked a x hook]
  case dieRole =>
    intro r w x s h
    rw [exec_dieRoleWrite, s.writeReg_takes r E1.dieRole w x h, if_pos rfl, s.directStore_dieRole]
  case chan0Khz =>
    intro r w x s h
    rw [exec_sgChanWrite_chan0, s.writeReg_takes_store r _ w x h (by decide), s.directStore_chan0Khz]
  case chanSel =>
    intro r w x s h
    rw [exec_sgChanWrite_sel, s.writeReg_takes_store r _ w x h (by decide), s.directStore_chanSel]
  case partChan =>
    intro r d w x s h
    rw [exec_partChanWrite, s.writeReg_takes_store r _ w x h (partChan_ne_dieRole d), s.directStore_partChan]
  case linkCfg =>
    intro r l w x s h
    rw [exec_linkCfgEnable, s.writeReg_takes_store r _ _ x h (linkCfg_ne_dieRole l), s.directStore_linkCfg]
  case keySel =>
    intro r l w x s h
    rw [exec_xblKeySelWrite, s.writeReg_takes_store r _ w x h (keySel_ne_dieRole l), s.directStore_keySel]
  case sfpI2c =>
    intro r q w x s h
    rw [exec_sfpI2cAccess, s.writeReg_takes_store r _ w x h (sfpI2c_ne_dieRole q), s.directStore_sfpI2c]
  case level =>
    intro r o w x s h
    rw [exec_levelWrite, s.writeReg_takes_store r _ w x h (level_ne_dieRole o), s.directStore_level]

end Sys2Proof.Machine

/-! # The passage of time on an empty queue: O2 -/

namespace Sys2Proof.Machine

section Idle
variable (s : State)

/-- A pause of a power transition changes the record of the transition and, at most, sets the pause bit of PWR_STATE (R114). -/
theorem State.pauseNow_cases : ∃ p r, s.pauseNow = { s with power := p, regs := r } ∧ p.role = s.power.role ∧
    (r = s.regs ∨ r = (s.setBit GLB.pwrState 9 true).regs) := by
  unfold State.pauseNow
  split
  · split
    · dsimp only [State.setBit, State.wr]
      exact ⟨_, _, rfl, rfl, .inr rfl⟩
    · exact ⟨_, _, rfl, rfl, .inl rfl⟩
  · exact ⟨_, _, rfl, rfl, .inl rfl⟩

/-- Where a supply ramp ends the transition may pause; elsewhere nothing happens (R114). -/
theorem State.rampEnd_cases : ∃ p r, s.rampEnd = { s with power := p, regs := r } ∧ p.role = s.power.role ∧
    (r = s.regs ∨ r = (s.setBit GLB.pwrState 9 true).regs ∧ ∃ x, s.power.trans = some x ∧ x.ramp = some s.mono) := by
  unfold State.rampEnd
  cases hx : s.power.trans with
  | none => exact ⟨_, _, rfl, rfl, .inl rfl⟩
  | some x =>
    dsimp only
    split
    case isTrue h =>
      obtain ⟨p, r, he, hp, hr⟩ := (s.onTrans (fun x => { x with ramp := none })).pauseNow_cases
      exact ⟨p, r, he, hp, hr.imp_right fun hr => ⟨hr, x, rfl, h⟩⟩
    case isFalse => exact ⟨_, _, rfl, rfl, .inl rfl⟩

/-- What a nanosecond changes: elapsed time, local time, and what the end of a supply ramp does (R18, R77, R114). -/
theorem State.tick_cases : ∃ c p r, s.tick = { s with mono := s.mono + 1, time := c, power := p, regs := r } ∧
    p.role = s.power.role ∧
    (r = s.regs ∨ r = (s.setBit GLB.pwrState 9 true).regs ∧ ∃ x, s.power.trans = some x ∧ x.ramp = some (s.mono + 1)) := by
  unfold State.tick
  dsimp only
  split
  case isTrue => exact ⟨_, _, _, rfl, rfl, .inl rfl⟩
  case isFalse =>
    obtain ⟨p, r, he, hp, hr⟩ := ({ s with mono := s.mono + 1 } : State).advance.rampEnd_cases
    exact ⟨_, p, r, he, hp, hr⟩

/-- A nanosecond leaves every register, but where a supply ramp ends the pause bit of PWR_STATE may be set (R114). -/
theorem State.tick_rd : (∀ a, s.tick.rd a = s.rd a) ∨
    (∀ a, s.tick.rd a = (s.setBit GLB.pwrState 9 true).rd a) ∧ ∃ x, s.power.trans = some x ∧ x.ramp = some (s.mono + 1) := by
  obtain ⟨c, p, r, he, hp, hr⟩ := s.tick_cases
  rw [he]
  exact hr.imp (fun h a => s.rd_congr _ a h hp) (And.imp_left fun h a => (s.setBit GLB.pwrState 9 true).rd_congr _ a h hp)

theorem step_idle (h : s.pending = []) : step s = .next s.tick := by
  simp only [step, h]

end Idle

/-- Settles O2: an idle step is a tick, which can only set the pause bit, and that where a ramp ends. -/
theorem idleStepPassesTime : Obligations.IdleStepPassesTime := by
  intro s hq
  obtain ⟨c, p, r, he, -, -⟩ := s.tick_cases
  refine ⟨s.tick, step_idle s hq, by rw [he], ?others, ?bits, ?noRamp, ?frame⟩
  case others =>
    intro a ha
    rcases s.tick_rd with hr | ⟨hr, -⟩
    · exact hr a
    · rw [hr a, State.rd_setBit, if_neg ha]
  case bits =>
    intro n hn h9
    unfold State.bit
    rcases s.tick_rd with hr | ⟨hr, -⟩
    · rw [hr]
    · rw [hr, State.rd_setBit, if_pos rfl, bitOf_putBit_other _ _ _ _ (by decide) h9]
  case noRamp =>
    intro hno
    rcases s.tick_rd with hr | ⟨-, x, hx, hramp⟩
    · exact hr _
    · exact absurd hramp (hno x hx)
  case frame =>
    rw [he]
    exact ⟨rfl, rfl, rfl, rfl, rfl, rfl, rfl, hq⟩

end Sys2Proof.Machine

/-! # Staging, PREP and ARMED: O11 -/

namespace Sys2Proof.Machine

section Staging

variable (s : State)

/-- A write under a tag of a transactional register, no command register and no member die's, is staged (R54, R57). -/
theorem State.writeReg_tagged (r : Requester) (a : Nat) (w : Word) (g : RegSpec) (ho : 0x100 ≤ a % 0x10000) (ha : a < 0x2400000)
    (hr : s.reachable a = true) (hp : s.pathOk r a = true) (hg : s.spec a = some g) (hc : s.commandAt a = none)
    (hm : s.memberPage a = none) (ht : s.tagOf r (pageOf a) ≠ 0) (htr : g.trans = true) :
    s.writeReg r a w = s.stageWrite r a g w := by
  have hres : ¬ 0x2400000 ≤ a := by omega
  have hcasc : ¬ 0x3000000 ≤ a := by omega
  have htag : a % 0x10000 ≠ 0x40 := by omega
  have hhead : ¬ a % 0x10000 < 0x100 := by omega
  simp [State.writeReg, State.pageWrite, State.blockWrite, hcasc, hres, hr, hp, htag, hg, hhead, hc, hm, ht, htr]

/-- At the master, a value that its check leaves with no clamp joins the OPEN group that the tag names (R57). -/
theorem State.stageWrite_value (r : Requester) (a : Nat) (g : RegSpec) (w x : Word) (n : Fin 16) (hm : s.isMaster = true)
    (hn : s.tagGroup (s.tagOf r (pageOf a)) = some n) (ho : (s.group n).state = .opened)
    (hx : s.stageCheck (s.groupView n) a g w = .value x []) :
    s.stageWrite r a g w = s.stageValue n a x false := by
  simp [State.stageWrite, hm, hn, ho, hx, State.stageRecords]

theorem exec_stagedWrite_aligned (r : Requester) (a : Nat) (w : Word) (ha : a < 0x4000000) (h4 : a % 4 = 0) :
    exec (.stagedWrite r a w) s = .next (s.writeReg r a w) := by
  have hin : ¬ 0x4000000 ≤ a := by omega
  change execStagedWrite r a w s = _
  rw [execStagedWrite, if_neg hin, if_pos h4]

/-- A staged value stands its check at PREP: its register's ranges leave it as it is (R46, R57). -/
def State.prepOk (s : State) (n : Fin 16) (w : StagedWrite) : Bool :=
  match s.spec w.addr with
  | some g => (clampsOf (s.fieldsOf w.addr g) w.value (s.legalise (s.groupView n) w.addr (s.fieldsOf w.addr g) w.value) true).isEmpty
  | none => true

theorem State.prepWrite_ok (n : Fin 16) (w : StagedWrite) (h : s.prepOk n w = true) : s.prepWrite n w = s := by
  unfold State.prepOk at h
  unfold State.prepWrite
  cases hg : s.spec w.addr with
  | none => simp
  | some g =>
    simp only [hg, List.isEmpty_iff] at h
    simp [h]

/-- Values that all stand their checks leave no finding. -/
theorem State.foldl_prepValue_ok (n : Fin 16) (ws : List StagedWrite) (h : ws.all (s.prepOk n) = true) :
    ws.foldl (fun (u : State) w => u.prepValue n none w) s = s := by
  induction ws with
  | nil => rfl
  | cons w ws ih =>
    rw [List.all_cons, Bool.and_eq_true] at h
    obtain ⟨hw, hws⟩ := h
    have hv : s.prepValue n none w = s := by simp [State.prepValue, s.prepWrite_ok n w hw]
    rw [List.foldl_cons, hv]
    exact ih hws

/-- A die other than die C whose share stands its checks is among those that hold their share in shadows (R29, R57). -/
theorem State.prepDie_ok (n : Fin 16) (d : Die) (hd : d ≠ .c) (hs : (s.group n).state = .committed)
    (hh : (s.group n).has 0 d = true) (hp : s.powered d = true) (hn : (s.group n).shadowed.contains d = false)
    (h : ((s.group n).share d).all (s.prepOk n) = true) :
    s.prepDie n d none = s.setGroup n { s.group n with shadowed := (s.group n).shadowed ++ [d] } := by
  have hc : (s.group n).state.committing = true := by rw [hs]; rfl
  unfold State.prepDie
  simp only [s.foldl_prepValue_ok n _ h, hc, hh, hp, hn, hd, Bool.not_true, Bool.or_false, Bool.false_eq_true, if_false, if_true]

end Staging

/-- Settles O11: a checked value joins the group, PREP by induction on the share's writes, and the last ARMED by the state it finds. -/
theorem groupStaging : Obligations.GroupStaging := by
  refine ⟨?staged, ?prep, ?armed⟩
  case staged =>
    intro r a w x g n s h4 ho ha hr hp hg hc hm ht htr hmas hn hopen hx
    rw [exec_stagedWrite_aligned s r a w (by omega) h4, s.writeReg_tagged r a w g ho ha hr hp hg hc hm ht htr,
      s.stageWrite_value r a g w x n hmas hn hopen hx]
  case prep =>
    intro n d share s hrun hmas hd hs hh hp hn h
    change execPrep n d none share s = _
    simp [execPrep, hrun, hmas, s.prepDie_ok n d hd hs hh hp hn h]
  case armed =>
    intro n p d s hrun hs hh hsh hby hall
    have hsh' : (p.val == 0 && !(s.group n).shadowed.contains d) = false := by
      rcases hsh with h | h
      · have hp0 : (p.val == 0) = false := beq_false_of_ne fun h0 => h (Fin.ext h0)
        simp only [hp0, Bool.false_and]
      · simp only [h, Bool.not_true, Bool.and_false]
    change execArmed n p d s = _
    simp only [execArmed, hrun, hs, hh, hsh', hby, hall, ne_eq, not_true_eq_false, Bool.not_true, decide_false, Bool.or_false,
      Bool.false_eq_true, if_false, if_true]

end Sys2Proof.Machine

/-! # The vote, the close and the application of a group: O12 -/

namespace Sys2Proof.Machine

section Vote
variable (s : State)

theorem State.group_setGroup (n : Fin 16) (g : Group) (h : s.txu.groups.length = 16) : (s.setGroup n g).group n = g := by
  have hn : n.val < s.txu.groups.length := by omega
  simp [State.group, State.setGroup, List.getD_eq_getElem?_getD, hn]

@[simp] theorem State.emit_group (n : Fin 16) (o : Out) : (s.emit o).group n = s.group n := rfl

/-- A group that a vote makes GO (R29). -/
def Group.going (g : Group) (locked : Bool) : Group := { g with state := .go, unlocked := g.unlocked || !locked, closed := false }

/-- A vote that finds nothing against the group makes it GO (R29). -/
theorem State.voteGroup_go (n : Fin 16) (remote : List RemoteVote)
    (h : chosen (s.localFindings (s.group n) ++ remoteFindings (s.group n) remote) = none) :
    s.voteGroup n remote = (s.setGroup n ((s.group n).going s.locked)).emit (.commit 3 n.val) := by
  simp only [State.voteGroup, h, Group.going]

/-- A group that waited for supply as it is voted again: ARMED for a new T, LATE and SUPPLY set (R32). -/
def Group.revoted (g : Group) (t : Nat) : Group :=
  { g with state := .armed, tS := sec32 t, tNs := nsOf t, shift := 0, late := true, supply := true, reason := 0, info := 0 }

/-! The findings of a vote turn on what a group stages and on who is armed, not on its T or its status. -/

theorem State.localFindings_revoted (n : Fin 16) (g : Group) (t : Nat) :
    (s.setGroup n (g.revoted t)).localFindings (g.revoted t) = s.localFindings g := rfl

theorem remoteFindings_revoted (g : Group) (t : Nat) (remote : List RemoteVote) :
    remoteFindings (g.revoted t) remote = remoteFindings g remote := rfl

/-- A group that is voted again and has no finding is in GO for its new T (R32, R62). -/
theorem State.voteGroup_revoted (n : Fin 16) (g : Group) (t : Nat) (hl : s.txu.groups.length = 16)
    (h : chosen (s.localFindings g ++ remoteFindings g []) = none) :
    (s.setGroup n (g.revoted t)).voteGroup n [] =
      ((s.setGroup n (g.revoted t)).setGroup n ((g.revoted t).going s.locked)).emit (.commit 3 n.val) := by
  have hg := s.group_setGroup n (g.revoted t) hl
  rw [State.voteGroup_go _ n [] (by rw [hg, s.localFindings_revoted, remoteFindings_revoted, h]), hg]
  rfl

/-- With no die of the group in warning, the wait ends in a vote for T 50 µs later (R32, R62). -/
theorem exec_waitSupplyRecovery_revotes (n : Fin 16) (hrun : s.txuRuns = true) (hs : (s.group n).state = .waitSupply)
    (hw : (allDies.any fun d => (s.group n).has 0 d && s.supplyWarn d) = false) :
    exec (.waitSupplyRecovery n) s = .next ((s.setGroup n ((s.group n).revoted (s.now .c + 50000))).voteGroup n []) := by
  change execWaitSupplyRecovery n s = _
  simp [execWaitSupplyRecovery, hrun, hs, hw, Group.revoted]

end Vote

/-- Settles O12: each arm of the vote, CANCEL, the close and the application by its guards; a group that waited is voted again. -/
theorem groupVote : Obligations.GroupVote := by
  refine ⟨?vote, ?cancel, ?close, ?apply, ?recovery⟩
  case vote =>
    intro n go remote s hrun hm hs hdue hnone
    have hc : (s.group n).state.committing = true := by rw [hs]; rfl
    change execVote n go remote s = _
    simp only [execVote, hrun, hm, hc, hdue, Bool.not_true, Bool.or_false, Bool.false_eq_true, if_false, if_true]
    exact congrArg _ ((s.emit (.commit 2 n.val)).voteGroup_go n remote hnone)
  case cancel =>
    intro n p d reason s hrun hm hs hopen hh hr
    change execCancel n p d reason s = _
    simp [execCancel, hrun, hm, hs, hopen, hh, hr]
  case close =>
    intro n s hrun hs hc hdue hl
    have hnear : ¬ 2000 < s.groupDiff (s.group n) := Int.not_lt.mpr hdue
    change execCommitClose n s = _
    simp only [execCommitClose, hrun, hs, hc, hnear, hl, ne_eq, not_true_eq_false, decide_false, Bool.not_true, Bool.or_false,
      Bool.false_eq_true, if_false]
  case apply =>
    intro n s hk hrun hm hs hdue hfirst
    change execGroupApply n s = _
    simp [execGroupApply, hk, hrun, hs, hdue, hfirst, State.completeGroup, hm]
  case recovery =>
    intro n s hrun hs hw hnone hl
    have hg := (s.setGroup n ((s.group n).revoted (s.now .c + 50000))).group_setGroup n
      (((s.group n).revoted (s.now .c + 50000)).going s.locked) (by simpa [State.setGroup] using hl)
    refine ⟨_, exec_waitSupplyRecovery_revotes s n hrun hs hw, ?_⟩
    rw [s.voteGroup_revoted n _ _ hl hnone]
    simp only [State.emit_group, hg]
    exact ⟨rfl, rfl, rfl, rfl, rfl, rfl⟩

end Sys2Proof.Machine

/-! # Time keeping: O14 -/

namespace Sys2Proof.Machine

section Time
variable (s : State)

/-- A direct TIME_SNAP with bit 0 set places local time and its fraction in the SNAP registers (R101, R509). -/
theorem State.timeSnap_direct (r : Requester) (k : Bool) (w : Word) (h : s.direct r (keeperPage k + 0x100) = true) :
    s.timeSnap r k w =
      if bitOf w 0 then s.wrArr (keeperPage k + 0x104) (ntime (s.now (if k then .c else .e)) s.time.epoch s.frac) else s := by
  rw [State.timeSnap, s.cmdWrite_direct r _ _ h]
  rfl

/-- While die E keeps time alone, its source is 11 and its quality is judged (R88). -/
theorem State.rtcJudge_alone (h : s.cTime = false) : s.rtcJudge = (s.setFld E8.timeQual 11 8 11).setQual false s.rtcQuality := by
  simp [State.rtcJudge, h]

end Time

/-- Settles O14: each row's effect where its guards hold, and no change before the instant of a step. -/
theorem timeKeeping : Obligations.TimeKeeping := by
  refine ⟨?snap, ?snapE, ?correction, ?instant, ?early, ?quality⟩
  case snap =>
    intro r w s h
    exact congrArg Host.Outcome.next (s.timeSnap_direct r true w h)
  case snapE =>
    intro r w s h
    exact congrArg Host.Outcome.next (s.timeSnap_direct r false w h)
  case correction =>
    intro d s hc hp
    change execDieTimeCorrection d s = _
    simp only [execDieTimeCorrection, hc, hp, Bool.and_self, if_true, State.correctDie]
  case instant =>
    intro m s hm hdue
    have hnow : ¬ s.now (if s.cTime then .c else .e) < m.instant := by omega
    change execStepInstant s = _
    simp only [execStepInstant, hm, hnow, if_false]
  case early =>
    intro m s hm hnow
    change execStepInstant s = _
    simp only [execStepInstant, hm, hnow, if_true]
  case quality =>
    intro s h
    exact congrArg Host.Outcome.next (s.rtcJudge_alone h)

end Sys2Proof.Machine

/-! # Action slots and the Flue: O16 -/

namespace Sys2Proof.Machine

section Slots
variable (s : State)

/-- Bit 2 of a word, read in its low half. -/
theorem bitOf_two (w : Word) : bitOf w 2 = (bitsOf w 15 0 / 4 % 2 == 1) := by
  have h : w.toNat / 4 % 2 = w.toNat % 65536 / 4 % 2 := by omega
  simp [bitOf, bitsOf, h]

/-- An accepted word of ACT_ARM stands in the register and arms or disarms the slot, by its bit 2 (R96). -/
theorem State.armWrite_direct (r : Requester) (x : ActSlot) (w : Word) (h : s.direct r (slotArm x) = true) (hg : guardOk w = true)
    (hv : bitsOf w 15 0 / 8 = 0) (hl : s.slotLead x = none) (ht : s.slotTaken x = false) :
    s.armWrite r x w =
      if bitsOf w 15 0 / 4 % 2 = 1 then (s.wr (slotArm x) (guardRead (bitsOf w 15 0))).armSlot x (bitsOf w 15 0 % 4)
      else (s.wr (slotArm x) (guardRead (bitsOf w 15 0))).disarmSlot x := by
  simp only [State.armWrite, hl, s.guardWrite_direct r _ w _ h hg, ht, hv, ne_eq, not_true_eq_false, Bool.false_eq_true, if_false]

/-- A slot that holds no action and whose level is legal is armed afresh (R96, R477). -/
theorem State.armSlot_fresh (x : ActSlot) (policy : Nat) (hp : s.pendAct x = none) (hb : s.lampArmBad x = false) :
    s.armSlot x policy = s.noteFs (s.freshAct x) ((s.unprepare x).armAct x policy ((s.unprepare x).slotPerform x)) := by
  cases x <;> simp [State.armSlot, hp, hb]

/-- A PENDING action that has not begun is CANCELLED by a disarming (R96). -/
theorem State.disarmSlot_pending (x : ActSlot) (a : PendAct) (hp : s.pendAct x = some a) (hb : s.actBegun a = false)
    (hs : s.fld (slotStat x) 3 0 = stPending) :
    s.disarmSlot x = (s.unprepare x).endAct x stCancelled 0 false false false := by
  simp [State.disarmSlot, hp, hb, hs]

end Slots

section Flue
variable (s : State)

theorem flueOrder_singleton (m : FlueMsg) : flueOrder [m] = [m] := by
  unfold flueOrder
  cases hc : m.cls <;> simp [hc]

/-- A message whose halves agree is delivered (R14, R17). -/
theorem State.flueIn_good (dst : Die) (m : FlueMsg) (h : guardOk m.word = true) :
    s.flueIn dst m = s.emit (.flue dst m.cls m.addr m.word) := by
  simp [State.flueIn, h]

end Flue

/-- Settles O16: an accepted ACT_ARM word arms or disarms by its bit 2; the Flue's rows by the state of their link. -/
theorem actionsAndFlue : Obligations.ActionsAndFlue := by
  refine ⟨?arm, ?disarm, ?recovery, ?message, ?noLink, ?retry, ?silence⟩
  case arm =>
    rintro r x w s t h hg hv hen hl ht rfl hb hp
    have h2 : bitsOf w 15 0 / 4 % 2 = 1 := by rwa [bitOf_two, beq_iff_eq] at hen
    change Host.Outcome.next (s.armWrite r x w) = _
    rw [s.armWrite_direct r x w h hg hv hl ht, if_pos h2, State.armSlot_fresh _ x _ hp hb]
  case disarm =>
    rintro r x hi a s t h hg hl ht rfl hp hb hs
    have h0 : bitsOf (hi ++ (0 : Half)) 15 0 = 0 := bitsOf_append hi 0
    change Host.Outcome.next (s.armWrite r x (hi ++ (0 : Half))) = _
    rw [s.armWrite_direct r x _ h hg (by rw [h0]) hl ht, h0, if_neg (by decide),
      State.disarmSlot_pending (s.wr (slotArm x) (guardRead 0)) x a hp hb hs]
  case recovery =>
    intro x a s hp hd hs hw hpol
    change execActionSupplyRecovery x s = _
    simp [execActionSupplyRecovery, hp, hd, hs, hw, hpol]
  case message =>
    intro src dst m s hl hs hd hg
    change execFlueMessage src dst [m] s = _
    simp [execFlueMessage, hl, hs, hd, flueOrder_singleton, s.flueIn_good dst m hg]
  case noLink =>
    intro src dst ms s hl
    change execFlueMessage src dst ms s = _
    simp [execFlueMessage, hl]
  case retry =>
    intro n s hr h15
    have h16 : s.power.flueRetry[(linkIdx (.d n)).val] + 1 ≠ 16 := by omega
    change execFlueFlitRetry (.d n) false s = _
    simp only [execFlueFlitRetry, hr, Bool.not_true, Bool.or_false, Bool.false_eq_true, if_false, h16]
  case silence =>
    intro n s hr
    change Host.Outcome.next (s.linkLost (.d n)) = _
    simp only [State.linkLost, hr, if_true]

end Sys2Proof.Machine

/-! # Partitions and the sequencer's commands: O30 -/

namespace Sys2Proof.Machine

section Partition
variable (s : State)

/-- A direct command write on a die that is no member of another's partition has the command's effect (R201). -/
theorem State.partWrite_direct (r : Requester) (d a : Nat) (act : State → State) (h : s.direct r a = true) (hm : s.memberOf d = none) :
    s.partWrite r d a act = act s := by
  rw [State.partWrite, s.cmdWrite_direct r a _ h]
  simp only [hm]

/-- On a member die the command is recorded as PART_MEMBER (R201). -/
theorem State.partWrite_member (r : Requester) (d a l : Nat) (act : State → State) (h : s.direct r a = true)
    (hm : s.memberOf d = some l) :
    s.partWrite r d a act = s.err (D4.page d) 0x0100 (BitVec.ofNat 32 l) := by
  rw [State.partWrite, s.cmdWrite_direct r a _ h]
  simp only [hm]

/-- A command of the sequencer that an enabled partition's state allows (R211, R230). -/
theorem State.seqCmd_allowed (r : Requester) (d code : Nat) (ok : Nat → Bool) (act : State → State)
    (h : s.direct r (D4.seqCmd d) = true) (hm : s.memberOf d = none) (hon : s.partOn d = true) (hok : ok (s.pa d) = true) :
    s.seqCmd r d code ok act = act s := by
  rw [State.seqCmd, s.partWrite_direct r d _ _ h hm]
  simp only [hon, hok, Bool.and_self, if_true]

/-- A command to a partition that is not enabled is CMD_BUSY (R230). -/
theorem State.seqCmd_disabled (r : Requester) (d code : Nat) (ok : Nat → Bool) (act : State → State)
    (h : s.direct r (D4.seqCmd d) = true) (hm : s.memberOf d = none) (hon : s.partOn d = false) :
    s.seqCmd r d code ok act = s.err (D4.page d) 0x0103 (BitVec.ofNat 32 code) := by
  rw [State.seqCmd, s.partWrite_direct r d _ _ h hm]
  simp only [hon, Bool.false_and, Bool.false_eq_true, if_false]

theorem State.soundAbandon_none (d reason : Nat) (h : (s.part? d).sounding = none) : s.soundAbandon d reason = s := by
  simp only [State.soundAbandon, h]

/-- PARTITION_ENABLE of a partition not yet enabled, on no member die: the enabling, and a fresh scheduler (R202, R240). -/
theorem exec_partitionEnable_off (r : Requester) (d : Fin 6) (h : s.direct r (HDR.pageCtrl (D4.page d.val)) = true)
    (hm : s.memberOf d.val = none) (hoff : s.partOn d.val = false) :
    exec (.partitionEnable r d) s =
      .next ((s.partEnable d.val).onPs d.val (fun q => { q with txop := none, paused := false, pauseReq := false })) := by
  change execPartitionEnable r d s = _
  simp only [execPartitionEnable, hm, Option.isSome_none, Bool.false_eq_true, if_false, s.partWrite_direct r d.val _ _ h hm, hoff]

/-- An illegal placement is recorded as PART_PLACEMENT (R24, R202). -/
theorem State.partEnable_misplaced (d : Nat) (hoff : s.partOn d = false)
    (h : s.roleN d ≠ .access ∨ ((s.partDies d).foldl State.tilesBack s).placementOk d = false) :
    s.partEnable d = s.err (dWin d) 3 (BitVec.ofNat 32 d) := by
  have hbad : (s.roleN d != .access || !((s.partDies d).foldl State.tilesBack s).placementOk d) = true := by
    rcases h with h | h
    · rw [bne_iff_ne.mpr h, Bool.true_or]
    · rw [h, Bool.not_false, Bool.or_true]
  simp only [State.partEnable, hoff, Bool.false_eq_true, if_false, hbad, if_true]

/-- Firmware held by every die of the partition, or verified, is enough to enable it (R202, R375). -/
theorem State.firmware_ready (dies : List Nat) (h : dies.all (fun n => s.acc.fw.getLsbD n) = true ∨ s.fld C4.fwStat 1 0 = 2) :
    (dies.any (fun n => !s.acc.fw.getLsbD n) && s.fld C4.fwStat 1 0 != 2) = false := by
  rcases h with h | h
  · rw [List.any_eq_not_all_not]
    simp only [Bool.not_not, h, Bool.not_true, Bool.false_and]
  · simp only [h, bne_self_eq_false, Bool.and_false]

end Partition

/-- Settles O30: the commands of a partition's pages by its enabling, its state and the die's membership. -/
theorem partitions : Obligations.Partitions := by
  refine ⟨?misplaced, ?enabled, ?member, ?ends, ?waits, ?sleep, ?idle, ?listen, ?listenOff, ?abortTx, ?abortLate, ?abortCal⟩
  case misplaced =>
    intro r d s h hm hoff hbad
    rw [exec_partitionEnable_off s r d h hm hoff, s.partEnable_misplaced d.val hoff hbad]
  case enabled =>
    rintro r d b s t u h hm hoff hrole rfl hok hfw hcal rfl rfl
    rw [exec_partitionEnable_off s r d h hm hoff]
    simp only [State.partEnable, hoff, hrole, hok, s.firmware_ready _ hfw, hcal, bne_self_eq_false, Bool.not_true, Bool.or_false,
      Bool.false_eq_true, if_false, Option.isSome_none]
  case member =>
    intro r d l s h hm
    exact congrArg Host.Outcome.next (s.partWrite_member r d.val _ l _ h hm)
  case ends =>
    intro r d s h hm hon htx hrx
    refine congrArg Host.Outcome.next ((s.partWrite_direct r d.val _ _ h hm).trans ?_)
    simp [State.partDisable, hon, htx, hrx]
  case waits =>
    intro r d s h hm hon hbusy
    refine congrArg Host.Outcome.next ((s.partWrite_direct r d.val _ _ h hm).trans ?_)
    simp [State.partDisable, hon, hbusy]
  case sleep =>
    intro r d s h hm hon hfree
    exact congrArg Host.Outcome.next (s.seqCmd_allowed r d.val 1 paFree _ h hm hon hfree)
  case idle =>
    intro r d s h hm hon hfree
    exact congrArg Host.Outcome.next (s.seqCmd_allowed r d.val 2 paFree _ h hm hon hfree)
  case listen =>
    intro r d s h hm hon hfree
    exact congrArg Host.Outcome.next (s.seqCmd_allowed r d.val 3 paFree _ h hm hon hfree)
  case listenOff =>
    intro r d s h hm hoff
    exact congrArg Host.Outcome.next (s.seqCmd_disabled r d.val 3 paFree _ h hm hoff)
  case abortTx =>
    intro r d s h hm hon hpa hsnd hstop
    change Host.Outcome.next (s.seqAbort r d false) = _
    rw [State.seqAbort, s.seqCmd_allowed r d.val 4 _ _ h hm hon rfl]
    simp [s.soundAbandon_none d.val 3 hsnd, hpa, hstop]
  case abortLate =>
    intro r d s h hm hon hpa
    change Host.Outcome.next (s.seqAbort r d true) = _
    rw [State.seqAbort, s.seqCmd_allowed r d.val 4 _ _ h hm hon rfl]
    rcases hpa with hpa | hpa <;> simp [hpa]
  case abortCal =>
    intro r d b s h hm hon hpa hsnd
    have htx : paCal ≠ paTx := by decide
    have hrx : paCal ≠ paRx := by decide
    change Host.Outcome.next (s.seqAbort r d b) = _
    rw [State.seqAbort, s.seqCmd_allowed r d.val 4 _ _ h hm hon rfl]
    simp [s.soundAbandon_none d.val 3 hsnd, hpa, htx, hrx]

end Sys2Proof.Machine

/-! # Page headers, interrupt bits, and logs: O5 to O8 -/

namespace Sys2Proof.Machine

section Headers
variable (s : State)

/-! ## Writes of header registers (R39 to R41) -/

/-- A write of a header register that reaches its page acts there, after the record of a write under a tag (R39, R56). -/
theorem State.headerCmd_reached (r : Requester) (a : Nat) (act : State → State) (hr : s.reachable a = true)
    (hp : s.pathOk r a = true) : s.headerCmd r a act = act s := by
  simp only [State.headerCmd, hr, hp, Bool.not_true, Bool.false_eq_true, if_false]

/-- A direct write of a header register has its effect alone. -/
theorem State.headerCmd_direct (r : Requester) (a : Nat) (act : State → State) (h : s.direct r a = true) :
    s.headerCmd r a (fun t => act (t.nonTrans r a)) = act s := by
  obtain ⟨hr, hp, ht⟩ := (s.direct_iff r a).mp h
  rw [s.headerCmd_reached r a _ hr hp, s.nonTrans_untagged r a ht]

/-- Where no level event can hold its bit, a W1C write of INT_STAT leaves the bits it does not clear and those of its cycle (R41). -/
theorem State.intClear_noLevels (p : Nat) (w coincide : Word) (hp : p ≠ E10.page) :
    s.intClear p w coincide = s.signal (s.wr (HDR.intRaw p) ((s.rd (HDR.intRaw p) &&& ~~~ w) ||| coincide)) p := by
  simp only [State.intClear, if_neg hp]

/-- Level events only set bits of INT_RAW (R128). -/
theorem State.gpioLevels_keeps_bit (p n : Nat) (h : s.bit (HDR.intRaw p) n = true) : s.gpioLevels.bit (HDR.intRaw p) n = true := by
  unfold State.gpioLevels
  dsimp only
  split
  case isTrue => exact h
  case isFalse =>
    unfold State.bit at h ⊢
    rw [State.rd_raiseBits]
    split
    · rw [bitOf_or, h, Bool.true_or]
    · exact h

/-- Whatever a W1C write clears, an event of its cycle stays set (R41). -/
theorem State.intClear_coincident_bit (p n : Nat) (w coincide : Word) (h : bitOf coincide n = true) :
    (s.intClear p w coincide).bit (HDR.intRaw p) n = true := by
  have hset : (s.signal (s.wr (HDR.intRaw p) ((s.rd (HDR.intRaw p) &&& ~~~ w) ||| coincide)) p).bit (HDR.intRaw p) n = true := by
    rw [State.bit, State.signal_rd, State.rd_wr_same, bitOf_or, h, Bool.or_true]
  unfold State.intClear
  dsimp only
  split
  case isTrue => exact State.gpioLevels_keeps_bit _ p n hset
  case isFalse => exact hset

/-- A write of PAGE_CTRL that leaves ENABLE as it is writes STRICT, and resets the page where bit 1 is set (R40). -/
theorem State.pageCtrl_sameEnable (p : Nat) (w : Word) (h : s.bit (HDR.pageCtrl p) 0 = bitOf w 0) :
    s.pageCtrl p w =
      if bitOf w 1 then (s.setBit (HDR.pageCtrl p) 8 (bitOf w 8)).softReset p else s.setBit (HDR.pageCtrl p) 8 (bitOf w 8) := by
  have hkeep : (s.setBit (HDR.pageCtrl p) 8 (bitOf w 8)).bit (HDR.pageCtrl p) 0 = bitOf w 0 := by
    rw [← h, State.bit, State.rd_setBit, if_pos rfl, bitOf_putBit_other _ _ _ _ (by decide) (by decide), State.bit]
  simp only [State.pageCtrl, State.setEnable, hkeep, if_true]

/-! ## Reads of header registers (R40, R48) -/

/-- A read that reaches its page answers the word found there and clears what that register clears (R8). -/
theorem State.readFull_reached (r : Requester) (a : Nat) (ha : a < 0x2400000) (hr : s.reachable a = true)
    (hp : s.pathOk r a = true) :
    s.readFull r a = ((s.pageRead r a).2.readClear r a).answer [(s.pageRead r a).1] := by
  have hres : ¬ 0x2400000 ≤ a := by omega
  have hcasc : ¬ 0x3000000 ≤ a := by omega
  simp only [State.readFull, State.readWord, hres, hcasc, hr, hp, Bool.not_true, Bool.false_eq_true, if_false]

theorem State.readClear_reached (r : Requester) (a : Nat) (ha : a < 0x2400000) (hr : s.reachable a = true)
    (hp : s.pathOk r a = true) : s.readClear r a = s.clearAt r a := by
  simp only [State.readClear, ha, hr, hp, decide_true, Bool.and_self, if_true]

/-- Of a page's header, PAGE_STAT alone has bits that no rule fixes. -/
theorem State.openBits_header (a : Nat) (h : a % 0x10000 < 0x100) (h8 : a % 0x10000 ≠ 8) : s.openBits a = 0 := by
  have hcasc : a ≠ C10.cascInt := by unfold C10.cascInt; omega
  have hptp : ¬ (C2.ptpPstate 0 ≤ a ∧ a < C2.ptpPstate 3 ∧ (a - C2.ptpPstate 0) % 0x40 = 0) := by unfold C2.ptpPstate; omega
  have hrssi : a ≠ E3.rssiNow := by unfold E3.rssiNow; omega
  have hdet : ¬ (D6B.headDet (winOf a - 3) 0 ≤ a ∧ a < D6B.headDet (winOf a - 3) 16) := by
    unfold D6B.headDet D6B.page dWin winOf
    omega
  have hdet' : (decide (D6B.headDet (winOf a - 3) 0 ≤ a) && decide (a < D6B.headDet (winOf a - 3) 16)) = false := by
    rw [← Bool.decide_and, decide_eq_false hdet]
  simp only [State.openBits, h8, hcasc, hptp, hrssi, Bool.and_assoc, hdet', Bool.and_false, Bool.false_eq_true, if_false, ite_self]

/-- In a page's header a read of CLAMP_FIELD alone does something beside what it clears: it freezes the record (R48). -/
theorem State.readTouch_header (r : Requester) (a : Nat) (h : a % 0x10000 < 0x100) :
    s.readTouch r a = if a % 0x10000 = 0x28 then s.freezeClamp r (pageOf a) else s := by
  have hbusy : busyReg a = none := if_neg (by unfold C4.engBusy; omega)
  have hbyte : byteReg a = none := by
    have hrx : ¬ (C9.rxBytesLo 0 ≤ a ∧ a < C9.rxBytesLo 3 ∧ (a - C9.rxBytesLo 0) % 0x40 = 0) := by unfold C9.rxBytesLo; omega
    have htx : ¬ (C9.txBytesLo 0 ≤ a ∧ a < C9.txBytesLo 3 ∧ (a - C9.txBytesLo 0) % 0x40 = 0) := by unfold C9.txBytesLo; omega
    rw [byteReg, if_neg hrx, if_neg htx]
  simp only [State.readTouch, hbusy, hbyte]

/-- The offsets of ERR_CODE, CLAMP_FIELD, CLAMP_COUNT and GUARD_FAIL: what they show is what they hold (R40). -/
def storedHeader (o : Nat) : Prop := o = 0x20 ∨ o = 0x28 ∨ o = 0x34 ∨ o = 0x38

/-- These registers read as they stand, on a page that does not read as 0 (R38, R40). -/
theorem State.viewAt_storedHeader (r : Requester) (a : Nat) (ho : storedHeader (a % 0x10000)) :
    s.viewAt r a = if s.zeroPage a then 0 else s.rd a := by
  have hlt : a % 0x10000 < 0x100 := by unfold storedHeader at ho; omega
  have hsum : pageOf a + a % 0x10000 = a := by unfold pageOf; omega
  have hview : s.headerView r (pageOf a) (a % 0x10000) = s.rd (pageOf a + a % 0x10000) := by
    rcases ho with ho | ho | ho | ho <;> rw [ho] <;> rfl
  simp only [State.viewAt, hlt, hview, hsum, if_true]

/-- Their read answers the word shown; freezing a clamp record, as that of CLAMP_FIELD does, changes no register (R48). -/
theorem State.pageRead_storedHeader (r : Requester) (a : Nat) (ho : storedHeader (a % 0x10000)) :
    s.pageRead r a =
      (if s.zeroPage a then 0 else s.rd a, if a % 0x10000 = 0x28 then s.freezeClamp r (pageOf a) else s) := by
  have hlt : a % 0x10000 < 0x100 := by unfold storedHeader at ho; omega
  have h8 : a % 0x10000 ≠ 8 := by unfold storedHeader at ho; omega
  simp only [State.pageRead, State.openBits_header _ a hlt h8, if_true, s.readTouch_header r a hlt, State.viewAt_storedHeader _ r a ho]
  split
  · rfl
  · rfl

/-- What a read of one of these registers leaves: CLAMP_FIELD's freezes the record beside it, and the others clear (R40, R42, R48). -/
def State.storedHeaderRead (s : State) (r : Requester) (p o : Nat) : State :=
  if o = 0x20 then s.clearErr p
  else if o = 0x28 then s.freezeClamp r p
  else if o = 0x34 then s.clearClamp r p
  else s.wr (p + o) 0

theorem State.readFull_storedHeader (r : Requester) (p o : Nat) (ho : storedHeader o) (hp : p % 0x10000 = 0) (ha : p < 0x2400000)
    (hr : s.reachable (p + o) = true) (hpath : s.pathOk r (p + o) = true) :
    s.readFull r (p + o) = (s.storedHeaderRead r p o).answer [if s.zeroPage (p + o) then 0 else s.rd (p + o)] := by
  have ho' : o = 0x20 ∨ o = 0x28 ∨ o = 0x34 ∨ o = 0x38 := ho
  have hoff : (p + o) % 0x10000 = o := by omega
  have hpage : pageOf (p + o) = p := by unfold pageOf; omega
  have hin : p + o < 0x2400000 := by omega
  have hread := s.pageRead_storedHeader r (p + o) (hoff.symm ▸ ho)
  rw [hoff, hpage] at hread
  rw [s.readFull_reached r _ hin hr hpath, hread]
  dsimp only
  by_cases hfreeze : o = 0x28
  · subst hfreeze
    have hclear : (s.freezeClamp r p).clearAt r (p + 0x28) = s.freezeClamp r p := by simp [State.clearAt, hoff]
    rw [if_pos rfl, State.readClear_reached (s.freezeClamp r p) r _ hin hr hpath, hclear]
    rfl
  · rw [if_neg hfreeze, s.readClear_reached r _ hin hr hpath]
    rcases ho' with rfl | rfl | rfl | rfl <;> simp [State.storedHeaderRead, State.clearAt, hoff, hpage] at hfreeze ⊢

/-! ## Windows without power (R39) -/

/-- A die without power cannot be reached; only the global page stands without its die's bit (R39). -/
theorem State.reachable_unpowered (a : Nat) (ha : 0x400000 ≤ a) (hpow : s.powered (dieOf a) = false) : s.reachable a = false := by
  have hw : (winOf a == 0) = false := beq_false_of_ne (by unfold winOf; omega)
  simp only [State.reachable, hw, hpow, Bool.or_self, Bool.and_false, Bool.false_and]

/-- An access to a fitted die without power is ACCESS_OFF, with the offset (R39). -/
theorem State.accessOff_unpowered (a : Nat) (ha : 0x400000 ≤ a) (hphase : s.power.phase = .done) (hfit : s.fitted (dieOf a) = true)
    (hpow : s.powered (dieOf a) = false) : s.accessOff a = s.err GLB.page 1 (BitVec.ofNat 32 a) := by
  have hw : (winOf a != 0) = true := bne_iff_ne.mpr (by unfold winOf; omega)
  simp [State.accessOff, hphase, hfit, hpow, hw]

end Headers

/-- Settles O7: the bits of the write's cycle are joined in after the clearing, and level events only set bits. -/
theorem eventWinsOverClear : Obligations.EventWinsOverClear := by
  intro r p w coincide s n _ _ hr hp hn
  refine ⟨_, rfl, ?_⟩
  rw [s.headerCmd_reached r _ _ hr hp]
  exact State.intClear_coincident_bit _ p n w coincide hn

/-- Settles O5: the four registers show what they hold and have each their own clearing; an unpowered window is ACCESS_OFF. -/
theorem headerReads : Obligations.HeaderReads := by
  refine ⟨?errCode, ?clampField, ?clampCount, ?guardFail, ?unpowered, ?reserved⟩
  case errCode =>
    intro r p s hp ha hr hpath
    exact congrArg Host.Outcome.next (s.readFull_storedHeader r p 0x20 (.inl rfl) hp ha hr hpath)
  case clampField =>
    intro r p s hp ha hr hpath
    exact congrArg Host.Outcome.next (s.readFull_storedHeader r p 0x28 (.inr (.inl rfl)) hp ha hr hpath)
  case clampCount =>
    intro r p s t hp ha hr hpath ht
    subst ht
    exact congrArg Host.Outcome.next (s.readFull_storedHeader r p 0x34 (.inr (.inr (.inl rfl))) hp ha hr hpath)
  case guardFail =>
    intro r p s hp ha hr hpath
    exact congrArg Host.Outcome.next (s.readFull_storedHeader r p 0x38 (.inr (.inr (.inr rfl))) hp ha hr hpath)
  case unpowered =>
    intro r a write s hlo hhi hphase hfit hpow
    have hin : ¬ 0x4000000 ≤ a := by omega
    have hdie : ¬ 0x2400000 ≤ a := by omega
    change execAccessOff r a write s = _
    simp only [execAccessOff, hin, hdie, s.reachable_unpowered a hlo hpow, s.accessOff_unpowered a hlo hphase hfit hpow,
      Bool.false_eq_true, if_false]
  case reserved =>
    intro r a write s hlo hhi
    have hin : ¬ 0x4000000 ≤ a := by omega
    change execAccessOff r a write s = _
    rw [execAccessOff, if_neg hin, if_pos hlo]

/-- Settles O6: each row's act on a page that its direct write reaches. -/
theorem interruptBits : Obligations.InterruptBits := by
  refine ⟨?clear, ?set, ?softReset⟩
  case clear =>
    intro r p w coincide s _ hp h
    have hact := s.headerCmd_direct r (HDR.intStat p) (fun t => t.intClear p w coincide) h
    exact congrArg Host.Outcome.next (hact.trans (s.intClear_noLevels p w coincide hp))
  case set =>
    intro r p w s _ h
    exact congrArg Host.Outcome.next (s.headerCmd_direct r (HDR.intSet p) (fun t => t.raiseBits p w) h)
  case softReset =>
    intro r p w s _ h hen
    have hother : ∀ n, n ≠ 1 → bitOf (putBit w 1 true) n = bitOf w n := fun n hn => bitOf_putBit_other w 1 n true (by decide) hn
    have hact := s.headerCmd_direct r (HDR.pageCtrl p) (fun t => t.pageCtrl p (putBit w 1 true)) h
    rw [s.pageCtrl_sameEnable p _ (by rw [hother 0 (by decide), hen]), bitOf_putBit w 1 true (by decide), if_pos rfl,
      hother 8 (by decide)] at hact
    exact congrArg Host.Outcome.next hact

/-- Settles O8: each command by its guards; a counter's read is a read of its register, after which the events of its cycle count. -/
theorem msixAndClampLog : Obligations.MsixAndClampLog := by
  refine ⟨?enabled, ?enable, ?unmask, ?clampLog, ?counter⟩
  case enabled =>
    intro s hc hup hon
    change execMsixEnable s = _
    simp only [execMsixEnable, hc, hup, hon, Bool.not_true, Bool.or_true, if_true]
  case enable =>
    intro s hc hup hoff
    change execMsixEnable s = _
    simp only [execMsixEnable, hc, hup, hoff, Bool.not_true, Bool.or_self, Bool.false_eq_true, if_false]
  case unmask =>
    intro v s t hc hup ht
    subst ht
    change execMsixVectorUnmask v s = _
    simp only [execMsixVectorUnmask, hc, hup, Bool.not_true, Bool.or_self, Bool.false_eq_true, if_false]
    split
    · rfl
    · rfl
  case clampLog =>
    intro r w s h
    exact congrArg Host.Outcome.next (s.cmdWrite_direct r GLB.clampLogClr _ h)
  case counter =>
    intro r a coincide s h4 ha hcount hr hp
    have hin : ¬ 0x4000000 ≤ a := by omega
    have hword : wordAt a = a := by unfold wordAt; omega
    change execRcCounterRead r a coincide s = _
    simp only [execRcCounterRead, hin, hword, hcount, hr, hp, Bool.and_self, if_false, if_true]

end Sys2Proof.Machine

/-! # Opening, committing and ending groups: O9 and O10 -/

namespace Sys2Proof.Machine

section Groups
variable (s : State)

/-! ## Tags (R55, R56) -/

/-- TXN_OPEN with a FREE slot opens the lowest one (R55). -/
theorem State.openGroup_free (r : Requester) (w : Word) (n : Fin 16)
    (h : (List.finRange 16).find? (fun m => (s.group m).state == .free) = some n) :
    s.openGroup r w = (s.setGroup n
      { Group.empty with gen := nextGen (s.group n).gen, state := .opened, allowClamp := bitOf w 0, notify := bitOf w 1 }).setTxuPort
      { s.txuPort r with opened := BitVec.ofNat 32 (2 ^ 31 + n.val * 256 + nextGen (s.group n).gen) } := by
  simp only [State.openGroup, h]

/-- At the master, TXN_TAG keeps the tag of an OPEN group (R56). -/
theorem State.writeTag_opened (r : Requester) (p : Nat) (w : Word) (n : Fin 16) (hm : s.isMaster = true) (h0 : bitsOf w 11 0 ≠ 0)
    (hn : s.tagGroup (bitsOf w 11 0) = some n) (ho : (s.group n).state = .opened) :
    s.writeTag r p w = s.setTag r p (bitsOf w 11 0) := by
  simp only [State.writeTag, hm, h0, hn, ho, beq_self_eq_true, if_true, if_false]

/-- Whether a step of local time is pending shows in PWR_STATE and TIME_QUAL; a write of another register leaves it as it is (R97). -/
theorem State.epochPend_wr (a : Nat) (w : Word) (hp : GLB.pwrState ≠ a) (hc : C2.timeQual ≠ a) (he : E8.timeQual ≠ a) :
    (s.wr a w).epochPend = s.epochPend := by
  have hkeeper : (s.wr a w).cTime = s.cTime := by
    simp only [State.cTime, State.pstate, State.fld, s.rd_wr_other a _ _ hp, State.wr_power]
  simp only [State.epochPend, hkeeper, State.bit, s.rd_wr_other a _ _ hc, s.rd_wr_other a _ _ he]

/-! ## Commit, abort and release (R61 to R64) -/

/-- A commit in time of an OPEN group takes it up: COMMITTED, and PREP leaves (R61). -/
theorem State.commitGroup_ahead (r : Requester) (v : Nat) (n : Fin 16) (hn : s.tagGroup (v % 4096) = some n)
    (ho : (s.group n).state = .opened)
    (hj : judge (atimeDiff (s.txuPort r).atimeS.toNat (s.txuPort r).atimeNs.toNat (s.now .c)) 1000000 = .ahead)
    (he : s.epochPend = false) :
    s.commitGroup r v = (s.setGroup n
      { (s.group n).timed (s.txuPort r).atimeS.toNat (s.txuPort r).atimeNs.toNat (v / 4096 % 4) with state := .committed }).emit
      (.commit 1 n.val) := by
  simp only [State.commitGroup, hn, ho, true_or, if_true, State.judgeGroup, hj, State.groupJudged, State.taken, he, Bool.false_eq_true,
    if_false]

/-- TXN_ABORT of an OPEN group aborts it with reason HOST (R62, R64). -/
theorem State.hostAbort_opened (tag : Nat) (n : Fin 16) (hn : s.tagGroup tag = some n) (ho : (s.group n).state = .opened) :
    s.hostAbort tag = s.abortGroup n rsnHost 0 := by
  simp only [State.hostAbort, hn, ho]

/-- TXN_RELEASE of a COMPLETE group frees its slot, and of it only the generation stays (R62, R63). -/
theorem State.releaseGroup_complete (tag : Nat) (n : Fin 16) (hn : s.tagGroup tag = some n) (hc : (s.group n).state = .complete) :
    s.releaseGroup tag = s.setGroup n { Group.empty with gen := (s.group n).gen } := by
  simp only [State.releaseGroup, hn, hc, true_or, if_true]

end Groups

/-- Settles O9: the lowest FREE slot opens, a read of TXN_OPENED clears it, and TXN_TAG keeps the tag of an OPEN group. -/
theorem groupOpening : Obligations.GroupOpening := by
  refine ⟨?opening, ?opened, ?tag⟩
  case opening =>
    intro r w n s h hrun hn
    change Host.Outcome.next (s.cmdWrite r C1.txnOpen _) = _
    rw [s.cmdWrite_direct r _ _ h, if_pos hrun, s.openGroup_free r w n hn]
  case opened =>
    intro r s hr hm
    change execTxnOpened r s = _
    simp only [execTxnOpened, hr, hm, Bool.not_true, Bool.false_eq_true, if_false]
  case tag =>
    intro r page w n s hr hm h0 hn ho
    change execTxnTagWrite r page w s = _
    rw [execTxnTagWrite, if_pos hr, s.writeTag_opened r page w n hm h0 hn ho]

/-- Settles O10: the direct guarded word is kept and acts on the group its tag names, by the group's state. -/
theorem groupCommit : Obligations.GroupCommit := by
  refine ⟨?commit, ?abort, ?release⟩
  case commit =>
    intro r w n s h hg hrun hpol hhigh hn ho hj he
    have hz : bitsOf w 15 0 / 16384 = 0 := Nat.div_eq_of_lt hhigh
    have hpend : (s.accept C1.txnCommit (bitsOf w 15 0)).epochPend = false :=
      (s.epochPend_wr C1.txnCommit _ (by decide) (by decide) (by decide)).trans he
    change Host.Outcome.next (s.guardWrite r C1.txnCommit w _) = _
    rw [s.guardWrite_direct r _ w _ h hg]
    simp only [hrun, hpol, hz, ne_eq, not_true_eq_false, Bool.not_true, Bool.false_eq_true, if_false]
    rw [State.commitGroup_ahead (s.accept C1.txnCommit (bitsOf w 15 0)) r _ n hn ho hj hpend]
    rfl
  case abort =>
    intro r w n s h hg hrun hlow hn ho
    have hz : bitsOf w 15 0 / 4096 = 0 := Nat.div_eq_of_lt hlow
    change Host.Outcome.next (s.guardWrite r C1.txnAbort w _) = _
    rw [s.guardWrite_direct r _ w _ h hg]
    simp only [hrun, hz, ne_eq, not_true_eq_false, Bool.not_true, Bool.false_eq_true, if_false]
    rw [State.hostAbort_opened (s.accept C1.txnAbort (bitsOf w 15 0)) _ n hn ho]
  case release =>
    intro r w n s h hrun hn hc
    change Host.Outcome.next (s.cmdWrite r C1.txnRelease _) = _
    rw [s.cmdWrite_direct r _ _ h, if_pos hrun, s.releaseGroup_complete _ n hn hc]

end Sys2Proof.Machine

/-! # Reset values: O3 -/

namespace Sys2Proof.Machine

/-- After a power-on reset a register that the reset sequence has moved holds what it was moved to (R116). -/
theorem State.rd_reset_moved (a : Nat) (w : Word) (h : Sparse.find resetRegs a = some w) : State.reset.rd a = w := by
  change (Sparse.find resetRegs a).getD _ = w
  rw [h, Option.getD_some]

/-- Any other register holds the reset value of the map. -/
theorem State.rd_reset_unmoved (a : Nat) (h : Sparse.find resetRegs a = none) : State.reset.rd a = State.reset.resetOf a := by
  change (Sparse.find resetRegs a).getD _ = _
  rw [h, Option.getD_none]

/-- After a power-on reset die E alone is powered (R108). -/
theorem State.powered_reset (d : Die) : State.reset.powered d = (dieIdx d == 1) := by
  have hpower : State.reset.rd GLB.diePower = 2 := (State.rd_reset_unmoved _ (by decide)).trans (by decide +kernel)
  rw [State.powered, State.bit, hpower]
  generalize dieIdx d = k
  decide +revert

/-- Settles O3: each register is one that the reset sequence moved, or holds the value of the map. -/
theorem resetValues : Obligations.ResetValues := by
  refine ⟨?state, ?cause, State.powered_reset .e, State.powered_reset .c, ?radio, rfl, ?groups, rfl, rfl, rfl, rfl, rfl, ?servo, ?pm, ?wdt⟩
  case state =>
    have hstate : State.reset.rd GLB.pwrState = 1 := (State.rd_reset_unmoved _ (by decide)).trans (by decide +kernel)
    rw [State.pstate, State.fld, hstate]
    decide
  case cause => exact State.rd_reset_moved _ _ (by decide)
  case radio =>
    intro d
    rw [State.powered_reset]
    decide +revert
  case groups => decide
  case servo => exact (State.rd_reset_unmoved _ (by decide)).trans (by decide +kernel)
  case pm => exact (State.rd_reset_unmoved _ (by decide)).trans (by decide +kernel)
  case wdt => exact (State.rd_reset_unmoved _ (by decide)).trans (by decide +kernel)

end Sys2Proof.Machine

/-! # Time commands: O13 -/

namespace Sys2Proof.Machine

section TimeCommands
variable (s : State)

/-- TIME_CMD is not TIME_QUAL: a keeper that takes a command shows its quality as before. -/
theorem State.rd_accept_timeQual (n : Bool) (v : Nat) :
    (s.accept (keeperPage n + 0x118) v).rd (timeQualOf n) = s.rd (timeQualOf n) :=
  s.rd_wr_other _ _ _ (by cases n <;> decide)

theorem State.bit_accept_timeQual (n : Bool) (v k : Nat) :
    (s.accept (keeperPage n + 0x118) v).bit (timeQualOf n) k = s.bit (timeQualOf n) k :=
  congrArg (bitOf · k) (s.rd_accept_timeQual n v)

theorem State.qualOf_accept (n : Bool) (v : Nat) : (s.accept (keeperPage n + 0x118) v).qualOf n = s.qualOf n :=
  congrArg (bitsOf · 3 0) (s.rd_accept_timeQual n v)

/-! ## The codes, by a direct guarded write on the page of the keeper in force (R43, R98 to R100, R102) -/

section Rows
variable (r : Requester) (n : Bool) (hi : Half) (h : s.direct r (keeperPage n + 0x118) = true) (hk : s.cTime = n)
include h hk

theorem State.timeCmdRow_step (hg : guardOk (hi ++ (1 : Half)) = true) (hm : s.isMaster = true) :
    s.timeCmdRow r n hi 1 = (s.accept (keeperPage n + 0x118) 1).timeStep n := by
  rw [State.timeCmdRow, s.guardWrite_halves r _ hi 1 _ h hg]
  cases n <;> simp [State.timeCmd, hk, hm]

theorem State.timeCmdRow_keep (hg : guardOk (hi ++ (2 : Half)) = true) (hm : s.isMaster = true) :
    s.timeCmdRow r n hi 2 = (s.accept (keeperPage n + 0x118) 2).timeKeep n := by
  rw [State.timeCmdRow, s.guardWrite_halves r _ hi 2 _ h hg]
  cases n <;> simp [State.timeCmd, hk, hm]

theorem State.timeCmdRow_set (hg : guardOk (hi ++ (3 : Half)) = true) (hm : s.isMaster = true) :
    s.timeCmdRow r n hi 3 = (s.accept (keeperPage n + 0x118) 3).timeSet n := by
  rw [State.timeCmdRow, s.guardWrite_halves r _ hi 3 _ h hg]
  cases n <;> simp [State.timeCmd, hk, hm]

/-- RESELECT is a code of the NTU page alone. -/
theorem State.timeCmdRow_reselect (hg : guardOk (hi ++ (4 : Half)) = true) (hn : n = true) :
    s.timeCmdRow r n hi 4 = (s.accept (keeperPage n + 0x118) 4).reselect := by
  subst hn
  rw [State.timeCmdRow, s.guardWrite_halves r _ hi 4 _ h hg]
  simp [State.timeCmd, hk]

theorem State.timeCmdRow_refusedClear (hg : guardOk (hi ++ (5 : Half)) = true) :
    s.timeCmdRow r n hi 5 = (s.accept (keeperPage n + 0x118) 5).refusedClear n := by
  rw [State.timeCmdRow, s.guardWrite_halves r _ hi 5 _ h hg]
  cases n <;> simp [State.timeCmd, hk]

end Rows

/-! ## What the codes do -/

/-- TIME_STEP with EPOCH_PEND set: the step of the negated last offset, with a new epoch (R98). -/
theorem State.timeStep_pending (n : Bool) (h : s.bit (timeQualOf n) 12 = true) :
    s.timeStep n = (((((s.setBit (timeQualOf n) 12 false).onKeeper n (fun k =>
      { k with recent := [], prevFar := false, stepRun := 0 })).setQual n qAcquiring).nameStep (-(s.keeper n).lastOfs) true).rejudge
      (-(s.keeper n).lastOfs) false) := by
  simp only [State.timeStep, h, Bool.not_true, Bool.false_eq_true, if_false]

/-- TIME_KEEP with EPOCH_PEND set: the stepped source is refused, and the scale stays (R99). -/
theorem State.timeKeep_pending (n : Bool) (u : State) (h : s.bit (timeQualOf n) 12 = true)
    (hu : u = ((s.setBit (timeQualOf n) 12 false).setBit (timeQualOf n) 13 true).onKeeper n (fun k =>
      { k with refused := if k.refused.contains k.stepSrc then k.refused else k.stepSrc :: k.refused, stepRun := 0 })) :
    s.timeKeep n = ((if n then u.reselect else u).rejudge 0 false).twtLost := by
  simp only [State.timeKeep, h, hu, Bool.not_true, Bool.false_eq_true, if_false]

/-- TIME_SET in FREERUN or HOLDOVER: the step to the SET registers, with a new epoch (R100). -/
theorem State.timeSet_unlocked (n : Bool) (ha : s.qualOf n ≠ qAcquiring) (hl : s.qualOf n ≠ qLocked) :
    s.timeSet n = (((((s.setBit (timeQualOf n) 12 false).onKeeper n (fun k =>
      { k with recent := [], prevFar := false, stepRun := 0 })).setQual n qAcquiring).nameStep
      ((s.setTime n : Int) - s.now (if n then .c else .e)) true).rejudge ((s.setTime n : Int) - s.now (if n then .c else .e)) true) := by
  simp only [State.timeSet, ha, hl, decide_false, Bool.or_self, Bool.false_eq_true, if_false]

end TimeCommands

/-- Settles O13: on the page of the keeper in force each code has its effect on the state that has taken the word. -/
theorem timeCommands : Obligations.TimeCommands := by
  refine ⟨?step, ?keep, ?set, ?reselect, ?refusedClear, ?eStep, ?eKeep, ?eSet, ?eRefusedClear⟩
  case step =>
    rintro r hi s u h hg hc hm hb rfl
    exact congrArg Host.Outcome.next ((s.timeCmdRow_step r true hi h hc hg hm).trans
      (State.timeStep_pending _ true ((s.bit_accept_timeQual true 1 12).trans hb)))
  case keep =>
    rintro r hi s u h hg hc hm hb rfl
    exact congrArg Host.Outcome.next ((s.timeCmdRow_keep r true hi h hc hg hm).trans
      (State.timeKeep_pending _ true _ ((s.bit_accept_timeQual true 2 12).trans hb) rfl))
  case set =>
    rintro r hi s u h hg hc hm ha hl rfl
    rw [← s.qualOf_accept true 3] at ha hl
    exact congrArg Host.Outcome.next ((s.timeCmdRow_set r true hi h hc hg hm).trans (State.timeSet_unlocked _ true ha hl))
  case reselect =>
    rintro r hi s u h hg hc rfl
    exact congrArg Host.Outcome.next (s.timeCmdRow_reselect r true hi h hc hg rfl)
  case refusedClear =>
    rintro r hi s u h hg hc rfl
    exact congrArg Host.Outcome.next (s.timeCmdRow_refusedClear r true hi h hc hg)
  case eStep =>
    rintro r hi s u h hg hc hm hb rfl
    exact congrArg Host.Outcome.next ((s.timeCmdRow_step r false hi h hc hg hm).trans
      (State.timeStep_pending _ false ((s.bit_accept_timeQual false 1 12).trans hb)))
  case eKeep =>
    rintro r hi s u h hg hc hm hb rfl
    exact congrArg Host.Outcome.next ((s.timeCmdRow_keep r false hi h hc hg hm).trans
      (State.timeKeep_pending _ false _ ((s.bit_accept_timeQual false 2 12).trans hb) rfl))
  case eSet =>
    rintro r hi s u h hg hc hm ha hl rfl
    rw [← s.qualOf_accept false 3] at ha hl
    exact congrArg Host.Outcome.next ((s.timeCmdRow_set r false hi h hc hg hm).trans (State.timeSet_unlocked _ false ha hl))
  case eRefusedClear =>
    rintro r hi s u h hg hc rfl
    exact congrArg Host.Outcome.next (s.timeCmdRow_refusedClear r false hi h hc hg)

end Sys2Proof.Machine

/-! # Measurements, PTP stamps and Lanivy time transfer: O15 -/

namespace Sys2Proof.Machine

section Measurements
variable (s : State)

/-- A mesh node that takes a TT_REQ answers it by an armed transmission on RF_ACT[7], with the crystal held for it (R84, R91, R172). -/
theorem State.ttMeshServe_free (seq t1 : Nat) (x : MeshAuth) (ha : s.mesh.auth = some x) (hf : s.pendAct (.rf 7) = none) :
    s.ttMeshServe seq t1 = (((s.onMesh (fun y => { y with auth := none })).oscUser 2 true).engArm 7 6 (x.stamp + 10000000 - s.sfdNs)
      (s.psduLen 64 0) (.ttResp x.src seq t1 x.stamp)) := by
  simp [State.ttMeshServe, State.takeAuth, ha, hf]

/-- A server answers a TT_REQ on the available member of an enabled link that it came on (R83, R85). -/
theorem State.ttServe_on (l m seq t1 : Nat) (hl : s.linkOn l = true) (hm : s.memAvail l m = true) :
    s.ttServe l m seq t1 = ((s.emit (.ttResp l seq t1 (s.memberStamp l m false) (s.memberStamp l m true) s.ttFlags)).ttSend l m 2 seq t1
      (s.memberStamp l m false) (s.memberStamp l m true)) := by
  simp [State.ttServe, hl, hm]

end Measurements

/-- Settles O15: each row by its guards, which the hypotheses pass. -/
theorem timeMeasurements : Obligations.TimeMeasurements := by
  refine ⟨?measured, ?lost, ?ptpRx, ?unstamped, ?ptpTx, ?request, ?serve, ?serveMesh, ?response, ?unanswered, ?subExchange⟩
  case measured =>
    intro src m s h13 hk hp
    have hkeeper : (!s.cTime && decide (src.val ≠ 11)) = false := by
      rcases hk with h | h <;> simp [h]
    have hslave : (decide (src.val < 3) && !s.ptpSlave src.val) = false := by
      by_cases h : src.val < 3
      · rw [hp h, Bool.not_true, Bool.and_false]
      · rw [decide_eq_false h, Bool.false_and]
    change execTimeMeasurement src m s = _
    simp only [execTimeMeasurement, decide_eq_false h13, hkeeper, hslave, Bool.or_self, Bool.false_eq_true, if_false]
  case lost =>
    rintro src x s u hx hk hage rfl
    have hdue : ¬ s.mono < x.last + s.fld C2.srcMode 13 8 * 1000000000 := Nat.not_lt.mpr hage
    change execSrcLost src s = _
    simp only [execSrcLost, hx, hk, hdue, Bool.not_true, decide_false, Bool.or_self, Bool.false_eq_true, if_false, Bool.and_eq_true,
      decide_eq_true_eq, Option.isNone_iff_eq_none]
    split <;> rfl
  case ptpRx =>
    rintro port ptp ok s u hk hstamp rfl
    have hs : (ptp || s.bit (C2.ptpCfg port.val) 4) = true := by rwa [Bool.or_eq_true]
    change execPtpFrameRx port ptp ok s = _
    simp only [execPtpFrameRx, hk, hs, Bool.not_true, Bool.false_eq_true, if_false, if_true]
  case unstamped =>
    intro port ok s hk hall
    change execPtpFrameRx port false ok s = _
    simp only [execPtpFrameRx, hk, hall, Bool.not_true, Bool.or_self, Bool.false_and, Bool.false_eq_true, if_false]
  case ptpTx =>
    intro port sync s hk hm
    change execPtpEventTx port sync s = _
    simp only [execPtpEventTx, hk, hm, Bool.not_true, Bool.or_self, Bool.false_eq_true, if_false]
  case request =>
    intro l m s hm hl hen hdue
    have hnear : ¬ s.mono < s.time.ttNext[l.val] := Nat.not_lt.mpr hdue
    change execTtReqSend l s = _
    simp only [execTtReqSend, hm, hl, hen, hnear, Bool.not_true, decide_false, Bool.or_self, Bool.false_eq_true, if_false]
  case serve =>
    intro l m seq t1 s hlt hl hm
    change execTtReq l m seq t1 s = _
    rw [execTtReq, if_pos hlt, s.ttServe_on l.val m.val seq t1 hl hm]
  case serveMesh =>
    intro m seq t1 x s hon ha hf
    change execTtReq 8 m seq t1 s = _
    rw [execTtReq, if_neg (by decide), hon, s.ttMeshServe_free seq t1 x ha hf]
    rfl
  case response =>
    intro l seq m x s hx ha
    have hauth : (decide (l.val = 8) && s.mesh.auth.isNone) = false := by
      rcases ha with h | h
      · rw [decide_eq_false h, Bool.false_and]
      · rw [Option.isNone_eq_false_iff.mpr h, Bool.and_false]
    change execTtResp l seq m s = _
    simp only [execTtResp, hx, hauth, Bool.false_eq_true, if_false]
  case unanswered =>
    intro l x s hx hage
    have hdue : ¬ s.mono < x.sent + 100000000 := Nat.not_lt.mpr hage
    change execTtLost l s = _
    simp only [execTtLost, hx, hdue, if_false, State.ttEnd]
  case subExchange =>
    intro s hon hup hdue
    change execTtSubExchange s = _
    simp only [execTtSubExchange, hon, hup, hdue, decide_true, Bool.and_self, if_true]

end Sys2Proof.Machine

/-! # Power transitions: O19 -/

namespace Sys2Proof.Machine

section Transitions
variable (s : State)

theorem State.onTrans_trans (f : Transition → Transition) : (s.onTrans f).power.trans = s.power.trans.map f := rfl

theorem State.onTrans_congr (t : Transition) (f g : Transition → Transition) (ht : s.power.trans = some t) (h : f t = g t) :
    s.onTrans f = s.onTrans g := by
  simp only [State.onTrans, ht, Option.map_some, h]

theorem State.onTrans_onTrans (f g : Transition → Transition) : (s.onTrans f).onTrans g = s.onTrans (g ∘ f) := by
  simp only [State.onTrans, Option.map_map]

/-- Where no self-refresh runs, the end of a power-down's step leaves the transition with no step and no self-refresh ended. -/
theorem State.srEnd_downDone (t : Transition) (ht : s.power.trans = some t) (hsr : t.sr = none) :
    (s.onTrans (fun x => { x with down := false })).srEnd = s.onTrans (fun x => { x with down := false, srEnded := false }) := by
  have hdown : (s.onTrans (fun x => { x with down := false })).power.trans = some { t with down := false } := by
    rw [s.onTrans_trans, ht, Option.map_some]
  simp only [State.srEnd, hdown, hsr, s.onTrans_onTrans]
  exact s.onTrans_congr t _ _ ht (by simp only [Function.comp_apply, hsr])

/-- While a step of a transition runs, a supply warning does not pause it (R114). -/
theorem State.pauseTrans_within (t : Transition) (ht : s.power.trans = some t)
    (h : t.ramp.isSome = true ∨ t.kindle = true ∧ s.testing .c = true) : s.pauseTrans = s := by
  have hstep : s.withinStep t = true := by
    rcases h with h | ⟨hk, hc⟩
    · rw [State.withinStep, h, Bool.true_or]
    · rw [State.withinStep, hk, if_pos rfl, hc, Bool.or_true]
  simp only [State.pauseTrans, ht, hstep, if_true]

/-- At a boundary of Kindle a supply warning pauses it (R114). -/
theorem State.pauseNow_kindle (t : Transition) (ht : s.power.trans = some t) (hk : t.kindle = true) (hp : t.paused = none)
    (hw : s.warned = true) :
    s.pauseNow =
      { s.setBit GLB.pwrState 9 true with power := { s.power with trans := some { t with paused := some s.mono } } } := by
  simp only [State.pauseNow, ht, hk, hp, hw, Option.isNone_none, Bool.true_or, Bool.and_self, if_true]

/-- Between the steps of Kindle a supply warning pauses it at once (R114). -/
theorem State.pauseTrans_between (t : Transition) (ht : s.power.trans = some t) (hk : t.kindle = true) (hr : t.ramp = none)
    (hc : s.testing .c = false) : s.pauseTrans = s.pauseNow := by
  have hstep : s.withinStep t = false := by
    rw [State.withinStep, hr, hk, if_pos rfl, hc, Option.isSome_none, Bool.or_self]
  simp only [State.pauseTrans, ht, hstep, Bool.false_eq_true, if_false]

theorem State.testBoundary_dieC : s.testBoundary .c = s.pauseNow := rfl

end Transitions

/-- Settles O19: each step of a transition by its guards, and the pauses by where a boundary stands. -/
theorem powerTransitions : Obligations.PowerTransitions := by
  refine ⟨?release, ?releaseWarned, ?kindle, ?radio, ?radioWarned, ?radioStart, ?ember, ?off, ?other, ?timeout, ?within, ?between⟩
  case release =>
    intro t s ht hk hup hp hw
    change execDieCRelease s = _
    simp only [execDieCRelease, ht, hk, hup, hp, hw, Bool.not_true, Option.isSome_none, Bool.or_self, Bool.false_eq_true, if_false,
      State.onTrans, Option.map_some]
  case releaseWarned =>
    intro t s ht hk hup hp hw
    change execDieCRelease s = _
    simp only [execDieCRelease, ht, hk, hup, hp, hw, Bool.not_true, Option.isSome_none, Bool.or_self, Bool.false_eq_true, if_false, if_true]
  case kindle =>
    rintro t s en ht hk hup htest hpass hp rfl
    change execKindleDone s = _
    simp only [execKindleDone, ht, hk, hup, htest, hpass, hp, Bool.not_true, Option.isSome_none, ne_eq, not_true_eq_false, decide_false,
      Bool.or_self, Bool.false_eq_true, if_false]
  case radio =>
    intro t d s ht hk hadd hrel hp hw hrole
    have hthird : (Role.access == Role.backhaul) = false := rfl
    change execRadioDieRelease d s = _
    simp only [execRadioDieRelease, ht, hk, hadd, hrel, hp, hw, hrole, s.onTrans_trans, hthird, roleOf, Bool.not_true, Option.isSome_none,
      Option.map_some, Bool.or_self, Bool.false_and, Bool.false_eq_true, if_false, if_true]
    rfl
  case radioWarned =>
    intro t d s ht hk hadd hrel hp hw
    change execRadioDieRelease d s = _
    simp only [execRadioDieRelease, ht, hk, hadd, hrel, hp, hw, Bool.not_true, Option.isSome_none, Bool.or_self, Bool.false_eq_true, if_false,
      if_true]
  case radioStart =>
    intro t d rep s ht hadd hrel htest hrole hrep hwait hend
    have hoff : (Role.access == Role.off) = false := rfl
    have hbh : (Role.access == Role.backhaul) = false := rfl
    change execRadioStartDone d rep s = _
    simp only [execRadioStartDone, ht, hadd, hrel, htest, hrole, hrep, hwait, hend, hoff, hbh, Bool.not_true, Bool.or_self, List.foldl_nil,
      List.any_nil, Bool.false_eq_true, if_false]
    rfl
  case ember =>
    intro t s ht hd hsr htar
    have hno (b : Bool) : ((none : Option Bool) == some b) = false := rfl
    have h10 : ¬ (1 : Nat) = 0 := by decide
    change execTransDone s = _
    simp only [execTransDone, ht, hd, hsr, htar, hno, h10, s.srEnd_downDone t ht hsr, Bool.not_true, Bool.false_and, Bool.or_self,
      Bool.false_eq_true, if_false, if_true]
  case off =>
    intro t s ht hd htar hsr
    change execTransDone s = _
    simp only [execTransDone, ht, hd, htar, beq_false_of_ne hsr, Bool.not_true, Bool.false_and, Bool.or_self, Bool.false_eq_true, if_false,
      if_true]
  case other =>
    intro t s ht hd htar hsr
    have h0 : t.target ≠ 0 := by omega
    have h1 : t.target ≠ 1 := by omega
    have hbusy : (!t.down && t.sr.isNone) = false := by
      rcases hd with h | h <;> simp [h]
    change execTransDone s = _
    simp only [execTransDone, ht, hbusy, h0, h1, beq_false_of_ne hsr, Bool.false_and, Bool.or_self, Bool.false_eq_true, if_false]
  case timeout =>
    intro t t0 s ht hp hlate hk ho
    have hwait : ¬ s.mono ≤ t0 + s.fld E1.pmCfg 15 12 * 100000000 := Nat.not_le.mpr hlate
    have h21 : ¬ (2 : Nat) = 1 := by decide
    change execTransitionPauseTimeout s = _
    simp only [execTransitionPauseTimeout, ht, hp, hwait, hk, ho, h21, Bool.false_eq_true, if_false]
  case within =>
    exact fun t s => s.pauseTrans_within t
  case between =>
    intro t s ht hk hr hc hp hw
    have hb := s.pauseTrans_between t ht hk hr hc
    exact ⟨hb.trans (s.pauseNow_kindle t ht hk hp hw), s.testBoundary_dieC.trans hb.symm⟩

end Sys2Proof.Machine

/-! # Actions at their T (R94) -/

namespace Sys2Proof.Machine

section Actions
variable (s : State)

/-- The slot's action comes to its T now and nothing holds it back: it is due, not deferred, and no supply warning is in force (R94). -/
def State.actRuns (s : State) (x : ActSlot) (a : PendAct) : Prop :=
  s.pendAct x = some a ∧ s.actDue a = true ∧ s.bit (slotStat x) 28 = false ∧ s.actWarned a = false

/-- An action that runs and that its block can execute is DONE, with UNLOCKED where time quality is not LOCKED (R94). -/
theorem State.actAtT_done (x : ActSlot) (perform : PendAct → State → Option State) (a : PendAct) (t : State) (h : s.actRuns x a)
    (ht : perform a s = some t) : s.actAtT x perform = t.endAct x stDone 0 false (!s.locked) false := by
  obtain ⟨hp, hd, hs, hw⟩ := h
  simp only [State.actAtT, hp, hd, hs, hw, ht, Bool.not_true, Bool.or_self, Bool.false_eq_true, if_false]

end Actions

end Sys2Proof.Machine

/-! # The sub-GHz radio's transmissions, calibration and actions: O25 -/

namespace Sys2Proof.Machine

section SubGhz
variable (s : State)

/-! ## The end of a transmission (R145, R146, R156) -/

/-- Where the radio returns to after a transmission: for an acknowledgement by the first field of RF_CTRL, else by the second (R145). -/
def State.sgRetOf (s : State) (t : SgTx) : Nat := if t.kind = .ack then s.fld E3.rfCtrl 1 0 else s.fld E3.rfCtrl 3 2

/-- A transmission shorter than 100 µs measures no return loss. -/
theorem State.sgTxEnd_short (rl : Nat) (t : SgTx) (ht : s.sub.tx = some t) (h : s.sub.txTo < s.sub.txFrom + 100000) :
    s.sgTxEnd rl = s.sgTxFinish 1 (s.sgRetOf t) := by
  have hshort : ¬ 100000 ≤ s.sub.txTo - s.sub.txFrom := by omega
  simp only [State.sgTxEnd, ht, hshort, decide_false, Bool.false_eq_true, if_false, State.sgRetOf]

/-- A good return loss ends the run of low ones. -/
theorem State.sgTxEnd_good (rl : Nat) (t : SgTx) (ht : s.sub.tx = some t) (h : s.sub.txFrom + 100000 ≤ s.sub.txTo)
    (hrl : 4 * s.fld E3.tunerCfg 12 8 ≤ rl) :
    s.sgTxEnd rl = (((s.setFld E3.tunerStat 7 0 (min rl 255)).setBit E3.tunerStat 30 s.sub.txExt).onSub (fun x =>
      { x with lowRl := 0 })).sgTxFinish 1 (s.sgRetOf t) := by
  have hlong : 100000 ≤ s.sub.txTo - s.sub.txFrom := by omega
  have hhigh : ¬ rl < 4 * s.fld E3.tunerCfg 12 8 := Nat.not_lt.mpr hrl
  have h04 : ¬ (0 : Nat) = 4 := by decide
  simp only [State.sgTxEnd, ht, hlong, hhigh, h04, decide_true, decide_false, Bool.false_eq_true, if_false, if_true, State.sgRetOf]

/-- The fourth low return loss in a row is MISMATCH, after which the internal path is tuned again where that is enabled. -/
theorem State.sgTxEnd_mismatch (rl : Nat) (t : SgTx) (ht : s.sub.tx = some t) (h : s.sub.txFrom + 100000 ≤ s.sub.txTo)
    (hrl : rl < 4 * s.fld E3.tunerCfg 12 8) (hrun : s.sub.lowRl = 3) :
    s.sgTxEnd rl = ((((s.setFld E3.tunerStat 7 0 (min rl 255)).setBit E3.tunerStat 30 s.sub.txExt).onSub (fun x =>
      { x with lowRl := 0, retune := x.retune || (s.bit E3.tunerCfg 0 && !s.sgExt) })).raise E3.page 4).sgTxFinish 1 (s.sgRetOf t) := by
  have hlong : 100000 ≤ s.sub.txTo - s.sub.txFrom := by omega
  simp only [State.sgTxEnd, ht, hlong, hrl, hrun, decide_true, if_true, State.sgRetOf]

/-- Of the steps of a calibration without failures all are good. -/
theorem steps_noFail {w : Nat} (set : BitVec w) : set &&& ~~~ (0 : BitVec w) = set := by
  rw [BitVec.ofNat_eq_ofNat, BitVec.not_zero, BitVec.and_allOnes]

/-- A calibration without its reference steps and without failures enters what it ran (R153). -/
theorem State.sgCalRecord_trims (set : BitVec 7) (h0 : set.getLsbD 0 = false) (h3 : set.getLsbD 3 = false) :
    s.sgCalRecord set 0 = (s.onSub (fun x => { x with cal := none })).wr E3.calStat
      (putFld (putFld (s.rd E3.calStat) 6 0 set.toNat) 14 8 0) := by
  have hbad : (0 : BitVec 7) &&& set = 0 := by simp
  simp only [State.sgCalRecord, h0, h3, steps_noFail set, hbad, Bool.or_self, Bool.false_eq_true, if_false]
  rfl

/-! ## Actions of the radio (R94, R152) -/

/-- The radio can execute an action: it is enabled, sends nothing and owes no acknowledgement (R152). -/
def State.sgReady (s : State) : Prop := s.sgEnabled = true ∧ s.sg ≠ sgTxSt ∧ s.sub.ackDue = false

theorem rfPerform_listen (a : PendAct) (i : Fin 8) (hslot : a.slot = .rf i) (hk : bitsOf a.desc 2 0 = 1) (h : s.sgReady) :
    rfPerform a s = some (s.sgYield.sgActChan a.desc).sgToListen := by
  obtain ⟨hen, htx, hack⟩ := h
  simp [rfPerform, hslot, hk, hen, htx, hack]

theorem rfPerform_idle (a : PendAct) (i : Fin 8) (hslot : a.slot = .rf i) (hk : bitsOf a.desc 2 0 = 2) (h : s.sgReady) :
    rfPerform a s = some s.sgYield.sgToIdle := by
  obtain ⟨hen, htx, hack⟩ := h
  simp [rfPerform, hslot, hk, hen, htx, hack]

theorem rfPerform_sleep (a : PendAct) (i : Fin 8) (hslot : a.slot = .rf i) (hk : bitsOf a.desc 2 0 = 3) (h : s.sgReady) :
    rfPerform a s = some s.sgYield.sgToSleep := by
  obtain ⟨hen, htx, hack⟩ := h
  simp [rfPerform, hslot, hk, hen, htx, hack]

theorem rfPerform_channel (a : PendAct) (i : Fin 8) (hslot : a.slot = .rf i) (hk : bitsOf a.desc 2 0 = 4) (h : s.sgReady) :
    rfPerform a s = some (if bitOf a.desc 3 then s else s.setFld E3.chanSel 9 0 (bitsOf a.desc 17 8)).sgRetuneChan := by
  obtain ⟨hen, htx, hack⟩ := h
  simp [rfPerform, hslot, hk, hen, htx, hack]

/-- An action of the radio that runs, and that no transmission holds back, is DONE; nothing stays prepared for its slot. -/
theorem State.rfActAtT_done (i : Fin 8) (k : Nat) (a : PendAct) (t : State) (h : s.actRuns (.rf i) a) (hk : bitsOf a.desc 2 0 = k)
    (hb : s.sub.blocked.contains i = false) (ht : rfPerform a s = some t) :
    s.rfActAtT i k = (t.endAct (.rf i) stDone 0 false (!s.locked) false).onSub (fun x =>
      { x with prepared := if x.prepared = some i then none else x.prepared }) := by
  have hdone := s.actAtT_done (.rf i) rfPerform a t h ht
  obtain ⟨hp, -⟩ := h
  simp only [State.rfActAtT, hp, hk, hb, hdone, decide_true, Bool.not_false, Bool.and_self, if_true]

end SubGhz

/-- Settles O25: transmissions and calibrations by their guards, the actions each by what the radio does at T. -/
theorem radioTransmission : Obligations.RadioTransmission := by
  refine ⟨?txEnd, ?txEarly, ?short, ?good, ?mismatch, ?protect, ?protectExt, ?lock, ?noLock, ?supply, ?cal, ?deferred, ?retune, ?prepare,
    ?tx, ?txWarned, ?txMissed, ?listen, ?idle, ?sleep, ?channel⟩
  case txEnd =>
    intro rl t s ht h
    have hover : ¬ s.mono < s.sub.txTo + s.rampNs := Nat.not_lt.mpr h
    change execSgTxEnd rl s = _
    simp only [execSgTxEnd, ht, hover, if_false]
    split <;> rfl
  case txEarly =>
    intro rl s h
    change execSgTxEnd rl s = _
    simp only [execSgTxEnd, h, if_true]
    split <;> rfl
  case short =>
    rintro rl ret t s ht rfl h
    exact s.sgTxEnd_short rl t ht h
  case good =>
    rintro rl ret t s ht rfl h hrl
    exact s.sgTxEnd_good rl t ht h hrl
  case mismatch =>
    rintro rl ret t s ht rfl h hrl hrun
    exact s.sgTxEnd_mismatch rl t ht h hrl hrun
  case protect =>
    intro rl s hsg hrl hp hx
    change execPaProtect rl s = _
    simp only [execPaProtect, hsg, hrl, hp, hx, beq_self_eq_true, decide_true, Bool.not_false, Bool.and_self, Bool.false_eq_true, if_false,
      if_true]
  case protectExt =>
    intro rl s hsg hrl hp hx
    change execPaProtect rl s = _
    simp only [execPaProtect, hsg, hrl, hp, hx, beq_self_eq_true, decide_true, Bool.not_false, Bool.and_self, if_true]
  case lock =>
    intro s hsg hx hgoal
    change execSgSynthLock s = _
    simp only [execSgSynthLock, hsg, hx, hgoal, beq_self_eq_true, Bool.and_self, if_true]
  case noLock =>
    intro t t0 s hwait hheld hlate
    change execTxNoLock s = _
    simp only [execTxNoLock, hwait, hheld, hlate, Bool.not_false, decide_true, Bool.and_self, if_true]
  case supply =>
    intro t t0 s hwait hheld hlate
    change execTxSupply s = _
    simp only [execTxSupply, hwait, hheld, hlate, decide_true, Bool.and_self, if_true]
  case cal =>
    intro set limit rl s hcal h0 h3 h6
    have hbad : ((0 : BitVec 7) &&& set != 0) = false := by simp
    change execSgCalDone 0 limit rl s = _
    simp only [execSgCalDone, hcal, steps_noFail set, hbad, h6, s.sgCalRecord_trims set h0 h3, Bool.false_and, Bool.false_eq_true, if_false]
  case deferred =>
    intro set s hdef htrim hnear
    have hrest : (s.sg == sgIdle || s.sg == sgListen || s.sg == sgSleep) = true := htrim
    change execSgCalDeferredStart s = _
    simp only [execSgCalDeferredStart, hdef, hrest, hnear, Bool.not_false, Bool.and_self, if_true]
  case retune =>
    intro s hr hen hext hsg hnear
    have hrest : (s.sg == sgIdle || s.sg == sgListen) = true := by
      rcases hsg with h | h <;> simp [h]
    change execAutoRetune s = _
    simp only [execAutoRetune, hr, hen, hext, hrest, hnear, Bool.not_false, Bool.and_self, if_true]
  case prepare =>
    intro i a s hp hs hd hnear hprep hb
    have hfree : (s.sub.prepared != some i) = true := bne_iff_ne.mpr hprep
    change execActPrepare i s = _
    simp only [execActPrepare, hp, hs, hd, hnear, hfree, hb, beq_self_eq_true, Bool.not_false, decide_true, Bool.and_self, if_true]
  case tx =>
    rintro i a s t hp hk hd hs hb hbeg hw hen hprep hpsdu hlock rfl
    change execRfActTx i s = _
    simp only [execRfActTx, hp, hk, hd, hs, hb, hbeg, hw, hen, hprep, hpsdu, hlock, bne_self_eq_false, Bool.not_true, Bool.or_self,
      Bool.and_false, Bool.false_eq_true, if_false]
  case txWarned =>
    intro i a s hp hk hd hs hb hbeg hw
    change execRfActTx i s = _
    simp only [execRfActTx, hp, hk, hd, hs, hb, hbeg, hw, bne_self_eq_false, Bool.not_true, Bool.or_self, Bool.false_eq_true, if_false,
      if_true]
  case txMissed =>
    intro i a s hp hk hd hs hb hbeg hw hen hprep hpsdu hlock
    change execRfActTx i s = _
    simp only [execRfActTx, hp, hk, hd, hs, hb, hbeg, hw, hen, hprep, hpsdu, hlock, bne_self_eq_false, Bool.not_true, Bool.not_false,
      Bool.or_self, Bool.or_true, Bool.and_false, Bool.false_eq_true, if_false, if_true]
  case listen =>
    rintro i a s t hp hk hd hs hb hw hslot hen htx hack rfl
    exact congrArg Host.Outcome.next (s.rfActAtT_done i 1 a _ ⟨hp, hd, hs, hw⟩ hk hb (rfPerform_listen s a i hslot hk ⟨hen, htx, hack⟩))
  case idle =>
    rintro i a s t hp hk hd hs hb hw hslot hen htx hack rfl
    exact congrArg Host.Outcome.next (s.rfActAtT_done i 2 a _ ⟨hp, hd, hs, hw⟩ hk hb (rfPerform_idle s a i hslot hk ⟨hen, htx, hack⟩))
  case sleep =>
    rintro i a s t hp hk hd hs hb hw hslot hen htx hack rfl
    exact congrArg Host.Outcome.next (s.rfActAtT_done i 3 a _ ⟨hp, hd, hs, hw⟩ hk hb (rfPerform_sleep s a i hslot hk ⟨hen, htx, hack⟩))
  case channel =>
    rintro i a s t hp hk hd hs hb hw hslot hen htx hack rfl
    exact congrArg Host.Outcome.next (s.rfActAtT_done i 4 a _ ⟨hp, hd, hs, hw⟩ hk hb (rfPerform_channel s a i hslot hk ⟨hen, htx, hack⟩))

end Sys2Proof.Machine

/-! # Beacons, the parent and the actions of the mesh: O29 -/

namespace Sys2Proof.Machine

section Mesh
variable (s : State)

/-! ## The schedule of beacons (R173) -/

/-- From a count of 100 ms, the steps of `nextBeacon` lead to one that is in phase with the interval (R173). -/
theorem beaconCount_phase (u phase int : Nat) (h : 0 < int) : (u + (phase + (int - u % int)) % int) % int = phase % int := by
  have hu : u % int < int := Nat.mod_lt u h
  have hcancel : u % int + (phase + (int - u % int)) = phase + int := by omega
  calc (u + (phase + (int - u % int)) % int) % int
      = (u % int + (phase + (int - u % int))) % int := by rw [Nat.add_mod_mod, Nat.mod_add_mod]
    _ = phase % int := by rw [hcancel, Nat.add_mod_right]

/-- The next beacon of the schedule falls on a whole count of 100 ms. -/
theorem State.nextBeacon_whole : s.nextBeacon % 100000000 = 0 := Nat.mul_mod_left _ _

/-- The next beacon's count of 100 ms is BCN_PHASE modulo BCN_INT (R173). -/
theorem State.nextBeacon_phase (h : 0 < s.fld E4.bcnCfg 12 0) :
    s.nextBeacon / 100000000 % s.fld E4.bcnCfg 12 0 = s.fld E4.bcnCfg 28 16 % s.fld E4.bcnCfg 12 0 := by
  rw [State.nextBeacon, Nat.mul_div_cancel _ (by decide)]
  exact beaconCount_phase _ _ _ h

/-- The next beacon lies a lead time ahead. -/
theorem State.nextBeacon_ahead : s.now .e + (s.leadNs (.rf 6)).toNat ≤ s.nextBeacon := by
  unfold State.nextBeacon
  generalize s.now .e + (s.leadNs (.rf 6)).toNat = t
  have hceil : t ≤ (t + 99999999) / 100000000 * 100000000 := by omega
  exact Nat.le_trans hceil (Nat.mul_le_mul_right _ (Nat.le_add_right _ _))

/-! ## Beacons heard (R174, R175) -/

/-- A beacon of another PAN or protocol only ends the security check of its frame. -/
theorem exec_beaconRx_other (b : BeaconRx) (x : MeshAuth) (t : State) (h : s.takeAuth = some (x, t))
    (ho : b.proto ≠ 0xB7 ∨ x.pan ≠ s.fld E4.panId 15 0) : exec (.beaconRx b) s = .next t := by
  have hpass : (decide (b.proto ≠ 0xB7) || decide (x.pan ≠ s.fld E4.panId 15 0) || !s.isRouter) = true := by
    rcases ho with h | h <;> simp [h]
  change execBeaconRx b s = _
  simp only [execBeaconRx, h, hpass, if_true]

/-- A missed window of a joined node counts the miss and awaits the parent's next beacon; the third raises PARENT_LOST (R175). -/
theorem exec_beaconWindowEnd_missed (n : Nat) (u : State) (hn : u.fld E4.parentStat 23 20 + 1 = n) (hu : u = s.windowClose)
    (hj : u.parentState = psJoined) (hdue : u.mesh.parent.pred + u.bcnWindow ≤ u.now .e) (hw : u.mesh.parent.widened = 0) (t : State)
    (ht : t = ((u.bump E4.bcnCnt 31 16 1).onMesh (fun m =>
      { m with parent := { m.parent with pred := u.mesh.parent.pred + u.mesh.parent.bcnInt * 100000000 } })).setFld E4.parentStat 23 20
      n) :
    exec .beaconWindowEnd s = .next (if n = 3 then
      ((t.onMesh (fun m => { m with parent := { m.parent with widened := 3, grace := some (u.mono + secNs 600) } })).setParentState
        psWidened).raise E4.page 1 else t) := by
  have hlate : ¬ u.now .e < u.mesh.parent.pred + u.bcnWindow := Nat.not_lt.mpr hdue
  subst ht
  change execBeaconWindowEnd s = _
  simp only [execBeaconWindowEnd, ← hu, hn, hj, hw, hlate, beq_self_eq_true, Bool.true_or, Bool.not_true, decide_false, Bool.or_self,
    Bool.false_eq_true, Nat.lt_irrefl, if_false]
  split <;> rfl

/-! ## Actions of the mesh (R94, R198) -/

/-- A mesh action that runs on a running mesh, and that the mesh executes, is DONE. -/
theorem State.meshActAtT_done (i : Fin 2) (k : Nat) (a : PendAct) (t : State) (h : s.actRuns (.mesh i) a) (hk : bitsOf a.desc 2 0 = k)
    (ht : meshPerform a s = some t) : s.meshActAtT i k = t.endAct (.mesh i) stDone 0 false (!s.locked) false := by
  have hdone := s.actAtT_done (.mesh i) meshPerform a t h ht
  obtain ⟨hp, -⟩ := h
  simp only [State.meshActAtT, hp, hk, hdone, if_true]

theorem meshPerform_keySwitch (a : PendAct) (hk : bitsOf a.desc 2 0 = 0) (hon : s.meshOn = true) (hv : s.bit E4.keySel 8 = true) :
    meshPerform a s = some s.meshKeySwitch := by
  simp only [meshPerform, hon, hk, hv, Bool.not_true, Bool.false_eq_true, if_false, if_true]

theorem meshPerform_permitOn (a : PendAct) (hk : bitsOf a.desc 2 0 = 1) (hon : s.meshOn = true) :
    meshPerform a s = some (s.setBit E4.meshCfg 2 true) := by
  simp only [meshPerform, hon, hk, Bool.not_true, Bool.false_eq_true, if_false]

theorem meshPerform_permitOff (a : PendAct) (hk : bitsOf a.desc 2 0 = 2) (hon : s.meshOn = true) :
    meshPerform a s = some (s.setBit E4.meshCfg 2 false) := by
  simp only [meshPerform, hon, hk, Bool.not_true, Bool.false_eq_true, if_false]

/-- BEACON_NOW is carried out where its beacon is armed or was sent (R198). -/
theorem meshPerform_beaconNow (a : PendAct) (hk : bitsOf a.desc 2 0 = 3) (hon : s.meshOn = true)
    (hb : s.beaconArmed (s.actTime a) = true ∨ s.mesh.lastBcn = some (s.actTime a)) : meshPerform a s = some s := by
  have hb' : (s.beaconArmed (s.actTime a) || decide (s.mesh.lastBcn = some (s.actTime a))) = true := by
    rwa [Bool.or_eq_true, decide_eq_true_eq]
  simp only [meshPerform, hon, hk, hb', Bool.not_true, Bool.false_eq_true, if_false, if_true]

end Mesh

/-- Settles O29: beacons and the parent by their guards, the schedule by arithmetic, the actions by what the mesh does at T. -/
theorem meshParent : Obligations.MeshParent := by
  refine ⟨?beacon, ?schedule, ?extra, ?banked, ?other, ?parent, ?noWindow, ?missed, ?lost, ?address, ?overlap, ?keySwitch, ?permitOn,
    ?permitOff, ?beaconNow⟩
  case beacon =>
    intro t s hb hmin
    change execBeaconTx s = _
    simp only [execBeaconTx, hb, hmin, Bool.not_true, Bool.false_eq_true, if_false]
  case schedule =>
    exact fun s h => ⟨s.nextBeacon_whole, s.nextBeacon_phase h, s.nextBeacon_ahead⟩
  case extra =>
    rintro t0 room s hx hb hfree rfl
    have hslot : ((s.pendAct (.rf 6)).isSome && (s.pendAct (.rf 7)).isSome) = false := by
      rcases hfree with h | h <;> simp [Option.isNone_iff_eq_none.mp h]
    change execExtraBeacon s = _
    simp only [execExtraBeacon, hx, hb, hslot, Bool.not_true, Bool.or_self, Bool.false_eq_true, if_false]
  case banked =>
    rintro t s hb hon hfree hdue rfl
    have hdue' : s.mesh.bankBcn + secNs (s.fld E1.pmCfg 9 0) ≤ s.now .e + secNs (s.fld E1.pmCfg 9 0) := Nat.add_le_add_right hdue _
    change execBankedBeacon s = _
    simp only [execBankedBeacon, hb, hon, hfree, hdue', Option.isNone_none, decide_true, Bool.and_self, if_true]
  case other =>
    exact fun b x t s => exec_beaconRx_other s b x t
  case parent =>
    rintro b x t s u h hproto hpan hr hj hsrc rfl
    have hscan : psJoined ≠ psScanning := by decide
    have hwide : psJoined ≠ psWidened := by decide
    change execBeaconRx b s = _
    simp only [execBeaconRx, h, hproto, hpan, hr, hj, hsrc, hscan, hwide, ne_eq, not_true_eq_false, decide_false, Bool.not_true,
      Bool.or_self, beq_self_eq_true, Bool.true_or, decide_true, Bool.and_self, Bool.false_and, Bool.false_eq_true, if_false, if_true]
  case noWindow =>
    intro s h
    simp only [State.windowClose, h]
  case missed =>
    rintro u s t hu hj hdue hw rfl hn
    exact (exec_beaconWindowEnd_missed s _ u rfl hu hj hdue hw _ rfl).trans (congrArg Host.Outcome.next (if_neg hn))
  case lost =>
    rintro u s t hu hj hdue hw rfl hn
    exact (exec_beaconWindowEnd_missed s 3 u (by rw [hn]) hu hj hdue hw _ rfl).trans (congrArg Host.Outcome.next (if_pos rfl))
  case address =>
    intro g s hg hon hdue hj
    have hj' : (s.parentState != psJoined) = true := bne_iff_ne.mpr hj
    change execAddrLost s = _
    simp only [execAddrLost, hg, hon, hdue, hj', decide_true, Bool.and_self, if_true]
  case overlap =>
    intro p s hp hdue
    change execMeshKeyOverlapEnd s = _
    simp only [execMeshKeyOverlapEnd, hp, hdue, if_true]
  case keySwitch =>
    intro i a s hp hk hd hs hw hon hv
    exact congrArg Host.Outcome.next (s.meshActAtT_done i 0 a _ ⟨hp, hd, hs, hw⟩ hk (meshPerform_keySwitch s a hk hon hv))
  case permitOn =>
    intro i a s hp hk hd hs hw hon
    exact congrArg Host.Outcome.next (s.meshActAtT_done i 1 a _ ⟨hp, hd, hs, hw⟩ hk (meshPerform_permitOn s a hk hon))
  case permitOff =>
    intro i a s hp hk hd hs hw hon
    exact congrArg Host.Outcome.next (s.meshActAtT_done i 2 a _ ⟨hp, hd, hs, hw⟩ hk (meshPerform_permitOff s a hk hon))
  case beaconNow =>
    intro i a s hp hk hd hs hw hon hb
    exact congrArg Host.Outcome.next (s.meshActAtT_done i 3 a _ ⟨hp, hd, hs, hw⟩ hk (meshPerform_beaconNow s a hk hon hb))

end Sys2Proof.Machine

/-! # Calibration, sounding and the actions of a partition: O32 -/

namespace Sys2Proof.Machine

section PartCal
variable (s : State)

/-! ## Calibration (R209, R218) -/

/-- CAL_CMD on a partition that rests, with no armed action near, starts its steps at once. -/
theorem State.partCal_starts (r : Requester) (d : Nat) (w : Word) (set : BitVec 4) (h : s.direct r (D3.calCmd d) = true)
    (hm : s.memberOf d = none) (hrole : s.roleN d = .access) (hrest : s.pa d = paIdle ∨ s.pa d = paListen ∨ s.pa d = paSleep)
    (hset : set = if bitsOf w 3 0 = 0 then 0xF else BitVec.ofNat 4 (bitsOf w 3 0)) (hnear : s.paActWithin d (paCalNs set) = false) :
    s.partCal r d w = s.paCalStart d set := by
  have hrx : s.pa d ≠ paRx := by rcases hrest with h | h | h <;> rw [h] <;> decide
  have htx : s.pa d ≠ paTx := by rcases hrest with h | h | h <;> rw [h] <;> decide
  have hfree : s.paCalFree d set = true := by
    rw [State.paCalFree, hnear]
    rcases hrest with h | h | h <;> rw [h] <;> decide
  rw [State.partCal, s.partWrite_direct r d _ _ h hm]
  simp only [← hset, hrole, hrx, htx, hfree, bne_self_eq_false, decide_false, Bool.or_self, Bool.false_eq_true, if_false, if_true]

/-- CAL_CMD in RX or TX is CAL_BUSY. -/
theorem State.partCal_busy (r : Requester) (d : Nat) (w : Word) (h : s.direct r (D3.calCmd d) = true) (hm : s.memberOf d = none)
    (hbusy : s.pa d = paRx ∨ s.pa d = paTx) : s.partCal r d w = s.err (D3.page d) 0x0101 w := by
  have hb : (s.roleN d != .access || decide (s.pa d = paRx) || decide (s.pa d = paTx)) = true := by
    rcases hbusy with h | h <;> simp [h]
  rw [State.partCal, s.partWrite_direct r d _ _ h hm]
  simp only [hb, if_true]

/-- The RX IQ step alone, without failures, enters CAL_STAT and each tile's result and shows the chains (R218, R219). -/
theorem State.partCalRecord_rxIq (d : Nat) :
    s.partCalRecord d 2 [] = ((s.calDies d).foldl (fun a k => (List.range 4).foldl (fun b q => b.calTile 2 k q 0) a)
      (((s.onPart d (fun p => { p with cal := none })).setPa d paIdle).wr (D3.calStat d)
        (putBit (putFld (putFld (s.rd (D3.calStat d)) 3 0 2) 7 4 0) 10 false))).showChains d := by
  have h0 : (2 : BitVec 4).getLsbD 0 = false := rfl
  have h2 : (2 : BitVec 4).getLsbD 2 = false := rfl
  have hgood : (2 : BitVec 4).toNat = 2 := rfl
  have hbad : (0 : BitVec 4).toNat = 0 := rfl
  simp only [State.partCalRecord, List.foldl_nil, List.find?_nil, Option.map_none, Option.getD_none, steps_noFail, h0, h2, hgood, hbad,
    Bool.false_eq_true, if_false]

/-! ## Actions of a partition (R94, R228) -/

/-- The partition of a die can execute an action: it is enabled, and neither sends nor calibrates (R228). -/
def State.partReady (s : State) (d : Nat) : Prop := s.partOn d = true ∧ s.pa d ≠ paTx ∧ s.pa d ≠ paCal

theorem partPerform_channel (a : PendAct) (d : Fin 6) (i : Fin 8) (hslot : a.slot = .part d i) (hk : bitsOf a.desc 1 0 = 0)
    (htx : bitOf a.desc 31 = false) (h : s.partReady d.val) : partPerform a s = some (s.setPartChan d.val (clampChan a.extra)) := by
  obtain ⟨hon, hnotx, hnocal⟩ := h
  simp [partPerform, hslot, hk, htx, hon, hnotx, hnocal]

/-- The state to which an action of kind 1, 2 or 3 takes a partition. -/
def partActGoal (k : Nat) : Nat := if k = 1 then paListen else if k = 2 then paIdle else paSleep

/-- An action of kind LISTEN, IDLE or SLEEP preempts a reception, lets what waits go, and takes the partition to its state (R228). -/
theorem partPerform_goes (a : PendAct) (d : Fin 6) (i : Fin 8) (k : Nat) (hslot : a.slot = .part d i) (hk : bitsOf a.desc 1 0 = k)
    (hgoes : k = 1 ∨ k = 2 ∨ k = 3) (htx : bitOf a.desc 31 = false) (h : s.partReady d.val) :
    partPerform a s = some (s.paStopped d.val (((s.paPreempt d.val).ppduDropWait d.val 5).paGo d.val (partActGoal k))) := by
  obtain ⟨hon, hnotx, hnocal⟩ := h
  rcases hgoes with rfl | rfl | rfl <;> simp [partPerform, partActGoal, hslot, hk, htx, hon, hnotx, hnocal]

/-- An action of a partition that runs, and that the partition can execute, is DONE. -/
theorem State.partActAtT_done (d : Fin 6) (i : Fin 8) (k : Nat) (a : PendAct) (t : State) (h : s.actRuns (.part d i) a)
    (hk : bitsOf a.desc 1 0 = k) (htx : bitOf a.desc 31 = false) (hrole : s.role d = .access) (hr : s.partReady d.val)
    (ht : partPerform a s = some t) : s.partActAtT d i k = t.endAct (.part d i) stDone 0 false (!s.locked) false := by
  have hdone := s.actAtT_done (.part d i) partPerform a t h ht
  obtain ⟨hp, -⟩ := h
  obtain ⟨-, hnotx, -⟩ := hr
  simp only [State.partActAtT, hp, hk, htx, hrole, hnotx, hdone, ne_eq, not_true_eq_false, bne_self_eq_false, decide_false, Bool.or_self,
    Bool.and_false, Bool.false_eq_true, if_false]

/-- An action that meets a transmission of the partition waits for its end (R228). -/
theorem State.partActAtT_inTx (d : Fin 6) (i : Fin 8) (k : Nat) (a : PendAct) (hp : s.pendAct (.part d i) = some a)
    (hk : bitsOf a.desc 1 0 = k) (htx : bitOf a.desc 31 = false) (hrole : s.role d = .access) (hon : s.partOn d.val = true)
    (hpa : s.pa d.val = paTx) (hd : s.actDue a = true) :
    s.partActAtT d i k = s.onPart d.val (fun p => { p with blocked := addOnce p.blocked i }) := by
  simp only [State.partActAtT, hp, hk, htx, hrole, hon, hpa, hd, ne_eq, not_true_eq_false, bne_self_eq_false, decide_false, decide_true,
    Bool.or_self, Bool.and_self, Bool.false_eq_true, if_false, if_true]

end PartCal

/-- Settles O32: calibration and sounding by their guards, the actions by what the partition does at T. -/
theorem partitionCalibration : Obligations.PartitionCalibration := by
  refine ⟨?starts, ?busy, ?deferred, ?done, ?record, ?sounding, ?next, ?feedback, ?sounded, ?weights, ?age, ?channel, ?listen, ?idle, ?sleep,
    ?inTx⟩
  case starts =>
    intro r d w set s h hm hrole hrest hset hnear
    exact congrArg Host.Outcome.next (s.partCal_starts r d.val w set h hm hrole hrest hset hnear)
  case busy =>
    intro r d w s h hm hbusy
    exact congrArg Host.Outcome.next (s.partCal_busy r d.val w h hm hbusy)
  case deferred =>
    intro d set s hdef hfree
    change execPartCalDeferredStart d s = _
    simp only [execPartCalDeferredStart, hdef, hfree, if_true]
  case done =>
    rintro d fails set s u hrole hcal rfl hchan hwait
    change execPartCalDone d fails s = _
    simp only [execPartCalDone, hrole, if_false, State.partCalDone, hcal, hchan, hwait, Bool.false_eq_true]
  case record =>
    rintro d s t rfl
    exact s.partCalRecord_rxIq d
  case sounding =>
    intro d us l s hon hlock hrest hwait hsnd hl hlen
    have hl' : l.isEmpty = false := List.isEmpty_eq_false_iff.mpr hl
    change execSoundingStart d l us s = _
    simp only [execSoundingStart, hon, hlock, hrest, hwait, hsnd, hl', hlen, Option.isNone_none, Bool.not_false, decide_true, Bool.and_self,
      if_true]
  case next =>
    intro d next q s hq
    refine ⟨fun h => ?_, fun h => ?_⟩
    · simp only [State.soundNext, hq, h, if_true]
    · simp only [State.soundNext, hq, h, if_false]
  case feedback =>
    intro d sta rep q s hq hsta
    change execSoundingFeedback d sta rep s = _
    simp only [execSoundingFeedback, hq, hsta, Bool.not_true, Bool.false_eq_true, if_false, lineRecord]
  case sounded =>
    intro d q s hq
    change execSoundDone d s = _
    simp only [execSoundDone, hq, Option.isSome_some, if_true]
  case weights =>
    rintro d l s t hon hl hall rfl
    have hl' : l.isEmpty = false := List.isEmpty_eq_false_iff.mpr hl
    change execWeightsReady d l s = _
    simp only [execWeightsReady, hon, hl', hall, Bool.not_false, Bool.and_self, if_true]
  case age => exact fun d s => rfl
  case channel =>
    rintro d i a s t hp hslot hk htx hrole hon hnotx hnocal hd hs hw rfl
    exact congrArg Host.Outcome.next (s.partActAtT_done d i 0 a _ ⟨hp, hd, hs, hw⟩ hk htx hrole ⟨hon, hnotx, hnocal⟩
      (partPerform_channel s a d i hslot hk htx ⟨hon, hnotx, hnocal⟩))
  case listen =>
    rintro d i a s t hp hslot hk htx hrole hon hnotx hnocal hd hs hw rfl
    exact congrArg Host.Outcome.next (s.partActAtT_done d i 1 a _ ⟨hp, hd, hs, hw⟩ hk htx hrole ⟨hon, hnotx, hnocal⟩
      (partPerform_goes s a d i 1 hslot hk (.inl rfl) htx ⟨hon, hnotx, hnocal⟩))
  case idle =>
    rintro d i a s t hp hslot hk htx hrole hon hnotx hnocal hd hs hw rfl
    exact congrArg Host.Outcome.next (s.partActAtT_done d i 2 a _ ⟨hp, hd, hs, hw⟩ hk htx hrole ⟨hon, hnotx, hnocal⟩
      (partPerform_goes s a d i 2 hslot hk (.inr (.inl rfl)) htx ⟨hon, hnotx, hnocal⟩))
  case sleep =>
    rintro d i a s t hp hslot hk htx hrole hon hnotx hnocal hd hs hw rfl
    exact congrArg Host.Outcome.next (s.partActAtT_done d i 3 a _ ⟨hp, hd, hs, hw⟩ hk htx hrole ⟨hon, hnotx, hnocal⟩
      (partPerform_goes s a d i 3 hslot hk (.inr (.inr rfl)) htx ⟨hon, hnotx, hnocal⟩))
  case inTx =>
    intro d i a s hp hk htx hrole hon hpa hd
    exact congrArg Host.Outcome.next (s.partActAtT_inTx d i 1 a hp hk htx hrole hon hpa hd)

end Sys2Proof.Machine

/-! # TXOPs, reception, keys and the scheduler's actions: O35 -/

namespace Sys2Proof.Machine

section Exchanges
variable (s : State)

/-! ## Steps of a TXOP (R240, R241) -/

section Steps
variable (p : Fin 6) (us : Nat) (slot : Option (Fin 8)) (x : Txop) (rest : List Nat) (t : State) (hx : (s.ps p.val).txop = some x)
  (hp : x.prepared = false) (hlen : s.stepUs p.val x us ≠ 0)
  (ht : t = s.onPs p.val (fun q => { q with txop := some { x with prepared := true } }))
include hx hp hlen ht

/-- A DL step with time left is prepared and handed to the sequencer. -/
theorem exec_ppduPrepare_dl (hk : x.steps = 1 :: rest) :
    exec (.ppduPrepare p us slot) s = .next ((t.prepareDl p.val).ppduHand p (s.stepUs p.val x us) slot) := by
  change execPpduPrepare p us slot s = _
  simp only [execPpduPrepare, hx, hp, hk, hlen, ht, Bool.false_and, Bool.false_eq_true, if_false, if_true]

/-- A UL step with time left is counted and handed to the sequencer with its trigger. -/
theorem exec_ppduPrepare_ul (hk : x.steps = 2 :: rest) :
    exec (.ppduPrepare p us slot) s = .next ((((t.bump (C16.ppduCnt p.val) 31 16 1).onPs p.val (fun q =>
      { q with plan := { q.plan with bsrp := false } })).sendTrigger p.val x.plan).ppduHand p (s.stepUs p.val x us) slot) := by
  have h21 : ¬ (2 : Nat) = 1 := by decide
  change execPpduPrepare p us slot s = _
  simp only [execPpduPrepare, hx, hp, hk, hlen, h21, ht, Bool.false_and, Bool.false_eq_true, if_false, if_true]

/-- A step of acknowledgement with time left is handed to the sequencer. -/
theorem exec_ppduPrepare_ack (hk : x.steps = 3 :: rest) :
    exec (.ppduPrepare p us slot) s = .next (t.ppduHand p (s.stepUs p.val x us) slot) := by
  have h31 : ¬ (3 : Nat) = 1 := by decide
  have h32 : ¬ (3 : Nat) = 2 := by decide
  change execPpduPrepare p us slot s = _
  simp only [execPpduPrepare, hx, hp, hk, hlen, h31, h32, ht, Bool.false_and, Bool.false_eq_true, if_false]

end Steps

/-- A step with no time left cuts the TXOP (R241). -/
theorem exec_ppduPrepare_cut (p : Fin 6) (us : Nat) (slot : Option (Fin 8)) (k : Nat) (x : Txop) (rest : List Nat)
    (hx : (s.ps p.val).txop = some x) (hp : x.prepared = false) (hk : x.steps = k :: rest) (hk0 : k ≠ 0)
    (hlen : s.stepUs p.val x us = 0) : exec (.ppduPrepare p us slot) s = .next (s.txopCut p.val []) := by
  obtain ⟨j, rfl⟩ := Nat.exists_eq_succ_of_ne_zero hk0
  change execPpduPrepare p us slot s = _
  simp only [execPpduPrepare, hx, hp, hk, hlen, Bool.false_and, Bool.false_eq_true, if_false, if_true]

/-! ## Reordering (R254) -/

/-- A gap of REORDER_TO with one frame held is given up: the window moves to that frame and on (R254). -/
theorem exec_reorderTimeout_held (sta : Nat) (tid : Fin 8) (g k : Nat) (t : Station) (f : Frame) (ht : s.station sta = some t)
    (hg : (t.rxOf tid.val).gap = some g) (hdue : g + s.fld C16.asCfg 23 16 * 1000000 ≤ s.mono)
    (hheld : (t.rxOf tid.val).held = [(k, f)]) :
    exec (.reorderTimeout sta tid) s = .next (s.release (((List.range 6).find? (fun j => t.linked j)).getD 0) sta
      (((t.rxOf tid.val).moveTo k 4096).2.advance 4096).2
      (((t.rxOf tid.val).moveTo k 4096).1 ++ (((t.rxOf tid.val).moveTo k 4096).2.advance 4096).1)) := by
  have hover : ¬ s.mono < g + s.fld C16.asCfg 23 16 * 1000000 := Nat.not_lt.mpr hdue
  change execReorderTimeout sta tid s = _
  simp only [execReorderTimeout, ht, hg, hover, hheld, List.foldl_cons, List.foldl_nil, if_false]

/-! ## Actions of the scheduler (R94, R252, R255) -/

/-- A scheduler action that runs, and that the scheduler executes, is DONE. -/
theorem State.schedActAtT_done (i : Fin 8) (k : Nat) (a : PendAct) (t : State) (h : s.actRuns (.sched i) a) (hk : bitsOf a.desc 2 0 = k)
    (ht : schedPerform a s = some t) : s.schedActAtT i k = t.endAct (.sched i) stDone 0 false (!s.locked) false := by
  have hdone := s.actAtT_done (.sched i) schedPerform a t h ht
  obtain ⟨hp, -⟩ := h
  simp only [State.schedActAtT, hp, hk, hdone, ne_eq, not_true_eq_false, if_false]

theorem schedPerform_staKey (a : PendAct) (x : Station) (hk : bitsOf a.desc 2 0 = 0) (hx : s.station (actTarget a) = some x)
    (hv : x.nextValid = true) :
    schedPerform a s = some (s.onStation (actTarget a) (fun e => { e with keyCur := e.keyNext, nextValid := false })) := by
  simp only [schedPerform, hk, hx, hv, if_true]

theorem schedPerform_groupKey (a : PendAct) (hk : bitsOf a.desc 2 0 = 1) (hv : (s.gkey (actTarget a)).nextValid = true) :
    schedPerform a s = some (s.setGkey { s.gkey (actTarget a) with cur := (s.gkey (actTarget a)).next, nextValid := false }) := by
  simp only [schedPerform, hk, hv, if_true]

theorem schedPerform_twtEnable (a : PendAct) (hk : bitsOf a.desc 2 0 = 2) (hx : (s.twt (actTarget a)).isSome = true) :
    schedPerform a s = some (s.onTwt (actTarget a) (fun x => { x with armed := true })) := by
  simp only [schedPerform, hk, hx, if_true]

theorem schedPerform_twtDisable (a : PendAct) (hk : bitsOf a.desc 2 0 = 3) (hx : (s.twt (actTarget a)).isSome = true) :
    schedPerform a s = some (s.onTwt (actTarget a) (fun x => { x with armed := false, opened := none })) := by
  simp only [schedPerform, hk, hx, if_true]

theorem schedPerform_pause (a : PendAct) (hk : bitsOf a.desc 2 0 = 4) (hn : actTarget a < 6) (hon : s.partOn (actTarget a) = true) :
    schedPerform a s = some (s.schedPause (actTarget a)) := by
  simp only [schedPerform, hk, hn, hon, decide_true, Bool.and_self, if_true]

theorem schedPerform_resume (a : PendAct) (hk : bitsOf a.desc 2 0 = 5) (hn : actTarget a < 6) (hon : s.partOn (actTarget a) = true) :
    schedPerform a s = some (s.schedResume (actTarget a)) := by
  simp only [schedPerform, hk, hn, hon, decide_true, Bool.and_self, if_true]

end Exchanges

/-- Settles O35: the steps of a TXOP and reception by their guards, the actions by what the scheduler does at T. -/
theorem exchangesAndKeys : Obligations.ExchangesAndKeys := by
  refine ⟨?won, ?steps, ?cutStep, ?hand, ?ends, ?cut, ?tidDrop, ?mpdu, ?blockAck, ?reorder, ?groupKey, ?twtEnable, ?twtDisable, ?pause,
    ?resume, ?staKey⟩
  case won =>
    intro p s hst hroom hsteps
    have hsteps' : (s.planSteps p.val (s.ps p.val).plan).isEmpty = false := List.isEmpty_eq_false_iff.mpr hsteps
    change execTxopWon p s = _
    simp only [execTxopWon, hst, hroom, hsteps', decide_true, Bool.not_false, Bool.and_self, if_true]
  case steps =>
    rintro p us len slot x rest s t hx hp rfl hlen ht
    exact ⟨exec_ppduPrepare_dl s p us slot x rest t hx hp hlen ht, exec_ppduPrepare_ul s p us slot x rest t hx hp hlen ht,
      exec_ppduPrepare_ack s p us slot x rest t hx hp hlen ht⟩
  case cutStep =>
    exact fun p us slot k x rest s => exec_ppduPrepare_cut s p us slot k x rest
  case hand => exact fun p us i s => ⟨rfl, rfl⟩
  case ends =>
    rintro p x s t hx rfl
    change execTxopEnd p s = _
    simp only [execTxopEnd, hx]
  case cut =>
    rintro d again s t h rfl
    simp only [State.txopCut, h, if_true]
  case tidDrop =>
    intro p m t s ht hl hon htid
    change execMpduRx p m s = _
    simp only [execMpduRx, ht, hl, hon, htid, Bool.not_true, Bool.or_self, Bool.false_eq_true, if_false, if_true]
  case mpdu =>
    intro p m t s ht hl hon htid hba
    have hlow : ¬ 8 ≤ m.tid := Nat.not_le.mpr htid
    change execMpduRx p m s = _
    simp only [execMpduRx, ht, hl, hon, hlow, hba, Bool.not_true, Bool.or_self, Bool.false_eq_true, if_false]
  case blockAck =>
    intro p b t s ht
    change execBlockAckRx p b s = _
    simp only [execBlockAckRx, ht]
  case reorder =>
    rintro sta tid g k t x f s ht rfl hg hdue hheld
    exact exec_reorderTimeout_held s sta tid g k t f ht hg hdue hheld
  case groupKey =>
    rintro i a s t u hp hk hd hs hw hv rfl rfl
    exact congrArg Host.Outcome.next (s.schedActAtT_done i 1 a _ ⟨hp, hd, hs, hw⟩ hk (schedPerform_groupKey s a hk hv))
  case twtEnable =>
    rintro i a s t u hp hk hd hs hw hx rfl rfl
    exact congrArg Host.Outcome.next (s.schedActAtT_done i 2 a _ ⟨hp, hd, hs, hw⟩ hk (schedPerform_twtEnable s a hk hx))
  case twtDisable =>
    rintro i a s t u hp hk hd hs hw hx rfl rfl
    exact congrArg Host.Outcome.next (s.schedActAtT_done i 3 a _ ⟨hp, hd, hs, hw⟩ hk (schedPerform_twtDisable s a hk hx))
  case pause =>
    rintro i a s t u hp hk hd hs hw hn hon rfl rfl
    exact congrArg Host.Outcome.next (s.schedActAtT_done i 4 a _ ⟨hp, hd, hs, hw⟩ hk (schedPerform_pause s a hk hn hon))
  case resume =>
    rintro i a s t u hp hk hd hs hw hn hon rfl rfl
    exact congrArg Host.Outcome.next (s.schedActAtT_done i 5 a _ ⟨hp, hd, hs, hw⟩ hk (schedPerform_resume s a hk hn hon))
  case staKey =>
    rintro i a x s t u hp hk hd hs hw hx hv rfl rfl
    exact congrArg Host.Outcome.next (s.schedActAtT_done i 0 a _ ⟨hp, hd, hs, hw⟩ hk (schedPerform_staKey s a x hk hx hv))

end Sys2Proof.Machine

/-! # Backhaul heads and the actions of a direction: O37 -/

namespace Sys2Proof.Machine

section Heads
variable (s : State)

/-! ## Commands of a head (R261, R285, R289) -/

/-- A direct HEAD_CMD on a backhaul die has its act at an address outside the reserved ones (R261). -/
theorem State.headCmd_open (r : Requester) (d h : Nat) (w : Word) (act : State → State) (hd : s.direct r (D6B.headCmd d h) = true)
    (hrole : s.roleN d = .backhaul) (ha : 0x10 ≤ bitsOf w 22 16) : s.headCmd r d h w act = act s := by
  have hfree : ¬ bitsOf w 22 16 < 0x10 := Nat.not_lt.mpr ha
  rw [State.headCmd, s.cmdWrite_direct r _ _ hd]
  simp only [hrole, hfree, bne_self_eq_false, Bool.false_eq_true, if_false]

/-- A reserved address is recorded as HEAD_BUSY (R291). -/
theorem State.headCmd_reserved (r : Requester) (d h : Nat) (w : Word) (act : State → State) (hd : s.direct r (D6B.headCmd d h) = true)
    (hrole : s.roleN d = .backhaul) (ha : bitsOf w 22 16 < 0x10) :
    s.headCmd r d h w act = s.err (D6B.page d) 0x0101 (BitVec.ofNat 32 (bitsOf w 22 16)) := by
  rw [State.headCmd, s.cmdWrite_direct r _ _ hd]
  simp only [hrole, ha, bne_self_eq_false, Bool.false_eq_true, if_false, if_true]

/-! ## Actions of a direction (R94, R283, R288) -/

/-- An action other than DIR_ON that runs on a backhaul die, and that the die can execute, is DONE. -/
theorem State.bhActAtT_done (d : Fin 6) (i : Fin 8) (k : Nat) (a : PendAct) (t : State) (h : s.actRuns (.part d i) a)
    (hk : min (bitsOf a.desc 1 0) 2 = k) (hrole : s.role d = .backhaul)
    (hen : k = 1 → s.dirEnable (2 * d.val + bitsOf a.desc 4 4) ≠ none) (ht : bhPerform a s = some t) :
    s.bhActAtT d i k = t.endAct (.part d i) stDone 0 false (!s.locked) false := by
  have hdone := s.actAtT_done (.part d i) bhPerform a t h ht
  have hfw : (decide (k = 1) && s.actDue a && (s.dirEnable (2 * d.val + bitsOf a.desc 4 4)).isNone && s.dirHere (2 * d.val)) = false := by
    by_cases h1 : k = 1
    · rw [Option.isNone_eq_false_iff.mpr (Option.isSome_iff_ne_none.mpr (hen h1)), Bool.and_false, Bool.false_and]
    · rw [decide_eq_false h1, Bool.false_and, Bool.false_and, Bool.false_and]
  obtain ⟨hp, -⟩ := h
  simp only [State.bhActAtT, hp, hk, hrole, hfw, hdone, ne_eq, not_true_eq_false, bne_self_eq_false, decide_false, Bool.or_self,
    Bool.false_eq_true, if_false]

theorem bhPerform_channel (a : PendAct) (d : Fin 6) (i : Fin 8) (hslot : a.slot = .part d i) (hk : bitsOf a.desc 1 0 = 0)
    (h : s.dirHere (2 * d.val + bitsOf a.desc 4 4) = true) :
    bhPerform a s = some (s.setDirChan (2 * d.val + bitsOf a.desc 4 4)
      (putFld (s.rd (D7.dirChan d.val (dirHead (2 * d.val + bitsOf a.desc 4 4)))) 2 0 (clampN 1 6 (bitsOf a.desc 10 8)))) := by
  simp only [bhPerform, hslot, hk, h, Bool.not_true, Bool.false_eq_true, if_false]

theorem bhPerform_dirOn (a : PendAct) (d : Fin 6) (i : Fin 8) (hslot : a.slot = .part d i) (hk : bitsOf a.desc 1 0 = 1)
    (h : s.dirHere (2 * d.val + bitsOf a.desc 4 4) = true) : bhPerform a s = s.dirEnable (2 * d.val + bitsOf a.desc 4 4) := by
  simp only [bhPerform, hslot, hk, h, Bool.not_true, Bool.false_eq_true, if_false]

theorem bhPerform_dirOff (a : PendAct) (d : Fin 6) (i : Fin 8) (hslot : a.slot = .part d i) (hk : bitsOf a.desc 1 0 = 2)
    (h : s.dirHere (2 * d.val + bitsOf a.desc 4 4) = true) :
    bhPerform a s = some (s.setBit (dCfg (2 * d.val + bitsOf a.desc 4 4)) 31 false) := by
  simp only [bhPerform, hslot, hk, h, Bool.not_true, Bool.false_eq_true, if_false]

/-- A direction of a die that holds its image can be enabled (R375). -/
theorem State.dirEnable_held (n : Nat) (h : s.dirHere n = true) (hfw : s.acc.fw.getLsbD (dirDie n) = true) :
    s.dirEnable n =
      some { s.setBit (dCfg n) 31 true with acc := { s.acc with fw := s.acc.fw ||| BitVec.ofNat 6 (2 ^ dirDie n) } } := by
  simp only [State.dirEnable, h, hfw, Bool.not_true, Bool.false_and, Bool.false_eq_true, if_false]

end Heads

/-- Settles O37: the commands of a head by its address, alerts by their guards, the actions by what the direction does at T. -/
theorem backhaulHeads : Obligations.BackhaulHeads := by
  refine ⟨?write, ?read, ?reserved, ?alert, ?release, ?cal, ?channel, ?dirOn, ?dirOff⟩
  case write =>
    intro r d h w s hd hrole ha
    exact congrArg Host.Outcome.next (s.headCmd_open r d.val h.val w _ hd hrole ha)
  case read =>
    intro r d h w data s hd hrole ha
    exact congrArg Host.Outcome.next (s.headCmd_open r d.val h.val w _ hd hrole ha)
  case reserved =>
    intro r d h w s hd hrole ha
    exact congrArg Host.Outcome.next (s.headCmd_reserved r d.val h.val w _ hd hrole ha)
  case alert =>
    intro d s hhere hclear
    change execHeadAlert d s = _
    simp only [execHeadAlert, hhere, hclear, Bool.not_true, Bool.or_self, Bool.false_eq_true, if_false]
  case release =>
    intro d s hhere
    change execHeadAlertRelease d s = _
    simp only [execHeadAlertRelease, hhere, if_true]
  case cal =>
    intro r d w s hd hrole hsteps hhead
    refine congrArg Host.Outcome.next ((s.cmdWrite_direct r _ _ hd).trans ?_)
    simp only [hrole, hsteps, hhead, bne_self_eq_false, Bool.false_eq_true, if_false, if_true]
    rfl
  case channel =>
    rintro d i a n s t u hp hk hrole hd hs hw hslot rfl hhere rfl rfl
    exact congrArg Host.Outcome.next (s.bhActAtT_done d i 0 a _ ⟨hp, hd, hs, hw⟩ (by rw [hk]; rfl) hrole (fun h => absurd h (by decide))
      (bhPerform_channel s a d i hslot hk hhere))
  case dirOn =>
    rintro d i a n s t u hp hk hrole hd hs hw hslot rfl hhere hfw rfl rfl
    have hen := s.dirEnable_held _ hhere hfw
    exact congrArg Host.Outcome.next (s.bhActAtT_done d i 1 a _ ⟨hp, hd, hs, hw⟩ (by rw [hk]; rfl) hrole
      (fun _ => Option.ne_none_iff_exists'.mpr ⟨_, hen⟩) ((bhPerform_dirOn s a d i hslot hk hhere).trans hen))
  case dirOff =>
    rintro d i a n s t u hp hk hrole hd hs hw hslot rfl hhere rfl rfl
    exact congrArg Host.Outcome.next (s.bhActAtT_done d i 2 a _ ⟨hp, hd, hs, hw⟩ (by rw [hk]; rfl) hrole (fun h => absurd h (by decide))
      (bhPerform_dirOff s a d i hslot hk hhere))

end Sys2Proof.Machine

/-! # Members and actions of a cross-band link: O39 -/

namespace Sys2Proof.Machine

section Links
variable (s : State)

/-! ## Health of a member (R308 to R310) -/

/-- The state a report of a member leads from: the report is noted (R308). -/
def State.memReported (s : State) (l m : Nat) : State := s.onLink l (fun x => x.onMem m (fun y => { y with report := s.mono }))

/-- A report of a member with a condition standing takes it DOWN for that reason (R309). -/
theorem exec_memberHealthReport_down (l : Fin 8) (m : Fin 3) (miss cap n : Nat) (hl : s.linkOn l.val = true)
    (hm : linkHas (s.rd (C17.linkCfg l.val)) m.val = true) (hr : (s.memReported l.val m.val).downReason l.val m.val miss cap = some n) :
    exec (.memberHealthReport l m miss cap) s = .next ((s.memReported l.val m.val).memberDown l.val m.val n) := by
  unfold State.memReported at hr ⊢
  change execMemberHealthReport l m miss cap s = _
  simp only [execMemberHealthReport, hl, hm, hr, Bool.not_true, Bool.or_self, Bool.false_eq_true, if_false]

/-- A report of a DOWN member with no condition standing takes it to HOLDING (R309). -/
theorem exec_memberHealthReport_holds (l : Fin 8) (m : Fin 3) (miss cap : Nat) (hl : s.linkOn l.val = true)
    (hm : linkHas (s.rd (C17.linkCfg l.val)) m.val = true) (hr : (s.memReported l.val m.val).downReason l.val m.val miss cap = none)
    (hd : (s.memReported l.val m.val).mState l.val m.val = 1) :
    exec (.memberHealthReport l m miss cap) s = .next (((s.memReported l.val m.val).onLink l.val (fun x => x.onMem m.val (fun y =>
      { y with clear := s.mono }))).setMState l.val m.val 3) := by
  unfold State.memReported at hr hd ⊢
  change execMemberHealthReport l m miss cap s = _
  simp only [execMemberHealthReport, hl, hm, hr, hd, Bool.not_true, Bool.or_self, Bool.false_eq_true, if_false, if_true]

/-! ## Actions of a link (R94, R312, R315) -/

/-- A link action that runs, and that the link executes, is DONE. -/
theorem State.linkActAtT_done (i : Fin 8) (k : Nat) (a : PendAct) (t : State) (h : s.actRuns (.link i) a) (hk : bitsOf a.desc 1 0 = k)
    (ht : linkPerform a s = some t) : s.linkActAtT i k = t.endAct (.link i) stDone 0 false (!s.locked) false := by
  have hdone := s.actAtT_done (.link i) linkPerform a t h ht
  obtain ⟨hp, -⟩ := h
  simp only [State.linkActAtT, hp, hk, hdone, if_true]

theorem linkPerform_keySwitch (a : PendAct) (l : Nat) (hl : l = bitsOf a.desc 10 8) (hk : bitsOf a.desc 1 0 = 0)
    (hv : bitOf (s.rd (C17.keySel l)) 12 = true) :
    linkPerform a s = some (s.setKeySel l (bitsOf (s.rd (C17.keySel l)) 11 6 + bitsOf (s.rd (C17.keySel l)) 11 6 * 64)) := by
  simp only [linkPerform, ← hl, hk, hv, if_true]

theorem linkPerform_on (a : PendAct) (l : Nat) (hl : l = bitsOf a.desc 10 8) (hk : bitsOf a.desc 1 0 = 1)
    (hf : s.linkFault l (putBit (s.rd (C17.linkCfg l)) 31 true) = none) (hoff : s.bit (C17.linkCfg l) 31 = false) :
    linkPerform a s = some (s.linkStart l (putBit (s.rd (C17.linkCfg l)) 31 true)) := by
  simp only [linkPerform, ← hl, hk, hf, hoff, Bool.false_eq_true, if_false]

theorem linkPerform_off (a : PendAct) (l : Nat) (hl : l = bitsOf a.desc 10 8) (hk : bitsOf a.desc 1 0 = 2)
    (hon : s.bit (C17.linkCfg l) 31 = true) : linkPerform a s = some (s.linkStop l (s.rd (C17.linkCfg l))) := by
  simp only [linkPerform, ← hl, hk, hon, if_true]

end Links

/-- Settles O39: members by their guards and conditions, the actions by what the link does at T. -/
theorem linkMembers : Obligations.LinkMembers := by
  refine ⟨?keepalive, ?holds, ?down, ?silent, ?noReport, ?up, ?keySwitch, ?linkOn, ?linkOff⟩
  case keepalive =>
    intro l m s hl hm hhas
    change execKeepaliveDue l m s = _
    simp only [execKeepaliveDue, hl, hm, hhas, ne_eq, not_false_eq_true, decide_true, Bool.and_self, if_true]
  case holds =>
    rintro l m miss cap s t hl hm rfl hr hd
    exact exec_memberHealthReport_holds s l m miss cap hl hm hr hd
  case down =>
    rintro l m miss cap n s t hl hm rfl hr
    exact exec_memberHealthReport_down s l m miss cap n hl hm hr
  case silent =>
    intro l s hl hdue
    have h1 : (1 : Fin 3).val = 1 := rfl
    have h10 : ¬ (1 : Nat) = 0 := by decide
    change execMemberSilent l 1 s = _
    simp only [execMemberSilent, hl, h1, h10, hdue, ne_eq, not_false_eq_true, decide_true, Bool.and_self, if_true]
  case noReport =>
    intro l m s hl hdue
    change execMemberNoReport l m s = _
    simp only [execMemberNoReport, hl, hdue, decide_true, Bool.and_self, if_true]
  case up =>
    intro l m s hl hst hdue hr
    have hover : ¬ s.mono < ((s.link l.val).mem m.val).clear + s.upHold l.val m.val := Nat.not_lt.mpr hdue
    change execMemberUp l m s = _
    simp only [execMemberUp, hl, hst, hover, hr, ne_eq, not_true_eq_false, decide_false, Bool.not_true, Bool.or_self, Bool.false_eq_true,
      if_false]
  case keySwitch =>
    intro i a l s hp hk hd hs hw hl hv
    exact congrArg Host.Outcome.next (s.linkActAtT_done i 0 a _ ⟨hp, hd, hs, hw⟩ hk (linkPerform_keySwitch s a l hl hk hv))
  case linkOn =>
    intro i a l s hp hk hd hs hw hl hf hoff
    exact congrArg Host.Outcome.next (s.linkActAtT_done i 1 a _ ⟨hp, hd, hs, hw⟩ hk (linkPerform_on s a l hl hk hf hoff))
  case linkOff =>
    intro i a l s hp hk hd hs hw hl hon
    exact congrArg Host.Outcome.next (s.linkActAtT_done i 2 a _ ⟨hp, hd, hs, hw⟩ hk (linkPerform_off s a l hl hk hon))

end Sys2Proof.Machine

/-! # The signals towards the board: O58 -/

namespace Sys2Proof.Machine

section Signals
variable (s : State) (n c : Nat)

/-! ## The front end of a chain (R205 to R207, R260) -/

/-- The window that a PPDU sent to its end gives a chain (R206). -/
def State.feWindow (s : State) (n c : Nat) (t : PartTx) : FeWindow :=
  { start := t.start, stop := t.stop, ramp := s.feRampNs n c, lead := s.feLeadNs (s.leadOf n) }

/-- The die's partition sends one PPDU, with no earlier one ramping down and none of its chains muted (R206, R208). -/
structure State.SendsAlone (s : State) (n : Nat) (t : PartTx) : Prop where
  role : s.roleN n = .access
  tx : (s.part? (s.leadOf n)).tx = some t
  last : (s.part? (s.leadOf n)).last = none
  muted : t.muted = []

/-- A PPDU alone gives each chain that sends it one window, and the others none. -/
theorem State.feWindows_alone (t : PartTx) (h : s.SendsAlone n t) :
    s.feWindows n c = if t.sends n c then [s.feWindow n c t] else [] := by
  obtain ⟨hrole, htx, hlast, hmuted⟩ := h
  simp only [State.feWindows, hrole, htx, hlast, PartTx.windowOf, hmuted, Option.toList_some, Option.toList_none, List.append_nil,
    List.flatMap_cons, List.flatMap_nil, List.filter_nil, List.map_nil, State.feWindow]

/-- Of an unpowered die every front-end output is low, and VRAMP at 0 V (R205). -/
theorem State.fe_unpowered (h : s.feLive n = false) :
    s.feTxen n c = false ∧ s.fePaen n c = false ∧ s.feRxen n c = false ∧ s.feVramp n c = none ∧ s.feBand n = false ∧
      s.feCplrev n c = false := by
  simp only [State.feTxen, State.fePaen, State.feRxen, State.feVramp, State.feBand, State.feCplrev, h, Bool.false_and, Bool.false_eq_true,
    if_false, and_self]

/-- A chain with no window sends nothing. -/
theorem State.fe_noWindow (h : s.feWindows n c = []) : s.feTxen n c = false ∧ s.fePaen n c = false ∧ s.feVramp n c = none := by
  simp only [State.feTxen, State.fePaen, State.feVramp, h, List.any_nil, Bool.and_false, List.find?_nil, Option.map_none, ite_self, and_self]

theorem State.feTxen_window (w : FeWindow) (hl : s.feLive n = true) (h : s.feWindows n c = [w]) :
    s.feTxen n c = (decide (w.start ≤ s.mono + w.ramp + w.lead) && decide (s.mono < w.stop + w.ramp + 100)) := by
  simp only [State.feTxen, hl, h, List.any_cons, List.any_nil, Bool.or_false, Bool.true_and]

theorem State.fePaen_window (w : FeWindow) (hl : s.feLive n = true) (h : s.feWindows n c = [w]) :
    s.fePaen n c = (decide (w.start ≤ s.mono + w.ramp) && decide (s.mono < w.stop + w.ramp)) := by
  simp only [State.fePaen, hl, h, List.any_cons, List.any_nil, Bool.or_false, Bool.true_and]

/-- While PAEN is high, VRAMP stands at the nearest of its top, the ns since its ramp up began, and those to the end of its ramp down. -/
theorem State.feVramp_window (w : FeWindow) (hl : s.feLive n = true) (h : s.feWindows n c = [w]) (hp : s.fePaen n c = true) :
    s.feVramp n c = some (min w.ramp (min (s.mono + w.ramp - w.start) (w.stop + w.ramp - s.mono))) := by
  rw [s.fePaen_window n c w hl h] at hp
  simp only [State.feVramp, hl, h, if_true, List.find?_cons, hp, Option.map_some]

/-- TXEN begins no later than PAEN, and lasts 0.1 µs longer (R206). -/
theorem State.feTxen_of_fePaen (h : s.fePaen n c = true) : s.feTxen n c = true := by
  simp only [State.fePaen, State.feTxen, Bool.and_eq_true, List.any_eq_true, decide_eq_true_eq] at h ⊢
  obtain ⟨hl, w, hw, hstart, hstop⟩ := h
  exact ⟨hl, w, hw, by omega, by omega⟩

theorem State.feRxen_of_feTxen (h : s.feTxen n c = true) : s.feRxen n c = false := by
  rw [State.feRxen, h, Bool.not_true, Bool.and_false]

/-- BAND and CPLREV are signals of the access role (R260). -/
theorem State.feBand_feCplrev_backhaul (h : s.roleN n = .backhaul) : s.feBand n = false ∧ s.feCplrev n c = false := by
  have hrole : (s.roleN n == .access) = false := by rw [h]; rfl
  simp only [State.feBand, State.feCplrev, hrole, Bool.and_false, Bool.false_and, and_self]

/-- CPLREV follows the PPDU in progress, on the chains that send it (R207). -/
theorem State.feCplrev_sending (t : PartTx) (hl : s.feLive n = true) (hr : s.roleN n = .access)
    (ht : (s.part? (s.leadOf n)).tx = some t) :
    s.feCplrev n c = (t.sends n c && decide (20 ≤ t.us) && decide (t.start + t.us * 500 ≤ s.mono) && decide (s.mono < t.stop)) := by
  simp only [State.feCplrev, hl, hr, ht, beq_self_eq_true, Bool.true_and]

/-! ## PWM outputs (R466, R472) -/

theorem State.pwmActive_disabled (k : Nat) (h : s.bit E7.lampCfg (n + 2) = false) : s.pwmActive n k = 0 := by
  simp only [State.pwmActive, h, Bool.false_eq_true, if_false]

/-- Within 64 periods a PWM output is active for the ticks that its dither adds. -/
theorem State.pwmActive_enabled (k : Nat) (h : s.bit E7.lampCfg (n + 2) = true) (hk : k < 64) :
    s.pwmActive n k = s.pwmTicks n (k + 1) - s.pwmTicks n k := by
  simp only [State.pwmActive, h, if_true, Nat.mod_eq_of_lt hk]

theorem State.pwmTicks_mono {j k : Nat} (h : j ≤ k) : s.pwmTicks n j ≤ s.pwmTicks n k :=
  Nat.div_le_div_right (Nat.add_le_add_right (Nat.mul_le_mul_right _ (Nat.mul_le_mul_right _ (Nat.mul_le_mul_left 2 h))) _)

theorem State.pwmTicks_zero (h : 0 < s.fld (E7.outCfgPwm n) 15 0) : s.pwmTicks n 0 = 0 := by
  refine Nat.div_eq_of_lt ?_
  omega

/-- The active ticks of the first periods add up to those of the dither. -/
theorem State.pwmActive_sum (h : s.bit E7.lampCfg (n + 2) = true) (hf : 0 < s.fld (E7.outCfgPwm n) 15 0) (m : Nat) (hm : m ≤ 64) :
    (List.range m).foldl (fun a k => a + s.pwmActive n k) 0 = s.pwmTicks n m := by
  induction m with
  | zero => exact (s.pwmTicks_zero n hf).symm
  | succ m ih =>
    rw [List.range_succ, List.foldl_append, ih (by omega), List.foldl_cons, List.foldl_nil, s.pwmActive_enabled n m h (by omega)]
    exact Nat.add_sub_of_le (s.pwmTicks_mono n (Nat.le_succ m))

/-- `x / g` rounded to the nearest, times `g`, is within half of `g` from `x`. -/
theorem round_div_near (x g : Nat) (hg : 0 < g) :
    2 * (g * ((2 * x + g) / (2 * g))) ≤ 2 * x + g ∧ 2 * x < 2 * (g * ((2 * x + g) / (2 * g))) + g := by
  have hdiv := Nat.div_add_mod (2 * x + g) (2 * g)
  have hlt := Nat.mod_lt (2 * x + g) (Nat.mul_pos Nat.two_pos hg)
  rw [Nat.mul_assoc] at hdiv
  omega

/-- Over 64 periods the active ticks are those of the duty, to the nearest tick. -/
theorem State.pwmTicks_near (f : Nat) (h : f = s.fld (E7.outCfgPwm n) 15 0) (hf : 0 < f) :
    2 * (65535 * f * s.pwmTicks n 64) ≤ 2 * (64 * s.fld (E7.outNow (n + 2)) 15 0 * 40000000) + 65535 * f ∧
      2 * (64 * s.fld (E7.outNow (n + 2)) 15 0 * 40000000) < 2 * (65535 * f * s.pwmTicks n 64) + 65535 * f := by
  have hnear := round_div_near (64 * s.fld (E7.outNow (n + 2)) 15 0 * 40000000) (65535 * f) (by omega)
  simpa only [State.pwmTicks, ← h, Nat.mul_assoc] using hnear

end Signals

/-- Settles O58: the front end by the windows of its chains, the pins by their registers, and PWM by the sum of its dithered periods. -/
theorem frontEndSignals : Obligations.FrontEndSignals := by
  refine ⟨?unpowered, ?exclusive, ?backhaul, ?enables, ?vramp, ?cplrev, ?silent, ?held, ?powered, ?gpio, ?pwmOff, ?pwmMean, ?switch⟩
  case unpowered =>
    exact fun s n c => s.fe_unpowered n c
  case exclusive =>
    exact fun s n c => ⟨s.feRxen_of_feTxen n c, s.feTxen_of_fePaen n c⟩
  case backhaul =>
    exact fun s n c => s.feBand_feCplrev_backhaul n c
  case enables =>
    intro n c t s hr hl ht hlast hm hs
    have hw := s.feWindows_alone n c t ⟨hr, ht, hlast, hm⟩
    rw [if_pos hs] at hw
    exact ⟨s.feTxen_window n c _ hl hw, s.fePaen_window n c _ hl hw⟩
  case vramp =>
    intro n c t s hr hl ht hlast hm hs hp
    have hw := s.feWindows_alone n c t ⟨hr, ht, hlast, hm⟩
    rw [if_pos hs] at hw
    exact s.feVramp_window n c _ hl hw hp
  case cplrev =>
    intro n c t s hr hl ht hs
    rw [s.feCplrev_sending n c t hl hr ht, hs, Bool.true_and]
  case silent =>
    intro n c t s hr hl ht hlast hm hs
    have hw := s.feWindows_alone n c t ⟨hr, ht, hlast, hm⟩
    rw [hs, if_neg Bool.false_ne_true] at hw
    obtain ⟨htxen, hpaen, hvramp⟩ := s.fe_noWindow n c hw
    exact ⟨htxen, hpaen, hvramp, by simp only [s.feCplrev_sending n c t hl hr ht, hs, Bool.false_and]⟩
  case held =>
    intro s q h
    simp only [State.bypHold, State.sfpTxdis, h, Bool.false_and, Bool.not_false, Bool.true_or, and_self]
  case powered =>
    intro s q h
    simp only [State.bypHold, State.sfpTxdis, h, Bool.true_and, Bool.not_true, Bool.false_or, and_self]
  case gpio =>
    intro s n h
    refine ⟨fun hd => ?_, fun hd => ?_⟩
    · simp only [State.gpioDrive, h, hd, Bool.and_self, if_true]
    · simp only [State.gpioDrive, h, hd, Bool.and_false, Bool.false_eq_true, if_false]
  case pwmOff =>
    intro s n h
    simp only [State.pwmLevel, s.pwmActive_disabled n _ h, Nat.mul_zero, Nat.not_lt_zero, decide_false, Bool.xor_false]
  case pwmMean =>
    intro s n f t hen hf hpos hmax ht
    obtain ⟨hupper, hlower⟩ := s.pwmTicks_near n f hf hpos
    rw [s.pwmActive_sum n hen (hf ▸ hpos) 64 (Nat.le_refl _)] at ht
    rw [← ht] at hupper hlower
    omega
  case switch =>
    intro s h
    rw [State.sgTrsw, h, Bool.true_or]

end Sys2Proof.Machine

/-! # The crystals: O17 -/

namespace Sys2Proof.Machine

section Crystals
variable (s : State)

/-- Where the 40 MHz crystal has to run, OSC_STAT shows that it does (R106). -/
theorem State.oscSync_running (h : s.x40On = true) : s.oscSync.bit E1.oscStat 1 = true := by
  rw [State.oscSync, if_pos h, State.bit, State.rd_setBit, if_pos rfl, bitOf_putBit _ _ _ (by decide)]

/-- Of die E off or held in reset nothing runs; of a die that has ended its reset sequence it does. -/
theorem State.phase_done_runs (h : s.power.phase = .done) : (s.power.phase == .off || s.power.phase == .held) = false := by
  rw [h]; rfl

end Crystals

/-- Settles O17: each row by its guard; the crystal's users come and go by one operation, which OSC_STAT follows. -/
theorem crystals : Obligations.Crystals := by
  refine ⟨?started, ?failed, ?userStarts, ?userStops, ?usable, ?settled, fun s => s.oscSync_running⟩
  case started =>
    intro s h
    change execX32kStarted s = _
    simp only [execX32kStarted, s.phase_done_runs h, Bool.false_eq_true, if_false]
  case failed =>
    intro s h
    change execX32kFail s = _
    simp only [execX32kFail, h, Bool.not_true, Bool.false_eq_true, if_false]
  case userStarts =>
    rintro u s t h rfl
    change execXtal40Start u s = _
    simp only [execXtal40Start, s.phase_done_runs h, State.oscUser, Bool.false_eq_true, if_false, if_true]
  case userStops =>
    exact fun u s => rfl
  case usable =>
    intro s h
    change execX40mUsable s = _
    simp only [execX40mUsable, h, Bool.not_true, Bool.false_eq_true, if_false]
  case settled =>
    intro s h
    change execX40mSettled s = _
    simp only [execX40mSettled, h, Bool.not_true, Bool.false_eq_true, if_false]

end Sys2Proof.Machine

/-! # PWR_CMD: O18 -/

namespace Sys2Proof.Machine

section PowerCommands
variable (s : State)

/-- A PWR_CMD value with a defined CMD, its other fields within what that CMD allows, has no field at fault (R107). -/
theorem State.pwrBad_legal (v : Nat) (hcmd : 1 ≤ v % 16 ∧ v % 16 ≤ 5)
    (hen : v / 16 % 64 = 0 ∨ v % 16 = 3 ∧ v / 16 % 64 < 2 ^ radioDies s.part) (hsr : v / 1024 % 2 = 0 ∨ v % 16 < 4) (hz : v / 2048 = 0) :
    s.pwrBad v = none := by
  have h0 : ¬ v % 16 = 0 := by omega
  have h5 : ¬ 5 < v % 16 := by omega
  have hen' : ¬ (v / 16 % 64 ≠ 0 ∧ (v % 16 ≠ 3 ∨ 2 ^ radioDies s.part ≤ v / 16 % 64)) := by omega
  have hsr' : ¬ (v / 1024 % 2 = 1 ∧ 4 ≤ v % 16) := by omega
  simp only [State.pwrBad, Bool.and_eq_true, Bool.or_eq_true, decide_eq_true_eq, h0, h5, hen', hsr', hz, or_self, ne_eq, not_true_eq_false,
    if_false]

/-- The rows of PWR_CMD: a direct word whose halves agree is judged by its low half (R43, R107). -/
theorem State.pwrCmdRow (r : Requester) (hi : Half) (v : Nat) (h : s.direct r GLB.pwrCmd = true)
    (hg : guardOk (hi ++ BitVec.ofNat 16 v) = true) (hv : v < 2048) :
    s.guardWrite r GLB.pwrCmd (hi ++ BitVec.ofNat 16 v) (fun v t => t.pwrCmd r v) = s.pwrCmd r v := by
  rw [s.guardWrite_halves r _ hi _ _ h hg, BitVec.toNat_ofNat, Nat.mod_eq_of_lt (by omega)]

/-- A legal PWR_CMD of an engine is refused with its number (R107). -/
theorem State.pwrCmd_engine (n : Fin 16) (v : Nat) (hb : s.pwrBad v = none) :
    s.pwrCmd (.engine n) v = s.err GLB.page 0x0105 (BitVec.ofNat 32 n.val) := by
  simp only [State.pwrCmd, hb]

section Host
variable (r : Requester) (hr : ∀ n, r ≠ .engine n) (v : Nat) (hb : s.pwrBad v = none)
include hr hb

/-- The host's OFF with no transition in progress takes the word and powers down, in any state (R109, R110). -/
theorem State.pwrCmd_off (ht : s.power.trans = none) (hv : v % 16 = 4) :
    s.pwrCmd r v = (s.wr GLB.pwrCmd (BitVec.ofNat 32 v)).powerDown v := by
  have h45 : ¬ (4 : Nat) = 5 := by decide
  cases r with
  | engine n => exact absurd rfl (hr n)
  | pcie | spi | casc => simp only [State.pwrCmd, hb, ht, hv, h45, if_false, if_true]

/-- The host's EMBER, STANDBY or RUN with no transition in progress goes by the state in force (R109 to R112). -/
theorem State.pwrCmd_change (ht : s.power.trans = none) (hv : v % 16 < 4) (hp : s.pstate ≠ 4) :
    s.pwrCmd r v =
      if s.pstate = 1 then
        (if v % 16 = 1 then s.wr GLB.pwrCmd (BitVec.ofNat 32 v) else (s.wr GLB.pwrCmd (BitVec.ofNat 32 v)).kindleStart v)
      else if v % 16 = 1 then (s.wr GLB.pwrCmd (BitVec.ofNat 32 v)).powerDown v
      else (s.wr GLB.pwrCmd (BitVec.ofNat 32 v)).runChange v := by
  have h5 : ¬ v % 16 = 5 := by omega
  have h4 : ¬ v % 16 = 4 := by omega
  cases r with
  | engine n => exact absurd rfl (hr n)
  | pcie | spi | casc => simp only [State.pwrCmd, hb, ht, h5, h4, hp, Option.isSome_none, Bool.false_eq_true, if_false]

/-- The host's EMBER in EMBER only takes the word (R109). -/
theorem State.pwrCmd_ember_inEmber (ht : s.power.trans = none) (hv : v % 16 = 1) (hp : s.pstate = 1) :
    s.pwrCmd r v = s.wr GLB.pwrCmd (BitVec.ofNat 32 v) := by
  rw [s.pwrCmd_change r hr v hb ht (by omega) (by omega), if_pos hp, if_pos hv]

/-- The host's EMBER in STANDBY or RUN powers down (R110). -/
theorem State.pwrCmd_ember_running (ht : s.power.trans = none) (hv : v % 16 = 1) (hp : s.pstate = 2 ∨ s.pstate = 3) :
    s.pwrCmd r v = (s.wr GLB.pwrCmd (BitVec.ofNat 32 v)).powerDown v := by
  rw [s.pwrCmd_change r hr v hb ht (by omega) (by omega), if_neg (by omega), if_pos hv]

/-- The host's STANDBY or RUN in EMBER starts Kindle (R111). -/
theorem State.pwrCmd_kindle (ht : s.power.trans = none) (hv : v % 16 = 2 ∨ v % 16 = 3) (hp : s.pstate = 1) :
    s.pwrCmd r v = (s.wr GLB.pwrCmd (BitVec.ofNat 32 v)).kindleStart v := by
  rw [s.pwrCmd_change r hr v hb ht (by omega) (by omega), if_pos hp, if_neg (by omega)]

/-- The host's STANDBY or RUN in STANDBY or RUN changes what runs (R109, R112). -/
theorem State.pwrCmd_running (ht : s.power.trans = none) (hv : v % 16 = 2 ∨ v % 16 = 3) (hp : s.pstate = 2 ∨ s.pstate = 3) :
    s.pwrCmd r v = (s.wr GLB.pwrCmd (BitVec.ofNat 32 v)).runChange v := by
  rw [s.pwrCmd_change r hr v hb ht (by omega) (by omega), if_neg (by omega), if_neg (by omega)]

end Host

theorem b2n_le_one (b : Bool) : b2n b ≤ 1 := by cases b <;> decide

end PowerCommands

/-- Settles O18: each code is a legal word of its row, and is judged by the requester and the state in force. -/
theorem powerCommands : Obligations.PowerCommands := by
  refine ⟨?stays, ?ember, ?standby, ?run, ?toStandby, ?toRun, ?engine, ?off, ?reset⟩
  case stays =>
    intro r hi s h hg hr hp ht
    have hb := s.pwrBad_legal 1 (by decide) (.inl rfl) (.inl rfl) rfl
    exact congrArg Host.Outcome.next ((s.pwrCmdRow r hi 1 h hg (by decide)).trans (s.pwrCmd_ember_inEmber r hr 1 hb ht rfl hp))
  case ember =>
    intro r hi sr s h hg hr hp ht
    have hsr := b2n_le_one sr
    have hb := s.pwrBad_legal (1 + b2n sr * 1024) (by omega) (by omega) (by omega) (by omega)
    exact congrArg Host.Outcome.next ((s.pwrCmdRow r hi _ h hg (by omega)).trans
      (s.pwrCmd_ember_running r hr _ hb ht (by omega) hp))
  case standby =>
    intro r hi s h hg hr hp ht
    have hb := s.pwrBad_legal 2 (by decide) (.inl rfl) (.inl rfl) rfl
    exact congrArg Host.Outcome.next ((s.pwrCmdRow r hi 2 h hg (by decide)).trans (s.pwrCmd_kindle r hr 2 hb ht (.inl rfl) hp))
  case run =>
    intro r hi en s h hg hr hen hp ht
    have hlt := en.isLt
    have htarget : (3 + en.toNat * 16) % 16 = 3 := by omega
    have hb := s.pwrBad_legal (3 + en.toNat * 16) (by omega) (.inr ⟨htarget, by omega⟩) (by omega) (by omega)
    refine congrArg Host.Outcome.next ((s.pwrCmdRow r hi (3 + en.toNat * 16) h hg (by omega)).trans
      ((s.pwrCmd_kindle r hr _ hb ht (.inr htarget) hp).trans ?_))
    rw [State.kindleStart, htarget]
    rfl
  case toStandby =>
    intro r hi sr s h hg hr hp ht
    have hsr := b2n_le_one sr
    have hb := s.pwrBad_legal (2 + b2n sr * 1024) (by omega) (by omega) (by omega) (by omega)
    exact congrArg Host.Outcome.next ((s.pwrCmdRow r hi _ h hg (by omega)).trans (s.pwrCmd_running r hr _ hb ht (by omega) hp))
  case toRun =>
    intro r hi en sr s h hg hr hen hp ht
    have hlt := en.isLt
    have hsr := b2n_le_one sr
    have hb := s.pwrBad_legal (3 + en.toNat * 16 + b2n sr * 1024) (by omega) (.inr ⟨by omega, by omega⟩) (by omega) (by omega)
    exact congrArg Host.Outcome.next ((s.pwrCmdRow r hi _ h hg (by omega)).trans (s.pwrCmd_running r hr _ hb ht (by omega) hp))
  case engine =>
    intro n hi s h hg
    have hb := s.pwrBad_legal 5 (by decide) (.inl rfl) (.inl rfl) rfl
    exact congrArg Host.Outcome.next ((s.pwrCmdRow (.engine n) hi 5 h hg (by decide)).trans (s.pwrCmd_engine n 5 hb))
  case off =>
    intro r hi s h hg hr ht
    have hb := s.pwrBad_legal 4 (by decide) (.inl rfl) (.inl rfl) rfl
    exact congrArg Host.Outcome.next ((s.pwrCmdRow r hi 4 h hg (by decide)).trans (s.pwrCmd_off r hr 4 hb ht rfl))
  case reset =>
    intro r hi s h hg hr
    have hb := s.pwrBad_legal 5 (by decide) (.inl rfl) (.inl rfl) rfl
    refine congrArg Host.Outcome.next ((s.pwrCmdRow r hi 5 h hg (by decide)).trans ?_)
    cases r with
    | engine n => exact absurd rfl (hr n)
    | pcie | spi | casc => simp only [State.pwrCmd, hb, Nat.reduceMod, if_true]

end Sys2Proof.Machine

/-! # Resets and self-test: O20 -/

namespace Sys2Proof.Machine

section SelfTest
variable (s : State)

/-- With no PWR_CMD in the cycle none is discarded (R118). -/
theorem State.preempted_none : s.preempted none = s := rfl

/-- A die with no standing failure passes (R120). -/
theorem State.verdictOf_pass (d : Die) : s.verdictOf d 0 = 1 := if_pos rfl

/-- The die's self-test has ended. -/
def State.testEnded (s : State) (d : Die) : State :=
  { s with power := { s.power with tests := s.power.tests.filter (fun (x : Die × Nat) => x.1 != d) } }

/-- What a die's self-test enters: its result registers and its verdict, which then acts (R120, R123, R127). -/
def State.testFound (s : State) (d : Die) (v : Nat) (result detail sliceFail : Word) (slices : Half) : State :=
  ((((s.testEnded d).wrs [(E2.stResult (dieIdx d).val, result), (E2.stDetail (dieIdx d).val, detail),
    (E2.stSliceFail (dieIdx d).val, sliceFail)]).setVerdict d v).verdictActs d v slices).testBoundary d

/-- A report with no standing failure passes, with the repeated failures noted (R119, R127). -/
theorem exec_selftestDone_pass (die : Die) (rep : TestReport) (cmd : Option Word) (h : s.testing die = true) (hs : rep.standing = 0) :
    exec (.selftestDone die rep cmd) s = .next (s.testFound die 1
      (BitVec.ofNat 32 (1 + b2n (rep.first != 0) * 256 + min rep.dur 65535 * 65536))
      (BitVec.ofNat 32 (if rep.first = 0 then 0 else testCode die rep.first + rep.inst % 256 * 256 + rep.location % 65536 * 65536))
      0 rep.slices) := by
  have h13 : ¬ (1 : Nat) = 3 := by decide
  have hslice : (0 : BitVec 4).getLsbD 3 = false := rfl
  have hcount : (0 : BitVec 4).toNat * 16 = 0 := rfl
  have hess : b2n false * 1024 = 0 := rfl
  have hfirst : rep.first ||| (0 : BitVec 4) = rep.first := BitVec.or_zero
  change execSelftestDone die rep cmd s = _
  simp only [execSelftestDone, h, hs, s.verdictOf_pass, h13, hslice, hcount, hess, hfirst, bne_self_eq_false, Bool.and_false,
    Bool.false_and, Bool.not_true, Bool.false_eq_true, if_false, if_true, State.preempted_none, Nat.add_zero]
  rfl

/-- A report with standing failures enters the verdict over them; a FAIL discards the PWR_CMD of its cycle (R118, R120, R127). -/
theorem exec_selftestDone_standing (die : Die) (rep : TestReport) (cmd : Option Word) (h : s.testing die = true)
    (hs : rep.standing ≠ 0) :
    exec (.selftestDone die rep cmd) s = .next ((s.testFound die (s.verdictOf die rep.standing)
      (BitVec.ofNat 32 (s.verdictOf die rep.standing + rep.standing.toNat * 16 + 256 + b2n (die == Die.c && rep.essential) * 1024 +
        min rep.dur 65535 * 65536))
      (BitVec.ofNat 32 (testCode die rep.standing + rep.inst % 256 * 256 + rep.location % 65536 * 65536))
      (if rep.standing.getLsbD 3 then rep.slices.setWidth 32 else 0) rep.slices).preempted
        (if s.verdictOf die rep.standing = 3 then cmd else none)) := by
  have hne : (rep.standing != 0) = true := bne_iff_ne.mpr hs
  have hany : (rep.first ||| rep.standing != 0) = true := bne_iff_ne.mpr fun h0 => hs (BitVec.or_eq_zero_iff.mp h0).2
  have hone : b2n true * 256 = 256 := rfl
  change execSelftestDone die rep cmd s = _
  simp only [execSelftestDone, h, hs, hne, hany, hone, Bool.and_true, Bool.not_true, Bool.false_eq_true, if_false]
  rfl

/-- A die that has not reported 180 ms after its release fails (R119). -/
theorem exec_selftestTimeout_due (die : Die) (x : Die × Nat) (cmd : Option Word)
    (h : s.power.tests.find? (fun (y : Die × Nat) => y.1 == die) = some x) (hdue : x.2 + 180000000 ≤ s.mono) :
    exec (.selftestTimeout die cmd) s = .next ((s.testFound die 3
      (BitVec.ofNat 32 (3 + 512 + b2n (die == Die.c) * 1024 + 18000 * 65536)) 0 0 0).preempted cmd) := by
  have hover : ¬ s.mono < x.2 + 180000000 := Nat.not_lt.mpr hdue
  change execSelftestTimeout die cmd s = _
  simp only [execSelftestTimeout, h, hover, if_false]
  rfl

end SelfTest

/-- Settles O20: resets and lost supplies by their guards, and each report by what it found. -/
theorem resetsAndSelfTest : Obligations.ResetsAndSelfTest := by
  refine ⟨?por, ?resetN, ?supplyE, ?release, ?supplyC, ?supplyD, ?unmonitored, ?repeated, ?standing, ?clean, ?timeout⟩
  case por =>
    exact fun s => rfl
  case resetN =>
    intro lowNs cmd s hlow
    have hlong : ¬ lowNs < 10000 := Nat.not_lt.mpr hlow
    change execResetN lowNs cmd s = _
    simp only [execResetN, hlong, if_false, State.deviceReset]
  case supplyE =>
    intro us mv cmd s hon
    change execSupplyE us mv cmd s = _
    simp only [execSupplyE, hon, Bool.not_true, Bool.false_eq_true, if_false, State.deviceReset]
  case release =>
    rintro s t h rfl
    change execDieERelease s = _
    simp only [execDieERelease, h, ne_eq, not_true_eq_false, if_false]
  case supplyC =>
    intro us mv cmd s hup
    change execSupplyC us mv cmd s = _
    simp only [execSupplyC, hup, Bool.not_true, Bool.false_eq_true, if_false]
  case supplyD =>
    intro d m us mv cmd s hrel hm
    obtain rfl : m = ⟨d.val + 2, Nat.add_lt_add_right d.isLt 2⟩ := Fin.ext hm
    change execSupplyD d us mv cmd s = _
    simp only [execSupplyD, hrel, Bool.not_true, Bool.false_eq_true, if_false]
  case unmonitored =>
    intro us mv cmd d s he hc hd
    refine ⟨?_, ?_, ?_⟩
    · change execSupplyE us mv cmd s = _
      simp only [execSupplyE, he, Bool.not_false, if_true]
    · change execSupplyC us mv cmd s = _
      simp only [execSupplyC, hc, Bool.not_false, if_true]
    · change execSupplyD d us mv cmd s = _
      simp only [execSupplyD, hd, Bool.not_false, if_true]
  case repeated =>
    intro die rep cmd s h hs hf
    have hfirst : (rep.first != 0) = true := bne_iff_ne.mpr hf
    rw [exec_selftestDone_pass s die rep cmd h hs, hfirst, if_neg hf]
    rfl
  case standing =>
    exact fun die rep cmd s h hs => exec_selftestDone_standing s die rep cmd h hs
  case clean =>
    intro die rep cmd s h hs hf
    rw [exec_selftestDone_pass s die rep cmd h hs, hf, if_pos rfl]
    rfl
  case timeout =>
    exact fun die x cmd s h hdue => exec_selftestTimeout_due s die x cmd h hdue

end Sys2Proof.Machine

/-! # The commands of the sub-GHz radio: O23 -/

namespace Sys2Proof.Machine

section RadioCommands
variable (s : State)

/-! ## RF_CMD by what the radio does (R149, R160, R161) -/

/-- A direct RF_CMD acts where the radio is enabled and in a state that allows the command. -/
theorem State.rfCmd_allowed (r : Requester) (code : Nat) (ok : Nat → Bool) (act : State → State) (h : s.direct r E3.rfCmd = true)
    (hen : s.sgEnabled = true) (hok : ok s.sg = true) : s.rfCmd r code ok act = act s := by
  simp only [State.rfCmd, s.cmdWrite_direct r _ _ h, hen, hok, Bool.and_self, if_true]

/-- A direct RF_CMD that the radio's state, or its being disabled, does not allow is CMD_BUSY with its code. -/
theorem State.rfCmd_busy (r : Requester) (code : Nat) (ok : Nat → Bool) (act : State → State) (h : s.direct r E3.rfCmd = true)
    (hno : s.sgEnabled = false ∨ ok s.sg = false) :
    s.rfCmd r code ok act = s.err E3.page 0x0105 (BitVec.ofNat 32 code) := by
  have hbusy : (s.sgEnabled && ok s.sg) = false := (Bool.and_eq_false_iff ..).mpr hno
  simp only [State.rfCmd, s.cmdWrite_direct r _ _ h, hbusy, Bool.false_eq_true, if_false]

/-- The radio is free for a command in SLEEP, IDLE, SETTLE and LISTEN. -/
theorem sgFree_iff (st : Nat) : sgFree st = true ↔ st ≤ 3 := decide_eq_true_iff

theorem sgFree_eq_false (st : Nat) (h : 4 ≤ st) : sgFree st = false := decide_eq_false (Nat.not_le.mpr h)

/-- A command that needs a free radio acts in SLEEP, IDLE, SETTLE and LISTEN. -/
theorem State.rfCmd_free (r : Requester) (code : Nat) (act : State → State) (h : s.direct r E3.rfCmd = true)
    (hen : s.sgEnabled = true) (hsg : s.sg ≤ 3) : s.rfCmd r code sgFree act = act s :=
  s.rfCmd_allowed r code sgFree act h hen ((sgFree_iff _).mpr hsg)

/-- The trim may change in the states in which the radio rests: IDLE, LISTEN and SLEEP (R143). -/
theorem State.sgTrimmable_iff : s.sgTrimmable = true ↔ s.sg = sgIdle ∨ s.sg = sgListen ∨ s.sg = sgSleep := by
  simp only [State.sgTrimmable, Bool.or_eq_true, beq_iff_eq, or_assoc]

/-- A radio that rests is free for a command. -/
theorem State.sg_le_of_rests (h : s.sg = sgIdle ∨ s.sg = sgListen ∨ s.sg = sgSleep) : s.sg ≤ 3 := by
  rcases h with h | h | h <;> rw [h] <;> decide

/-- A calibration requested of a radio that rests starts where no armed action is near (R154). -/
theorem State.sgCalRequest_starts (set : BitVec 7) (h : s.sg = sgIdle ∨ s.sg = sgListen ∨ s.sg = sgSleep)
    (hnear : s.sgActWithin (sgCalNs set) = false) : s.sgCalRequest set = s.sgCalStart set := by
  have hrest : (s.sg == sgIdle || s.sg == sgListen || s.sg == sgSleep) = true := s.sgTrimmable_iff.mpr h
  simp only [State.sgCalRequest, hrest, hnear, Bool.not_false, Bool.and_self, if_true]

/-! ## ABORT by what it ends (R148) -/

section Abort
variable (r : Requester) (h : s.direct r E3.rfCmd = true) (hen : s.sgEnabled = true)
include h hen

/-- In LISTEN an ABORT only leaves the state. -/
theorem State.rfAbort_listen (done : Bool) (hsg : s.sg = sgListen) : s.rfAbort r done = s.sgToIdle := by
  rw [State.rfAbort, s.rfCmd_allowed r 8 _ _ h hen (by rw [hsg]; rfl), hsg]
  rfl

/-- A reception that owes no acknowledgement ends as ABORTED. -/
theorem State.rfAbort_rx (hsg : s.sg = sgRxSt) (hack : s.sub.ackDue = false) :
    s.rfAbort r false = ((s.sgDropRx 4).sgToIdle).sgTxWaiting := by
  rw [State.rfAbort, s.rfCmd_allowed r 8 _ _ h hen (by rw [hsg]; rfl), hsg, hack]
  rfl

/-- A transmission ends as ABORTED, unless its completion has come first. -/
theorem State.rfAbort_tx (done : Bool) (hsg : s.sg = sgTxSt) :
    s.rfAbort r done = if done then s.setBit E3.txStat 8 true else s.sgTxFinish 5 0 := by
  rw [State.rfAbort, s.rfCmd_allowed r 8 _ _ h hen (by rw [hsg]; rfl), hsg]
  rfl

/-- A calibration is cut after its step, and nothing waits for its end any more. -/
theorem State.rfAbort_cal (done : Bool) (hsg : s.sg = sgCalSt) : s.rfAbort r done = s.sgDropWait.sgCalCut := by
  rw [State.rfAbort, s.rfCmd_allowed r 8 _ _ h hen (by rw [hsg]; rfl), hsg]
  rfl

end Abort

end RadioCommands

/-- Settles O23: an allowed command has its own effect, by the radio's state; one that is not allowed is CMD_BUSY. -/
theorem radioCommands : Obligations.RadioCommands := by
  refine ⟨?sleep, ?idle, ?listen, ?txNow, ?cal, ?retune, ?ed, ?abortListen, ?trimNow, ?trimLater, ?abortRx, ?abortTx, ?abortCal, ?busy,
    ?disabled⟩
  case sleep =>
    exact fun r s h hen hsg => congrArg Host.Outcome.next (s.rfCmd_free r 1 _ h hen hsg)
  case idle =>
    exact fun r s h hen hsg => congrArg Host.Outcome.next (s.rfCmd_free r 2 _ h hen hsg)
  case listen =>
    exact fun r s h hen hsg => congrArg Host.Outcome.next (s.rfCmd_free r 3 _ h hen hsg)
  case txNow =>
    intro r s h hen hsg
    have hok : (sgFree s.sg || s.sg == sgCalSt) = true := by rw [(sgFree_iff _).mpr hsg, Bool.true_or]
    exact congrArg Host.Outcome.next (s.rfCmd_allowed r 4 (fun st => sgFree st || st == sgCalSt) _ h hen hok)
  case cal =>
    rintro r set k s h hen hsg rfl hnear
    refine congrArg Host.Outcome.next ((s.rfCmd_free r 5 _ h hen (s.sg_le_of_rests hsg)).trans ?_)
    exact s.sgCalRequest_starts _ hsg hnear
  case retune =>
    intro r s h hen hsg hnear
    refine congrArg Host.Outcome.next ((s.rfCmd_free r 6 _ h hen (s.sg_le_of_rests hsg)).trans ?_)
    exact s.sgCalRequest_starts _ hsg hnear
  case ed =>
    intro r s h hen hsg
    have hok : (s.sg == sgSleep || s.sg == sgIdle || s.sg == sgListen) = true := by
      rcases hsg with hsg | hsg | hsg <;> rw [hsg] <;> rfl
    exact congrArg Host.Outcome.next (s.rfCmd_allowed r 7 (fun st => st == sgSleep || st == sgIdle || st == sgListen) _ h hen hok)
  case abortListen =>
    exact fun r done s h hen hsg => congrArg Host.Outcome.next (s.rfAbort_listen r h hen done hsg)
  case trimNow =>
    intro r s h hen htrim
    exact congrArg Host.Outcome.next ((s.rfCmd_allowed r 9 (fun _ => true) _ h hen rfl).trans (if_pos htrim))
  case trimLater =>
    intro r s h hen htrim
    exact congrArg Host.Outcome.next
      ((s.rfCmd_allowed r 9 (fun _ => true) _ h hen rfl).trans (if_neg (Bool.eq_false_iff.mp htrim)))
  case abortRx =>
    exact fun r s h hen hsg hack => congrArg Host.Outcome.next (s.rfAbort_rx r h hen hsg hack)
  case abortTx =>
    exact fun r done s h hen hsg => congrArg Host.Outcome.next (s.rfAbort_tx r h hen done hsg)
  case abortCal =>
    exact fun r done s h hen hsg => congrArg Host.Outcome.next (s.rfAbort_cal r h hen done hsg)
  case busy =>
    intro r set s h hen hsg
    have hbusy (code : Nat) (act : State → State) : (.next (s.rfCmd r code sgFree act) : Host.Outcome State Fault Refusal) =
        .next (s.err E3.page 0x0105 (BitVec.ofNat 32 code)) :=
      congrArg Host.Outcome.next (s.rfCmd_busy r code sgFree act h (.inr (sgFree_eq_false _ hsg)))
    exact ⟨hbusy 1 _, hbusy 2 _, hbusy 3 _, hbusy 5 _, hbusy 6 _⟩
  case disabled =>
    exact fun r s h hen => congrArg Host.Outcome.next (s.rfCmd_busy r 2 sgFree _ h (.inl hen))

end Sys2Proof.Machine

/-! # Reception by the sub-GHz radio: O24 -/

namespace Sys2Proof.Machine

section Reception
variable (s : State)

/-! ## The end of a frame (R141, R143, R150) -/

/-- A frame's record raises RX_DONE where the ring has room, and without AFC no trim is noted (R141, R143). -/
theorem State.sgRxDone_room (x : SgRx) (e : SgRxEnd) (hafc : s.bit E3.afcCfg 0 = false)
    (hroom : (s.fld E3.rxRingHead 9 0 + 1) % s.fld E3.rxRingSize 10 0 ≠ s.fld E3.rxRingTail 9 0) :
    s.sgRxDone x e = (((s.onSub (fun y => { y with rx := none })).setFld E3.rfState 11 8 0).sgRecord x (if e.fcsOk then 0 else 1)
      (some e)).raise E3.page 0 := by
  have hfree : ((s.fld E3.rxRingHead 9 0 + 1) % s.fld E3.rxRingSize 10 0 == s.fld E3.rxRingTail 9 0) = false := beq_false_of_ne hroom
  simp only [State.sgRxDone, hfree, hafc, Bool.false_and, Bool.false_eq_true, if_false]

/-! ## The frequency trim (R143) -/

/-- The trim noted is made within TRIM_MAX where no clearing waits. -/
theorem execAfcTrimUpdate_move (m : Int) (hm : s.sub.trim = some m) (hclr : s.sub.trimClr = false) (htrim : s.sgTrimmable = true) :
    execAfcTrimUpdate s = .next ((s.wr E3.afcTrim (BitVec.ofInt 32 (clampI (-((s.fld E3.afcCfg 12 8 * 256 : Nat) : Int))
      ((s.fld E3.afcCfg 12 8 * 256 : Nat) : Int) ((s.rd E3.afcTrim).toInt + m)))).onSub (fun x => { x with trim := none })) := by
  simp only [execAfcTrimUpdate, htrim, hm, hclr, Bool.not_true, Bool.false_eq_true, if_false, Int.natCast_mul, Int.cast_ofNat_Int]

/-- A clearing that waited is made. -/
theorem execAfcTrimUpdate_clear (hm : s.sub.trim = none) (hclr : s.sub.trimClr = true) (htrim : s.sgTrimmable = true) :
    execAfcTrimUpdate s = .next ((s.wr E3.afcTrim 0).onSub (fun x => { x with trimClr := false })) := by
  simp only [execAfcTrimUpdate, htrim, hm, hclr, Bool.not_true, Bool.false_eq_true, if_false, if_true]

end Reception

/-- Settles O24: each row by its guards, which the hypotheses pass; the end of a frame by whether the MAC takes it. -/
theorem radioReception : Obligations.RadioReception := by
  refine ⟨?preamble, ?sync, ?syncTentative, ?header, ?capture, ?untaken, ?taken, ?record, ?ed, ?trim, ?trimClear, ?trimNot, ?unlockTx,
    ?unlockRx⟩
  case preamble =>
    intro k s hsg hk
    change execPreambleDetect k s = _
    simp only [execPreambleDetect, hsg, hk, beq_self_eq_true, Bool.and_self, if_true]
  case sync =>
    intro k rssi c s hsg hk
    change execSyncDetect k rssi c s = _
    simp only [execSyncDetect, hsg, hk, beq_self_eq_true, Bool.and_self, if_true]
  case syncTentative =>
    intro k rssi c x s hsg hx hconf hcorr hsync
    have hnot : (s.sg == sgListen) = false := by rw [hsg]; rfl
    change execSyncDetect k rssi c s = _
    simp only [execSyncDetect, hnot, hx, hconf, hcorr, hsync, bne_self_eq_false, decide_true, Bool.false_and, Bool.or_self,
      Bool.not_false, Bool.and_self, Bool.false_eq_true, if_false, if_true]
  case header =>
    intro p x s hx hconf hok
    change execRxHeader p s = _
    simp only [execRxHeader, hx, hconf, hok, Bool.false_eq_true, if_false, if_true]
  case capture =>
    intro k rssi c octets x s hx hconf hsearch hen hstrong hearly
    have hk : (x.corr == k.val || s.sgSearches k.val) = true := by simpa only [Bool.or_eq_true, beq_iff_eq] using hsearch
    change execCapture k rssi c octets s = _
    simp only [execCapture, hx, hconf, hk, hen, hstrong, hearly, decide_true, Bool.and_self, if_true]
  case untaken =>
    intro e x s hx hconf hno
    have hnot : (e.fcsOk && s.macTakes e.mac) = false := (Bool.and_eq_false_iff ..).mpr hno
    change execRxFrameEnd e s = _
    simp only [execRxFrameEnd, hx, hconf, hnot, Bool.not_true, Bool.false_eq_true, if_false]
  case taken =>
    rintro e x s t hx hconf hfcs hmac rfl
    change execRxFrameEnd e s = _
    simp only [execRxFrameEnd, hx, hconf, hfcs, hmac, Bool.not_true, Bool.and_self, Bool.false_eq_true, if_false, if_true]
    split <;> rfl
  case record =>
    exact fun e x s => s.sgRxDone_room x e
  case ed =>
    intro level s hsg hover
    change execEdDone level s = _
    simp only [execEdDone, hsg, hover, beq_self_eq_true, decide_true, Bool.and_self, if_true]
  case trim =>
    exact fun m s => execAfcTrimUpdate_move s m
  case trimClear =>
    exact fun s => execAfcTrimUpdate_clear s
  case trimNot =>
    intro s h
    change execAfcTrimUpdate s = _
    simp only [execAfcTrimUpdate, h, Bool.not_false, if_true]
  case unlockTx =>
    intro s hsg
    change execSynthUnlock s = _
    simp only [execSynthUnlock, hsg, beq_self_eq_true, Bool.or_true, if_true]
  case unlockRx =>
    intro s hsg
    have hnot : (sgRxSt == sgTxSt) = false := rfl
    change execSynthUnlock s = _
    simp only [execSynthUnlock, hsg, hnot, beq_self_eq_true, Bool.or_false, Bool.false_eq_true, if_false, if_true]

end Sys2Proof.Machine

/-! # The MAC of the mesh: O26 -/

namespace Sys2Proof.Machine

section MeshMac
variable (s : State)

/-! ## The frame-pending bit (R166, R180, R194) -/

/-- A sleepy child is told whether a frame waits for it. -/
theorem State.ackFor_sleepy (m : MacHdr) (c : MeshChild) (h : s.sleepyChild m.src = some c) (hb : s.banked = false) :
    s.ackFor m = { dest := m.src, dsn := m.dsn, pend := !(s.indFor m.src).isEmpty } := by
  simp only [State.ackFor, h, hb, Option.isSome_some, if_true, Bool.not_false, Bool.true_and]

/-- The Data Request (MAC command, type 3) of a stranger is told that a frame is pending. -/
theorem State.ackFor_stranger (m : MacHdr) (h : s.child m.src = none) (hs : s.sleepyChild m.src = none) (hb : s.banked = false) :
    s.ackFor m = { dest := m.src, dsn := m.dsn, pend := m.ftype == 3 } := by
  simp only [State.ackFor, h, hs, hb, Option.isSome_none, Option.isNone_none, Bool.false_eq_true, if_false, Bool.not_false,
    Bool.true_and, Bool.and_true]

theorem State.ackFor_banked (m : MacHdr) (hb : s.banked = true) : (s.ackFor m).pend = false := by
  simp only [State.ackFor, hb, Bool.not_true, Bool.false_and]

/-! ## The end of a backoff and of an acknowledgement's wait (R166, R192) -/

section Front
variable (t : MacTx) (q : List MacTx) (hq : s.mesh.txq = t :: q)
include hq

/-- A busy channel within MAX_BACKOFFS counts the backoff and raises the exponent, up to its maximum. -/
theorem execCsmaBackoffEnd_busy (energy : Int) (hp : t.phase = .backoff) (hbusy : sx 8 (s.fld E4.csmaCfg 23 16) ≤ energy)
    (hmax : t.backoffs + 1 ≤ s.fld E4.csmaCfg 10 8) :
    execCsmaBackoffEnd energy s = .next (s.onMesh (fun m =>
      { m with txq := { t with backoffs := t.backoffs + 1, be := min (t.be + 1) (s.fld E4.csmaCfg 7 4) } :: q })) := by
  have hmore : ¬ s.fld E4.csmaCfg 10 8 < t.backoffs + 1 := Nat.not_lt.mpr hmax
  simp only [execCsmaBackoffEnd, hq, hp, ne_eq, not_true_eq_false, hbusy, decide_true, Bool.true_or, if_true, hmore, if_false]

/-- On a clear channel, with the radio neither receiving nor transmitting, the frame is sent. -/
theorem execCsmaBackoffEnd_clear (energy : Int) (hp : t.phase = .backoff) (hclear : energy < sx 8 (s.fld E4.csmaCfg 23 16))
    (hrx : s.sg ≠ sgRxSt) (htx : s.sg ≠ sgTxSt) : execCsmaBackoffEnd energy s = .next s.macSend := by
  have hidle : (decide (sx 8 (s.fld E4.csmaCfg 23 16) ≤ energy) || s.sg == sgRxSt || s.sg == sgTxSt) = false := by
    simp [hclear, hrx, htx]
  simp only [execCsmaBackoffEnd, hq, hp, ne_eq, not_true_eq_false, hidle, Bool.false_eq_true, if_false]

/-- The Imm-Ack with the frame's DSN ends it as acknowledged. -/
theorem execMacAckRx_own (a b c dsn : Nat) (hp : t.phase = .ackWait) (hsealed : t.sealed = some (a, b, c, dsn)) :
    execMacAckRx dsn s = .next (s.macEnd 1) := by
  simp only [execMacAckRx, hq, hp, hsealed, Option.map_some, beq_self_eq_true, decide_true, Bool.and_self, if_true]

/-- A frame whose wait for its acknowledgement is over fails after MAX_RETRIES or without its key, and is else retried as it is. -/
theorem execAckTimeout_unanswered (hp : t.phase = .ackWait) (hover : t.since + s.ackWaitNs ≤ s.mono) :
    execAckTimeout s = .next (if s.fld E4.csmaCfg 14 12 < t.retries + 1 then s.macEnd 3
      else if t.gone then (s.txError 7 ((t.sealed.map Prod.fst).getD 0)).macEnd 7
      else s.onMesh (fun m => { m with txq :=
        { t with phase := .backoff, retries := t.retries + 1, backoffs := 0, be := s.fld E4.csmaCfg 3 0 } :: q })) := by
  simp only [execAckTimeout, hq, hp, hover, decide_true, Bool.and_self, Bool.true_or, if_true]
  split
  · rfl
  · split <;> rfl

theorem execAckTimeout_waiting (hp : t.phase = .ackWait) (hwait : s.mono < t.since + s.ackWaitNs) : execAckTimeout s = .next s := by
  have hearly : ¬ t.since + s.ackWaitNs ≤ s.mono := Nat.not_le.mpr hwait
  have hair : MacPhase.ackWait ≠ .air := by decide
  simp only [execAckTimeout, hq, hp, hearly, hair, decide_false, Bool.and_false, Bool.false_and, Bool.or_self, Bool.false_eq_true,
    if_false]

end Front

/-- The result KEY_GONE records its error with the erased slot (R199). -/
theorem State.txError_keyGone (info : Nat) : s.txError 7 info = s.err E4.page 0x0102 (BitVec.ofNat 32 info) := rfl

/-! ## The save of a frame counter (R125, R189) -/

/-- With no action prepared and no frame queued, a save that ends only changes the counter's record. -/
theorem execFcSaveDone_idle (slot : Fin 16) (v : Nat) (hv : (s.counterOf slot.val).saving = some v) (hw : s.supplyWarn .e = false)
    (hprep : s.sub.prepared = none) (hq : s.mesh.txq = []) :
    execFcSaveDone slot s = .next (s.setCounter { s.counterOf slot.val with saved := v, saving := none }) := by
  have hprep' (c : FrameCounter) : (s.setCounter c).sub.prepared = none := hprep
  have hq' (c : FrameCounter) : (s.setCounter c).mesh.txq = [] := hq
  simp only [execFcSaveDone, hv, hw, hprep', hq', Bool.false_eq_true, if_false]

end MeshMac

/-- Settles O26: the bit by who is acknowledged, the queue's first frame by its phase, its channel and its retries. -/
theorem meshMac : Obligations.MeshMac := by
  refine ⟨?ack, ?sleepy, ?stranger, ?banked, ?busy, ?clear, ?acked, ?retry, ?noAck, ?keyGone, ?waiting, ?saved⟩
  case ack =>
    rintro k s t hk hdue rfl
    change execMacAckTx s = _
    simp only [execMacAckTx, hk, hdue, Bool.not_true, Bool.false_eq_true, if_false]
  case sleepy =>
    exact fun m c s => s.ackFor_sleepy m c
  case stranger =>
    exact fun m s => s.ackFor_stranger m
  case banked =>
    exact fun m s => s.ackFor_banked m
  case busy =>
    exact fun energy t q s hq => execCsmaBackoffEnd_busy s t q hq energy
  case clear =>
    exact fun energy t q s hq => execCsmaBackoffEnd_clear s t q hq energy
  case acked =>
    exact fun dsn a b c t q s hq => execMacAckRx_own s t q hq a b c dsn
  case retry =>
    intro t q s hq hp hover hmore hkey
    have hleft : ¬ s.fld E4.csmaCfg 14 12 < t.retries + 1 := Nat.not_lt.mpr hmore
    refine (execAckTimeout_unanswered s t q hq hp hover).trans ?_
    simp only [hleft, hkey, Bool.false_eq_true, if_false]
  case noAck =>
    intro t q s hq hp hover hmax
    exact (execAckTimeout_unanswered s t q hq hp hover).trans (congrArg Host.Outcome.next (if_pos (Nat.lt_succ_of_le hmax)))
  case keyGone =>
    intro t q a b c d s hq hp hover hsealed hmore hgone
    have hleft : ¬ s.fld E4.csmaCfg 14 12 < t.retries + 1 := Nat.not_lt.mpr hmore
    refine (execAckTimeout_unanswered s t q hq hp hover).trans ?_
    simp only [hleft, hgone, hsealed, Option.map_some, Option.getD_some, State.txError_keyGone, if_false, if_true]
  case waiting =>
    exact fun t q s hq => execAckTimeout_waiting s t q hq
  case saved =>
    exact fun slot v s => execFcSaveDone_idle s slot v

end Sys2Proof.Machine

/-! # The frames of the mesh: O27 -/

namespace Sys2Proof.Machine

section MeshFrames
variable (s : State)

/-! ## The security check (R168, R188, R190) -/

/-- What becomes of a genuine frame by the replay table's judgement: counted, or stored and, with a good header, handed on. -/
def State.judged (f : MeshSec) (x : MacRxd) (eui : Nat) : ReplayVerdict → State
  | .duplicate => s.bump E4.dupCnt 15 0 1
  | .replay => s.bump E4.dupCnt 31 16 1
  | .accept =>
    if x.mac.ftype = 1 && (f.ttl = 0 || !f.rsvZero || f.mtype = 0 || 7 < f.mtype) then (s.replayStore x.mac eui).count E4.hdrBad 1
    else (s.replayStore x.mac eui).onMesh (fun m =>
      { m with auth := some { src := x.mac.src, eui := eui, pan := x.mac.panId, stamp := x.stamp } })

/-- A frame that carries no bad mesh header is stored and handed on. -/
theorem State.judged_accept (f : MeshSec) (x : MacRxd) (eui : Nat)
    (h : x.mac.ftype ≠ 1 ∨ (f.ttl ≠ 0 ∧ f.rsvZero = true ∧ f.mtype ≠ 0 ∧ f.mtype ≤ 7)) :
    s.judged f x eui .accept = (s.replayStore x.mac eui).onMesh (fun m =>
      { m with auth := some { src := x.mac.src, eui := eui, pan := x.mac.panId, stamp := x.stamp } }) := by
  refine if_neg ?_
  rcases h with htype | ⟨httl, hrsv, hm, hm7⟩
  · simp [htype]
  · simp [httl, hrsv, hm, Nat.not_lt.mpr hm7]

section Known
variable (f : MeshSec) (x : MacRxd) (eui : Nat) (hx : s.mesh.rxd = some x) (hon : s.meshOn = true)
  (heui : x.mac.srcEui.or ((s.nbrEui x.mac.src).or f.learnt) = some eui)
  (hkey : s.keySlots.any (fun k => s.fld (E6.keyStat k) 23 16 == x.mac.keyIndex) = true)
include hx hon heui hkey

theorem execMeshFrameRx_badMic (hmic : f.micOk = false) :
    execMeshFrameRx f s = .next ((s.onMesh (fun m => { m with rxd := none, auth := none })).bump E4.secCnt 15 0 1) := by
  simp only [execMeshFrameRx, hx, hon, heui, hkey, hmic, Bool.not_true, Bool.not_false, Bool.false_eq_true, if_false, if_true]

/-- A frame of a known sender and key with a good MIC is left to the judgement of the replay table. -/
theorem execMeshFrameRx_judged (hmic : f.micOk = true) :
    execMeshFrameRx f s = .next ((s.onMesh (fun m => { m with rxd := none, auth := none })).judged f x eui
      (judgeReplay (((s.mesh.replay.find? (fun e => e.eui == eui)).map ReplayEntry.sets).getD []) x.mac.keyIndex x.mac.counter
        x.mac.dsn)) := by
  simp only [execMeshFrameRx, hx, hon, heui, hkey, hmic, Bool.not_true, Bool.false_eq_true, if_false]
  split
  case h_1 h => rw [h]; rfl
  case h_2 h => rw [h]; rfl
  case h_3 h => rw [h, State.judged]; split <;> rfl

end Known

/-! ## Data and floods of an authentic sender (R181, R185) -/

section Sender
variable (h : MeshHdr) (rssi : Int) (x : MeshAuth) (t : State) (hauth : s.takeAuth = some (x, t))
include hauth

/-- A data frame from no child, for the node itself and not from beyond the mesh, goes to the receive ring. -/
theorem execMeshDataRx_own (hc : s.child x.src = none) (ht : h.mtype = 1) (hd : h.dest = s.meshAddr)
    (hres : reservedAddr h.dest = false) (hext : h.ext = false) : execMeshDataRx h rssi s = .next (t.hostFrame h x.src rssi) := by
  have hnot7 : (1 : Nat) ≠ 7 := by decide
  have hres' : reservedAddr s.meshAddr = false := hd ▸ hres
  simp only [execMeshDataRx, hauth, hc, ht, hd, hres', hext, hnot7, ne_eq, not_true_eq_false, decide_false, Bool.or_self,
    Option.isSome_none, Bool.false_eq_true, if_false, if_true]

/-- A data frame from a child for an address elsewhere makes the child the route of its origin, and is forwarded. -/
theorem execMeshDataRx_forward (c : MeshChild) (hc : s.child x.src = some c) (ht : h.mtype = 1) (hd : h.dest ≠ s.meshAddr)
    (hres : reservedAddr h.dest = false) (hb : s.banked = false) (hs : s.sleepyChild h.dest = none) :
    execMeshDataRx h rssi s = .next ((t.routeSet h.origin x.src).forward h) := by
  have hnot7 : (1 : Nat) ≠ 7 := by decide
  simp only [execMeshDataRx, hauth, hc, ht, hd, hres, hb, hs, hnot7, ne_eq, not_true_eq_false, decide_false, Bool.or_self,
    Option.isSome_some, Bool.false_eq_true, if_false, if_true]

/-- A flood that the cache does not hold enters it, is delivered and kept for sleepy children; a router outside BANKED relays it. -/
theorem execFloodRx_relayed
    (hnew : (seenFresh s.mesh.seen x.stamp).find? (fun e => e.origin == h.origin && e.mseq == h.mseq) = none) (httl : 1 < h.ttl)
    (hon : s.bit E4.meshCfg 3 = true) (hrole : s.isRouter = true ∨ s.isCoord = true) (hb : s.banked = false) :
    execFloodRx h rssi s = .next ((((t.seenInsert h.origin h.mseq x.stamp).hostFrame h x.src rssi).indFlood h).draw (fun i u =>
      u.onMesh (fun m =>
        { m with rebro := m.rebro ++ [(h, s.mono + Config.freeNat i % (s.fld E4.floodCfg 15 8 * 1000000 + 1))] }))) := by
  have hrole' : (s.isRouter || s.isCoord) = true := (Bool.or_eq_true ..).mpr hrole
  simp only [execFloodRx, hauth, hnew, httl, hon, hrole', hb, decide_true, Bool.not_false, Bool.and_self, if_true]

end Sender

/-! ## The host's descriptors (R195) -/

/-- A descriptor whose type is neither 1 nor 2 is taken and completes with code 12. -/
theorem execTxDescriptor_badType (hon : s.meshOn = true) (hne : s.fld E4.txrTail 9 0 ≠ s.fld E4.txrHead 9 0)
    (h1 : bitsOf (Mem.word s.esram ((s.fld E4.txrBase 13 0 + s.fld E4.txrTail 9 0) * 16)) 3 0 ≠ 1)
    (h2 : bitsOf (Mem.word s.esram ((s.fld E4.txrBase 13 0 + s.fld E4.txrTail 9 0) * 16)) 3 0 ≠ 2) :
    execTxDescriptor s = .next ((s.setFld E4.txrTail 9 0 ((s.fld E4.txrTail 9 0 + 1) % s.fld E4.txrSize 10 0)).txrComplete
      (s.fld E4.txrTail 9 0) 12 0) := by
  simp only [execTxDescriptor, hon, hne, h1, h2, ne_eq, not_false_eq_true, decide_true, decide_false, Bool.and_self, Bool.not_true,
    Bool.or_self, Bool.false_eq_true, if_false, if_true]

end MeshFrames

/-- Settles O27: a frame by its security and its kind, the queues by what is due in them. -/
theorem meshFrames : Obligations.MeshFrames := by
  refine ⟨?accepted, ?counted, ?own, ?forwarded, ?flood, ?rebroadcast, ?indirect, ?expiry, ?floodExpiry, ?badType, ?childGone⟩
  case accepted =>
    rintro f x eui s s0 hx hon heui hkey hmic hjudge hhdr rfl
    refine (execMeshFrameRx_judged s f x eui hx hon heui hkey hmic).trans ?_
    rw [hjudge, State.judged_accept _ f x eui hhdr]
  case counted =>
    rintro f x eui s s0 hx hon heui hkey rfl
    have hjudged := execMeshFrameRx_judged s f x eui hx hon heui hkey
    refine ⟨execMeshFrameRx_badMic s f x eui hx hon heui hkey, fun hmic hdup => ?_, fun hmic hrep => ?_⟩
    · exact (hjudged hmic).trans (by rw [hdup]; rfl)
    · exact (hjudged hmic).trans (by rw [hrep]; rfl)
  case own =>
    exact fun h rssi x t s hauth => execMeshDataRx_own s h rssi x t hauth
  case forwarded =>
    exact fun h rssi c x t s hauth => execMeshDataRx_forward s h rssi x t hauth c
  case flood =>
    exact fun h rssi x t s hauth => execFloodRx_relayed s h rssi x t hauth
  case rebroadcast =>
    rintro origin mseq at0 h s t hdue rfl
    change execFloodRebroadcast origin mseq s = _
    simp only [execFloodRebroadcast, hdue]
  case indirect =>
    rintro c e more s t howed rfl hfirst
    change execIndirectSend s = _
    simp only [execIndirectSend, howed, hfirst]
  case expiry =>
    intro id e s he hdue
    change execIndirectExpiry id s = _
    simp only [execIndirectExpiry, he, hdue, if_true]
  case floodExpiry =>
    intro id e s he hdue
    change execFloodEntryExpiry id s = _
    simp only [execFloodEntryExpiry, he, hdue, if_true]
  case badType =>
    rintro d a s hon rfl rfl
    exact execTxDescriptor_badType s hon
  case childGone =>
    intro short c s hc hdue
    change execChildTimeout short s = _
    simp only [execChildTimeout, hc, hdue, if_true]

end Sys2Proof.Machine

/-! # Transmissions and receptions of a partition, and its synthesisers: O31 -/

namespace Sys2Proof.Machine

section PartTraffic
variable (s : State)

/-! ## A PPDU that starts, waits or ends (R206, R207, R213) -/

/-- A partition that rests neither receives nor transmits (R211). -/
theorem paRests_not_busy (st : Nat) (h : paRests st = true) : st ≠ paRx ∧ st ≠ paTx := by
  constructor <;> rintro rfl <;> exact absurd h (by decide)

/-- A PPDU handed to an enabled partition that rests locked, without a supply warning, starts at once. -/
theorem State.ppduRequest_starts (d kind us : Nat) (hon : s.partOn d = true) (hrest : paRests (s.pa d) = true)
    (hlock : s.paLocked d = true) (hheld : s.paHeld d = false) : s.ppduRequest d kind us = s.ppduStart d kind us none := by
  obtain ⟨hrx, htx⟩ := paRests_not_busy _ hrest
  simp only [State.ppduRequest, hon, hrest, hlock, hheld, hrx, htx, Bool.not_true, Bool.not_false, decide_false, Bool.or_self,
    Bool.and_self, Bool.false_eq_true, if_false, if_true]

/-- A PPDU that has waited TX_WAIT_MAX fails: held by a supply warning where the synthesiser is locked, else without the lock. -/
theorem execAccessTxWaitExpiry_due (d : Fin 6) (w : PartWait) (hw : (s.part? d.val).wait = some w)
    (hdue : w.since + s.fld (D4.partTx d.val) 9 0 * 1000 ≤ s.mono) :
    execAccessTxWaitExpiry d s =
      .next (if s.paLocked d.val && s.paHeld d.val then s.ppduFail d.val 3 0x0102 else s.ppduFail d.val 2 0x0101) := by
  simp only [execAccessTxWaitExpiry, hw, Nat.not_lt.mpr hdue, if_false]
  split <;> rfl

/-- Outside a TXOP the scheduler has no part in the end of a PPDU. -/
theorem execPpduTxEnd_noTxop (d : Fin 6) (next : Nat) (ex : Bool) (l : List ChainLevel) (t : PartTx)
    (htx : (s.part? d.val).tx = some t) (hnot : (s.ps d.val).txop = none) :
    execPpduTxEnd d next ex l s = .next (s.ppduTxEnd d next ex l) := by
  simp only [execPpduTxEnd, htx, hnot]

/-- A PPDU that lasted 20 µs has read the detectors of its chains; outside a sounding it is DONE, and what follows comes. -/
theorem State.ppduTxEnd_done (d : Fin 6) (next : Nat) (ex : Bool) (l : List ChainLevel) (t : PartTx) (u : State)
    (htx : (s.part? d.val).tx = some t)
    (hu : u = if 20 ≤ t.us then (l.filter (fun y => t.sends y.die y.chain && y.chain < 16)).foldl State.chainReading s else s)
    (hsnd : (u.ppduOver d t 1).soundSends d.val = false) : s.ppduTxEnd d next ex l = (u.ppduOver d t 1).ppduNext d ex := by
  subst hu
  simp only [State.ppduTxEnd, htx, hsnd, Bool.false_and, Bool.false_eq_true, if_false]

/-! ## Receptions (R210, R215) -/

/-- After a reception that no stop waits for, a PPDU that waits may start (R213). -/
theorem State.paStopped_rx (d : Nat) (u : State) (hrx : s.pa d = paRx) (hstop : (s.part? d).stopPend = false) :
    s.paStopped d u = u.ppduWaiting d := by
  simp only [State.paStopped, hrx, hstop, beq_self_eq_true, Bool.false_eq_true, if_false, if_true]

/-- Outside a TXOP the scheduler has no part in the end of a confirmed reception. -/
theorem execPpduRxEnd_noTxop (d : Fin 6) (resp : Option Nat) (us : Nat) (tb : List Nat) (l : List ChainLevel) (x : PartRx)
    (hrx : (s.part? d.val).rx = some x) (hconf : x.tentative = false) (hnot : (s.ps d.val).txop = none) :
    execPpduRxEnd d resp us tb l s = .next (s.ppduRxEnd d.val resp l) := by
  simp only [execPpduRxEnd, hrx, hconf, hnot, Bool.false_eq_true, if_false]

section RxEnd
variable (d : Nat) (l : List ChainLevel) (x : PartRx) (u : State) (hrx : (s.part? d).rx = some x) (hconf : x.tentative = false)
  (hu : u = (s.wrs ((l.filter (fun y => (s.liveDies d).contains y.die && y.chain < 16 && s.bit (D1.chainEn y.die) y.chain)).map
    (fun y => (D1.chRssi y.die y.chain, BitVec.ofNat 32 (ux 16 y.level))))).onPart d (fun p => { p with rx := none }))
include hrx hconf hu

/-- A reception that asks for no response leads to the return state. -/
theorem State.ppduRxEnd_returns : s.ppduRxEnd d none l = s.paStopped d (u.paReturn d) := by
  subst hu
  simp only [State.ppduRxEnd, hrx, hconf, Bool.false_eq_true, if_false]

/-- Outside a sounding a response follows, unless a supply warning holds it. -/
theorem State.ppduRxEnd_responds (us : Nat) (hsnd : (s.part? d).sounding = none) :
    s.ppduRxEnd d (some us) l = if s.paHeld d then s.paStopped d (u.paReturn d) else u.ppduStart d 2 us none := by
  subst hu
  simp only [State.ppduRxEnd, hrx, hconf, hsnd, Option.isSome_none, Bool.and_false, Bool.false_eq_true, if_false]

end RxEnd

/-! ## The synthesisers (R209, R227) -/

/-- Lock shows on the dies of a partition in SETTLE and leads it to the state it settles for, where a PPDU that waits may start. -/
theorem execAccessSynthLock_settled (d : Fin 6) (st : Nat) (t : State) (hrole : s.role d = .access) (htune : s.paTuning d.val = true)
    (hpa : s.pa d.val = paSettle) (hgoal : (s.part? d.val).goal = .state st) (ht : t = (s.phaseUse d.val).synShow d.val true false) :
    execAccessSynthLock d false s =
      .next ((((t.liveDies d.val).foldl (fun u k => u.raise (D2.page k) 0) t).setPa d.val st).ppduWaiting d.val) := by
  have hnot : (Role.access == Role.backhaul) = false := rfl
  subst ht
  simp only [execAccessSynthLock, hrole, hnot, htune, hpa, hgoal, ne_eq, not_true_eq_false, Bool.not_true, Bool.false_eq_true, if_false]

end PartTraffic

/-- Settles O31: each row by its guards, which the hypotheses pass; the end of a PPDU or a reception by what follows it. -/
theorem partitionTraffic : Obligations.PartitionTraffic := by
  refine ⟨?immediate, ?expiry, ?expiryHeld, ?txEnd, ?txDone, ?protect, ?sync, ?confirm, ?fail, ?capture, ?rxEnd, ?received, ?lock, ?lost,
    ?lostOff⟩
  case immediate =>
    exact fun d us s hon hrest hlock hheld => congrArg Host.Outcome.next (s.ppduRequest_starts d.val 0 us hon hrest hlock hheld)
  case expiry =>
    intro d w s hw hdue hfree
    have hnot : (s.paLocked d.val && s.paHeld d.val) = false := (Bool.and_eq_false_iff ..).mpr hfree
    refine (execAccessTxWaitExpiry_due s d w hw hdue).trans ?_
    rw [hnot, if_neg Bool.false_ne_true]
  case expiryHeld =>
    intro d w s hw hdue hlock hheld
    refine (execAccessTxWaitExpiry_due s d w hw hdue).trans ?_
    rw [hlock, hheld, Bool.and_self, if_pos rfl]
  case txEnd =>
    exact fun d next ex l t s => execPpduTxEnd_noTxop s d next ex l t
  case txDone =>
    exact fun d next ex l t s u => s.ppduTxEnd_done d next ex l t u
  case protect =>
    rintro d c rl t s u hm htx hsends hlow hmute rfl
    change execChainProtect d c rl s = _
    simp only [execChainProtect, hm, Option.getD_none, htx, hsends, hmute, Nat.not_le.mpr hlow, decide_false, Bool.not_true,
      Bool.or_self, Bool.false_eq_true, if_false]
  case sync =>
    intro d power s hon hpa
    change execPpduSync d power s = _
    simp only [execPpduSync, hon, hpa, Bool.not_true, Bool.false_eq_true, if_false, if_true]
  case confirm =>
    intro d x s hx htent
    change execPpduHeader d true s = _
    simp only [execPpduHeader, hx, htent, Bool.not_true, Bool.false_eq_true, if_false, if_true]
  case fail =>
    intro d x s hx htent hpa hstop
    change execPpduHeader d false s = _
    simp only [execPpduHeader, hx, htent, s.paStopped_rx d.val _ hpa hstop, Bool.not_true, Bool.false_eq_true, if_false]
  case capture =>
    intro d power x s hx hconf hen hstrong
    change execPpduCapture d power false s = _
    simp only [execPpduCapture, hx, hconf, hen, hstrong, Bool.not_false, decide_true, Bool.and_self, if_true]
  case rxEnd =>
    exact fun d resp us tb l x s => execPpduRxEnd_noTxop s d resp us tb l x
  case received =>
    exact fun d _ l x s u hx hconf hu hsnd =>
      ⟨s.ppduRxEnd_returns d l x u hx hconf hu, fun us => s.ppduRxEnd_responds d l x u hx hconf hu us hsnd⟩
  case lock =>
    exact fun d st s t => execAccessSynthLock_settled s d st t
  case lost =>
    rintro d l s hon hlocked rfl
    change execAccessSynthLock d true s = _
    simp only [execAccessSynthLock, hon, hlocked, Bool.and_self, if_true]
  case lostOff =>
    intro n lead s hoff
    simp only [State.synthLost, hoff, Bool.false_eq_true, if_false]

end Sys2Proof.Machine

/-! # Traffic of a cross-band link: O38 -/

namespace Sys2Proof.Machine

section LinkFrames
variable (s : State)

/-! ## Retransmission (R305) -/

/-- A frame of the store that is due: dropped once RETX_MAX is reached, kept while its class has no member, else handed over. -/
theorem execXblRetxTimeout_due (l : Fin 8) (seq : Nat) (e : XblSent) (hl : s.linkOn l.val = true)
    (he : (s.link l.val).store.find? (fun (x : XblSent) => x.seq == seq) = some e) (hdue : e.last + s.retxTo l.val e.member ≤ s.mono) :
    execXblRetxTimeout l seq s =
      if s.fld (C17.reorder l.val) 19 16 ≤ e.retx then .next (s.xblDrop l.val seq)
      else if (s.choices l.val e.cls).isEmpty then .next s
      else .next (s.handOver l.val e) := by
  have hover : ¬ s.mono < e.last + s.retxTo l.val e.member := Nat.not_lt.mpr hdue
  simp only [execXblRetxTimeout, he, hl, hover, Bool.not_true, decide_false, Bool.or_self, Bool.false_eq_true, if_false]

/-! ## Reception (R301) -/

/-- With no SEQ accepted yet, an authentic frame is accepted in the wrap that its PN names. -/
theorem State.xblRx_first (l m : Nat) (f : XblFrame) (slot wrap which : Nat) (hkey : s.rxKey l f.phase = some (slot, wrap, which))
    (hfirst : (s.link l).high = none) (hauth : f.authOk = true) (hvalid : (s.pipeKey slot).valid = true) :
    s.xblRx l m f = s.xblAct l m f which (f.pn / 2 ^ 24) := by
  simp only [State.xblRx, hkey, hfirst, hauth, hvalid, Bool.and_self, if_true]

/-- A sound frame without data, on a member that the link has, is judged once the link's pipe has counted its header and tag (R297, R404). -/
theorem execXblFrameRx_noData (l : Fin 8) (m : Fin 3) (f : XblFrame) (hl : s.linkOn l.val = true)
    (hm : linkHas (s.rd (C17.linkCfg l.val)) m.val = true) (hver : f.ver = 1) (htype : f.type ≤ 3) (hsound : f.sound = true)
    (hdata : f.data = none) : execXblFrameRx l m f s = .next ((s.pipeRx l.val 32).xblRx l.val m.val f) := by
  have hknown : ¬ 3 < f.type := Nat.not_lt.mpr htype
  simp only [execXblFrameRx, hl, hm, hver, hknown, hsound, hdata, ne_eq, not_true_eq_false, Bool.not_true, decide_false, Bool.or_self,
    Bool.false_eq_true, if_false, Nat.add_zero]

/-! ## The end of RETURN_WAIT (R307) -/

/-- A class whose wait is over moves to the best member available. -/
theorem State.returnMove_due (l c t0 m : Nat) (hwait : ((s.link l).cls c).wait = some t0) (hcur : ((s.link l).cls c).cur = some m)
    (hdue : t0 + s.fld (C17.reorder l) 14 8 * 100000 ≤ s.mono) :
    s.returnMove l c = s.onLink l (fun y => y.onCls c (fun k => { k with cur := (s.choices l c).head?, wait := none })) := by
  simp only [State.returnMove, hwait, hcur, hdue, decide_true, Bool.or_true, if_true]

end LinkFrames

/-- Settles O38: each row by its guards, which the hypotheses pass; a class with nothing to retransmit sends its queue's head. -/
theorem linkTraffic : Obligations.LinkTraffic := by
  refine ⟨?dispatch, ?receive, ?reorder, ?ack, ?handOver, ?drop, ?returnWait, ?overlap⟩
  case dispatch =>
    intro l m c d x s t u hl hsettle hpick hdrr hretx hhead
    change execXblDispatch l m s = _
    simp only [execXblDispatch, hl, ← hsettle, hpick, ← hdrr, hretx, hhead, ite_self, Bool.not_true, Bool.false_eq_true, if_false]
  case receive =>
    rintro l m f slot wrap which s t hl hm hver htype hsound hdata rfl hkey hfirst hauth hvalid
    refine (execXblFrameRx_noData s l m f hl hm hver htype hsound hdata).trans (congrArg Host.Outcome.next ?_)
    exact State.xblRx_first _ l.val m.val f slot wrap which hkey hfirst hauth hvalid
  case reorder =>
    intro l seq h s hl hheld hdue
    change execXblReorderTimeout l seq s = _
    simp only [execXblReorderTimeout, hheld, hl, hdue, decide_true, Bool.and_self, if_true]
  case ack =>
    rintro l x s hl havail rfl hchanged hack hseq
    have hbest : [0, 1, 2].find? (fun m => s.memAvail l.val m) = some 0 := List.find?_cons_of_pos havail
    have hsome : (s.link l.val).changed.isEmpty = false := List.isEmpty_eq_false_iff.mpr hchanged
    change execXblAckDue l s = _
    simp only [execXblAckDue, hbest, hl, hsome, hack, hseq, Bool.not_true, Bool.or_self, Bool.false_eq_true, if_false]
  case handOver =>
    intro l seq e s hl he hdue hleft hchoice
    have hmember : (s.choices l.val e.cls).isEmpty = false := List.isEmpty_eq_false_iff.mpr hchoice
    refine (execXblRetxTimeout_due s l seq e hl he hdue).trans ?_
    rw [if_neg (Nat.not_le.mpr hleft), hmember, if_neg Bool.false_ne_true]
  case drop =>
    intro l seq e s hl he hdue hmax
    exact (execXblRetxTimeout_due s l seq e hl he hdue).trans (if_pos hmax)
  case returnWait =>
    intro l c t0 m s hl hwait hcur hdue
    exact (if_pos hl).trans (congrArg Host.Outcome.next (s.returnMove_due l.val c.val t0 m hwait hcur hdue))
  case overlap =>
    rintro l ⟨slot, wrap, til⟩ s hprev hend
    change execXblKeyOverlapEnd l s = _
    simp only [execXblKeyOverlapEnd, hprev]
    exact if_pos hend

end Sys2Proof.Machine

/-! # Commands of the exact-match table, its walks, sweeps and parity: O40 -/

namespace Sys2Proof.Machine

section TableCommands
variable (s : State)

/-! ## Writes of a table's command register (R54, R332) -/

/-- An untagged table command on a page that is reached executes at once. -/
theorem State.tableWrite_untagged (r : Requester) (o : StagedTable) (ok : Bool) (act : State → State) (hr : s.reachable o.reg = true)
    (ht : s.tagOf r (pageOf o.reg) = 0) : s.tableWrite r o ok act = act s := by
  simp only [State.tableWrite, hr, ht, decide_true, Bool.true_or, Bool.not_true, Bool.false_eq_true, if_false, if_true]

/-- A table command that is never staged executes at once on a page that is reached, whatever the tag. -/
theorem State.tableNow_reached (a : Nat) (act : State → State) (hr : s.reachable a = true) : s.tableNow a act = act s := if_pos hr

/-- An untagged command of the exact-match table has its effect at once. -/
theorem State.tblWrite_untagged (r : Requester) (cmd : Word) (ok : Bool) (act : State → State) (hr : s.reachable C13.tblCmd = true)
    (ht : s.tagOf r (pageOf C13.tblCmd) = 0) : s.tblWrite r cmd ok act = act s :=
  s.tableWrite_untagged r _ ok act hr ht

/-! ## INSERT, DELETE and NEXT (R331 to R333) -/

/-- An entry whose key is not legal is refused as BAD_KEY. -/
theorem State.tblInsert_badKey (r : Requester) (ws : List Word) (hkey : emKeyOk ws = false) :
    s.tblInsert r ws = s.tblStatus r 6 false false := by
  simp only [State.tblInsert, hkey, Bool.not_false, if_true]

/-- An entry that finds room, or its key's entry, answers its position and result. -/
theorem State.tblInsert_placed (r : Requester) (ws : List Word) (st p : Nat) (t : State) (hkey : emKeyOk ws = true)
    (hins : s.emInsert ws = (st, p, t)) (hroom : st ≠ 3) :
    s.tblInsert r ws = (t.wrReq r C13.tblLoc (emLoc p)).tblStatus r st false (decide (65536 ≤ p)) := by
  have hplaced : (st != 3) = true := bne_iff_ne.mpr hroom
  simp only [State.tblInsert, hkey, hins, hroom, hplaced, Bool.not_true, Bool.true_and, Bool.false_eq_true, if_false]

/-- The entry of a legal key that is in the table leaves it, and its position is answered. -/
theorem State.tblDelete_found (r : Requester) (ws : List Word) (e : EmSlot) (hkey : emKeyOk ws = true)
    (hfind : s.emFind (emKey ws) = some e) :
    s.tblDelete r ws = ((s.emDelete (emKey ws)).wrReq r C13.tblLoc (emLoc e.pos)).tblStatus r 0 false (decide (65536 ≤ e.pos)) := by
  simp only [State.tblDelete, hkey, hfind, Bool.not_true, Bool.false_eq_true, if_false]

/-- SEARCH on the page reached, by what the key of the requester's entry words finds. -/
theorem execTblSearch_legal (r : Requester) (hr : s.reachable C13.tblCmd = true) (hkey : emKeyOk (s.tblEntry r) = true) :
    execTblSearch r s = .next ((s.emFind (emKey (s.tblEntry r))).elim (s.tblStatus r 2 false false)
      (fun e => (s.tblShow r e).tblStatus r 1 false (decide (65536 ≤ e.pos)))) := by
  simp only [execTblSearch, s.tableNow_reached _ _ hr, hkey, Bool.not_true, Bool.false_eq_true, if_false]
  cases s.emFind (emKey (s.tblEntry r)) <;> rfl

/-- A requester that has no walk open cannot continue one. -/
theorem State.tblNext_noWalk (r : Requester) (type : Nat) (hwalk : s.fwd.em.walk r = none) :
    s.tblNext r type false = s.tblStatus r 7 false false := by
  simp only [State.tblNext, hwalk, Bool.false_eq_true, if_false]

/-! ## Sweeps and parity (R334, R337) -/

/-- While no sweep runs, a commanded one starts. -/
theorem State.sweepCmd_idle (r : Requester) (w : EmSweep) (hidle : s.fwd.em.sweep = none) :
    s.sweepCmd r w = (s.sweepStart w).tblStatus r 0 false false := by
  simp only [State.sweepCmd, hidle, Option.isSome_none, Bool.false_eq_true, if_false]

/-- The entry of a slot with bad parity is recorded, counted and removed. -/
theorem State.parityRemove_entry (pos : Nat) (e : EmSlot) (hat : emAt s.fwd.em.slots pos = some e) :
    s.parityRemove pos = (((s.err C13.page 0x0100 (emLoc pos)).count C13.parityCnt 1).raise C13.page 2).onEm (fun em =>
      { em with slots := em.slots.filter (fun (x : EmSlot) => !(x.pos == pos && x.solid)) }) := by
  simp only [State.parityRemove, hat]

/-! ## The hash seeds (R348) -/

/-- A seed is written while the table is empty. -/
theorem State.seedWrite_empty (n : Nat) (w : Word) (hempty : s.fwd.em.slots = []) : s.seedWrite n w = s.wr (C13.hashSeed n) w := by
  simp only [State.seedWrite, hempty, List.isEmpty_nil, if_true]

/-- While it holds an entry, the write is recorded as SEED_LOCKED. -/
theorem State.seedWrite_locked (n : Nat) (w : Word) (hused : s.fwd.em.slots ≠ []) :
    s.seedWrite n w = s.err C13.page 0x0101 (BitVec.ofNat 32 (C13.hashSeed n % 65536)) := by
  simp only [State.seedWrite, List.isEmpty_eq_false_iff.mpr hused, Bool.false_eq_true, if_false]

end TableCommands

/-- Settles O40: a command that executes at once acts by its key, its walk or the sweep that runs; a timed row by its guards. -/
theorem forwardingTable : Obligations.ForwardingTable := by
  refine ⟨?insert, ?insertBadKey, ?delete, ?searchHit, ?searchMiss, ?next, ?close, ?timeout, ?flush, ?age, ?sweepDone, ?autoAge, ?parity,
    ?scrub, ?seed, ?seedLocked⟩
  case insert =>
    intro r st p s t hr ht hkey hins hroom
    refine congrArg Host.Outcome.next ((s.tblWrite_untagged r _ _ _ hr ht).trans ?_)
    exact s.tblInsert_placed r _ st p t hkey hins hroom
  case insertBadKey =>
    intro r s hr ht hkey
    exact congrArg Host.Outcome.next ((s.tblWrite_untagged r _ _ _ hr ht).trans (s.tblInsert_badKey r _ hkey))
  case delete =>
    intro r e s hr ht hkey hfind
    exact congrArg Host.Outcome.next ((s.tblWrite_untagged r _ _ _ hr ht).trans (s.tblDelete_found r _ e hkey hfind))
  case searchHit =>
    intro r e s hr hkey hfind
    exact (execTblSearch_legal s r hr hkey).trans (by rw [hfind, Option.elim_some])
  case searchMiss =>
    intro r s hr hkey hmiss
    exact (execTblSearch_legal s r hr hkey).trans (by rw [hmiss, Option.elim_none])
  case next =>
    intro r ty s hr hwalk
    exact congrArg Host.Outcome.next ((s.tableNow_reached _ _ hr).trans (s.tblNext_noWalk r ty.val hwalk))
  case close =>
    exact fun r s hr => congrArg Host.Outcome.next (s.tableNow_reached _ _ hr)
  case timeout =>
    intro r w s hwalk hdue
    change execWalkTimeout r s = _
    simp only [execWalkTimeout, hwalk, hdue, if_true]
  case flush =>
    intro r q b ty s hr ht hport hidle
    refine congrArg Host.Outcome.next ((s.tblWrite_untagged r _ _ _ hr ht).trans ?_)
    rw [hport, Bool.not_true, if_neg Bool.false_ne_true, s.sweepCmd_idle r _ hidle]
  case age =>
    intro r ty s hr ht hidle
    exact congrArg Host.Outcome.next ((s.tblWrite_untagged r _ _ _ hr ht).trans (s.sweepCmd_idle r _ hidle))
  case sweepDone =>
    intro n w s t hsweep hact
    change execSweepDone s = _
    simp only [execSweepDone, hsweep, hact]
  case autoAge =>
    intro s hc hperiod hdue hidle
    change execAutoAge s = _
    simp only [execAutoAge, hc, hperiod, hdue, hidle, ne_eq, not_false_eq_true, decide_true, Option.isNone_none, Bool.and_self, if_true]
  case parity =>
    exact fun pos e s hat => congrArg Host.Outcome.next (s.parityRemove_entry pos e hat)
  case scrub =>
    intro bad s hc hdue
    exact if_pos (Bool.and_eq_true_iff.mpr ⟨hc, decide_eq_true hdue⟩)
  case seed =>
    intro r n w s hd hempty
    exact congrArg Host.Outcome.next ((s.cmdWrite_direct r _ _ hd).trans (s.seedWrite_empty n.val w hempty))
  case seedLocked =>
    intro r n w s hd hused
    exact congrArg Host.Outcome.next ((s.cmdWrite_direct r _ _ hd).trans (s.seedWrite_locked n.val w hused))

end Sys2Proof.Machine

/-! # Firmware images, engine commands, caches and mailboxes: O43 -/

namespace Sys2Proof.Machine

section EnginesAndImages
variable (s : State)

/-! ## The end of a verification (R357, R374) -/

/-- The verification of die C's image ends as VERIFIED with its version, or as BAD with the first check that fails. -/
theorem execFwVerifyDone_verifying (hc : s.cRuns = true) (hv : s.fwState = 1) :
    execFwVerifyDone s = .next ((imageFault s.shared s.fwBase 1 6291200 8388608).elim
      (((s.wr C4.fwStat 2).wr C4.fwVer (Mem.word s.shared (s.fwBase + 8))).raise C4.page 17)
      (fun k => (s.wr C4.fwStat (BitVec.ofNat 32 (3 + k * 16))).raise C4.page 17)) := by
  simp only [execFwVerifyDone, hc, hv, Bool.not_true, ne_eq, not_true_eq_false, decide_false, Bool.or_self, Bool.false_eq_true, if_false]
  cases imageFault s.shared s.fwBase 1 6291200 8388608 <;> rfl

/-- The verification of die E's image ends as VERIFIED, or as BAD with the first check that fails. -/
theorem execEmbVerifyDone_verifying (hv : s.fld E5.embStat 1 0 = 1) :
    execEmbVerifyDone s = .next ((imageFault s.ember.sram 0 2 196352 262144).elim ((s.setFld E5.embStat 1 0 2).raise E5.page 0)
      (fun k => ((s.setFld E5.embStat 1 0 3).setFld E5.embStat 7 4 k).raise E5.page 0)) := by
  simp only [execEmbVerifyDone, hv, ne_eq, not_true_eq_false, if_false]
  cases imageFault s.ember.sram 0 2 196352 262144 <;> rfl

/-! ## The watchdog (R354) -/

/-- A running engine whose watchdog is on and has run its period faults with code WDT at a free address. -/
theorem execEngineWdtExpiry_expired (e : Fin 16) (hrun : s.engState e.val = engRunning) (hon : s.fld (C4.engWdt e.val) 9 0 ≠ 0)
    (hdue : (s.eng e.val).since + s.fld (C4.engWdt e.val) 9 0 * 1000000 ≤ s.mono) :
    execEngineWdtExpiry e s = .next (s.draw (fun i t => t.engineFault e.val 4 (Config.freeWord i).toNat)) := by
  simp only [execEngineWdtExpiry, hrun, hon, hdue, ne_eq, not_false_eq_true, decide_true, Bool.and_self, if_true]

/-! ## Mailboxes (R363, R364) -/

/-- The host's doorbell on an empty mailbox fills it, counts, and is an event for the Grate. -/
theorem execMbDoorbell_toEngines (r : Requester) (m : Fin 32) (hd : s.direct r (C4.mbDoorbell m.val) = true) (hlow : m.val < 16)
    (hside : mbSender r m.val = true) (hempty : s.mbFull m.val = false) :
    execMbDoorbell r m s = .next ((s.wr (C4.mbStat m.val)
      (BitVec.ofNat 32 (1 + (s.fld (C4.mbStat m.val) 15 8 + 1) % 256 * 2 ^ 8))).sourceEvent (0x20 + m.val)) := by
  simp only [execMbDoorbell, s.cmdWrite_direct r _ _ hd, hside, hempty, hlow, Bool.not_true, Bool.false_eq_true, if_false, if_true]

/-- The host's release of a full mailbox empties it, and is an event for the Grate. -/
theorem execMbRelease_toEngines (r : Requester) (m : Fin 32) (hd : s.direct r (C4.mbRelease m.val) = true) (hhigh : 16 ≤ m.val)
    (hside : mbSender r m.val = false) (hfull : s.mbFull m.val = true) :
    execMbRelease r m s = .next ((s.setBit (C4.mbStat m.val) 0 false).sourceEvent (0x20 + m.val)) := by
  simp only [execMbRelease, s.cmdWrite_direct r _ _ hd, hside, hfull, Nat.not_lt.mpr hhigh, Bool.not_true, Bool.false_eq_true, if_false]

/-! ## Ember SRAM (R374) -/

/-- While die E is powered, what the host writes lands at the start of Ember SRAM, up to its 256 KiB. -/
theorem State.emberWrite_powered (image : List Byte) (he : s.powered .e = true) :
    s.emberWrite image = { s with ember := { s.ember with sram := Mem.setBytes s.ember.sram 0 (image.take 262144) } } :=
  if_pos he

end EnginesAndImages

/-- Settles O43: a command acts by the guard that its hypothesis passes; a verification's end by the first check that fails. -/
theorem enginesAndImages : Obligations.EnginesAndImages := by
  refine ⟨?load, ?verifyDone, ?halt, ?start, ?restart, ?fault, ?watchdog, ?caches, ?doorbell, ?release, ?embLoad, ?embWrite,
    ?embVerifyDone, ?embSwitch, ?embApply⟩
  case load =>
    exact fun r s hd hall => congrArg Host.Outcome.next ((s.cmdWrite_direct r _ _ hd).trans (if_pos hall))
  case verifyDone =>
    exact execFwVerifyDone_verifying
  case halt =>
    exact fun r s hd => congrArg Host.Outcome.next (s.cmdWrite_direct r _ _ hd)
  case start =>
    exact fun r s hd hv => congrArg Host.Outcome.next ((s.cmdWrite_direct r _ _ hd).trans (if_neg (not_not_intro hv)))
  case restart =>
    exact fun r e s hd hst => congrArg Host.Outcome.next ((s.cmdWrite_direct r _ _ hd).trans (if_pos hst))
  case fault =>
    exact fun e code addr s hrun => if_pos hrun
  case watchdog =>
    exact fun e s => execEngineWdtExpiry_expired s e
  case caches =>
    exact fun e dram a len s => ⟨rfl, rfl, rfl⟩
  case doorbell =>
    exact fun r m s => execMbDoorbell_toEngines s r m
  case release =>
    exact fun r m s => execMbRelease_toEngines s r m
  case embLoad =>
    rintro r image s _ rfl hd hidle
    refine congrArg Host.Outcome.next ((State.cmdWrite_direct _ r _ _ hd).trans (if_neg ?_))
    exact Bool.eq_false_iff.mp hidle
  case embWrite =>
    intro image s he
    rw [s.emberWrite_powered image he]
    exact ⟨rfl, rfl⟩
  case embVerifyDone =>
    exact execEmbVerifyDone_verifying
  case embSwitch =>
    exact fun r s hd hv => congrArg Host.Outcome.next ((s.cmdWrite_direct r _ _ hd).trans (if_pos hv))
  case embApply =>
    exact fun s hsw => if_pos hsw

end Sys2Proof.Machine

/-! # Steps and the canonical form: O1, O52, O53 and O54 -/

namespace Sys2Proof.Machine

/-- A state with its memories in canonical form keeps, as it stands, all that `Kept` speaks of. -/
theorem State.canon_iff_kept (s : State) : s.canon = true ↔ s.Kept (s.part, s.straps, s.pending, s.mono) := by
  simp only [State.canon, memsCanon, Bool.and_eq_true, List.all_eq_true]
  constructor
  · rintro ⟨hregs, ⟨⟨⟨⟨hshared, hdram⟩, hesram⟩, hember⟩, hradio⟩, hengines⟩
    exact ⟨rfl, hregs, hshared, hdram, hesram, hember, hradio, hengines⟩
  · rintro ⟨-, hregs, hshared, hdram, hesram, hember, hradio, hengines⟩
    exact ⟨hregs, ⟨⟨⟨⟨hshared, hdram⟩, hesram⟩, hember⟩, hradio⟩, hengines⟩

/-- The canonical form alone, without what a state's part, straps, queue and time are. -/
theorem State.Kept.canon {κ : Part × Straps × List Instr × Nat} {s : State} (h : s.Kept κ) : s.canon = true :=
  s.canon_iff_kept.mpr { h with id := rfl }

/-- Every command keeps the canonical forms, the part, its straps, the queue and the elapsed time: the meaning of each row does. -/
theorem exec_keeps {κ : Part × Straps × List Instr × Nat} (c : Instr) (s : State) (hk : s.Kept κ) : OutKept κ (exec c s) :=
  match c with
  | .registerWrite r a w be => execRegisterWrite_keeps r a w be s hk
  | .accessOff r a write => execAccessOff_keeps r a write s hk
  | .errCodeRead r page => execErrCodeRead_keeps r page s hk
  | .clampFieldRead r page => execClampFieldRead_keeps r page s hk
  | .clampCountRead r page => execClampCountRead_keeps r page s hk
  | .guardFailRead r page => execGuardFailRead_keeps r page s hk
  | .rcCounterRead r a coincide => execRcCounterRead_keeps r a coincide s hk
  | .intStatClear r page w coincide => execIntStatClear_keeps r page w coincide s hk
  | .intSet r page w => execIntSet_keeps r page w s hk
  | .softReset r page w => execSoftReset_keeps r page w s hk
  | .msixVectorUnmask v => execMsixVectorUnmask_keeps v s hk
  | .msixEnable => execMsixEnable_keeps s hk
  | .clampLogClr r w => execClampLogClr_keeps r w s hk
  | .txnOpen r w => execTxnOpen_keeps r w s hk
  | .txnOpened r => execTxnOpened_keeps r s hk
  | .txnTagWrite r page w => execTxnTagWrite_keeps r page w s hk
  | .stagedWrite r a w => execStagedWrite_keeps r a w s hk
  | .txnCommit r w => execTxnCommit_keeps r w s hk
  | .prep slot die bad share => execPrep_keeps slot die bad share s hk
  | .armed slot part die => execArmed_keeps slot part die s hk
  | .vote slot go remote => execVote_keeps slot go remote s hk
  | .cancel slot part die reason => execCancel_keeps slot part die reason s hk
  | .commitClose slot => execCommitClose_keeps slot s hk
  | .groupApply slot => execGroupApply_keeps slot s hk
  | .waitSupplyRecovery slot => execWaitSupplyRecovery_keeps slot s hk
  | .txnAbort r w => execTxnAbort_keeps r w s hk
  | .txnRelease r w => execTxnRelease_keeps r w s hk
  | .flueMessage src dst msgs => execFlueMessage_keeps src dst msgs s hk
  | .flueFlitRetry far ok => execFlueFlitRetry_keeps far ok s hk
  | .flueSilenceTimeout far => execFlueSilenceTimeout_keeps far s hk
  | .dieTimeCorrection die => execDieTimeCorrection_keeps die s hk
  | .timeMeasurement src m => execTimeMeasurement_keeps src m s hk
  | .srcLost src => execSrcLost_keeps src s hk
  | .stepInstant => execStepInstant_keeps s hk
  | .timeSnap r w => execTimeSnap_keeps r w s hk
  | .timeStep r hi => execTimeStep_keeps r hi s hk
  | .timeKeep r hi => execTimeKeep_keeps r hi s hk
  | .timeSet r hi => execTimeSet_keeps r hi s hk
  | .reselect r hi => execReselect_keeps r hi s hk
  | .refusedClear r hi => execRefusedClear_keeps r hi s hk
  | .eTimeSnap r w => execETimeSnap_keeps r w s hk
  | .eTimeStep r hi => execETimeStep_keeps r hi s hk
  | .eTimeKeep r hi => execETimeKeep_keeps r hi s hk
  | .eTimeSet r hi => execETimeSet_keeps r hi s hk
  | .eRefusedClear r hi => execERefusedClear_keeps r hi s hk
  | .ptpFrameRx port ptp wellFormed => execPtpFrameRx_keeps port ptp wellFormed s hk
  | .ptpEventTx port sync => execPtpEventTx_keeps port sync s hk
  | .ttReqSend link => execTtReqSend_keeps link s hk
  | .ttReq link member seq t1 => execTtReq_keeps link member seq t1 s hk
  | .ttResp link seq m => execTtResp_keeps link seq m s hk
  | .ttLost link => execTtLost_keeps link s hk
  | .ttSubExchange => execTtSubExchange_keeps s hk
  | .actArm r slot w => execActArm_keeps r slot w s hk
  | .actDisarm r slot hi => execActDisarm_keeps r slot hi s hk
  | .actionSupplyRecovery slot => execActionSupplyRecovery_keeps slot s hk
  | .x32kStarted => execX32kStarted_keeps s hk
  | .x32kFail => execX32kFail_keeps s hk
  | .xtal40Start user => execXtal40Start_keeps user s hk
  | .x40mSettled => execX40mSettled_keeps s hk
  | .xtal40Stop user => execXtal40Stop_keeps user s hk
  | .pwrEmber r hi sr => execPwrEmber_keeps r hi sr s hk
  | .pwrStandby r hi sr => execPwrStandby_keeps r hi sr s hk
  | .pwrRun r hi radioEn sr => execPwrRun_keeps r hi radioEn sr s hk
  | .pwrOff r hi => execPwrOff_keeps r hi s hk
  | .pwrReset r hi => execPwrReset_keeps r hi s hk
  | .dieCRelease => execDieCRelease_keeps s hk
  | .kindleDone => execKindleDone_keeps s hk
  | .radioDieRelease d => execRadioDieRelease_keeps d s hk
  | .radioStartDone d rep => execRadioStartDone_keeps d rep s hk
  | .dieRoleWrite r w => execDieRoleWrite_keeps r w s hk
  | .transitionPauseTimeout => execTransitionPauseTimeout_keeps s hk
  | .por => execPor_keeps s hk
  | .resetN lowNs cmd => execResetN_keeps lowNs cmd s hk
  | .supplyE us mv cmd => execSupplyE_keeps us mv cmd s hk
  | .dieERelease => execDieERelease_keeps s hk
  | .supplyC us mv cmd => execSupplyC_keeps us mv cmd s hk
  | .supplyD d us mv cmd => execSupplyD_keeps d us mv cmd s hk
  | .selftestDone die rep cmd => execSelftestDone_keeps die rep cmd s hk
  | .selftestTimeout die cmd => execSelftestTimeout_keeps die cmd s hk
  | .supplyWarning m => execSupplyWarning_keeps m s hk
  | .supplyOk m us mv => execSupplyOk_keeps m us mv s hk
  | .retentionLost mv => execRetentionLost_keeps mv s hk
  | .tempUpdate die temp => execTempUpdate_keeps die temp s hk
  | .gpioLevelChange pin level => execGpioLevelChange_keeps pin level s hk
  | .gpioEvent pin => execGpioEvent_keeps pin s hk
  | .rfCmdSleep r => execRfCmdSleep_keeps r s hk
  | .rfCmdIdle r => execRfCmdIdle_keeps r s hk
  | .rfCmdListen r => execRfCmdListen_keeps r s hk
  | .txNow r => execTxNow_keeps r s hk
  | .rfCal r set => execRfCal_keeps r set s hk
  | .rfRetune r => execRfRetune_keeps r s hk
  | .rfEd r => execRfEd_keeps r s hk
  | .rfAbort r completing => execRfAbort_keeps r completing s hk
  | .trimClear r => execTrimClear_keeps r s hk
  | .preambleDetect k => execPreambleDetect_keeps k s hk
  | .syncDetect k rssi ch1 => execSyncDetect_keeps k rssi ch1 s hk
  | .rxHeader h => execRxHeader_keeps h s hk
  | .capture k rssi ch1 octets => execCapture_keeps k rssi ch1 octets s hk
  | .rxFrameEnd e => execRxFrameEnd_keeps e s hk
  | .sgTxEnd rl => execSgTxEnd_keeps rl s hk
  | .paProtect rl => execPaProtect_keeps rl s hk
  | .sgSynthLock => execSgSynthLock_keeps s hk
  | .synthUnlock => execSynthUnlock_keeps s hk
  | .txNoLock => execTxNoLock_keeps s hk
  | .txSupply => execTxSupply_keeps s hk
  | .sgCalDone fail limit rl => execSgCalDone_keeps fail limit rl s hk
  | .sgCalDeferredStart => execSgCalDeferredStart_keeps s hk
  | .autoRetune => execAutoRetune_keeps s hk
  | .edDone level => execEdDone_keeps level s hk
  | .sgChanWrite r sel w => execSgChanWrite_keeps r sel w s hk
  | .afcTrimUpdate => execAfcTrimUpdate_keeps s hk
  | .actPrepare slot => execActPrepare_keeps slot s hk
  | .rfActTx slot => execRfActTx_keeps slot s hk
  | .rfActListen slot => execRfActListen_keeps slot s hk
  | .rfActIdle slot => execRfActIdle_keeps slot s hk
  | .rfActSleep slot => execRfActSleep_keeps slot s hk
  | .rfActChannel slot => execRfActChannel_keeps slot s hk
  | .macAckTx => execMacAckTx_keeps s hk
  | .csmaBackoffEnd energy => execCsmaBackoffEnd_keeps energy s hk
  | .macAckRx dsn => execMacAckRx_keeps dsn s hk
  | .ackTimeout => execAckTimeout_keeps s hk
  | .meshFrameRx f => execMeshFrameRx_keeps f s hk
  | .meshDataRx h rssi => execMeshDataRx_keeps h rssi s hk
  | .beaconTx => execBeaconTx_keeps s hk
  | .extraBeacon => execExtraBeacon_keeps s hk
  | .beaconRx b => execBeaconRx_keeps b s hk
  | .beaconWindowEnd => execBeaconWindowEnd_keeps s hk
  | .addrLost => execAddrLost_keeps s hk
  | .scanDwellEnd => execScanDwellEnd_keeps s hk
  | .joinReq j => execJoinReq_keeps j s hk
  | .joinResp j => execJoinResp_keeps j s hk
  | .joinTimeout => execJoinTimeout_keeps s hk
  | .pendingChildExpiry eui => execPendingChildExpiry_keeps eui s hk
  | .parentExcludeExpiry short => execParentExcludeExpiry_keeps short s hk
  | .leave j => execLeave_keeps j s hk
  | .poll => execPoll_keeps s hk
  | .indirectSend => execIndirectSend_keeps s hk
  | .childTimeout short => execChildTimeout_keeps short s hk
  | .indirectExpiry id => execIndirectExpiry_keeps id s hk
  | .floodEntryExpiry id => execFloodEntryExpiry_keeps id s hk
  | .floodRx h rssi => execFloodRx_keeps h rssi s hk
  | .floodRebroadcast origin mseq => execFloodRebroadcast_keeps origin mseq s hk
  | .txDescriptor => execTxDescriptor_keeps s hk
  | .fcSaveDone slot => execFcSaveDone_keeps slot s hk
  | .meshKeyOverlapEnd => execMeshKeyOverlapEnd_keeps s hk
  | .meshKeySwitch slot => execMeshKeySwitch_keeps slot s hk
  | .permitOn slot => execPermitOn_keeps slot s hk
  | .permitOff slot => execPermitOff_keeps slot s hk
  | .beaconNow slot => execBeaconNow_keeps slot s hk
  | .addrFree r w => execAddrFree_keeps r w s hk
  | .bankedBeacon => execBankedBeacon_keeps s hk
  | .partitionEnable r d => execPartitionEnable_keeps r d s hk
  | .partitionDisable r d => execPartitionDisable_keeps r d s hk
  | .partChanWrite r d w => execPartChanWrite_keeps r d w s hk
  | .accessSynthLock d lost => execAccessSynthLock_keeps d lost s hk
  | .seqSleep r d => execSeqSleep_keeps r d s hk
  | .seqIdle r d => execSeqIdle_keeps r d s hk
  | .seqListen r d => execSeqListen_keeps r d s hk
  | .seqAbort r d completing => execSeqAbort_keeps r d completing s hk
  | .ppduImmediate d us => execPpduImmediate_keeps d us s hk
  | .accessTxWaitExpiry d => execAccessTxWaitExpiry_keeps d s hk
  | .ppduTxEnd d next expectsResponse levels => execPpduTxEnd_keeps d next expectsResponse levels s hk
  | .chainProtect d c rl => execChainProtect_keeps d c rl s hk
  | .ppduSync d power => execPpduSync_keeps d power s hk
  | .ppduHeader d ok => execPpduHeader_keeps d ok s hk
  | .ppduCapture d power half => execPpduCapture_keeps d power half s hk
  | .ppduRxEnd d respond us tb levels => execPpduRxEnd_keeps d respond us tb levels s hk
  | .partCal r d w => execPartCal_keeps r d w s hk
  | .partCalDone d fails => execPartCalDone_keeps d fails s hk
  | .partCalDeferredStart d => execPartCalDeferredStart_keeps d s hk
  | .partActChannel d slot => execPartActChannel_keeps d slot s hk
  | .partActListen d slot => execPartActListen_keeps d slot s hk
  | .partActIdle d slot => execPartActIdle_keeps d slot s hk
  | .partActSleep d slot => execPartActSleep_keeps d slot s hk
  | .soundingStart d stations us => execSoundingStart_keeps d stations us s hk
  | .soundingFeedback d sta report => execSoundingFeedback_keeps d sta report s hk
  | .soundDone d => execSoundDone_keeps d s hk
  | .weightsReady d stations => execWeightsReady_keeps d stations s hk
  | .weightAgeExpiry d => execWeightAgeExpiry_keeps d s hk
  | .staWrite r idx => execStaWrite_keeps r idx s hk
  | .staRead r idx => execStaRead_keeps r idx s hk
  | .staRemove r idx => execStaRemove_keeps r idx s hk
  | .staRemoveDone idx => execStaRemoveDone_keeps idx s hk
  | .staFlush r idx tid all => execStaFlush_keeps r idx tid all s hk
  | .staAlloc r => execStaAlloc_keeps r s hk
  | .setKey r idx => execSetKey_keeps r idx s hk
  | .setGkey r idx => execSetGkey_keeps r idx s hk
  | .twtAdd r => execTwtAdd_keeps r s hk
  | .twtRemove r idx => execTwtRemove_keeps r idx s hk
  | .twtRead r idx => execTwtRead_keeps r idx s hk
  | .schedCmdPause r p => execSchedCmdPause_keeps r p s hk
  | .schedCmdResume r p => execSchedCmdResume_keeps r p s hk
  | .replan r p => execReplan_keeps r p s hk
  | .planRebuild p => execPlanRebuild_keeps p s hk
  | .txopWon p => execTxopWon_keeps p s hk
  | .ppduPrepare p us slot => execPpduPrepare_keeps p us slot s hk
  | .txopEnd p => execTxopEnd_keeps p s hk
  | .bsrpDue p => execBsrpDue_keeps p s hk
  | .twtSpStart entry => execTwtSpStart_keeps entry s hk
  | .twtSpEnd entry => execTwtSpEnd_keeps entry s hk
  | .mpduRx p m => execMpduRx_keeps p m s hk
  | .blockAckRx p b => execBlockAckRx_keeps p b s hk
  | .reorderTimeout sta tid => execReorderTimeout_keeps sta tid s hk
  | .staKeySwitch slot => execStaKeySwitch_keeps slot s hk
  | .gkeySwitch slot => execGkeySwitch_keeps slot s hk
  | .twtEnable slot => execTwtEnable_keeps slot s hk
  | .twtDisable slot => execTwtDisable_keeps slot s hk
  | .schedPause slot => execSchedPause_keeps slot s hk
  | .schedResume slot => execSchedResume_keeps slot s hk
  | .bhCycleStart dir => execBhCycleStart_keeps dir s hk
  | .bhFrameRx dir f => execBhFrameRx_keeps dir f s hk
  | .bhHealthReport dir => execBhHealthReport_keeps dir s hk
  | .noiseWindowDone dir snr0 snr1 late0 late1 => execNoiseWindowDone_keeps dir snr0 snr1 late0 late1 s hk
  | .tmSend r d w => execTmSend_keeps r d w s hk
  | .tmUpdateRx dir stream id k design entries => execTmUpdateRx_keeps dir stream id k design entries s hk
  | .bhLinkLost dir => execBhLinkLost_keeps dir s hk
  | .bhSearchRestart dir => execBhSearchRestart_keeps dir s hk
  | .searchComplete dir => execSearchComplete_keeps dir s hk
  | .headWrite r d h w => execHeadWrite_keeps r d h w s hk
  | .headRead r d h w data => execHeadRead_keeps r d h w data s hk
  | .headAlert dir => execHeadAlert_keeps dir s hk
  | .bhCal r d w => execBhCal_keeps r d w s hk
  | .bhActChannel d slot => execBhActChannel_keeps d slot s hk
  | .dirOn d slot => execDirOn_keeps d slot s hk
  | .dirOff d slot => execDirOff_keeps d slot s hk
  | .linkCfgEnable r l w => execLinkCfgEnable_keeps r l w s hk
  | .xblDispatch l m => execXblDispatch_keeps l m s hk
  | .xblFrameRx l m f => execXblFrameRx_keeps l m f s hk
  | .xblReorderTimeout l seq => execXblReorderTimeout_keeps l seq s hk
  | .xblAckDue l => execXblAckDue_keeps l s hk
  | .xblRetxTimeout l seq => execXblRetxTimeout_keeps l seq s hk
  | .keepaliveDue l m => execKeepaliveDue_keeps l m s hk
  | .memberHealthReport l m miss cap => execMemberHealthReport_keeps l m miss cap s hk
  | .memberSilent l m => execMemberSilent_keeps l m s hk
  | .memberNoReport l m => execMemberNoReport_keeps l m s hk
  | .memberUp l m => execMemberUp_keeps l m s hk
  | .returnWaitEnd l c => execReturnWaitEnd_keeps l c s hk
  | .xblKeySwitch slot => execXblKeySwitch_keeps slot s hk
  | .xblKeySelWrite r l w => execXblKeySelWrite_keeps r l w s hk
  | .linkOn slot => execLinkOn_keeps slot s hk
  | .linkOff slot => execLinkOff_keeps slot s hk
  | .ethFrameRx q frame fcsOk pause => execEthFrameRx_keeps q frame fcsOk pause s hk
  | .frameIngress port frame g => execFrameIngress_keeps port frame g s hk
  | .learn => execLearn_keeps s hk
  | .portDequeue port => execPortDequeue_keeps port s hk
  | .spillFetch q => execSpillFetch_keeps q s hk
  | .discardSpill r => execDiscardSpill_keeps r s hk
  | .tblInsert r => execTblInsert_keeps r s hk
  | .tblDelete r => execTblDelete_keeps r s hk
  | .tblSearch r => execTblSearch_keeps r s hk
  | .tblNext r type restart => execTblNext_keeps r type restart s hk
  | .flushPort r port inclStatic type => execFlushPort_keeps r port inclStatic type s hk
  | .ageSweep r type => execAgeSweep_keeps r type s hk
  | .walkClose r => execWalkClose_keeps r s hk
  | .sweepDone => execSweepDone_keeps s hk
  | .autoAge => execAutoAge_keeps s hk
  | .walkTimeout r => execWalkTimeout_keeps r s hk
  | .parityRemove pos => execParityRemove_keeps pos s hk
  | .scrubPass bad => execScrubPass_keeps bad s hk
  | .hashSeedWrite r n w => execHashSeedWrite_keeps r n w s hk
  | .lpmInsert r w => execLpmInsert_keeps r w s hk
  | .lpmDelete r w => execLpmDelete_keeps r w s hk
  | .lpmSearch r w => execLpmSearch_keeps r w s hk
  | .lpmNext r w => execLpmNext_keeps r w s hk
  | .lpmWalkClose r => execLpmWalkClose_keeps r s hk
  | .lpmRepair stage node lost => execLpmRepair_keeps stage node lost s hk
  | .nhWrite r idx => execNhWrite_keeps r idx s hk
  | .nhRead r idx => execNhRead_keeps r idx s hk
  | .vlanWrite r vid => execVlanWrite_keeps r vid s hk
  | .vlanRead r vid => execVlanRead_keeps r vid s hk
  | .fwLoad r => execFwLoad_keeps r s hk
  | .fwVerifyDone => execFwVerifyDone_keeps s hk
  | .fwHalt r => execFwHalt_keeps r s hk
  | .fwStart r => execFwStart_keeps r s hk
  | .fwRestart r e => execFwRestart_keeps r e s hk
  | .engineWdtExpiry e => execEngineWdtExpiry_keeps e s hk
  | .engineFault e code addr => execEngineFault_keeps e code addr s hk
  | .clean e dram addr len => execClean_keeps e dram addr len s hk
  | .invalidate e dram addr len => execInvalidate_keeps e dram addr len s hk
  | .cleanInvalidate e dram addr len => execCleanInvalidate_keeps e dram addr len s hk
  | .mbDoorbell r m => execMbDoorbell_keeps r m s hk
  | .mbRelease r m => execMbRelease_keeps r m s hk
  | .tdWrite r t => execTdWrite_keeps r t s hk
  | .tdRead r t => execTdRead_keeps r t s hk
  | .tdFree r t => execTdFree_keeps r t s hk
  | .setCount r t => execSetCount_keeps r t s hk
  | .grDec r t => execGrDec_keeps r t s hk
  | .grDone r t gen => execGrDone_keeps r t gen s hk
  | .grateSourceEvent => execGrateSourceEvent_keeps s hk
  | .grateTimer t => execGrateTimer_keeps t s hk
  | .grateDispatch => execGrateDispatch_keeps s hk
  | .preemptSaveDone e => execPreemptSaveDone_keeps e s hk
  | .taskEndResume e => execTaskEndResume_keeps e s hk
  | .taskOverrun t => execTaskOverrun_keeps t s hk
  | .embLoad r image => execEmbLoad_keeps r image s hk
  | .embSwitch r => execEmbSwitch_keeps r s hk
  | .embSwitchApply => execEmbSwitchApply_keeps s hk
  | .chStart r n host => execChStart_keeps r n host s hk
  | .chPause r n => execChPause_keeps r n s hk
  | .dmaPaused n => execDmaPaused_keeps n s hk
  | .chResume r n => execChResume_keeps r n s hk
  | .chStop r n => execChStop_keeps r n s hk
  | .chAbort r n => execChAbort_keeps r n s hk
  | .dmaBurst host => execDmaBurst_keeps host s hk
  | .dmaRequest line => execDmaRequest_keeps line s hk
  | .chLevelAdj r n w => execChLevelAdj_keeps r n w s hk
  | .descriptorEnd n host => execDescriptorEnd_keeps n host s hk
  | .dmaHostError n => execDmaHostError_keeps n s hk
  | .aesKeyInstall r slot long index hi => execAesKeyInstall_keeps r slot long index hi s hk
  | .aesKeyErase r slot long index hi => execAesKeyErase_keeps r slot long index hi s hk
  | .ctxOpen r k slot prio hi => execCtxOpen_keeps r k slot prio hi s hk
  | .ctxClose r k hi => execCtxClose_keeps r k hi s hk
  | .ctxGo r k decrypt => execCtxGo_keeps r k decrypt s hk
  | .aesBlockDone => execAesBlockDone_keeps s hk
  | .pipeKeyInstall r slot hi => execPipeKeyInstall_keeps r slot hi s hk
  | .pipeKeyErase r slot hi => execPipeKeyErase_keeps r slot hi s hk
  | .pipeKeyStat r slot hi => execPipeKeyStat_keeps r slot hi s hk
  | .dramInit r => execDramInit_keeps r s hk
  | .dramInitDone fail => execDramInitDone_keeps fail s hk
  | .fspChange r rate => execFspChange_keeps r rate s hk
  | .fspChangeStart => execFspChangeStart_keeps s hk
  | .fspDone => execFspDone_keeps s hk
  | .retrainNow r allFsp => execRetrainNow_keeps r allFsp s hk
  | .unfreezeResume r => execUnfreezeResume_keeps r s hk
  | .unfreezeReinit r => execUnfreezeReinit_keeps r s hk
  | .dramRetrain => execDramRetrain_keeps s hk
  | .refreshDue ch bank rt => execRefreshDue_keeps ch bank rt s hk
  | .refreshPayback ch bank => execRefreshPayback_keeps ch bank s hk
  | .mr4Poll ch hot => execMr4Poll_keeps ch hot s hk
  | .dramAccess kind inst addr len write untracked ecc => execDramAccess_keeps kind inst addr len write untracked ecc s hk
  | .patrolScrub ecc => execPatrolScrub_keeps ecc s hk
  | .perstDeassert => execPerstDeassert_keeps s hk
  | .pcieLinkUp speed width => execPcieLinkUp_keeps speed width s hk
  | .hotReset => execHotReset_keeps s hk
  | .functionLevelReset => execFunctionLevelReset_keeps s hk
  | .linkDown => execLinkDown_keeps s hk
  | .holdAbort a bar2 write => execHoldAbort_keeps a bar2 write s hk
  | .spiWrite a ws crc => execSpiWrite_keeps a ws crc s hk
  | .spiRead op a n crc => execSpiRead_keeps op a n crc s hk
  | .spiReadClr a n crc complete => execSpiReadClr_keeps a n crc complete s hk
  | .cascWindowAccess r off w found => execCascWindowAccess_keeps r off w found s hk
  | .ethLinkChange q stat => execEthLinkChange_keeps q stat s hk
  | .sfpI2cAccess r q w => execSfpI2cAccess_keeps r q w s hk
  | .sfpI2cDone q nack data => execSfpI2cDone_keeps q nack data s hk
  | .bypOpenWrite r w => execBypOpenWrite_keeps r w s hk
  | .bypKick r w => execBypKick_keeps r w s hk
  | .bypassWdtExpiry => execBypassWdtExpiry_keeps s hk
  | .korUp k peerPart peerLink peerMaster => execKorUp_keeps k peerPart peerLink peerMaster s hk
  | .korDegraded k => execKorDegraded_keeps k s hk
  | .korDown k => execKorDown_keeps k s hk
  | .korubTimeExchange k m masterHold => execKorubTimeExchange_keeps k m masterHold s hk
  | .levelWrite r o w => execLevelWrite_keeps r o w s hk
  | .failsafeWrite r o w => execFailsafeWrite_keeps r o w s hk
  | .failsafeStoreDone o => execFailsafeStoreDone_keeps o s hk
  | .lampKick r w => execLampKick_keeps r w s hk
  | .hostWdtExpiry => execHostWdtExpiry_keeps s hk
  | .pwmBoundary n => execPwmBoundary_keeps n s hk
  | .daliLevelFrame c delayed => execDaliLevelFrame_keeps c delayed s hk
  | .daliCollision c => execDaliCollision_keeps c s hk
  | .daliFrameDone c ans => execDaliFrameDone_keeps c ans s hk
  | .dqPush r c w => execDqPush_keeps r c w s hk
  | .dqFlush r c w => execDqFlush_keeps r c w s hk
  | .dqResRead r c => execDqResRead_keeps r c s hk
  | .busDown c => execBusDown_keeps c s hk
  | .busUp c => execBusUp_keeps c s hk
  | .lampActLevel slot => execLampActLevel_keeps slot s hk
  | .lampActScene slot => execLampActScene_keeps slot s hk
  | .evtRdIdx r w => execEvtRdIdx_keeps r w s hk
  | .evtClr r w => execEvtClr_keeps r w s hk
  | .traceIntake => execTraceIntake_keeps s hk
  | .transDone => execTransDone_keeps s hk
  | .x40mUsable => execX40mUsable_keeps s hk
  | .eLockAgeExpiry => execELockAgeExpiry_keeps s hk
  | .xblKeyOverlapEnd l => execXblKeyOverlapEnd_keeps l s hk
  | .aesHoldExpiry => execAesHoldExpiry_keeps s hk
  | .embVerifyDone => execEmbVerifyDone_keeps s hk
  | .perstAssert => execPerstAssert_keeps s hk
  | .headAlertRelease dir => execHeadAlertRelease_keeps dir s hk
  | .addressTableWriteDone eui => execAddressTableWriteDone_keeps eui s hk

theorem step_cons (s : State) (c : Instr) (rest : List Instr) (h : s.pending = c :: rest) :
    step s = exec c { s with pending := rest } := by
  simp only [step, h]

/-- Settles O1: `step` takes its command from the front of the queue. -/
theorem stepRunsFront : Obligations.StepRunsFront :=
  fun c rest s => step_cons { s with pending := c :: rest } c rest rfl

/-- Settles O52: the overlay of reset is a closed list in offset order, and no memory lists a byte. -/
theorem resetIsCanonical : Obligations.ResetIsCanonical := by
  have hregs : Sparse.sorted State.reset.regs = true := by decide
  have hmems : memsCanon State.reset = true := by decide
  simp only [Obligations.ResetIsCanonical, State.canon, hregs, hmems, Bool.and_self]

/-- Settles O53: on an empty queue a nanosecond passes, which keeps the forms; else the command at the front does. -/
theorem stepKeepsCanonical : Obligations.StepKeepsCanonical := by
  intro s t hcanon hstep
  have hk := s.canon_iff_kept.mp hcanon
  cases hq : s.pending with
  | nil =>
    rw [step_idle s hq] at hstep
    obtain rfl : s.tick = t := Host.Outcome.next.inj hstep
    exact (s.tick_kept hk).canon
  | cons c rest =>
    rw [step_cons s c rest hq] at hstep
    have hrest : State.Kept (s.part, s.straps, rest, s.mono) { s with pending := rest } := { hk with id := rfl }
    exact ((exec_keeps c _ hrest).next t hstep).canon

/-- Settles O54: what every row's meaning keeps names the four fields. -/
theorem commandsLeaveTimeAndQueue : Obligations.CommandsLeaveTimeAndQueue := by
  intro c s t hcanon hexec
  have hid := ((exec_keeps c s (s.canon_iff_kept.mp hcanon)).next t hexec).id
  simp only [Prod.mk.injEq] at hid
  obtain ⟨hpart, hstraps, hpending, hmono⟩ := hid
  exact ⟨hmono, hpending, hpart, hstraps⟩

end Sys2Proof.Machine

/-! # DRAM_CFG, the bypass holds and the links of a cascade: O49, O56 and O57 -/

namespace Sys2Proof.Machine

section DramCfg
variable (s : State)

/-- The map gives DRAM_CFG as a register that is read and written. -/
theorem State.spec_dramCfg : ∃ g, s.spec C7.dramCfg = some g ∧ g.acc = .rw :=
  Option.map_eq_some_iff.mp (show (findReg (mapC 7) 0x100).map RegSpec.acc = some .rw by decide)

/-- DRAM_CFG is no command register. -/
theorem State.commandAt_dramCfg : s.commandAt C7.dramCfg = none := by
  have hnone : (hookFor commandsC C7.dramCfg).isNone = true := by decide
  exact Option.isNone_iff_eq_none.mp hnone

theorem State.memberPage_dramCfg : s.memberPage C7.dramCfg = none := rfl

/-- While the DRAM is neither OFF nor FAILED a write of DRAM_CFG is discarded and recorded as CFG_LOCKED (R413). -/
theorem State.writeLock_dramCfg (w : Word) (hoff : s.dm ≠ dmOff) (hfailed : s.dm ≠ dmFailed) :
    s.writeLock C7.dramCfg w = some (s.err C7.page 0x100 w) := by
  have hfw : C7.dramCfg ≠ C4.fwBase := by decide
  simp only [State.writeLock, if_neg hfw, if_true, hoff, hfailed, or_self, if_false]

/-- A direct write of DRAM_CFG in those states leaves that record alone. -/
theorem State.writeReg_dramCfg_locked (r : Requester) (w : Word) (hd : s.direct r C7.dramCfg = true) (hoff : s.dm ≠ dmOff)
    (hfailed : s.dm ≠ dmFailed) : s.writeReg r C7.dramCfg w = s.err C7.page 0x100 w := by
  obtain ⟨g, hg, hrw⟩ := s.spec_dramCfg
  rw [s.writeReg_direct r C7.dramCfg w g (by decide) hd hg s.commandAt_dramCfg s.memberPage_dramCfg]
  simp only [State.directWrite, hrw, s.writeLock_dramCfg w hoff hfailed]

/-- DRAM_CFG only holds the word it is given. -/
theorem State.directStore_dramCfg (r : Requester) (x : Word) : s.directStore r C7.dramCfg x = s.wr C7.dramCfg x := by
  rw [s.directStore_dieC r _ x (by decide) (by decide) (by decide), s.store_unhooked _ x (by decide)]

end DramCfg

/-- Settles O56: the lock of DRAM_CFG stands before its checks; without it the register takes the legal word. -/
theorem dramCfgLocked : Obligations.DramCfgLocked := by
  refine ⟨?locked, ?taken⟩
  case locked =>
    intro r w s hd hoff hfailed
    refine ⟨?_, s.rd_err _ _ _ _ (by decide) (by decide), s.rd_err_code _ _ _ (by decide) (by decide), s.rd_err_info _ _ _ (by decide)⟩
    rw [exec_registerWrite_aligned r _ w s (by decide) (by decide), s.writeReg_dramCfg_locked r w hd hoff hfailed]
  case taken =>
    intro r w s htakes _
    rw [exec_registerWrite_aligned r _ w s (by decide) (by decide), s.writeReg_takes_store r _ w w htakes (by decide),
      s.directStore_dramCfg]

section Bypass
variable (s : State)

/-! ## Who may write (R451) -/

/-- A write of a command register that reaches its page has its effect, after the record of a write under a tag (R56). -/
theorem State.cmdWrite_reached (r : Requester) (a : Nat) (act : State → State) (hr : s.reachable a = true) (hp : s.pathOk r a = true) :
    s.cmdWrite r a act = act (s.nonTrans r a) := by
  simp only [State.cmdWrite, State.nonTrans, hr, hp, Bool.not_true, Bool.false_eq_true, if_false]

/-- A requester that is not the host is recorded as BYP_REQUESTER. -/
theorem State.bypWrite_foreign (r : Requester) (a : Nat) (w : Word) (act : Nat → State → State) (h : isHost r = false)
    (hd : s.direct r a = true) : s.bypWrite r a w act = s.err C9.page 0x0101 (BitVec.ofNat 32 (a % 0x10000)) := by
  rw [State.bypWrite, if_neg (Bool.eq_false_iff.mp h), s.cmdWrite_direct r a _ hd]

/-- The host's guarded word has the register's effect. -/
theorem State.bypWrite_host (r : Requester) (a : Nat) (w : Word) (act : Nat → State → State) (h : isHost r = true)
    (hd : s.direct r a = true) (hg : guardOk w = true) : s.bypWrite r a w act = act (bitsOf w 15 0) s := by
  rw [State.bypWrite, if_pos h, s.guardWrite_direct r a w act hd hg]

/-- The bypass stands as it did: the watchdog's record, the permission, the last kick, and the holds. -/
def State.bypUntouched (s t : State) : Prop :=
  t.byp = s.byp ∧ t.rd C9.bypOpen = s.rd C9.bypOpen ∧ t.rd C9.bypKick = s.rd C9.bypKick ∧ t.rd C9.bypStat = s.rd C9.bypStat

/-- An error recorded on the ring ports' page leaves the bypass. -/
theorem State.bypUntouched_err (t : State) (code : Nat) (info : Word) (h : s.bypUntouched t) :
    s.bypUntouched (t.err C9.page code info) := by
  obtain ⟨hbyp, hopen, hkick, hstat⟩ := h
  obtain ⟨l, m, o, r, he⟩ := t.recordsOnly_err t C9.page code info t.recordsOnly_refl
  have hrec : (t.err C9.page code info).byp = t.byp := by rw [he]
  exact ⟨hrec.trans hbyp, (t.rd_err _ _ _ _ (by decide) (by decide)).trans hopen,
    (t.rd_err _ _ _ _ (by decide) (by decide)).trans hkick, (t.rd_err _ _ _ _ (by decide) (by decide)).trans hstat⟩

/-- So does the record of a write under a tag. -/
theorem State.bypUntouched_nonTrans (r : Requester) (a : Nat) (ha : pageOf a = C9.page) : s.bypUntouched (s.nonTrans r a) := by
  unfold State.nonTrans
  split
  case isTrue => exact ⟨rfl, rfl, rfl, rfl⟩
  case isFalse => rw [ha]; exact s.bypUntouched_err s _ _ ⟨rfl, rfl, rfl, rfl⟩

/-- A write by another requester, under a tag or not, leaves the bypass, and BYP_REQUESTER with the register's offset is the page's
error. -/
theorem State.bypWrite_refused (r : Requester) (a : Nat) (w : Word) (act : Nat → State → State) (h : isHost r = false)
    (hr : s.reachable a = true) (hp : s.pathOk r a = true) (ha : pageOf a = C9.page) :
    s.bypUntouched (s.bypWrite r a w act) ∧ (s.bypWrite r a w act).fld (HDR.errCode C9.page) 15 0 = 0x101 ∧
      (s.bypWrite r a w act).rd (HDR.errInfo C9.page) = BitVec.ofNat 32 (a % 0x10000) := by
  rw [State.bypWrite, if_neg (Bool.eq_false_iff.mp h), s.cmdWrite_reached r a _ hr hp]
  exact ⟨s.bypUntouched_err _ _ _ (s.bypUntouched_nonTrans r a ha), State.rd_err_code _ _ _ _ (by decide) (by decide),
    State.rd_err_info _ _ _ _ (by decide)⟩

/-! ## What an accepted word does (R449 to R452) -/

theorem exec_bypOpenWrite_host (r : Requester) (w : Word) (h : isHost r = true) (hd : s.direct r C9.bypOpen = true)
    (hg : guardOk w = true) :
    exec (.bypOpenWrite r w) s = .next (if bitsOf w 15 0 / 4 ≠ 0 then s.guardRange C9.bypOpen 15 2 (bitsOf w 15 0 / 4) 0
      else s.bypSettle (s.wr C9.bypOpen (guardRead (bitsOf w 15 0)))) :=
  congrArg Host.Outcome.next (s.bypWrite_host r _ w _ h hd hg)

/-- The two bits of BYP_OPEN are taken, and the holds follow. -/
theorem exec_bypOpenWrite_accepted (r : Requester) (w : Word) (h : isHost r = true) (hd : s.direct r C9.bypOpen = true)
    (hg : guardOk w = true) (hv : bitsOf w 15 0 < 4) :
    exec (.bypOpenWrite r w) s = .next (s.bypSettle (s.wr C9.bypOpen (guardRead (bitsOf w 15 0)))) := by
  rw [exec_bypOpenWrite_host s r w h hd hg, if_neg (not_not_intro (Nat.div_eq_of_lt hv))]

theorem exec_bypKick_host (r : Requester) (w : Word) (h : isHost r = true) (hd : s.direct r C9.bypKick = true)
    (hg : guardOk w = true) :
    exec (.bypKick r w) s = .next (if bitsOf w 15 0 = 0x5A ∨ bitsOf w 15 0 = 0xA5 then s.bypKicked (bitsOf w 15 0)
      else s.guardRange C9.bypKick 15 0 (bitsOf w 15 0) (s.fld C9.bypKick 15 0)) :=
  congrArg Host.Outcome.next (s.bypWrite_host r _ w _ h hd hg)

/-- The first kick, or one that differs from its predecessor, services the watchdog. -/
theorem State.bypKicked_services (v : Nat) (hdue : s.bypDue = false) (hv : s.byp.first = true ∨ s.fld C9.bypKick 15 0 ≠ v) :
    s.bypKicked v = s.bypSettle ((({ s.wr C9.bypKick (guardRead v) with
      byp := { serviced := some s.mono, period := s.fld C9.bypWdt 8 0 * 1000000, first := false } } : State).setBit C9.bypStat 2
        true).setBit C9.bypStat 3 false) := by
  simp only [State.bypKicked, hdue, Bool.false_eq_true, if_false, Bool.or_eq_true, decide_eq_true_eq, hv, if_true]

/-- One equal to its predecessor sets the status bit alone. -/
theorem State.bypKicked_repeats (v : Nat) (hdue : s.bypDue = false) (hf : s.byp.first = false) (hv : s.fld C9.bypKick 15 0 = v) :
    s.bypKicked v = (s.wr C9.bypKick (guardRead v)).setBit C9.bypStat 3 true := by
  simp [State.bypKicked, hdue, hf, hv]

theorem exec_bypKick_services (r : Requester) (w : Word) (h : isHost r = true) (hd : s.direct r C9.bypKick = true)
    (hg : guardOk w = true) (hw : bitsOf w 15 0 = 0x5A ∨ bitsOf w 15 0 = 0xA5) (hdue : s.bypDue = false)
    (hv : s.byp.first = true ∨ s.fld C9.bypKick 15 0 ≠ bitsOf w 15 0) :
    exec (.bypKick r w) s = .next (s.bypSettle ((({ s.wr C9.bypKick (guardRead (bitsOf w 15 0)) with
      byp := { serviced := some s.mono, period := s.fld C9.bypWdt 8 0 * 1000000, first := false } } : State).setBit C9.bypStat 2
        true).setBit C9.bypStat 3 false)) := by
  rw [exec_bypKick_host s r w h hd hg, if_pos hw, s.bypKicked_services _ hdue hv]

/-- A hold whose conditions have gone falls, with its cause and event. -/
theorem State.bypSettleOne_falls (q : Nat) (hup : s.bit C9.bypStat q = true) (hw : s.bypWant q = false) :
    s.bypSettleOne q =
      ((s.setBit C9.bypStat q false).setFld C9.bypStat (6 + 4 * q) (4 + 4 * q) (s.bypCause q)).raise C9.page (1 + q) := by
  simp only [State.bypSettleOne, hup, hw, Bool.true_eq_false, Bool.false_eq_true, if_false]

end Bypass

section Korub
variable (s : State) (k : Fin 3)

/-! ## The links of a cascade (R456 to R461) -/

/-- A link that trains comes up when part, link and strap of its peer fit, and is MISWIRED otherwise. -/
theorem exec_korUp_trains (pp pl : Fin 4) (m : Bool) (hc : s.powered .c = true)
    (ht : s.kor k.val = korTraining ∨ s.kor k.val = korIsDown) :
    exec (.korUp k pp pl m) s = .next
      (if pp.val = s.korPart k.val ∧ pl.val = 2 - k.val ∧ (m && s.straps.master) = false then
        (s.wr (C10.korStat k.val) (BitVec.ofNat 32 (korIsUp + 2 * 2 ^ 4 + pp.val * 2 ^ 8 + pl.val * 2 ^ 12))).raise C10.page (4 + k.val)
      else (s.wr (C10.korStat k.val) (BitVec.ofNat 32 (korMiswired + 2 * 2 ^ 4 + pp.val * 2 ^ 8 + pl.val * 2 ^ 12))).err C10.page 0x0101
        (BitVec.ofNat 32 (k.val * 256 + pp.val * 16 + pl.val))) := by
  have hgo : (!s.powered .c || !(decide (s.kor k.val = korTraining) || decide (s.kor k.val = korIsDown))) = false := by
    rw [hc, ← Bool.decide_or, decide_eq_true ht]
    rfl
  change execKorUp k pp pl m s = _
  simp only [execKorUp, hgo, Bool.false_eq_true, if_false, Bool.and_eq_true, beq_iff_eq, Bool.not_eq_true', and_assoc]
  exact (apply_ite Host.Outcome.next _ _ _).symm

/-- A link that is up is declared down, with the groups beyond it; the link to the master takes the host's sleep and its time. -/
theorem State.korLose_up (hup : s.kor k.val = korIsUp) (u : State)
    (hu : u = (((s.setFld (C10.korStat k.val) 5 0 korIsDown).bump (C10.korErr k.val) 31 16 1).raise C10.page k.val).groupsLose
      (s.korPart k.val) none (txnInfo 1 10 0)) :
    s.korLose k.val = if !s.straps.master && s.korPart k.val == 0 then (u.setBit E9.wakeCause 3 true).masterLost else u := by
  simp only [State.korLose, hup, ne_eq, not_true_eq_false, if_false, hu]

theorem exec_korDown_powered (hc : s.powered .c = true) : exec (.korDown k) s = .next (s.korLose k.val) :=
  congrArg Host.Outcome.next (if_pos hc)

/-- A link that loses a lane runs on with one where that is allowed, and is declared down otherwise. -/
theorem exec_korDegraded_up (hc : s.powered .c = true) (hup : s.kor k.val = korIsUp) :
    exec (.korDegraded k) s = .next
      (if s.bit (C10.korCfg k.val) 0 then (s.setFld (C10.korStat k.val) 5 4 1).raise C10.page 8 else s.korLose k.val) := by
  change execKorDegraded k s = _
  simp only [execKorDegraded, hc, hup, ne_eq, not_true_eq_false, decide_false, Bool.not_true, Bool.or_self, Bool.false_eq_true, if_false]
  exact (apply_ite Host.Outcome.next _ _ _).symm

/-- A subordinate's exchange with a LOCKED master is a measurement of source 12. -/
theorem exec_korubTimeExchange_locked (m : TimeMeas) (hrun : s.cRuns = true) (hsub : s.straps.master = false)
    (hup : s.kor k.val = korIsUp) (hpart : s.korPart k.val = 0) (hl : m.locked = true) :
    exec (.korubTimeExchange k m false) s = .next ((s.wr (C10.korTimeNs k.val) (satI32 (s.measuredOffset 12 m))).measure 12
      (s.measuredOffset 12 m) m.gmRank m.steps true m.arb m.utc) := by
  change execKorubTimeExchange k m false s = _
  simp only [execKorubTimeExchange, hrun, hsub, hup, hpart, hl, ne_eq, not_true_eq_false, decide_false, Bool.not_true, Bool.or_self,
    Bool.false_and, Bool.false_eq_true, if_false, if_true]

end Korub

/-- Settles O57: another requester's write leaves two records alone, and the host's has its effect. -/
theorem bypRequester : Obligations.BypRequester := by
  refine ⟨?openRefused, ?kickRefused, ?openHost, ?kickHost⟩
  case openRefused =>
    intro r w s h hr hp
    obtain ⟨⟨hbyp, hopen, hkick, hstat⟩, herr⟩ := s.bypWrite_refused r C9.bypOpen w _ h hr hp rfl
    exact ⟨_, rfl, hbyp, hopen, hkick, hstat, herr⟩
  case kickRefused =>
    intro r w s h hr hp
    obtain ⟨⟨hbyp, hopen, hkick, hstat⟩, herr⟩ := s.bypWrite_refused r C9.bypKick w _ h hr hp rfl
    exact ⟨_, rfl, hbyp, hopen, hkick, hstat, herr⟩
  case openHost =>
    exact fun r w s h hd hg hv => exec_bypOpenWrite_accepted s r w h hd hg hv
  case kickHost =>
    rintro r w s t h hd hg hw hdue hv rfl
    exact exec_bypKick_services s r w h hd hg hw hdue hv

/-- Settles O49: an accepted word by its range and the last kick, a link by its state and what its peer tells. -/
theorem bypassAndKorub : Obligations.BypassAndKorub := by
  refine ⟨?openForeign, ?kickForeign, ?openHost, ?openRange, ?kickServices, ?kickRepeats, ?kickRange, ?expiry, ?falls, ?up, ?miswired,
    ?oneLane, ?down, ?laneDown, ?exchange⟩
  case openForeign =>
    exact fun r w s h hd => congrArg Host.Outcome.next (s.bypWrite_foreign r C9.bypOpen w _ h hd)
  case kickForeign =>
    exact fun r w s h hd => congrArg Host.Outcome.next (s.bypWrite_foreign r C9.bypKick w _ h hd)
  case openHost =>
    exact fun r w s h hd hg hv => exec_bypOpenWrite_accepted s r w h hd hg hv
  case openRange =>
    intro r w s h hd hg hv
    rw [exec_bypOpenWrite_host s r w h hd hg, if_pos (by omega)]
  case kickServices =>
    rintro r w s t h hd hg hw hdue hv rfl
    exact exec_bypKick_services s r w h hd hg hw hdue hv
  case kickRepeats =>
    intro r w s h hd hg hw hdue hf hv
    rw [exec_bypKick_host s r w h hd hg, if_pos hw, s.bypKicked_repeats _ hdue hf hv]
  case kickRange =>
    intro r w s h hd hg h5A hA5
    rw [exec_bypKick_host s r w h hd hg, if_neg (not_or_intro h5A hA5)]
  case expiry =>
    rintro s t hdue rfl
    exact congrArg Host.Outcome.next (if_pos hdue)
  case falls =>
    exact fun q s hup hw => s.bypSettleOne_falls q hup hw
  case up =>
    intro k pp pl m s hc ht hpart hlink hm
    rw [exec_korUp_trains s k pp pl m hc ht, if_pos ⟨hpart, hlink, hm⟩]
  case miswired =>
    intro k pp pl m s hc ht hbad
    rw [exec_korUp_trains s k pp pl m hc ht, if_neg]
    rintro ⟨hpart, hlink, hm⟩
    rcases hbad with h | h | h
    · exact h hpart
    · exact h hlink
    · exact Bool.false_ne_true (hm.symm.trans h)
  case oneLane =>
    intro k s hc hup hone
    rw [exec_korDegraded_up s k hc hup, if_pos hone]
  case down =>
    rintro k s t u hc hup rfl hu
    rw [exec_korDown_powered s k hc, s.korLose_up k hup u hu]
  case laneDown =>
    intro k s hc hup hone
    rw [exec_korDegraded_up s k hc hup, if_neg (Bool.eq_false_iff.mp hone), exec_korDown_powered s k hc]
  case exchange =>
    rintro k m s t u hrun hsub hup hpart hl rfl rfl
    exact exec_korubTimeExchange_locked s k m hrun hsub hup hpart hl

end Sys2Proof.Machine

/-! # Lamp outputs, the DALI channels, and the event log and trace ring: O50 and O51 -/

namespace Sys2Proof.Machine

section Lamps
variable (s : State)

/-! ## Failsafe levels and the host-loss watchdog (R467 to R471) -/

/-- A FAILSAFE word whose halves agree is taken where its level is in range, and else rejected. -/
theorem State.failsafeWrite_guarded (r : Requester) (o : Nat) (w : Word) (hd : s.direct r (E7.failsafe o) = true) (hg : guardOk w = true) :
    s.failsafeWrite r o w =
      if levelOk o (bitsOf w 15 0) then
        ((s.wr (E7.failsafe o) (BitVec.ofNat 32 (bitsOf w 15 0))).setLampOut o { s.lampOut o with storing := true }).setBit
          E7.lampStat 24 true
      else s.guardRange (E7.failsafe o) 15 0 (bitsOf w 15 0) (s.fld (E7.failsafe o) 15 0) :=
  s.guardWrite_direct r _ w _ hd hg

theorem exec_failsafeStoreDone_stored (o : Fin 6) (hst : (s.lampOut o.val).storing = true) (hw : s.supplyWarn .e = false) (t : State)
    (ht : t = s.setLampOut o.val { s.lampOut o.val with storing := false, stored := s.fld (E7.failsafe o.val) 15 0 }) :
    exec (.failsafeStoreDone o) s = .next ((t.setBit E7.lampStat 24 (t.lamp.outs.any LampOut.storing)).raise E7.page 7) := by
  change execFailsafeStoreDone o s = _
  simp only [execFailsafeStoreDone, hst, hw, Bool.not_false, Bool.and_self, if_true, ht]

/-- An engine's kick is discarded as LAMP_REQUESTER. -/
theorem State.lampKick_engine (e : Fin 16) (w : Word) (hd : s.direct (.engine e) E7.lampKick = true) :
    s.lampKick (.engine e) w = s.err E7.page 0x0101 (BitVec.ofNat 32 (E7.lampKick % 0x10000)) := by
  simp only [State.lampKick, s.cmdWrite_direct (.engine e) _ _ hd]

/-- Any requester's kick but an engine's is the guarded word's. -/
theorem State.lampKick_notEngine (r : Requester) (w : Word) (h : ∀ e, r ≠ .engine e) :
    s.lampKick r w = s.guardWrite r E7.lampKick w (fun v t =>
      ({ t.wr E7.lampKick (BitVec.ofNat 32 v) with
        lamp := { t.lamp with kick := if t.hostWdtCounts then some t.mono else none } } : State).fsClear 2) := by
  cases r with
  | engine e => exact absurd rfl (h e)
  | pcie => rfl
  | spi => rfl
  | casc => rfl

/-- The host-loss watchdog expires when it counts and its period since the last kick is over. -/
theorem exec_hostWdtExpiry_expired (k : Nat) (hk : s.lamp.kick = some k) (hc : s.hostWdtCounts = true)
    (hdue : k + s.fld E7.hostWdt 11 0 * 1000000000 ≤ s.mono) :
    exec .hostWdtExpiry s = .next (({ s with lamp := { s.lamp with kick := none } }.raise E7.page 2).fsBegin 2) := by
  change execHostWdtExpiry s = _
  simp only [execHostWdtExpiry, hk, hc, hdue, decide_true, Bool.and_self, if_true]

/-- Under a failsafe cause a level is not applied, but discarded as FS_ACTIVE. -/
theorem State.applyLevel_failsafe (o v : Nat) (h : s.fsActive = true) : s.applyLevel o v = none := if_pos h

/-! ## PWM periods (R472) -/

/-- At a boundary not yet marked, an enabled output makes its step. -/
theorem exec_pwmBoundary_new (n : Fin 4) (hon : s.lampOn (n.val + 2) = true) (hnew : s.pwmNew n.val = true) :
    exec (.pwmBoundary n) s = .next ((s.pwmMark n.val).pwmBoundary (n.val + 2)).oscSync := by
  change execPwmBoundary n s = _
  simp only [execPwmBoundary, hon, hnew, Bool.and_self, if_true]

/-- A change that asks for no fade, or finds none set, takes effect at once. -/
theorem State.pwmBoundary_atOnce (o : Nat)
    (h : (s.lampOut o).change = some false ∨ (s.lampOut o).change = some true ∧ s.fadeSteps o = 0) :
    s.pwmBoundary o = ((s.setLampOut o { s.lampOut o with change := none, fade := none }).wr (E7.outNow o)
      (BitVec.ofNat 32 ((s.lampOut o).level.getD 0))).setBit E7.lampStat (16 + o) false := by
  rcases h with hc | ⟨hc, hn⟩
  · simp only [State.pwmBoundary, hc, Bool.false_and, Bool.false_eq_true, if_false]
  · simp only [State.pwmBoundary, hc, hn, bne_self_eq_false, Bool.and_false, Bool.false_eq_true, if_false]

/-- A change with a fade set starts the fade from OUT_NOW. -/
theorem State.pwmBoundary_fades (o : Nat) (hc : (s.lampOut o).change = some true) (hn : s.fadeSteps o ≠ 0) :
    s.pwmBoundary o = (s.setLampOut o { s.lampOut o with
      change := none
      fade := some { start := s.fld (E7.outNow o) 15 0, goal := (s.lampOut o).level.getD 0, steps := s.fadeSteps o, done := 0 } }).setBit
        E7.lampStat (16 + o) true := by
  simp only [State.pwmBoundary, hc, bne_iff_ne.mpr hn, Bool.and_self, if_true]

/-- Without a change a fade that is not at its end makes one step. -/
theorem State.pwmBoundary_steps (o : Nat) (f : Fade) (hc : (s.lampOut o).change = none) (hf : (s.lampOut o).fade = some f)
    (hmore : f.done + 1 < f.steps) (t : State)
    (ht : t = { s.wr (E7.outNow o) (BitVec.ofNat 32 (s.fadeLevel { f with done := f.done + 1 })) with fresh := s.fresh + 1 }) :
    s.pwmBoundary o = t.setLampOut o { t.lampOut o with fade := some { f with done := f.done + 1 } } := by
  simp only [State.pwmBoundary, State.fadeStep, hc, hf, hmore, if_true, ht]

/-! ## Lamp actions at their T (R470, R477) -/

/-- A lamp action of the row's kind that runs while no failsafe cause is active, and that the output performs, is DONE; then the bus is
served. -/
theorem State.lampActAtT_done (i : Fin 8) (kind : Bool) (a : PendAct) (t : State) (h : s.actRuns (.lamp i) a)
    (hk : bitOf a.desc 0 = kind) (hfs : s.fsActive = false) (ht : lampPerform a s = some t) :
    s.lampActAtT i kind = ((t.endAct (.lamp i) stDone 0 false (!s.locked) false).daliLevelStart (bitsOf a.desc 6 4)).daliNext
      (bitsOf a.desc 6 4) := by
  have hdone := s.actAtT_done (.lamp i) lampPerform a t h ht
  obtain ⟨hp, -⟩ := h
  simp only [State.lampActAtT, hp, hk, hfs, hdone, beq_self_eq_true, Bool.and_false, Bool.false_and, Bool.false_eq_true, if_true, if_false]

/-- Under a failsafe cause the discarded action is recorded before its end. -/
theorem State.lampActAtT_failsafe (i : Fin 8) (kind : Bool) (a : PendAct) (h : s.actRuns (.lamp i) a) (hk : bitOf a.desc 0 = kind)
    (hfs : s.fsActive = true) :
    s.lampActAtT i kind = (((s.fsDiscard (bitsOf a.desc 6 4)).actAtT (.lamp i) lampPerform).daliLevelStart (bitsOf a.desc 6 4)).daliNext
      (bitsOf a.desc 6 4) := by
  obtain ⟨hp, hdue, hdeferred, hwarned⟩ := h
  simp only [State.lampActAtT, hp, hk, hfs, hdue, hdeferred, hwarned, beq_self_eq_true, Bool.not_false, Bool.and_self, if_true]

theorem lampPerform_level (a : PendAct) (hk : bitOf a.desc 0 = false) (hfs : s.fsActive = false) :
    lampPerform a s = s.applyLevel (bitsOf a.desc 6 4) (bitsOf a.extra 15 0) := by
  simp only [lampPerform, hfs, hk, Bool.false_eq_true, if_false]

/-- GO TO SCENE waits on an enabled output, whose level is unknown from then on, and takes the output out of failsafe (log 96). -/
theorem lampPerform_scene (a : PendAct) (o : Nat) (t u : State) (hk : bitOf a.desc 0 = true) (hfs : s.fsActive = false)
    (ho : o = bitsOf a.desc 6 4) (ht : t = s.setLampOut o { s.lampOut o with level := none, fs := false })
    (hu : u = if s.lampOn o then t.setDali o { t.dali o with waiting := some (s.sceneFrame o (bitsOf a.desc 11 8), none) } else t) :
    lampPerform a s = some (if (s.lampOut o).fs then s.healthStep (u.showFs.raise E7.page 1) else u) := by
  simp only [lampPerform, hfs, hk, ← ho, ← ht, ← hu, Bool.false_eq_true, if_false, if_true]

end Lamps

/-- Settles O50: the watchdog's rows by their guards, a boundary by the change and fade it finds, an action by the failsafe causes. -/
theorem lampOutputs : Obligations.LampOutputs := by
  refine ⟨?failsafe, ?failsafeRange, ?stored, ?kickEngine, ?kick, ?expiry, ?atOnce, ?fadeStarts, ?fadeSteps, ?marked, ?level,
    ?levelFailsafe, ?scene, ?discard⟩
  case failsafe =>
    exact fun r o w s hd hg hv => congrArg Host.Outcome.next ((s.failsafeWrite_guarded r o.val w hd hg).trans (if_pos hv))
  case failsafeRange =>
    exact fun r o w s hd hg hv =>
      congrArg Host.Outcome.next ((s.failsafeWrite_guarded r o.val w hd hg).trans (if_neg (Bool.eq_false_iff.mp hv)))
  case stored =>
    exact fun o s t hst hw ht => exec_failsafeStoreDone_stored s o hst hw t ht
  case kickEngine =>
    exact fun e w s hd => congrArg Host.Outcome.next (s.lampKick_engine e w hd)
  case kick =>
    rintro r w s t hr hd hg rfl
    exact congrArg Host.Outcome.next ((s.lampKick_notEngine r w hr).trans (s.guardWrite_direct r _ w _ hd hg))
  case expiry =>
    exact fun k s hk hc hdue => exec_hostWdtExpiry_expired s k hk hc hdue
  case atOnce =>
    rintro n s u hon hnew rfl hc
    rw [exec_pwmBoundary_new s n hon hnew, State.pwmBoundary_atOnce _ _ hc]
  case fadeStarts =>
    rintro n s u hon hnew rfl hc hn
    rw [exec_pwmBoundary_new s n hon hnew, State.pwmBoundary_fades _ _ hc hn]
  case fadeSteps =>
    rintro n f s u t hon hnew rfl hc hf hmore ht
    rw [exec_pwmBoundary_new s n hon hnew, State.pwmBoundary_steps _ _ f hc hf hmore t ht]
  case marked =>
    intro n s hon hnew
    change execPwmBoundary n s = _
    simp only [execPwmBoundary, hnew, Bool.and_false, Bool.false_eq_true, if_false]
  case level =>
    intro i a s t hp hd hs hw hk hfs ht
    exact congrArg Host.Outcome.next
      (s.lampActAtT_done i false a t ⟨hp, hd, hs, hw⟩ hk hfs ((lampPerform_level s a hk hfs).trans ht))
  case levelFailsafe =>
    intro i a s hp hd hs hw hk hfs
    exact congrArg Host.Outcome.next (s.lampActAtT_failsafe i false a ⟨hp, hd, hs, hw⟩ hk hfs)
  case scene =>
    rintro i a o s t u v hp hd hs hw hk hfs ho ht hu rfl
    have hdone := s.lampActAtT_done i true a _ ⟨hp, hd, hs, hw⟩ hk hfs (lampPerform_scene s a o t u hk hfs ho ht hu)
    rw [← ho] at hdone
    exact congrArg Host.Outcome.next hdone
  case discard =>
    intro o v s hfs
    rw [State.levelOrDiscard, s.applyLevel_failsafe o v hfs, Option.getD_none]
    rfl

section Dali
variable (s : State) (c : Fin 2)

/-! ## The DALI channels (R473 to R476) -/

/-- The waiting level frame starts where the bus is free, not down, and its output enabled. -/
theorem State.daliLevelStart_free (f : Nat) (v : Option Nat) (hw : (s.dali c.val).waiting = some (f, v))
    (hbus : (s.dali c.val).bus = .idle) (hup : s.busDown c.val = false) (hon : s.lampOn c.val = true) :
    s.daliLevelStart c.val = ((s.setDali c.val { s.dali c.val with waiting := none, bus := .level f }).wr (E7.outNow c.val)
      (BitVec.ofNat 32 (v.getD 0xFFFF))).emit (.dali c.val f false) := by
  simp only [State.daliLevelStart, hw, hbus, hup, hon, beq_self_eq_true, Bool.not_false, Bool.and_self, if_true]

theorem State.daliLevelStart_none (hw : (s.dali c.val).waiting = none) : s.daliLevelStart c.val = s := by
  simp only [State.daliLevelStart, hw]

/-- A level frame that starts is counted where another master held the bus. -/
theorem exec_daliLevelFrame_starts (delayed : Bool) (f : Nat) (v : Option Nat) (t : State)
    (hw : (s.dali c.val).waiting = some (f, v)) (ht : s.daliLevelStart c.val = t) (hnone : (t.dali c.val).waiting = none) :
    exec (.daliLevelFrame c delayed) s = .next (if delayed then t.bump (E7.daliCnt c.val) 31 16 1 else t) := by
  change execDaliLevelFrame c delayed s = _
  simp only [execDaliLevelFrame, ht, hw, hnone, Option.isSome_some, Option.isNone_some, Option.isNone_none, Bool.and_true,
    Bool.false_eq_true, if_false]

/-- With no level frame waiting the bus serves the queue. -/
theorem exec_daliLevelFrame_queue (delayed : Bool) (hw : (s.dali c.val).waiting = none) :
    exec (.daliLevelFrame c delayed) s = .next (s.daliNext c.val) := by
  change execDaliLevelFrame c delayed s = _
  simp only [execDaliLevelFrame, s.daliLevelStart_none c hw, hw, Option.isSome_none, Option.isNone_none, Bool.and_false, Bool.false_and,
    Bool.false_eq_true, if_false, if_true]

/-- A level frame that collided waits again, unless a newer one has replaced it. -/
theorem exec_daliCollision_level (f : Nat) (hbus : (s.dali c.val).bus = .level f) :
    exec (.daliCollision c) s = .next ((s.bump (E7.daliCnt c.val) 15 0 1).setDali c.val
      { s.dali c.val with bus := .idle, waiting := some ((s.dali c.val).waiting.getD (f, (s.lampOut c.val).level)) }) := by
  change execDaliCollision c s = _
  simp only [execDaliCollision, hbus]
  cases hw : (s.dali c.val).waiting <;> rfl

/-- A queued frame that collided is tried again, up to its tenth collision. -/
theorem exec_daliCollision_queued (f : DaliFrame) (hbus : (s.dali c.val).bus = .queued f) :
    exec (.daliCollision c) s = .next (if f.collisions + 1 < 10 then
        ((s.bump (E7.daliCnt c.val) 15 0 1).setDali c.val
          { s.dali c.val with bus := .idle, queue := { f with collisions := f.collisions + 1 } :: (s.dali c.val).queue }).daliNext c.val
      else (((s.bump (E7.daliCnt c.val) 15 0 1).daliResult c.val 3 0).err E7.page 0x0103 (BitVec.ofNat 32 c.val)).daliNext c.val) := by
  change execDaliCollision c s = _
  simp only [execDaliCollision, hbus]
  exact (apply_ite Host.Outcome.next _ _ _).symm

theorem exec_daliFrameDone_level (ans : DaliAnswer) (f : Nat) (hbus : (s.dali c.val).bus = .level f) :
    exec (.daliFrameDone c ans) s = .next ((s.setDali c.val { s.dali c.val with bus := .idle }).daliNext c.val) := by
  change execDaliFrameDone c ans s = _
  simp only [execDaliFrameDone, hbus]

/-- The result of a queued frame that ends: its code, and the backward frame. -/
def daliEnd (f : DaliFrame) (ans : DaliAnswer) : Nat × Nat :=
  if f.answer then
    match ans with
    | .none => (2, 0)
    | .byte b => (1, b.toNat)
    | .framing => (4, 0)
  else (0, 0)

/-- A queued frame that ends leaves its result, a TWICE frame having been sent a second time. -/
theorem exec_daliFrameDone_queued (ans : DaliAnswer) (f : DaliFrame) (t : State) (hbus : (s.dali c.val).bus = .queued f)
    (ht : t = if f.twice then s.emit (.dali c.val f.frame f.long) else s) :
    exec (.daliFrameDone c ans) s = .next ((t.daliResult c.val (daliEnd f ans).1 (daliEnd f ans).2).daliNext c.val) := by
  change execDaliFrameDone c ans s = _
  simp only [execDaliFrameDone, hbus, ← ht]
  cases ha : f.answer with
  | false => simp [daliEnd, ha]
  | true => cases ans <;> simp [daliEnd, ha]

/-- DQ_PUSH takes a frame into a queue of up to 32. -/
theorem State.dqPush_direct (r : Requester) (w : Word) (hd : s.direct r (E7.dqPush c.val) = true) :
    s.dqPush r c.val w =
      if (s.dali c.val).queue.length < 32 then
        (s.setDali c.val { s.dali c.val with
          queue := (s.dali c.val).queue ++ [DaliFrame.mk (bitsOf w 23 0) (bitOf w 24) (bitOf w 25) (bitOf w 26) 0] }).daliNext c.val
      else s.err E7.page 0x0102 (BitVec.ofNat 32 c.val) :=
  s.cmdWrite_direct r _ _ hd

/-- DQ_FLUSH gives each frame of the queue its result, FLUSHED. -/
theorem State.dqFlush_direct (r : Requester) (hd : s.direct r (E7.dqFlush c.val) = true) (t : State)
    (ht : t = s.setDali c.val { s.dali c.val with
      queue := []
      results := (s.dali c.val).results ++ (s.dali c.val).queue.map (fun _ => BitVec.ofNat 32 (2 ^ 31 + 5 * 2 ^ 8)) }) :
    s.dqFlush r c.val = if (s.dali c.val).queue.isEmpty then t else t.raise E7.page 3 := by
  rw [State.dqFlush, s.cmdWrite_direct r _ _ hd, ht]

theorem exec_dqResRead_reached (r : Requester) (hr : s.reachable (E7.dqRes c.val) = true) :
    exec (.dqResRead r c) s = .next (s.dqResRead c.val) := if_pos hr

end Dali

section Ashpit
variable (s : State)

/-! ## The event log and the trace ring (R484 to R486) -/

/-- A record leaves the intake for the ring, or is lost where the DRAM takes none. -/
theorem exec_traceIntake_taken (w : List Word) (rest : List (List Word)) (t : State) (hi : s.logs.intake = w :: rest)
    (htr : s.tracing = true) (ht : t = { s with logs := { s.logs with intake := rest } }) :
    exec .traceIntake s = .next (if s.dramReady then t.ringPut w else t.traceLost) := by
  change execTraceIntake s = _
  cases hready : s.dramReady <;>
    simp only [execTraceIntake, hi, htr, hready, ht, Bool.not_true, Bool.not_false, Bool.false_eq_true, if_false, if_true]

/-- A record short of the ring's end, in a ring that takes it, is stored at the head, which moves on. -/
theorem State.ringPut_stored (w : List Word)
    (hroom : (s.bit C11.traceCfg 1 && s.fld C11.traceHead 24 0 + 1 == s.fld C11.traceTail 24 0) = false)
    (hend : s.fld C11.traceHead 24 0 + 1 < s.ringSize) (t : State)
    (ht : t = { s with dram := Mem.setWords s.dram (s.fld C11.traceBase 13 0 * 1048576 + s.fld C11.traceHead 24 0 * 32) w }) :
    s.ringPut w = t.wr C11.traceHead (BitVec.ofNat 32 (s.fld C11.traceHead 24 0 + 1)) := by
  simp only [State.ringPut, Nat.not_le.mpr hend, hroom, ht, Nat.succ_ne_zero, decide_false, Bool.false_and, Bool.false_eq_true, if_false]

/-- EVT_RD_IDX latches the words of the record in the slot. -/
theorem exec_evtRdIdx_recorded (r : Requester) (w : Word) (e : EvRec) (t : State) (hd : s.direct r C11.evtRdIdx = true)
    (ht : t = s.wr C11.evtRdIdx (BitVec.ofNat 32 (bitsOf w 11 0))) (he : s.logs.slot (bitsOf w 11 0) = some e) :
    exec (.evtRdIdx r w) s = .next (t.wrArr (C11.evtRd 0) e.words) := by
  have hlogs : t.logs = s.logs := by rw [ht, State.wr_logs]
  change execEvtRdIdx r w s = _
  simp only [execEvtRdIdx, s.cmdWrite_direct r _ _ hd, ← ht, hlogs, he]

theorem exec_evtClr_direct (r : Requester) (w : Word) (hd : s.direct r C11.evtClr = true) :
    exec (.evtClr r w) s = .next
      (if bitOf w 0 then { s.wr C11.evtOverflow 0 with logs := { s.logs with events := [], head := 0 } } else s) :=
  congrArg Host.Outcome.next (s.cmdWrite_direct r _ _ hd)

end Ashpit

/-- Settles O51: a channel's rows by what its bus and queue hold, the log's and the ring's by their guards. -/
theorem daliAndLogs : Obligations.DaliAndLogs := by
  refine ⟨?levelStarts, ?levelCollides, ?queuedCollides, ?tenth, ?levelEnds, ?levelNone, ?sent, ?answered, ?push, ?full, ?flush,
    ?flushNone, ?result, ?noResult, ?bus, ?latch, ?clear, ?clearNot, ?intake, ?ring, ?lost⟩
  case levelStarts =>
    rintro c delayed f v s t hw hbus hup hon rfl hnone
    exact exec_daliLevelFrame_starts s c delayed f v _ hw (s.daliLevelStart_free c f v hw hbus hup hon) hnone
  case levelCollides =>
    exact fun c f s hbus => exec_daliCollision_level s c f hbus
  case queuedCollides =>
    intro c f s hbus hfew
    rw [exec_daliCollision_queued s c f hbus, if_pos hfew]
  case tenth =>
    intro c f s hbus hten
    rw [exec_daliCollision_queued s c f hbus, if_neg (Nat.not_lt.mpr hten)]
  case levelEnds =>
    exact fun c ans f s hbus => exec_daliFrameDone_level s c ans f hbus
  case levelNone =>
    exact fun c delayed s hw => exec_daliLevelFrame_queue s c delayed hw
  case sent =>
    intro c ans f s t hbus ha ht
    have hend : daliEnd f ans = (0, 0) := by simp only [daliEnd, ha, Bool.false_eq_true, if_false]
    rw [exec_daliFrameDone_queued s c ans f t hbus ht, hend]
  case answered =>
    intro c b f s t hbus ha ht
    refine ⟨?_, ?_, ?_⟩ <;> rw [exec_daliFrameDone_queued s c _ f t hbus ht, daliEnd, if_pos ha]
  case push =>
    exact fun r c w s hd hroom => congrArg Host.Outcome.next ((s.dqPush_direct c r w hd).trans (if_pos hroom))
  case full =>
    exact fun r c w s hd hfull => congrArg Host.Outcome.next ((s.dqPush_direct c r w hd).trans (if_neg (Nat.not_lt.mpr hfull)))
  case flush =>
    intro r c w s hd hq
    exact congrArg Host.Outcome.next ((s.dqFlush_direct c r hd _ rfl).trans (if_neg (fun h => hq (List.isEmpty_iff.mp h))))
  case flushNone =>
    intro r c w s hd hq
    have hflush := (s.dqFlush_direct c r hd _ rfl).trans (if_pos (List.isEmpty_iff.mpr hq))
    rw [hq, List.map_nil, List.append_nil] at hflush
    exact congrArg Host.Outcome.next hflush
  case result =>
    intro r c w l s hr hl
    rw [exec_dqResRead_reached s c r hr]
    simp only [State.dqResRead, hl]
  case noResult =>
    intro r c s hr hl
    rw [exec_dqResRead_reached s c r hr]
    simp only [State.dqResRead, hl]
  case bus =>
    exact fun c s => ⟨rfl, rfl⟩
  case latch =>
    exact fun r w e s t hd ht he => exec_evtRdIdx_recorded s r w e t hd ht he
  case clear =>
    intro r w s hd hw
    rw [exec_evtClr_direct s r w hd, if_pos hw]
  case clearNot =>
    intro r w s hd hw
    rw [exec_evtClr_direct s r w hd, if_neg (Bool.eq_false_iff.mp hw)]
  case intake =>
    intro w rest s t hi htr hready ht
    rw [exec_traceIntake_taken s w rest t hi htr ht, if_pos hready]
  case ring =>
    exact fun w s t hroom hend ht => s.ringPut_stored w hroom hend t ht
  case lost =>
    intro w rest s t hi htr hready ht
    rw [exec_traceIntake_taken s w rest t hi htr ht, if_neg (Bool.eq_false_iff.mp hready)]

end Sys2Proof.Machine

/-! # The DMA channels: O45 -/

namespace Sys2Proof.Machine

/-- A fold in which no element of the list does anything leaves its start. -/
theorem foldl_eq_self_of_fixed {α β : Type} (f : β → α → β) (l : List α) (b : β) (h : ∀ x ∈ l, f b x = b) :
    l.foldl f b = b := by
  induction l with
  | nil => rfl
  | cons x l ih => rw [List.foldl_cons, h x (List.mem_cons_self ..), ih fun y hy => h y (List.mem_cons_of_mem _ hy)]

/-- A fold in which one element of the list alone does anything is what that element does. -/
theorem foldl_eq_of_unique {α β : Type} (f : β → α → β) (l : List α) (a : α) (b : β) (ha : a ∈ l) (hl : l.Nodup)
    (hbefore : ∀ x ∈ l, x ≠ a → f b x = b) (hafter : ∀ x ∈ l, x ≠ a → f (f b a) x = f b a) : l.foldl f b = f b a := by
  obtain ⟨pre, post, rfl⟩ := List.append_of_mem ha
  obtain ⟨hpre, hpost⟩ : a ∉ pre ∧ a ∉ post := by
    obtain ⟨-, hrest, hapart⟩ := List.nodup_append.mp hl
    exact ⟨fun h => hapart a h a (List.mem_cons_self ..) rfl, (List.nodup_cons.mp hrest).1⟩
  rw [List.foldl_append, List.foldl_cons,
    foldl_eq_self_of_fixed f pre b fun x hx => hbefore x (List.mem_append_left _ hx) (ne_of_mem_of_not_mem hx hpre)]
  exact foldl_eq_self_of_fixed f post _ fun x hx =>
    hafter x (List.mem_append_right _ (List.mem_cons_of_mem _ hx)) (ne_of_mem_of_not_mem hx hpost)

section Channels
variable (s : State)

theorem radioClass_low {n : Nat} (h : n < 16) : radioClass n = true := decide_eq_true h

theorem radioClass_high {n : Nat} (h : 16 ≤ n) : radioClass n = false := decide_eq_false (Nat.not_lt.mpr h)

/-! ## Descriptors and bursts (R380, R383, R391) -/

/-- A descriptor that fails its check, touches no image and asks for no write-back ends the channel in ERROR. -/
theorem State.descFail_recorded (n reason : Nat) (w : List Word) (h3 : reason ≠ 3) (hwb : wbOf w = false) :
    s.descFail n reason (some w) = (s.chFail n reason).err C5.page 0x0102 (BitVec.ofNat 32 (n * 256 + reason)) := by
  simp only [State.descFail, h3, hwb, Bool.false_eq_true, if_false]
  cases s.imageHit w <;> rfl

/-- A descriptor in memory that can be read is checked whole, and ends the channel where it fails. -/
theorem State.takeDesc_fails (n reason : Nat) (x : DmaAddr) (host : List Word) (u : State) (w : List Word)
    (hplace : (s.setCur n x).descPlace x = none) (hspace : x.space ≠ 0) (hfrozen : x.space ≠ 2 ∨ s.dm ≠ dmFrozen)
    (hw : w = (s.setCur n x).fetchDesc x host)
    (hu : u = ((s.setCur n x).onChan n (fun c => { c with desc := w.take 12, pos := 0, tail := false, unread := false })).showResidue n)
    (hfault : u.descFault n w = some reason) : s.takeDesc n x host = u.descFail n reason (some w) := by
  have hread : (decide (x.space = 2) && decide (s.dm = dmFrozen)) = false := by
    rw [Bool.and_eq_false_iff, decide_eq_false_iff_not, decide_eq_false_iff_not]
    exact hfrozen
  simp only [State.takeDesc, hplace, hspace, hread, ← hw, ← hu, hfault, decide_false, Bool.false_and, Bool.false_eq_true, if_false]

/-- The record of which channel of a class was served last (R380). -/
def State.served (s : State) (n : Nat) : State :=
  { s with dma := if radioClass n then { s.dma with lastRadio := n } else { s.dma with lastHost := n - 16 } }

/-- DMA_BURST serves the channel of the next issue slot, which HOST and the DRAM may refuse. -/
theorem exec_dmaBurst_next (host : List Byte) (n : Nat) (hn : s.nextChan = some n) :
    exec (.dmaBurst host) s = .next
      (if s.hostSide n && !s.hostUp then ((s.served n).showResidue n).chFail n 6
      else if s.dramSide n && s.dm = dmFrozen then (s.served n).chFrozen n
      else if s.dramSide n && s.dm ≠ dmReady then ((s.served n).showResidue n).chFail n 8
      else (s.served n).burst n host) := by
  change execDmaBurst host s = _
  simp only [execDmaBurst, hn, apply_ite Host.Outcome.next]
  rfl

/-! ## Requests (R386) -/

/-- What a pulse of a request line does to one channel. -/
def State.dmaPulse (s : State) (line n : Nat) : State :=
  if line = 0 || s.fld (C5.chPace n) 7 0 ≠ line || s.ch n = chIdle || 5 ≤ s.ch n then s
  else if (s.chan n).reqs < 16 then (s.onChan n (fun x => { x with reqs := x.reqs + 1 })).pace n
  else (s.count (C5.chReqOvr n) 1).raise C5.page 3

theorem State.dmaRequest_eq (line : Nat) : s.dmaRequest line = (List.range 32).foldl (fun t n => t.dmaPulse line n) s := rfl

/-- A channel paced by another line takes no request. -/
theorem State.dmaPulse_otherLine (line n : Nat) (h : s.fld (C5.chPace n) 7 0 ≠ line) : s.dmaPulse line n = s := by
  simp only [State.dmaPulse, h, ne_eq, not_false_eq_true, decide_true, Bool.or_true, Bool.true_or, if_true]

/-- One under way on this line, with room, does. -/
theorem State.dmaPulse_taken (line n : Nat) (h0 : line ≠ 0) (hl : s.fld (C5.chPace n) 7 0 = line) (hrun : s.ch n ≠ chIdle)
    (hend : s.ch n < 5) (hroom : (s.chan n).reqs < 16) :
    s.dmaPulse line n = (s.onChan n (fun x => { x with reqs := x.reqs + 1 })).pace n := by
  simp only [State.dmaPulse, h0, hl, hrun, Nat.not_le.mpr hend, hroom, ne_eq, not_true_eq_false, decide_false, Bool.or_self,
    Bool.false_eq_true, if_false, if_true]

/-- A channel's state is shown in its own CH_STAT and in DMA_PAUSED_MAP; every CH_PACE reads as before. -/
theorem State.rd_setCh_chPace (n st k : Nat) : (s.setCh n st).rd (C5.chPace k) = s.rd (C5.chPace k) := by
  have hmap : C5.chPace k ≠ C5.dmaPausedMap := by unfold C5.chPace C5.dmaPausedMap; omega
  have hstat : C5.chPace k ≠ C5.chStat n := by unfold C5.chPace C5.chStat; omega
  rw [State.setCh, State.rd_setBit, if_neg hmap, State.rd_setFld, if_neg hstat]

theorem State.rd_onChan (n : Nat) (f : DmaChan → DmaChan) (a : Nat) : (s.onChan n f).rd a = s.rd a := rfl

/-- Pacing leaves every CH_PACE. -/
theorem State.rd_pace_chPace (n k : Nat) : (s.pace n).rd (C5.chPace k) = s.rd (C5.chPace k) := by
  unfold State.pace
  split
  · dsimp only
    rw [State.rd_setCh_chPace, State.rd_onChan]
  · rfl

/-- A line that paces one channel, which takes the request, reaches that channel alone. -/
theorem State.dmaRequest_one (n line : Nat) (hn : n < 32) (h0 : line ≠ 0) (hl : s.fld (C5.chPace n) 7 0 = line) (hrun : s.ch n ≠ chIdle)
    (hend : s.ch n < 5) (hroom : (s.chan n).reqs < 16) (hother : ∀ k < 32, k ≠ n → s.fld (C5.chPace k) 7 0 ≠ line) :
    s.dmaRequest line = (s.onChan n (fun x => { x with reqs := x.reqs + 1 })).pace n := by
  have htaken := s.dmaPulse_taken line n h0 hl hrun hend hroom
  have hafter : ∀ k, (s.dmaPulse line n).fld (C5.chPace k) 7 0 = s.fld (C5.chPace k) 7 0 := by
    intro k
    rw [htaken, State.fld, State.rd_pace_chPace, State.rd_onChan, State.fld]
  rw [s.dmaRequest_eq, foldl_eq_of_unique (fun t n => State.dmaPulse t line n) _ n s (List.mem_range.mpr hn) List.nodup_range, htaken]
  case hbefore =>
    exact fun k hk hkn => s.dmaPulse_otherLine line k (hother k (List.mem_range.mp hk) hkn)
  case hafter =>
    exact fun k hk hkn => State.dmaPulse_otherLine _ line k (hafter k ▸ hother k (List.mem_range.mp hk) hkn)

/-! ## The end of a descriptor (R392) -/

/-- The last descriptor of a chain, with no write-back, completes the channel. -/
theorem State.descEnd_last (k : Nat) (host : List Word) (hl : (s.chan k).last = true) (hwb : wbOf (s.chan k).desc = false) :
    s.descEnd k host = ((((s.setFld (C5.chStat k) 23 16 (s.fld (C5.chStat k) 23 16 + 1)).setCh k chComplete).chEnd k).sourceEvent k).onChan
      k (fun y => { y with tail := false, abort := false }) := by
  simp only [State.descEnd, hl, hwb, Bool.true_or, Bool.false_eq_true, if_true, if_false]

/-- A running channel whose bytes have all moved, and that writes nothing back, ends its descriptor. -/
theorem exec_descriptorEnd_moved (n : Fin 32) (host : List Word) (hrun : s.ch n.val = chRunning) (ht : (s.chan n.val).tail = true)
    (hwb : wbOf (s.chan n.val).desc = false) : exec (.descriptorEnd n host) s = .next (s.descEnd n.val host) := by
  change execDescriptorEnd n host s = _
  simp only [execDescriptorEnd, hrun, ht, hwb, decide_true, Bool.true_or, Bool.not_true, Bool.or_self, Bool.false_and, Bool.false_eq_true,
    if_false]

end Channels

/-- Settles O45: a command by the channel's class and state, a burst by the sides of its descriptor, a request by the line. -/
theorem dmaChannels : Obligations.DmaChannels := by
  refine ⟨?start, ?startBanked, ?startState, ?descFails, ?pause, ?hostClass, ?paused, ?resume, ?resumeUnread, ?notPaused, ?abort,
    ?abortLate, ?abortClass, ?burst, ?noHost, ?frozen, ?dramOff, ?request, ?level, ?hostError, ?last⟩
  case start =>
    rintro r n host s t hd hp hst rfl
    have hstate : (decide (s.ch n.val ≠ chIdle) && decide (s.ch n.val < 5)) = false := by
      rw [Bool.and_eq_false_iff, decide_eq_false_iff_not, decide_eq_false_iff_not, Decidable.not_not, Nat.not_lt]
      exact hst
    refine congrArg Host.Outcome.next ((s.cmdWrite_direct r _ _ hd).trans ?_)
    simp only [beq_false_of_ne hp, hstate, Bool.and_false, Bool.false_eq_true, if_false]
  case startBanked =>
    intro r n host s hd hn hp
    refine congrArg Host.Outcome.next ((s.cmdWrite_direct r _ _ hd).trans ?_)
    simp only [radioClass_low hn, hp, beq_self_eq_true, Bool.and_self, if_true]
  case startState =>
    intro r n host s hd hp hidle hend
    refine congrArg Host.Outcome.next ((s.cmdWrite_direct r _ _ hd).trans ?_)
    simp only [beq_false_of_ne hp, hidle, hend, ne_eq, not_false_eq_true, decide_true, Bool.and_self, Bool.and_false, Bool.false_eq_true,
      if_false, if_true]
  case descFails =>
    rintro n reason x host s t u w rfl hplace hspace hfrozen hw hu hfault h3 hwb
    rw [s.takeDesc_fails n reason x host u w hplace hspace hfrozen hw hu hfault, u.descFail_recorded n reason w h3 hwb]
  case pause =>
    intro r n s hd hn hrun ht
    refine congrArg Host.Outcome.next ((s.cmdWrite_direct r _ _ hd).trans ?_)
    simp only [radioClass_low hn, hrun, ht, ne_eq, not_true_eq_false, decide_false, Bool.false_and, Bool.not_true, Bool.false_eq_true,
      if_false]
  case hostClass =>
    intro r n s hd hn
    refine ⟨?_, ?_, ?_⟩ <;> refine congrArg Host.Outcome.next ((s.cmdWrite_direct r _ _ hd).trans ?_) <;>
      simp only [radioClass_high hn, Bool.not_false, if_true]
  case paused =>
    exact fun n s hst => if_pos hst
  case resume =>
    intro r n s hd hn hst hread
    refine ⟨?_, ?_⟩ <;> refine congrArg Host.Outcome.next ((s.cmdWrite_direct r _ _ hd).trans ?_) <;>
      simp only [radioClass_low hn, hst, hread, ne_eq, not_true_eq_false, Bool.not_true, Bool.false_eq_true, if_false]
  case resumeUnread =>
    rintro r n s t hd hn hst hread rfl
    refine congrArg Host.Outcome.next ((s.cmdWrite_direct r _ _ hd).trans ?_)
    simp only [radioClass_low hn, hst, hread, ne_eq, not_true_eq_false, Bool.not_true, Bool.false_eq_true, if_false, if_true]
  case notPaused =>
    intro r n s hd hn hst
    refine ⟨?_, ?_⟩ <;> refine congrArg Host.Outcome.next ((s.cmdWrite_direct r _ _ hd).trans ?_) <;>
      simp only [radioClass_low hn, hst, ne_eq, not_false_eq_true, Bool.not_true, Bool.false_eq_true, if_false, if_true]
  case abort =>
    intro r n s hd hn hrun ht hwb
    have hlow : ¬ 5 ≤ chRunning := by decide
    refine congrArg Host.Outcome.next ((s.cmdWrite_direct r _ _ hd).trans ?_)
    simp only [radioClass_high hn, hrun, hlow, ht, hwb, ne_eq, not_true_eq_false, decide_false, Bool.false_and, Bool.false_eq_true,
      if_false]
  case abortLate =>
    intro r n s hd hn hend
    refine congrArg Host.Outcome.next ((s.cmdWrite_direct r _ _ hd).trans ?_)
    simp only [radioClass_high hn, hend, Bool.false_eq_true, if_false, if_true]
  case abortClass =>
    intro r n s hd hn
    exact congrArg Host.Outcome.next ((s.cmdWrite_direct r _ _ hd).trans (if_pos (radioClass_low hn)))
  case burst =>
    rintro host n s t hn rfl hhost hdram
    have hfrozen : (s.dramSide n && decide (s.dm = dmFrozen)) = false := by
      rw [Bool.and_eq_false_iff, decide_eq_false_iff_not]
      exact hdram.imp_right fun h => by rw [h]; decide
    have hready : (s.dramSide n && decide (s.dm ≠ dmReady)) = false := by
      rw [Bool.and_eq_false_iff, decide_eq_false_iff_not, Decidable.not_not]
      exact hdram
    rw [exec_dmaBurst_next s host n hn]
    simp only [hhost, hfrozen, hready, Bool.false_and, Bool.false_eq_true, if_false]
    rfl
  case noHost =>
    rintro host n s t hn rfl hhost hdown
    rw [exec_dmaBurst_next s host n hn]
    simp only [hhost, hdown, Bool.not_false, Bool.and_self, if_true]
    rfl
  case frozen =>
    rintro host n s t hn rfl hhost hdram hfrozen
    have hside : s.dramSide n = true := hdram
    rw [exec_dmaBurst_next s host n hn]
    simp only [hhost, hside, hfrozen, decide_true, Bool.and_self, Bool.false_and, Bool.false_eq_true, if_false, if_true]
    rfl
  case dramOff =>
    rintro host n s t hn rfl hhost hdram hfrozen hready
    have hside : s.dramSide n = true := hdram
    rw [exec_dmaBurst_next s host n hn]
    simp only [hhost, hside, hfrozen, hready, ne_eq, not_false_eq_true, decide_true, decide_false, Bool.and_self, Bool.and_false,
      Bool.false_and, Bool.false_eq_true, if_false, if_true]
    rfl
  case request =>
    exact fun n line s h0 hl hrun hend hroom hother =>
      congrArg Host.Outcome.next (s.dmaRequest_one n.val line n.isLt h0 hl hrun hend hroom hother)
  case level =>
    exact fun r n w s hd => congrArg Host.Outcome.next (s.cmdWrite_direct r _ _ hd)
  case hostError =>
    intro n s hlow hhigh hhost
    change execDmaHostError n s = _
    simp only [execDmaHostError, hlow, hhigh, hhost, decide_true, Bool.and_self, if_true]
  case last =>
    rintro n host s t hrun ht hl hwb rfl
    rw [exec_descriptorEnd_moved s n host hrun ht hwb, s.descEnd_last n.val host hl hwb]

end Sys2Proof.Machine
